-- ==== Sys2Proof/Word.lean ====
section
/-! DEFINITION. The word types of the module (R4) and their plainest arithmetic, and `Quad`, the record of
four like units (loaves, groups, feedback channels, mailboxes, connections; R1 numbers them 0 to 3). -/

namespace Sys2Proof

/-- A byte, R2. -/
abbrev Byte := BitVec 8
/-- A 16-bit word: fault codes, CRC-16 values, R10, R30. -/
abbrev Half := BitVec 16
/-- A 32-bit window, command or payload word, R127, R140. -/
abbrev Word := BitVec 32

/-- Four like units, numbered 0 to 3 (R1). -/
structure Quad (α : Type) where
  q0 : α
  q1 : α
  q2 : α
  q3 : α
deriving DecidableEq, Repr, Inhabited

namespace Quad

/-- The same value in every unit. -/
def all {α : Type} (a : α) : Quad α := ⟨a, a, a, a⟩

/-- The entry of unit `n`. -/
def get {α : Type} (q : Quad α) (n : Fin 4) : α :=
  match n with
  | 0 => q.q0
  | 1 => q.q1
  | 2 => q.q2
  | 3 => q.q3

/-- `q` with the entry of unit `n` replaced. -/
def set {α : Type} (q : Quad α) (n : Fin 4) (a : α) : Quad α :=
  match n with
  | 0 => { q with q0 := a }
  | 1 => { q with q1 := a }
  | 2 => { q with q2 := a }
  | 3 => { q with q3 := a }

/-- Every entry mapped, with its unit number. -/
def mapIdx {α β : Type} (q : Quad α) (f : Fin 4 → α → β) : Quad β :=
  ⟨f 0 q.q0, f 1 q.q1, f 2 q.q2, f 3 q.q3⟩

/-- The entries in order of their number. -/
def toList {α : Type} (q : Quad α) : List α := [q.q0, q.q1, q.q2, q.q3]

end Quad

/-- Six like units: the converters CV0 to CV5 (R213). -/
structure Six (α : Type) where
  c0 : α
  c1 : α
  c2 : α
  c3 : α
  c4 : α
  c5 : α
deriving DecidableEq, Repr, Inhabited

namespace Six

/-- The same value in every unit. -/
def all {α : Type} (a : α) : Six α := ⟨a, a, a, a, a, a⟩

/-- The entry of unit `k`. -/
def get {α : Type} (q : Six α) (k : Fin 6) : α :=
  match k with
  | 0 => q.c0
  | 1 => q.c1
  | 2 => q.c2
  | 3 => q.c3
  | 4 => q.c4
  | 5 => q.c5

/-- `q` with the entry of unit `k` replaced. -/
def set {α : Type} (q : Six α) (k : Fin 6) (a : α) : Six α :=
  match k with
  | 0 => { q with c0 := a }
  | 1 => { q with c1 := a }
  | 2 => { q with c2 := a }
  | 3 => { q with c3 := a }
  | 4 => { q with c4 := a }
  | 5 => { q with c5 := a }

/-- The entries in order of their number. -/
def toList {α : Type} (q : Six α) : List α := [q.c0, q.c1, q.c2, q.c3, q.c4, q.c5]

end Six

/-- The four unit numbers. -/
def units4 : List (Fin 4) := [0, 1, 2, 3]
/-- The six converter numbers. -/
def units6 : List (Fin 6) := [0, 1, 2, 3, 4, 5]

/-- Bit `i` of a natural number. -/
def bitOf (v i : Nat) : Bool := v.testBit i
/-- A Boolean as the bit it stands for. -/
def b2n (b : Bool) : Nat := if b then 1 else 0
/-- A number with bit `i` at `b`. -/
def putBit (v i : Nat) (b : Bool) : Nat :=
  if b then (if v.testBit i then v else v + 2 ^ i) else (if v.testBit i then v - 2 ^ i else v)
/-- The field of `n` bits of `v` from bit `lo` upward. -/
def fieldOf (v lo n : Nat) : Nat := v / 2 ^ lo % 2 ^ n
/-- The two's complement value of the low `n` bits of `v`. -/
def signExt (n v : Nat) : Int :=
  let w := v % 2 ^ n
  if w < 2 ^ (n - 1) then (w : Int) else (w : Int) - 2 ^ n
/-- The low `n` bits of an integer in two's complement. -/
def toBits (n : Nat) (v : Int) : Nat := (v % (2 ^ n : Int)).toNat
/-- An integer held between two bounds. -/
def clampI (lo hi v : Int) : Int := if v < lo then lo else if hi < v then hi else v
/-- A rational held between two bounds. -/
def clampR (lo hi v : Rat) : Rat := if v < lo then lo else if hi < v then hi else v
/-- The integer part of a quotient, truncated toward zero (the pseudocode's division, 00_scope). -/
def truncR (q : Rat) : Int := if q < 0 then -((-q).floor) else q.floor
/-- The magnitude of a rational. -/
def absR (q : Rat) : Rat := if q < 0 then -q else q

end Sys2Proof
end

