-- ==== Sys2Proof/Syntax.lean ====
section
/-! DEFINITION. The commands of the module: one constructor per row of spec/opcode_table.json, in the table's
order. The table gives a row no operands; the operands are those its rule names (the loaf, the source of a
command, a value written, a pad level, an instant). An operand `t` is the CK_CTL cycle of the event on the
local timebase of region C (R21, R226). -/

namespace Sys2Proof

/-- Who sent a firmware command: a mailbox or a network connection (R143, R165). -/
inductive Source where
  | mb (n : Fin 4)
  | net (c : Fin 4)
deriving DecidableEq, Repr, Inhabited

/-- The two dies, R11. -/
inductive Region where
  | c
  | m
deriving DecidableEq, Repr, Inhabited

/-- The two safety channels, R374. -/
inductive Chan where
  | c
  | m
deriving DecidableEq, Repr, Inhabited

/-- The safety inputs, numbered as R381 numbers them. -/
inductive SafetyInput where
  | stoA
  | stoB
  | guardA
  | guardB
deriving DecidableEq, Repr, Inhabited

/-- The supply monitors of R64 that have a row of their own (VIN under has its own command). -/
inductive Monitor where
  | vinOver
  | vioGUnder
  | vioGOver
  | vioHUnder
  | vioHOver
  | coreRail (region : Region)
  | vbatLow
  | agndOffset
deriving DecidableEq, Repr, Inhabited

/-- The instructions of the TAPs, R81. -/
inductive TapIns where
  | bypass
  | idcode
  | samplePreload
  | extest
  | clamp
  | highz
deriving DecidableEq, Repr, Inhabited

/-- A Peel packet as received, R30: header bytes, payload and the CRC field. -/
structure Packet where
  clsTyp  : Byte
  seq     : Byte
  ackseq  : Byte
  payload : List Byte
  crc     : Half
deriving DecidableEq, Repr, Inhabited

/-- Which source of work of a converter took a sample, R220 to R222. -/
inductive SampleKind where
  | regular
  | injected
  | burst
  /-- A regular sample held and stamped, its result still to come (R226). -/
  | held
deriving DecidableEq, Repr, Inhabited

/-- What a serial encoder transfer brought, R266, R267. -/
structure SerialResult where
  /-- `FBn_A` as sampled, one level a clock: in mode 3 at each rising edge from the second on, in mode 4 from the first clock
  on (after the line delay). -/
  line  : List Bool
  /-- Its level when the clock returns to idle. -/
  idle  : Bool
  /-- The measured line delay in ns (mode 4). -/
  delay : Nat
deriving DecidableEq, Repr, Inhabited

/-- One object write as carried in a configuration image: its address word and value words (R496). -/
structure ImageWrite where
  addrWord : Word
  vals     : List Word
deriving DecidableEq, Repr, Inhabited

/-- One entry of the user table, R481. -/
structure User where
  role    : Nat
  hmacKey : List Byte
  pubHash : List Byte
deriving DecidableEq, Repr, Inhabited

/-- What a configuration image holds once verified and decrypted, R496. -/
structure ConfigImage where
  version  : Nat
  ownerKey : Option (List Byte)
  caCert   : List Byte
  users    : List User
  writes   : List ImageWrite
  /-- CRC-32 of the image, shown in `CONFIG_CRC`. -/
  crc      : Nat
deriving DecidableEq, Repr, Inhabited

/-- The kinds of PTP message the switch tells apart, R418 to R420. -/
inductive PtpKind where
  | sync
  | followUp
  | delayReq
  | delayResp
  | announce
  | pdelay
  | other
deriving DecidableEq, Repr, Inhabited

/-- A received Ethernet frame, R409: what forwarding looks at. -/
structure EthFrame where
  dst   : Nat
  src   : Nat
  len   : Nat
  fcsOk : Bool
  vid   : Nat
  ptp   : Option PtpKind
  /-- The PTP message travels in UDP/IPv4 (otherwise Layer 2). -/
  udp   : Bool
  /-- Multicast to a PTP address. -/
  ptpMc : Bool
  /-- Two-step flag of a Sync. -/
  twoStep : Bool
  /-- sourcePortIdentity and sequenceId, for matching a Follow_Up. -/
  ptpId : Nat
  ptpSeq : Nat
  /-- correctionField in 2^-16 ns. -/
  corr  : Int
deriving DecidableEq, Repr, Inhabited

/-- What the header of a PTP message names, R418. -/
structure PtpHead where
  domain  : Nat
  /-- Carried in UDP/IPv4 (otherwise Layer 2). -/
  udp     : Bool
  version : Nat
  /-- sourcePortIdentity: clockIdentity and port number. -/
  src     : Nat × Nat
  seq     : Nat
  /-- requestingPortIdentity, of a response. -/
  req     : Nat × Nat := (0, 0)
deriving DecidableEq, Repr, Inhabited

/-- An Announce message as the best master clock algorithm reads it, R418. -/
structure Announce where
  port      : Fin 2
  head      : PtpHead
  /-- logMessageInterval of the message. -/
  logEvery  : Int
  priority1 : Nat
  clockClass : Nat
  accuracy  : Nat
  variance  : Nat
  priority2 : Nat
  gmId      : Nat
  steps     : Nat
deriving DecidableEq, Repr, Inhabited

/-- An ICMP echo request that reaches the endpoint, R412. -/
structure EchoRequest where
  peer     : Nat
  payload  : List Byte
  /-- It arrived as fragments. -/
  fragment : Bool
deriving DecidableEq, Repr, Inhabited

/-- A TCP connection request, R414. -/
structure TcpRequest where
  ip      : Nat
  srcPort : Nat
  dstPort : Nat
deriving DecidableEq, Repr, Inhabited

/-- What a TLS client offered and proved, R414. -/
structure TlsOffer where
  tls13   : Bool
  /-- The cipher suites, by number. -/
  suites  : List Nat
  /-- ECDHE on secp256r1 is offered. -/
  p256    : Bool
  /-- The client authenticates with an ECDSA P-256 certificate, not with a pre-shared key. -/
  cert    : Bool
  /-- Its chain ends at the stored CA certificate (R483). -/
  chainOk : Bool
deriving DecidableEq, Repr, Inhabited

/-- A synchronised edge at a pad an event timestamp unit can select, R435: 0 to 7 `TRIP0` to `TRIP7`, 8 to 11 `FB0_Z` to
`FB3_Z`. -/
structure EtsEdge where
  pad    : Fin 12
  rising : Bool
deriving DecidableEq, Repr, Inhabited

/-- The levels of the pair's input pads, R462, R465. -/
structure PairPads where
  /-- `ROLE_PARTNER`. -/
  partner : Bool
  /-- `ML_PRES`. -/
  present : Bool
deriving DecidableEq, Repr, Inhabited

/-- The commands of the module, one per row of spec/opcode_table.json. -/
inductive Instr where
  -- supplies, reset, boot (chapters 2 and 3)
  | powerOn (vin vioG vioH vbat : Int)
  | externalReset (lowNs : Nat)
  | resetEnd
  | swResetRead (pole1 pole2 : BitVec 12)
  | secureBoot (vendorKeyOk slotAOk slotBOk : Bool)
  | askardStart
  | pllLock
  | peelTrainingComplete
  | peelTrainTimeout
  | configEntry
  | configImageApplied
  | safetyBindingCheck
  | safetyParamReadback (crustCrc : Word)
  | refReadySet (k : Fin 6)
  | refSettleTimeout (k : Fin 6)
  | refLost (k : Fin 6)
  | vinUnder (mv : Int)
  | vinHoldupEnd (vin : Int)
  | supplyMonitorFault (m : Monitor) (value : Int)
  | supplyMonitorClear (m : Monitor) (value : Int)
  | tempMonitor (r : Region) (tenths : Int)
  | switchPoll (pole1 pole2 : BitVec 12)
  | coverSample (isOpen : Bool)
  | tapInstructionLoad (tap : Region) (ins : TapIns)
  | tapRelock
  | ckCtlLoss
  | ckSafeStop
  | ckSafeDeviation (hz : Nat)
  | ckAdcFault
  | ckAdcRecovered
  | ckMgtDeviation
  | watchdogExpiry
  | watchdogReset
  | standbyClockFault
  | standbyClockRecovered
  | timeCounterReload
  | wakeAlarmCompare
  | standbySupplyLoss
  | transitionBegin
  -- host port (chapter 4)
  | hostWriteFrame (bytes : List Byte) (bits gapNs : Nat)
  | hostReadFrame (bytes : List Byte) (bits gapNs : Nat)
  | dbIn (w : Word)
  | dbOut (w : Word)
  | tsCtrl (w : Word)
  | tsLatchComplete
  | hbHost (w : Word)
  | irqFlags (w : Word)
  | hostCntClr (w : Word)
  | windowRegisterWrite (addr : Nat) (w : Word)
  | hbModuleTick (t : Nat)
  | mailboxTake
  | mb2DeliveryOut
  -- firmware commands (chapter 5)
  | echo (src : Source)
  | get (src : Source)
  | set (src : Source)
  | getBlock (src : Source)
  | setBlock (src : Source)
  | swapBank (src : Source)
  | swapBankTimeout (src : Source)
  | loafStateOff (src : Source)
  | loafStateOpen (src : Source)
  | loafStateClosed (src : Source)
  | groupStateStart (src : Source)
  | groupStateStop (src : Source)
  | move (src : Source)
  | faultAck (src : Source)
  | faultClear (src : Source)
  | calZero (src : Source)
  | calFull (src : Source)
  | calComplete (src : Source)
  | calTimeout (src : Source)
  | captureArm (src : Source)
  | captureDisarm (src : Source)
  | captureTriggerNow (src : Source) (t : Nat)
  | captureRead (src : Source)
  | captureReadTimeout (src : Source)
  | subscribeStart (src : Source)
  | subscribeCancel (src : Source)
  | sessionOpen (src : Source)
  | sessionAuth (src : Source)
  | sessionClose (src : Source)
  | updateBegin (src : Source)
  | updateChunk (src : Source)
  | updateCommitFirmware (src : Source) (verifies : Bool)
  | updateCommitConfig (src : Source) (verifies : Bool) (img : ConfigImage)
  | safetyLoad (src : Source) (verifies : Bool)
  | safetyAccept (src : Source)
  | injectDry (src : Source)
  | injectLive (src : Source)
  | injHoldExpiry (code inst : Half)
  | pairHandover (src : Source)
  | pairHandoverComplete (src : Source)
  | pairHandoverTimeout (src : Source)
  | timeStepMeasured (src : Source)
  | timeStepGiven (src : Source)
  -- object writes with a row of their own
  | moduleReqReady (src : Source)
  | moduleReqConfig (src : Source)
  | moduleReqStandby (src : Source)
  | moduleReqReset (src : Source)
  | peelStatsClr (v : Int)
  | ignClr (v : Int)
  | cmdCntClr (v : Int)
  | streamCntClr (v : Int)
  | pwmCntClr (n : Fin 4) (v : Int)
  | tripCntClr (v : Int)
  | convCntClr (k : Fin 6) (v : Int)
  | fbCntClr (n : Fin 4) (v : Int)
  | ovenCntClr (n : Fin 4) (v : Int)
  | protCntClr (n : Fin 4) (v : Int)
  | logClr (v : Int)
  | injCntClr (v : Int)
  | ethCntClr (v : Int)
  | ppCntClr (v : Int)
  | mlCntClr (v : Int)
  | supplyFlagsClear (v : Int)
  | satFlagsClear (k : Fin 6) (v : Int)
  | idxArm (n : Fin 4) (v : Int)
  | idxModeWrite (n : Fin 4) (v : Int)
  | fbModeWrite (n : Fin 4) (dirInv : Bool) (v : Int)
  | evtConfigWrite (n : Fin 4) (x : Fin 3) (presc : Bool) (v : Int)
  | openCmpWrite (n : Fin 4) (u v w : Option Int)
  | grpLoavesWrite (g : Fin 4) (v : Int)
  | tuIncWrite (u : Fin 7) (v : Int)
  | tuLoad (u : Fin 7) (v : Int)
  | hbNet (v : Int)
  | listTrigWrite (l : Fin 2) (v : Int)
  | manGo (v : Int)
  | ppAbort (v : Int)
  | attestNonce (v : Int)
  | attestationFormed (signature : List Byte)
  | objectWrite (addrWord : Word) (vals : List Word)
  -- the Peel link (chapter 1)
  | peelTxGrant (r : Region)
  | peelAck (at_ : Region) (p : Packet)
  | peelNak (at_ : Region) (p : Packet)
  | peelTrain (at_ : Region) (p : Packet)
  | peelRetxTimeout (r : Region)
  | peelRetrain
  | peelTimeout (r : Region)
  | heartbeatSend
  | heartbeat (p : Packet) (t : Nat)
  | syncSend
  | sync (p : Packet) (t : Nat)
  | event (p : Packet)
  | peelRecord (p : Packet)
  | peelCapture (p : Packet)
  | objWr (p : Packet)
  | objRd (p : Packet)
  | cmd (p : Packet)
  | objRsp (p : Packet)
  | cmdRsp (p : Packet)
  | faultPacketEvent (p : Packet)
  | faultPacketReport (p : Packet) (t : Nat)
  | faultPacketAck (p : Packet) (t : Nat)
  | faultPacketClear (p : Packet) (t : Nat)
  | faultPacketInject (p : Packet) (t : Nat)
  | haltNotification (p : Packet) (t : Nat)
  | debugHalt (t : Nat)
  -- faults, logs, heartbeats (chapter 11)
  | faultLatch (code inst : Half) (data : Int) (t : Nat)
  | graceExpiry (code inst : Half) (t : Nat)
  | nvLogWrite
  | auditLogWrite
  | hostHbTimeout
  | beatToggle (t : Nat)
  -- PWM (chapter 6)
  | counterStart (n : Fin 4) (t : Nat)
  | epochStartTick (n : Fin 4) (t : Nat)
  | periodStart (n : Fin 4) (t : Nat)
  | pwmPeak (n : Fin 4) (t : Nat)
  | frameBoundary (n : Fin 4) (t : Nat)
  | frameClose (n : Fin 4) (t : Nat)
  | loafFrameCompute (n : Fin 4) (t : Nat)
  | tripLatch (source : Fin 16) (n : Fin 4) (ns t : Nat)
  | tripCycleGap (source : Fin 16) (n : Fin 4) (ns t : Nat)
  | tripFilterDeassert (source : Fin 16) (n : Fin 4) (ns t : Nat)
  | readbackMismatch (n : Fin 4) (pad : Fin 7) (t : Nat)
  -- converters (chapter 7)
  | sampleResult (k : Fin 6) (input : Fin 9) (kind : SampleKind) (raw : Int) (inst t : Nat)
  | injectedSeqStart (k : Fin 4) (line : Fin 12) (t : Nat)
  | pairBurstStart (p : Fin 2) (line : Fin 12) (t : Nat)
  | sliceExclude (k : Fin 4) (slice : Fin 4)
  | mismatchConverged (k : Fin 4)
  | plausCompare (p : Fin 2) (t : Nat)
  | openWireDetect (k : Fin 6) (input : Fin 9) (t : Nat)
  | auxWindow (t : Nat)
  | captureComplete (t : Nat)
  -- feedback (chapter 8)
  | fbEdge (n : Fin 4) (a b z : Bool) (ns inst t : Nat)
  | indexEvent (n : Fin 4) (t : Nat)
  | hallInvalid (n : Fin 4) (t : Nat)
  | standstill (n : Fin 4) (t : Nat)
  | serialTransferStart (n : Fin 4) (t : Nat)
  | serialTransferEnd (n : Fin 4) (r : SerialResult) (t : Nat)
  -- Oven timers (chapter 9)
  | starterAlignEnd (g : Fin 4) (polarity : Int) (t : Nat)
  | starterTimeout (g : Fin 4) (t : Nat)
  | stallDetect (g : Fin 4) (t : Nat)
  | stallHoldExpiry (g : Fin 4) (t : Nat)
  | sbcDelayExpiry (g : Fin 4) (t : Nat)
  | stopTimeout (g : Fin 4) (t : Nat)
  | spdInvalidTimeout (g : Fin 4) (t : Nat)
  -- functional safety (chapter 12)
  | safetyInputChange (ch : Chan) (input : SafetyInput) (level : Bool) (ns t : Nat)
  | inputStageTest (ch : Chan) (input : SafetyInput) (readsLow : Bool)
  | testPulseMissing (input : SafetyInput) (cross : Bool) (t : Nat)
  | stoDiscrepancy (ch : Chan) (t : Nat)
  | guardDiscrepancy (ch : Chan) (t : Nat)
  | channelDiscrepancy (input : SafetyInput) (t : Nat)
  | enableReadbackMismatch (ch : Chan)
  | ss1TimerExpiry (ch : Chan) (t : Nat)
  | sbcStoLagExpiry (ch : Chan) (t : Nat)
  | ss1BrakeExpiry (ch : Chan) (t : Nat)
  | brakeTest (ch : Chan) (fell : Bool)
  | brakeMismatch (ch : Chan)
  -- network (chapter 13)
  | ethFrameRx (port : Fin 2) (f : EthFrame) (t : Nat)
  | ethFrameTx (port : Fin 3) (t : Nat)
  | addressAging (mac : Nat)
  | phyPoll (port : Fin 2) (reg1 : Half) (refclk : Bool)
  | arpRx (isRequest : Bool) (senderIp senderMac targetIp : Nat)
  | icmpEcho (r : EchoRequest) (t : Nat)
  | tcpConnect (r : TcpRequest)
  | tlsHandshakeComplete (c : Fin 4) (user : Option (Fin 16)) (offer : TlsOffer) (exporter : List Byte)
  | tlsHandshakeTimeout (c : Fin 4)
  | netCommand (c : Fin 4) (words : List Word)
  | connectionClose (c : Fin 4)
  | netIdleTimeout (c : Fin 4)
  | deliveryClose (sub : Fin 8)
  | objectSampleTick (sub : Fin 8)
  | ptpSync (port : Fin 2) (h : PtpHead) (twoStep : Bool) (logInterval : Int) (origin corr : Int) (t : Nat)
  | ptpFollowUp (port : Fin 2) (h : PtpHead) (origin corr : Int)
  | ptpDelayReqSend (t : Nat)
  | ptpDelayResp (port : Fin 2) (h : PtpHead) (receive corr : Int)
  | ptpAnnounce (a : Announce)
  | ptpAnnounceTimeout
  | pdelayReqSend (port : Fin 2) (t : Nat)
  | pdelayReq (port : Fin 2) (h : PtpHead) (corr : Int) (t : Nat)
  | pdelayResp (port : Fin 2) (h : PtpHead) (t2 t3 corr : Int) (t : Nat)
  | leavenOffset (channel : Fin 2) (t : Nat)
  | ppsRise
  | ppsFall
  | eventTimestamp (u : Fin 2) (e : EtsEdge) (t : Nat)
  -- peripheral port (chapter 14)
  | ppTransferStart
  | pgpSelectDriven
  | prdyReady
  | prdyTimeout
  | ppTransferEnd (rx : List (List Bool))
  | listTrigger (l : Fin 2)
  -- pair (chapter 15)
  | mirrorState (bytes : List Byte) (t : Nat)
  | mirrorHello (bytes : List Byte)
  | mirrorRelease (bytes : List Byte) (t : Nat)
  | mirrorRepeat (t : Nat)
  | mirrorFramesLost (t : Nat)
  | mirrorRetrain
  | mlPresTimeout
  | rolePartnerChange (pads : PairPads) (t : Nat)
  | roleActGrant (t : Nat)
  | prBWaitExpiry
  | pairClockOffset (t1 t2 t3 t4 : Int)
  -- security and the rest
  | sessionIdleTimeout
  | lockoutExpiry (u : Fin 16)
  | arpCacheAging (ip : Nat)
  | sideAPartnerHigh2us (t : Nat)
  | tapDataScan (tap : Region) (tdi : List Bool) (capture : List Bool)
  | debugMemoryAccess (r : Region) (write : Bool) (addr : Nat) (data : Byte)
  | haltEnd
deriving DecidableEq, Repr

end Sys2Proof
end

