-- ==== Sys2Proof/Decode.lean ====
section
/-! DEFINITION. The reading of the command table's words. spec/opcode_table.json gives none of its rows any bits: the
commands of this block are events, register writes and messages whose operands the rules name, so no word spells one. -/

namespace Sys2Proof

/-- The command a word of the table spells: none, since no row of the table gives bits. -/
def decodeTableWord (_nbits _w : Nat) : Option Instr := none

end Sys2Proof
end

