-- ==== Sys2Proof/Config.lean ====
section
/-! DEFINITION. What one module fixes and the manual does not state, and the free values: opaque constants with no
body, so that no statement can rest on a value of them. Each is named in the assumption log. -/

namespace Sys2Proof.Config

/-- R81: the TAP (true region C) and the boundary cell of a pad, by its number ("Farnar's BSDL files give the cell order"). Free. -/
opaque padTapC : Nat → Bool
opaque padCell : Nat → Nat
/-- A pad pulse between the two lengths of R521 may or may not change a filtered level. -/
opaque filterFree : Nat → Bool
/-- Die revisions, `HW_REV` (R127: "Per die"). Free. -/
opaque hwRev : Nat → BitVec 16
/-- `SERIAL` (R127: "Per module"). Free. -/
opaque serial : Nat → BitVec 64
/-- `MAC_ADDR` bits 47:0 (R437: "Per module"). Free. -/
opaque macAddr : Nat → BitVec 48
/-- `DEV_CERT` (R502: "Per module"). Free. -/
opaque devCert : Nat → List Byte
/-- The commissioning code on the label, R486 (per module). Free. -/
opaque commCode : Nat → List Byte
/-- The random nonce of the `k`-th `SESSION_OPEN` (R488). Free. -/
opaque nonce : Nat → List Byte
/-- R88: whether a low level on `RESET_N` of 1 µs to 10 µs (in ns) resets the module. Free. -/
opaque shortResetTaken : Nat → Bool
/-- Whether the Oven rounds an exact value between two of its format of 28 fraction bits up (R285 states the format and its
saturation and no rounding). Free. -/
opaque ovenUp : Rat → Bool
/-- The cosine and sine the Oven forms of an electrical angle in units of 2^-32 revolution (R283). Free. -/
opaque cosTurn : Nat → Rat
opaque sinTurn : Nat → Rat
/-- The value the Oven takes for 2π (R284 forms ωe with it; its precision is not stated). Free. -/
opaque twoPi : Rat
/-- The square root the Oven forms (R283, R301, R328). Free. -/
opaque sqrtR : Rat → Rat
/-- The integer an object shows for a quantity whose rounding its rule does not state. Free. -/
opaque shownInt : Rat → Int
/-- The step that atan2 rounds to, of the two next to it (R263 states steps of 2^-12 period and no rounding). Free. -/
opaque atan4096 : Int → Int → Nat
/-- The Starter's estimated angle and lock of the sensorless sequence for its `k`-th frame (R306 states no tracking
arithmetic). Free. -/
opaque hfiAngle : Nat → Nat → Nat
opaque hfiLocked : Nat → Nat → Bool
/-- The observer's angle and speed for loaf and frame count (R307 names the model it is built on, not its arithmetic). Free. -/
opaque obsAngle : Nat → Nat → Nat
opaque obsSpeed : Nat → Nat → Rat
/-- Proof's prediction of (id, iq) (R315 names its inputs, not its arithmetic): loaf, frame count, axis. Free. -/
opaque proofPredict : Nat → Nat → Nat → Rat
/-- Proof's load estimate of the mechanical check, and the filter step of its filtered quantities (R315). Free. -/
opaque proofLoad : Nat → Nat → Rat
opaque filterStep : Rat → Rat → Nat → Rat
/-- The output of a division the manual leaves without a value: a zero divisor (e.g. a Udc of 0 in R283). Free. -/
opaque divByZero : Rat → Rat
/-- What a byte or register reads through the debug port before anything wrote it there (R501). Free. -/
opaque debugByte : Nat → Byte
/-- The bits a boundary register captures from pads of banks G, V and H (R81: the cell order is in Farnar's BSDL
files, not in the manual), by cell. Free. -/
opaque scanCell : Nat → Bool
/-- The opcode of a TAP instruction as the audit log shows it (R499; the codes are in Farnar's BSDL files). Free. -/
opaque tapCode : Nat → Nat
/-- The residual error of the slice estimates shown in `SLICE_OFS`, `SLICE_GAIN`, `SLICE_SKEW` (R216 states no
algorithm): converter, slice, quantity. Free. -/
opaque sliceEstimate : Nat → Nat → Nat → Int
/-- Which of the increments that meet the goal of R432 Askard writes for a time unit: unit and offset in ns. Free. -/
opaque trimInc : Nat → Int → Nat
/-- The distance of a latched timestamp from its instant, in ns, within ±4 ns (R421), by draw. Free. -/
opaque latchError : Nat → Rat

/-- What an object shows for an exact value beyond its type's range where its rule states no limit, by its address. Free. -/
opaque pastRange : Nat → Int → Int

/-- A counter past its type's greatest value where no rule says whether it saturates or wraps, by its address. Free. -/
opaque counterPast : Nat → Int

/-- What the standby domain holds after it lost its supply, where R111 does not say: draw and address. Free. -/
opaque standbyFree : Nat → Nat → Int

/-- The data of 0xEC04 where side A asserts (R472 gives data for the triggers of side B only), by draw. Free. -/
opaque sideATrigger : Nat → Nat

/-- The error of a station time latched through `TS_CTRL`, within ±40 ns (R130). Free. -/
opaque tsError : Nat → Rat

end Sys2Proof.Config
end

