-- ==== Sys2Proof/Machine/Objects.lean ====
section
/-! DEFINITION. The object dictionary (R166 to R170): every scalar and BLOB object of the chapters' tables, with
its type, access, class, default and the limits its own row states, and one named address per object. An address
is index * 0x100 + subindex. The row of a unit-repeated object stands once, at unit 0 (R168). -/

namespace Sys2Proof.Machine

/-- The object types of R4 as objects use them. -/
inductive ObjTy where
  | u8 | i16 | u16 | i32 | u32 | u64 | q16 | blob
deriving DecidableEq, Repr

/-- The access codes of R9. -/
inductive Access where
  | ro | rw | w1c | wo
deriving DecidableEq, Repr

/-- The Class column of an object table. -/
inductive ObjClass where
  | none | a | b
deriving DecidableEq, Repr

/-- One row of an object table: index at unit 0, subindices, type, access, class, default, and the limits of a written value. -/
structure ObjRow where
  idx  : Nat
  lo   : Nat
  hi   : Nat
  ty   : ObjTy
  acc  : Access
  cls  : ObjClass
  dflt : Int
  min  : Int
  max  : Int
deriving DecidableEq, Repr

/-- Objects of R48, part 0. -/
def rowsArchP0 : List ObjRow := [
  /- PEEL_CRC_C -/ ⟨0x1011, 1, 1, .u32, .ro, .none, 0, 0, 0xffffffff⟩,
  /- PEEL_CRC_M -/ ⟨0x1011, 2, 2, .u32, .ro, .none, 0, 0, 0xffffffff⟩,
  /- PEEL_RETX -/ ⟨0x1011, 3, 3, .u32, .ro, .none, 0, 0, 0xffffffff⟩,
  /- PEEL_RETRAIN -/ ⟨0x1011, 4, 4, .u32, .ro, .none, 0, 0, 0xffffffff⟩,
  /- REC_DROP -/ ⟨0x1011, 5, 5, .u32, .ro, .none, 0, 0, 0xffffffff⟩,
  /- PEEL_CTL_LAT_MAX -/ ⟨0x1011, 6, 6, .u32, .ro, .none, 0, 0, 0xffffffff⟩,
  /- PEEL_STATS_CLR -/ ⟨0x1011, 7, 7, .u8, .wo, .none, 0, 1, 1⟩]

/-- The object table of R48. -/
def rowsArch : List ObjRow :=
  rowsArchP0

/-- Objects of R85, part 0. -/
def rowsPowerP0 : List ObjRow := [
  /- SW_RESET -/ ⟨0x1004, 1, 1, .u16, .ro, .none, 0, 0, 65535⟩,
  /- SW_NOW -/ ⟨0x1004, 2, 2, .u16, .ro, .none, 0, 0, 65535⟩,
  /- SW_DISCREP -/ ⟨0x1004, 3, 3, .u16, .ro, .none, 0, 0, 65535⟩,
  /- COVER_STATE -/ ⟨0x1004, 4, 4, .u8, .ro, .none, 0, 0, 255⟩,
  /- COVER_COUNT -/ ⟨0x1004, 5, 5, .u16, .ro, .none, 0, 0, 65535⟩,
  /- COVER_LAST -/ ⟨0x1004, 6, 6, .u32, .ro, .none, 0, 0, 0xffffffff⟩,
  /- VIN_MV -/ ⟨0x1005, 1, 1, .i32, .ro, .none, 0, -2147483648, 0x7fffffff⟩,
  /- VIO_G_MV -/ ⟨0x1005, 2, 2, .i32, .ro, .none, 0, -2147483648, 0x7fffffff⟩,
  /- VIO_H_MV -/ ⟨0x1005, 3, 3, .i32, .ro, .none, 0, -2147483648, 0x7fffffff⟩,
  /- VBAT_MV -/ ⟨0x1005, 4, 4, .i32, .ro, .none, 0, -2147483648, 0x7fffffff⟩,
  /- AGND_OFS_MV -/ ⟨0x1005, 5, 5, .i32, .ro, .none, 0, -2147483648, 0x7fffffff⟩,
  /- VIO_G_CLASS -/ ⟨0x1005, 6, 6, .u8, .ro, .none, 0, 0, 255⟩,
  /- SUPPLY_FLAGS -/ ⟨0x1005, 7, 7, .u16, .w1c, .none, 0, 0, 65535⟩,
  /- TEMP_C -/ ⟨0x1006, 1, 1, .i16, .ro, .none, 0, -32768, 32767⟩,
  /- TEMP_M -/ ⟨0x1006, 2, 2, .i16, .ro, .none, 0, -32768, 32767⟩,
  /- TEMP_PEAK -/ ⟨0x1006, 3, 3, .i16, .ro, .none, 0, -32768, 32767⟩]

/-- The object table of R85. -/
def rowsPower : List ObjRow :=
  rowsPowerP0

/-- Objects of R113, part 0. -/
def rowsResetP0 : List ObjRow := [
  /- MODULE_STATE -/ ⟨0x1001, 1, 1, .u8, .ro, .none, 0, 0, 255⟩,
  /- MODULE_REQ -/ ⟨0x1001, 2, 2, .u8, .wo, .none, 0, 1, 4⟩,
  /- READY_BLOCK -/ ⟨0x1001, 3, 3, .u16, .ro, .none, 1, 0, 65535⟩,
  /- STATE_TIME -/ ⟨0x1001, 4, 4, .u32, .ro, .none, 0, 0, 0xffffffff⟩,
  /- RESET_CAUSE -/ ⟨0x1002, 1, 1, .u16, .ro, .none, 0, 0, 65535⟩,
  /- RESET_COUNT -/ ⟨0x1002, 2, 2, .u32, .ro, .none, 0, 0, 0xffffffff⟩,
  /- BOOT_MS -/ ⟨0x1002, 3, 3, .u16, .ro, .none, 0, 0, 65535⟩,
  /- BOOT_ERR -/ ⟨0x1002, 4, 4, .u8, .ro, .none, 0, 0, 255⟩,
  /- WDT_COUNT -/ ⟨0x1002, 5, 5, .u32, .ro, .none, 0, 0, 0xffffffff⟩,
  /- CLK_STATUS -/ ⟨0x1003, 1, 1, .u8, .ro, .none, 0, 0, 255⟩,
  /- CK_SAFE_HZ -/ ⟨0x1003, 2, 2, .u32, .ro, .none, 0, 0, 0xffffffff⟩,
  /- REF_READY_ALL -/ ⟨0x1003, 3, 3, .u8, .ro, .none, 0, 0, 255⟩,
  /- TIME_COUNT_S -/ ⟨0x1007, 1, 1, .u64, .ro, .none, 0, 0, 0xffffffffffffffff⟩,
  /- TIME_COUNT_FRAC -/ ⟨0x1007, 2, 2, .u16, .ro, .none, 0, 0, 65535⟩,
  /- TIME_VALID -/ ⟨0x1007, 3, 3, .u8, .ro, .none, 0, 0, 255⟩,
  /- VIN_LOSS_S -/ ⟨0x1007, 4, 4, .u32, .ro, .none, 0, 0, 0xffffffff⟩,
  /- WAKE_ALARM_S -/ ⟨0x1007, 5, 5, .u32, .rw, .none, 0, 0, 0xffffffff⟩,
  /- STANDBY_REASON -/ ⟨0x1007, 6, 6, .u8, .ro, .none, 0, 0, 255⟩,
  /- WAKE_MISSED -/ ⟨0x1007, 7, 7, .u8, .ro, .none, 0, 0, 255⟩]

/-- The object table of R113. -/
def rowsReset : List ObjRow :=
  rowsResetP0

/-- Objects of R178, part 0. -/
def rowsCommandsP0 : List ObjRow := [
  /- DEVICE_ID -/ ⟨0x1000, 1, 1, .u32, .ro, .none, 0, 0, 0xffffffff⟩,
  /- ORDER_CODE -/ ⟨0x1000, 2, 2, .u8, .ro, .none, 4, 0, 255⟩,
  /- HW_REV_OBJ -/ ⟨0x1000, 3, 3, .u32, .ro, .none, 0, 0, 0xffffffff⟩,
  /- FW_VERSION_OBJ -/ ⟨0x1000, 4, 4, .u32, .ro, .none, 0, 0, 0xffffffff⟩,
  /- SERIAL -/ ⟨0x1000, 5, 5, .u64, .ro, .none, 0, 0, 0xffffffffffffffff⟩,
  /- CONFIG_CRC -/ ⟨0x1000, 6, 6, .u32, .ro, .none, 0, 0, 0xffffffff⟩,
  /- DICT_VER -/ ⟨0x1000, 7, 7, .u32, .ro, .none, 1, 0, 0xffffffff⟩,
  /- IGNORED_WRITES -/ ⟨0x1010, 1, 1, .u32, .ro, .none, 0, 0, 0xffffffff⟩,
  /- IGN_NOOBJ -/ ⟨0x1010, 2, 2, .u32, .ro, .none, 0, 0, 0xffffffff⟩,
  /- IGN_RO -/ ⟨0x1010, 3, 3, .u32, .ro, .none, 0, 0, 0xffffffff⟩,
  /- IGN_RANGE -/ ⟨0x1010, 4, 4, .u32, .ro, .none, 0, 0, 0xffffffff⟩,
  /- IGN_CLASS_B -/ ⟨0x1010, 5, 5, .u32, .ro, .none, 0, 0, 0xffffffff⟩,
  /- IGN_ABSENT -/ ⟨0x1010, 6, 6, .u32, .ro, .none, 0, 0, 0xffffffff⟩,
  /- IGN_STATE -/ ⟨0x1010, 7, 7, .u32, .ro, .none, 0, 0, 0xffffffff⟩,
  /- IGN_LAST -/ ⟨0x1010, 8, 8, .u32, .ro, .none, 0, 0, 0xffffffff⟩,
  /- IGN_LAST_REASON -/ ⟨0x1010, 9, 9, .u8, .ro, .none, 0, 0, 255⟩,
  /- IGN_CLR -/ ⟨0x1010, 10, 10, .u8, .wo, .none, 0, 1, 1⟩,
  /- CMD_TAKEN -/ ⟨0x1012, 1, 1, .u32, .ro, .none, 0, 0, 0xffffffff⟩,
  /- CMD_REFUSED -/ ⟨0x1012, 2, 2, .u32, .ro, .none, 0, 0, 0xffffffff⟩,
  /- CMD_LAST_REFUSED -/ ⟨0x1012, 3, 3, .u32, .ro, .none, 0, 0, 0xffffffff⟩,
  /- CMD_CNT_CLR -/ ⟨0x1012, 4, 4, .u8, .wo, .none, 0, 1, 1⟩,
  /- SUB_STATE -/ ⟨0x3C00, 1, 8, .u32, .ro, .none, 0, 0, 0xffffffff⟩,
  /- SUB_RATE -/ ⟨0x3C01, 1, 8, .u32, .ro, .none, 0, 0, 0xffffffff⟩,
  /- SUB_SENT -/ ⟨0x3C02, 1, 8, .u32, .ro, .none, 0, 0, 0xffffffff⟩]

/-- Objects of R178, part 1. -/
def rowsCommandsP1 : List ObjRow := [
  /- SUB_DROPPED -/ ⟨0x3C03, 1, 8, .u32, .ro, .none, 0, 0, 0xffffffff⟩,
  /- MB2_RATE_USED -/ ⟨0x3C04, 1, 1, .u32, .ro, .none, 0, 0, 0xffffffff⟩,
  /- UDP_RATE_USED -/ ⟨0x3C04, 2, 2, .u32, .ro, .none, 0, 0, 0xffffffff⟩,
  /- STREAM_CNT_CLR -/ ⟨0x3C04, 3, 3, .u8, .wo, .none, 0, 1, 1⟩]

/-- The object table of R178. -/
def rowsCommands : List ObjRow :=
  rowsCommandsP0 ++ rowsCommandsP1

/-- Objects of R210 to R212, part 0. -/
def rowsPwmP0 : List ObjRow := [
  /- CNT_MODE -/ ⟨0x2000, 1, 1, .u8, .rw, .b, 1, 0, 1⟩,
  /- PERIOD -/ ⟨0x2000, 2, 2, .u32, .rw, .b, 10000, 1000, 0x30d40⟩,
  /- FRAME_LEN -/ ⟨0x2000, 3, 3, .u8, .rw, .b, 1, 1, 16⟩,
  /- PEAK_RELOAD -/ ⟨0x2000, 4, 4, .u8, .rw, .b, 0, 0, 1⟩,
  /- DEAD_TIME -/ ⟨0x2000, 5, 5, .u16, .rw, .b, 400, 0, 2047⟩,
  /- PHASE_OFS -/ ⟨0x2000, 6, 6, .u32, .rw, .b, 0, 0, 0x30d3f⟩,
  /- LEG_PERM -/ ⟨0x2000, 7, 7, .u8, .rw, .b, 0, 0, 3⟩,
  /- SAFE_STATE -/ ⟨0x2000, 8, 8, .u8, .rw, .b, 0, 0, 2⟩,
  /- AUTO_SPEED -/ ⟨0x2000, 9, 9, .q16, .rw, .b, 0x640000, 0, 0x13880000⟩,
  /- AUTO_HYST -/ ⟨0x2000, 10, 10, .q16, .rw, .b, 0xa0000, 0, 0x13880000⟩,
  /- LEG_SWAP -/ ⟨0x2001, 1, 3, .u8, .rw, .b, 0, 0, 1⟩,
  /- LEG_INV -/ ⟨0x2002, 1, 3, .u8, .rw, .b, 0, 0, 1⟩,
  /- OPEN_CMP -/ ⟨0x2003, 1, 3, .u32, .rw, .none, 0, 0, 0x7fffff⟩,
  /- EVT_SRC -/ ⟨0x2004, 1, 3, .u8, .rw, .b, 0, 0, 8⟩,
  /- EVT_PRESC -/ ⟨0x2005, 1, 3, .u8, .rw, .b, 1, 1, 16⟩,
  /- EVT_TGT -/ ⟨0x2006, 1, 3, .u8, .rw, .b, 0, 0, 7⟩,
  /- ACTIVE_CMP -/ ⟨0x2007, 1, 3, .u32, .ro, .none, 0, 0, 0xffffffff⟩,
  /- PWM_STAT -/ ⟨0x2008, 1, 1, .u16, .ro, .none, 0, 0, 65535⟩,
  /- FRAME_COUNT -/ ⟨0x2008, 2, 2, .u32, .ro, .none, 0, 0, 0xffffffff⟩,
  /- LATE_COUNT -/ ⟨0x2008, 3, 3, .u32, .ro, .none, 0, 0, 0xffffffff⟩,
  /- LATE_RUN -/ ⟨0x2008, 4, 4, .u8, .ro, .none, 0, 0, 255⟩,
  /- TRIP_LATCH -/ ⟨0x2008, 5, 5, .u16, .ro, .none, 0, 0, 65535⟩,
  /- CYCLE_TRIPS -/ ⟨0x2008, 6, 6, .u32, .ro, .none, 0, 0, 0xffffffff⟩,
  /- READBACK_ERR -/ ⟨0x2008, 7, 7, .u8, .ro, .none, 0, 0, 255⟩]

/-- Objects of R210 to R212, part 1. -/
def rowsPwmP1 : List ObjRow := [
  /- PWM_CNT_CLR -/ ⟨0x2008, 8, 8, .u8, .wo, .none, 0, 1, 1⟩,
  /- TRIP_FILT -/ ⟨0x2800, 1, 16, .u8, .rw, .b, 0, 0, 255⟩,
  /- TRIP_MAP -/ ⟨0x2801, 1, 16, .u16, .rw, .b, 0, 0, 65535⟩,
  /- TRIP_LEVEL -/ ⟨0x2802, 1, 1, .u16, .ro, .none, 0, 0, 65535⟩,
  /- TRIP_SYNC -/ ⟨0x2802, 2, 2, .u16, .ro, .none, 0, 0, 65535⟩,
  /- TRIP_COUNT -/ ⟨0x2803, 1, 16, .u32, .ro, .none, 0, 0, 0xffffffff⟩,
  /- TRIP_CNT_CLR -/ ⟨0x2804, 1, 1, .u8, .wo, .none, 0, 1, 1⟩,
  /- HALT_CAUSE -/ ⟨0x2F00, 1, 1, .u8, .ro, .none, 0, 0, 255⟩,
  /- RUN_MASK -/ ⟨0x2F00, 2, 2, .u8, .ro, .none, 0, 0, 255⟩,
  /- GEN_LEVELS -/ ⟨0x2F00, 3, 3, .u8, .ro, .none, 0, 0, 255⟩]

/-- The object table of R210 to R212. -/
def rowsPwm : List ObjRow :=
  rowsPwmP0 ++ rowsPwmP1

/-- Objects of R249, R250, part 0. -/
def rowsConvP0 : List ObjRow := [
  /- CONV_STAT -/ ⟨0x3000, 1, 1, .u16, .ro, .none, 0, 0, 65535⟩,
  /- SLICE_EXCL -/ ⟨0x3000, 2, 2, .u8, .ro, .none, 0, 0, 255⟩,
  /- MM_FREEZE -/ ⟨0x3000, 3, 3, .u8, .rw, .none, 0, 0, 1⟩,
  /- SEQ_LEN -/ ⟨0x3001, 1, 1, .u8, .rw, .b, 8, 1, 8⟩,
  /- SEQ_REG -/ ⟨0x3002, 1, 8, .u8, .rw, .b, 0, 0, 8⟩,
  /- INJ_LEN -/ ⟨0x3003, 1, 1, .u8, .rw, .b, 0, 0, 4⟩,
  /- SEQ_INJ -/ ⟨0x3004, 1, 4, .u8, .rw, .b, 0, 0, 8⟩,
  /- INJ_TRIG -/ ⟨0x3005, 1, 1, .u16, .rw, .b, 0, 0, 4095⟩,
  /- CH_OFFSET -/ ⟨0x3006, 1, 9, .i16, .rw, .b, 0, -8192, 8191⟩,
  /- CH_GAIN -/ ⟨0x3007, 1, 9, .u16, .rw, .b, 16384, 0, 65535⟩,
  /- CH_ROLE -/ ⟨0x3008, 1, 9, .u8, .rw, .b, 0, 0, 57⟩,
  /- CH_FS -/ ⟨0x3009, 1, 9, .i32, .rw, .b, 0xf4240, 1, 0x7fffffff⟩,
  /- CH_OW -/ ⟨0x300A, 1, 9, .u8, .rw, .b, 0, 0, 2⟩,
  /- OW_LEVEL -/ ⟨0x300B, 1, 1, .u16, .rw, .none, 30000, 1, 32767⟩,
  /- OW_TIME -/ ⟨0x300B, 2, 2, .u16, .rw, .none, 1000, 10, 60000⟩,
  /- CH_RESULT -/ ⟨0x300C, 1, 9, .i16, .ro, .none, 0, -32768, 32767⟩,
  /- CH_MEAN -/ ⟨0x300D, 1, 9, .i16, .ro, .none, 0, -32768, 32767⟩,
  /- INJ_RESULT -/ ⟨0x300E, 1, 4, .i16, .ro, .none, 0, -32768, 32767⟩,
  /- INJ_TIME -/ ⟨0x300E, 5, 5, .u32, .ro, .none, 0, 0, 0xffffffff⟩,
  /- SAT_FLAGS -/ ⟨0x300F, 1, 1, .u16, .w1c, .none, 0, 0, 65535⟩,
  /- OW_FLAGS -/ ⟨0x300F, 2, 2, .u16, .ro, .none, 0, 0, 65535⟩,
  /- SLICE_OFS -/ ⟨0x3010, 1, 4, .i16, .ro, .none, 0, -32768, 32767⟩,
  /- SLICE_GAIN -/ ⟨0x3011, 1, 4, .i16, .ro, .none, 0, -32768, 32767⟩,
  /- SLICE_SKEW -/ ⟨0x3012, 1, 4, .i16, .ro, .none, 0, -32768, 32767⟩]

/-- Objects of R249, R250, part 1. -/
def rowsConvP1 : List ObjRow := [
  /- INJ_OVERRUN -/ ⟨0x3013, 1, 1, .u32, .ro, .none, 0, 0, 0xffffffff⟩,
  /- LATE_SAMPLES -/ ⟨0x3013, 2, 2, .u32, .ro, .none, 0, 0, 0xffffffff⟩,
  /- INCOMPLETE -/ ⟨0x3013, 3, 3, .u32, .ro, .none, 0, 0, 0xffffffff⟩,
  /- CONV_CNT_CLR -/ ⟨0x3013, 4, 4, .u8, .wo, .none, 0, 1, 1⟩,
  /- PLAUS_EN -/ ⟨0x3014, 1, 1, .u8, .rw, .none, 0, 0, 1⟩,
  /- PLAUS_TOL -/ ⟨0x3014, 2, 2, .u16, .rw, .none, 655, 1, 32767⟩,
  /- PLAUS_COUNT -/ ⟨0x3014, 3, 3, .u16, .rw, .none, 10, 1, 65535⟩,
  /- PLAUS_DIFF -/ ⟨0x3014, 4, 4, .i16, .ro, .none, 0, -32768, 32767⟩,
  /- PLAUS_RUN -/ ⟨0x3014, 5, 5, .u16, .ro, .none, 0, 0, 65535⟩,
  /- PAIR_MODE -/ ⟨0x3015, 1, 1, .u8, .rw, .b, 0, 0, 2⟩,
  /- PAIR_SRC -/ ⟨0x3015, 2, 2, .u8, .rw, .b, 0, 0, 17⟩,
  /- PAIR_TRIG -/ ⟨0x3015, 3, 3, .u16, .rw, .b, 0, 0, 4095⟩,
  /- PAIR_BURST_LEN -/ ⟨0x3015, 4, 4, .u8, .rw, .b, 16, 2, 64⟩,
  /- PAIR_BUF -/ ⟨0x3016, 1, 1, .blob, .ro, .none, 0, 0, 0⟩,
  /- AUX_LOAF -/ ⟨0x3017, 1, 1, .u8, .rw, .none, 0, 0, 3⟩,
  /- CAP_STATE -/ ⟨0x3800, 1, 1, .u8, .ro, .none, 0, 0, 255⟩,
  /- CAP_SEQ -/ ⟨0x3800, 2, 2, .u16, .ro, .none, 0, 0, 65535⟩,
  /- CAP_CAUSE -/ ⟨0x3800, 3, 3, .u8, .ro, .none, 0, 0, 255⟩,
  /- CAP_LEN -/ ⟨0x3800, 4, 4, .u32, .ro, .none, 0, 0, 0xffffffff⟩,
  /- CAP_MODE -/ ⟨0x3801, 1, 1, .u8, .rw, .none, 0, 0, 3⟩,
  /- CAP_SEL -/ ⟨0x3801, 2, 5, .u16, .rw, .none, 0, 0, 511⟩,
  /- CAP_REC_MASK -/ ⟨0x3801, 6, 6, .u8, .rw, .none, 0, 0, 15⟩,
  /- CAP_DECIM -/ ⟨0x3801, 7, 7, .u16, .rw, .none, 1, 1, 256⟩,
  /- CAP_PRE -/ ⟨0x3801, 8, 8, .u32, .rw, .none, 16384, 0, 0x100000⟩]

/-- Objects of R249, R250, part 2. -/
def rowsConvP2 : List ObjRow := [
  /- CAP_POST -/ ⟨0x3801, 9, 9, .u32, .rw, .none, 16384, 1, 0x100000⟩,
  /- CAP_TRIG_FAULT -/ ⟨0x3802, 1, 1, .u8, .rw, .none, 0, 0, 5⟩,
  /- CAP_TRIG_CODE -/ ⟨0x3802, 2, 2, .u16, .rw, .none, 0, 0, 65535⟩,
  /- CAP_THR_SRC -/ ⟨0x3802, 3, 3, .u8, .rw, .none, 255, 0, 255⟩,
  /- CAP_THR_LEVEL -/ ⟨0x3802, 4, 4, .i16, .rw, .none, 0, -32768, 32767⟩,
  /- CAP_THR_EDGE -/ ⟨0x3802, 5, 5, .u8, .rw, .none, 1, 1, 3⟩]

/-- The object table of R249, R250. -/
def rowsConv : List ObjRow :=
  rowsConvP0 ++ rowsConvP1 ++ rowsConvP2

/-- Objects of R279, part 0. -/
def rowsFbP0 : List ObjRow := [
  /- FB_MODE -/ ⟨0x4000, 1, 1, .u8, .rw, .b, 0, 0, 5⟩,
  /- FB_RES -/ ⟨0x4000, 2, 2, .u32, .rw, .b, 1024, 0, 0xffffffff⟩,
  /- FB_DIR_INV -/ ⟨0x4000, 3, 3, .u8, .rw, .b, 0, 0, 1⟩,
  /- FB_LOAF -/ ⟨0x4000, 4, 4, .u8, .rw, .b, 0, 0, 3⟩,
  /- FB_FILT -/ ⟨0x4000, 5, 5, .u8, .rw, .b, 4, 0, 255⟩,
  /- IDX_MODE -/ ⟨0x4001, 1, 1, .u8, .rw, .b, 0, 0, 2⟩,
  /- IDX_GATE -/ ⟨0x4001, 2, 2, .u8, .rw, .b, 1, 0, 1⟩,
  /- IDX_WINDOW -/ ⟨0x4001, 3, 3, .u32, .rw, .none, 4, 0, 0xffffffff⟩,
  /- IDX_ARM -/ ⟨0x4001, 4, 4, .u8, .wo, .none, 0, 1, 1⟩,
  /- IDX_DEV -/ ⟨0x4001, 5, 5, .i32, .ro, .none, 0, -2147483648, 0x7fffffff⟩,
  /- IDX_DEV_LATCH -/ ⟨0x4001, 6, 6, .i32, .ro, .none, 0, -2147483648, 0x7fffffff⟩,
  /- FB_POS -/ ⟨0x4002, 1, 1, .u32, .ro, .none, 0, 0, 0xffffffff⟩,
  /- FB_TURNS -/ ⟨0x4002, 2, 2, .i16, .ro, .none, 0, -32768, 32767⟩,
  /- FB_COUNT -/ ⟨0x4002, 3, 3, .i32, .ro, .none, 0, -2147483648, 0x7fffffff⟩,
  /- FB_STAT -/ ⟨0x4002, 4, 4, .u16, .ro, .none, 0, 0, 65535⟩,
  /- FB_EDGE_T -/ ⟨0x4002, 5, 5, .u32, .ro, .none, 0, 0, 0xffffffff⟩,
  /- HALL_STATE -/ ⟨0x4002, 6, 6, .u8, .ro, .none, 0, 0, 255⟩,
  /- SPD -/ ⟨0x4003, 1, 1, .q16, .ro, .none, 0, -2147483648, 0x7fffffff⟩,
  /- SPD_EDGE -/ ⟨0x4003, 2, 2, .q16, .ro, .none, 0, -2147483648, 0x7fffffff⟩,
  /- SPD_CNT -/ ⟨0x4003, 3, 3, .q16, .ro, .none, 0, -2147483648, 0x7fffffff⟩,
  /- SPD_STANDSTILL -/ ⟨0x4003, 4, 4, .u32, .rw, .b, 50000, 100, 0x989680⟩,
  /- SPD_EDGE_AVG -/ ⟨0x4003, 5, 5, .u8, .rw, .b, 4, 1, 16⟩,
  /- SPD_FRAMES -/ ⟨0x4003, 6, 6, .u8, .rw, .b, 1, 1, 16⟩,
  /- SPD_BLEND_LO -/ ⟨0x4003, 7, 7, .q16, .rw, .b, 0x50000, 0, 0x13880000⟩]

/-- Objects of R279, part 1. -/
def rowsFbP1 : List ObjRow := [
  /- SPD_BLEND_HI -/ ⟨0x4003, 8, 8, .q16, .rw, .b, 0xa0000, 0, 0x13880000⟩,
  /- SER_ST_BITS -/ ⟨0x4004, 1, 1, .u8, .rw, .b, 17, 1, 32⟩,
  /- SER_MT_BITS -/ ⟨0x4004, 2, 2, .u8, .rw, .b, 0, 0, 16⟩,
  /- SER_CODE -/ ⟨0x4004, 3, 3, .u8, .rw, .b, 0, 0, 1⟩,
  /- SER_CLK_DIV -/ ⟨0x4004, 4, 4, .u16, .rw, .b, 50, 10, 1000⟩,
  /- SER_LEAD -/ ⟨0x4004, 5, 5, .u32, .rw, .b, 1000, 0, 0x30d40⟩,
  /- SER_PAUSE -/ ⟨0x4004, 6, 6, .u16, .rw, .b, 20, 1, 1000⟩,
  /- SER_ERR_MAX -/ ⟨0x4004, 7, 7, .u8, .rw, .none, 3, 1, 255⟩,
  /- SER_ERR_CNT -/ ⟨0x4004, 8, 8, .u32, .ro, .none, 0, 0, 0xffffffff⟩,
  /- SER_LINE_DLY -/ ⟨0x4004, 9, 9, .u16, .ro, .none, 0, 0, 65535⟩,
  /- SC_AMP_NOM -/ ⟨0x4005, 1, 1, .i16, .rw, .b, 16384, 1000, 32767⟩,
  /- SC_AMP -/ ⟨0x4005, 2, 2, .i16, .ro, .none, 0, -32768, 32767⟩,
  /- SC_FINE -/ ⟨0x4005, 3, 3, .u16, .ro, .none, 0, 0, 65535⟩,
  /- SC_ADJ -/ ⟨0x4005, 4, 4, .u32, .ro, .none, 0, 0, 0xffffffff⟩,
  /- ILLEGAL_CNT -/ ⟨0x4006, 1, 1, .u32, .ro, .none, 0, 0, 0xffffffff⟩,
  /- IDX_CNT -/ ⟨0x4006, 2, 2, .u32, .ro, .none, 0, 0, 0xffffffff⟩,
  /- SLIP_CNT -/ ⟨0x4006, 3, 3, .u32, .ro, .none, 0, 0, 0xffffffff⟩,
  /- FB_CNT_CLR -/ ⟨0x4006, 4, 4, .u8, .wo, .none, 0, 1, 1⟩]

/-- The object table of R279. -/
def rowsFb : List ObjRow :=
  rowsFbP0 ++ rowsFbP1

/-- Objects of R318 to R321, part 0. -/
def rowsOvenP0 : List ObjRow := [
  /- LOAF_ST -/ ⟨0x5000, 1, 1, .u8, .ro, .none, 0, 0, 255⟩,
  /- OVEN_FLAGS -/ ⟨0x5000, 2, 2, .u16, .ro, .none, 0, 0, 65535⟩,
  /- POLE_PAIRS -/ ⟨0x5001, 1, 1, .u8, .rw, .b, 4, 1, 64⟩,
  /- ANGLE_OFS -/ ⟨0x5001, 2, 2, .u32, .rw, .b, 0, 0, 0xffffffff⟩,
  /- I_BASE -/ ⟨0x5001, 3, 3, .i32, .rw, .b, 0x186a0, 1000, 0x1e8480⟩,
  /- V_BASE -/ ⟨0x5001, 4, 4, .i32, .rw, .b, 0xf4240, 10000, 0x1e8480⟩,
  /- UDC_LOAF -/ ⟨0x5001, 5, 5, .u8, .rw, .b, 0, 0, 3⟩,
  /- MOT_R -/ ⟨0x5002, 1, 1, .i32, .rw, .b, 10000, 1, 0x5f5e100⟩,
  /- MOT_LD -/ ⟨0x5002, 2, 2, .i32, .rw, .b, 0x7a120, 1, 0x3b9aca00⟩,
  /- MOT_LQ -/ ⟨0x5002, 3, 3, .i32, .rw, .b, 0x7a120, 1, 0x3b9aca00⟩,
  /- MOT_PSI -/ ⟨0x5002, 4, 4, .i32, .rw, .b, 0x186a0, 0, 0x5f5e100⟩,
  /- KP_D -/ ⟨0x5003, 1, 1, .q16, .rw, .a, 0x10000, 0, 0x7fff0000⟩,
  /- KI_D -/ ⟨0x5003, 2, 2, .q16, .rw, .a, 0x640000, 0, 0x7fff0000⟩,
  /- KP_Q -/ ⟨0x5003, 3, 3, .q16, .rw, .a, 0x10000, 0, 0x7fff0000⟩,
  /- KI_Q -/ ⟨0x5003, 4, 4, .q16, .rw, .a, 0x640000, 0, 0x7fff0000⟩,
  /- KAW -/ ⟨0x5003, 5, 5, .q16, .rw, .a, 0x3e80000, 0, 0x7fff0000⟩,
  /- FF_XC -/ ⟨0x5003, 6, 6, .q16, .rw, .a, 0x10000, 0, 0x20000⟩,
  /- FF_EMF -/ ⟨0x5003, 7, 7, .q16, .rw, .a, 0x10000, 0, 0x20000⟩,
  /- I_MAX -/ ⟨0x5003, 8, 8, .i32, .rw, .a, 0x186a0, 0, 0x7fffffff⟩,
  /- MOD_MAX -/ ⟨0x5003, 9, 9, .q16, .rw, .a, 62259, 32768, 0x10000⟩,
  /- ID_REF -/ ⟨0x5003, 10, 10, .i32, .rw, .a, 0, -2147483648, 0x7fffffff⟩,
  /- INCOMPLETE_MAX -/ ⟨0x5003, 11, 11, .u8, .rw, .a, 3, 1, 255⟩,
  /- IDQ_TEST_D -/ ⟨0x5004, 1, 1, .i32, .rw, .none, 0, -2147483648, 0x7fffffff⟩,
  /- IDQ_TEST_Q -/ ⟨0x5004, 2, 2, .i32, .rw, .none, 0, -2147483648, 0x7fffffff⟩]

/-- Objects of R318 to R321, part 1. -/
def rowsOvenP1 : List ObjRow := [
  /- TEST_ANGLE -/ ⟨0x5004, 3, 3, .u32, .rw, .none, 0, 0, 0xffffffff⟩,
  /- ID_MEAS -/ ⟨0x5005, 1, 1, .i32, .ro, .none, 0, -2147483648, 0x7fffffff⟩,
  /- IQ_MEAS -/ ⟨0x5005, 2, 2, .i32, .ro, .none, 0, -2147483648, 0x7fffffff⟩,
  /- VD_OUT -/ ⟨0x5005, 3, 3, .i32, .ro, .none, 0, -2147483648, 0x7fffffff⟩,
  /- VQ_OUT -/ ⟨0x5005, 4, 4, .i32, .ro, .none, 0, -2147483648, 0x7fffffff⟩,
  /- UDC_MEAS -/ ⟨0x5005, 5, 5, .i32, .ro, .none, 0, -2147483648, 0x7fffffff⟩,
  /- THETA_E -/ ⟨0x5005, 6, 6, .u32, .ro, .none, 0, 0, 0xffffffff⟩,
  /- HELD_FRAMES -/ ⟨0x5006, 1, 1, .u32, .ro, .none, 0, 0, 0xffffffff⟩,
  /- VLIM_FRAMES -/ ⟨0x5006, 2, 2, .u32, .ro, .none, 0, 0, 0xffffffff⟩,
  /- OVEN_CNT_CLR -/ ⟨0x5006, 3, 3, .u8, .wo, .none, 0, 1, 1⟩,
  /- GROUP_ST -/ ⟨0x5400, 1, 1, .u8, .ro, .none, 0, 0, 255⟩,
  /- CTRL_MODE -/ ⟨0x5400, 2, 2, .u8, .rw, .b, 1, 0, 3⟩,
  /- POS_CH -/ ⟨0x5400, 3, 3, .u8, .rw, .b, 255, 0, 255⟩,
  /- STARTER -/ ⟨0x5400, 4, 4, .u8, .rw, .b, 0, 0, 4⟩,
  /- SPD_DIV -/ ⟨0x5401, 1, 1, .u8, .rw, .b, 10, 1, 16⟩,
  /- POS_DIV -/ ⟨0x5401, 2, 2, .u8, .rw, .b, 4, 1, 16⟩,
  /- KP_W -/ ⟨0x5401, 3, 3, .q16, .rw, .a, 0x10000, 0, 0x7fff0000⟩,
  /- KI_W -/ ⟨0x5401, 4, 4, .q16, .rw, .a, 0xa0000, 0, 0x7fff0000⟩,
  /- KAW_W -/ ⟨0x5401, 5, 5, .q16, .rw, .a, 0x640000, 0, 0x7fff0000⟩,
  /- KP_P -/ ⟨0x5401, 6, 6, .q16, .rw, .a, 0xa0000, 0, 0x7fff0000⟩,
  /- TRQ_MAX -/ ⟨0x5401, 7, 7, .i32, .rw, .a, 0x186a0, 0, 0x7fffffff⟩,
  /- SPD_MAX -/ ⟨0x5401, 8, 8, .q16, .rw, .a, 0x320000, 0, 0x13880000⟩,
  /- OVERSPEED -/ ⟨0x5401, 9, 9, .q16, .rw, .a, 0x3c0000, 0, 0x13880000⟩,
  /- POS_ERR_MAX -/ ⟨0x5401, 10, 10, .u32, .rw, .a, 0x2000000, 1, 0xffffffff⟩]

/-- Objects of R318 to R321, part 2. -/
def rowsOvenP2 : List ObjRow := [
  /- RAMP_ACC -/ ⟨0x5402, 1, 1, .q16, .rw, .a, 0xa0000, 1, 0x7fff0000⟩,
  /- RAMP_DEC -/ ⟨0x5402, 2, 2, .q16, .rw, .a, 0xa0000, 1, 0x7fff0000⟩,
  /- RAMP_JERK -/ ⟨0x5402, 3, 3, .q16, .rw, .a, 0x640000, 1, 0x7fff0000⟩,
  /- TRQ_SLEW -/ ⟨0x5402, 4, 4, .i32, .rw, .a, 0x186a0, 1, 0x7fffffff⟩,
  /- TEN_SLEW -/ ⟨0x5402, 5, 5, .i32, .rw, .a, 0x186a0, 1, 0x7fffffff⟩,
  /- RAMP_SPD -/ ⟨0x5402, 6, 6, .q16, .ro, .none, 0, -2147483648, 0x7fffffff⟩,
  /- RAMP_A -/ ⟨0x5402, 7, 7, .q16, .ro, .none, 0, -2147483648, 0x7fffffff⟩,
  /- TRQ_REF -/ ⟨0x5402, 8, 8, .i32, .ro, .none, 0, -2147483648, 0x7fffffff⟩,
  /- TEN_AUX -/ ⟨0x5403, 1, 1, .u8, .rw, .b, 0, 0, 7⟩,
  /- TEN_FS -/ ⟨0x5403, 2, 2, .i32, .rw, .b, 0x186a0, 1, 0x7fffffff⟩,
  /- TEN_LEVER -/ ⟨0x5403, 3, 3, .q16, .rw, .a, 0, 0, 0x640000⟩,
  /- KP_TEN -/ ⟨0x5403, 4, 4, .q16, .rw, .a, 0, 0, 0x7fff0000⟩,
  /- KI_TEN -/ ⟨0x5403, 5, 5, .q16, .rw, .a, 0, 0, 0x7fff0000⟩,
  /- TEN_TRIM_MAX -/ ⟨0x5403, 6, 6, .i32, .rw, .a, 0, 0, 0x7fffffff⟩,
  /- TEN_SPD_MAX -/ ⟨0x5403, 7, 7, .q16, .rw, .a, 0x50000, 0, 0x13880000⟩,
  /- TEN_MEAS -/ ⟨0x5403, 8, 8, .i32, .ro, .none, 0, -2147483648, 0x7fffffff⟩,
  /- START_I -/ ⟨0x5404, 1, 1, .i32, .rw, .a, 10000, 0, 0x7fffffff⟩,
  /- START_SPEED -/ ⟨0x5404, 2, 2, .q16, .rw, .a, 0x10000, 0, 0x640000⟩,
  /- START_ALIGN -/ ⟨0x5404, 3, 3, .u32, .rw, .a, 200, 1, 10000⟩,
  /- START_TIMEOUT -/ ⟨0x5404, 4, 4, .u32, .rw, .a, 5000, 10, 0x927c0⟩,
  /- HFI_FREQ -/ ⟨0x5404, 5, 5, .u16, .rw, .b, 2000, 1000, 4000⟩,
  /- HFI_V -/ ⟨0x5404, 6, 6, .i32, .rw, .a, 20000, 0, 0x7fffffff⟩,
  /- POL_I -/ ⟨0x5404, 7, 7, .i32, .rw, .a, 20000, 0, 0x7fffffff⟩,
  /- POL_MIN -/ ⟨0x5404, 8, 8, .u16, .rw, .a, 20, 1, 1000⟩]

/-- Objects of R318 to R321, part 3. -/
def rowsOvenP3 : List ObjRow := [
  /- HO_SPEED -/ ⟨0x5404, 9, 9, .q16, .rw, .a, 0xa0000, 0x10000, 0x3e80000⟩,
  /- START_HALL_CH -/ ⟨0x5404, 10, 10, .u8, .rw, .b, 255, 0, 255⟩,
  /- ROT_REV -/ ⟨0x5404, 11, 11, .u8, .rw, .a, 4, 1, 64⟩,
  /- ROT_RESULT -/ ⟨0x5405, 1, 1, .u8, .ro, .none, 0, 0, 255⟩,
  /- ROT_PP_MEAS -/ ⟨0x5405, 2, 2, .q16, .ro, .none, 0, -2147483648, 0x7fffffff⟩,
  /- ROT_ANGLE_OFS -/ ⟨0x5405, 3, 3, .u32, .ro, .none, 0, 0, 0xffffffff⟩,
  /- STALL_SPEED -/ ⟨0x5406, 1, 1, .q16, .rw, .a, 32768, 0, 0x13880000⟩,
  /- STALL_TIME -/ ⟨0x5406, 2, 2, .u32, .rw, .a, 2000, 10, 0x927c0⟩,
  /- STALL_MODE -/ ⟨0x5406, 3, 3, .u8, .rw, .b, 0, 0, 1⟩,
  /- STALL_HOLD -/ ⟨0x5406, 4, 4, .u32, .rw, .a, 500, 0, 60000⟩,
  /- STOP_TIMEOUT -/ ⟨0x5406, 5, 5, .u32, .rw, .a, 30000, 100, 0x927c0⟩,
  /- STOP_SPEED -/ ⟨0x5406, 6, 6, .q16, .rw, .a, 16384, 0, 0x13880000⟩,
  /- SPD_INV_MS -/ ⟨0x5406, 7, 7, .u32, .rw, .a, 20, 1, 10000⟩,
  /- BANK_ACTIVE -/ ⟨0x5407, 1, 1, .u8, .ro, .none, 0, 0, 255⟩,
  /- SWAP_PENDING -/ ⟨0x5407, 2, 2, .u8, .ro, .none, 0, 0, 255⟩,
  /- SWAP_COUNT -/ ⟨0x5407, 3, 3, .u32, .ro, .none, 0, 0, 0xffffffff⟩,
  /- PROOF_EN -/ ⟨0x5800, 1, 1, .u8, .rw, .b, 31, 0, 31⟩,
  /- PE_TC -/ ⟨0x5801, 1, 1, .u16, .rw, .a, 16, 1, 4096⟩,
  /- PE_THR -/ ⟨0x5801, 2, 2, .i32, .rw, .a, 10000, 1, 0x7fffffff⟩,
  /- PE_COUNT -/ ⟨0x5801, 3, 3, .u16, .rw, .a, 50, 1, 65535⟩,
  /- PE_RES -/ ⟨0x5801, 4, 4, .i32, .ro, .none, 0, -2147483648, 0x7fffffff⟩,
  /- PM_INERTIA -/ ⟨0x5802, 1, 1, .q16, .rw, .b, 0x10000, 1, 0x7fff0000⟩,
  /- PM_TC -/ ⟨0x5802, 2, 2, .u16, .rw, .a, 500, 1, 60000⟩,
  /- PM_THR -/ ⟨0x5802, 3, 3, .q16, .rw, .a, 32768, 1, 0x13880000⟩]

/-- Objects of R318 to R321, part 4. -/
def rowsOvenP4 : List ObjRow := [
  /- PM_COUNT -/ ⟨0x5802, 4, 4, .u16, .rw, .a, 20, 1, 65535⟩,
  /- PM_RES -/ ⟨0x5802, 5, 5, .q16, .ro, .none, 0, -2147483648, 0x7fffffff⟩,
  /- PA_MINSPD -/ ⟨0x5803, 1, 1, .q16, .rw, .a, 0xa0000, 0, 0x13880000⟩,
  /- PA_THR -/ ⟨0x5803, 2, 2, .u32, .rw, .a, 0x8000000, 1, 0x7fffffff⟩,
  /- PA_COUNT -/ ⟨0x5803, 3, 3, .u16, .rw, .a, 100, 1, 65535⟩,
  /- PA_DIFF -/ ⟨0x5803, 4, 4, .i32, .ro, .none, 0, -2147483648, 0x7fffffff⟩,
  /- PG_THR -/ ⟨0x5804, 1, 1, .i32, .rw, .a, 5000, 1, 0x7fffffff⟩,
  /- PG_COUNT -/ ⟨0x5804, 2, 2, .u16, .rw, .a, 3, 1, 65535⟩,
  /- PG_SUM -/ ⟨0x5804, 3, 3, .i32, .ro, .none, 0, -2147483648, 0x7fffffff⟩,
  /- PN_THR -/ ⟨0x5805, 1, 1, .i32, .rw, .a, 5000, 1, 0x7fffffff⟩,
  /- PN_TC -/ ⟨0x5805, 2, 2, .u16, .rw, .a, 64, 1, 4096⟩,
  /- PN_COUNT -/ ⟨0x5805, 3, 3, .u16, .rw, .a, 20, 1, 65535⟩,
  /- PN_RES -/ ⟨0x5805, 4, 4, .i32, .ro, .none, 0, -2147483648, 0x7fffffff⟩,
  /- REC_LAST -/ ⟨0x3C10, 1, 4, .blob, .ro, .none, 0, 0, 0⟩,
  /- REC_PUSHED -/ ⟨0x3C11, 1, 4, .u32, .ro, .none, 0, 0, 0xffffffff⟩]

/-- The object table of R318 to R321. -/
def rowsOven : List ObjRow :=
  rowsOvenP0 ++ rowsOvenP1 ++ rowsOvenP2 ++ rowsOvenP3 ++ rowsOvenP4

/-- Objects of R351, R352, part 0. -/
def rowsMultiP0 : List ObjRow := [
  /- GRP_LOAVES -/ ⟨0x5408, 1, 1, .u8, .rw, .b, 0, 0, 15⟩,
  /- DISP_ANGLE -/ ⟨0x5408, 2, 5, .u16, .rw, .b, 0, 0, 4500⟩,
  /- MUT_D -/ ⟨0x5409, 1, 16, .i32, .rw, .b, 0, 0, 0x3b9aca00⟩,
  /- MUT_Q -/ ⟨0x540A, 1, 16, .i32, .rw, .b, 0, 0, 0x3b9aca00⟩,
  /- SHARE_W -/ ⟨0x540B, 1, 4, .q16, .rw, .a, 0x10000, 0, 0x10000⟩,
  /- FF_MUT -/ ⟨0x540B, 5, 5, .q16, .rw, .a, 0x10000, 0, 0x20000⟩,
  /- DRAG_GAIN -/ ⟨0x540B, 6, 6, .q16, .rw, .a, 0x10000, 0, 0x20000⟩,
  /- RT_MIN -/ ⟨0x540B, 7, 7, .u8, .rw, .a, 1, 1, 4⟩,
  /- DEG_SCALE -/ ⟨0x540B, 8, 8, .q16, .rw, .a, 32768, 0, 0x10000⟩,
  /- CAP_TRQ -/ ⟨0x540C, 1, 1, .i32, .ro, .none, 0, -2147483648, 0x7fffffff⟩,
  /- CAP_FULL -/ ⟨0x540C, 2, 2, .i32, .ro, .none, 0, -2147483648, 0x7fffffff⟩,
  /- CAP_PCT -/ ⟨0x540C, 3, 3, .u16, .ro, .none, 0, 0, 65535⟩,
  /- DRAG_TRQ -/ ⟨0x540C, 4, 4, .i32, .ro, .none, 0, -2147483648, 0x7fffffff⟩,
  /- RT_CLOSED -/ ⟨0x540C, 5, 5, .u8, .ro, .none, 0, 0, 255⟩,
  /- RT_ISO -/ ⟨0x540C, 6, 6, .u8, .ro, .none, 0, 0, 255⟩,
  /- RT_COUNT -/ ⟨0x540C, 7, 7, .u32, .ro, .none, 0, 0, 0xffffffff⟩,
  /- RT_LAST_T -/ ⟨0x540C, 8, 8, .u32, .ro, .none, 0, 0, 0xffffffff⟩,
  /- SHARE_EFF -/ ⟨0x540D, 1, 4, .q16, .ro, .none, 0, -2147483648, 0x7fffffff⟩,
  /- IQ_SPLIT -/ ⟨0x540E, 1, 4, .i32, .ro, .none, 0, -2147483648, 0x7fffffff⟩,
  /- OC_THR -/ ⟨0x5C00, 1, 1, .i32, .rw, .b, 0, 0, 0x7fffffff⟩,
  /- OC_DC_THR -/ ⟨0x5C00, 2, 2, .i32, .rw, .b, 0, 0, 0x7fffffff⟩,
  /- SLOPE_THR -/ ⟨0x5C00, 3, 3, .i32, .rw, .b, 0, 0, 0x7fffffff⟩,
  /- OP_I_THR -/ ⟨0x5C01, 1, 1, .i32, .rw, .a, 1000, 1, 0x7fffffff⟩,
  /- OP_V_THR -/ ⟨0x5C01, 2, 2, .i32, .rw, .a, 20000, 1, 0x7fffffff⟩]

/-- Objects of R351, R352, part 1. -/
def rowsMultiP1 : List ObjRow := [
  /- OP_K -/ ⟨0x5C01, 3, 3, .u16, .rw, .a, 1000, 1, 65535⟩,
  /- RECON_EN -/ ⟨0x5C02, 1, 1, .u8, .rw, .b, 0, 0, 1⟩,
  /- RECON_MIN -/ ⟨0x5C02, 2, 2, .u32, .rw, .b, 200, 20, 0x186a0⟩,
  /- RECON_HOLD -/ ⟨0x5C02, 3, 3, .u8, .rw, .a, 4, 1, 255⟩,
  /- PROT_STAT -/ ⟨0x5C03, 1, 1, .u16, .ro, .none, 0, 0, 65535⟩,
  /- PROT_LEG -/ ⟨0x5C03, 2, 2, .u8, .ro, .none, 0, 0, 255⟩,
  /- OC_PEAK -/ ⟨0x5C03, 3, 3, .i32, .ro, .none, 0, -2147483648, 0x7fffffff⟩,
  /- DESAT_COUNT -/ ⟨0x5C04, 1, 1, .u32, .ro, .none, 0, 0, 0xffffffff⟩,
  /- OC_COUNT -/ ⟨0x5C04, 2, 2, .u32, .ro, .none, 0, 0, 0xffffffff⟩,
  /- SLOPE_COUNT -/ ⟨0x5C04, 3, 3, .u32, .ro, .none, 0, 0, 0xffffffff⟩,
  /- OPEN_COUNT -/ ⟨0x5C04, 4, 4, .u32, .ro, .none, 0, 0, 0xffffffff⟩,
  /- PROT_CNT_CLR -/ ⟨0x5C04, 5, 5, .u8, .wo, .none, 0, 1, 1⟩]

/-- The object table of R351, R352. -/
def rowsMulti : List ObjRow :=
  rowsMultiP0 ++ rowsMultiP1

/-- Objects of R373, part 0. -/
def rowsFaultsP0 : List ObjRow := [
  /- CLASS_TABLE -/ ⟨0x6000, 1, 1, .blob, .rw, .none, 0, 0, 0⟩,
  /- GRACE_DEF -/ ⟨0x6000, 2, 2, .u32, .rw, .none, 0x186a0, 10, 0xf4240⟩,
  /- PEND_COUNT -/ ⟨0x6000, 3, 3, .u16, .ro, .none, 0, 0, 65535⟩,
  /- PEND_LIST -/ ⟨0x6000, 4, 4, .blob, .ro, .none, 0, 0, 0⟩,
  /- LOG_SEQ -/ ⟨0x6100, 1, 1, .u32, .ro, .none, 0, 0, 0xffffffff⟩,
  /- LOG_SRC -/ ⟨0x6100, 2, 2, .u8, .rw, .none, 0, 0, 1⟩,
  /- LOG_SEL -/ ⟨0x6100, 3, 3, .u32, .rw, .none, 0, 0, 0xffffffff⟩,
  /- LOG_VIEW -/ ⟨0x6100, 4, 4, .blob, .ro, .none, 0, 0, 0⟩,
  /- LOG_NV_MIN -/ ⟨0x6100, 5, 5, .u8, .rw, .none, 1, 0, 4⟩,
  /- LOG_NV_LOST -/ ⟨0x6100, 6, 6, .u32, .ro, .none, 0, 0, 0xffffffff⟩,
  /- LOG_OLDEST_V -/ ⟨0x6100, 7, 7, .u32, .ro, .none, 0, 0, 0xffffffff⟩,
  /- LOG_OLDEST_NV -/ ⟨0x6100, 8, 8, .u32, .ro, .none, 0, 0, 0xffffffff⟩,
  /- LOG_CLR -/ ⟨0x6100, 9, 9, .u8, .wo, .none, 0, 1, 1⟩,
  /- INJ_ACTIVE -/ ⟨0x6200, 1, 1, .u8, .ro, .none, 0, 0, 255⟩,
  /- INJ_HOLD -/ ⟨0x6200, 2, 2, .u32, .rw, .none, 100, 1, 60000⟩,
  /- INJ_COUNT -/ ⟨0x6200, 3, 3, .u32, .ro, .none, 0, 0, 0xffffffff⟩,
  /- INJ_COINC -/ ⟨0x6200, 4, 4, .u32, .ro, .none, 0, 0, 0xffffffff⟩,
  /- INJ_LIST -/ ⟨0x6200, 5, 5, .blob, .ro, .none, 0, 0, 0⟩,
  /- INJ_CNT_CLR -/ ⟨0x6200, 6, 6, .u8, .wo, .none, 0, 1, 1⟩,
  /- HB_TIMEOUT -/ ⟨0x6300, 1, 1, .u32, .rw, .none, 0, 0, 60000⟩,
  /- HB_SRC -/ ⟨0x6300, 2, 2, .u8, .rw, .none, 1, 0, 3⟩,
  /- HB_NET -/ ⟨0x6300, 3, 3, .u32, .rw, .none, 0, 0, 0xffffffff⟩,
  /- HB_AGE -/ ⟨0x6300, 4, 4, .u32, .ro, .none, 0, 0, 0xffffffff⟩,
  /- HB_LATE_COUNT -/ ⟨0x6300, 5, 5, .u32, .ro, .none, 0, 0, 0xffffffff⟩]

/-- Objects of R373, part 1. -/
def rowsFaultsP1 : List ObjRow := [
  /- MGT_HB_MAX -/ ⟨0x6300, 6, 6, .u32, .ro, .none, 0, 0, 0xffffffff⟩,
  /- BEAT_STAT -/ ⟨0x6300, 7, 7, .u8, .ro, .none, 0, 0, 255⟩,
  /- BEAT_STOPS -/ ⟨0x6300, 8, 8, .u32, .ro, .none, 0, 0, 0xffffffff⟩]

/-- The object table of R373. -/
def rowsFaults : List ObjRow :=
  rowsFaultsP0 ++ rowsFaultsP1

/-- Objects of R407, R396, part 0. -/
def rowsSafetyP0 : List ObjRow := [
  /- SAFE_STAT -/ ⟨0x7000, 1, 1, .u16, .ro, .none, 0, 0, 65535⟩,
  /- SAFE_INPUTS -/ ⟨0x7000, 2, 2, .u8, .ro, .none, 0, 0, 255⟩,
  /- SAFE_SET_SEL -/ ⟨0x7000, 3, 3, .u8, .ro, .none, 0, 0, 255⟩,
  /- SAFE_SET_ID -/ ⟨0x7000, 4, 4, .u32, .ro, .none, 0, 0, 0xffffffff⟩,
  /- SAFE_BIND_CRC -/ ⟨0x7000, 5, 5, .u32, .ro, .none, 0, 0, 0xffffffff⟩,
  /- SS1_REMAIN -/ ⟨0x7000, 6, 6, .u32, .ro, .none, 0, 0, 0xffffffff⟩,
  /- STO_DEMANDS -/ ⟨0x7000, 7, 7, .u32, .ro, .none, 0, 0, 0xffffffff⟩,
  /- PT_AGE -/ ⟨0x7000, 8, 8, .u32, .ro, .none, 0, 0, 0xffffffff⟩,
  /- DISC_MAX -/ ⟨0x7000, 9, 9, .u16, .ro, .none, 0, 0, 65535⟩,
  /- SAFETY_SET -/ ⟨0x7010, 1, 4, .blob, .ro, .none, 0, 0, 0⟩,
  /- SET_STATE -/ ⟨0x7011, 1, 4, .u8, .ro, .none, 0, 0, 255⟩,
  /- SET_CRC -/ ⟨0x7012, 1, 4, .u32, .ro, .none, 0, 0, 0xffffffff⟩,
  /- STO_FUNC -/ ⟨0x7001, 1, 1, .u8, .ro, .none, 0, 0, 255⟩,
  /- GUARD_REACT -/ ⟨0x7001, 2, 2, .u8, .ro, .none, 0, 0, 255⟩,
  /- SBC_EN -/ ⟨0x7001, 3, 3, .u8, .ro, .none, 0, 0, 255⟩,
  /- SBC_GROUP -/ ⟨0x7001, 4, 4, .u8, .ro, .none, 0, 0, 255⟩,
  /- SS1_TIME -/ ⟨0x7001, 5, 5, .u32, .ro, .none, 0, 0, 0xffffffff⟩,
  /- GUARD_DISC -/ ⟨0x7001, 6, 6, .u16, .ro, .none, 0, 0, 65535⟩,
  /- SBC_DELAY -/ ⟨0x7001, 7, 7, .u16, .ro, .none, 0, 0, 65535⟩,
  /- SBC_STO_LAG -/ ⟨0x7001, 8, 8, .u16, .ro, .none, 0, 0, 65535⟩,
  /- TP_EXPECT -/ ⟨0x7001, 9, 9, .u8, .ro, .none, 0, 0, 255⟩,
  /- TP_PERIOD -/ ⟨0x7001, 10, 10, .u16, .ro, .none, 0, 0, 65535⟩]

/-- The object table of R407, R396. -/
def rowsSafety : List ObjRow :=
  rowsSafetyP0

/-- Objects of R437 to R439, part 0. -/
def rowsNetP0 : List ObjRow := [
  /- NET_STAT -/ ⟨0x8000, 1, 1, .u8, .ro, .none, 0, 0, 255⟩,
  /- PHY_ADDR0 -/ ⟨0x8000, 2, 2, .u8, .rw, .none, 0, 0, 31⟩,
  /- PHY_ADDR1 -/ ⟨0x8000, 3, 3, .u8, .rw, .none, 1, 0, 31⟩,
  /- MAC_ADDR -/ ⟨0x8000, 4, 4, .u64, .ro, .none, 0, 0, 0xffffffffffffffff⟩,
  /- ETH_RX -/ ⟨0x8001, 1, 2, .u32, .ro, .none, 0, 0, 0xffffffff⟩,
  /- ETH_TX -/ ⟨0x8002, 1, 2, .u32, .ro, .none, 0, 0, 0xffffffff⟩,
  /- ETH_DROPS -/ ⟨0x8003, 1, 3, .u32, .ro, .none, 0, 0, 0xffffffff⟩,
  /- ETH_FCS_ERR -/ ⟨0x8004, 1, 2, .u32, .ro, .none, 0, 0, 0xffffffff⟩,
  /- ETH_CNT_CLR -/ ⟨0x8005, 1, 1, .u8, .wo, .none, 0, 1, 1⟩,
  /- IP_MODE -/ ⟨0x8010, 1, 1, .u8, .rw, .none, 0, 0, 1⟩,
  /- IP_BASE -/ ⟨0x8010, 2, 2, .u32, .rw, .none, 0xc0a80a00, 0, 0xffffffff⟩,
  /- IP_ADDR -/ ⟨0x8010, 3, 3, .u32, .rw, .none, 0xc0a80a0a, 0, 0xffffffff⟩,
  /- IP_MASK -/ ⟨0x8010, 4, 4, .u32, .rw, .none, 0xffffff00, 0, 0xffffffff⟩,
  /- IP_GW -/ ⟨0x8010, 5, 5, .u32, .rw, .none, 0, 0, 0xffffffff⟩,
  /- MGT_PORT -/ ⟨0x8010, 6, 6, .u16, .rw, .none, 7412, 1, 65535⟩,
  /- STREAM_PORT -/ ⟨0x8010, 7, 7, .u16, .rw, .none, 7413, 1, 65535⟩,
  /- IP_NOW -/ ⟨0x8010, 8, 8, .u32, .ro, .none, 0, 0, 0xffffffff⟩,
  /- NET_CONN -/ ⟨0x8020, 1, 1, .u8, .ro, .none, 0, 0, 255⟩,
  /- NET_IDLE_S -/ ⟨0x8020, 2, 2, .u32, .rw, .none, 600, 0, 0x15180⟩,
  /- CONN_PEER -/ ⟨0x8021, 1, 4, .u32, .ro, .none, 0, 0, 0xffffffff⟩,
  /- CONN_ROLE -/ ⟨0x8022, 1, 4, .u8, .ro, .none, 0, 0, 255⟩,
  /- CONN_DGRAMS -/ ⟨0x8023, 1, 4, .u64, .ro, .none, 0, 0, 0xffffffffffffffff⟩,
  /- PTP_EN -/ ⟨0x8100, 1, 1, .u8, .rw, .none, 1, 0, 1⟩,
  /- PTP_DOMAIN -/ ⟨0x8100, 2, 2, .u8, .rw, .none, 0, 0, 127⟩]

/-- Objects of R437 to R439, part 1. -/
def rowsNetP1 : List ObjRow := [
  /- PTP_TRANSPORT -/ ⟨0x8100, 3, 3, .u8, .rw, .none, 0, 0, 1⟩,
  /- PTP_DELAY -/ ⟨0x8100, 4, 4, .u8, .rw, .none, 0, 0, 1⟩,
  /- PTP_TC -/ ⟨0x8100, 5, 5, .u8, .rw, .none, 1, 0, 1⟩,
  /- PTP_ANN_TO -/ ⟨0x8100, 6, 6, .u8, .rw, .none, 3, 2, 10⟩,
  /- PTP_STATE -/ ⟨0x8100, 7, 7, .u8, .ro, .none, 0, 0, 255⟩,
  /- PTP_PORT -/ ⟨0x8100, 8, 8, .u8, .ro, .none, 255, 0, 255⟩,
  /- PTP_MASTER -/ ⟨0x8100, 9, 9, .u64, .ro, .none, 0, 0, 0xffffffffffffffff⟩,
  /- PTP_OFFSET -/ ⟨0x8100, 10, 10, .i32, .ro, .none, 0, -2147483648, 0x7fffffff⟩,
  /- PTP_MPD -/ ⟨0x8100, 11, 11, .i32, .ro, .none, 0, -2147483648, 0x7fffffff⟩,
  /- TC_UNMATCHED -/ ⟨0x8100, 12, 12, .u32, .ro, .none, 0, 0, 0xffffffff⟩,
  /- PHY_RX_LAT -/ ⟨0x8101, 1, 2, .u32, .rw, .none, 0, 0, 2000⟩,
  /- PHY_TX_LAT -/ ⟨0x8102, 1, 2, .u32, .rw, .none, 0, 0, 2000⟩,
  /- ASYM -/ ⟨0x8103, 1, 2, .i32, .rw, .none, 0, -100000, 0x186a0⟩,
  /- PEER_DELAY -/ ⟨0x8104, 1, 2, .u32, .ro, .none, 0, 0, 0xffffffff⟩,
  /- LV_STATE -/ ⟨0x8200, 1, 1, .u8, .ro, .none, 0, 0, 255⟩,
  /- LV_KP -/ ⟨0x8200, 2, 2, .q16, .rw, .none, 45875, 0, 0x100000⟩,
  /- LV_KI -/ ⟨0x8200, 3, 3, .q16, .rw, .none, 19661, 0, 0x100000⟩,
  /- LV_MAX_PPB -/ ⟨0x8200, 4, 4, .u32, .rw, .none, 0x30d40, 1000, 0xf4240⟩,
  /- LV_JUMP -/ ⟨0x8200, 5, 5, .u32, .rw, .none, 1000, 100, 0x3b9aca00⟩,
  /- LV_LOCK_NS -/ ⟨0x8200, 6, 6, .u32, .rw, .none, 100, 1, 0xf4240⟩,
  /- LV_LOCK_N -/ ⟨0x8200, 7, 7, .u8, .rw, .none, 8, 1, 255⟩,
  /- LV_INIT_STEP -/ ⟨0x8200, 8, 8, .u8, .rw, .none, 1, 0, 1⟩,
  /- LV_RATE -/ ⟨0x8200, 9, 9, .i32, .ro, .none, 0, -2147483648, 0x7fffffff⟩,
  /- LV_LAST_OFS -/ ⟨0x8200, 10, 10, .i32, .ro, .none, 0, -2147483648, 0x7fffffff⟩]

/-- Objects of R437 to R439, part 2. -/
def rowsNetP2 : List ObjRow := [
  /- TIME_JUMP -/ ⟨0x8200, 11, 11, .u8, .ro, .none, 0, 0, 255⟩,
  /- LV_JUMP_S -/ ⟨0x8200, 12, 12, .i32, .ro, .none, 0, -2147483648, 0x7fffffff⟩,
  /- LV_JUMP_NS -/ ⟨0x8200, 13, 13, .i32, .ro, .none, 0, -2147483648, 0x7fffffff⟩,
  /- LV_REFUSED -/ ⟨0x8200, 14, 14, .u32, .ro, .none, 0, 0, 0xffffffff⟩,
  /- PPS_EN -/ ⟨0x8300, 1, 1, .u8, .rw, .none, 0, 0, 1⟩,
  /- PPS_WIDTH -/ ⟨0x8300, 2, 2, .u32, .rw, .none, 0x186a0, 1, 0x7a120⟩,
  /- PPS_GATE -/ ⟨0x8300, 3, 3, .u8, .rw, .none, 1, 0, 1⟩,
  /- TU_TRIM -/ ⟨0x8400, 1, 7, .u8, .rw, .none, 1, 0, 1⟩,
  /- TU_INC -/ ⟨0x8401, 1, 7, .u64, .rw, .none, 0x500000000, 0x400000000, 0x600000000⟩,
  /- TU_LOAD -/ ⟨0x8402, 1, 7, .u8, .wo, .none, 0, 1, 1⟩,
  /- TU_OFS -/ ⟨0x8403, 1, 7, .i32, .ro, .none, 0, -2147483648, 0x7fffffff⟩,
  /- TU_STAT -/ ⟨0x8404, 1, 7, .u8, .ro, .none, 0, 0, 255⟩,
  /- EPOCH_INTERVAL -/ ⟨0x8410, 1, 4, .u32, .rw, .none, 0xf4240, 1000, 0x3b9aca00⟩,
  /- EPOCH_PHASE -/ ⟨0x8411, 1, 4, .u32, .rw, .none, 0, 0, 0x3b9ac9ff⟩,
  /- EPOCH_DEV -/ ⟨0x8412, 1, 4, .i32, .ro, .none, 0, -2147483648, 0x7fffffff⟩,
  /- ETS_SRC -/ ⟨0x8420, 1, 2, .u8, .rw, .none, 0, 0, 12⟩,
  /- ETS_EDGE -/ ⟨0x8421, 1, 2, .u8, .rw, .none, 1, 1, 3⟩,
  /- ETS_LOG -/ ⟨0x8422, 1, 2, .blob, .ro, .none, 0, 0, 0⟩,
  /- ETS_COUNT -/ ⟨0x8423, 1, 2, .u32, .ro, .none, 0, 0, 0xffffffff⟩]

/-- The object table of R437 to R439. -/
def rowsNet : List ObjRow :=
  rowsNetP0 ++ rowsNetP1 ++ rowsNetP2

/-- Objects of R456, part 0. -/
def rowsPeriphP0 : List ObjRow := [
  /- PP_STAT -/ ⟨0x9000, 1, 1, .u16, .ro, .none, 0, 0, 65535⟩,
  /- PP_ABORT -/ ⟨0x9000, 2, 2, .u8, .wo, .none, 0, 1, 1⟩,
  /- PGP_CFG -/ ⟨0x9000, 3, 3, .u8, .rw, .none, 0, 0, 255⟩,
  /- DEV_SEL -/ ⟨0x9010, 1, 10, .u8, .rw, .none, 255, 0, 255⟩,
  /- DEV_MODE -/ ⟨0x9011, 1, 10, .u8, .rw, .none, 0, 0, 3⟩,
  /- DEV_BITS -/ ⟨0x9012, 1, 10, .u8, .rw, .none, 8, 4, 32⟩,
  /- DEV_ORDER -/ ⟨0x9013, 1, 10, .u8, .rw, .none, 0, 0, 1⟩,
  /- DEV_DIV -/ ⟨0x9014, 1, 10, .u16, .rw, .none, 50, 5, 320⟩,
  /- DEV_LEAD -/ ⟨0x9015, 1, 10, .u8, .rw, .none, 25, 1, 255⟩,
  /- DEV_LAG -/ ⟨0x9016, 1, 10, .u8, .rw, .none, 25, 1, 255⟩,
  /- DEV_PRDY -/ ⟨0x9017, 1, 10, .u8, .rw, .none, 0, 0, 1⟩,
  /- DEV_PRDY_TO -/ ⟨0x9018, 1, 10, .u16, .rw, .none, 100, 1, 1000⟩,
  /- MAN_DEV -/ ⟨0x9020, 1, 1, .u8, .rw, .none, 0, 0, 9⟩,
  /- MAN_CNT -/ ⟨0x9020, 2, 2, .u8, .rw, .none, 1, 1, 8⟩,
  /- MAN_GO -/ ⟨0x9020, 3, 3, .u8, .wo, .none, 0, 1, 1⟩,
  /- MAN_STAT -/ ⟨0x9020, 4, 4, .u16, .ro, .none, 0, 0, 65535⟩,
  /- MAN_TX -/ ⟨0x9021, 1, 8, .u32, .rw, .none, 0, 0, 0xffffffff⟩,
  /- MAN_RX -/ ⟨0x9022, 1, 8, .u32, .ro, .none, 0, 0, 0xffffffff⟩,
  /- LIST_TRIG -/ ⟨0x9030, 1, 2, .u8, .rw, .none, 0, 0, 2⟩,
  /- LIST_LOAF -/ ⟨0x9031, 1, 2, .u8, .rw, .none, 0, 0, 3⟩,
  /- LIST_DIV -/ ⟨0x9032, 1, 2, .u8, .rw, .none, 1, 1, 255⟩,
  /- LIST_PERIOD -/ ⟨0x9033, 1, 2, .u32, .rw, .none, 1000, 10, 0xf4240⟩,
  /- LIST_DEF -/ ⟨0x9034, 1, 2, .blob, .rw, .none, 0, 0, 0⟩,
  /- LIST_RES -/ ⟨0x9035, 1, 2, .blob, .ro, .none, 0, 0, 0⟩]

/-- Objects of R456, part 1. -/
def rowsPeriphP1 : List ObjRow := [
  /- LIST_RUNS -/ ⟨0x9036, 1, 2, .u32, .ro, .none, 0, 0, 0xffffffff⟩,
  /- LIST_OVERRUN -/ ⟨0x9037, 1, 2, .u32, .ro, .none, 0, 0, 0xffffffff⟩,
  /- PRDY_TO_CNT -/ ⟨0x9040, 1, 10, .u32, .ro, .none, 0, 0, 0xffffffff⟩,
  /- PP_CNT_CLR -/ ⟨0x9041, 1, 1, .u8, .wo, .none, 0, 1, 1⟩]

/-- The object table of R456. -/
def rowsPeriph : List ObjRow :=
  rowsPeriphP0 ++ rowsPeriphP1

/-- Objects of R478, part 0. -/
def rowsPairP0 : List ObjRow := [
  /- PR_SIDE -/ ⟨0xA000, 1, 1, .u8, .ro, .none, 0, 0, 255⟩,
  /- PR_MODE -/ ⟨0xA000, 2, 2, .u8, .rw, .b, 0, 0, 1⟩,
  /- PR_GROUP -/ ⟨0xA000, 3, 3, .u8, .rw, .b, 0, 0, 3⟩,
  /- PR_STAT -/ ⟨0xA000, 4, 4, .u16, .ro, .none, 0, 0, 65535⟩,
  /- PR_ROLE -/ ⟨0xA000, 5, 5, .u8, .ro, .none, 5, 0, 255⟩,
  /- PR_CFG_CRC -/ ⟨0xA000, 6, 6, .u32, .ro, .none, 0, 0, 0xffffffff⟩,
  /- PR_ACT_FILT -/ ⟨0xA001, 1, 1, .u16, .rw, .b, 2000, 250, 65535⟩,
  /- PR_B_WAIT_MS -/ ⟨0xA001, 2, 2, .u32, .rw, .none, 2000, 100, 60000⟩,
  /- ML_CRC_ERR -/ ⟨0xA002, 1, 1, .u32, .ro, .none, 0, 0, 0xffffffff⟩,
  /- ML_LOST -/ ⟨0xA002, 2, 2, .u32, .ro, .none, 0, 0, 0xffffffff⟩,
  /- ML_RETRAIN -/ ⟨0xA002, 3, 3, .u32, .ro, .none, 0, 0, 0xffffffff⟩,
  /- ML_LAT_MAX -/ ⟨0xA002, 4, 4, .u32, .ro, .none, 0, 0, 0xffffffff⟩,
  /- FAILOVERS -/ ⟨0xA002, 5, 5, .u32, .ro, .none, 0, 0, 0xffffffff⟩,
  /- ML_CNT_CLR -/ ⟨0xA002, 6, 6, .u8, .wo, .none, 0, 1, 1⟩,
  /- PR_MUT_D -/ ⟨0xA003, 1, 8, .i32, .rw, .b, 0, 0, 0x3b9aca00⟩,
  /- PR_MUT_Q -/ ⟨0xA004, 1, 8, .i32, .rw, .b, 0, 0, 0x3b9aca00⟩,
  /- PR_REMOTE_LOAF -/ ⟨0xA005, 1, 2, .u8, .rw, .b, 255, 0, 255⟩,
  /- PR_CAP_PARTNER -/ ⟨0xA006, 1, 1, .i32, .ro, .none, 0, -2147483648, 0x7fffffff⟩,
  /- PR_SHARE -/ ⟨0xA006, 2, 2, .q16, .ro, .none, 0, -2147483648, 0x7fffffff⟩,
  /- PR_LAST_T -/ ⟨0xA006, 3, 3, .u32, .ro, .none, 0, 0, 0xffffffff⟩,
  /- PR_CLK_OFS -/ ⟨0xA006, 4, 4, .i32, .ro, .none, 0, -2147483648, 0x7fffffff⟩]

/-- The object table of R478. -/
def rowsPair : List ObjRow :=
  rowsPairP0

/-- Objects of R502, part 0. -/
def rowsSecP0 : List ObjRow := [
  /- SEC_STAT -/ ⟨0xB000, 1, 1, .u16, .ro, .none, 0, 0, 65535⟩,
  /- SESSION_ROLE -/ ⟨0xB000, 2, 2, .u8, .ro, .none, 0, 0, 255⟩,
  /- SESSION_USER -/ ⟨0xB000, 3, 3, .u8, .ro, .none, 255, 0, 255⟩,
  /- SEC_IDLE_S -/ ⟨0xB000, 4, 4, .u32, .rw, .none, 900, 60, 0x15180⟩,
  /- SEC_LOCK_N -/ ⟨0xB000, 5, 5, .u8, .rw, .none, 5, 3, 20⟩,
  /- LOCKOUT -/ ⟨0xB000, 6, 6, .u16, .ro, .none, 0, 0, 65535⟩,
  /- FW_SVN -/ ⟨0xB001, 1, 1, .u16, .ro, .none, 0, 0, 65535⟩,
  /- ROLLBACK_CTR -/ ⟨0xB001, 2, 2, .u8, .ro, .none, 0, 0, 255⟩,
  /- SLOT_A_VER -/ ⟨0xB001, 3, 3, .u32, .ro, .none, 0, 0, 0xffffffff⟩,
  /- SLOT_B_VER -/ ⟨0xB001, 4, 4, .u32, .ro, .none, 0, 0, 0xffffffff⟩,
  /- SLOT_RUN -/ ⟨0xB001, 5, 5, .u8, .ro, .none, 0, 0, 255⟩,
  /- CFG_VERSION -/ ⟨0xB002, 1, 1, .u32, .ro, .none, 0, 0, 0xffffffff⟩,
  /- OWNER_KEY_HASH -/ ⟨0xB002, 2, 2, .blob, .ro, .none, 0, 0, 0⟩,
  /- USER_TABLE -/ ⟨0xB002, 3, 3, .blob, .ro, .none, 0, 0, 0⟩,
  /- DEV_CERT -/ ⟨0xB003, 1, 1, .blob, .ro, .none, 0, 0, 0⟩,
  /- AUD_SEQ -/ ⟨0xB004, 1, 1, .u32, .ro, .none, 0, 0, 0xffffffff⟩,
  /- AUD_SEL -/ ⟨0xB004, 2, 2, .u32, .rw, .none, 0, 0, 0xffffffff⟩,
  /- AUD_VIEW -/ ⟨0xB004, 3, 3, .blob, .ro, .none, 0, 0, 0⟩,
  /- AUD_OLDEST -/ ⟨0xB004, 4, 4, .u32, .ro, .none, 0, 0, 0xffffffff⟩,
  /- ATTEST_NONCE -/ ⟨0xB005, 1, 1, .u64, .rw, .none, 0, 0, 0xffffffffffffffff⟩,
  /- ATTEST -/ ⟨0xB005, 2, 2, .blob, .ro, .none, 0, 0, 0⟩]

/-- The object table of R502. -/
def rowsSec : List ObjRow :=
  rowsSecP0

/-- The index at which the tables list the object: the unit's base taken to unit 0 (R168). -/
def baseIndex (idx : Nat) : Nat :=
  if 0x2000 ≤ idx ∧ idx ≤ 0x23FF then 0x2000 + idx % 0x100
  else if 0x3000 ≤ idx ∧ idx ≤ 0x35FF then 0x3000 + idx % 0x100
  else if 0x4000 ≤ idx ∧ idx ≤ 0x43FF then 0x4000 + idx % 0x100
  else if 0x5000 ≤ idx ∧ idx ≤ 0x53FF then 0x5000 + idx % 0x100
  else if 0x5400 ≤ idx ∧ idx ≤ 0x57FF then 0x5400 + idx % 0x100
  else if 0x5800 ≤ idx ∧ idx ≤ 0x5BFF then 0x5800 + idx % 0x100
  else if 0x5C00 ≤ idx ∧ idx ≤ 0x5FFF then 0x5C00 + idx % 0x100
  else if idx = 0x8201 then 0x8200
  else idx

/-- The unit number an index of a repeated range names (0 elsewhere). -/
def unitOf (idx : Nat) : Nat :=
  if 0x2000 ≤ idx ∧ idx ≤ 0x23FF then (idx - 0x2000) / 0x100
  else if 0x3000 ≤ idx ∧ idx ≤ 0x35FF then (idx - 0x3000) / 0x100
  else if 0x4000 ≤ idx ∧ idx ≤ 0x43FF then (idx - 0x4000) / 0x100
  else if 0x5000 ≤ idx ∧ idx ≤ 0x53FF then (idx - 0x5000) / 0x100
  else if 0x5400 ≤ idx ∧ idx ≤ 0x57FF then (idx - 0x5400) / 0x100
  else if 0x5800 ≤ idx ∧ idx ≤ 0x5BFF then (idx - 0x5800) / 0x100
  else if 0x5C00 ≤ idx ∧ idx ≤ 0x5FFF then (idx - 0x5C00) / 0x100
  else 0

/-- The table that owns an index, R166. -/
def tableOf (idx : Nat) : List ObjRow :=
  if idx < 0x1004 then (if idx = 0x1000 then rowsCommands else rowsReset)
  else if idx < 0x1007 then rowsPower
  else if idx < 0x1010 then rowsReset
  else if idx < 0x2000 then (if idx = 0x1011 then rowsArch else rowsCommands)
  else if idx < 0x3000 then rowsPwm
  else if idx < 0x3C00 then rowsConv
  else if idx < 0x4000 then (if idx < 0x3C10 then rowsCommands else rowsOven)
  else if idx < 0x5000 then rowsFb
  else if idx < 0x5400 then rowsOven
  else if idx < 0x5800 then (if idx % 0x100 < 8 then rowsOven else rowsMulti)
  else if idx < 0x5C00 then rowsOven
  else if idx < 0x6000 then rowsMulti
  else if idx < 0x7000 then rowsFaults
  else if idx < 0x8000 then rowsSafety
  else if idx < 0x9000 then rowsNet
  else if idx < 0xA000 then rowsPeriph
  else if idx < 0xB000 then rowsPair
  else rowsSec

/-- Existence beyond the table rows: what CV4 and CV5 lack, the pair objects, `AUX_LOAF` and the FB0-only objects
(R249, R279). `INJ_OVERRUN`, `LATE_SAMPLES`, `INCOMPLETE` and `CONV_CNT_CLR` exist on CV4 and CV5 too (DESIGN CHOICE: R249 does not
say whether they count among the injected objects that only CV0 to CV3 have, log entry 161). -/
def unitHas (idx sub : Nat) : Bool :=
  let b := baseIndex idx
  let u := unitOf idx
  if 0x3000 ≤ idx ∧ idx ≤ 0x35FF then
    let perInput := b = 0x3006 ∨ b = 0x3007 ∨ b = 0x3009 ∨ b = 0x300A ∨ b = 0x300C ∨ b = 0x300D
    if b = 0x3017 then decide (u = 5)
    else if b = 0x3014 ∨ b = 0x3015 ∨ b = 0x3016 then decide (u = 0 ∨ u = 2)
    else if b = 0x3008 then decide (u < 4)
    else if perInput then decide (u < 4 ∨ (u = 4 ∧ sub ≤ 2) ∨ (u = 5 ∧ sub ≤ 8))
    else if b = 0x3001 ∨ b = 0x3002 ∨ b = 0x3003 ∨ b = 0x3004 ∨ b = 0x3005 ∨ b = 0x300E ∨ b = 0x3010
        ∨ b = 0x3011 ∨ b = 0x3012 then decide (u < 4)
    else if b = 0x3000 ∧ (sub = 2 ∨ sub = 3) then decide (u < 4)
    else true
  else if b = 0x4005 ∧ idx < 0x5000 then decide (u = 0)
  else true

/-- The row of an object, or none where no owning chapter lists it (R167). Subindex 0 is the entry count and has no row. -/
def objRow (idx sub : Nat) : Option ObjRow :=
  if unitHas idx sub then
    (tableOf idx).find? (fun r => r.idx == baseIndex idx && (r.lo ≤ sub && sub ≤ r.hi))
  else none

/-- The row of an address. -/
def rowAt (addr : Nat) : Option ObjRow := objRow (addr / 0x100) (addr % 0x100)

/-- The entry count an index shows at subindex 0x00 (R168): its number of listed subindices; 0 for an index no
chapter lists. -/
def entryCount (idx : Nat) : Nat :=
  ((List.range 17).filter (fun s => s ≠ 0 ∧ (objRow idx s).isSome)).length

/-- The default filters of the trip sources, R198. -/
def defaultFilt (src : Nat) : Int :=
  if src < 8 then 40 else if src < 12 then 8 else if src = 12 then 2 else 0

/-- The default maps of the trip sources, R198. -/
def defaultMap (src : Nat) : Int :=
  if src < 8 then 0 else if src < 12 then ((16 ^ (src - 8) : Nat) : Int) else if src < 14 then 0x1111 else 0x5555

/-- What an object holds after power-on reset, R8: its Default column, with the defaults that depend on the unit
or the subindex. -/
def objDefault (addr : Nat) : Int :=
  let idx := addr / 0x100
  let sub := addr % 0x100
  if idx = 0x2800 then defaultFilt (sub - 1)
  else if idx = 0x2801 then defaultMap (sub - 1)
  else if baseIndex idx = 0x3002 ∧ idx < 0x3600 then ((sub - 1 : Nat) : Int)
  else if baseIndex idx = 0x4000 ∧ sub = 4 ∧ idx < 0x5000 then ((unitOf idx : Nat) : Int)
  else if baseIndex idx = 0x5001 ∧ sub = 5 then ((unitOf idx : Nat) : Int)
  else match objRow idx sub with
    | some r => r.dflt
    | none => 0

/-! Named addresses. -/
namespace Obj

/-- `PEEL_CRC_C` (0x1011.01). -/
def peelCrcC : Nat := 0x101101
/-- `PEEL_CRC_M` (0x1011.02). -/
def peelCrcM : Nat := 0x101102
/-- `PEEL_RETX` (0x1011.03). -/
def peelRetx : Nat := 0x101103
/-- `PEEL_RETRAIN` (0x1011.04). -/
def peelRetrain : Nat := 0x101104
/-- `REC_DROP` (0x1011.05). -/
def recDrop : Nat := 0x101105
/-- `PEEL_CTL_LAT_MAX` (0x1011.06). -/
def peelCtlLatMax : Nat := 0x101106
/-- `PEEL_STATS_CLR` (0x1011.07). -/
def peelStatsClr : Nat := 0x101107
/-- `SW_RESET` (0x1004.01). -/
def swReset : Nat := 0x100401
/-- `SW_NOW` (0x1004.02). -/
def swNow : Nat := 0x100402
/-- `SW_DISCREP` (0x1004.03). -/
def swDiscrep : Nat := 0x100403
/-- `COVER_STATE` (0x1004.04). -/
def coverState : Nat := 0x100404
/-- `COVER_COUNT` (0x1004.05). -/
def coverCount : Nat := 0x100405
/-- `COVER_LAST` (0x1004.06). -/
def coverLast : Nat := 0x100406
/-- `VIN_MV` (0x1005.01). -/
def vinMv : Nat := 0x100501
/-- `VIO_G_MV` (0x1005.02). -/
def vioGMv : Nat := 0x100502
/-- `VIO_H_MV` (0x1005.03). -/
def vioHMv : Nat := 0x100503
/-- `VBAT_MV` (0x1005.04). -/
def vbatMv : Nat := 0x100504
/-- `AGND_OFS_MV` (0x1005.05). -/
def agndOfsMv : Nat := 0x100505
/-- `VIO_G_CLASS` (0x1005.06). -/
def vioGClass : Nat := 0x100506
/-- `SUPPLY_FLAGS` (0x1005.07). -/
def supplyFlags : Nat := 0x100507
/-- `TEMP_C` (0x1006.01). -/
def tempC : Nat := 0x100601
/-- `TEMP_M` (0x1006.02). -/
def tempM : Nat := 0x100602
/-- `TEMP_PEAK` (0x1006.03). -/
def tempPeak : Nat := 0x100603
/-- `MODULE_STATE` (0x1001.01). -/
def moduleState : Nat := 0x100101
/-- `MODULE_REQ` (0x1001.02). -/
def moduleReq : Nat := 0x100102
/-- `READY_BLOCK` (0x1001.03). -/
def readyBlock : Nat := 0x100103
/-- `STATE_TIME` (0x1001.04). -/
def stateTime : Nat := 0x100104
/-- `RESET_CAUSE` (0x1002.01). -/
def resetCause : Nat := 0x100201
/-- `RESET_COUNT` (0x1002.02). -/
def resetCount : Nat := 0x100202
/-- `BOOT_MS` (0x1002.03). -/
def bootMs : Nat := 0x100203
/-- `BOOT_ERR` (0x1002.04). -/
def bootErr : Nat := 0x100204
/-- `WDT_COUNT` (0x1002.05). -/
def wdtCount : Nat := 0x100205
/-- `CLK_STATUS` (0x1003.01). -/
def clkStatus : Nat := 0x100301
/-- `CK_SAFE_HZ` (0x1003.02). -/
def ckSafeHz : Nat := 0x100302
/-- `REF_READY_ALL` (0x1003.03). -/
def refReadyAll : Nat := 0x100303
/-- `TIME_COUNT_S` (0x1007.01). -/
def timeCountS : Nat := 0x100701
/-- `TIME_COUNT_FRAC` (0x1007.02). -/
def timeCountFrac : Nat := 0x100702
/-- `TIME_VALID` (0x1007.03). -/
def timeValid : Nat := 0x100703
/-- `VIN_LOSS_S` (0x1007.04). -/
def vinLossS : Nat := 0x100704
/-- `WAKE_ALARM_S` (0x1007.05). -/
def wakeAlarmS : Nat := 0x100705
/-- `STANDBY_REASON` (0x1007.06). -/
def standbyReason : Nat := 0x100706
/-- `WAKE_MISSED` (0x1007.07). -/
def wakeMissed : Nat := 0x100707
/-- `DEVICE_ID` (0x1000.01). -/
def deviceId : Nat := 0x100001
/-- `ORDER_CODE` (0x1000.02). -/
def orderCode : Nat := 0x100002
/-- `HW_REV_OBJ` (0x1000.03). -/
def hwRevObj : Nat := 0x100003
/-- `FW_VERSION_OBJ` (0x1000.04). -/
def fwVersionObj : Nat := 0x100004
/-- `SERIAL` (0x1000.05). -/
def serial : Nat := 0x100005
/-- `CONFIG_CRC` (0x1000.06). -/
def configCrc : Nat := 0x100006
/-- `DICT_VER` (0x1000.07). -/
def dictVer : Nat := 0x100007
/-- `IGNORED_WRITES` (0x1010.01). -/
def ignoredWrites : Nat := 0x101001
/-- `IGN_NOOBJ` (0x1010.02). -/
def ignNoobj : Nat := 0x101002
/-- `IGN_RO` (0x1010.03). -/
def ignRo : Nat := 0x101003
/-- `IGN_RANGE` (0x1010.04). -/
def ignRange : Nat := 0x101004
/-- `IGN_CLASS_B` (0x1010.05). -/
def ignClassB : Nat := 0x101005
/-- `IGN_ABSENT` (0x1010.06). -/
def ignAbsent : Nat := 0x101006
/-- `IGN_STATE` (0x1010.07). -/
def ignState : Nat := 0x101007
/-- `IGN_LAST` (0x1010.08). -/
def ignLast : Nat := 0x101008
/-- `IGN_LAST_REASON` (0x1010.09). -/
def ignLastReason : Nat := 0x101009
/-- `IGN_CLR` (0x1010.0A). -/
def ignClr : Nat := 0x10100A
/-- `CMD_TAKEN` (0x1012.01). -/
def cmdTaken : Nat := 0x101201
/-- `CMD_REFUSED` (0x1012.02). -/
def cmdRefused : Nat := 0x101202
/-- `CMD_LAST_REFUSED` (0x1012.03). -/
def cmdLastRefused : Nat := 0x101203
/-- `CMD_CNT_CLR` (0x1012.04). -/
def cmdCntClr : Nat := 0x101204
/-- `SUB_STATE` (0x3C00.01–.08). -/
def subState (i : Nat) : Nat := 0x3C0001 + i
/-- `SUB_RATE` (0x3C01.01–.08). -/
def subRate (i : Nat) : Nat := 0x3C0101 + i
/-- `SUB_SENT` (0x3C02.01–.08). -/
def subSent (i : Nat) : Nat := 0x3C0201 + i
/-- `SUB_DROPPED` (0x3C03.01–.08). -/
def subDropped (i : Nat) : Nat := 0x3C0301 + i
/-- `MB2_RATE_USED` (0x3C04.01). -/
def mb2RateUsed : Nat := 0x3C0401
/-- `UDP_RATE_USED` (0x3C04.02). -/
def udpRateUsed : Nat := 0x3C0402
/-- `STREAM_CNT_CLR` (0x3C04.03). -/
def streamCntClr : Nat := 0x3C0403
/-- `CNT_MODE` (0x2000.01). -/
def cntMode (n : Nat) : Nat := 0x200001 + 0x10000 * n
/-- `PERIOD` (0x2000.02). -/
def period (n : Nat) : Nat := 0x200002 + 0x10000 * n
/-- `FRAME_LEN` (0x2000.03). -/
def frameLen (n : Nat) : Nat := 0x200003 + 0x10000 * n
/-- `PEAK_RELOAD` (0x2000.04). -/
def peakReload (n : Nat) : Nat := 0x200004 + 0x10000 * n
/-- `DEAD_TIME` (0x2000.05). -/
def deadTime (n : Nat) : Nat := 0x200005 + 0x10000 * n
/-- `PHASE_OFS` (0x2000.06). -/
def phaseOfs (n : Nat) : Nat := 0x200006 + 0x10000 * n
/-- `LEG_PERM` (0x2000.07). -/
def legPerm (n : Nat) : Nat := 0x200007 + 0x10000 * n
/-- `SAFE_STATE` (0x2000.08). -/
def safeState (n : Nat) : Nat := 0x200008 + 0x10000 * n
/-- `AUTO_SPEED` (0x2000.09). -/
def autoSpeed (n : Nat) : Nat := 0x200009 + 0x10000 * n
/-- `AUTO_HYST` (0x2000.0A). -/
def autoHyst (n : Nat) : Nat := 0x20000A + 0x10000 * n
/-- `LEG_SWAP` (0x2001.01–.03). -/
def legSwap (n : Nat) (i : Nat) : Nat := 0x200101 + 0x10000 * n + i
/-- `LEG_INV` (0x2002.01–.03). -/
def legInv (n : Nat) (i : Nat) : Nat := 0x200201 + 0x10000 * n + i
/-- `OPEN_CMP` (0x2003.01–.03). -/
def openCmp (n : Nat) (i : Nat) : Nat := 0x200301 + 0x10000 * n + i
/-- `EVT_SRC` (0x2004.01–.03). -/
def evtSrc (n : Nat) (i : Nat) : Nat := 0x200401 + 0x10000 * n + i
/-- `EVT_PRESC` (0x2005.01–.03). -/
def evtPresc (n : Nat) (i : Nat) : Nat := 0x200501 + 0x10000 * n + i
/-- `EVT_TGT` (0x2006.01–.03). -/
def evtTgt (n : Nat) (i : Nat) : Nat := 0x200601 + 0x10000 * n + i
/-- `ACTIVE_CMP` (0x2007.01–.03). -/
def activeCmp (n : Nat) (i : Nat) : Nat := 0x200701 + 0x10000 * n + i
/-- `PWM_STAT` (0x2008.01). -/
def pwmStat (n : Nat) : Nat := 0x200801 + 0x10000 * n
/-- `FRAME_COUNT` (0x2008.02). -/
def frameCount (n : Nat) : Nat := 0x200802 + 0x10000 * n
/-- `LATE_COUNT` (0x2008.03). -/
def lateCount (n : Nat) : Nat := 0x200803 + 0x10000 * n
/-- `LATE_RUN` (0x2008.04). -/
def lateRun (n : Nat) : Nat := 0x200804 + 0x10000 * n
/-- `TRIP_LATCH` (0x2008.05). -/
def tripLatch (n : Nat) : Nat := 0x200805 + 0x10000 * n
/-- `CYCLE_TRIPS` (0x2008.06). -/
def cycleTrips (n : Nat) : Nat := 0x200806 + 0x10000 * n
/-- `READBACK_ERR` (0x2008.07). -/
def readbackErr (n : Nat) : Nat := 0x200807 + 0x10000 * n
/-- `PWM_CNT_CLR` (0x2008.08). -/
def pwmCntClr (n : Nat) : Nat := 0x200808 + 0x10000 * n
/-- `TRIP_FILT` (0x2800.01–.10). -/
def tripFilt (i : Nat) : Nat := 0x280001 + i
/-- `TRIP_MAP` (0x2801.01–.10). -/
def tripMap (i : Nat) : Nat := 0x280101 + i
/-- `TRIP_LEVEL` (0x2802.01). -/
def tripLevel : Nat := 0x280201
/-- `TRIP_SYNC` (0x2802.02). -/
def tripSync : Nat := 0x280202
/-- `TRIP_COUNT` (0x2803.01–.10). -/
def tripCount (i : Nat) : Nat := 0x280301 + i
/-- `TRIP_CNT_CLR` (0x2804.01). -/
def tripCntClr : Nat := 0x280401
/-- `HALT_CAUSE` (0x2F00.01). -/
def haltCause : Nat := 0x2F0001
/-- `RUN_MASK` (0x2F00.02). -/
def runMask : Nat := 0x2F0002
/-- `GEN_LEVELS` (0x2F00.03). -/
def genLevels : Nat := 0x2F0003
/-- `CONV_STAT` (0x3000.01). -/
def convStat (n : Nat) : Nat := 0x300001 + 0x10000 * n
/-- `SLICE_EXCL` (0x3000.02). -/
def sliceExcl (n : Nat) : Nat := 0x300002 + 0x10000 * n
/-- `MM_FREEZE` (0x3000.03). -/
def mmFreeze (n : Nat) : Nat := 0x300003 + 0x10000 * n
/-- `SEQ_LEN` (0x3001.01). -/
def seqLen (n : Nat) : Nat := 0x300101 + 0x10000 * n
/-- `SEQ_REG` (0x3002.01–.08). -/
def seqReg (n : Nat) (i : Nat) : Nat := 0x300201 + 0x10000 * n + i
/-- `INJ_LEN` (0x3003.01). -/
def injLen (n : Nat) : Nat := 0x300301 + 0x10000 * n
/-- `SEQ_INJ` (0x3004.01–.04). -/
def seqInj (n : Nat) (i : Nat) : Nat := 0x300401 + 0x10000 * n + i
/-- `INJ_TRIG` (0x3005.01). -/
def injTrig (n : Nat) : Nat := 0x300501 + 0x10000 * n
/-- `CH_OFFSET` (0x3006.01–.09). -/
def chOffset (n : Nat) (i : Nat) : Nat := 0x300601 + 0x10000 * n + i
/-- `CH_GAIN` (0x3007.01–.09). -/
def chGain (n : Nat) (i : Nat) : Nat := 0x300701 + 0x10000 * n + i
/-- `CH_ROLE` (0x3008.01–.09). -/
def chRole (n : Nat) (i : Nat) : Nat := 0x300801 + 0x10000 * n + i
/-- `CH_FS` (0x3009.01–.09). -/
def chFs (n : Nat) (i : Nat) : Nat := 0x300901 + 0x10000 * n + i
/-- `CH_OW` (0x300A.01–.09). -/
def chOw (n : Nat) (i : Nat) : Nat := 0x300A01 + 0x10000 * n + i
/-- `OW_LEVEL` (0x300B.01). -/
def owLevel (n : Nat) : Nat := 0x300B01 + 0x10000 * n
/-- `OW_TIME` (0x300B.02). -/
def owTime (n : Nat) : Nat := 0x300B02 + 0x10000 * n
/-- `CH_RESULT` (0x300C.01–.09). -/
def chResult (n : Nat) (i : Nat) : Nat := 0x300C01 + 0x10000 * n + i
/-- `CH_MEAN` (0x300D.01–.09). -/
def chMean (n : Nat) (i : Nat) : Nat := 0x300D01 + 0x10000 * n + i
/-- `INJ_RESULT` (0x300E.01–.04). -/
def injResult (n : Nat) (i : Nat) : Nat := 0x300E01 + 0x10000 * n + i
/-- `INJ_TIME` (0x300E.05). -/
def injTime (n : Nat) : Nat := 0x300E05 + 0x10000 * n
/-- `SAT_FLAGS` (0x300F.01). -/
def satFlags (n : Nat) : Nat := 0x300F01 + 0x10000 * n
/-- `OW_FLAGS` (0x300F.02). -/
def owFlags (n : Nat) : Nat := 0x300F02 + 0x10000 * n
/-- `SLICE_OFS` (0x3010.01–.04). -/
def sliceOfs (n : Nat) (i : Nat) : Nat := 0x301001 + 0x10000 * n + i
/-- `SLICE_GAIN` (0x3011.01–.04). -/
def sliceGain (n : Nat) (i : Nat) : Nat := 0x301101 + 0x10000 * n + i
/-- `SLICE_SKEW` (0x3012.01–.04). -/
def sliceSkew (n : Nat) (i : Nat) : Nat := 0x301201 + 0x10000 * n + i
/-- `INJ_OVERRUN` (0x3013.01). -/
def injOverrun (n : Nat) : Nat := 0x301301 + 0x10000 * n
/-- `LATE_SAMPLES` (0x3013.02). -/
def lateSamples (n : Nat) : Nat := 0x301302 + 0x10000 * n
/-- `INCOMPLETE` (0x3013.03). -/
def incomplete (n : Nat) : Nat := 0x301303 + 0x10000 * n
/-- `CONV_CNT_CLR` (0x3013.04). -/
def convCntClr (n : Nat) : Nat := 0x301304 + 0x10000 * n
/-- `PLAUS_EN` (0x3014.01). -/
def plausEn (n : Nat) : Nat := 0x301401 + 0x10000 * n
/-- `PLAUS_TOL` (0x3014.02). -/
def plausTol (n : Nat) : Nat := 0x301402 + 0x10000 * n
/-- `PLAUS_COUNT` (0x3014.03). -/
def plausCount (n : Nat) : Nat := 0x301403 + 0x10000 * n
/-- `PLAUS_DIFF` (0x3014.04). -/
def plausDiff (n : Nat) : Nat := 0x301404 + 0x10000 * n
/-- `PLAUS_RUN` (0x3014.05). -/
def plausRun (n : Nat) : Nat := 0x301405 + 0x10000 * n
/-- `PAIR_MODE` (0x3015.01). -/
def pairMode (n : Nat) : Nat := 0x301501 + 0x10000 * n
/-- `PAIR_SRC` (0x3015.02). -/
def pairSrc (n : Nat) : Nat := 0x301502 + 0x10000 * n
/-- `PAIR_TRIG` (0x3015.03). -/
def pairTrig (n : Nat) : Nat := 0x301503 + 0x10000 * n
/-- `PAIR_BURST_LEN` (0x3015.04). -/
def pairBurstLen (n : Nat) : Nat := 0x301504 + 0x10000 * n
/-- `PAIR_BUF` (0x3016.01). -/
def pairBuf (n : Nat) : Nat := 0x301601 + 0x10000 * n
/-- `AUX_LOAF` (0x3017.01). -/
def auxLoaf (n : Nat) : Nat := 0x301701 + 0x10000 * n
/-- `CAP_STATE` (0x3800.01). -/
def capState : Nat := 0x380001
/-- `CAP_SEQ` (0x3800.02). -/
def capSeq : Nat := 0x380002
/-- `CAP_CAUSE` (0x3800.03). -/
def capCause : Nat := 0x380003
/-- `CAP_LEN` (0x3800.04). -/
def capLen : Nat := 0x380004
/-- `CAP_MODE` (0x3801.01). -/
def capMode : Nat := 0x380101
/-- `CAP_SEL` (0x3801.02–.05). -/
def capSel (i : Nat) : Nat := 0x380102 + i
/-- `CAP_REC_MASK` (0x3801.06). -/
def capRecMask : Nat := 0x380106
/-- `CAP_DECIM` (0x3801.07). -/
def capDecim : Nat := 0x380107
/-- `CAP_PRE` (0x3801.08). -/
def capPre : Nat := 0x380108
/-- `CAP_POST` (0x3801.09). -/
def capPost : Nat := 0x380109
/-- `CAP_TRIG_FAULT` (0x3802.01). -/
def capTrigFault : Nat := 0x380201
/-- `CAP_TRIG_CODE` (0x3802.02). -/
def capTrigCode : Nat := 0x380202
/-- `CAP_THR_SRC` (0x3802.03). -/
def capThrSrc : Nat := 0x380203
/-- `CAP_THR_LEVEL` (0x3802.04). -/
def capThrLevel : Nat := 0x380204
/-- `CAP_THR_EDGE` (0x3802.05). -/
def capThrEdge : Nat := 0x380205
/-- `FB_MODE` (0x4000.01). -/
def fbMode (n : Nat) : Nat := 0x400001 + 0x10000 * n
/-- `FB_RES` (0x4000.02). -/
def fbRes (n : Nat) : Nat := 0x400002 + 0x10000 * n
/-- `FB_DIR_INV` (0x4000.03). -/
def fbDirInv (n : Nat) : Nat := 0x400003 + 0x10000 * n
/-- `FB_LOAF` (0x4000.04). -/
def fbLoaf (n : Nat) : Nat := 0x400004 + 0x10000 * n
/-- `FB_FILT` (0x4000.05). -/
def fbFilt (n : Nat) : Nat := 0x400005 + 0x10000 * n
/-- `IDX_MODE` (0x4001.01). -/
def idxMode (n : Nat) : Nat := 0x400101 + 0x10000 * n
/-- `IDX_GATE` (0x4001.02). -/
def idxGate (n : Nat) : Nat := 0x400102 + 0x10000 * n
/-- `IDX_WINDOW` (0x4001.03). -/
def idxWindow (n : Nat) : Nat := 0x400103 + 0x10000 * n
/-- `IDX_ARM` (0x4001.04). -/
def idxArm (n : Nat) : Nat := 0x400104 + 0x10000 * n
/-- `IDX_DEV` (0x4001.05). -/
def idxDev (n : Nat) : Nat := 0x400105 + 0x10000 * n
/-- `IDX_DEV_LATCH` (0x4001.06). -/
def idxDevLatch (n : Nat) : Nat := 0x400106 + 0x10000 * n
/-- `FB_POS` (0x4002.01). -/
def fbPos (n : Nat) : Nat := 0x400201 + 0x10000 * n
/-- `FB_TURNS` (0x4002.02). -/
def fbTurns (n : Nat) : Nat := 0x400202 + 0x10000 * n
/-- `FB_COUNT` (0x4002.03). -/
def fbCount (n : Nat) : Nat := 0x400203 + 0x10000 * n
/-- `FB_STAT` (0x4002.04). -/
def fbStat (n : Nat) : Nat := 0x400204 + 0x10000 * n
/-- `FB_EDGE_T` (0x4002.05). -/
def fbEdgeT (n : Nat) : Nat := 0x400205 + 0x10000 * n
/-- `HALL_STATE` (0x4002.06). -/
def hallState (n : Nat) : Nat := 0x400206 + 0x10000 * n
/-- `SPD` (0x4003.01). -/
def spd (n : Nat) : Nat := 0x400301 + 0x10000 * n
/-- `SPD_EDGE` (0x4003.02). -/
def spdEdge (n : Nat) : Nat := 0x400302 + 0x10000 * n
/-- `SPD_CNT` (0x4003.03). -/
def spdCnt (n : Nat) : Nat := 0x400303 + 0x10000 * n
/-- `SPD_STANDSTILL` (0x4003.04). -/
def spdStandstill (n : Nat) : Nat := 0x400304 + 0x10000 * n
/-- `SPD_EDGE_AVG` (0x4003.05). -/
def spdEdgeAvg (n : Nat) : Nat := 0x400305 + 0x10000 * n
/-- `SPD_FRAMES` (0x4003.06). -/
def spdFrames (n : Nat) : Nat := 0x400306 + 0x10000 * n
/-- `SPD_BLEND_LO` (0x4003.07). -/
def spdBlendLo (n : Nat) : Nat := 0x400307 + 0x10000 * n
/-- `SPD_BLEND_HI` (0x4003.08). -/
def spdBlendHi (n : Nat) : Nat := 0x400308 + 0x10000 * n
/-- `SER_ST_BITS` (0x4004.01). -/
def serStBits (n : Nat) : Nat := 0x400401 + 0x10000 * n
/-- `SER_MT_BITS` (0x4004.02). -/
def serMtBits (n : Nat) : Nat := 0x400402 + 0x10000 * n
/-- `SER_CODE` (0x4004.03). -/
def serCode (n : Nat) : Nat := 0x400403 + 0x10000 * n
/-- `SER_CLK_DIV` (0x4004.04). -/
def serClkDiv (n : Nat) : Nat := 0x400404 + 0x10000 * n
/-- `SER_LEAD` (0x4004.05). -/
def serLead (n : Nat) : Nat := 0x400405 + 0x10000 * n
/-- `SER_PAUSE` (0x4004.06). -/
def serPause (n : Nat) : Nat := 0x400406 + 0x10000 * n
/-- `SER_ERR_MAX` (0x4004.07). -/
def serErrMax (n : Nat) : Nat := 0x400407 + 0x10000 * n
/-- `SER_ERR_CNT` (0x4004.08). -/
def serErrCnt (n : Nat) : Nat := 0x400408 + 0x10000 * n
/-- `SER_LINE_DLY` (0x4004.09). -/
def serLineDly (n : Nat) : Nat := 0x400409 + 0x10000 * n
/-- `SC_AMP_NOM` (0x4005.01). -/
def scAmpNom (n : Nat) : Nat := 0x400501 + 0x10000 * n
/-- `SC_AMP` (0x4005.02). -/
def scAmp (n : Nat) : Nat := 0x400502 + 0x10000 * n
/-- `SC_FINE` (0x4005.03). -/
def scFine (n : Nat) : Nat := 0x400503 + 0x10000 * n
/-- `SC_ADJ` (0x4005.04). -/
def scAdj (n : Nat) : Nat := 0x400504 + 0x10000 * n
/-- `ILLEGAL_CNT` (0x4006.01). -/
def illegalCnt (n : Nat) : Nat := 0x400601 + 0x10000 * n
/-- `IDX_CNT` (0x4006.02). -/
def idxCnt (n : Nat) : Nat := 0x400602 + 0x10000 * n
/-- `SLIP_CNT` (0x4006.03). -/
def slipCnt (n : Nat) : Nat := 0x400603 + 0x10000 * n
/-- `FB_CNT_CLR` (0x4006.04). -/
def fbCntClr (n : Nat) : Nat := 0x400604 + 0x10000 * n
/-- `LOAF_ST` (0x5000.01). -/
def loafSt (n : Nat) : Nat := 0x500001 + 0x10000 * n
/-- `OVEN_FLAGS` (0x5000.02). -/
def ovenFlags (n : Nat) : Nat := 0x500002 + 0x10000 * n
/-- `POLE_PAIRS` (0x5001.01). -/
def polePairs (n : Nat) : Nat := 0x500101 + 0x10000 * n
/-- `ANGLE_OFS` (0x5001.02). -/
def angleOfs (n : Nat) : Nat := 0x500102 + 0x10000 * n
/-- `I_BASE` (0x5001.03). -/
def iBase (n : Nat) : Nat := 0x500103 + 0x10000 * n
/-- `V_BASE` (0x5001.04). -/
def vBase (n : Nat) : Nat := 0x500104 + 0x10000 * n
/-- `UDC_LOAF` (0x5001.05). -/
def udcLoaf (n : Nat) : Nat := 0x500105 + 0x10000 * n
/-- `MOT_R` (0x5002.01). -/
def motR (n : Nat) : Nat := 0x500201 + 0x10000 * n
/-- `MOT_LD` (0x5002.02). -/
def motLd (n : Nat) : Nat := 0x500202 + 0x10000 * n
/-- `MOT_LQ` (0x5002.03). -/
def motLq (n : Nat) : Nat := 0x500203 + 0x10000 * n
/-- `MOT_PSI` (0x5002.04). -/
def motPsi (n : Nat) : Nat := 0x500204 + 0x10000 * n
/-- `KP_D` (0x5003.01). -/
def kpD (n : Nat) : Nat := 0x500301 + 0x10000 * n
/-- `KI_D` (0x5003.02). -/
def kiD (n : Nat) : Nat := 0x500302 + 0x10000 * n
/-- `KP_Q` (0x5003.03). -/
def kpQ (n : Nat) : Nat := 0x500303 + 0x10000 * n
/-- `KI_Q` (0x5003.04). -/
def kiQ (n : Nat) : Nat := 0x500304 + 0x10000 * n
/-- `KAW` (0x5003.05). -/
def kaw (n : Nat) : Nat := 0x500305 + 0x10000 * n
/-- `FF_XC` (0x5003.06). -/
def ffXc (n : Nat) : Nat := 0x500306 + 0x10000 * n
/-- `FF_EMF` (0x5003.07). -/
def ffEmf (n : Nat) : Nat := 0x500307 + 0x10000 * n
/-- `I_MAX` (0x5003.08). -/
def iMax (n : Nat) : Nat := 0x500308 + 0x10000 * n
/-- `MOD_MAX` (0x5003.09). -/
def modMax (n : Nat) : Nat := 0x500309 + 0x10000 * n
/-- `ID_REF` (0x5003.0A). -/
def idRef (n : Nat) : Nat := 0x50030A + 0x10000 * n
/-- `INCOMPLETE_MAX` (0x5003.0B). -/
def incompleteMax (n : Nat) : Nat := 0x50030B + 0x10000 * n
/-- `IDQ_TEST_D` (0x5004.01). -/
def idqTestD (n : Nat) : Nat := 0x500401 + 0x10000 * n
/-- `IDQ_TEST_Q` (0x5004.02). -/
def idqTestQ (n : Nat) : Nat := 0x500402 + 0x10000 * n
/-- `TEST_ANGLE` (0x5004.03). -/
def testAngle (n : Nat) : Nat := 0x500403 + 0x10000 * n
/-- `ID_MEAS` (0x5005.01). -/
def idMeas (n : Nat) : Nat := 0x500501 + 0x10000 * n
/-- `IQ_MEAS` (0x5005.02). -/
def iqMeas (n : Nat) : Nat := 0x500502 + 0x10000 * n
/-- `VD_OUT` (0x5005.03). -/
def vdOut (n : Nat) : Nat := 0x500503 + 0x10000 * n
/-- `VQ_OUT` (0x5005.04). -/
def vqOut (n : Nat) : Nat := 0x500504 + 0x10000 * n
/-- `UDC_MEAS` (0x5005.05). -/
def udcMeas (n : Nat) : Nat := 0x500505 + 0x10000 * n
/-- `THETA_E` (0x5005.06). -/
def thetaE (n : Nat) : Nat := 0x500506 + 0x10000 * n
/-- `HELD_FRAMES` (0x5006.01). -/
def heldFrames (n : Nat) : Nat := 0x500601 + 0x10000 * n
/-- `VLIM_FRAMES` (0x5006.02). -/
def vlimFrames (n : Nat) : Nat := 0x500602 + 0x10000 * n
/-- `OVEN_CNT_CLR` (0x5006.03). -/
def ovenCntClr (n : Nat) : Nat := 0x500603 + 0x10000 * n
/-- `GROUP_ST` (0x5400.01). -/
def groupSt (n : Nat) : Nat := 0x540001 + 0x10000 * n
/-- `CTRL_MODE` (0x5400.02). -/
def ctrlMode (n : Nat) : Nat := 0x540002 + 0x10000 * n
/-- `POS_CH` (0x5400.03). -/
def posCh (n : Nat) : Nat := 0x540003 + 0x10000 * n
/-- `STARTER` (0x5400.04). -/
def starter (n : Nat) : Nat := 0x540004 + 0x10000 * n
/-- `SPD_DIV` (0x5401.01). -/
def spdDiv (n : Nat) : Nat := 0x540101 + 0x10000 * n
/-- `POS_DIV` (0x5401.02). -/
def posDiv (n : Nat) : Nat := 0x540102 + 0x10000 * n
/-- `KP_W` (0x5401.03). -/
def kpW (n : Nat) : Nat := 0x540103 + 0x10000 * n
/-- `KI_W` (0x5401.04). -/
def kiW (n : Nat) : Nat := 0x540104 + 0x10000 * n
/-- `KAW_W` (0x5401.05). -/
def kawW (n : Nat) : Nat := 0x540105 + 0x10000 * n
/-- `KP_P` (0x5401.06). -/
def kpP (n : Nat) : Nat := 0x540106 + 0x10000 * n
/-- `TRQ_MAX` (0x5401.07). -/
def trqMax (n : Nat) : Nat := 0x540107 + 0x10000 * n
/-- `SPD_MAX` (0x5401.08). -/
def spdMax (n : Nat) : Nat := 0x540108 + 0x10000 * n
/-- `OVERSPEED` (0x5401.09). -/
def overspeed (n : Nat) : Nat := 0x540109 + 0x10000 * n
/-- `POS_ERR_MAX` (0x5401.0A). -/
def posErrMax (n : Nat) : Nat := 0x54010A + 0x10000 * n
/-- `RAMP_ACC` (0x5402.01). -/
def rampAcc (n : Nat) : Nat := 0x540201 + 0x10000 * n
/-- `RAMP_DEC` (0x5402.02). -/
def rampDec (n : Nat) : Nat := 0x540202 + 0x10000 * n
/-- `RAMP_JERK` (0x5402.03). -/
def rampJerk (n : Nat) : Nat := 0x540203 + 0x10000 * n
/-- `TRQ_SLEW` (0x5402.04). -/
def trqSlew (n : Nat) : Nat := 0x540204 + 0x10000 * n
/-- `TEN_SLEW` (0x5402.05). -/
def tenSlew (n : Nat) : Nat := 0x540205 + 0x10000 * n
/-- `RAMP_SPD` (0x5402.06). -/
def rampSpd (n : Nat) : Nat := 0x540206 + 0x10000 * n
/-- `RAMP_A` (0x5402.07). -/
def rampA (n : Nat) : Nat := 0x540207 + 0x10000 * n
/-- `TRQ_REF` (0x5402.08). -/
def trqRef (n : Nat) : Nat := 0x540208 + 0x10000 * n
/-- `TEN_AUX` (0x5403.01). -/
def tenAux (n : Nat) : Nat := 0x540301 + 0x10000 * n
/-- `TEN_FS` (0x5403.02). -/
def tenFs (n : Nat) : Nat := 0x540302 + 0x10000 * n
/-- `TEN_LEVER` (0x5403.03). -/
def tenLever (n : Nat) : Nat := 0x540303 + 0x10000 * n
/-- `KP_TEN` (0x5403.04). -/
def kpTen (n : Nat) : Nat := 0x540304 + 0x10000 * n
/-- `KI_TEN` (0x5403.05). -/
def kiTen (n : Nat) : Nat := 0x540305 + 0x10000 * n
/-- `TEN_TRIM_MAX` (0x5403.06). -/
def tenTrimMax (n : Nat) : Nat := 0x540306 + 0x10000 * n
/-- `TEN_SPD_MAX` (0x5403.07). -/
def tenSpdMax (n : Nat) : Nat := 0x540307 + 0x10000 * n
/-- `TEN_MEAS` (0x5403.08). -/
def tenMeas (n : Nat) : Nat := 0x540308 + 0x10000 * n
/-- `START_I` (0x5404.01). -/
def startI (n : Nat) : Nat := 0x540401 + 0x10000 * n
/-- `START_SPEED` (0x5404.02). -/
def startSpeed (n : Nat) : Nat := 0x540402 + 0x10000 * n
/-- `START_ALIGN` (0x5404.03). -/
def startAlign (n : Nat) : Nat := 0x540403 + 0x10000 * n
/-- `START_TIMEOUT` (0x5404.04). -/
def startTimeout (n : Nat) : Nat := 0x540404 + 0x10000 * n
/-- `HFI_FREQ` (0x5404.05). -/
def hfiFreq (n : Nat) : Nat := 0x540405 + 0x10000 * n
/-- `HFI_V` (0x5404.06). -/
def hfiV (n : Nat) : Nat := 0x540406 + 0x10000 * n
/-- `POL_I` (0x5404.07). -/
def polI (n : Nat) : Nat := 0x540407 + 0x10000 * n
/-- `POL_MIN` (0x5404.08). -/
def polMin (n : Nat) : Nat := 0x540408 + 0x10000 * n
/-- `HO_SPEED` (0x5404.09). -/
def hoSpeed (n : Nat) : Nat := 0x540409 + 0x10000 * n
/-- `START_HALL_CH` (0x5404.0A). -/
def startHallCh (n : Nat) : Nat := 0x54040A + 0x10000 * n
/-- `ROT_REV` (0x5404.0B). -/
def rotRev (n : Nat) : Nat := 0x54040B + 0x10000 * n
/-- `ROT_RESULT` (0x5405.01). -/
def rotResult (n : Nat) : Nat := 0x540501 + 0x10000 * n
/-- `ROT_PP_MEAS` (0x5405.02). -/
def rotPpMeas (n : Nat) : Nat := 0x540502 + 0x10000 * n
/-- `ROT_ANGLE_OFS` (0x5405.03). -/
def rotAngleOfs (n : Nat) : Nat := 0x540503 + 0x10000 * n
/-- `STALL_SPEED` (0x5406.01). -/
def stallSpeed (n : Nat) : Nat := 0x540601 + 0x10000 * n
/-- `STALL_TIME` (0x5406.02). -/
def stallTime (n : Nat) : Nat := 0x540602 + 0x10000 * n
/-- `STALL_MODE` (0x5406.03). -/
def stallMode (n : Nat) : Nat := 0x540603 + 0x10000 * n
/-- `STALL_HOLD` (0x5406.04). -/
def stallHold (n : Nat) : Nat := 0x540604 + 0x10000 * n
/-- `STOP_TIMEOUT` (0x5406.05). -/
def stopTimeout (n : Nat) : Nat := 0x540605 + 0x10000 * n
/-- `STOP_SPEED` (0x5406.06). -/
def stopSpeed (n : Nat) : Nat := 0x540606 + 0x10000 * n
/-- `SPD_INV_MS` (0x5406.07). -/
def spdInvMs (n : Nat) : Nat := 0x540607 + 0x10000 * n
/-- `BANK_ACTIVE` (0x5407.01). -/
def bankActive (n : Nat) : Nat := 0x540701 + 0x10000 * n
/-- `SWAP_PENDING` (0x5407.02). -/
def swapPending (n : Nat) : Nat := 0x540702 + 0x10000 * n
/-- `SWAP_COUNT` (0x5407.03). -/
def swapCount (n : Nat) : Nat := 0x540703 + 0x10000 * n
/-- `PROOF_EN` (0x5800.01). -/
def proofEn (n : Nat) : Nat := 0x580001 + 0x10000 * n
/-- `PE_TC` (0x5801.01). -/
def peTc (n : Nat) : Nat := 0x580101 + 0x10000 * n
/-- `PE_THR` (0x5801.02). -/
def peThr (n : Nat) : Nat := 0x580102 + 0x10000 * n
/-- `PE_COUNT` (0x5801.03). -/
def peCount (n : Nat) : Nat := 0x580103 + 0x10000 * n
/-- `PE_RES` (0x5801.04). -/
def peRes (n : Nat) : Nat := 0x580104 + 0x10000 * n
/-- `PM_INERTIA` (0x5802.01). -/
def pmInertia (n : Nat) : Nat := 0x580201 + 0x10000 * n
/-- `PM_TC` (0x5802.02). -/
def pmTc (n : Nat) : Nat := 0x580202 + 0x10000 * n
/-- `PM_THR` (0x5802.03). -/
def pmThr (n : Nat) : Nat := 0x580203 + 0x10000 * n
/-- `PM_COUNT` (0x5802.04). -/
def pmCount (n : Nat) : Nat := 0x580204 + 0x10000 * n
/-- `PM_RES` (0x5802.05). -/
def pmRes (n : Nat) : Nat := 0x580205 + 0x10000 * n
/-- `PA_MINSPD` (0x5803.01). -/
def paMinspd (n : Nat) : Nat := 0x580301 + 0x10000 * n
/-- `PA_THR` (0x5803.02). -/
def paThr (n : Nat) : Nat := 0x580302 + 0x10000 * n
/-- `PA_COUNT` (0x5803.03). -/
def paCount (n : Nat) : Nat := 0x580303 + 0x10000 * n
/-- `PA_DIFF` (0x5803.04). -/
def paDiff (n : Nat) : Nat := 0x580304 + 0x10000 * n
/-- `PG_THR` (0x5804.01). -/
def pgThr (n : Nat) : Nat := 0x580401 + 0x10000 * n
/-- `PG_COUNT` (0x5804.02). -/
def pgCount (n : Nat) : Nat := 0x580402 + 0x10000 * n
/-- `PG_SUM` (0x5804.03). -/
def pgSum (n : Nat) : Nat := 0x580403 + 0x10000 * n
/-- `PN_THR` (0x5805.01). -/
def pnThr (n : Nat) : Nat := 0x580501 + 0x10000 * n
/-- `PN_TC` (0x5805.02). -/
def pnTc (n : Nat) : Nat := 0x580502 + 0x10000 * n
/-- `PN_COUNT` (0x5805.03). -/
def pnCount (n : Nat) : Nat := 0x580503 + 0x10000 * n
/-- `PN_RES` (0x5805.04). -/
def pnRes (n : Nat) : Nat := 0x580504 + 0x10000 * n
/-- `REC_LAST` (0x3C10.01–.04). -/
def recLast (i : Nat) : Nat := 0x3C1001 + i
/-- `REC_PUSHED` (0x3C11.01–.04). -/
def recPushed (i : Nat) : Nat := 0x3C1101 + i
/-- `GRP_LOAVES` (0x5408.01). -/
def grpLoaves (n : Nat) : Nat := 0x540801 + 0x10000 * n
/-- `DISP_ANGLE` (0x5408.02–.05). -/
def dispAngle (n : Nat) (i : Nat) : Nat := 0x540802 + 0x10000 * n + i
/-- `MUT_D` (0x5409.01–.10). -/
def mutD (n : Nat) (i : Nat) : Nat := 0x540901 + 0x10000 * n + i
/-- `MUT_Q` (0x540A.01–.10). -/
def mutQ (n : Nat) (i : Nat) : Nat := 0x540A01 + 0x10000 * n + i
/-- `SHARE_W` (0x540B.01–.04). -/
def shareW (n : Nat) (i : Nat) : Nat := 0x540B01 + 0x10000 * n + i
/-- `FF_MUT` (0x540B.05). -/
def ffMut (n : Nat) : Nat := 0x540B05 + 0x10000 * n
/-- `DRAG_GAIN` (0x540B.06). -/
def dragGain (n : Nat) : Nat := 0x540B06 + 0x10000 * n
/-- `RT_MIN` (0x540B.07). -/
def rtMin (n : Nat) : Nat := 0x540B07 + 0x10000 * n
/-- `DEG_SCALE` (0x540B.08). -/
def degScale (n : Nat) : Nat := 0x540B08 + 0x10000 * n
/-- `CAP_TRQ` (0x540C.01). -/
def capTrq (n : Nat) : Nat := 0x540C01 + 0x10000 * n
/-- `CAP_FULL` (0x540C.02). -/
def capFull (n : Nat) : Nat := 0x540C02 + 0x10000 * n
/-- `CAP_PCT` (0x540C.03). -/
def capPct (n : Nat) : Nat := 0x540C03 + 0x10000 * n
/-- `DRAG_TRQ` (0x540C.04). -/
def dragTrq (n : Nat) : Nat := 0x540C04 + 0x10000 * n
/-- `RT_CLOSED` (0x540C.05). -/
def rtClosed (n : Nat) : Nat := 0x540C05 + 0x10000 * n
/-- `RT_ISO` (0x540C.06). -/
def rtIso (n : Nat) : Nat := 0x540C06 + 0x10000 * n
/-- `RT_COUNT` (0x540C.07). -/
def rtCount (n : Nat) : Nat := 0x540C07 + 0x10000 * n
/-- `RT_LAST_T` (0x540C.08). -/
def rtLastT (n : Nat) : Nat := 0x540C08 + 0x10000 * n
/-- `SHARE_EFF` (0x540D.01–.04). -/
def shareEff (n : Nat) (i : Nat) : Nat := 0x540D01 + 0x10000 * n + i
/-- `IQ_SPLIT` (0x540E.01–.04). -/
def iqSplit (n : Nat) (i : Nat) : Nat := 0x540E01 + 0x10000 * n + i
/-- `OC_THR` (0x5C00.01). -/
def ocThr (n : Nat) : Nat := 0x5C0001 + 0x10000 * n
/-- `OC_DC_THR` (0x5C00.02). -/
def ocDcThr (n : Nat) : Nat := 0x5C0002 + 0x10000 * n
/-- `SLOPE_THR` (0x5C00.03). -/
def slopeThr (n : Nat) : Nat := 0x5C0003 + 0x10000 * n
/-- `OP_I_THR` (0x5C01.01). -/
def opIThr (n : Nat) : Nat := 0x5C0101 + 0x10000 * n
/-- `OP_V_THR` (0x5C01.02). -/
def opVThr (n : Nat) : Nat := 0x5C0102 + 0x10000 * n
/-- `OP_K` (0x5C01.03). -/
def opK (n : Nat) : Nat := 0x5C0103 + 0x10000 * n
/-- `RECON_EN` (0x5C02.01). -/
def reconEn (n : Nat) : Nat := 0x5C0201 + 0x10000 * n
/-- `RECON_MIN` (0x5C02.02). -/
def reconMin (n : Nat) : Nat := 0x5C0202 + 0x10000 * n
/-- `RECON_HOLD` (0x5C02.03). -/
def reconHold (n : Nat) : Nat := 0x5C0203 + 0x10000 * n
/-- `PROT_STAT` (0x5C03.01). -/
def protStat (n : Nat) : Nat := 0x5C0301 + 0x10000 * n
/-- `PROT_LEG` (0x5C03.02). -/
def protLeg (n : Nat) : Nat := 0x5C0302 + 0x10000 * n
/-- `OC_PEAK` (0x5C03.03). -/
def ocPeak (n : Nat) : Nat := 0x5C0303 + 0x10000 * n
/-- `DESAT_COUNT` (0x5C04.01). -/
def desatCount (n : Nat) : Nat := 0x5C0401 + 0x10000 * n
/-- `OC_COUNT` (0x5C04.02). -/
def ocCount (n : Nat) : Nat := 0x5C0402 + 0x10000 * n
/-- `SLOPE_COUNT` (0x5C04.03). -/
def slopeCount (n : Nat) : Nat := 0x5C0403 + 0x10000 * n
/-- `OPEN_COUNT` (0x5C04.04). -/
def openCount (n : Nat) : Nat := 0x5C0404 + 0x10000 * n
/-- `PROT_CNT_CLR` (0x5C04.05). -/
def protCntClr (n : Nat) : Nat := 0x5C0405 + 0x10000 * n
/-- `CLASS_TABLE` (0x6000.01). -/
def classTable : Nat := 0x600001
/-- `GRACE_DEF` (0x6000.02). -/
def graceDef : Nat := 0x600002
/-- `PEND_COUNT` (0x6000.03). -/
def pendCount : Nat := 0x600003
/-- `PEND_LIST` (0x6000.04). -/
def pendList : Nat := 0x600004
/-- `LOG_SEQ` (0x6100.01). -/
def logSeq : Nat := 0x610001
/-- `LOG_SRC` (0x6100.02). -/
def logSrc : Nat := 0x610002
/-- `LOG_SEL` (0x6100.03). -/
def logSel : Nat := 0x610003
/-- `LOG_VIEW` (0x6100.04). -/
def logView : Nat := 0x610004
/-- `LOG_NV_MIN` (0x6100.05). -/
def logNvMin : Nat := 0x610005
/-- `LOG_NV_LOST` (0x6100.06). -/
def logNvLost : Nat := 0x610006
/-- `LOG_OLDEST_V` (0x6100.07). -/
def logOldestV : Nat := 0x610007
/-- `LOG_OLDEST_NV` (0x6100.08). -/
def logOldestNv : Nat := 0x610008
/-- `LOG_CLR` (0x6100.09). -/
def logClr : Nat := 0x610009
/-- `INJ_ACTIVE` (0x6200.01). -/
def injActive : Nat := 0x620001
/-- `INJ_HOLD` (0x6200.02). -/
def injHold : Nat := 0x620002
/-- `INJ_COUNT` (0x6200.03). -/
def injCount : Nat := 0x620003
/-- `INJ_COINC` (0x6200.04). -/
def injCoinc : Nat := 0x620004
/-- `INJ_LIST` (0x6200.05). -/
def injList : Nat := 0x620005
/-- `INJ_CNT_CLR` (0x6200.06). -/
def injCntClr : Nat := 0x620006
/-- `HB_TIMEOUT` (0x6300.01). -/
def hbTimeout : Nat := 0x630001
/-- `HB_SRC` (0x6300.02). -/
def hbSrc : Nat := 0x630002
/-- `HB_NET` (0x6300.03). -/
def hbNet : Nat := 0x630003
/-- `HB_AGE` (0x6300.04). -/
def hbAge : Nat := 0x630004
/-- `HB_LATE_COUNT` (0x6300.05). -/
def hbLateCount : Nat := 0x630005
/-- `MGT_HB_MAX` (0x6300.06). -/
def mgtHbMax : Nat := 0x630006
/-- `BEAT_STAT` (0x6300.07). -/
def beatStat : Nat := 0x630007
/-- `BEAT_STOPS` (0x6300.08). -/
def beatStops : Nat := 0x630008
/-- `SAFE_STAT` (0x7000.01). -/
def safeStat : Nat := 0x700001
/-- `SAFE_INPUTS` (0x7000.02). -/
def safeInputs : Nat := 0x700002
/-- `SAFE_SET_SEL` (0x7000.03). -/
def safeSetSel : Nat := 0x700003
/-- `SAFE_SET_ID` (0x7000.04). -/
def safeSetId : Nat := 0x700004
/-- `SAFE_BIND_CRC` (0x7000.05). -/
def safeBindCrc : Nat := 0x700005
/-- `SS1_REMAIN` (0x7000.06). -/
def ss1Remain : Nat := 0x700006
/-- `STO_DEMANDS` (0x7000.07). -/
def stoDemands : Nat := 0x700007
/-- `PT_AGE` (0x7000.08). -/
def ptAge : Nat := 0x700008
/-- `DISC_MAX` (0x7000.09). -/
def discMax : Nat := 0x700009
/-- `SAFETY_SET` (0x7010.01–.04). -/
def safetySet (i : Nat) : Nat := 0x701001 + i
/-- `SET_STATE` (0x7011.01–.04). -/
def setState (i : Nat) : Nat := 0x701101 + i
/-- `SET_CRC` (0x7012.01–.04). -/
def setCrc (i : Nat) : Nat := 0x701201 + i
/-- `NET_STAT` (0x8000.01). -/
def netStat : Nat := 0x800001
/-- `PHY_ADDR0` (0x8000.02). -/
def phyAddr0 : Nat := 0x800002
/-- `PHY_ADDR1` (0x8000.03). -/
def phyAddr1 : Nat := 0x800003
/-- `MAC_ADDR` (0x8000.04). -/
def macAddr : Nat := 0x800004
/-- `ETH_RX` (0x8001.01–.02). -/
def ethRx (i : Nat) : Nat := 0x800101 + i
/-- `ETH_TX` (0x8002.01–.02). -/
def ethTx (i : Nat) : Nat := 0x800201 + i
/-- `ETH_DROPS` (0x8003.01–.03). -/
def ethDrops (i : Nat) : Nat := 0x800301 + i
/-- `ETH_FCS_ERR` (0x8004.01–.02). -/
def ethFcsErr (i : Nat) : Nat := 0x800401 + i
/-- `ETH_CNT_CLR` (0x8005.01). -/
def ethCntClr : Nat := 0x800501
/-- `IP_MODE` (0x8010.01). -/
def ipMode : Nat := 0x801001
/-- `IP_BASE` (0x8010.02). -/
def ipBase : Nat := 0x801002
/-- `IP_ADDR` (0x8010.03). -/
def ipAddr : Nat := 0x801003
/-- `IP_MASK` (0x8010.04). -/
def ipMask : Nat := 0x801004
/-- `IP_GW` (0x8010.05). -/
def ipGw : Nat := 0x801005
/-- `MGT_PORT` (0x8010.06). -/
def mgtPort : Nat := 0x801006
/-- `STREAM_PORT` (0x8010.07). -/
def streamPort : Nat := 0x801007
/-- `IP_NOW` (0x8010.08). -/
def ipNow : Nat := 0x801008
/-- `NET_CONN` (0x8020.01). -/
def netConn : Nat := 0x802001
/-- `NET_IDLE_S` (0x8020.02). -/
def netIdleS : Nat := 0x802002
/-- `CONN_PEER` (0x8021.01–.04). -/
def connPeer (i : Nat) : Nat := 0x802101 + i
/-- `CONN_ROLE` (0x8022.01–.04). -/
def connRole (i : Nat) : Nat := 0x802201 + i
/-- `CONN_DGRAMS` (0x8023.01–.04). -/
def connDgrams (i : Nat) : Nat := 0x802301 + i
/-- `PTP_EN` (0x8100.01). -/
def ptpEn : Nat := 0x810001
/-- `PTP_DOMAIN` (0x8100.02). -/
def ptpDomain : Nat := 0x810002
/-- `PTP_TRANSPORT` (0x8100.03). -/
def ptpTransport : Nat := 0x810003
/-- `PTP_DELAY` (0x8100.04). -/
def ptpDelay : Nat := 0x810004
/-- `PTP_TC` (0x8100.05). -/
def ptpTc : Nat := 0x810005
/-- `PTP_ANN_TO` (0x8100.06). -/
def ptpAnnTo : Nat := 0x810006
/-- `PTP_STATE` (0x8100.07). -/
def ptpState : Nat := 0x810007
/-- `PTP_PORT` (0x8100.08). -/
def ptpPort : Nat := 0x810008
/-- `PTP_MASTER` (0x8100.09). -/
def ptpMaster : Nat := 0x810009
/-- `PTP_OFFSET` (0x8100.0A). -/
def ptpOffset : Nat := 0x81000A
/-- `PTP_MPD` (0x8100.0B). -/
def ptpMpd : Nat := 0x81000B
/-- `TC_UNMATCHED` (0x8100.0C). -/
def tcUnmatched : Nat := 0x81000C
/-- `PHY_RX_LAT` (0x8101.01–.02). -/
def phyRxLat (i : Nat) : Nat := 0x810101 + i
/-- `PHY_TX_LAT` (0x8102.01–.02). -/
def phyTxLat (i : Nat) : Nat := 0x810201 + i
/-- `ASYM` (0x8103.01–.02). -/
def asym (i : Nat) : Nat := 0x810301 + i
/-- `PEER_DELAY` (0x8104.01–.02). -/
def peerDelay (i : Nat) : Nat := 0x810401 + i
/-- `LV_STATE` (0x8200.01). -/
def lvState (n : Nat) : Nat := 0x820001 + 0x100 * n
/-- `LV_KP` (0x8200.02). -/
def lvKp (n : Nat) : Nat := 0x820002 + 0x100 * n
/-- `LV_KI` (0x8200.03). -/
def lvKi (n : Nat) : Nat := 0x820003 + 0x100 * n
/-- `LV_MAX_PPB` (0x8200.04). -/
def lvMaxPpb (n : Nat) : Nat := 0x820004 + 0x100 * n
/-- `LV_JUMP` (0x8200.05). -/
def lvJump (n : Nat) : Nat := 0x820005 + 0x100 * n
/-- `LV_LOCK_NS` (0x8200.06). -/
def lvLockNs (n : Nat) : Nat := 0x820006 + 0x100 * n
/-- `LV_LOCK_N` (0x8200.07). -/
def lvLockN (n : Nat) : Nat := 0x820007 + 0x100 * n
/-- `LV_INIT_STEP` (0x8200.08). -/
def lvInitStep (n : Nat) : Nat := 0x820008 + 0x100 * n
/-- `LV_RATE` (0x8200.09). -/
def lvRate (n : Nat) : Nat := 0x820009 + 0x100 * n
/-- `LV_LAST_OFS` (0x8200.0A). -/
def lvLastOfs (n : Nat) : Nat := 0x82000A + 0x100 * n
/-- `TIME_JUMP` (0x8200.0B). -/
def timeJump (n : Nat) : Nat := 0x82000B + 0x100 * n
/-- `LV_JUMP_S` (0x8200.0C). -/
def lvJumpS (n : Nat) : Nat := 0x82000C + 0x100 * n
/-- `LV_JUMP_NS` (0x8200.0D). -/
def lvJumpNs (n : Nat) : Nat := 0x82000D + 0x100 * n
/-- `LV_REFUSED` (0x8200.0E). -/
def lvRefused (n : Nat) : Nat := 0x82000E + 0x100 * n
/-- `PPS_EN` (0x8300.01). -/
def ppsEn : Nat := 0x830001
/-- `PPS_WIDTH` (0x8300.02). -/
def ppsWidth : Nat := 0x830002
/-- `PPS_GATE` (0x8300.03). -/
def ppsGate : Nat := 0x830003
/-- `TU_TRIM` (0x8400.01–.07). -/
def tuTrim (i : Nat) : Nat := 0x840001 + i
/-- `TU_INC` (0x8401.01–.07). -/
def tuInc (i : Nat) : Nat := 0x840101 + i
/-- `TU_LOAD` (0x8402.01–.07). -/
def tuLoad (i : Nat) : Nat := 0x840201 + i
/-- `TU_OFS` (0x8403.01–.07). -/
def tuOfs (i : Nat) : Nat := 0x840301 + i
/-- `TU_STAT` (0x8404.01–.07). -/
def tuStat (i : Nat) : Nat := 0x840401 + i
/-- `EPOCH_INTERVAL` (0x8410.01–.04). -/
def epochInterval (i : Nat) : Nat := 0x841001 + i
/-- `EPOCH_PHASE` (0x8411.01–.04). -/
def epochPhase (i : Nat) : Nat := 0x841101 + i
/-- `EPOCH_DEV` (0x8412.01–.04). -/
def epochDev (i : Nat) : Nat := 0x841201 + i
/-- `ETS_SRC` (0x8420.01–.02). -/
def etsSrc (i : Nat) : Nat := 0x842001 + i
/-- `ETS_EDGE` (0x8421.01–.02). -/
def etsEdge (i : Nat) : Nat := 0x842101 + i
/-- `ETS_LOG` (0x8422.01–.02). -/
def etsLog (i : Nat) : Nat := 0x842201 + i
/-- `ETS_COUNT` (0x8423.01–.02). -/
def etsCount (i : Nat) : Nat := 0x842301 + i
/-- `PP_STAT` (0x9000.01). -/
def ppStat : Nat := 0x900001
/-- `PP_ABORT` (0x9000.02). -/
def ppAbort : Nat := 0x900002
/-- `PGP_CFG` (0x9000.03). -/
def pgpCfg : Nat := 0x900003
/-- `DEV_SEL` (0x9010.01–.0A). -/
def devSel (i : Nat) : Nat := 0x901001 + i
/-- `DEV_MODE` (0x9011.01–.0A). -/
def devMode (i : Nat) : Nat := 0x901101 + i
/-- `DEV_BITS` (0x9012.01–.0A). -/
def devBits (i : Nat) : Nat := 0x901201 + i
/-- `DEV_ORDER` (0x9013.01–.0A). -/
def devOrder (i : Nat) : Nat := 0x901301 + i
/-- `DEV_DIV` (0x9014.01–.0A). -/
def devDiv (i : Nat) : Nat := 0x901401 + i
/-- `DEV_LEAD` (0x9015.01–.0A). -/
def devLead (i : Nat) : Nat := 0x901501 + i
/-- `DEV_LAG` (0x9016.01–.0A). -/
def devLag (i : Nat) : Nat := 0x901601 + i
/-- `DEV_PRDY` (0x9017.01–.0A). -/
def devPrdy (i : Nat) : Nat := 0x901701 + i
/-- `DEV_PRDY_TO` (0x9018.01–.0A). -/
def devPrdyTo (i : Nat) : Nat := 0x901801 + i
/-- `MAN_DEV` (0x9020.01). -/
def manDev : Nat := 0x902001
/-- `MAN_CNT` (0x9020.02). -/
def manCnt : Nat := 0x902002
/-- `MAN_GO` (0x9020.03). -/
def manGo : Nat := 0x902003
/-- `MAN_STAT` (0x9020.04). -/
def manStat : Nat := 0x902004
/-- `MAN_TX` (0x9021.01–.08). -/
def manTx (i : Nat) : Nat := 0x902101 + i
/-- `MAN_RX` (0x9022.01–.08). -/
def manRx (i : Nat) : Nat := 0x902201 + i
/-- `LIST_TRIG` (0x9030.01–.02). -/
def listTrig (i : Nat) : Nat := 0x903001 + i
/-- `LIST_LOAF` (0x9031.01–.02). -/
def listLoaf (i : Nat) : Nat := 0x903101 + i
/-- `LIST_DIV` (0x9032.01–.02). -/
def listDiv (i : Nat) : Nat := 0x903201 + i
/-- `LIST_PERIOD` (0x9033.01–.02). -/
def listPeriod (i : Nat) : Nat := 0x903301 + i
/-- `LIST_DEF` (0x9034.01–.02). -/
def listDef (i : Nat) : Nat := 0x903401 + i
/-- `LIST_RES` (0x9035.01–.02). -/
def listRes (i : Nat) : Nat := 0x903501 + i
/-- `LIST_RUNS` (0x9036.01–.02). -/
def listRuns (i : Nat) : Nat := 0x903601 + i
/-- `LIST_OVERRUN` (0x9037.01–.02). -/
def listOverrun (i : Nat) : Nat := 0x903701 + i
/-- `PRDY_TO_CNT` (0x9040.01–.0A). -/
def prdyToCnt (i : Nat) : Nat := 0x904001 + i
/-- `PP_CNT_CLR` (0x9041.01). -/
def ppCntClr : Nat := 0x904101
/-- `PR_SIDE` (0xA000.01). -/
def prSide : Nat := 0xA00001
/-- `PR_MODE` (0xA000.02). -/
def prMode : Nat := 0xA00002
/-- `PR_GROUP` (0xA000.03). -/
def prGroup : Nat := 0xA00003
/-- `PR_STAT` (0xA000.04). -/
def prStat : Nat := 0xA00004
/-- `PR_ROLE` (0xA000.05). -/
def prRole : Nat := 0xA00005
/-- `PR_CFG_CRC` (0xA000.06). -/
def prCfgCrc : Nat := 0xA00006
/-- `PR_ACT_FILT` (0xA001.01). -/
def prActFilt : Nat := 0xA00101
/-- `PR_B_WAIT_MS` (0xA001.02). -/
def prBWaitMs : Nat := 0xA00102
/-- `ML_CRC_ERR` (0xA002.01). -/
def mlCrcErr : Nat := 0xA00201
/-- `ML_LOST` (0xA002.02). -/
def mlLost : Nat := 0xA00202
/-- `ML_RETRAIN` (0xA002.03). -/
def mlRetrain : Nat := 0xA00203
/-- `ML_LAT_MAX` (0xA002.04). -/
def mlLatMax : Nat := 0xA00204
/-- `FAILOVERS` (0xA002.05). -/
def failovers : Nat := 0xA00205
/-- `ML_CNT_CLR` (0xA002.06). -/
def mlCntClr : Nat := 0xA00206
/-- `PR_MUT_D` (0xA003.01–.08). -/
def prMutD (i : Nat) : Nat := 0xA00301 + i
/-- `PR_MUT_Q` (0xA004.01–.08). -/
def prMutQ (i : Nat) : Nat := 0xA00401 + i
/-- `PR_REMOTE_LOAF` (0xA005.01–.02). -/
def prRemoteLoaf (i : Nat) : Nat := 0xA00501 + i
/-- `PR_CAP_PARTNER` (0xA006.01). -/
def prCapPartner : Nat := 0xA00601
/-- `PR_SHARE` (0xA006.02). -/
def prShare : Nat := 0xA00602
/-- `PR_LAST_T` (0xA006.03). -/
def prLastT : Nat := 0xA00603
/-- `PR_CLK_OFS` (0xA006.04). -/
def prClkOfs : Nat := 0xA00604
/-- `SEC_STAT` (0xB000.01). -/
def secStat : Nat := 0xB00001
/-- `SESSION_ROLE` (0xB000.02). -/
def sessionRole : Nat := 0xB00002
/-- `SESSION_USER` (0xB000.03). -/
def sessionUser : Nat := 0xB00003
/-- `SEC_IDLE_S` (0xB000.04). -/
def secIdleS : Nat := 0xB00004
/-- `SEC_LOCK_N` (0xB000.05). -/
def secLockN : Nat := 0xB00005
/-- `LOCKOUT` (0xB000.06). -/
def lockout : Nat := 0xB00006
/-- `FW_SVN` (0xB001.01). -/
def fwSvn : Nat := 0xB00101
/-- `ROLLBACK_CTR` (0xB001.02). -/
def rollbackCtr : Nat := 0xB00102
/-- `SLOT_A_VER` (0xB001.03). -/
def slotAVer : Nat := 0xB00103
/-- `SLOT_B_VER` (0xB001.04). -/
def slotBVer : Nat := 0xB00104
/-- `SLOT_RUN` (0xB001.05). -/
def slotRun : Nat := 0xB00105
/-- `CFG_VERSION` (0xB002.01). -/
def cfgVersion : Nat := 0xB00201
/-- `OWNER_KEY_HASH` (0xB002.02). -/
def ownerKeyHash : Nat := 0xB00202
/-- `USER_TABLE` (0xB002.03). -/
def userTable : Nat := 0xB00203
/-- `DEV_CERT` (0xB003.01). -/
def devCert : Nat := 0xB00301
/-- `AUD_SEQ` (0xB004.01). -/
def audSeq : Nat := 0xB00401
/-- `AUD_SEL` (0xB004.02). -/
def audSel : Nat := 0xB00402
/-- `AUD_VIEW` (0xB004.03). -/
def audView : Nat := 0xB00403
/-- `AUD_OLDEST` (0xB004.04). -/
def audOldest : Nat := 0xB00404
/-- `ATTEST_NONCE` (0xB005.01). -/
def attestNonce : Nat := 0xB00501
/-- `ATTEST` (0xB005.02). -/
def attest : Nat := 0xB00502
/-- `STO_FUNC` (0x7001.01). -/
def stoFunc : Nat := 0x700101
/-- `GUARD_REACT` (0x7001.02). -/
def guardReact : Nat := 0x700102
/-- `SBC_EN` (0x7001.03). -/
def sbcEn : Nat := 0x700103
/-- `SBC_GROUP` (0x7001.04). -/
def sbcGroup : Nat := 0x700104
/-- `SS1_TIME` (0x7001.05). -/
def ss1Time : Nat := 0x700105
/-- `GUARD_DISC` (0x7001.06). -/
def guardDisc : Nat := 0x700106
/-- `SBC_DELAY` (0x7001.07). -/
def sbcDelay : Nat := 0x700107
/-- `SBC_STO_LAG` (0x7001.08). -/
def sbcStoLag : Nat := 0x700108
/-- `TP_EXPECT` (0x7001.09). -/
def tpExpect : Nat := 0x700109
/-- `TP_PERIOD` (0x7001.0A). -/
def tpPeriod : Nat := 0x70010A

end Obj

end Sys2Proof.Machine
end

