-- ==== Sys2Proof/Machine/State.lean ====
section
/-! DEFINITION. The state of the module as plain data. Every object of the dictionary that software reads as a
register has its one home in the store `objs` (addresses in Machine/Objects.lean); the sub-records below hold the
state of the machine that no object is the home of: modes, queues, timers, latches, buffers and pads. -/

namespace Sys2Proof.Machine

/-- F4 or F2, R50. -/
inductive Variant where
  | f4
  | f2
deriving DecidableEq, Repr, Inhabited

/-- Module states, R96. -/
inductive ModState where
  | boot
  | config
  | ready
  | operational
  | safe
  | standby
deriving DecidableEq, Repr, Inhabited

/-- How far the boot sequence of R90 has come. -/
inductive BootStage where
  /-- Everything but the standby domain unpowered (R106, R107), or no supply yet. -/
  | off
  /-- Between t0 and tR: reset not ended. -/
  | inReset
  /-- tR passed; switches not read yet. -/
  | released
  /-- Switches read at tR + 0.1 ms; the boot ROM runs. -/
  | switchesRead
  /-- Secure boot has chosen an image. -/
  | secured
  /-- Neither image passed (R94). -/
  | noImage
  /-- Askard runs. -/
  | askard
deriving DecidableEq, Repr, Inhabited

/-- Loaf states, R289, numbered as R155. -/
inductive LoafState where
  | off
  | open_
  | closed
  | isolated
  | fault
deriving DecidableEq, Repr, Inhabited

/-- Group states, numbered as R155. -/
inductive GroupState where
  | stopped
  | starting
  | running
  | degraded
  | stopping
  | safe
deriving DecidableEq, Repr, Inhabited

/-- Fault classes, R354. -/
inductive FaultClass where
  | c0 | c1 | c2 | c3 | c4
deriving DecidableEq, Repr, Inhabited

/-- The window and object store: key and value, keys strictly rising, no entry equal to the key's default. -/
abbrev Store := List (Nat × Int)

/-- Boot, reset and power-state control (R87 to R112). -/
structure BootSt where
  stage       : BootStage := .inReset
  /-- The PLLs of CK_CTL and CK_ADC are locked (R90). -/
  pllLocked   : Bool := false
  peelTrained : Bool := false
  /-- Region C has received a `HEARTBEAT` since reset, R367. -/
  hbSeen      : Bool := false
  /-- Local timebase at t0 of R90. -/
  t0          : Nat := 0
  /-- The hold-up sequence of R65 runs. -/
  holdup      : Bool := false
  /-- A watchdog expiry, a CK_MGT deviation detected and waiting for the reset of R101. -/
  wdtHit      : Bool := false
  mgtHit      : Bool := false
  /-- Instants of such a detection, of `ASKARD_START` and of the entry into READY from without (R95, R101, R472). -/
  hitT        : Nat := 0
  askardT     : Nat := 0
  readyT      : Nat := 0
  /-- A cause of R99 is present: only a reset ends SAFE. -/
  resetOnly   : Bool := false
  /-- VIO_G class invalid: only a power-on ends it (R99). -/
  vioGBad     : Bool := false
  /-- A transition of R528 waiting: 3 standby, 4 software reset, 5 the reset of a firmware commit; the source whose
  response it follows. -/
  transition  : Option (Nat × Source) := none
  /-- The instant that source's response was placed in its OUT buffer or handed to its connection (R528). -/
  transT      : Option Nat := none
  /-- The stored image's writes have been applied, or none is stored. -/
  imageDone   : Bool := false
  /-- The stored image's writes have been begun (`CONFIG_ENTRY` passed). -/
  loading     : Bool := false
  /-- Entry into READY is automatic once `READY_BLOCK` clears (R97): armed by the stored image's load, disarmed by `MODULE_REQ` = 2. -/
  auto        : Bool := false
  /-- The binding check of R399 is complete, and its result: 0 governs, 1 not accepted, 2 mismatch. -/
  bindDone    : Bool := false
  bindRes     : Nat := 0
  /-- The read-back of R401 is complete, and whether its CRC agreed. -/
  readDone    : Bool := false
  readOk      : Bool := false
  /-- Time at which the present module state was entered, in CK_CTL cycles (`STATE_TIME`). -/
  stateT      : Nat := 0
  /-- A standby entry was commanded and completed (a wake then sets bit 6 of `RESET_CAUSE`). -/
  slept       : Bool := false
  /-- A slot other than the preferred one was booted (R493). -/
  second      : Bool := false
  /-- The class of VIO_G is to be judged once reset is released (R61, R63). -/
  classDue    : Bool := false
  /-- The module state that stood as SAFE was entered, and whether the report that led there has reached region M (R112). -/
  preSafe     : ModState := .boot
  safeSeen    : Bool := true
deriving DecidableEq, Repr, Inhabited

/-- Supplies, monitors, switches, cover, temperatures (chapter 2), and the clocks' monitors (R100). -/
structure PowerSt where
  vin       : Int := 0
  vioG      : Int := 0
  vioH      : Int := 0
  vbat      : Int := 0
  agnd      : Int := 0
  /-- Deviations of the core rails of regions C and M in thousandths. -/
  coreC     : Int := 0
  coreM     : Int := 0
  /-- Monitors reporting their fault now (R64); VIN under is `vinUnderNow`. -/
  asserted  : List Monitor := []
  vinUnderNow : Bool := false
  /-- A junction has been sampled since power-on (`TEMP_PEAK`). -/
  peakOk    : Bool := false
  /-- VIO_G class: 0 = 3.3 V, 1 = 5 V, 2 = invalid (R61). -/
  vioGClass : Nat := 0
  hotC      : Nat := 0
  hotM      : Nat := 0
  /-- Switch positions bound at reset (pole 2 where the poles disagreed, R72). -/
  swReset   : BitVec 12 := 0
  swNow     : BitVec 12 := 0
  swDiscrep : BitVec 12 := 0
  /-- Switches whose poles have agreed since reset (R72, R73). -/
  swAgreed  : BitVec 12 := 0
  /-- Consecutive polls at which each switch's poles disagreed (12 entries), for the 100 ms of R73. -/
  swDisRun  : List Nat := []
  coverOpen : Bool := false
  /-- `RESET_N` and `PWRGOOD` driven low by the module, R57. -/
  resetLow  : Bool := false
  pwrgoodLow : Bool := false
  ckAdcBad  : Bool := false
  /-- The monitor has seen CK_ADC within 2 % for 1 ms again (R102). -/
  ckAdcBack : Bool := false
  standbyClkBad : Bool := false
  /-- The standby clock has been good for 10 s and the reload is awaited (R103). -/
  standbyClkWait : Bool := false
  /-- The standby domain lost its contents (R111). -/
  standbyLost : Bool := false
  /-- The copy of `COVER_COUNT` Askard keeps in flash, R111. -/
  coverFlash : Nat := 0
  /-- The copy of `COVER_LAST`. -/
  coverLastFlash : Nat := 0
  /-- The wake alarm matched while VIN was absent, and no boot has followed yet (R109). -/
  missDue   : Bool := false
  /-- Reference ready per converter, R104, R105. -/
  refReady  : Six Bool := Six.all false
  /-- When the references were enabled: the lock of CK_ADC (R104). -/
  refT      : Nat := 0
  /-- The reference did not settle within 5 ms of its enable: its `REF_READY` stays clear (R104). -/
  refFailed : Six Bool := Six.all false
  /-- When the reference last left ±0.1 % of nominal since that enable (R105). -/
  refLostT  : Six (Option Nat) := Six.all none
  /-- Bits 0 to 4 of `CLK_STATUS` reported bad: CK_SAFE and CK_MGT out of tolerance. -/
  ckSafeBad : Bool := false
  /-- CK_SAFE has stopped since reset (R29): only a reset ends that SAFE (R99). -/
  ckSafeStop : Bool := false
  ckMgtBad  : Bool := false
  ckCtlBad  : Bool := false
deriving DecidableEq, Repr, Inhabited

/-- One boundary-scan TAP, R81. -/
structure TapSt where
  ins  : TapIns := .idcode
  /-- The selected data register, the bit nearest TDO first, and the bits the last scan brought out. -/
  dr   : List Bool := []
  tdo  : List Bool := []
  /-- The latched cells of the boundary register, which `EXTEST` and `CLAMP` drive onto the pads. -/
  upd  : List Bool := []
deriving DecidableEq, Repr, Inhabited

/-- Leaven channel states, R422. -/
inductive LvState where
  | free
  | tracking
  | locked
  | holdover
  | jump
deriving DecidableEq, Repr, Inhabited

/-- One Leaven channel: integrator and rate in ppb, run counts, whether offsets already in flight are to be discarded (R426). -/
structure Leaven where
  st      : LvState := .free
  integ   : Rat := 0
  rate    : Rat := 0
  inRun   : Nat := 0
  outRun  : Nat := 0
  jumpOfs : Int := 0
  jump    : Bool := false
deriving DecidableEq, Repr, Inhabited

/-- Times: the local timebase of region C, the station and pair clocks in ns, the seven time units in 2^-32 ns (R430). -/
structure TimeSt where
  now     : Nat := 0
  station : Rat := 0
  /-- The time counter of the standby domain in seconds (R110). -/
  counter : Rat := 0
  pairClk : Rat := 0
  units   : List Nat := [0, 0, 0, 0, 0, 0, 0]
  unitLoaded  : List Bool := [false, false, false, false, false, false, false]
  unitPending : List Bool := [false, false, false, false, false, false, false]
  /-- Start ticks of each loaf's epoch: local timebase of the latest (R433). -/
  startTick : Quad Nat := Quad.all 0
  /-- Period starts in a row with |d| ≤ 1 (R434). -/
  alignRun  : Quad Nat := Quad.all 0
  lv0     : Leaven := {}
  lv1     : Leaven := {}
  /-- Local timebase of the last step by `TIME_STEP`: offsets stamped before it are discarded (R426). -/
  stepT   : Option Nat := none
  /-- Local timebase of the last reload of the time counter (R111). -/
  reloadT : Option Nat := none
  /-- A latch requested by `TS_CTRL` and not complete (R130): the station time latched. -/
  tsPending : Option Rat := none
  /-- Leaven was locked as that time was latched (`TS_SUBNS` bit 16). -/
  tsLock  : Bool := false
  /-- `PPS_OUT`, R429. -/
  ppsOut  : Bool := false
  /-- Where the pulse in progress ends. -/
  ppsEnd  : Nat := 0
  /-- Stamps of the event timestamp units, newest first (R435): seq, edge, seconds, ns. -/
  ets0    : List (Nat × Nat × Nat × Nat) := []
  ets1    : List (Nat × Nat × Nat × Nat) := []
deriving DecidableEq, Repr, Inhabited

/-- The host port's registers outside the mailboxes, R120 to R131. -/
structure HostSt where
  lastResult : Nat := 0
  frameCnt   : Nat := 0
  irqFlags   : Word := 0
  irqEn      : Word := 0
  hbModule   : Word := 0
  hbHost     : Word := 0
  tsSubns    : Word := 0
  tsNs       : Word := 0
  tsSecLo    : Word := 0
  tsSecHi    : Word := 0
  tsSeq      : Nat := 0
  /-- The snapshot groups of R128: 0x010 to 0x014 and 0x054 to 0x060. -/
  serialSnap : List Word := []
  tsSnap     : List Word := []
  mbErr      : Word := 0
  errCrc     : Nat := 0
  errCut     : Nat := 0
  errFmt     : Nat := 0
  errGap     : Nat := 0
  winIgnored : Nat := 0
  streamDrop : Nat := 0
  /-- The bytes `HMISO` carried in the last frame, R118. -/
  miso       : List Byte := []
deriving DecidableEq, Repr, Inhabited

/-- A firmware command taken and executing: R140's fields and the role it was taken under (R491). -/
structure Job where
  code    : Nat
  tag     : Nat
  payload : List Word
  role    : Nat
  /-- The command has started and waits for the drive (R143), since when. -/
  waiting : Bool
  since   : Nat := 0
deriving DecidableEq, Repr, Inhabited

/-- One mailbox, R133 to R138. -/
structure Mailbox where
  inBuf  : List Word := []
  outBuf : List Word := []
  inBusy : Bool := false
  outFull : Bool := false
  job    : Option Job := none
  /-- A response waiting for the OUT buffer (MB2 shares it with deliveries, R139). -/
  respWait : Option (List Word) := none
deriving DecidableEq, Repr, Inhabited

/-- A network connection, R414 to R417. -/
structure Conn where
  open_   : Bool := false
  tls     : Bool := false
  /-- The peer's IPv4 address and TCP port. -/
  peer    : Nat := 0
  port    : Nat := 0
  role    : Nat := 0
  user    : Nat := 0
  keys    : List Byte := []
  /-- When the connection was opened, and when it last had a complete command or was opened (R414, R416). -/
  since   : Nat := 0
  cmdT    : Nat := 0
  job     : Option Job := none
  /-- Words of the last response sent on the connection. -/
  sent    : List Word := []
  /-- Commands received and not taken yet, oldest first (R165, R415). -/
  queue   : List (List Word) := []
deriving DecidableEq, Repr, Inhabited

/-- A stream datagram, R417: its connection, its addresses and ports, its payload. -/
structure Datagram where
  conn    : Nat
  srcIp   : Nat
  srcPort : Nat
  dstIp   : Nat
  dstPort : Nat
  bytes   : List Byte
deriving DecidableEq, Repr, Inhabited

/-- A transfer of R160: 0 firmware, 1 configuration, 2 + n safety set n. -/
structure Transfer where
  src  : Source
  kind : Nat
  size : Nat
  data : List Byte
deriving DecidableEq, Repr, Inhabited

/-- A calibration running, R158, R231. -/
structure CalJob where
  src   : Source
  conv  : Nat
  input : Nat
  full  : Bool
  expected : Int
  offset : Int
  count : Nat
  sum   : Int
  since : Nat := 0
deriving DecidableEq, Repr, Inhabited

/-- One streaming subscription, R172 to R176. -/
structure Sub where
  active  : Bool := false
  udp     : Bool := false
  source  : Nat := 0
  owner   : Nat := 0
  mask    : Nat := 0
  decim   : Nat := 0
  period  : Nat := 0
  addrs   : List Word := []
  /-- Source 1: the instant of the next sample (R172). -/
  nextT   : Nat := 0
  rate    : Rat := 0
  seqNo   : Nat := 0
  /-- Records counted since the start, per loaf, for the decimation. -/
  recCount : List Nat := []
  /-- Words of the items collected for the open delivery, and how many items. -/
  items   : List Word := []
  nItems  : Nat := 0
  /-- Station time in ns of the first item, and the instant it joined (R174, R175). -/
  first   : Nat := 0
  firstT  : Nat := 0
deriving DecidableEq, Repr, Inhabited

/-- Firmware-side bookkeeping of chapter 5. -/
structure CmdSt where
  /-- Round-robin pointer over MB1 to MB3 and the connections 0 to 3 (R138, R165): the index served last. -/
  rr       : Nat := 0
  /-- The queue of MB2 deliveries, R139. -/
  mb2Queue : List (List Word) := []
  /-- Deliveries queued before the command of MB2 now executing was taken (R139). -/
  mb2Ahead : Nat := 0
  /-- BLOB snapshots per source (R152). -/
  snaps    : List (Source × Nat × List Byte) := []
  /-- BLOB staging copies per source: address, bytes, length written (R153). -/
  staging  : List (Source × Nat × List Byte × Nat) := []
  xfer     : Option Transfer := none
  /-- The safety sets being staged, one transfer for each number (R160, R397). -/
  setXfers : List Transfer := []
  cals     : List CalJob := []
  /-- Inputs whose `CAL_ZERO` has succeeded since reset: converter, input (R158). -/
  zeroed   : List (Nat × Nat) := []
  subs     : List Sub := [{}, {}, {}, {}, {}, {}, {}, {}]
  /-- UDP datagrams sent, newest first (R417). -/
  udpSent  : List Datagram := []
  /-- Instants of the deliveries of the last second on MB2 and on UDP (R175). -/
  rateMb2  : List Nat := []
  rateUdp  : List Nat := []
  /-- `CAPTURE_READ`s whose data has not crossed Peel yet, in order: source, bytes, whether it still waits; and the bytes in
  for the first (R159). -/
  capReads : List (Source × Nat × Bool) := []
  capRx    : List Byte := []
  /-- Packets of region M, by class and type and by payload, that still cross Peel and whose effect the command that sent them
  has taken with it (R12, R17; log entry 28). -/
  carried  : List (Byte × List Byte) := []
deriving DecidableEq, Repr, Inhabited

/-- The deficit ledger of an arbiter by block (section "Arbitration and contention") and its tie pointer (R42). -/
structure Arb where
  deficit : List Int := []
  ptr     : Nat := 0
deriving DecidableEq, Repr, Inhabited

/-- One Peel endpoint, R30 to R42. -/
structure PeelEnd where
  nextSeq   : Nat := 0
  expect    : Nat := 0
  /-- Sent and not acknowledged, oldest first (R36). -/
  unacked   : List Packet := []
  /-- Of these, the ones a retransmission still has to send, oldest first. -/
  resend    : List Packet := []
  /-- Packets waiting for the transmitter: arbiter source (loaf, mailbox or session number), packet, and the instant it
  entered the queue. -/
  waiting   : List (Nat × Packet × Nat) := []
  /-- CTL packets sent and not delivered: sequence number (256 for `SYNC`) and the instant they entered the queue (R34). -/
  ctlT      : List (Nat × Nat) := []
  /-- Consecutive retransmissions of the first unacknowledged packet (R37). -/
  retxRun   : Nat := 0
  /-- The last packet put on the link. -/
  sent      : Option Packet := none
  /-- A `NAK`, an acknowledgement to return (R35). -/
  nakDue    : Bool := false
  ackDue    : Bool := false
  /-- The region arbiter, by source. -/
  arb       : Arb := {}
  /-- The instant the endpoint's Peel timer last started again; none before it is armed (R38, R90). -/
  timer     : Option Nat := none
  /-- A Peel timeout of the endpoint has been reported since its timer last started (R39). -/
  timedOut  : Bool := false
  /-- The instant from which the acknowledgement of the first unacknowledged packet is awaited (R36). -/
  waitT     : Nat := 0
  /-- The bytes put on the link by traffic row of R33 in the millisecond that began at `bwT`. -/
  bwT       : Nat := 0
  bw        : List Nat := []
  /-- The last `SYNC` put on the link: its payload and the instant of its start characters (R21). -/
  syncT     : Option (List Byte × Nat) := none
deriving DecidableEq, Repr, Inhabited

/-- A pending fault, R354 to R362. -/
structure Pend where
  code  : Half
  inst  : Half
  cls   : FaultClass
  react : Nat
  /-- Its reaction has run (R527). -/
  ran   : Bool
  /-- Its grace window is open; expiry in CK_CTL cycles (R358). -/
  window : Option Nat
  inj   : Bool
  occ   : Nat
  data  : Int
  /-- Its flags in log byte 17 (R364). -/
  flags : Nat
deriving DecidableEq, Repr, Inhabited

/-- An active injection, R369. -/
structure Inj where
  code : Half
  inst : Half
  live : Bool
  since : Nat := 0
deriving DecidableEq, Repr, Inhabited

/-- A collector event on its way to the logs, R364, R366. -/
structure Event where
  code  : Half
  inst  : Half
  cls   : FaultClass
  react : Nat
  flags : Nat
  event : Nat
  occ   : Nat
  data  : Int
  stamp : Nat
  /-- A dry injection, which is not signalled (R369). -/
  quiet : Bool
deriving DecidableEq, Repr, Inhabited

/-- A log entry, R364. -/
structure LogEntry where
  timeNs : Nat
  seq    : Nat
  ev     : Event
deriving DecidableEq, Repr, Inhabited

/-- A report of region M waiting for its `FAULT` packet to reach the collector (R365, R366): code, instance, data. -/
abbrev MReport := Half × Half × Int

/-- The fault collector, the logs and the heartbeats (chapter 11). -/
structure FaultSt where
  pend   : List Pend := []
  inj    : List Inj := []
  mRep   : List MReport := []
  evtQ   : List Event := []
  vlog   : List LogEntry := []
  nvlog  : List LogEntry := []
  nvQ    : List LogEntry := []
  /-- Sequence number of the last entry, since manufacture (R363). -/
  seq    : Nat := 0
  /-- Entries written since reset, `FAULT_SUM` 31:16. -/
  sinceReset : Nat := 0
  /-- C0 codes logged within the last 1 ms: code, instance, instant, suppressed reports (R360). -/
  c0     : List (Half × Half × Nat × Nat) := []
  /-- Instants of the last report of the unit-limited codes (R360). -/
  lim    : List (Half × Half × Nat) := []
  /-- Acknowledgements sent to the collector and not yet delivered (R359). -/
  acks   : List (Half × Half) := []
  /-- Askard's copy of the open grace windows, as the `FAULT` packets received tell it (R359). -/
  windows : List (Half × Half) := []
  beat   : Bool := false
  beating : Bool := false
  /-- Instant of the last edge of `BEAT`, or of the return of its conditions (R367). -/
  beatT  : Nat := 0
  /-- Host heartbeat supervision runs, and the instant of the last beat since reset (R368). -/
  hbArmed : Bool := false
  lastBeat : Option Nat := none
  /-- 0xF401 has been raised since the last beat. -/
  hbSaid   : Bool := false
  /-- Instant of the last `HEARTBEAT` region C accepted (`MGT_HB_MAX`). -/
  mgtBeat  : Option Nat := none
deriving DecidableEq, Repr, Inhabited

/-- A commit waiting for a reload, R188: compare words of logical phases U, V, W and the cycle it landed in. -/
structure Commit where
  cmp    : Int × Int × Int
  landed : Nat
deriving DecidableEq, Repr, Inhabited

/-- Patterns of R194. -/
inductive Pattern where
  | off
  | asc
  | gap
  | pwm
deriving DecidableEq, Repr, Inhabited

/-- One loaf's PWM unit (chapter 6). -/
structure LoafSt where
  st        : LoafState := .off
  running   : Bool := false
  /-- Period starts since the last frame boundary. -/
  periods   : Nat := 0
  lastStart : Nat := 0
  /-- Shadow compare words, logical phases U, V, W. -/
  shadow    : Int × Int × Int := (0, 0, 0)
  commits   : List Commit := []
  /-- Active PERIOD, DEAD_TIME and FRAME_LEN. -/
  actPeriod : Nat := 0
  actDead   : Nat := 0
  actLen    : Nat := 0
  lateSaid  : Bool := false
  gap       : Bool := false
  gapCounted : Bool := false
  /-- AUTO choice: ASC, and whether one was made since the loaf left OFF (R196). -/
  autoAsc   : Bool := false
  /-- The Crust pattern latched (R206): ASC or OFF. -/
  crustAsc  : Bool := false
  /-- OFF held after a gate enable fell until the loaf state next changes (R197). -/
  holdOff   : Bool := false
  /-- Closed by `LOAF_STATE` on `IDQ_TEST` (R290). -/
  test      : Bool := false
  /-- Occurrences counted by the event channels, and channels fired in the present frame. -/
  evtCount  : List Nat := []
  evtFired  : Nat := 0
  /-- Channels with `EVT_TGT` bit 1 fired in the frame (byte 54 of R313). -/
  evtOven   : Nat := 0
  /-- The boundary that ended the last frame took no commit while CLOSED (record flag 14). -/
  wasLate   : Bool := false
  /-- The frame that ended: its `FRAME_COUNT`, and its channels with `EVT_TGT` bit 1 fired. -/
  countEnd  : Nat := 0
  evtEnd    : Nat := 0
  /-- Its handoff awaits the datapath; the loaf has been computed since the last group boundary (R280, R468). -/
  due       : Bool := false
  done      : Bool := false
  /-- Injected sequences completed by each converter up to the last boundary, and the `PAIR_BUF` of the pairs whose bursts, started
  by the loaf, have completed since, by even converter (R236). -/
  injBase   : List Nat := []
  burstDone : List (Nat × List Byte) := []
  /-- What the frame that ended hands over: per converter the injected sequences completed and the last one's results and
  instants, and the `PAIR_BUF` of the bursts the loaf started (R236). -/
  injOut    : List (Nat × Nat × List (Int × Nat)) := []
  burstOut  : List (Nat × List Byte) := []
  /-- High-side commands of logical phases U, V, W (bits 0 to 2) as they stood at the end of the last half period. -/
  high      : Nat := 0
  /-- Open frame's close is awaited (R234). -/
  closing   : Bool := false
  /-- The boundary's group part waits for a feedback sample held before it (R270, R282). -/
  grpDue    : Bool := false
  /-- The start of the counter, of the frame that ended last, and of the present one. -/
  startT    : Nat := 0
  frameT    : Nat := 0
  boundaryT : Nat := 0
  /-- Trip latches cleared whose pattern still stands until the next period start (R205). -/
  hold      : Nat := 0
  /-- The first start tick of the loaf's epoch since it left OFF (R181). -/
  firstTick : Option Nat := none
  /-- The loaf whose epoch a running loaf takes over from its group: from a boundary as a bound loaf on, and until its next counter
  start once unbound (R323). -/
  epoch     : Option (Fin 4) := none
  /-- The tick from which the counter counts in the present period (R434), the next period start, and the peak to come. -/
  baseT     : Nat := 0
  nextStart : Nat := 0
  peakDue   : Option Nat := none
  /-- Tick up to which command edges and the wants of the legs are accounted. -/
  sigT      : Nat := 0
  /-- Per physical leg: the instant, in eighths of a tick, up to which the high and the low gate were last wanted (R184). -/
  legs      : List (Option Nat × Option Nat) := []
  /-- The pattern applied since tick `patT`, and whether Crust drives it (R194, R206). -/
  pat       : Pattern := .off
  patCrust  : Bool := false
  patT      : Nat := 0
  /-- Toggles of the loaf's three converter trigger lines (R209). -/
  lines     : List Nat := []
  /-- The leg field each trip source reported last (R204, R341). -/
  tripLegs  : List (Nat × Nat) := []
  /-- The level read back of `GENn` where it was found to differ from its command (R70, R212). -/
  genBack   : Option Bool := none
  /-- Gate pads found to differ from their commands, with the level read back (R70, R361). -/
  padBack   : List (Nat × Bool) := []
deriving DecidableEq, Repr, Inhabited

/-- Frame accumulator of one input, R232: sum, count, not-ready seen. -/
structure Acc where
  conv  : Nat
  input : Nat
  sum   : Int
  count : Nat
  bad   : Bool
  /-- A sample was saturated (R228). -/
  sat   : Bool := false
deriving DecidableEq, Repr, Inhabited

/-- One main converter (chapter 7). -/
structure ConvSt where
  mmConv  : Bool := false
  /-- Even converter of a pair: the plausibility fault said in this run (R237). -/
  plausSaid : Bool := false
  /-- Even converter of a pair: bursts the Oven has placed and not begun (instant; loaf, logical phase, sign), and the one the
  running burst belongs to (R344). -/
  reconQ  : List (Nat × Nat × Nat × Int) := []
  burstFor : Option (Nat × Nat × Int) := none
  /-- CV5: bit i while the mean of `AUX`i is stale (R241), and while a sample of the latest mean was saturated (R299). -/
  auxStale : Nat := 0
  auxSat  : Nat := 0
  /-- CV5: the end of the last window of 1 ms (R241). -/
  auxEndT : Nat := 0
  failed  : Bool := false
  /-- The regular sequence in force and the entry due next (R220); empty before the first sample. -/
  seqAct  : List Nat := []
  seqPos  : Nat := 0
  injRun  : Option (List Nat) := none
  injHeld : Bool := false
  injDone : Nat := 0
  /-- Results and instants of the sequence in progress, and of the last one completed (R236). -/
  injRes  : List (Int × Nat) := []
  injLast : List (Int × Nat) := []
  /-- The cycle of the latest injected start, and of the pair's latest burst start (R223). -/
  injT    : Option Nat := none
  pairT   : Option Nat := none
  /-- Toggles of the twelve trigger lines taken for injected sequences, and, at an even converter, for bursts (R209, R221). -/
  lineSeen : List Nat := []
  pairSeen : List Nat := []
  /-- Samples held whose results have not arrived: input and recorded instant (R226, R235). -/
  held    : List (Nat × Nat) := []
  /-- Those whose frame has closed without them (R235). -/
  gone    : List (Nat × Nat) := []
  /-- Inputs whose result lies beyond `OW_LEVEL`, with the instant it has done so from (R239). -/
  owSince : List (Nat × Nat) := []
  burst   : Option Nat := none
  burstLine : Nat := 0
  burstBuf : List Int := []
  burstT  : Nat := 0
  ovrT    : Nat := 0
  /-- The last five results of each input held before, newest first, for the slope detector (R339). -/
  chains  : List (Nat × List Int) := []
  /-- Inputs whose last offered sample stood beyond the overcurrent threshold (R338). -/
  overInputs : List Nat := []
  slopeOn : List Nat := []
  /-- Recorded instant of each input's latest result, and whether it carried the not-ready flag. -/
  lastT   : List (Nat × Nat × Bool) := []
deriving DecidableEq, Repr, Inhabited

/-- What a frame close hands to the Oven, R234 to R236. -/
structure Handoff where
  incomplete : Bool := false
  /-- Means by role (1 to 8): role, value in mA or mV, valid. -/
  means      : List (Nat × Rat × Bool) := []
  /-- Counts by role. -/
  counts     : List (Nat × Nat) := []
  /-- Per converter serving the loaf: injected sequences completed in the frame, and the last one's results and instants. -/
  inj        : List (Nat × Nat × List (Int × Nat)) := []
  /-- `PAIR_BUF` of the bursts started by the loaf, by even converter. -/
  pairBuf    : List (Nat × List Byte) := []
  /-- Converters counted in `INCOMPLETE` for the frame. -/
  marked     : List Nat := []
deriving DecidableEq, Repr, Inhabited

/-- A pair of sine and cosine results of one instant, whether both are ready, and the comparator count at that instant with the
index corrections it holds (R240, R263, R276). -/
structure ScPair where
  inst  : Nat
  sin   : Int
  cos   : Int
  good  : Bool
  count : Int
  corr  : Int
deriving DecidableEq, Repr, Inhabited

/-- What a channel hands to the Oven for a loaf at its boundary (R270): the position with its turns in 2^-25 rev, the speed in
rev/s, and the flags. -/
structure FbLatch where
  pos   : Int := 0
  spd   : Rat := 0
  posOk : Bool := false
  spdOk : Bool := false
  /-- `FB_STAT`. -/
  stat  : Nat := 0
deriving DecidableEq, Repr, Inhabited

/-- One feedback channel (chapter 8). -/
structure FbSt where
  count    : Int := 0
  /-- Count excluding index corrections (R276). -/
  qcount   : Int := 0
  /-- Filtered pad levels (pulled up, R57). -/
  a        : Bool := true
  b        : Bool := true
  z        : Bool := true
  /-- FB0: the comparators' tracks A and B (R263). -/
  compA    : Bool := false
  compB    : Bool := false
  dirNeg   : Bool := false
  haveDir  : Bool := false
  /-- Recorded instants of the edges of the present run, newest first, and of the last edge since the start (R271, R274). -/
  edges    : List Nat := []
  lastEdge : Option Nat := none
  /-- The edge estimate, and the speed reported (R271, R276), in rev/s. -/
  ve       : Rat := 0
  vShown   : Rat := 0
  /-- Hall mode: the position at the last move or the start, in 2^-25 rev, its instant, and since when the state is invalid
  (R258). -/
  hallPos  : Int := 0
  posT     : Nat := 0
  hallT    : Option Nat := none
  /-- The channel's start (R252), and whether the condition of `IDX_GATE` has held since the last change (R259). -/
  startT   : Nat := 0
  gateWas  : Bool := false
  posValid : Bool := false
  /-- `FB_INVALID` of `FB_STAT`, R278. -/
  invalid  : Bool := false
  posRef   : Bool := false
  spdValid : Bool := false
  standstill : Bool := false
  armed    : Bool := false
  slip     : Bool := false
  stale    : Bool := false
  /-- Count moved since the last index event, and the missing-index fault said (R262). -/
  sinceIdx : Int := 0
  missSaid : Bool := false
  marks    : List (Nat × Int) := []
  /-- Serial modes: extended turns, previous raw value, accumulated position in 2^-25 rev, samples, failure run. -/
  serPrev  : Option (Nat × Nat) := none
  serTurns : Int := 0
  serPos   : Int := 0
  /-- Instant of the sample `serPos` stands for (modes 3 to 5). -/
  sampT    : Nat := 0
  serSamples : List (Nat × Int) := []
  serRun   : Nat := 0
  serOkRun : Nat := 0
  /-- Latch instant of the transfer running, whether it has been counted as failed already (R269), and the end of the last. -/
  serBusy  : Option Nat := none
  /-- The boundary the transfer serves (R265). -/
  serFor   : Nat := 0
  /-- Boundaries whose transfers have fallen due and wait, oldest first (R265). -/
  serQ     : List Nat := []
  serLate  : Bool := false
  /-- 0x4806 has been raised in the present run of failures (R269). -/
  serSaid  : Bool := false
  serEndT  : Option Nat := none
  /-- Boundaries whose own samples have come usable (R270). -/
  serGot   : List Nat := []
  /-- The latest sine and cosine result with instant and readiness, and the latest pairs of one instant, newest first (R240). -/
  sinLast  : Int × Nat × Bool := (0, 0, false)
  cosLast  : Int × Nat × Bool := (0, 0, false)
  scHist   : List ScPair := []
  /-- The amplitude of the last merge stood outside its limits (R264, R361). -/
  ampBad   : Bool := false
  /-- A boundary of `FB_LOAF` whose sample has not arrived yet (R240, R263, R269). -/
  mergeDue : Option Nat := none
  /-- Comparator count and index corrections after each of the latest changes, newest first: instant, count, corrections. -/
  hist     : List (Nat × Int × Int) := []
  /-- The interpolated count, and the same without index corrections (R276). -/
  interp   : Int := 0
  qInterp  : Int := 0
  /-- What the Oven has been handed, by loaf (R270). -/
  latch    : Quad FbLatch := Quad.all {}
deriving DecidableEq, Repr, Inhabited

/-- The Oven's context of a loaf (chapter 9). -/
structure OvenSt where
  xd : Rat := 0
  xq : Rat := 0
  id : Rat := 0
  iq : Rat := 0
  vd : Rat := 0
  vq : Rat := 0
  lastI : Rat × Rat × Rat := (0, 0, 0)
  udc : Option Rat := none
  theta : Nat := 0
  /-- An angle has been formed from a valid position since the loaf last left OFF, and the last such angle (R284). -/
  thetaOk : Bool := false
  thetaHold : Nat := 0
  incRun : Nat := 0
  /-- 0x4C06 has been raised in the present run of incomplete frames (R286). -/
  incSaid : Bool := false
  udcRun : Nat := 0
  vlimRun : Nat := 0
  duty : Rat × Rat × Rat := (0, 0, 0)
  runs : List Nat := []
  said : List Bool := []
  peRes : Rat := 0
  pnRes : Rat := 0
  opFrames : Nat := 0
  opBad : Bool := false
  opMaxI : List Rat := []
  opMaxV : List Rat := []
  opDone : Bool := false
  /-- Roles 1 to 3 whose loss has raised 0x5405 (R342), and 0 where the loaf has raised 0x5406 (R343). -/
  lostSaid : List Nat := []
  reconAge : List Nat := []
  reconI : List Rat := []
  /-- The phase that follows from the two the bursts give, in the present frame and in the one that ended (R344). -/
  reconThird : Nat := 2
  reconPrev  : Nat := 2
  idRef : Rat := 0
  iqRef : Rat := 0
  idRefPrev : Rat := 0
  iqRefPrev : Rat := 0
  /-- CLOSED in the present and the previous group frame, and the currents measured in the previous one (R327). -/
  refOk : Bool := false
  refOkPrev : Bool := false
  idSnap : Rat := 0
  iqSnap : Rat := 0
  /-- The duties of the logical phases that the frame that ended ran with; voltage mean and duty of the phases in the last 64
  CLOSED frames (R316). -/
  runDuty : Rat × Rat × Rat := (0, 0, 0)
  uHist : List (List (Rat × Rat)) := []
  queue : List (List Byte) := []
deriving DecidableEq, Repr, Inhabited

/-- What had been latched of a group by a boundary whose group part waits for a feedback sample: start and stop, the next target,
and the states of the four loaves (R282). -/
structure GroupCut where
  startReq : Bool
  stopReq  : Bool
  target   : Option (Nat × Word × Int)
  loaves   : List LoafState
deriving DecidableEq, Repr, Inhabited

/-- One machine group (chapters 9 and 10). -/
structure GroupSt where
  st       : GroupState := .stopped
  frame    : Nat := 0
  v        : Rat := 0
  a        : Rat := 0
  pos      : Rat := 0
  y        : Rat := 0
  z        : Rat := 0
  p        : Rat := 0
  torque   : Rat := 0
  /-- Group speed taken at the last group boundary, R292. -/
  speed    : Rat := 0
  /-- Electrical angle of the reference set at the last boundary, before displacement (R284), and that boundary's instant. -/
  thetaB   : Nat := 0
  boundT   : Nat := 0
  /-- Latched target: mode, word, turns (R156). -/
  target   : Option (Nat × Word × Int) := none
  /-- Next target, latched at the next speed update (R302). -/
  nextTarget : Option (Nat × Word × Int) := none
  slewed   : Rat := 0
  startPhase : Nat := 0
  startAngle : Nat := 0
  startT   : Nat := 0
  angleFromCh : Bool := false
  swap     : Bool := false
  /-- The cycle in which region C received the pending swap (R304). -/
  swapT    : Nat := 0
  /-- Class A writes held while a swap is pending (R304): address, value. -/
  held     : List (Nat × Int) := []
  degraded : Bool := false
  degNext  : Bool := false
  shareSet : List (Fin 4) := []
  drag     : Rat := 0
  cap      : Rat := 0
  capFull  : Rat := 0
  stopReq  : Bool := false
  startReq : Bool := false
  stallT   : Option Nat := none
  invT     : Option Nat := none
  stallHold : Bool := false
  holdPos  : Rat := 0
  /-- The brake of a hold-then-brake stop is demanded, and since when (R311, R312). -/
  brakeDue : Bool := false
  brakeT   : Nat := 0
  staleRun : Nat := 0
  rtSaid   : Bool := false
  /-- CK_CTL cycle of the latest isolation, and `RT_COUNT` before that cycle (R346). -/
  isoT     : Option Nat := none
  isoN     : Int := 0
  swapped  : Bool := false
  renorm   : Bool := false
  /-- Electrical revolutions the Starter's angle has advanced. -/
  rotRevs  : Rat := 0
  /-- The rotation test (R308): position at its start and its turn, first angle difference, sum and number of the others. -/
  rotFrom  : Rat := 0
  rotMid   : Rat := 0
  rotOfs   : Nat := 0
  rotSum   : Int := 0
  rotN     : Nat := 0
  /-- Every loaf of s stood at its capability at the last split (record flag 3, R329). -/
  capped   : Bool := false
  /-- Position term and following-error fault said in this run (R298). -/
  posSaid  : Bool := false
  /-- The polarity test (R306): the cycle its pulses began in, and the response under −`POL_I` less that under +`POL_I`. -/
  polT     : Nat := 0
  polResp  : Int := 0
  /-- The limit L at the last update of the torque reference (R309). -/
  limL     : Rat := 0
  /-- Group speed at the last speed update, for Proof's mechanical check (R315). -/
  lastSpd  : Rat := 0
  spdSaid  : Bool := false
  cut      : Option GroupCut := none
deriving DecidableEq, Repr, Inhabited

/-- One stored safety parameter set, R395 to R399. -/
structure SafetySet where
  image : List Byte := []
  state : Nat := 0
  bind  : Nat := 0
deriving DecidableEq, Repr, Inhabited

/-- Functional safety (chapter 12): filtered views per channel in the order STO_A, STO_B, GUARD_A, GUARD_B. -/
structure SafetySt where
  viewC    : Quad Bool := Quad.all false
  viewM    : Quad Bool := Quad.all false
  takenC   : Quad Bool := Quad.all false
  takenM   : Quad Bool := Quad.all false
  sets     : Quad SafetySet := Quad.all {}
  governs  : Option (Fin 4) := none
  genC     : Bool := false
  genM     : Bool := false
  brkA     : Bool := false
  brkB     : Bool := false
  /-- A brake output commanded on and read back off: its stage is in thermal shutdown until a reset (R69). -/
  brkShutA : Bool := false
  brkShutB : Bool := false
  /-- The level read back of `GEN_C` and `GEN_M` where it was found to differ from its command (R377, R212). -/
  genBackC : Option Bool := none
  genBackM : Option Bool := none
  /-- SS1 running per channel, and whether it has ended in STO with the enables still low. -/
  ss1C     : Bool := false
  ss1M     : Bool := false
  /-- Local timebase at each channel's detection of the SS1 (R387). -/
  ss1StartC : Nat := 0
  ss1StartM : Nat := 0
  ss1EndC  : Bool := false
  ss1EndM  : Bool := false
  /-- An SS1-t has ended in STO in one channel and still runs in the other: one STO demand (R386, R407). -/
  ss1Said  : Bool := false
  /-- The SS1 was joined by a reaction 5: the module enters SAFE at its end (R386, R387). -/
  react5   : Bool := false
  react6   : Bool := false
  stoC     : Bool := false
  stoM     : Bool := false
  guardOpenC : Bool := false
  guardOpenM : Bool := false
  /-- Start-up guard test: opened in both channels, passed (R392). -/
  guardSeen : Bool := false
  guardPass : Bool := false
  brakeDemC : Bool := false
  brakeDemM : Bool := false
  coverSince : Bool := false
  tapHold  : Bool := false
  /-- A demand of the STO inputs stands in the channel (R383, R386). -/
  stoInC   : Bool := false
  stoInM   : Bool := false
  /-- Local timebase of the latest level each view of an input took (R381, R392). -/
  viewTC   : Quad Nat := Quad.all 0
  viewTM   : Quad Nat := Quad.all 0
  /-- Since when the channel's views of `STO_A` and `STO_B` differ (R382, `DISC_MAX`), its views of the guard inputs (R382), and the
  two channels' views of one input (R376). -/
  discTC   : Option Nat := none
  discTM   : Option Nat := none
  guardDiffC : Option Nat := none
  guardDiffM : Option Nat := none
  chanDiff : Quad (Option Nat) := Quad.all none
  /-- When the first of the two enables fell (R389 case 1). -/
  genFallT : Nat := 0
  /-- Milliseconds of the running hour of `PT_AGE`. -/
  ptMs     : Nat := 0
deriving DecidableEq, Repr, Inhabited

/-- A frame the endpoint itself sends (R412, R414, R415, R417, R418). -/
inductive OwnFrame where
  | gratuitousArp (ip : Nat)
  | arpReply (ip mac : Nat)
  | echoReply (ip : Nat) (payload : List Byte)
  | tcpReset (r : TcpRequest)
  | response (ip port : Nat) (words : List Word)
  | datagram (d : Datagram)
  /-- Requests with their correctionField. -/
  | delayReq (h : PtpHead) (corr : Int)
  | pdelayReq (h : PtpHead) (corr : Int)
  /-- With the compensated receipt instant of the request, and its correctionField. -/
  | pdelayResp (h : PtpHead) (receipt : Rat) (corr : Int)
  /-- With the compensated departure instant of the response. -/
  | pdelayFollow (h : PtpHead) (departure : Rat) (corr : Int)
deriving DecidableEq, Repr, Inhabited

/-- An access of a PHY's registers, R411: a write, or a read and what it brought. -/
structure MdioOp where
  port  : Nat
  phy   : Nat
  reg   : Nat
  value : Half
  write : Bool
deriving DecidableEq, Repr, Inhabited

/-- A frame waiting at an egress port, R410; `stampIn` is its compensated ingress timestamp, `corr` its correctionField in
2^-16 ns. -/
structure EgressFrame where
  len  : Nat
  high : Bool
  corr : Int
  ptp  : Option PtpKind
  stampIn : Rat
  ingress : Nat
  twoStep : Bool
  ptpId : Nat
  ptpSeq : Nat
  udp  : Bool
  /-- The UDP checksum was set to 0 (R420). -/
  noSum : Bool
  /-- It carries a VID other than 0 (R409). -/
  tagged : Bool := false
  /-- What the endpoint sends in it, where it is its own. -/
  own  : Option OwnFrame := none
deriving DecidableEq, Repr, Inhabited

/-- What a clock last announced at a port (R418): its clockIdentity, its grandmaster's data set from priority1 to the identity, the
steps to it, its announce interval in cycles, and the instant. -/
structure Heard where
  clockId : Nat
  port    : Nat
  rank    : List Nat
  gmId    : Nat
  steps   : Nat
  every   : Nat
  heardT  : Nat
deriving DecidableEq, Repr, Inhabited

/-- Switch, endpoint and PTP slave (chapter 13). -/
structure NetSt where
  /-- The address table: address, port, and when it was last refreshed (R409). -/
  macs   : List (Nat × Nat × Nat) := []
  /-- The ARP cache: address, MAC, and when it was last refreshed (R412). -/
  arp    : List (Nat × Nat × Nat) := []
  up     : List Bool := [false, false]
  /-- Frames waiting per egress port, oldest first (R410). -/
  egress : List (List EgressFrame) := [[], [], []]
  /-- Instants of the broadcast frames port 2 took in the last second. -/
  bcastT : List Nat := []
  /-- The last frame that left, with its port. -/
  txLast : Option (Nat × EgressFrame) := none
  conns  : Quad Conn := Quad.all {}
  /-- Two-step Syncs awaiting their Follow_Up: identity, sequence, correction in 2^-16 ns, ingress timestamp; newest first (R420). -/
  tcTable : List (Nat × Nat × Int × Rat) := []
  /-- The selected master, and the Announce messages heard (R418). -/
  master : Option Nat := none
  foreign : List Heard := []
  /-- An offset has been formed from the present master. -/
  synced : Bool := false
  /-- A two-step Sync awaiting its Follow_Up: port, sequence, instant, compensated ingress less correction and asymmetry in ns. -/
  syncPend : Option (Nat × Nat × Nat × Rat) := none
  /-- The last Sync's ingress less its origin, correction and asymmetry in ns. -/
  lastSync : Option Rat := none
  /-- An offset on its way to Leaven, with the instant of its Sync (R419). -/
  offset : Option (Int × Nat) := none
  /-- Sequence number of the last Delay_Req, and its compensated departure. -/
  reqSeq : Nat := 0
  reqLatch : Option Rat := none
  /-- meanPathDelay in ns. -/
  mpd : Rat := 0
  pdSeq : List Nat := [0, 0]
  pdLatch : List (Option Rat) := [none, none]
  /-- The peer delay measured on each port in ns (R420). -/
  peerD : List Rat := [0, 0]
  /-- The last Pdelay_Req answered: port, sequence, receipt and response timestamps (R418). -/
  pdSent : Option (Nat × Nat × Rat × Rat) := none
  /-- Responses that wait in TCP (R415). -/
  tcpOut : List OwnFrame := []
  /-- The latest accesses over MDIO, newest first (R411). -/
  mdio : List MdioOp := []
  arpSent : Nat := 0
  arpReplies : List (Nat × Nat) := []
  echoSent : Nat := 0
  /-- Instants of the echo requests answered in the last second (R412). -/
  echoT  : List Nat := []
  ipNow : Nat := 0
  /-- Subnet mask, gateway and ports in use (R413). -/
  mask  : Nat := 0xFFFFFF00
  gw    : Nat := 0
  mgtPort : Nat := 7412
  streamPort : Nat := 7413
  /-- The address of `IP_MODE` 0 fell back to `IP_ADDR` (R413). -/
  fallback : Bool := false
deriving DecidableEq, Repr, Inhabited

/-- The transfer the peripheral port runs, with the descriptor latched at its start (R444). -/
structure PpRun where
  /-- 0 and 1 lists, 2 manual. -/
  owner : Nat
  dev   : Nat
  sel   : Nat
  mode  : Nat
  nbits : Nat
  order : Nat
  div   : Nat
  lead  : Nat
  lag   : Nat
  wait  : Bool
  /-- `DEV_PRDY_TO` in µs. -/
  prdyTo : Nat
  tx    : List Word
  /-- Its select is asserted. -/
  selected : Bool := false
  /-- Words begun (all of them where `PRDY` is ignored), and the end of the lead or of the gap after them. -/
  begun : Nat := 0
  nextT : Nat := 0
  /-- An early end in progress, with its cause (R449). -/
  cause : Option Nat := none
  /-- The entries of the list run after this one. -/
  rest  : List (List Byte)
deriving DecidableEq, Repr, Inhabited

/-- The peripheral port (chapter 14). -/
structure PpSt where
  run     : Option PpRun := none
  /-- A list run between two entries, every select deasserted: the list and the entries left (R443, R453). -/
  next    : Option (Nat × List (List Byte)) := none
  due0    : Bool := false
  due1    : Bool := false
  manual  : Bool := false
  /-- The result entries of the run in progress. -/
  build   : List Byte := []
  /-- `EVENT` packets counted per list since the last trigger or the write of `LIST_TRIG`. -/
  evt0    : Nat := 0
  evt1    : Nat := 0
  /-- Instant of each list's last trigger or of the write of its `LIST_TRIG` (R452). -/
  trig0   : Nat := 0
  trig1   : Nat := 0
  psel    : Nat := 0
  pstbN   : Bool := true
  pgp0    : Bool := true
  pgp1    : Bool := true
  prdy    : Bool := true
  /-- The idle level of `PSCK` (R446), and when the last select was released (R443). -/
  sck     : Bool := false
  freeT   : Nat := 0
  /-- The bits the last transfer sent on `PMOSI`, word after word, the first sent first (R445). -/
  mosi    : List (List Bool) := []
deriving DecidableEq, Repr, Inhabited

/-- Redundant pair operation (chapter 15). -/
structure PairSt where
  trained : Bool := false
  roleAct : Bool := false
  /-- `ROLE_PARTNER` as synchronised; the instant of its last change, and its filtered level before that (R462). -/
  partner : Bool := true
  partnerT : Nat := 0
  partnerF : Bool := true
  mlPres  : Bool := false
  /-- The bytes of the last mirror frame taken, empty before any. -/
  last    : List Byte := []
  /-- Receive instant and sequence number of the last valid frame (R466 bytes 12 to 16); one is awaited (R469). -/
  rxT     : Nat := 0
  rxSeq   : Nat := 0
  awaited : Bool := false
  txSeq   : Nat := 0
  /-- The bytes of the last STATE or RELEASE frame sent (R468 repeats it) and of the last HELLO sent. -/
  sent    : List Byte := []
  helloSent : List Byte := []
  handover : Bool := false
  /-- The handover release awaits the group boundary; the instant of the last one (R473). -/
  releaseDue : Bool := false
  handT   : Option Nat := none
  lost    : Bool := false
  crcRun  : Nat := 0
  /-- Side B has waited `PR_B_WAIT_MS` without a trained link (R472). -/
  bWait   : Bool := false
  /-- An offset of the pair clock on its way to Leaven channel 1 (R471). -/
  clkDue  : Option Int := none
  /-- The instant of the latest change of `ML_PRES` (R465). -/
  presT   : Nat := 0
  /-- Causes of 0xEC02 raised since the link last trained. -/
  hello02 : List Nat := []
  /-- Torque reference of the FOLLOWER's half, R477. -/
  tauF    : Rat := 0
deriving DecidableEq, Repr, Inhabited

/-- An audit entry, R498. -/
structure AuditEntry where
  timeNs : Nat
  seq    : Nat
  event  : Nat
  path   : Nat
  user   : Nat
  role   : Nat
  result : Nat
  data   : Nat
  chain  : List Byte
deriving DecidableEq, Repr, Inhabited

/-- A firmware slot, R492, R493. -/
structure Slot where
  present : Bool := false
  version : Nat := 0
  svn     : Nat := 0
deriving DecidableEq, Repr, Inhabited

/-- Security (chapter 16). -/
structure SecSt where
  users    : List User := []
  owner    : Option (List Byte) := none
  image    : Option ConfigImage := none
  session  : Option (Nat × Nat) := none
  /-- When a command was last taken from a mailbox (R491). -/
  cmdT     : Nat := 0
  /-- A pending challenge: role, user, challenge bytes, local timebase at issue (R488). -/
  challenge : Option (Nat × Nat × List Byte × Nat) := none
  sessCount : Nat := 0
  nonceNo  : Nat := 0
  /-- Per user: consecutive failures, lockout length in s (0 none), since when it is locked out. -/
  lockouts : List (Nat × Nat × Option Nat) := []
  audit    : List AuditEntry := []
  auditQ   : List AuditEntry := []
  auditSeq : Nat := 0
  slotA    : Slot := { present := true, version := 0x030200, svn := 0 }
  slotB    : Slot := {}
  preferB  : Bool := false
  runB     : Bool := false
  rollback : Nat := 0
  attest   : Option Nat := none
  attestNext : Option Nat := none
  /-- The debug port is unlocked, R501. -/
  unlocked : Bool := false
  debugMem : List (Nat × Byte) := []
  debugRead : Byte := 0
  /-- Free-value counter of the debug port. -/
  debugCount : Nat := 0
deriving DecidableEq, Repr, Inhabited

/-- The capture memory (R242 to R247). -/
structure CapSt where
  /-- What `CAPTURE_ARM` recorded: mode, decimation, sources, lengths P and Q (R243). -/
  mode    : Nat := 0
  decim   : Nat := 0
  sources : List Nat := []
  pre     : Nat := 0
  post    : Nat := 0
  /-- Items held per source, newest first: (value, instant); decimation phase. -/
  items   : List (Nat × List (Int × Nat)) := []
  /-- Frame records held in mode 1, newest first, with the instant each was pushed. -/
  recs    : List (Nat × List Byte) := []
  skips   : List (Nat × Nat) := []
  trigT   : Nat := 0
  /-- Station time of the trigger in ns (R247), and the last sample of the threshold source (R245). -/
  trigNs  : Nat := 0
  prevThr : Option Int := none
  /-- Converter and input of the pair stream as last captured (R247). -/
  pairSrc : Nat × Nat := (0, 0)
deriving DecidableEq, Repr, Inhabited

/-- The whole module. -/
structure State where
  variant : Variant
  mode    : ModState
  boot    : BootSt
  power   : PowerSt
  tapM    : TapSt
  tapC    : TapSt
  time    : TimeSt
  /-- Scalar objects by address (bank 1 of a class A object at 0x1000000 + address, R303). -/
  objs    : Store
  /-- BLOB objects by address, where a write replaced the default. -/
  blobs   : List (Nat × List Byte)
  host    : HostSt
  mb      : Quad Mailbox
  cmd     : CmdSt
  peelC   : PeelEnd
  peelM   : PeelEnd
  flt     : FaultSt
  loaf    : Quad LoafSt
  /-- Filtered levels of the trip sources as each loaf sees them (R199, R200). -/
  trip    : Quad (BitVec 16)
  /-- The same sources' synchronised levels, ahead of their filters (R199). -/
  tripSync : Quad (BitVec 16)
  haltC   : Bool
  haltM   : Bool
  conv    : Six ConvSt
  acc     : List Acc
  accOld  : List Acc
  hand    : Quad Handoff
  fb      : Quad FbSt
  oven    : Quad OvenSt
  /-- The arbiter of the Oven datapath, by loaf (R41). -/
  ovenArb : Arb
  grp     : Quad GroupSt
  cap     : CapSt
  safety  : SafetySt
  net     : NetSt
  pp      : PpSt
  pair    : PairSt
  sec     : SecSt
  /-- The free values the model has drawn so far: the index of the next one. -/
  freeNo  : Nat
  /-- Commands waiting, first in first out. -/
  pending : List Instr
deriving DecidableEq, Repr

/-- The module at t0 of R90, held in the reset that a power-on began: every register at its default (R8, R89), every
pad in its reset state (R57), the supplies within range, nothing stored in flash but a first power-on. -/
def State.reset : State where
  variant := .f4
  mode := .boot
  boot := { classDue := true }
  power := { vin := 24000, vioG := 3300, vioH := 3300, vbat := 3000, resetLow := true, pwrgoodLow := true }
  tapM := {}
  tapC := {}
  time := {}
  objs := [(0x100201, 1), (0x100202, 1), (0x100203, 0xFFFF)]
  blobs := []
  host := {}
  mb := Quad.all {}
  cmd := {}
  peelC := {}
  peelM := {}
  flt := {}
  loaf := Quad.all {}
  trip := Quad.all 0
  tripSync := Quad.all 0
  haltC := false
  haltM := false
  conv := Six.all {}
  acc := []
  accOld := []
  hand := Quad.all {}
  fb := Quad.all {}
  oven := Quad.all {}
  ovenArb := {}
  grp := Quad.all {}
  cap := {}
  safety := {}
  net := {}
  pp := {}
  pair := {}
  sec := {}
  freeNo := 0
  pending := []

/-- No meaning of this model stops with a fault: every event the manual describes has an effect (a machine fault of
the manual is an effect on the state: the collector latches it). So this type has no value. -/
inductive Fault where
deriving DecidableEq, Repr

/-- The one refusal of the interface. -/
inductive Refusal where
  /-- Raised by an arm of `exec` whose row has no meaning yet; no arm raises it. Safe. -/
  | notModelled (mnemonic : String)
deriving DecidableEq, Repr

end Sys2Proof.Machine
end

