-- ==== Sys2Proof/Machine/Ops.lean ====
section
/-! DEFINITION. The named operations over the state: the object store, counters, time, the units and their
bindings, and the small updates every family uses. -/

namespace Sys2Proof.Machine

/-! ## The object store -/

/-- Bank 1 of a class A object stands this far above its bank 0 (R303). -/
def bankBit : Nat := 0x1000000

/-- What an unlisted key of the store reads as: the object's default (R8), in either bank. -/
def storeDefault (a : Nat) : Int := objDefault (a % bankBit)

/-- The value under a key. -/
def Store.get (m : Store) (a : Nat) : Int :=
  match m.find? (fun p => p.1 == a) with
  | some p => p.2
  | none => storeDefault a

/-- A pair put at its place in a list of rising keys. -/
def Store.insert : Store → Nat → Int → Store
  | [], a, v => [(a, v)]
  | (b, w) :: m, a, v => if a < b then (a, v) :: (b, w) :: m else (b, w) :: Store.insert m a v

/-- The store without a key. -/
def Store.erase (m : Store) (a : Nat) : Store := m.filter (fun p => p.1 != a)

/-- A write: the default removes the entry, so that equal contents are equal data. -/
def Store.set (m : Store) (a : Nat) (v : Int) : Store :=
  if v = storeDefault a then m.erase a else (m.erase a).insert a v

/-- Keys strictly rising. -/
def Store.rising : Store → Bool
  | [] => true
  | [_] => true
  | (a, _) :: (b, w) :: m => decide (a < b) && Store.rising ((b, w) :: m)

/-- The canonical form: keys strictly rising and no entry equal to its default. -/
def Store.wf (m : Store) : Bool := m.rising && m.all (fun p => decide (p.2 ≠ storeDefault p.1))

/-- The value of an object's home. -/
def State.rd (s : State) (a : Nat) : Int := s.objs.get a
/-- The same as a natural number (unsigned objects). -/
def State.rdN (s : State) (a : Nat) : Nat := (s.rd a).toNat
/-- The state with an object's home replaced. -/
def State.wr (s : State) (a : Nat) (v : Int) : State := { s with objs := s.objs.set a v }
/-- Several homes replaced, in order. -/
def State.wrs (s : State) (ws : List (Nat × Int)) : State := ws.foldl (fun x w => x.wr w.1 w.2) s

/-- A counter whose rule says that it saturates, of the given greatest value. -/
def State.bumpTo (s : State) (a : Nat) (top : Int) : State :=
  if s.rd a < top then s.wr a (s.rd a + 1) else s.wr a top
/-- A saturating U32 counter. -/
def State.bump (s : State) (a : Nat) : State := s.bumpTo a 0xFFFFFFFF
/-- A U32 counter whose rule says that it wraps. -/
def State.bumpWrap (s : State) (a : Nat) : State := s.wr a ((s.rd a + 1) % 0x100000000)
/-- A U32 counter whose rule states nothing beyond its range: the value past the top is free. -/
def State.bumpOpen (s : State) (a : Nat) : State :=
  if s.rd a < 0xFFFFFFFF then s.wr a (s.rd a + 1) else s.wr a (Config.counterPast a)
/-- Several counters cleared. -/
def State.clear (s : State) (as : List Nat) : State := as.foldl (fun x a => x.wr a 0) s

/-- Bit `i` of an object. -/
def State.rdBit (s : State) (a i : Nat) : Bool := (s.rdN a).testBit i
/-- Bit `i` of an object written. -/
def State.wrBit (s : State) (a i : Nat) (b : Bool) : State := s.wr a (putBit (s.rdN a) i b)

/-! ## BLOB objects -/

/-- The bytes of a BLOB, or the given default where nothing was written. -/
def State.blob (s : State) (a : Nat) (dflt : List Byte) : List Byte :=
  match s.blobs.find? (fun p => p.1 == a) with
  | some p => p.2
  | none => dflt
/-- A BLOB replaced. -/
def State.setBlob (s : State) (a : Nat) (b : List Byte) : State :=
  { s with blobs := (a, b) :: s.blobs.filter (fun p => p.1 != a) }

/-! ## Little-endian bytes (R2) -/

/-- `n` bytes of a number, least significant first. -/
def leBytes : Nat → Nat → List Byte
  | 0, _ => []
  | n + 1, v => BitVec.ofNat 8 v :: leBytes n (v / 256)
/-- The number little-endian bytes hold. -/
def leNat : List Byte → Nat
  | [] => 0
  | b :: bs => b.toNat + 256 * leNat bs
/-- Bytes `off` to `off + n - 1`, 0 beyond the end. -/
def slice (bs : List Byte) (off n : Nat) : List Byte := (List.range n).map (fun i => bs.getD (off + i) 0)
/-- The unsigned field of `n` bytes at `off`. -/
def leAt (bs : List Byte) (off n : Nat) : Nat := leNat (slice bs off n)
/-- The signed field of `n` bytes at `off`. -/
def leAtI (bs : List Byte) (off n : Nat) : Int := signExt (8 * n) (leAt bs off n)
/-- Bytes of `bs` replaced from `off`, the list grown with zeros where needed. -/
def patchBytes (bs : List Byte) (off : Nat) (data : List Byte) : List Byte :=
  (List.range (max bs.length (off + data.length))).map
    (fun i => if off ≤ i ∧ i < off + data.length then data.getD (i - off) 0 else bs.getD i 0)
/-- The words whose bytes these are, the last filled with zeros (R149). -/
def bytesToWords : List Byte → List Word
  | [] => []
  | [a] => [BitVec.ofNat 32 a.toNat]
  | [a, b] => [BitVec.ofNat 32 (leNat [a, b])]
  | [a, b, c] => [BitVec.ofNat 32 (leNat [a, b, c])]
  | a :: b :: c :: d :: r => BitVec.ofNat 32 (leNat [a, b, c, d]) :: bytesToWords r
/-- The bytes of words. -/
def wordsToBytes (ws : List Word) : List Byte := ws.flatMap (fun w => leBytes 4 w.toNat)

/-! ## Units of the F2 (R50 to R53) -/

/-- Loaf, converter or feedback channel `n` of a repeated range is present. -/
def State.has (s : State) (n : Nat) : Bool := decide (s.variant = .f4 ∨ n < 2)
/-- The loaves present. -/
def State.loaves (s : State) : List (Fin 4) := units4.filter (fun n => s.has n.val)
/-- Converter `k` is present (CV4 and CV5 always). -/
def State.hasConv (s : State) (k : Nat) : Bool := s.has k || decide (4 ≤ k)

/-! ## Exact values shown as integers -/

/-- The integer shown for an exact value: itself, or, where it is no integer and its rule states no rounding, a free value. -/
def showInt (q : Rat) : Int := if q.den = 1 then q.num else Config.shownInt q

/-! ## Updates of one unit -/

def State.modLoaf (s : State) (n : Fin 4) (f : LoafSt → LoafSt) : State := { s with loaf := s.loaf.set n (f (s.loaf.get n)) }
def State.modGrp (s : State) (g : Fin 4) (f : GroupSt → GroupSt) : State := { s with grp := s.grp.set g (f (s.grp.get g)) }
def State.modFb (s : State) (n : Fin 4) (f : FbSt → FbSt) : State := { s with fb := s.fb.set n (f (s.fb.get n)) }
def State.modOven (s : State) (n : Fin 4) (f : OvenSt → OvenSt) : State := { s with oven := s.oven.set n (f (s.oven.get n)) }
def State.modConv (s : State) (k : Fin 6) (f : ConvSt → ConvSt) : State := { s with conv := s.conv.set k (f (s.conv.get k)) }
def State.modMb (s : State) (n : Fin 4) (f : Mailbox → Mailbox) : State := { s with mb := s.mb.set n (f (s.mb.get n)) }
def State.modFlt (s : State) (f : FaultSt → FaultSt) : State := { s with flt := f s.flt }
def State.modSafety (s : State) (f : SafetySt → SafetySt) : State := { s with safety := f s.safety }
def State.modPower (s : State) (f : PowerSt → PowerSt) : State := { s with power := f s.power }
def State.modBoot (s : State) (f : BootSt → BootSt) : State := { s with boot := f s.boot }
def State.modTime (s : State) (f : TimeSt → TimeSt) : State := { s with time := f s.time }
def State.modHost (s : State) (f : HostSt → HostSt) : State := { s with host := f s.host }
def State.modCmd (s : State) (f : CmdSt → CmdSt) : State := { s with cmd := f s.cmd }
def State.modNet (s : State) (f : NetSt → NetSt) : State := { s with net := f s.net }
def State.modPp (s : State) (f : PpSt → PpSt) : State := { s with pp := f s.pp }
def State.modPair (s : State) (f : PairSt → PairSt) : State := { s with pair := f s.pair }
def State.modSec (s : State) (f : SecSt → SecSt) : State := { s with sec := f s.sec }
def State.modCap (s : State) (f : CapSt → CapSt) : State := { s with cap := f s.cap }

/-- The frame accumulators of the open frames, those of the frames that await their close, and a loaf's handoff replaced. -/
def State.setAcc (s : State) (l : List Acc) : State := { s with acc := l }
def State.setAccOld (s : State) (l : List Acc) : State := { s with accOld := l }
def State.setHand (s : State) (n : Fin 4) (h : Handoff) : State := { s with hand := s.hand.set n h }
/-- One more free value drawn. -/
def State.drew (s : State) : State := { s with freeNo := s.freeNo + 1 }

/-- A change made to every listed unit in turn. -/
def forAll {α : Type} (l : List α) (f : α → State → State) (s : State) : State := l.foldl (fun x a => f a x) s

/-! ## Interrupt flags (R129) -/

/-- Flag `i` of `IRQ_FLAGS` set. -/
def State.setIrq (s : State) (i : Nat) : State :=
  { s with host := { s.host with irqFlags := s.host.irqFlags ||| BitVec.ofNat 32 (2 ^ i) } }
/-- Flag `i` of `IRQ_FLAGS` cleared. -/
def State.clrIrq (s : State) (i : Nat) : State :=
  { s with host := { s.host with irqFlags := s.host.irqFlags &&& ~~~ BitVec.ofNat 32 (2 ^ i) } }

/-! ## Arbitration (R41, R42) -/

/-- One grant slot of an arbiter of `n` blocks with one requesting cell each: the deficits of the requesting blocks grow, a
block that does not request loses its own; the highest is granted and pays the total (the pseudocode before R41); equal
deficits go to the lowest index from the pointer on, which then moves past it (R42). -/
def Arb.grant (a : Arb) (n : Nat) (req : Nat → Bool) : Option (Nat × Arb) :=
  let d : List Int := (List.range n).map (fun b => if req b then a.deficit.getD b 0 + 1 else 0)
  let asking := (List.range n).filter req
  let top := asking.foldl (fun (m : Option Int) b => match m with
    | none => some (d.getD b 0)
    | some v => some (max v (d.getD b 0))) none
  let best := asking.filter (fun b => decide (top = some (d.getD b 0)))
  let pick := match best.find? (fun b => decide (a.ptr ≤ b)) with
    | some b => some b
    | none => best.head?
  pick.map (fun b => (b, { deficit := d.set b (d.getD b 0 - (asking.length : Int)),
                           ptr := if 2 ≤ best.length then (b + 1) % n else a.ptr }))

/-! ## Time -/

/-- CK_CTL cycles in a millisecond and a microsecond (200 MHz). -/
def msCycles : Nat := 200000
def usCycles : Nat := 200
/-- A second. -/
def secCycles : Nat := 200000000

/-- The increment of time unit `u` per CK_CTL cycle, `TU_INC`, in 2^-32 ns (R430). -/
def State.tuStep (s : State) (u : Nat) : Nat := s.rdN (Obj.tuInc u)

/-- The station format wraps after 48 bits of seconds (R130), here in 2^-32 ns. -/
def stationWrap : Nat := 2 ^ 48 * 1000000000 * 2 ^ 32

/-- The clocks carried forward to instant `t` of the local timebase: 5 ns a cycle at the rate Leaven gives (R422),
and each time unit by its increment (R430). An instant already passed changes nothing. -/
def State.atT (s : State) (t : Nat) : State :=
  if t ≤ s.time.now then s
  else
    let d := t - s.time.now
    let ns : Rat := 5 * (d : Rat)
    { s with time := { s.time with
        now := t
        station := s.time.station + ns * (1 - s.time.lv0.rate / 1000000000)
        counter := s.time.counter + ns / 1000000000
        pairClk := s.time.pairClk + ns * (1 - s.time.lv1.rate / 1000000000)
        units := s.time.units.mapIdx (fun u v => (v + d * s.tuStep u) % stationWrap) } }

/-- Station time in whole nanoseconds. -/
def State.stationNs (s : State) : Nat := s.time.station.floor.toNat

/-! ## Groups and the loaves they bind (R322) -/

/-- The loaves bound to group `g`, R322. -/
def State.bound (s : State) (g : Fin 4) : List (Fin 4) :=
  s.loaves.filter (fun n => s.rdBit (Obj.grpLoaves g.val) n.val)
/-- The group a loaf is bound to. -/
def State.groupOf (s : State) (n : Fin 4) : Option (Fin 4) :=
  units4.find? (fun g => s.rdBit (Obj.grpLoaves g.val) n.val)
/-- The loaf whose epoch a group runs on: its lowest-indexed (R323). -/
def State.epochHead (s : State) (n : Fin 4) : Option (Fin 4) := (s.groupOf n).bind (fun g => (s.bound g).head?)
/-- The timing loaf of a group: its lowest-indexed bound loaf whose counter runs (R281). -/
def State.timingLoaf (s : State) (g : Fin 4) : Option (Fin 4) := (s.bound g).find? (fun n => (s.loaf.get n).running)
/-- A group is STARTING, RUNNING, DEGRADED or STOPPING. -/
def GroupState.active (x : GroupState) : Bool :=
  decide (x = .starting ∨ x = .running ∨ x = .degraded ∨ x = .stopping)
/-- The encodings of R155. -/
def LoafState.code : LoafState → Nat
  | .off => 0
  | .open_ => 1
  | .closed => 2
  | .isolated => 3
  | .fault => 4
def GroupState.code : GroupState → Nat
  | .stopped => 0
  | .starting => 1
  | .running => 2
  | .degraded => 3
  | .stopping => 4
  | .safe => 5
/-- `MODULE_STATE`, R96. -/
def ModState.code : ModState → Nat
  | .boot => 0
  | .config => 1
  | .ready => 2
  | .operational => 3
  | .safe => 4
  | .standby => 5

/-- `CH_ROLE` of an input of a main converter. -/
def State.role (s : State) (k i : Nat) : Nat := s.rdN (Obj.chRole k i)
/-- The input holds role `r` for loaf `n` (R230; role 0 names no loaf). -/
def State.holds (s : State) (k i : Nat) (n : Fin 4) (r : Nat) : Bool :=
  decide (s.role k i % 16 = r ∧ s.role k i / 16 % 4 = n.val ∧ r ≠ 0)
/-- The input (converter, number) that holds role `r` for loaf `n`. -/
def State.findRole (s : State) (n : Fin 4) (r : Nat) : Option (Nat × Nat) :=
  ((List.range 4).flatMap (fun k => (List.range 9).map (fun i => (k, i)))).find?
    (fun p => s.has p.1 && s.holds p.1 p.2 n r)
/-- Converter `k` holds a role of loaf `n`. -/
def State.convServes (s : State) (k : Nat) (n : Fin 4) : Bool :=
  (List.range 9).any (fun i => decide (s.role k i % 16 ≠ 0 ∧ s.role k i / 16 % 4 = n.val))
/-- Group `g` reads feedback channel `n`: as its position channel or its Hall Starter channel (R270, R284). -/
def State.groupReads (s : State) (g : Fin 4) (n : Nat) : Bool :=
  decide (s.rdN (Obj.posCh g.val) = n ∨ (s.rdN (Obj.starter g.val) = 2 ∧ s.rdN (Obj.startHallCh g.val) = n))
/-- The loaves that read a feedback channel: the bound loaves of the groups that read it (R270). -/
def State.fbReaders (s : State) (n : Nat) : List (Fin 4) :=
  s.loaves.filter (fun m => match s.groupOf m with
    | some g => s.groupReads g n
    | none => false)

/-- The active bank of a class A object that loaf `n` or group `g` holds: bank 1 while the group's `BANK_ACTIVE` is 1 (R303). -/
def State.bankOfGroup (s : State) (g : Fin 4) : Nat := if s.rd (Obj.bankActive g.val) = 1 then bankBit else 0
def State.bankOfLoaf (s : State) (n : Fin 4) : Nat := match s.groupOf n with
  | some g => s.bankOfGroup g
  | none => 0

/-- The peripheral transfer in progress ends early with a cause; a cause already set stands (R449). -/
def State.ppEarly (s : State) (cause : Nat) : State :=
  s.modPp (fun p => { p with run := p.run.map (fun r => if r.cause.isSome then r else { r with cause := some cause }) })

/-- The module state entered: `STATE_TIME` starts again and `STATE_CHG` sets (R113, R129); the time to READY is
recorded once a boot (`BOOT_MS`); SAFE and STANDBY end a peripheral transfer early (R449). -/
def State.setMode (s : State) (m : ModState) : State :=
  if s.mode = m then s
  else
    let s1 : State := { s with
      mode := m
      boot := { s.boot with
        stateT := s.time.now, readyT := if m = .ready ∧ s.mode ≠ .operational then s.time.now else s.boot.readyT }
      pair := { s.pair with bWait := s.pair.bWait && decide (m = .ready ∨ m = .operational) } }
    let s2 := if m = .ready ∧ s.rd Obj.bootMs = 0xFFFF
      then s1.wr Obj.bootMs (clampI 0 0xFFFE (((s.time.now - s.boot.t0) / msCycles : Nat) : Int)) else s1
    (if m = .safe ∨ m = .standby then s2.ppEarly 3 else s2).setIrq 9

end Sys2Proof.Machine
end

