-- ==== Sys2Proof/Machine/Codes.lean ====
section
/-! DEFINITION. The fault code table of R372, the class table over it (R371), the instances of R353 and the targets
of a reaction (R356). -/

namespace Sys2Proof.Machine

/-- What the Adjust column allows, R372. -/
inductive Adjust where
  | fixed
  | geC3
  | any
deriving DecidableEq, Repr

/-- A row of the fault code table: the codes it covers, default class and reaction, Adjust, and the injectable modes. -/
structure CodeRow where
  lo   : Nat
  hi   : Nat
  cls  : FaultClass
  react : Nat
  adj  : Adjust
  live : Bool
  dry  : Bool
deriving DecidableEq, Repr

/-- R372: cell and block level codes. -/
def codeRowsLow : List CodeRow := [
  ⟨0x0001, 0x0001, .c3, 2, .fixed, false, false⟩,
  ⟨0x0002, 0x0002, .c3, 6, .fixed, false, false⟩,
  ⟨0x4001, 0x4001, .c1, 0, .any, true, true⟩,
  ⟨0x4010, 0x4017, .c3, 2, .geC3, true, true⟩,
  ⟨0x4020, 0x4027, .c0, 0, .any, true, true⟩,
  ⟨0x0401, 0x0401, .c1, 0, .any, true, true⟩,
  ⟨0x0403, 0x0403, .c0, 0, .any, true, true⟩,
  ⟨0x0402, 0x0402, .c1, 0, .any, false, true⟩,
  ⟨0x4401, 0x4402, .c3, 2, .geC3, false, true⟩,
  ⟨0x4405, 0x4405, .c3, 2, .geC3, false, true⟩,
  ⟨0x4403, 0x4403, .c2, 2, .any, true, true⟩,
  ⟨0x4404, 0x4404, .c1, 0, .any, true, true⟩,
  ⟨0x0801, 0x0801, .c1, 0, .any, true, true⟩,
  ⟨0x0802, 0x0802, .c0, 0, .any, true, true⟩,
  ⟨0x0803, 0x0803, .c1, 0, .any, true, true⟩,
  ⟨0x0804, 0x0804, .c0, 0, .any, true, true⟩,
  ⟨0x4801, 0x4802, .c1, 0, .any, true, true⟩,
  ⟨0x4803, 0x4807, .c3, 1, .any, true, true⟩,
  ⟨0x4C01, 0x4C01, .c3, 2, .any, true, true⟩,
  ⟨0x4C06, 0x4C06, .c3, 2, .any, true, true⟩,
  ⟨0x4C02, 0x4C02, .c1, 0, .any, true, true⟩,
  ⟨0x4C03, 0x4C03, .c3, 4, .any, true, true⟩,
  ⟨0x4C05, 0x4C05, .c3, 4, .any, true, true⟩,
  ⟨0x4C07, 0x4C07, .c3, 4, .any, true, true⟩]

/-- R372: the rest of the block level and the region and module levels. -/
def codeRowsHigh : List CodeRow := [
  ⟨0x4C04, 0x4C04, .c3, 2, .any, true, true⟩,
  ⟨0x4C08, 0x4C08, .c3, 2, .fixed, true, true⟩,
  ⟨0x4C09, 0x4C0A, .c2, 4, .any, true, true⟩,
  ⟨0x5001, 0x5001, .c2, 2, .any, true, true⟩,
  ⟨0x5003, 0x5003, .c2, 2, .any, true, true⟩,
  ⟨0x5002, 0x5002, .c1, 0, .any, true, true⟩,
  ⟨0x5006, 0x5006, .c1, 0, .any, true, true⟩,
  ⟨0x5004, 0x5005, .c3, 2, .any, true, true⟩,
  ⟨0x5401, 0x5403, .c3, 2, .geC3, true, true⟩,
  ⟨0x5404, 0x5404, .c3, 2, .any, true, true⟩,
  ⟨0x5406, 0x5406, .c3, 2, .any, true, true⟩,
  ⟨0x5405, 0x5405, .c1, 0, .any, true, true⟩,
  ⟨0x5410, 0x5410, .c3, 4, .any, true, true⟩,
  ⟨0x5411, 0x5413, .c0, 0, .any, true, true⟩,
  ⟨0x8001, 0x8001, .c3, 1, .fixed, false, false⟩,
  ⟨0x9801, 0x9802, .c4, 6, .fixed, false, false⟩,
  ⟨0x9803, 0x9803, .c1, 0, .any, true, true⟩,
  ⟨0x9C01, 0x9C02, .c4, 6, .fixed, false, false⟩,
  ⟨0x9C04, 0x9C04, .c4, 6, .fixed, false, false⟩,
  ⟨0x9C03, 0x9C03, .c3, 2, .fixed, false, false⟩,
  ⟨0xDC01, 0xDC01, .c1, 0, .any, false, true⟩,
  ⟨0xA001, 0xA001, .c4, 6, .fixed, false, false⟩,
  ⟨0xA003, 0xA003, .c4, 6, .fixed, false, false⟩,
  ⟨0xA002, 0xA002, .c1, 0, .any, true, true⟩,
  ⟨0xE001, 0xE006, .c4, 6, .fixed, false, false⟩,
  ⟨0xE008, 0xE008, .c4, 6, .fixed, false, false⟩,
  ⟨0xE007, 0xE007, .c1, 0, .any, true, true⟩,
  ⟨0xE009, 0xE009, .c4, 6, .fixed, false, false⟩,
  ⟨0xE401, 0xE401, .c4, 6, .fixed, false, false⟩,
  ⟨0xE402, 0xE403, .c1, 0, .any, true, true⟩,
  ⟨0xE404, 0xE408, .c4, 6, .fixed, false, true⟩,
  ⟨0xE40A, 0xE40A, .c0, 0, .fixed, false, false⟩,
  ⟨0xE801, 0xE802, .c1, 0, .any, true, true⟩,
  ⟨0xE803, 0xE803, .c0, 0, .any, true, true⟩,
  ⟨0xEC01, 0xEC02, .c1, 0, .any, false, true⟩,
  ⟨0xEC04, 0xEC04, .c1, 0, .any, false, true⟩,
  ⟨0xEC03, 0xEC03, .c3, 1, .fixed, false, false⟩,
  ⟨0xF001, 0xF001, .c4, 6, .fixed, false, false⟩,
  ⟨0xF002, 0xF002, .c0, 0, .any, false, true⟩,
  ⟨0xF003, 0xF004, .c1, 0, .any, false, true⟩,
  ⟨0xF401, 0xF401, .c1, 0, .any, true, true⟩,
  ⟨0xF402, 0xF402, .c0, 0, .any, false, true⟩,
  ⟨0xF801, 0xF802, .c1, 0, .any, true, true⟩]

/-- The row of a code, R372; the module raises only the codes listed. -/
def codeRow (code : Half) : Option CodeRow :=
  (codeRowsLow ++ codeRowsHigh).find? (fun r => decide (r.lo ≤ code.toNat ∧ code.toNat ≤ r.hi))

/-- Class numbers, R354. -/
def FaultClass.num : FaultClass → Nat
  | .c0 => 0
  | .c1 => 1
  | .c2 => 2
  | .c3 => 3
  | .c4 => 4
def FaultClass.ofNum : Nat → Option FaultClass
  | 0 => some .c0
  | 1 => some .c1
  | 2 => some .c2
  | 3 => some .c3
  | 4 => some .c4
  | _ => none

/-- The combinations of class and reaction R354 allows. -/
def classAllows (c : FaultClass) (react : Nat) : Bool :=
  match c with
  | .c0 => decide (react = 0)
  | .c1 => decide (react = 0)
  | .c2 => decide (1 ≤ react ∧ react ≤ 6)
  | .c3 => decide (1 ≤ react ∧ react ≤ 6)
  | .c4 => decide (react = 5 ∨ react = 6)

/-- The written `CLASS_TABLE`, 512 bytes (R371). -/
def State.classTable (s : State) : List Byte := s.blob Obj.classTable (List.replicate 512 0)

/-- An entry of the class table: code, class and reaction byte, reserved byte, grace time. -/
def tableEntry (tbl : List Byte) (i : Nat) : Nat × Nat × Nat × Nat :=
  (leAt tbl (8 * i) 2, leAt tbl (8 * i + 2) 1, leAt tbl (8 * i + 3) 1, leAt tbl (8 * i + 4) 4)

/-- The entry that names a code, if any. -/
def entryFor (tbl : List Byte) (code : Half) : Option (Nat × Nat × Nat × Nat) :=
  if code = 0 then none
  else ((List.range 64).map (tableEntry tbl)).find? (fun e => e.1 == code.toNat)

/-- R371: an entry that makes the whole written table out of range. Its reserved bits and the range of its grace time are judged
in an unused entry too, which names no fault (R3). -/
def entryBad (tbl : List Byte) (i : Nat) : Bool :=
  let e := tableEntry tbl i
  e.2.1.testBit 3 || e.2.1.testBit 7 || decide (e.2.2.1 ≠ 0)
    || (decide (e.2.2.2 ≠ 0) && (decide (e.2.2.2 < 10) || decide (1000000 < e.2.2.2)))
    || (if e.1 = 0 then false
  else
    let cls := FaultClass.ofNum (e.2.1 % 8)
    let react := e.2.1 / 16 % 8
    match codeRow (BitVec.ofNat 16 e.1), cls with
    | some r, some c =>
      decide (r.adj = .fixed) || (decide (r.adj = .geC3) && decide (c.num < 3)) || !classAllows c react
        || (List.range i).any (fun j => (tableEntry tbl j).1 == e.1)
    | _, _ => true)

/-- R371: the table is taken only when no entry is bad. -/
def classTableOk (tbl : List Byte) : Bool := (List.range 64).all (fun i => !entryBad tbl i)

/-- Class and reaction a report of the code takes now. -/
def State.classOf (s : State) (code : Half) : FaultClass × Nat :=
  match codeRow code with
  | none => (.c0, 0)
  | some r =>
    match entryFor s.classTable code with
    | some e => ((FaultClass.ofNum (e.2.1 % 8)).getD r.cls, e.2.1 / 16 % 8)
    | none => (r.cls, r.react)

/-- The grace window of a C2 code in CK_CTL cycles, R358. -/
def State.graceOf (s : State) (code : Half) : Nat :=
  let us := match entryFor s.classTable code with
    | some e => if e.2.2.2 = 0 then s.rdN Obj.graceDef else e.2.2.2
    | none => s.rdN Obj.graceDef
  us * usCycles

/-- What the instance of a code names, R353. -/
inductive InstKind where
  | loaf | group | conv | pair | fb | all
deriving DecidableEq, Repr

/-- R353 by code. -/
def instKind (code : Half) : InstKind :=
  let c := code.toNat
  let u := c / 1024 % 16
  if 2 ≤ c / 16384 then .all
  else if u = 1 then (if c = 0x4403 then .pair else .conv)
  else if u = 2 then .fb
  else if c = 0x5006 then .conv
  else if u = 3 then (if c = 0x4C01 ∨ c = 0x4C02 ∨ c = 0x4C06 then .loaf else .group)
  else if c = 0x5410 then .group
  else if u = 0 ∨ u = 4 ∨ u = 5 then .loaf
  else .all

/-- INDEX and SUB of an instance, R353. -/
def instIndex (inst : Half) : Nat := inst.toNat % 16
def instSub (inst : Half) : Nat := inst.toNat / 16 % 16
/-- An instance from its fields. -/
def mkInst (index sub : Nat) : Half := BitVec.ofNat 16 (index % 16 + 16 * (sub % 16))

/-- The table lists the code, and the instance is one R353 gives it: bits 15:8 are reserved (0xFFFF is never raised), and the
index is of a unit the module has (R50, R372). -/
def State.raisable (s : State) (code inst : Half) : Bool :=
  let i := instIndex inst
  (codeRow code).isSome && decide (inst.toNat < 256) && (match instKind code with
    | .loaf | .fb => decide (i < 4) && s.has i
    | .group => decide (i < 4)
    | .conv => decide (i < 6) && s.hasConv i
    | .pair => decide (i < 2) && s.has (2 * i)
    | .all => true)

/-- The groups the loaves belong to. -/
def State.groupsOf (s : State) (ls : List (Fin 4)) : List (Fin 4) :=
  units4.filter (fun g => ls.any (fun n => s.groupOf n == some g))

/-- The loaves a fault targets, R356. -/
def State.targetLoaves (s : State) (code inst : Half) : List (Fin 4) :=
  let i := instIndex inst
  match instKind code with
  | .loaf => s.loaves.filter (fun n => n.val == i)
  | .group => s.loaves.filter (fun n => s.rdBit (Obj.grpLoaves i) n.val && decide (i < 4))
  | .conv => s.loaves.filter (fun n => s.convServes i n && decide (i < 4))
  | .pair => s.loaves.filter (fun n => s.convServes (2 * i) n || s.convServes (2 * i + 1) n)
  | .fb => s.fbReaders i
  | .all => s.loaves

/-- The groups a fault targets, R356. -/
def State.targetGroups (s : State) (code inst : Half) : List (Fin 4) :=
  match instKind code with
  | .group => units4.filter (fun g => g.val == instIndex inst)
  | .all => units4
  | _ => s.groupsOf (s.targetLoaves code inst)

/-- R527: a pending fault's reaction has reached a loaf. -/
def State.reachedLoaf (s : State) (p : Pend) (n : Fin 4) : Bool :=
  p.ran && ((p.react == 5 || p.react == 6)
    || ((p.react == 2 || p.react == 4) && (s.targetLoaves p.code p.inst).contains n))
/-- R527: a pending fault's reaction has reached a group. -/
def State.reachedGroup (s : State) (p : Pend) (g : Fin 4) : Bool :=
  p.ran && ((p.react == 5 || p.react == 6)
    || ((p.react == 2 || p.react == 4) && (s.targetGroups p.code p.inst).contains g))
/-- No pending fault's reaction has reached the loaf. -/
def State.loafFree (s : State) (n : Fin 4) : Bool := s.flt.pend.all (fun p => !s.reachedLoaf p n)
/-- No pending fault's reaction has reached the group. -/
def State.groupFree (s : State) (g : Fin 4) : Bool := s.flt.pend.all (fun p => !s.reachedGroup p g)
/-- A C4 fault is pending, or the report of one in region M is on its way to the collector (R112, R365). -/
def State.c4Pending (s : State) : Bool :=
  s.flt.pend.any (fun p => decide (p.cls = .c4)) || s.flt.mRep.any (fun r => decide ((s.classOf r.1).1 = .c4))
/-- A code and instance is pending. -/
def State.isPending (s : State) (code inst : Half) : Bool := s.flt.pend.any (fun p => p.code == code && p.inst == inst)

/-! ## Lost phase currents (R342, R343) -/

/-- The open-wire fault of an input is latched: 0x0401 is pending for it, and not by a dry injection (R239, R369). -/
def State.owLatched (s : State) (k i : Nat) : Bool :=
  s.flt.pend.any (fun p => p.code == 0x0401 && p.inst == mkInst k i
    && (!p.inj || s.flt.inj.any (fun j => j.live && j.code == p.code && j.inst == p.inst)))
/-- A phase-current input is lost while its open-wire fault is latched (R342). -/
def State.roleLost (s : State) (n : Fin 4) (r : Nat) : Bool :=
  match s.findRole n r with
  | some (k, i) => s.owLatched k i
  | none => false
/-- Phase-current roles held and not lost. -/
def State.currentsHeld (s : State) (n : Fin 4) : Nat :=
  ([1, 2, 3].filter (fun r => (s.findRole n r).isSome && !s.roleLost n r)).length
/-- The conditions of single-shunt reconstruction (R343). -/
def State.reconOk (s : State) (n : Fin 4) : Bool :=
  decide (s.rd (Obj.reconEn n.val) = 1 ∧ s.rd (Obj.cntMode n.val) = 1)
    && (match s.findRole n 8 with
      | some (k, i) => decide (s.rd (Obj.pairMode (k / 2 * 2)) = 1
          ∧ s.rdN (Obj.pairSrc (k / 2 * 2)) = i + 9 * (k % 2))
      | none => false)
/-- The loaf runs on reconstruction. -/
def State.reconRuns (s : State) (n : Fin 4) : Bool := decide (s.currentsHeld n < 2) && s.reconOk n

/-! ## Angle sources and feedback validity (R270, R278, R284) -/

/-- The position channel of a group. -/
def State.posFb (s : State) (g : Fin 4) : Option (Fin 4) :=
  let c := s.rdN (Obj.posCh g.val)
  if c < 4 then some (Fin.ofNat 4 c) else none
/-- The position its channel handed a group's timing loaf at its latest boundary, with turns, in 2^-25 revolution (R270). -/
def State.posHanded (s : State) (g : Fin 4) : Option Int :=
  match s.posFb g, s.timingLoaf g with
  | some c, some n => some ((s.fb.get c).latch.get n).pos
  | _, _ => none
/-- The channel a group's angle comes from now. -/
def State.angleCh (s : State) (g : Fin 4) : Option Nat :=
  let p := s.rdN (Obj.posCh g.val)
  let h := s.rdN (Obj.startHallCh g.val)
  if s.rdN (Obj.starter g.val) = 2 ∧ !(s.grp.get g).angleFromCh then (if h < 4 then some h else none)
  else if p < 4 then some p else none

/-- The Starter gives the angle: alignment, open-angle rotation, and the rotation test. -/
def State.starterAngle (s : State) (g : Fin 4) : Bool :=
  let x := s.grp.get g
  decide (x.st = .starting) && decide (x.startPhase ≠ 0)
    && decide (s.rdN (Obj.starter g.val) = 1 ∨ s.rdN (Obj.starter g.val) = 4)
/-- A C3 block fault of feedback channel `n` is pending, really or by a live injection (R278, R369). -/
def State.fbHard (s : State) (n : Fin 4) : Bool :=
  s.flt.pend.any (fun p => decide (0x4801 ≤ p.code.toNat ∧ p.code.toNat ≤ 0x4807 ∧ p.cls = .c3)
    && decide (instIndex p.inst = n.val)
    && (!p.inj || s.flt.inj.any (fun j => j.live && j.code == p.code && j.inst == p.inst)))

/-- The detector of source 12 (over) or 13 (slope) has an input of the loaf beyond its threshold (R338, R339). -/
def State.detects (s : State) (i : Nat) (n : Fin 4) : Bool :=
  (List.range 4).any (fun k =>
    let c := s.conv.get (Fin.ofNat 6 k)
    (if i = 12 then c.overInputs else c.slopeOn).any (fun x => s.role k x / 16 % 4 == n.val))
/-- `PROT_STAT`, R352. -/
def State.protStat (s : State) (n : Fin 4) : Nat :=
  b2n (s.detects 12 n || (s.trip.get n).getLsbD 12) + 2 * b2n (s.detects 13 n || (s.trip.get n).getLsbD 13)
    + 4 * b2n ([1, 2, 3].any (fun r => s.roleLost n r)) + 8 * b2n (s.reconRuns n)
    + 16 * b2n (decide ((s.loaf.get n).st = .closed ∧ (s.oven.get n).opFrames ≠ 0))

end Sys2Proof.Machine
end

