-- ==== Sys2Proof/Machine/Flags.lean ====
section
/-! DEFINITION. Every check value and status word the rules compute: the CRCs, the applied pattern of a loaf, and
the status registers that show machine state. -/

namespace Sys2Proof.Machine

/-! ## Check values -/

/-- One bit of a CRC that shifts left. -/
def crcShift {w : Nat} (poly : BitVec w) (c : BitVec w) : BitVec w :=
  if c.msb then (c <<< 1) ^^^ poly else c <<< 1

/-- One byte of the CRC-8 of R119: polynomial 0x07, not reflected. -/
def crc8Step (c : BitVec 8) (b : Byte) : BitVec 8 := (List.range 8).foldl (fun x _ => crcShift 0x07 x) (c ^^^ b)
/-- CRC-8 of the host port, R119. -/
def crc8 (bs : List Byte) : BitVec 8 := bs.foldl crc8Step 0

/-- One byte of the CRC-16 of R30: polynomial 0x1021, not reflected. -/
def crc16Step (c : Half) (b : Byte) : Half :=
  (List.range 8).foldl (fun x _ => crcShift 0x1021 x) (c ^^^ (b.setWidth 16 <<< 8))
/-- CRC-16 of Peel (R30) and of the mirror link (R466), initial value 0xFFFF. -/
def crc16 (bs : List Byte) : Half := bs.foldl crc16Step 0xFFFF

/-- One byte of the reflected CRC-32 of R398. -/
def crc32Step (c : Word) (b : Byte) : Word :=
  (List.range 8).foldl (fun (x : Word) _ => if x.getLsbD 0 then (x >>> 1) ^^^ 0xEDB88320 else x >>> 1)
    (c ^^^ b.setWidth 32)
/-- CRC-32 of IEEE 802.3, R398. -/
def crc32 (bs : List Byte) : Word := ~~~ (bs.foldl crc32Step 0xFFFFFFFF)

/-! ## The pattern a loaf applies (R194 to R197) -/

/-- Nibble of loaf `n` in the map of source `i`, R200. -/
def State.mapNibble (s : State) (i : Nat) (n : Fin 4) : Nat := s.rdN (Obj.tripMap i) / 16 ^ n.val % 16

/-- The latch bits that force the loaf: those set, and those cleared since the last period start (R202, R205). -/
def State.latchBits (s : State) (n : Fin 4) : Nat := s.rdN (Obj.tripLatch n.val) ||| (s.loaf.get n).hold

/-- One of the latch bits given names a trip with the given target (false OFF, true SAFE), sources 0 to 13. The target is that
of the present `TRIP_MAP` nibble, also where the map was rewritten while the bit stood (DESIGN CHOICE: R202 does not say whether
the target is latched with the bit, log entry 157). -/
def State.targetOf (s : State) (n : Fin 4) (bits : Nat) (safe : Bool) : Bool :=
  (List.range 14).any (fun i => bits.testBit i && ((s.mapNibble i n).testBit 2 == safe))

/-- A latched trip of the loaf forces it towards the given target, a cleared one until the next period start (R202, R205). -/
def State.latchedTarget (s : State) (n : Fin 4) (safe : Bool) : Bool := s.targetOf n (s.latchBits n) safe

/-- The loaf safe state, AUTO resolved: ASC or OFF (R195, R196); OFF while a readback mismatch is latched (R70). -/
def State.safePattern (s : State) (n : Fin 4) : Pattern :=
  let x := s.rd (Obj.safeState n.val)
  if s.rd (Obj.readbackErr n.val) ≠ 0 then .off
  else if x = 1 then .asc else if x = 2 ∧ (s.loaf.get n).autoAsc then .asc else .off

/-- The Crust pattern as last latched, R206. -/
def State.crustPattern (s : State) (n : Fin 4) : Pattern := if (s.loaf.get n).crustAsc then .asc else .off

/-- Crust forces the loaf: source 14 or 15 latched, a halt, or the CK_CTL fault (rank 3 of R194). -/
def State.crustForce (s : State) (n : Fin 4) : Bool :=
  (s.latchBits n).testBit 14 || (s.latchBits n).testBit 15 || s.rdN Obj.haltCause != 0

/-- The rank of R194 that governs the loaf, 1 to 7. -/
def State.rank (s : State) (n : Fin 4) : Nat :=
  let l := s.loaf.get n
  if !s.safety.genC || !s.safety.genM || l.holdOff || !s.has n.val then 1
  else if s.latchedTarget n false then 2
  else if s.crustForce n then 3
  else if s.latchedTarget n true || decide (l.st = .isolated ∨ l.st = .fault) then 4
  else if decide (l.st = .off) || !l.running then 5
  else if l.gap then 6
  else 7

/-- The pattern the loaf applies, R194. -/
def State.pattern (s : State) (n : Fin 4) : Pattern :=
  match s.rank n with
  | 1 => .off
  | 2 => .off
  | 3 => s.crustPattern n
  | 4 => s.safePattern n
  | 5 => .off
  | 6 => .gap
  | _ => .pwm

/-- The level of `GENn`: low in OFF, high in every other pattern (R194). -/
def State.genN (s : State) (n : Fin 4) : Bool := decide (s.pattern n ≠ .off)

/-- `PWM_STAT`, R210. -/
def State.pwmStat (s : State) (n : Fin 4) : Nat :=
  let l := s.loaf.get n
  b2n l.running + 2 * b2n (decide (s.rdN (Obj.tripLatch n.val) ≠ 0)) + 4 * b2n l.gapCounted + 8 * b2n (s.crustForce n)
    + 16 * b2n l.autoAsc + 32 * b2n (!s.safety.genC || !s.safety.genM || l.holdOff) + 64 * (s.rank n - 1)

/-- `RUN_MASK`, R212. -/
def State.runMask (s : State) : Nat := (units4.map (fun n => b2n (s.loaf.get n).running * 2 ^ n.val)).sum
/-- The levels read back of `GEN_C` and `GEN_M` (R377). -/
def State.genReadC (s : State) : Bool := s.safety.genBackC.getD s.safety.genC
def State.genReadM (s : State) : Bool := s.safety.genBackM.getD s.safety.genM
/-- `GEN_LEVELS`, R212: the levels read back, which are the commanded ones but where a pad was found to differ. -/
def State.genLevels (s : State) : Nat :=
  (units4.map (fun n => b2n ((s.loaf.get n).genBack.getD (s.genN n)) * 2 ^ n.val)).sum
    + 16 * b2n s.genReadC + 32 * b2n s.genReadM

/-- Levels of the trip sources, R199: for a per-loaf source the OR over the loaves. -/
def tripLevels (q : Quad (BitVec 16)) : Nat :=
  ((List.range 16).map (fun i => b2n (units4.any (fun n => (q.get n).getLsbD i)) * 2 ^ i)).sum
/-- `TRIP_LEVEL`, R199. -/
def State.tripLevel (s : State) : Nat := tripLevels s.trip
/-- `TRIP_SYNC`, R199. -/
def State.tripSyncLevel (s : State) : Nat := tripLevels s.tripSync

/-! ## Converters -/

/-- The converter of a number. -/
def State.convAt (s : State) (k : Nat) : ConvSt := s.conv.get (Fin.ofNat 6 k)
/-- The regular sequence an object write has set. -/
def State.seqObj (s : State) (k : Nat) : List Nat :=
  (List.range (s.rdN (Obj.seqLen k))).map (fun e => s.rdN (Obj.seqReg k e))
/-- The regular sequence in force: that of the objects until the first sample (R220). -/
def State.seqNow (s : State) (k : Nat) : List Nat :=
  let c := s.convAt k
  if c.seqAct.isEmpty then s.seqObj k else c.seqAct

/-- The live open-wire comparison of a result of an input (R239). -/
def State.owBeyond (s : State) (k i : Nat) (v : Int) : Bool :=
  let lvl := s.rd (Obj.owLevel k)
  let ow := s.rd (Obj.chOw k i)
  (decide (ow = 1) && decide (lvl < v)) || (decide (ow = 2) && decide (v < -lvl))
/-- `OW_FLAGS`, R239: every input with the current on whose latest result lies beyond `OW_LEVEL`. -/
def State.owFlags (s : State) (k : Nat) : Nat :=
  ((List.range 9).map (fun i => b2n (s.owBeyond k i (s.rd (Obj.chResult k i))) * 2 ^ i)).sum

/-! ## Module status -/

/-- A present converter lacks `REF_READY`. -/
def State.refMissing (s : State) : Bool := units6.any (fun k => s.hasConv k.val && !(s.power.refReady.get k))
/-- `REF_READY_ALL`, R113. -/
def State.refReadyAll (s : State) : Nat :=
  (units6.map (fun k => b2n (s.hasConv k.val && s.power.refReady.get k) * 2 ^ k.val)).sum

/-- `READY_BLOCK`, R113. -/
def State.readyBlock (s : State) : Nat :=
  if !s.boot.loading then 1
  else b2n (!s.boot.imageDone)
    + 2 * b2n (!s.boot.bindDone || decide (s.boot.bindRes = 1))
    + 4 * b2n (s.boot.bindDone && (decide (s.boot.bindRes = 2)
        || (decide (s.boot.bindRes = 0) && !(s.boot.readDone && s.boot.readOk))))
    + 8 * b2n s.refMissing + 16 * b2n s.c4Pending + 32 * b2n (!s.boot.peelTrained)

/-- The Peel timer of region C has run for more than 2 ms (R39). -/
def State.peelLate (s : State) : Bool :=
  s.peelC.timedOut || (match s.peelC.timer with
    | some t0 => decide (t0 + 2 * msCycles < s.time.now)
    | none => false)

/-- Every condition of R367 under which `BEAT` toggles. -/
def State.beatOk (s : State) : Bool :=
  s.boot.hbSeen && !s.peelLate && s.flt.pend.all (fun p => decide (p.cls ≠ .c3 ∧ p.cls ≠ .c4))
    && decide (s.mode ≠ .safe ∧ s.mode ≠ .standby)

/-- A safety function is demanded in either channel: STO, SS1-t, a guard open, the brake (R384, R389). -/
def State.demanded (s : State) : Bool :=
  s.safety.stoC || s.safety.stoM || s.safety.ss1C || s.safety.ss1M || s.safety.guardOpenC || s.safety.guardOpenM
    || (decide (s.rd Obj.sbcEn = 1) && (s.safety.brakeDemC || s.safety.brakeDemM))

/-- `SAFE_OK`, R404. -/
def State.safeOk (s : State) : Bool :=
  decide (s.mode = .ready ∨ s.mode = .operational) && s.safety.genC && s.safety.genM && !s.demanded

/-- Role of the host-port session, R165. -/
def State.hostRole (s : State) : Nat := match s.sec.session with
  | some r => r.1
  | none => 0

/-- `MOD_STATUS`, R127. -/
def State.modStatus (s : State) : Nat :=
  s.mode.code + 8 * b2n s.flt.beating + 16 * b2n s.safeOk + 32 * s.hostRole
    + (units4.map (fun g => b2n (decide ((s.grp.get g).st ≠ .stopped)) * 2 ^ (8 + g.val))).sum
    + 65536 * s.readyBlock

/-- `FAULT_SUM`, R127. -/
def State.faultSum (s : State) : Nat :=
  ((List.range 5).map (fun c => b2n (s.flt.pend.any (fun p => p.cls.num == c)) * 2 ^ c)).sum
    + 65536 * min s.flt.sinceReset 0xFFFF

/-- `MB_STATUS`, R127. -/
def State.mbStatus (s : State) : Nat :=
  (units4.map (fun n => let m := s.mb.get n
    b2n m.inBusy * 2 ^ n.val + b2n m.outFull * 2 ^ (4 + n.val) + b2n m.job.isSome * 2 ^ (8 + n.val))).sum

/-- `IRQ_PEND`, R127, and the level of `HIRQ_N` (low while it is not 0, R125). -/
def State.irqPend (s : State) : Word := s.host.irqFlags &&& s.host.irqEn
def State.hirqLow (s : State) : Bool := decide (s.irqPend ≠ 0)

/-- `SAFE_STAT`, R407. -/
def State.safeStat (s : State) : Nat :=
  let f := s.safety
  b2n (f.stoC || f.stoM) + 2 * b2n (f.ss1C || f.ss1M) + 4 * b2n (f.guardOpenC || f.guardOpenM)
    + 8 * b2n f.guardPass + 16 * b2n f.genC + 32 * b2n f.genM + 64 * b2n (f.brkA && f.brkB)
    + 128 * b2n f.coverSince + 256 * b2n f.governs.isSome
/-- `SAFE_INPUTS`, R407. -/
def State.safeInputs (s : State) : Nat :=
  (units4.map (fun i => b2n (s.safety.viewC.get i) * 2 ^ i.val + b2n (s.safety.viewM.get i) * 2 ^ (4 + i.val))).sum

/-- `CLK_STATUS`, R113. The reference oscillator shows as stopped where both clocks made from it stand faulted: a stopped one
stops both (R100; DEDUCED, log entry 156). -/
def State.clkStatus (s : State) : Nat :=
  b2n (s.boot.pllLocked && !s.power.ckCtlBad) + 2 * b2n (s.boot.pllLocked && !(s.power.ckAdcBad && !s.power.ckAdcBack))
    + 4 * b2n (!s.power.ckMgtBad) + 8 * b2n (!s.power.ckSafeBad) + 16 * b2n (!s.power.standbyClkBad)
    + 32 * b2n (!(s.power.ckCtlBad && s.power.ckAdcBad && !s.power.ckAdcBack))

/-- `BEAT_STAT`, R373. -/
def State.beatStat (s : State) : Nat :=
  b2n s.flt.beating + 2 * b2n (s.boot.hbSeen && !s.peelLate)
    + 4 * b2n (s.flt.pend.any (fun p => decide (p.cls = .c3 ∨ p.cls = .c4))) + 8 * b2n (decide (s.mode = .safe))

/-- `POS_VALID` and `SPD_VALID`: clear while `FB_INVALID` is set (R277). -/
def FbSt.posOk (f : FbSt) : Bool := f.posValid && !f.invalid
def FbSt.spdOk (f : FbSt) : Bool := f.spdValid && !f.invalid
/-- `FB_STAT`, R279. -/
def FbSt.stat (f : FbSt) : Nat :=
  b2n f.posOk + 2 * b2n f.posRef + 4 * b2n f.spdOk + 8 * b2n f.dirNeg + 16 * b2n f.standstill
    + 32 * b2n f.armed + 64 * b2n f.slip + 128 * b2n f.stale + 256 * b2n f.invalid

end Sys2Proof.Machine
end

