-- ==== Sys2Proof/Machine/FbCount.lean ====
section
/-! DEFINITION. Counting and the position format of a feedback channel (R251, R252, R256 to R258). -/

namespace Sys2Proof.Machine

/-- Counts per revolution of a mode (R251); the serial modes have none and take the incremental figure where a rule needs one. -/
def fbCpr (mode res : Nat) : Nat := if mode = 2 then 6 * res else 4 * res
/-- Counts per revolution of channel `n`. -/
def State.cpr (s : State) (n : Fin 4) : Nat := fbCpr (s.rdN (Obj.fbMode n.val)) (s.rdN (Obj.fbRes n.val))

/-- The place of the state (A, B) in forward order (R256). -/
def quadIdx (a b : Bool) : Nat :=
  match a, b with
  | true, true => 0
  | true, false => 1
  | false, false => 2
  | false, true => 3
/-- The same with A and B exchanged under `FB_DIR_INV`. -/
def quadOf (inv a b : Bool) : Nat := if inv then quadIdx b a else quadIdx a b

/-- The sector of a Hall state (U, V, W), R258; none for an invalid state. -/
def hallSector (u v w : Bool) : Option Nat :=
  match u, v, w with
  | true, false, false => some 0
  | true, true, false => some 1
  | false, true, false => some 2
  | false, true, true => some 3
  | false, false, true => some 4
  | true, false, true => some 5
  | _, _, _ => none
/-- The sector as counted: `FB_DIR_INV` reverses the order and keeps sector 0. -/
def hallOf (inv u v w : Bool) : Option Nat := (hallSector u v w).map (fun k => if inv then (6 - k) % 6 else k)

/-- `FB_DIR_INV` of a channel. -/
def State.dirInv (s : State) (n : Fin 4) : Bool := decide (s.rd (Obj.fbDirInv n.val) = 1)

/-- CK_CTL cycles in a second. -/
def hzCtl : Rat := 200000000
/-- Rounded to nearest, ties away from zero (R228, R229, R271). -/
def roundAway (x : Rat) : Int := if x < 0 then -((-x + 1 / 2).floor) else (x + 1 / 2).floor

/-- The tracks the channel counts: the comparators' in mode 5, else the pads' (R256, R263). -/
def State.tracks (s : State) (n : Fin 4) : Bool × Bool :=
  let f := s.fb.get n
  if s.rd (Obj.fbMode n.val) = 5 then (f.compA, f.compB) else (f.a, f.b)

/-- A position in 2^-25 revolution shown in `FB_POS` and `FB_TURNS` (R257). -/
def State.showPos (n : Fin 4) (p : Int) (s : State) : State :=
  (s.wr (Obj.fbPos n.val) (p % 2 ^ 25)).wr (Obj.fbTurns n.val) (signExt 16 (toBits 16 (p / 2 ^ 25)))
/-- The position of a count (R257): turns and truncated fraction, in 2^-25 revolution. -/
def posOfCount (c : Int) (cpr : Nat) : Int := c / (cpr : Int) * 2 ^ 25 + c % (cpr : Int) * 2 ^ 25 / (cpr : Int)
/-- The accumulated count shown in `FB_COUNT`. -/
def State.showCount (n : Fin 4) (c : Int) (s : State) : State := s.wr (Obj.fbCount n.val) (signExt 32 (toBits 32 c))

/-- The ends and the centre of a Hall sector in 2^-25 revolution (R258), truncated as counts are (R257; DESIGN CHOICE: R258 names no
rounding, log entry 203). -/
def hallLow (c : Int) (cpr : Nat) : Int := c * 2 ^ 25 / (cpr : Int)
def hallHigh (c : Int) (cpr : Nat) : Int := (c + 1) * 2 ^ 25 / (cpr : Int) - 1
def hallMid (c : Int) (cpr : Nat) : Int := (2 * c + 1) * 2 ^ 25 / (2 * (cpr : Int))

/-- The count a channel starts with from its present levels: the state's place, the Hall sector, else 0 (R252, R256, R258). The
sector of an invalid Hall state is not stated: free. -/
def State.startCount (s : State) (n : Fin 4) : Int :=
  let f := s.fb.get n
  let mode := s.rd (Obj.fbMode n.val)
  if mode = 1 ∨ mode = 5 then (quadOf (s.dirInv n) (s.tracks n).1 (s.tracks n).2 : Int)
  else if mode = 2 then
    match hallOf (s.dirInv n) f.a f.b f.z with
    | some k => (k : Int)
    | none => Config.pastRange (Obj.fbCount n.val) 0 % 6
  else 0

/-- The gate condition of the index holds on the present filtered levels (R259). -/
def State.indexGate (s : State) (n : Fin 4) : Bool :=
  let x := s.tracks n
  (s.fb.get n).z && (decide (s.rd (Obj.fbMode n.val) = 1 ∧ s.rd (Obj.idxGate n.val) = 0) || (x.1 && x.2))

/-- A Hall channel stands in an invalid state from `t`, or from before (R258). -/
def State.invalidSince (s : State) (n : Fin 4) (t : Nat) : Option Nat :=
  let f := s.fb.get n
  if (hallSector f.a f.b f.z).isSome then none else some (f.hallT.getD t)

/-- A feedback channel restarted, R252: what it counts, its reference and its estimates start again. The pads' and comparators'
levels, the results of CV4, the slip latch, a transfer running, `FB_INVALID` and what the Oven has been handed stand. -/
def State.fbRestart (n : Fin 4) (s : State) : State :=
  let c := s.startCount n
  let mode := s.rd (Obj.fbMode n.val)
  let mid := hallMid c (s.cpr n)
  let s1 := (s.clear [Obj.fbCount n.val, Obj.fbTurns n.val, Obj.fbPos n.val, Obj.spd n.val, Obj.spdEdge n.val, Obj.spdCnt n.val]).modFb n
    (fun f => { ({} : FbSt) with
      a := f.a, b := f.b, z := f.z, compA := f.compA, compB := f.compB, slip := f.slip, invalid := f.invalid, latch := f.latch
      serBusy := f.serBusy, serFor := f.serFor, serLate := f.serBusy.isSome, serEndT := f.serEndT
      sinLast := f.sinLast, cosLast := f.cosLast, scHist := f.scHist.map (fun p => { p with count := c, corr := 0 })
      count := c, qcount := c, hist := [(s.time.now, c, 0)], posT := s.time.now, hallPos := mid
      hallT := s.invalidSince n s.time.now, startT := s.time.now, gateWas := s.indexGate n, posValid := decide (mode = 1 ∨ mode = 2) })
  if mode = 1 then (s1.showCount n c).showPos n (posOfCount c (s.cpr n))
  else if mode = 2 then (s1.showCount n c).showPos n mid
  else s1

/-- The position of a Hall channel at `t`: from its last move it advances by the speed within its sector (R258), rounded to nearest
(DESIGN CHOICE, log entry 203). -/
def State.hallAt (s : State) (n : Fin 4) (t : Nat) : Int :=
  let f := s.fb.get n
  if f.spdOk ∧ f.posT < t then
    clampI (hallLow f.count (s.cpr n)) (hallHigh f.count (s.cpr n))
      (f.hallPos + roundAway (f.vShown * ((t - f.posT : Nat) : Rat) / hzCtl * 2 ^ 25))
  else f.hallPos

/-- The position of a channel at `t` with its turns, in 2^-25 revolution: in modes 3 to 5 the latest usable sample carried to it
while the speed is valid (R257, R258, R270). -/
def State.posAt (s : State) (n : Fin 4) (t : Nat) : Int :=
  let f := s.fb.get n
  let mode := s.rd (Obj.fbMode n.val)
  if mode = 1 then posOfCount f.count (s.cpr n)
  else if mode = 2 then s.hallAt n t
  else if mode = 3 ∨ mode = 4 ∨ mode = 5 then
    f.serPos + (if f.spdOk then roundAway (f.vShown * (((t : Int) - (f.sampT : Int)) : Int) / hzCtl * 2 ^ 25) else 0)
  else 0

/-- A taken write of `FB_RES`: the reported position follows the new counts per revolution (R257); a Hall channel stands at the
centre of its sector again. -/
def State.fbRescale (n : Fin 4) (s : State) : State :=
  let f := s.fb.get n
  let mode := s.rd (Obj.fbMode n.val)
  if mode = 1 then s.showPos n (posOfCount f.count (s.cpr n))
  else if mode = 2 then
    (s.modFb n (fun f => { f with hallPos := hallMid f.count (s.cpr n), posT := s.time.now })).showPos n (hallMid f.count (s.cpr n))
  else if mode = 5 then
    let p := posOfCount f.interp (4096 * s.rdN (Obj.fbRes n.val))
    (s.modFb n (fun f => { f with serPos := p })).showPos n p
  else s

end Sys2Proof.Machine
end

