-- ==== Sys2Proof/Machine/Mirror.lean ====
section
/-! DEFINITION. The mirror frames a module sends: STATE and RELEASE (R466), HELLO (R467). -/

namespace Sys2Proof.Machine

/-- The pair group, `PR_GROUP`. -/
def State.prGroup (s : State) : Fin 4 := Fin.ofNat 4 (s.rdN Obj.prGroup)

/-- SW2–SW3 select a side: 1 side A, 2 side B (R457). -/
def State.prSide (s : State) : Nat := fieldOf s.power.swReset.toNat 2 2
/-- The pair pads are used: side A or side B. -/
def State.paired (s : State) : Bool := decide (s.prSide = 1 ∨ s.prSide = 2)

/-- A word of Q16.16 of an exact value (R4; the rounding is free). -/
def q16Word (q : Rat) : Nat := toBits 32 (showInt (q * 65536))
/-- A word of thousandths of an exact value: N·m shown in mN·m, A in mA (R5; the rounding is free). -/
def milliWord (q : Rat) : Nat := toBits 32 (showInt (q * 1000))
/-- Position fraction and turns of R5 of a position in revolutions. -/
def posWord (q : Rat) : Nat := toBits 25 (showInt ((q - q.floor) * 2 ^ 25))
def posTurns (q : Rat) : Nat := toBits 16 q.floor
/-- A value held with 28 fraction bits (R285). -/
def q28Word (q : Rat) : Nat := toBits 32 (showInt (q * 2 ^ 28))
/-- A current or voltage fraction as the frame record carries it, I16 (R285). -/
def recI16 (q : Rat) : Nat := toBits 16 (clampI (-32767) 32767 (showInt (q * 32768)))

/-- Classes pending on a group or its loaves, bit c (bytes 18–19). -/
def State.groupClasses (s : State) (g : Fin 4) : Nat :=
  ((List.range 5).map (fun c => b2n (s.flt.pend.any
    (fun p => p.cls.num == c && (s.targetGroups p.code p.inst).contains g)) * 2 ^ c)).sum

/-- R472: ready to take over. -/
def State.takeReady (s : State) : Bool :=
  s.paired && !s.pair.roleAct && decide (s.mode = .ready ∨ s.mode = .operational)
    && s.flt.pend.all (fun p => !(decide (p.cls = .c3 ∨ p.cls = .c4) && (s.targetGroups p.code p.inst).contains s.prGroup))

/-- The last mirror frame taken is one of 130 bytes whose flag bit `b` is set (R466). -/
def State.lastFlag (s : State) (b : Nat) : Bool :=
  decide (s.pair.last.length = 130) && (s.pair.last.getD 2 0).getLsbD b

/-- `ROLE_PARTNER` through the filter of `PR_ACT_FILT` (R462). -/
def State.partnerFilt (s : State) : Bool :=
  if s.rdN Obj.prActFilt ≤ 5 * (s.time.now - s.pair.partnerT) then s.pair.partner else s.pair.partnerF

/-- A pending request for assertion with its trigger's data; 0 stands for side A, which has no trigger (R472). -/
def State.takeRequest (s : State) : Option Nat :=
  if !s.takeReady then none
  else if s.prSide = 1 then (if s.lastFlag 5 then none else some 0)
  else if s.lastFlag 2 then some 4
  else if s.lastFlag 1 && decide (leAt s.pair.last 0 1 = 2) then some 1
  else if s.pair.lost && s.lastFlag 0 then some 2
  else if s.pair.bWait && !s.pair.trained then some 3
  else none

/-- Flags of byte 2 of a STATE or RELEASE frame. -/
def State.mirrorFlags (s : State) (takeover : Bool) : Nat :=
  b2n s.pair.roleAct + 2 * b2n takeover + 4 * b2n s.pair.handover + 8 * b2n s.takeReady
    + 16 * b2n (decide (s.prSide = 2)) + 32 * b2n s.takeRequest.isSome

/-- Loaf slot `m` of a STATE frame, 12 bytes (R466). -/
def State.mirrorSlot (s : State) (m : Fin 4) : List Byte :=
  let o := s.oven.get m
  let closed := decide ((s.loaf.get m).st = .closed)
  leBytes 4 (if closed then q28Word o.xd else 0) ++ leBytes 4 (if closed then q28Word o.xq else 0)
    ++ leBytes 2 (recI16 o.id) ++ leBytes 2 (recI16 o.iq)

/-- Bytes 4 to 35 of a STATE frame. -/
def State.mirrorHead (s : State) : List Byte :=
  let g := s.grp.get s.prGroup
  leBytes 4 g.frame ++ leBytes 4 (s.time.now % 2 ^ 32) ++ leBytes 4 (s.pair.rxT % 2 ^ 32)
    ++ leBytes 1 s.pair.rxSeq
    ++ leBytes 1 ((units4.map (fun n => b2n (decide ((s.loaf.get n).st = .closed)) * 2 ^ n.val)).sum
        + 16 * (units4.map (fun n => b2n (decide (s.pattern n = .asc)) * 2 ^ n.val)).sum)
    ++ leBytes 2 (s.groupClasses s.prGroup)
    ++ leBytes 4 (q16Word g.v) ++ leBytes 4 (q16Word g.a) ++ leBytes 4 (posWord g.pos) ++ leBytes 2 (posTurns g.pos)
    ++ leBytes 2 0

/-- Bytes 36 to 79 of a STATE frame. -/
def State.mirrorTail (s : State) : List Byte :=
  let g := s.grp.get s.prGroup
  let gi := s.prGroup.val
  let ch := s.rdN (Obj.posCh gi)
  let tgt := (g.nextTarget.orElse (fun _ => g.target)).getD (0, 0, 0)
  let pos := (s.posHanded s.prGroup).getD (s.rd (Obj.fbTurns ch) * 2 ^ 25 + s.rd (Obj.fbPos ch))
  leBytes 4 (milliWord g.y) ++ leBytes 4 (milliWord g.z)
    ++ leBytes 4 (if s.rd Obj.prMode = 1 ∧ s.pair.roleAct then milliWord s.pair.tauF else milliWord g.torque)
    ++ leBytes 4 tgt.2.1.toNat ++ leBytes 2 (toBits 16 tgt.2.2) ++ leBytes 1 tgt.1 ++ leBytes 1 0
    ++ (if ch < 4 then leBytes 4 (pos % 2 ^ 25).toNat ++ leBytes 2 (toBits 16 (pos / 2 ^ 25)) else leBytes 6 0)
    ++ leBytes 2 0 ++ leBytes 4 (q16Word g.speed)
    ++ leBytes 4 (toBits 32 (s.rd (Obj.capTrq gi))) ++ leBytes 4 (toBits 32 (s.rd (Obj.dragTrq gi)))
    ++ leBytes 4 g.thetaB

/-- A STATE (0) or RELEASE (2) frame of 130 bytes, R466. -/
def State.mirrorFrame (s : State) (typ : Nat) (takeover : Bool) : List Byte :=
  let body := leBytes 1 typ ++ leBytes 1 (s.pair.txSeq % 256) ++ leBytes 1 (s.mirrorFlags takeover)
    ++ leBytes 1 (s.mode.code + 16 * (s.grp.get s.prGroup).st.code)
    ++ s.mirrorHead ++ s.mirrorTail ++ (units4.flatMap s.mirrorSlot)
  body ++ leBytes 2 (crc16 body).toNat

/-- Bytes a type's value takes in `PR_CFG_CRC` (PRESUMED: its width, least significant byte first, R2). -/
def ObjTy.bytes : ObjTy → Nat
  | .u8 => 1
  | .i16 => 2
  | .u16 => 2
  | .u64 => 8
  | _ => 4

/-- The value bytes of the class A (active bank) and class B objects of a range of unit 0, as unit `n` holds them. -/
def State.cfgBytes (s : State) (tbl : List ObjRow) (lo n bank : Nat) : List Byte :=
  (tbl.filter (fun r => decide (lo ≤ r.idx ∧ r.idx < lo + 0x100) && decide (r.cls ≠ .none))).flatMap (fun r =>
    (List.range (r.hi + 1 - r.lo)).flatMap (fun i =>
      let a := (r.idx + 0x100 * n) * 0x100 + r.lo + i
      leBytes r.ty.bytes (toBits (8 * r.ty.bytes) (s.rd (if r.cls = .a then a + bank else a)))))

/-- `PR_CFG_CRC`, R467: in hot standby the bound loaves' objects are covered too. -/
def State.prCfgCrc (s : State) : Word :=
  let g := s.prGroup
  let bank := s.bankOfGroup g
  let ls := if s.rd Obj.prMode = 0 then s.bound g else []
  let per := fun (tbl : List ObjRow) (lo : Nat) => ls.flatMap (fun n => s.cfgBytes tbl lo n.val bank)
  crc32 (per rowsPwm 0x2000 ++ per rowsOven 0x5000 ++ s.cfgBytes (rowsOven ++ rowsMulti) 0x5400 g.val bank
    ++ per rowsOven 0x5800 ++ per rowsMulti 0x5C00)

/-- A HELLO frame, R467. -/
def State.helloFrame (s : State) : List Byte :=
  let gi := s.prGroup.val
  let n := match s.bound s.prGroup with
    | m :: _ => m.val
    | [] => 0
  let body := leBytes 1 1 ++ leBytes 1 (s.pair.txSeq % 256) ++ leBytes 1 s.prSide ++ leBytes 1 (s.rdN Obj.prMode)
    ++ leBytes 1 gi ++ leBytes 1 (s.rdN (Obj.cntMode n)) ++ leBytes 1 (s.rdN (Obj.frameLen n))
    ++ leBytes 1 (s.rdN (Obj.ctrlMode gi)) ++ leBytes 4 (s.rdN (Obj.period n))
    ++ leBytes 1 (s.rdN (Obj.spdDiv gi)) ++ leBytes 1 (s.rdN (Obj.posDiv gi)) ++ leBytes 2 0
    ++ leBytes 4 s.prCfgCrc.toNat ++ List.replicate 108 0
  body ++ leBytes 2 (crc16 body).toNat

/-- A mirror frame leaves: it is the last frame sent and the sequence number moves on. -/
def State.mirrorSend (s : State) (frame : List Byte) : State :=
  { s with pair := { s.pair with sent := frame, txSeq := (s.pair.txSeq + 1) % 256 } }

/-- `ROLE_ACT` released and the RELEASE frame sent (R464); nothing where it is not asserted. -/
def State.releaseRole (s : State) (takeover : Bool) : State :=
  if s.pair.roleAct then
    let s1 : State := { s with pair := { s.pair with roleAct := false } }
    s1.mirrorSend (s1.mirrorFrame 2 takeover)
  else s

/-- `PR_ROLE`, R459; until the switches have been read it holds its default (R8, R478). -/
def State.prRole (s : State) : Nat :=
  if s.boot.stage = .off ∨ s.boot.stage = .inReset ∨ s.boot.stage = .released then 5
  else if s.prSide = 0 then 0
  else if s.prSide = 3 then 6
  else if s.pair.roleAct then (if s.rd Obj.prMode = 1 then 3 else 1)
  else if s.pair.trained && (s.pair.last.getD 2 0).getLsbD 0 then (if s.rd Obj.prMode = 1 then 4 else 2)
  else 5

end Sys2Proof.Machine
end

