-- ==== Sys2Proof/Machine/Operands.lean ====
section
/-! DEFINITION. Operand forms: Peel packets and their classes (R30, R31), the words of firmware commands (R140),
object address words and value words (R146 to R148). -/

namespace Sys2Proof.Machine

/-! ## Peel packets -/

/-- Packet kinds of R31. -/
inductive PktKind where
  | fault | heartbeat | sync | event
  | record | capture
  | objWr | objRd | cmd | objRsp | cmdRsp
  | ack | nak | train
deriving DecidableEq, Repr

/-- CLASS of a kind, R31. -/
def PktKind.cls : PktKind → Nat
  | .fault | .heartbeat | .sync | .event => 0
  | .record | .capture => 1
  | .objWr | .objRd | .cmd | .objRsp | .cmdRsp => 2
  | .ack | .nak | .train => 3

/-- TYPE within the class: the order of R31's table (PRESUMED: the manual gives the types no numbers). -/
def PktKind.typ : PktKind → Nat
  | .fault | .record | .objWr | .ack => 0
  | .heartbeat | .capture | .objRd | .nak => 1
  | .sync | .cmd | .train => 2
  | .event | .objRsp => 3
  | .cmdRsp => 4

/-- Transmit priority of a class, R31: 0 is highest. -/
def clsPriority (cls : Nat) : Nat := match cls with
  | 3 => 0
  | 0 => 1
  | 1 => 2
  | _ => 3

/-- Byte 0 of a packet of a kind, R30. -/
def PktKind.head (k : PktKind) : Byte := BitVec.ofNat 8 (64 * k.cls + k.typ)
/-- CLASS of a packet. -/
def pktCls (p : Packet) : Nat := p.clsTyp.toNat / 64
/-- A packet of a kind, not yet numbered. -/
def pkt (k : PktKind) (payload : List Byte) : Packet := ⟨k.head, 0, 0, payload, 0⟩
/-- Bytes 0 to 3 + LEN of a packet, over which its CRC runs (R30). -/
def pktBody (p : Packet) : List Byte :=
  [p.clsTyp, p.seq, BitVec.ofNat 8 p.payload.length, p.ackseq] ++ p.payload
/-- The packet with its CRC filled in. -/
def pktSeal (p : Packet) : Packet := { p with crc := crc16 (pktBody p) }
/-- The receiver's test of R30. -/
def pktGood (p : Packet) : Bool := decide (p.crc = crc16 (pktBody p) ∧ p.payload.length ≤ 64)

/-- A packet entered in the transmit queue of region C or M under its arbiter source (R34, R41). -/
def State.enqueue (r : Region) (src : Nat) (p : Packet) (s : State) : State :=
  match r with
  | .c => { s with peelC := { s.peelC with waiting := s.peelC.waiting ++ [(src, p, s.time.now)] } }
  | .m => { s with peelM := { s.peelM with waiting := s.peelM.waiting ++ [(src, p, s.time.now)] } }

/-- A packet of region M enters its queue and takes its effect with the command that sends it: the region's one executor gives the
command's effect at once, and the packet crosses Peel without another (DEDUCED: R149 answers such a command once it has acted, log
entry 28). -/
def State.carry (src : Nat) (p : Packet) (s : State) : State :=
  ({ s with cmd := { s.cmd with carried := s.cmd.carried ++ [(p.clsTyp, p.payload)] } }).enqueue .m src p

/-- What an arriving packet does, where no command has taken its effect before. -/
def State.unlessCarried (p : Packet) (f : State → State) (s : State) : State :=
  if s.cmd.carried.contains (p.clsTyp, p.payload) then
    { s with cmd := { s.cmd with carried := s.cmd.carried.erase (p.clsTyp, p.payload) } }
  else f s

/-- A source's place at the arbiter of management packets: four mailboxes, four sessions (R41). -/
def srcNum : Source → Nat
  | .mb n => n.val
  | .net c => 4 + c.val

/-- Payload of a `FAULT` packet from region M: code, instance, action (R366). -/
def faultPayload (code inst : Half) (action : Nat) : List Byte :=
  leBytes 2 code.toNat ++ leBytes 2 inst.toNat ++ leBytes 1 action ++ leBytes 3 0

/-- Payload of a `FAULT` packet from region C: code, instance, event and flags, stamp bits 25:2 (R366). -/
def eventPayload (e : Event) : List Byte :=
  leBytes 2 e.code.toNat ++ leBytes 2 e.inst.toNat ++ leBytes 1 (e.event % 8 + 8 * (e.flags % 32))
    ++ leBytes 3 (e.stamp / 4 % 2 ^ 24)

/-- Code, instance and byte 4 of a `FAULT` packet. -/
def pktCode (p : Packet) : Half := BitVec.ofNat 16 (leAt p.payload 0 2)
def pktInst (p : Packet) : Half := BitVec.ofNat 16 (leAt p.payload 2 2)
def pktAction (p : Packet) : Nat := leAt p.payload 4 1

/-! ## Command words, R140 -/

/-- CMD, TAG and LEN of word 0. -/
def cmdCode (w : Word) : Nat := w.toNat / 65536
def cmdTag (w : Word) : Nat := w.toNat / 256 % 256
def cmdLen (w : Word) : Nat := w.toNat % 256
/-- Word 0 of a response. -/
def respWord (status tag len : Nat) : Word := BitVec.ofNat 32 (status * 65536 + tag * 256 + len)

/-- Status codes, R144. -/
def stOk : Nat := 0
def stBusy : Nat := 1
def stUnknown : Nat := 2
def stLength : Nat := 3
def stAccess : Nat := 4
def stState : Nat := 5
def stCrc : Nat := 6
def stTimeout : Nat := 7

/-- Command codes, R149. -/
def cEcho : Nat := 0x0001
def cGet : Nat := 0x0010
def cSet : Nat := 0x0011
def cGetBlock : Nat := 0x0012
def cSetBlock : Nat := 0x0013
def cSwapBank : Nat := 0x0020
def cLoafState : Nat := 0x0030
def cGroupState : Nat := 0x0031
def cMove : Nat := 0x0040
def cFaultAck : Nat := 0x0050
def cFaultClear : Nat := 0x0051
def cCalZero : Nat := 0x0060
def cCalFull : Nat := 0x0061
def cCaptureArm : Nat := 0x0070
def cCaptureRead : Nat := 0x0071
def cSubscribe : Nat := 0x0080
def cSessionOpen : Nat := 0x0090
def cSessionAuth : Nat := 0x0091
def cSessionClose : Nat := 0x0092
def cUpdateBegin : Nat := 0x00A0
def cUpdateChunk : Nat := 0x00A1
def cUpdateCommit : Nat := 0x00A2
def cSafetyLoad : Nat := 0x00B0
def cSafetyAccept : Nat := 0x00B1
def cInject : Nat := 0x00C0
def cPairHandover : Nat := 0x00D0
def cTimeStep : Nat := 0x00E0

/-- Every code of R149. -/
def allCodes : List Nat :=
  [cEcho, cGet, cSet, cGetBlock, cSetBlock, cSwapBank, cLoafState, cGroupState, cMove, cFaultAck, cFaultClear,
   cCalZero, cCalFull, cCaptureArm, cCaptureRead, cSubscribe, cSessionOpen, cSessionAuth, cSessionClose,
   cUpdateBegin, cUpdateChunk, cUpdateCommit, cSafetyLoad, cSafetyAccept, cInject, cPairHandover, cTimeStep]

/-! ## Object address words, R146 to R148 -/

/-- INDEX, SUB, ACTIVE and TYPE of an address word; the store address of its object. -/
def awAddr (w : Word) : Nat := w.toNat / 256
def awActive (w : Word) : Bool := w.getLsbD 4
def awType (w : Word) : Nat := w.toNat % 16
/-- A reserved bit of the address word is set. -/
def awReserved (w : Word) : Bool := decide (w.toNat / 32 % 8 ≠ 0)

/-- TYPE codes, R147. -/
def ObjTy.code : ObjTy → Nat
  | .u8 => 1
  | .i16 => 2
  | .u16 => 3
  | .i32 => 4
  | .u32 => 5
  | .u64 => 6
  | .q16 => 7
  | .blob => 8

/-- Value words of a scalar TYPE code, 0 for a code R147 does not list or does not allow in `GET` and `SET`. -/
def typeWords (t : Nat) : Nat := if t = 6 then 2 else if 1 ≤ t ∧ t ≤ 7 then 1 else 0

/-- The value of words under a TYPE, none where the upper bits are not its extension (R148). -/
def decodeValue (t : Nat) (ws : List Word) : Option Int :=
  match t, ws with
  | 1, [w] => if w.toNat < 2 ^ 8 then some w.toNat else none
  | 2, [w] => if signExt 32 w.toNat = signExt 16 w.toNat then some (signExt 16 w.toNat) else none
  | 3, [w] => if w.toNat < 2 ^ 16 then some w.toNat else none
  | 4, [w] => some (signExt 32 w.toNat)
  | 5, [w] => some w.toNat
  | 6, [l, h] => some ((l.toNat + 2 ^ 32 * h.toNat : Nat) : Int)
  | 7, [w] => some (signExt 32 w.toNat)
  | _, _ => none

/-- The words a value travels in, R147, R148. -/
def encodeValue (t : Nat) (v : Int) : List Word :=
  if t = 6 then [BitVec.ofNat 32 (toBits 32 v), BitVec.ofNat 32 (toBits 64 v / 2 ^ 32)]
  else [BitVec.ofInt 32 v]

/-- Does a word of a `SET` payload name an address that can be taken (R145)? -/
def awTakes (w : Word) (rest : List Word) : Bool :=
  !awReserved w && decide (typeWords (awType w) ≠ 0) && decide (typeWords (awType w) ≤ rest.length)

/-- A `SET` payload split into its writes as far as it can be taken, and whether all of it was (R145, R149). -/
def splitSet : List Word → Nat → List (Word × List Word) × Bool
  | [], _ => ([], true)
  | _ :: _, 0 => ([], false)
  | w :: rest, fuel + 1 =>
    if awTakes w rest then
      let k := typeWords (awType w)
      let r := splitSet (rest.drop k) fuel
      ((w, rest.take k) :: r.1, r.2)
    else ([], false)

end Sys2Proof.Machine
end

