-- ==== Sys2Proof/Machine/Reply.lean ====
section
/-! DEFINITION. The responses of firmware commands (R140 to R144): where a job stands, how it is answered, and which waiting
jobs the present state answers (R143). -/

namespace Sys2Proof.Machine

/-! ## Jobs and responses -/

/-- The command a source has executing. -/
def State.jobOf (s : State) (src : Source) : Option Job := match src with
  | .mb n => (s.mb.get n).job
  | .net c => (s.net.conns.get c).job
/-- A connection changed. -/
def State.modConn (s : State) (c : Fin 4) (f : Conn → Conn) : State :=
  s.modNet (fun n => { n with conns := n.conns.set c (f (n.conns.get c)) })
/-- The job of a source written. -/
def State.setJob (src : Source) (j : Option Job) (s : State) : State := match src with
  | .mb n => s.modMb n (fun m => { m with job := j })
  | .net c => s.modConn c (fun k => { k with job := j })
/-- Every source. -/
def allSources : List Source := units4.map Source.mb ++ units4.map Source.net

/-- Words entered in an OUT buffer: the rest reads 0, the host owns it (R134). -/
def State.placeOut (n : Fin 4) (ws : List Word) (s : State) : State :=
  (s.modMb n (fun m => { m with outBuf := ws, outFull := true })).setIrq n.val

/-- The response that a waiting transition follows has been placed in the OUT buffer or handed to the connection (R528). -/
def State.transPlaced (src : Source) (s : State) : State :=
  if s.boot.transition.any (fun x => decide (x.2 = src)) && s.boot.transT.isNone then
    s.modBoot (fun b => { b with transT := some s.time.now })
  else s

/-- A response sent on a connection: it waits in TCP (R415); that of a connection closed meanwhile is discarded (R416). -/
def State.connSend (c : Fin 4) (ws : List Word) (s : State) : State :=
  let k := s.net.conns.get c
  if k.open_ then
    s.modNet (fun n => { n with conns := n.conns.set c { k with sent := ws }, tcpOut := n.tcpOut ++ [.response k.peer k.port ws] })
  else s

/-- A response handed to its source; in a mailbox whose OUT buffer the host owns it waits for it (R139). -/
def State.deliver (src : Source) (ws : List Word) (s : State) : State := match src with
  | .mb n => if (s.mb.get n).outFull then s.modMb n (fun m => { m with respWait := some ws })
    else (s.placeOut n ws).transPlaced src
  | .net c => (s.connSend c ws).transPlaced src

/-- The words of a response (R140, R142). -/
def respWords (status tag : Nat) (ws : List Word) : List Word :=
  if status = 0 then respWord 0 tag ws.length :: ws else [respWord status tag 0]

/-- A command answered; a status other than `OK` is counted (R178). -/
def State.answer (src : Source) (code tag status : Nat) (ws : List Word) (s : State) : State :=
  (if status = 0 then s
   else (s.bump Obj.cmdRefused).wr Obj.cmdLastRefused ((status * 65536 + code : Nat) : Int)).deliver src
    (respWords status tag ws)

/-- The executing command of a source answered and gone. -/
def State.respond (src : Source) (status : Nat) (ws : List Word) (s : State) : State :=
  match s.jobOf src with
  | none => s
  | some j => (s.setJob src none).answer src j.code j.tag status ws

/-- The executing command has started and waits for the drive (R143). -/
def State.wait (src : Source) (s : State) : State :=
  match s.jobOf src with
  | none => s
  | some j => s.setJob src (some { j with waiting := true, since := s.time.now })

/-- Payload word `i` of a job, word 0 of the command not counted. -/
def Job.arg (j : Job) (i : Nat) : Nat := (j.payload.getD i 0).toNat

/-! ## Waiting jobs -/

/-- `ACTIVE` of `SWAP_BANK`'s response. -/
def State.activeBanks (s : State) : Nat :=
  (units4.map (fun g => b2n (decide (s.rd (Obj.bankActive g.val) = 1)) * 2 ^ g.val)).sum
/-- Groups of a `SWAP_BANK` that have not swapped. -/
def State.swapsLeft (s : State) (mask : Nat) : Bool := units4.any (fun g => mask.testBit g.val && (s.grp.get g).swap)

/-- `SWAP_BANK`, a `GROUP_STATE` stop and `MOVE` are answered by what the Oven has taken since (R149, R154, R156). -/
def State.answerOne (src : Source) (s : State) : State :=
  match s.jobOf src with
  | none => s
  | some j =>
    let g := Fin.ofNat 4 (j.arg 0)
    let x := s.grp.get g
    if !j.waiting then s
    else if j.code = cSwapBank then
      (if s.swapsLeft (j.arg 0) then s else s.respond src 0 [BitVec.ofNat 32 s.activeBanks])
    else if j.code = cGroupState then
      (if x.stopReq then s else s.respond src 0 [BitVec.ofNat 32 x.st.code])
    else if j.code = cMove then
      (if x.nextTarget.isNone then s.respond src 0 []
       else if x.st = .safe then (s.modGrp g (fun y => { y with nextTarget := none })).respond src stState []
       else if x.st = .stopped ∨ x.st = .stopping then
         (s.modGrp g (fun y => { y with target := y.nextTarget, nextTarget := none })).respond src 0 []
       else s)
    else s
/-- Every waiting job the present state answers. -/
def State.answerWaiting (s : State) : State := forAll allSources State.answerOne s

end Sys2Proof.Machine
end

