-- ==== Sys2Proof/Machine/Gate.lean ====
section
/-! DEFINITION. What a loaf's PWM unit puts on its legs: the high-side commands and their edges (R182, R183, R208), the wants
and gates of a leg under its dead time (R184, R195, R206), the pads after `LEG_SWAP` and `LEG_INV` (R192), and the event
channels and trigger lines (R208, R209). Instants inside a period are counted in eighths of a tick of the local timebase. -/

namespace Sys2Proof.Machine

/-- The high-side command of a leg, `x8` eighths of a tick after the period start, for compare word `v8` in eighths of
a tick (R182, R183). Mode 0 edge-aligned, 1 centre-aligned. -/
def cmdOn (mode period v8 x8 : Nat) : Bool :=
  if v8 = 0 then false
  else if 8 * period ≤ v8 then true
  else if mode = 0 then decide (x8 < v8)
  else decide (8 * period - v8 ≤ x8 ∧ x8 < 8 * period + v8)

/-- The span in which the command is on in a period that begins at `from8` and whose counter counts from `start8` on (R434): from
its first instant up to its second (R182, R183); a command on throughout has no end up to `till`. -/
def cmdSpan (mode period v8 from8 start8 till : Nat) : Nat × Nat :=
  if v8 = 0 then (from8, from8)
  else if 8 * period ≤ v8 then (from8, from8 + till + 1)
  else if mode = 0 then (from8, start8 + v8)
  else (start8 + (8 * period - v8), start8 + (8 * period + v8))

/-- The gates a pattern wants of a leg, high and low (R184, R195). -/
def legWants (p : Pattern) (cmd : Bool) : Bool × Bool :=
  match p with
  | .pwm => (cmd, !cmd)
  | .asc => (false, true)
  | .off => (false, false)
  | .gap => (false, false)

/-- The gates of a leg: a wanted gate is on once the other has been unwanted for the dead time (R184). `sinceH` and
`sinceL` are the ticks since the high and the low gate were last wanted. -/
def legGates (p : Pattern) (cmd : Bool) (sinceH sinceL dead : Nat) : Bool × Bool :=
  let w := legWants p cmd
  (w.1 && decide (dead ≤ sinceL), w.2 && decide (dead ≤ sinceH))

/-- The pads of a leg after `LEG_SWAP` and `LEG_INV`, high pad first (R192). -/
def legPads (swap inv : Bool) (g : Bool × Bool) : Bool × Bool :=
  let x := if swap then (g.2, g.1) else g
  (x.1 != inv, x.2 != inv)

/-- The physical leg a logical phase maps to under `LEG_PERM`, and the phase a leg carries: each exchange undoes itself
(R192). -/
def physLeg (perm phase : Nat) : Nat :=
  if perm = 1 then (if phase = 0 then 1 else if phase = 1 then 0 else phase)
  else if perm = 2 then (if phase = 1 then 2 else if phase = 2 then 1 else phase)
  else if perm = 3 then (if phase = 2 then 0 else if phase = 0 then 2 else phase)
  else phase

/-- The CK_SAFE cycles after which Crust turns the low-side gates on for ASC (R206). -/
def crustDelay (dead : Nat) : Nat := (dead * 84 + 999) / 1000 + 1

/-- The counter mode of a loaf's running counter (written only while OFF, R185). -/
def State.cntModeN (s : State) (n : Fin 4) : Nat := s.rdN (Obj.cntMode n.val)
/-- The period length in ticks of the active `PERIOD` (R179). -/
def State.periodTicks (s : State) (n : Fin 4) : Nat :=
  if s.cntModeN n = 0 then (s.loaf.get n).actPeriod else 2 * (s.loaf.get n).actPeriod
/-- Ticks from the counter's start in a period to its peak (R179). -/
def State.peakTicks (s : State) (n : Fin 4) : Nat :=
  if s.cntModeN n = 0 then (s.loaf.get n).actPeriod - 1 else (s.loaf.get n).actPeriod
/-- The frame length in ticks (R186, R187). -/
def State.frameTicks (s : State) (n : Fin 4) : Nat :=
  if s.rd (Obj.peakReload n.val) = 1 then (s.loaf.get n).actPeriod else s.periodTicks n * (s.loaf.get n).actLen

/-- The active compare word of a logical phase, in eighths of a tick. -/
def State.activeCmp (s : State) (n : Fin 4) (p : Nat) : Nat := s.rdN (Obj.activeCmp n.val p)

/-! ## Events (R208, R209) -/

/-- Firings among `k` occurrences after `c` with prescaler `p` (R208). -/
def firings (c k p : Nat) : Nat := (c + k) / p - c / p

/-- `k` occurrences of a kind on a loaf: the channels that count it, the firings of the frame, and the trigger lines these
toggle (R208, R209). -/
def State.occur (n : Fin 4) (src k : Nat) (s : State) : State :=
  if k = 0 then s
  else forAll (List.range 3) (fun x y =>
    if y.rdN (Obj.evtSrc n.val x) = src then
      let l := y.loaf.get n
      let c := l.evtCount.getD x 0
      let f := firings c k (y.rdN (Obj.evtPresc n.val x))
      let toLine := y.rdBit (Obj.evtTgt n.val x) 0
      let toOven := decide (f ≠ 0) && y.rdBit (Obj.evtTgt n.val x) 1
      y.modLoaf n (fun l => { l with
        evtCount := ((List.range 3).map (fun i => l.evtCount.getD i 0)).set x (c + k)
        evtFired := if f ≠ 0 then putBit l.evtFired x true else l.evtFired
        evtOven := if toOven then putBit l.evtOven x true else l.evtOven
        lines := if toLine then ((List.range 3).map (fun i => l.lines.getD i 0)).set x (l.lines.getD x 0 + f) else l.lines })
    else y) s

/-! ## The command levels of the running period -/

/-- The span in which the command of logical phase `p` is on in the present period, up to the instant `till`. -/
def State.phaseSpan (s : State) (n : Fin 4) (p till : Nat) : Nat × Nat :=
  let l := s.loaf.get n
  cmdSpan (s.cntModeN n) l.actPeriod (s.activeCmp n p) (8 * l.lastStart) (8 * l.baseT) till

/-- The high-side command of logical phase `p` at an instant (R182). -/
def State.cmdAt (s : State) (n : Fin 4) (p e : Nat) : Bool :=
  let x := s.phaseSpan n p e
  decide (x.1 ≤ e ∧ e < x.2)

/-- The command edges of a phase between the instants `g` and `e`: one at `g` only where the level there differs from the level
that stood before (R183, R208). -/
def State.phaseEdges (n : Fin 4) (p g e : Nat) (s : State) : State :=
  if e ≤ g then s
  else
    let was := (s.loaf.get n).high.testBit p
    let x := s.phaseSpan n p e
    let now := s.cmdAt n p g
    let real := decide (x.1 < x.2)
    let up := b2n (!was && now) + b2n (real && decide (g < x.1 ∧ x.1 < e))
    let down := b2n (was && !now) + b2n (real && decide (g < x.2 ∧ x.2 < e))
    let last := s.cmdAt n p (e - 1)
    ((s.occur n (3 + p) up).occur n (6 + p) down).modLoaf n (fun l => { l with high := putBit l.high p last })

/-- The later of two instants, one of which may be none. -/
def latest (a : Option Nat) (b : Nat) : Option Nat := match a with
  | some x => some (max x b)
  | none => some b

/-- The instant up to which something wanted on a span was last wanted between `g` and `e`. -/
def wantedTo (prev : Option Nat) (span : Nat × Nat) (g e : Nat) : Option Nat :=
  if max span.1 g < min span.2 e then latest prev (min span.2 e) else prev

/-- A leg's last wants at `e`, under the pattern applied since `g`: high and low (R184). -/
def State.legWanted (s : State) (n : Fin 4) (leg e : Nat) : Option Nat × Option Nat :=
  let l := s.loaf.get n
  let g := 8 * l.sigT
  let x := l.legs.getD leg (none, none)
  match l.pat with
  | .pwm =>
    let on := s.phaseSpan n (physLeg (s.rdN (Obj.legPerm n.val)) leg) e
    (wantedTo x.1 on g e, wantedTo (wantedTo x.2 (g, on.1) g e) (on.2, e) g e)
  | .asc => (x.1, wantedTo x.2 (g, e) g e)
  | _ => x

/-- Eighths of a tick in a CK_SAFE cycle at its nominal 16 MHz. -/
def safeCycle : Nat := 100

/-- The gates of a physical leg at the instant `e`, high and low: under Crust the low-side gate of ASC comes on after its own
delay, in every other case R184 rules (R195, R206). -/
def State.gatesAt (s : State) (n : Fin 4) (leg e : Nat) : Bool × Bool :=
  let l := s.loaf.get n
  if l.patCrust then (false, decide (l.pat = .asc ∧ 8 * l.patT + safeCycle * crustDelay l.actDead ≤ e))
  else
    let since := fun (x : Option Nat) => match x with
      | some u => (e - u) / 8
      | none => l.actDead
    let w := s.legWanted n leg e
    legGates l.pat (s.cmdAt n (physLeg (s.rdN (Obj.legPerm n.val)) leg) e) (since w.1) (since w.2) l.actDead

/-- The six gate pads of a loaf at an instant as its PWM unit commands them, in the order `_UH` to `_WL` (R192, R203). -/
def State.gatePadsAt (s : State) (n : Fin 4) (e : Nat) : List Bool :=
  (List.range 3).flatMap (fun leg =>
    let x := legPads (s.rdN (Obj.legSwap n.val leg) == 1) (s.rdN (Obj.legInv n.val leg) == 1) (s.gatesAt n leg e)
    [x.1, x.2])

/-- A loaf's edges and wants are accounted up to now. -/
def State.pwmTo (n : Fin 4) (s : State) : State :=
  let l := s.loaf.get n
  if s.time.now ≤ l.sigT then s
  else
    let e := 8 * s.time.now
    let wants := (List.range 3).map (fun leg => s.legWanted n leg e)
    let s1 := if l.running then forAll (List.range 3) (fun p x => x.phaseEdges n p (8 * l.sigT) e) s else s
    s1.modLoaf n (fun l => { l with legs := wants, sigT := s.time.now })

/-- The pattern a loaf applies follows R194; what went before is accounted first. -/
def State.patternFollow (s : State) : State :=
  forAll units4 (fun n x =>
    let p := x.pattern n
    let c := decide (x.rank n = 3)
    if (x.loaf.get n).pat = p ∧ (x.loaf.get n).patCrust = c then x
    else (x.pwmTo n).modLoaf n (fun l => { l with pat := p, patCrust := c, patT := x.time.now })) s

end Sys2Proof.Machine
end

