-- ==== Sys2Proof/Machine/Collector.lean ====
section
/-! DEFINITION. Chapter 11's collector and the reactions it runs: loaf and group transitions (R290, R293), the gate
enables (R375), module transitions (R97), the SS1 sequence (R386), latching, repeats, coincidence and injection
(R354 to R370), and `settle`, which brings every state that follows from another up to date after an event. -/

namespace Sys2Proof.Machine

/-! ## Events to the logs -/

/-- Log flags of byte 17, R364. -/
def flagInj : Nat := 1
def flagReal : Nat := 2
def flagCoinc : Nat := 4
def flagEsc : Nat := 8
/-- Bit 4: the time is not synchronised (R365). -/
def State.flagTime (s : State) : Nat := if s.rd Obj.timeValid = 0 then 16 else 0

/-- The order of R20 among the reports of one cycle: level, then unit, then instance. -/
def Event.order (e : Event) : Nat := e.code.toNat / 1024 * 65536 + e.inst.toNat

/-- Report `x` was latched in the cycle of report `e` and is logged after it (R20). -/
def Event.before (e x : Event) : Bool :=
  decide (x.stamp = e.stamp ∧ x.event = 0 ∧ e.event = 0 ∧ e.order < x.order)

/-- An element put before the first that satisfies a test, or at the end. -/
def insertBefore {α : Type} (p : α → Bool) (a : α) (l : List α) : List α :=
  l.takeWhile (fun x => !p x) ++ a :: l.dropWhile (fun x => !p x)

/-- A `FAULT` packet of region C enters its transmit queue in the order its event has in the queue of events. It stands as
source 0 of the arbiter (DESIGN CHOICE: R41 lists five sources and none of them is the collector, log entry 151). -/
def State.enqueueFault (e : Event) (s : State) : State :=
  let later := (s.flt.evtQ.find? e.before).map eventPayload
  { s with peelC := { s.peelC with
      waiting := insertBefore (fun w => decide (some w.2.1.payload = later)) (0, pkt .fault (eventPayload e), s.time.now)
        s.peelC.waiting } }

/-- An event leaves the collector: stamped, queued for the logs, and sent in a `FAULT` packet (R363 to R366); the reports of
one cycle stand in the order of R20. -/
def State.emitAs (quiet : Bool) (code inst : Half) (cls : FaultClass) (react flags event occ : Nat) (data : Int)
    (s : State) : State :=
  let e : Event := { code := code, inst := inst, cls := cls, react := react, flags := flags + s.flagTime, event := event,
                     occ := occ, data := data, stamp := s.time.now, quiet := quiet }
  let s1 := s.enqueueFault e
  { s1 with flt := { s1.flt with evtQ := insertBefore e.before e s1.flt.evtQ } }
/-- An event that is signalled where its class is. -/
def State.emit (code inst : Half) (cls : FaultClass) (react flags event occ : Nat) (data : Int) (s : State) : State :=
  s.emitAs false code inst cls react flags event occ data

/-- A report of region M on its way to the collector in a `FAULT` packet (R365, R366). -/
def State.reportM (code inst : Half) (data : Int) (s : State) : State :=
  ({ s with flt := { s.flt with mRep := s.flt.mRep ++ [(code, inst, data)] } }).enqueue .m 0
    (pkt .fault (faultPayload code inst 0))

/-- A safety report 0xE40A of a channel with its data (R376, R384). -/
def State.safetyReport (ch : Chan) (data : Int) (s : State) : State :=
  match ch with
  | .c => s.emit 0xE40A 0 .c0 0 flagReal 0 1 data
  | .m => s.reportM 0xE40A 1 data

/-- A channel's brake output switches off: the brake is demanded, reported with data 3 (R376, R384, R389). -/
def State.brakeOff (ch : Chan) (s : State) : State :=
  match ch with
  | .c =>
    if s.safety.brkA then (s.modSafety (fun f => { f with brkA := false, brakeDemC := true })).safetyReport .c 3
    else s.modSafety (fun f => { f with brakeDemC := true })
  | .m =>
    if s.safety.brkB then (s.modSafety (fun f => { f with brkB := false, brakeDemM := true })).safetyReport .m 3
    else s.modSafety (fun f => { f with brakeDemM := true })
/-- Both brake outputs off. -/
def State.brakesOff (s : State) : State := (s.brakeOff .c).brakeOff .m

/-! ## Loaf transitions (R290) -/

/-- What a loaf keeps of its PWM unit when it enters a state (R181, R188, R196, R197, R208). -/
def LoafSt.enter (l : LoafSt) (st : LoafState) : LoafSt :=
  if l.st = st then l
  else if st = .off then
    { l with st := .off, running := false, periods := 0, commits := [], holdOff := false, gap := false, gapCounted := false,
             autoAsc := false, test := false, evtCount := [], evtFired := 0, evtOven := 0, hold := 0, closing := false, high := 0,
             firstTick := none, peakDue := none }
  else { l with st := st, holdOff := false, test := l.test && decide (st = .closed) }

/-- Loaf `n` enters a state; what its counter has done is accounted before it stops. -/
def State.loafTo (n : Fin 4) (st : LoafState) (s : State) : State :=
  (if st = .off then s.pwmTo n else s).modLoaf n (fun l => l.enter st)

/-- The compare words of `OPEN_CMP`, logical phases U, V, W. -/
def State.openCmp3 (s : State) (n : Fin 4) : Int × Int × Int :=
  (s.rd (Obj.openCmp n.val 0), s.rd (Obj.openCmp n.val 1), s.rd (Obj.openCmp n.val 2))

/-- A commit lands now: the shadow compare words and the token together (R188). -/
def State.commit (n : Fin 4) (cmp : Int × Int × Int) (s : State) : State :=
  s.modLoaf n (fun l => { l with shadow := cmp, commits := l.commits ++ [{ cmp := cmp, landed := s.time.now }] })

/-- Entry into OPEN commits the present `OPEN_CMP` values (R191). -/
def State.loafOpen (n : Fin 4) (s : State) : State := (s.loafTo n .open_).commit n (s.openCmp3 n)

/-- Another loaf of the group of `n` is CLOSED and not among the loaves now leaving. -/
def State.otherClosed (s : State) (n : Fin 4) (leaving : List (Fin 4)) : Bool :=
  match s.groupOf n with
  | none => false
  | some g => (s.grp.get g).st.active
      && (s.bound g).any (fun m => m != n && !leaving.contains m && decide ((s.loaf.get m).st = .closed))

/-- The first isolation of a CK_CTL cycle keeps the group's `RT_COUNT` as it stood before that cycle (R346). -/
def State.isoMark (g : Fin 4) (s : State) : State :=
  if (s.grp.get g).isoT = some s.time.now then s
  else s.modGrp g (fun x => { x with isoT := some s.time.now, isoN := s.rd (Obj.rtCount g.val) })

/-- The last CLOSED loaf of a group fails: the loaves that failed in the same CK_CTL cycle were not isolated, and
`RT_COUNT` does not count them (R346); with the group's SAFE they enter FAULT. -/
def State.isoUndo (n : Fin 4) (s : State) : State :=
  match s.groupOf n with
  | none => s
  | some g =>
    let x := s.grp.get g
    if x.st.active && decide ((s.loaf.get n).st = .closed) && decide (x.isoT = some s.time.now) then
      s.wr (Obj.rtCount g.val) x.isoN
    else s

/-- Reaction 2 on one loaf: OPEN and CLOSED enter ISOLATED or FAULT; a loaf already at or beyond stays (R290, R346, R357). -/
def State.loafSafe (leaving : List (Fin 4)) (n : Fin 4) (s : State) : State :=
  let st := (s.loaf.get n).st
  if st = .open_ ∨ st = .closed then
    (if s.otherClosed n leaving then
      let s1 := s.loafTo n .isolated
      match s.groupOf n with
      | some g => (s1.isoMark g).bump (Obj.rtCount g.val)
      | none => s1
    else (s.isoUndo n).loafTo n .fault)
  else s

/-! ## Group transitions (R293) -/

/-- A group's published values while STOPPED or SAFE, R334, and its drag; its loaves have no references of a former frame (R327). -/
def State.unpublish (g : Fin 4) (s : State) : State :=
  forAll (s.bound g) (fun n x => x.modOven n (fun o => { o with refOk := false, refOkPrev := false }))
    ((s.clear [Obj.capTrq g.val, Obj.capFull g.val, Obj.capPct g.val, Obj.dragTrq g.val]).modGrp g
      (fun x => { x with drag := 0, cap := 0, capFull := 0, stopReq := false, startReq := false, capped := false,
                         stallT := none, invT := none, stallHold := false, brakeDue := false }))

/-- The set s is empty at a boundary of a group at rest (R329, R330, R351). -/
def State.noShares (g : Fin 4) (s : State) : State :=
  forAll s.loaves (fun n x => x.wr (Obj.shareEff g.val n.val) 0) (s.modGrp g (fun x => { x with shareSet := [], capped := false }))

/-- A group's ISOLATED loaves enter FAULT when it enters SAFE or STOPPED (R290, R348). -/
def State.isolatedToFault (g : Fin 4) (s : State) : State :=
  forAll (s.bound g) (fun n x => if (x.loaf.get n).st = .isolated then x.loafTo n .fault else x) s

/-- Both brakes off where they belong to the group (R389 cases 4 and 5). -/
def State.brakeOffFor (g : Fin 4) (s : State) : State :=
  if s.rd Obj.sbcEn = 1 ∧ s.rdN Obj.sbcGroup = g.val ∧ s.safety.genC ∧ s.safety.genM then
    s.brakesOff
  else s

/-- A group enters SAFE. -/
def State.groupSafe (g : Fin 4) (s : State) : State :=
  if (s.grp.get g).st.active then
    (((s.modGrp g (fun x => { x with st := .safe })).isolatedToFault g).unpublish g).brakeOffFor g
  else s

/-- A group enters STOPPED: its loaves leave for OFF where told, its isolated loaves for FAULT; the degrade ends where
it has run (R290, R293, R335). -/
def State.groupStopped (g : Fin 4) (loavesOff : Bool) (s : State) : State :=
  let s1 := s.isolatedToFault g
  let s2 := if loavesOff then
      forAll (s1.bound g) (fun n x => if (x.loaf.get n).st = .fault then x else x.loafTo n .off) s1
    else s1
  ((s2.modGrp g (fun x => { x with st := .stopped, degraded := x.degraded && x.degNext })).unpublish g).brakeOffFor g

/-- A group stop is latched; the next group boundary applies it (R282, R293). -/
def State.groupStop (g : Fin 4) (s : State) : State :=
  let st := (s.grp.get g).st
  if st = .starting ∨ st = .running ∨ st = .degraded then s.modGrp g (fun x => { x with stopReq := true }) else s

/-- A group degrade, R335: `DEG_SCALE` applies from the next boundary, or through the next run of a group at rest. -/
def State.groupDegrade (g : Fin 4) (s : State) : State :=
  s.modGrp g (fun x => { x with degraded := true, degNext := !x.st.active })

/-- Active groups left with no CLOSED loaf enter SAFE (R293); one whose start awaits its boundary is not judged. -/
def State.groupsBare (s : State) : State :=
  forAll units4 (fun g x =>
    if (x.grp.get g).st.active && !(x.grp.get g).startReq
        && !(x.bound g).any (fun n => decide ((x.loaf.get n).st = .closed))
    then x.groupSafe g else x) s

/-! ## Enables (R375) and the module state (R97) -/

/-- A channel's conditions for its enable. -/
def State.genWanted (s : State) (ch : Chan) : Bool :=
  let f := s.safety
  let sto := match ch with
    | .c => f.stoC
    | .m => f.stoM
  let ss1 := match ch with
    | .c => f.ss1C
    | .m => f.ss1M
  decide (s.mode = .ready ∨ s.mode = .operational) && !sto && !f.react6 && !f.tapHold
    && s.flt.pend.all (fun p => !decide (p.cls = .c4) || (p.react == 5 && ss1))

/-- The level a channel commands on its enable. -/
def State.genOf (s : State) (ch : Chan) : Bool := match ch with
  | .c => s.safety.genC
  | .m => s.safety.genM
/-- The enable of a channel written; the first of the two to fall is timed (R389 case 1). -/
def State.setGen (ch : Chan) (b : Bool) (s : State) : State :=
  let t := if s.safety.genC && s.safety.genM && !b then s.time.now else s.safety.genFallT
  match ch with
  | .c => s.modSafety (fun f => { f with genC := b, genFallT := t })
  | .m => s.modSafety (fun f => { f with genM := b, genFallT := t })

/-- A fall of an enable: every loaf applies OFF and enters OFF (R197, R290), every active group enters SAFE (R293);
with no `SBC_STO_LAG` the channel's brake output goes off at once (R389). -/
def State.gateFall (s : State) : State :=
  let s1 := forAll units4 (fun n x => (x.loafTo n .off).modLoaf n (fun l => { l with holdOff := true })) s
  let s2 := forAll units4 (fun g x => x.groupSafe g) s1
  if s.rd Obj.sbcStoLag = 0 then s2.brakesOff else s2

/-- A channel drives its enable low, with its report 0x100 (R376, R384). -/
def State.dropGen (ch : Chan) (s : State) : State :=
  if s.genOf ch then ((s.setGen ch false).gateFall).safetyReport ch 0x100 else s
/-- A channel drives its enable high, with its report 0x101. -/
def State.raiseGen (ch : Chan) (s : State) : State :=
  if s.genOf ch then s
  else (s.setGen ch true).safetyReport ch 0x101
/-- A channel's enable brought to what R375 wants. -/
def State.updateGen (ch : Chan) (s : State) : State := if s.genWanted ch then s.raiseGen ch else s.dropGen ch

/-- R464: what releases `ROLE_ACT` at entry into SAFE; a fault of unit PWM or Protection withholds `TAKEOVER_OK` (R472). -/
def takeoverOk (code : Half) : Bool := decide (code.toNat / 1024 % 16 ≠ 0 ∧ code.toNat / 1024 % 16 ≠ 5)

/-- The detector of a fault stands in region M, whose report starts there (R353, R365): region and safety instances name their
region or channel; VBAT, clocks, switches, time, security and communication are region M's, the other supplies region C's (log
entry 101). -/
def raisedByM (code inst : Half) : Bool :=
  let c := code.toNat
  let unit := c / 1024 % 16
  if c < 0x8000 then false
  else if c < 0xC000 then instIndex inst == 1
  else if unit = 8 then decide (c = 0xE007)
  else if unit = 9 then decide (0xE401 ≤ c ∧ c ≤ 0xE403) || instIndex inst == 1
  else decide (unit ≠ 11)

/-- Region M knows why the module stands in SAFE (R112): the report started there, or it is the end of an SS1, which both
channels run (R386), and no reaction 5 that led to it is still on its way in a `FAULT` packet. -/
def State.safeKnown (s : State) (code inst : Half) : Bool :=
  raisedByM code inst
    || (decide (code = 0xE40A) && !s.flt.evtQ.any (fun e => decide (5 ≤ e.react) && !raisedByM e.code e.inst))

/-- Entry into SAFE by a module STO reaction (R97): from BOOT on a C4 fault alone, from the powered states in service. Region M
knows of it at once where the report started there, else when its `FAULT` packet arrives (R112); in SAFE already, it may learn so
from a report of its own. -/
def State.enterSafe (code inst : Half) (s : State) : State :=
  let s1 := (s.dropGen .c).dropGen .m
  let known := s1.safeKnown code inst
  if s1.mode = .safe then s1.modBoot (fun b => { b with safeSeen := b.safeSeen || known })
  else if s1.mode = .standby ∨ (s1.mode = .boot ∧ (s1.classOf code).1 ≠ .c4) then s1
  else ((s1.modBoot (fun b => { b with preSafe := s1.mode, safeSeen := known })).setMode .safe).releaseRole
    (takeoverOk code)

/-- Groups in SAFE that may be STOPPED become it: every bound loaf OFF, both enables high, no fault that reached it (R293). -/
def State.safeToStopped (s : State) : State :=
  forAll units4 (fun g x =>
    if decide ((x.grp.get g).st = .safe) && (x.bound g).all (fun n => decide ((x.loaf.get n).st = .off))
        && x.safety.genC && x.safety.genM && x.groupFree g
    then x.groupStopped g false else x) s

/-- Some group is STARTING, RUNNING, DEGRADED or STOPPING. -/
def State.anyActive (s : State) : Bool := units4.any (fun g => (s.grp.get g).st.active)

/-- READY and OPERATIONAL follow the groups; CONFIG goes to READY when the last block clears while entry is automatic (R97). -/
def State.modeFollow (s : State) : State :=
  match s.mode with
  | .ready => if s.anyActive then s.setMode .operational else s
  | .operational => if s.anyActive then s else s.setMode .ready
  | .config => if s.boot.auto && s.readyBlock == 0 then s.setMode .ready else s
  | _ => s

/-- `BEAT` starts or stops as R367 says; each stop is counted. -/
def State.beatFollow (s : State) : State :=
  if s.beatOk then s.modFlt (fun f => { f with beating := true, beatT := if f.beating then f.beatT else s.time.now })
  else if s.flt.beating then (s.modFlt (fun f => { f with beating := false })).bump Obj.beatStops
  else s

/-- The brakes released while R390's conditions hold; a group at rest holds them off (R389 case 5, R390). -/
def State.brakeFollow (s : State) : State :=
  let g := Fin.ofNat 4 (s.rdN Obj.sbcGroup)
  let st := (s.grp.get g).st
  if s.rd Obj.sbcEn ≠ 1 then s.modSafety (fun f => { f with brkA := false, brkB := false })
  else if s.safety.genC && s.safety.genM && (decide (st = .stopped ∨ st = .safe)) then s.brakesOff
  else s

/-- What follows from an event once its faults are latched: module state, enables, groups, module state again, brakes, `BEAT`. -/
def State.follow (s : State) : State :=
  (((((((s.groupsBare.modeFollow).updateGen .c).updateGen .m).safeToStopped).modeFollow).brakeFollow).beatFollow)

/-! ## SS1 (R386, R387) -/

/-- Every group that runs is told to stop (reactions 4, 5 and SS1). -/
def State.stopAll (s : State) : State := forAll units4 (fun g x => x.groupStop g) s

/-- A channel's SS1 runs. -/
def State.ss1Runs (s : State) (ch : Chan) : Bool := match ch with
  | .c => s.safety.ss1C
  | .m => s.safety.ss1M

/-- A channel demands STO on its own enable: the end of its SS1, or an STO demand (R383), with which an SS1-t that runs ends; where
a reaction 5 had joined that, the module enters SAFE (R386, R387). `STO_DEMANDS` counts the first of the two channels. -/
def State.demandSto (ch : Chan) (s : State) : State :=
  let ss1 := s.ss1Runs ch
  let s1 := if s.safety.stoC || s.safety.stoM || (s.safety.ss1Said && ss1) then s else s.bump Obj.stoDemands
  let s2 := (match ch with
    | .c => s1.modSafety (fun f => { f with stoC := true, ss1C := false, ss1EndC := f.ss1EndC || ss1 })
    | .m => s1.modSafety (fun f => { f with stoM := true, ss1M := false, ss1EndM := f.ss1EndM || ss1 })).dropGen ch
  if s.safety.react5 && ss1 && decide (ch = .c) then s2.enterSafe 0xE40A 0 else s2

/-- A channel's SS1 ended in STO with its enable still low (R387). -/
def State.ss1Ended (s : State) (ch : Chan) : Bool := match ch with
  | .c => s.safety.ss1EndC && !s.safety.genC
  | .m => s.safety.ss1EndM && !s.safety.genM

/-- The end of a channel's SS1: STO on its own enable, reported with data 1 (R383, R384, R386). -/
def State.ss1End (ch : Chan) (s : State) : State :=
  ((s.safetyReport ch 1).demandSto ch).modSafety (fun f => { f with ss1Said := true })

/-- A channel's SS1 starts: every group stops, the timer runs; an `SS1_TIME` of 0 ends it at once; a running one is
not restarted; an STO in which an earlier one ended stands on (R385 to R387). -/
def State.ss1Start (ch : Chan) (s : State) : State :=
  if s.ss1Runs ch then s
  else
    let s1 := (match ch with
      | .c => s.modSafety (fun f => { f with
          ss1C := true, ss1StartC := s.time.now, ss1Said := f.ss1Said && f.ss1M })
      | .m => s.modSafety (fun f => { f with
          ss1M := true, ss1StartM := s.time.now, ss1Said := f.ss1Said && f.ss1C })).stopAll
    if s.rd Obj.ss1Time = 0 then s1.ss1End ch else s1

/-- A channel is asked for an SS1-t by a fault: reported with data 2 unless one runs (R376, R384, R387). -/
def State.ss1Ask (ch : Chan) (s : State) : State :=
  if s.ss1Runs ch then s else (s.safetyReport ch 2).ss1Start ch

/-! ## Reactions (R355 to R357) -/

/-- Reaction 1, the unit's own handling, where the collector itself must show it (a live injection, R369). -/
def State.reactUnit (code : Half) (s : State) : State :=
  if code = 0xEC03 then s.releaseRole true else s

/-- A reaction runs on the targets of the fault. -/
def State.react (r : Nat) (code inst : Half) (s : State) : State :=
  let ls := s.targetLoaves code inst
  let gs := s.targetGroups code inst
  match r with
  | 0 => s
  | 1 => s.reactUnit code
  | 2 =>
    let s1 := forAll ls (fun n x => x.loafSafe ls n) s
    let s2 := s1.groupsBare
    if instKind code = .group ∨ instKind code = .all then forAll gs (fun g x => x.groupSafe g) s2 else s2
  | 3 => forAll gs (fun g x => x.groupDegrade g)
      (forAll (ls.filter (fun n => (s.groupOf n).isNone)) (fun n x => x.loafSafe ls n) s)
  | 4 => forAll gs (fun g x => x.groupStop g)
      (forAll (ls.filter (fun n => (s.groupOf n).isNone)) (fun n x => x.loafSafe ls n) s)
  | 5 =>
    if s.ss1Ended .c || s.ss1Ended .m || decide (s.mode = .boot) then s.enterSafe code inst
    else ((s.modSafety (fun f => { f with react5 := true })).ss1Ask .c).ss1Ask .m
  | _ => (s.modSafety (fun f => { f with react6 := true })).enterSafe code inst

/-! ## Capture trigger on a fault (R245) -/

/-- A capture trigger of a kind (its `CAP_CAUSE` bit) at an instant: taken in states 1 and 2; kinds of one cycle are one
trigger (R244, R245). Its station time is that of the capture timestamp unit. -/
def State.captureTriggerAt (bit inst : Nat) (s : State) : State :=
  let st := s.rd Obj.capState
  if st = 1 ∨ st = 2 then
    ((s.wr Obj.capState 3).wr Obj.capCause ((2 ^ bit : Nat) : Int)).modCap (fun c =>
      { c with trigT := inst, trigNs := (s.time.units.getD 6 0 - (s.time.now - inst) * s.tuStep 6) / 2 ^ 32 })
  else if st = 3 ∧ s.cap.trigT = inst then s.wrBit Obj.capCause bit true
  else s
/-- A capture trigger now. -/
def State.captureTrigger (bit : Nat) (s : State) : State := s.captureTriggerAt bit s.time.now

/-- A latched fault triggers a capture whose class and code conditions it meets (R245). -/
def State.captureFault (code : Half) (cls : FaultClass) (s : State) : State :=
  let m := s.rdN Obj.capTrigFault
  if decide (m ≠ 0 ∧ m ≤ cls.num + 1) && (s.rd Obj.capTrigCode == 0 || s.rd Obj.capTrigCode == (code.toNat : Int)) then
    s.captureTrigger 1
  else s

/-! ## Latching (R354, R360, R370) -/

/-- The loaves and the groups that a fault of a reaction acts on: reactions 5 and 6 on the whole module (R356). -/
def State.loavesHit (s : State) (code inst : Half) (r : Nat) : List (Fin 4) := if 5 ≤ r then s.loaves else s.targetLoaves code inst
def State.groupsHit (s : State) (code inst : Half) (r : Nat) : List (Fin 4) := if 5 ≤ r then units4 else s.targetGroups code inst

/-- The targets of two faults share a loaf, a group or the module (R370). -/
def State.shares (s : State) (c1 i1 c2 i2 : Half) (r1 r2 : Nat) : Bool :=
  (s.loavesHit c1 i1 r1).any (fun n => (s.loavesHit c2 i2 r2).contains n)
    || (s.groupsHit c1 i1 r1).any (fun g => (s.groupsHit c2 i2 r2).contains g)

/-- A real report of a code with a reaction coincides with an active injection, R370. -/
def State.coincides (s : State) (j : Inj) (code inst : Half) (react : Nat) : Bool :=
  (j.code == code && j.inst == inst)
    || (decide (react ≠ 0) && s.shares code inst j.code j.inst react (s.classOf j.code).2)

/-- An injection ends in a coincidence, its pending state and window with it (R370). -/
def State.endInj (j : Inj) (s : State) : State :=
  { s with flt := { s.flt with
      inj := s.flt.inj.filter (fun x => !(x == j)),
      pend := s.flt.pend.filter (fun p => !(p.inj && p.code == j.code && p.inst == j.inst)) } }
/-- Its cancelling is logged with event 5 and counted (R370). -/
def State.logCancel (j : Inj) (s : State) : State :=
  let c := s.classOf j.code
  (s.bump Obj.injCoinc).emit j.code j.inst c.1 c.2 (flagInj + flagCoinc) 5 1 0
/-- An injection is cancelled (R370). -/
def State.cancelInj (j : Inj) (s : State) : State := (s.endInj j).logCancel j

/-- A C0 report: one entry per 1 ms and code and instance, the suppressed ones merged into the next (R360). -/
def State.latchC0 (code inst : Half) (flags : Nat) (data : Int) (s : State) : State :=
  match s.flt.c0.find? (fun r => r.1 == code && r.2.1 == inst) with
  | some r =>
    let others := s.flt.c0.filter (fun x => !(x.1 == code && x.2.1 == inst))
    if decide (s.time.now < r.2.2.1 + msCycles) && decide (code ≠ 0xE40A) then
      s.modFlt (fun f => { f with c0 := others ++ [(code, inst, r.2.2.1, r.2.2.2 + 1)] })
    else (s.modFlt (fun f => { f with c0 := others ++ [(code, inst, s.time.now, 0)] })).emit code inst .c0 0 flags 0
        (1 + r.2.2.2) data
  | none =>
    (s.modFlt (fun f => { f with c0 := f.c0 ++ [(code, inst, s.time.now, 0)] })).emit code inst .c0 0 flags 0 1 data

/-- A fault enters the collector with its class and reaction: pending, logged, its window opened or its reaction run. -/
def State.enter (code inst : Half) (data : Int) (flags : Nat) (inj : Bool) (s : State) : State :=
  let c := s.classOf code
  if c.1 = .c0 then (s.latchC0 code inst flags data).captureFault code .c0
  else
    let hard := decide (c.1 = .c3 ∨ c.1 = .c4)
    let p : Pend := { code := code, inst := inst, cls := c.1, react := c.2, ran := hard,
                      window := if c.1 = .c2 then some (s.time.now + s.graceOf code) else none,
                      inj := inj, occ := 1, data := data, flags := flags + s.flagTime }
    let s1 := ((s.modFlt (fun f => { f with pend := f.pend ++ [p] })).emit code inst c.1 c.2 flags 0 1 data).captureFault code c.1
    if hard then s1.react c.2 code inst else s1

/-- One more occurrence of a pending fault (R360). -/
def State.again (code inst : Half) (s : State) : State :=
  s.modFlt (fun f => { f with pend := f.pend.map (fun p =>
    if p.code == code && p.inst == inst then { p with occ := p.occ + 1 } else p) })

/-- A real report, R354, R360, R370: a pending fault counts one more occurrence, any other is latched; then the injections it
coincides with are logged as cancelled. A code, an instance or a unit the module does not have is never raised (R353, R372). -/
def State.latch (code inst : Half) (data : Int) (s : State) : State :=
  if !s.raisable code inst then s
  else
    let co := s.flt.inj.filter (fun j => s.coincides j code inst (s.classOf code).2)
    let s1 := forAll co State.endInj s
    let s2 := if s1.isPending code inst then s1.again code inst
      else s1.enter code inst data (flagReal + (if co.isEmpty then 0 else flagCoinc)) false
    forAll co State.logCancel s2

/-- A code its unit raises at most once per 1 ms for a key (its instance, or its loaf; R360): within that time nothing is
reported. -/
def State.latchLimitedAs (key code inst : Half) (data : Int) (s : State) : State :=
  match s.flt.lim.find? (fun r => r.1 == code && r.2.1 == key) with
  | some r =>
    if s.time.now < r.2.2 + msCycles then s
    else (s.modFlt (fun f => { f with lim := f.lim.filter (fun x => !(x.1 == code && x.2.1 == key))
            ++ [(code, key, s.time.now)] })).latch code inst data
  | none => (s.modFlt (fun f => { f with lim := f.lim ++ [(code, key, s.time.now)] })).latch code inst data
/-- The same with the instance as the key. -/
def State.latchLimited (code inst : Half) (data : Int) (s : State) : State := s.latchLimitedAs inst code inst data

/-- `FB_INVALID` of a channel sets: 0x4C04 at once for every active group whose angle comes from it (R300). -/
def State.fbInvalidSets (c : Fin 4) (s : State) : State :=
  forAll units4 (fun g x =>
    if (x.grp.get g).st.active && decide (x.posFb g = some c) && decide (x.angleCh g = some c.val) && !x.starterAngle g
        && decide (x.rdN (Obj.starter g.val) ≠ 3) then
      x.latch 0x4C04 (mkInst g.val 0) 0
    else x) s
/-- `FB_INVALID` of every channel follows its pending block faults (R278). -/
def State.fbFollow (s : State) : State :=
  forAll units4 (fun c x =>
    let h := x.fbHard c
    if h = (x.fb.get c).invalid then x
    else if h then (x.modFb c (fun f => { f with invalid := true })).fbInvalidSets c
    else x.modFb c (fun f => { f with invalid := false })) s

/-- Everything that follows from an event. -/
def State.settle (s : State) : State := s.fbFollow.follow.answerWaiting.patternFollow

/-- A report and all that follows from it. -/
def State.fault (code inst : Half) (data : Int) (s : State) : State := (s.latch code inst data).settle

/-- A detection of region M whose reaction is module STO: region M enters SAFE at once (R39, R101), and the collector latches its
report as it arrives (R12, R365). -/
def State.faultM (code inst : Half) (data : Int) (s : State) : State :=
  ((s.reportM code inst data).enterSafe code inst).settle

end Sys2Proof.Machine
end

