-- ==== Sys2Proof/Machine/Trip.lean ====
section
/-! DEFINITION. The trip path: filtered levels, latch and cycle trips, the faults they raise and the legs these name
(R198 to R206, R341, R350, R378). -/

namespace Sys2Proof.Machine

/-- Region C runs: its reset ends when the CK_CTL PLL has locked (R91). -/
def State.regionUp (s : State) : Bool := s.boot.pllLocked

/-- The source has a detector in each loaf (R198). -/
def perLoaf (i : Nat) : Bool := decide (i = 12 ∨ i = 13)

/-- The source's filtered level as loaf `n` sees it: a global source stands for every loaf (R199). -/
def State.tripOn (s : State) (i : Nat) (n : Fin 4) : Bool :=
  if perLoaf i then (s.trip.get n).getLsbD i else units4.any (fun m => (s.trip.get m).getLsbD i)

/-- A level of source `i` as loaf `n` sees it. -/
def putLevel (i : Nat) (n : Fin 4) (b : Bool) (q : Quad (BitVec 16)) : Quad (BitVec 16) :=
  q.set n (BitVec.ofNat 16 (putBit (q.get n).toNat i b))
/-- The filtered level of a source at a loaf written. -/
def State.setTrip (i : Nat) (n : Fin 4) (b : Bool) (s : State) : State := { s with trip := putLevel i n b s.trip }
/-- Its synchronised level written. -/
def State.setSync (i : Nat) (n : Fin 4) (b : Bool) (s : State) : State := { s with tripSync := putLevel i n b s.tripSync }
/-- The loaves at which a change of source `i` reported at loaf `n` is seen: for a global source every one (R198). -/
def seenAt (i : Nat) (n : Fin 4) : List (Fin 4) := if perLoaf i then [n] else units4

/-- What a filter of `f` samples makes of a level that has stood for `ns` (R199, R521): a pad's is taken for certain from
(f + 2) × 5 ns on, never below (f − 1) × 5 ns with f ≥ 2, and may or may not be between; a level that arises in CK_CTL is taken
from f cycles on. -/
def filterTakes (pad : Bool) (f ns : Nat) (free : Bool) : Bool :=
  if pad then
    if (f + 2) * 5 ≤ ns then true
    else if 2 ≤ f ∧ ns < (f - 1) * 5 then false
    else free
  else decide (f * 5 ≤ ns)

/-- The samples of a trip source's filter: sources 14 and 15 have none (R198). -/
def State.tripFilt (s : State) (i : Nat) : Nat := if 14 ≤ i then 0 else s.rdN (Obj.tripFilt i)

/-- The phase-current inputs of a loaf that are valid now: leg and magnitude of the latest result. -/
def State.legCurrents (s : State) (n : Fin 4) : List (Nat × Int) :=
  [1, 2, 3].filterMap (fun r => match s.findRole n r with
    | some (k, i) =>
      if s.power.refReady.get (Fin.ofNat 6 k) && !(s.conv.get (Fin.ofNat 6 k)).failed
          && !s.owLatched k i then
        some (r - 1, ((s.rd (Obj.chResult k i)).natAbs : Int) * s.rd (Obj.chFs k i))
      else none
    | none => none)

/-- The leg of the largest phase current, 4 with fewer than two valid inputs (R341). -/
def State.largestLeg (s : State) (n : Fin 4) : Nat :=
  match s.legCurrents n with
  | [] => 4
  | [_] => 4
  | x :: xs => (xs.foldl (fun b y => if b.2 < y.2 then y else b) x).1

/-- The leg field of a role: 0 to 2 for the phase currents, 3 for the DC link (R341, R353). -/
def roleLeg (r : Nat) : Nat := if r = 8 then 3 else if 1 ≤ r ∧ r ≤ 3 then r - 1 else 4

/-- The leg of the input that decided source 12 or 13 of a loaf (R341). -/
def State.decidingLeg (s : State) (i : Nat) (n : Fin 4) : Nat :=
  let os := (List.range 4).flatMap (fun k =>
    let c := s.conv.get (Fin.ofNat 6 k)
    (if i = 12 then c.overInputs else c.slopeOn).filterMap (fun x =>
      if s.role k x / 16 % 4 = n.val then some (roleLeg (s.role k x % 16)) else none))
  (os.filter (fun l => decide (l ≠ 4))).headD 4

/-- The leg field of a trip's fault, R353: unused for the pads of sources 0 to 7. -/
def State.tripLeg (s : State) (i : Nat) (n : Fin 4) : Nat :=
  if i < 8 then 0 else if i < 12 then s.largestLeg n else s.decidingLeg i n

/-- The code a trip raises (R203, R350); sources 14 and 15 raise none of their own. -/
def tripCode (i : Nat) (cycle : Bool) : Option Half :=
  if i < 8 then some (BitVec.ofNat 16 (0x4010 + i + (if cycle then 16 else 0)))
  else if i < 12 then some (if cycle then 0x5411 else 0x5401)
  else if i = 12 then some (if cycle then 0x5412 else 0x5402)
  else if i = 13 then some (if cycle then 0x5413 else 0x5403)
  else none

/-- `DESAT_COUNT`, `OC_COUNT` and `SLOPE_COUNT` of a trip, R352. -/
def State.countTrip (i : Nat) (n : Fin 4) (s : State) : State :=
  if i < 8 then s
  else if i < 12 then s.bump (Obj.desatCount n.val)
  else if i = 12 then s.bump (Obj.ocCount n.val)
  else if i = 13 then s.bump (Obj.slopeCount n.val)
  else s

/-- A trip's fault, real or injected: its leg is shown in `PROT_LEG` where it is a protection fault; cycle-mode codes
are raised at most once per 1 ms per source and loaf (R203, R341, R350). -/
def State.tripFault (i : Nat) (n : Fin 4) (cycle inj : Bool) (s : State) : State :=
  match tripCode i cycle with
  | none => s
  | some code =>
    let leg := s.tripLeg i n
    let inst := mkInst n.val leg
    let s0 := s.modLoaf n (fun l => { l with tripLegs := (i, leg) :: l.tripLegs.filter (fun q => decide (q.1 ≠ i)) })
    let s1 := if 8 ≤ i then s0.wr (Obj.protLeg n.val) (leg : Int) else s0
    if inj then s1.enter code inst 0 flagInj true
    else if cycle then s1.latchLimitedAs (mkInst n.val 0) code inst 0
    else s1.latch code inst 0

/-- The gap pattern of a cycle-mode trip begins; the period counts once while the pattern is the one applied (R201). -/
def State.gapBegin (n : Fin 4) (s : State) : State :=
  let s1 := s.modLoaf n (fun l => { l with gap := true })
  if s1.rank n = 6 ∧ !(s.loaf.get n).gapCounted then
    (s1.bump (Obj.cycleTrips n.val)).modLoaf n (fun l => { l with gapCounted := true })
  else s1

/-- What an asserted source does to a loaf through its nibble: nothing, a latched trip (R202) or a gap (R201). -/
def State.tripAct (i : Nat) (n : Fin 4) (inj : Bool) (s : State) : State :=
  let nib := s.mapNibble i n
  if !nib.testBit 0 then s
  else if nib.testBit 1 then ((s.gapBegin n).countTrip i n).tripFault i n true inj
  else ((s.wrBit (Obj.tripLatch n.val) i true).countTrip i n).tripFault i n false inj

/-- The source exists for the loaf: region C runs, the loaf is present, and so is the loaf of a `DESAT` pad (R52). -/
def State.tripLive (s : State) (i : Nat) (n : Fin 4) : Bool :=
  s.regionUp && s.has n.val && (decide (i < 8 ∨ 12 ≤ i) || s.has (i - 8))

/-- A filtered source asserts, as loaf `n` sees it: `TRIP_COUNT` once an assertion, and what the loaf's nibble gives, a
latched trip or a gap (R199, R201, R202, R211). -/
def State.tripRise (i : Nat) (n : Fin 4) (s : State) : State :=
  if !s.tripLive i n || (s.trip.get n).getLsbD i then s
  else
    let s1 := if s.tripOn i n then s else s.bump (Obj.tripCount i)
    ((s1.setTrip i n true).tripAct i n false).settle

/-- A filtered source deasserts: for a global source on every loaf (R199). -/
def State.tripFall (i : Nat) (n : Fin 4) (s : State) : State :=
  if i ≥ 14 then s else forAll (seenAt i n) (fun m x => x.setTrip i m false) s

/-- A source's level has stood asserted or deasserted for `ns` when it comes to the loaf: the synchronised level follows it as a
filter of no samples does, the filtered level as `TRIP_FILT` says (R199, R521). A detector's level is what its samples make of it
(R338, R339); sources 14 and 15 stand asserted until reset (R198). -/
def State.tripEdge (i : Nat) (n : Fin 4) (level : Bool) (ns : Nat) (s : State) : State :=
  if !s.tripLive i n || (decide (i = 12 ∨ i = 13) && s.detects i n != level) || (decide (14 ≤ i) && !level) then s
  else
    let pad := decide (i < 12)
    let free := Config.filterFree s.freeNo
    let f := s.tripFilt i
    let s1 := if filterTakes pad 0 ns free then forAll (seenAt i n) (fun m x => x.setSync i m level) s else s
    let s2 := if filterTakes pad f ns free then (if level then s1.tripRise i n else s1.tripFall i n) else s1
    if pad then s2.drew else s2

/-- A map that comes to enable an asserted source trips the loaf: the matrix alone decides (R59). -/
def State.tripRemap (i : Nat) (old v : Int) (s : State) : State :=
  forAll s.loaves (fun n x =>
    let was := old.toNat / 16 ^ n.val % 16
    let now := v.toNat / 16 ^ n.val % 16
    if now.testBit 0 && (!was.testBit 0 || was.testBit 1 != now.testBit 1) && x.tripLive i n && x.tripOn i n then
      (x.setTrip i n true).tripAct i n false
    else x) s

/-- Crust asserts source 14 or the clock monitor source 15: latched on every loaf until reset (R198, R378). -/
def State.crustTrip (i : Nat) (s : State) : State :=
  let s1 := if s.tripOn i 0 then s else s.bump (Obj.tripCount i)
  forAll s.loaves (fun n x => ((x.setTrip i n true).setSync i n true).wrBit (Obj.tripLatch n.val) i true) s1

/-- A cycle-mode source enabled on the loaf is asserted (R201). -/
def State.cycleOn (s : State) (n : Fin 4) : Bool :=
  (List.range 14).any (fun i => let nib := s.mapNibble i n; nib.testBit 0 && nib.testBit 1 && s.tripOn i n)

end Sys2Proof.Machine
end

