-- ==== Sys2Proof/Machine/OvenOps.lean ====
section
/-! DEFINITION. The current loop of the Oven (R283 to R288), the angle it runs on (R284, R306, R307), the inputs it
takes (R342 to R345), Proof's checks (R315) and the open-phase test (R340). Arithmetic is exact on the values the rules
name; every held fraction passes `ovenHold`. -/

namespace Sys2Proof.Machine

/-! ## Reading objects as numbers -/

/-- An object as an exact number. -/
def State.rdR (s : State) (a : Nat) : Rat := (s.rd a : Rat)
/-- An object of the active bank of loaf `n` (R303). -/
def State.actN (s : State) (n : Fin 4) (a : Nat) : Rat := s.rdR (a + s.bankOfLoaf n)
/-- An object of the active bank of group `g`. -/
def State.actG (s : State) (g : Fin 4) (a : Nat) : Rat := s.rdR (a + s.bankOfGroup g)
/-- Q16.16. -/
def q16 (x : Rat) : Rat := x / 65536
/-- Thousandths. -/
def milli (x : Rat) : Rat := x / 1000
/-- A value shown in a signed 32-bit object; what stands for one beyond its range is free (log entry 9). -/
def shown32 (x : Int) : Int :=
  if -0x80000000 ≤ x ∧ x ≤ 0x7FFFFFFF then x else clampI (-0x80000000) 0x7FFFFFFF (Config.pastRange 0 x)

/-! ## The held format (R285) -/

/-- A value in 28 fraction bits; one between two of them goes to either. -/
def ovenRound (q : Rat) : Rat :=
  let f : Int := (q * 2 ^ 28).floor
  let up : Int := if (f : Rat) = q * 2 ^ 28 then 0 else (b2n (Config.ovenUp q) : Nat)
  ((f + up : Int) : Rat) / 2 ^ 28
/-- A value as the Oven holds it: 28 fraction bits, saturating at ±8. -/
def ovenHold (q : Rat) : Rat := clampR (-8) 8 (ovenRound q)
/-- The value saturates (record flag 15). -/
def ovenSat (q : Rat) : Bool := decide (q < -8 ∨ 8 < q)

/-- A current or voltage as held, and whether one of the products and sums it came from saturated (R285). -/
abbrev Held := Rat × Bool
/-- An exact value held. -/
def held (q : Rat) : Held := (ovenHold q, ovenSat q)
/-- A sum, a difference, a product with a gain or a direction. -/
def heldAdd (a b : Held) : Held := let r := held (a.1 + b.1); (r.1, a.2 || b.2 || r.2)
def heldSub (a b : Held) : Held := let r := held (a.1 - b.1); (r.1, a.2 || b.2 || r.2)
def heldMul (k : Rat) (a : Held) : Held := let r := held (k * a.1); (r.1, a.2 || r.2)
/-- The sum of several terms, term by term. -/
def heldSum (l : List Held) : Held := l.foldl heldAdd (0, false)

/-- Division with a divisor the manual does not exclude from 0: the quotient by 0 is free. -/
def divR (a b : Rat) : Rat := if b = 0 then Config.divByZero a else a / b

/-- An angle moved by a number of revolutions, mod 2^32 (its rounding is free). -/
def angleAdd (theta : Nat) (turns : Rat) : Nat := toBits 32 ((theta : Int) + showInt (turns * 2 ^ 32))
/-- An angle difference folded into ±half a revolution, in 2^-32 revolution. -/
def angleWrap (d : Int) : Int := signExt 32 (toBits 32 d)

/-! ## Transforms (R283) -/

/-- Clarke. -/
def clarke (iu iv iw : Held) : Held × Held :=
  (heldMul (1 / 3) (heldSub (heldSub (heldMul 2 iu) iv) iw), heldMul (1 / Config.sqrtR 3) (heldSub iv iw))
/-- Park at an angle. -/
def park (ab : Held × Held) (theta : Nat) : Held × Held :=
  let c := Config.cosTurn theta
  let s := Config.sinTurn theta
  (heldAdd (heldMul c ab.1) (heldMul s ab.2), heldAdd (heldMul (-s) ab.1) (heldMul c ab.2))
/-- Inverse Park and inverse Clarke. -/
def invPark (d q : Held) (theta : Nat) : Held × Held × Held :=
  let c := Config.cosTurn theta
  let s := Config.sinTurn theta
  let a := heldSub (heldMul c d) (heldMul s q)
  let b := heldAdd (heldMul s d) (heldMul c q)
  let h := heldMul (Config.sqrtR 3 / 2) b
  (a, heldAdd (heldMul (-1 / 2) a) h, heldSub (heldMul (-1 / 2) a) h)
/-- Stage 10: the duties of va, vb, vc at a link voltage, and whether a sum saturated. -/
def duties (va vb vc : Held) (udc : Rat) : (Rat × Rat × Rat) × Bool :=
  let top : Held := (max (max va.1 vb.1) vc.1, false)
  let low : Held := (min (min va.1 vb.1) vc.1, false)
  let v0 := heldMul (-1 / 2) (heldAdd top low)
  let x := fun (v : Held) => heldAdd v v0
  let d := fun (v : Held) => clampR 0 1 (1 / 2 + divR (x v).1 udc)
  ((d va, d vb, d vc), (x va).2 || (x vb).2 || (x vc).2)
/-- Stage 11: the compare word of a duty. -/
def dutyWord (d : Rat) (period : Int) : Int := roundAway (d * period * 8)

/-! ## Inputs of the loop -/

/-- The valid mean of a role in a handoff, in mA or mV. -/
def Handoff.mean (h : Handoff) (r : Nat) : Option Rat :=
  match h.means.find? (fun m => m.1 == r && m.2.2) with
  | some m => some m.2.1
  | none => none

/-- Three phase values from those known: with two known the third is minus their sum (R283, R342). -/
def threeOf (a b c : Option Rat) : Option (Rat × Rat × Rat) :=
  match a, b, c with
  | some x, some y, some z => some (x, y, z)
  | some x, some y, none => some (x, y, -(x + y))
  | some x, none, some z => some (x, -(x + z), z)
  | none, some y, some z => some (-(y + z), y, z)
  | _, _, _ => none

/-- The role of the physical leg a logical phase is carried on (R193). -/
def State.phaseRole (s : State) (n : Fin 4) (p base : Nat) : Nat := base + physLeg (s.rdN (Obj.legPerm n.val)) p

/-- Every phase's reconstructed value is young enough (R345). -/
def State.reconFresh (s : State) (n : Fin 4) : Bool :=
  let hold := s.rdN (Obj.reconHold n.val + s.bankOfLoaf n)
  let o := s.oven.get n
  o.reconI.length == 3 && o.reconAge.length == 3 && o.reconAge.all (fun a => decide (a ≤ hold))

/-- Stage 1's currents in mA by logical phase: means, or the reconstructed values. -/
def State.stageCurrents (s : State) (n : Fin 4) : Option (Rat × Rat × Rat) :=
  let h := s.hand.get n
  let m := fun p => h.mean (s.phaseRole n p 1)
  if s.reconRuns n then
    (if s.reconFresh n then
      let r := (s.oven.get n).reconI
      some (r.getD 0 0, r.getD 1 0, r.getD 2 0) else none)
  else threeOf (m 0) (m 1) (m 2)

/-- The role-7 mean of loaf `UDC_LOAF` in mV, while that loaf has a role-7 input (R287). -/
def State.udcMean (s : State) (n : Fin 4) : Option Rat :=
  let u := Fin.ofNat 4 (s.rdN (Obj.udcLoaf n.val))
  if (s.findRole u 7).isSome then (s.hand.get u).mean 7 else none

/-! ## The angle (R284, R305 to R307) -/

/-- The displacement angle of a loaf (R324). -/
def State.dispAngle (s : State) (n : Fin 4) : Nat :=
  match s.groupOf n with
  | some g => toBits 32 (roundAway (s.rdR (Obj.dispAngle g.val n.val) * 2 ^ 32 / 36000))
  | none => 0

/-- The group's frame length in seconds: its timing loaf's. -/
def State.groupT (s : State) (g : Fin 4) : Rat :=
  match s.timingLoaf g with
  | some n => (s.frameTicks n : Rat) / 200000000
  | none => 0

/-- The group is the pair group of a STANDBY or FOLLOWER module (R460). -/
def State.follows (s : State) (g : Fin 4) : Bool :=
  decide (s.prGroup = g) && decide (s.prRole = 2 ∨ s.prRole = 4)

/-- The group runs on the observer (sensorless Starter). -/
def State.onObserver (s : State) (g : Fin 4) : Bool := decide (s.rdN (Obj.starter g.val) = 3)

/-- ωe in electrical revolutions per second, in magnitude of the handover blend of R307. -/
def State.blendW (s : State) (g : Fin 4) (we : Rat) : Rat :=
  let ho := q16 (s.actG g (Obj.hoSpeed g.val))
  clampR 0 1 (divR (absR we - 9 / 10 * ho) (2 / 10 * ho))

/-- θb and ωe (electrical revolutions per second) of a loaf from feedback channel `c`, whether the angle was formed from a valid
position, and whether a sensor gave it (R284). -/
def State.channelAngle (s : State) (n g : Fin 4) (c : Nat) : Nat × Rat × Bool × Bool :=
  let o := s.oven.get n
  let ofs := (s.rdN (Obj.angleOfs n.val) + s.dispAngle n) % 2 ^ 32
  let pp := s.rdN (Obj.polePairs n.val)
  let x := (s.fb.get (Fin.ofNat 4 c)).latch.get n
  if x.posOk then (((x.pos % 2 ^ 25).toNat * pp * 128 + ofs) % 2 ^ 32, (pp : Rat) * (s.grp.get g).speed, true, true)
  else if o.thetaOk then (o.thetaHold, 0, false, true)
  else (ofs, 0, false, true)

/-- The same from the last mirror frame: its θb advanced by ωe times the time since its group boundary (R460). -/
def State.mirrorAngle (s : State) (n g : Fin 4) : Nat × Rat × Bool × Bool :=
  let we : Rat := (s.rdN (Obj.polePairs n.val) : Rat) * ((leAtI s.pair.last 64 4 : Int) / 65536)
  let late : Nat := (s.grp.get g).frame - leAt s.pair.last 4 4
  (angleAdd ((leAt s.pair.last 76 4 + s.dispAngle n) % 2 ^ 32) (we * (late : Rat) * s.groupT g), we, true, false)

/-- The position channel of a group has found its reference. -/
def State.posRefSet (s : State) (g : Fin 4) : Bool :=
  decide (s.rdN (Obj.posCh g.val) < 4) && (s.fb.get (Fin.ofNat 4 (s.rdN (Obj.posCh g.val)))).posRef

/-- θb and ωe of a loaf at its boundary, with the flags of `channelAngle` (R284); a STANDBY or FOLLOWER takes the mirror frame's angle
until its `POS_CH` has `POS_REF`, and runs no Starter (R460). `k` is the index of the free values the observer draws. -/
def State.loafAngle (s : State) (n : Fin 4) (k : Nat) : Nat × Rat × Bool × Bool :=
  let ofs := (s.rdN (Obj.angleOfs n.val) + s.dispAngle n) % 2 ^ 32
  if (s.loaf.get n).test then (s.rdN (Obj.testAngle n.val), 0, false, false)
  else match s.groupOf n with
    | none => (ofs, 0, false, false)
    | some g =>
      let pp := s.rdN (Obj.polePairs n.val)
      if s.follows g && s.posRefSet g then s.channelAngle n g (s.rdN (Obj.posCh g.val))
      else if s.follows g && decide (s.pair.last.length = 130) then s.mirrorAngle n g
      else if s.starterAngle g then
        (((s.grp.get g).startAngle + s.dispAngle n) % 2 ^ 32, (pp : Rat) * (s.grp.get g).speed, false, false)
      else if s.onObserver g then
        let we := Config.obsSpeed k n.val
        let hfi := (Config.hfiAngle k n.val + (s.grp.get g).startAngle) % 2 ^ 32
        let w := s.blendW g we
        (angleAdd ((hfi + s.dispAngle n) % 2 ^ 32)
          (w * ((angleWrap ((Config.obsAngle k n.val : Int) - (hfi : Int)) : Int) : Rat) / 2 ^ 32), we, false, false)
      else match s.angleCh g with
        | none => (ofs, 0, false, false)
        | some c => s.channelAngle n g c

/-! ## The loop -/

/-- What one frame of the loop brings: fractions of the bases, duties, flags. -/
structure Loop where
  id : Rat
  iq : Rat
  idRef : Rat
  iqRef : Rat
  vd : Rat
  vq : Rat
  xd : Rat
  xq : Rat
  duty : Rat × Rat × Rat
  v3 : Rat × Rat × Rat
  limited : Bool
  clamped : Bool
  /-- A product or sum saturated in stages 1 to 3, in any stage. -/
  satIn : Bool
  sat : Bool
deriving DecidableEq, Repr

/-- CK_CTL cycles of a number of periods of `HFI_FREQ`. -/
def State.hfiCycles (s : State) (g : Fin 4) (periods : Nat) : Rat := (periods : Rat) * hzCtl / s.rdR (Obj.hfiFreq g.val)

/-- The polarity pulse of the sensorless Starter in mA: +`POL_I`, then −`POL_I`, four injection periods each (R306). -/
def State.polPulse (s : State) (g : Fin 4) : Option Rat :=
  let x := s.grp.get g
  if x.st = .starting ∧ s.onObserver g ∧ x.startPhase = 5 then
    let i := s.actG g (Obj.polI g.val)
    some (if ((s.time.now - x.polT : Nat) : Rat) < s.hfiCycles g 4 then i else -i)
  else none

/-- The injected voltage on the estimated d-axis in mV: a sine of `HFI_FREQ` whose amplitude falls with the handover to the observer
(R306, R307). Its phase counts from the entry into STARTING (DESIGN CHOICE: the rules name none, log entry 165). -/
def State.injection (s : State) (g : Fin 4) (we : Rat) : Rat :=
  let x := s.grp.get g
  if s.onObserver g && x.st.active then
    let turns := ((s.time.now - x.startT : Nat) : Rat) / s.hfiCycles g 1
    (1 - s.blendW g we) * s.actG g (Obj.hfiV g.val) * Config.sinTurn (angleAdd 0 turns)
  else 0

/-- Current references of a loaf as fractions before the limit: the Starter's, the test's or the group's. -/
def State.loopRefs (s : State) (n : Fin 4) : Rat × Rat :=
  let ib := s.rdR (Obj.iBase n.val)
  if (s.loaf.get n).test then (s.rdR (Obj.idqTestD n.val) / ib, s.rdR (Obj.idqTestQ n.val) / ib)
  else match s.groupOf n with
    | none => (s.actN n (Obj.idRef n.val) / ib, 0)
    | some g =>
      if s.starterAngle g then (s.actG g (Obj.startI g.val) / ib, 0)
      else match s.polPulse g with
        | some i => (i / ib, 0)
        | none => (s.actN n (Obj.idRef n.val) / ib, (s.oven.get n).iqRef * 1000 / ib)

/-- Stage 4's limit: the references held within `I_MAX`, id first. -/
def limitRefs (id iq imax : Rat) : Rat × Rat × Bool :=
  if imax * imax < id * id + iq * iq then
    let d := clampR (-imax) imax id
    let m := Config.sqrtR (imax * imax - d * d)
    (d, clampR (-m) m iq, true)
  else (id, iq, false)

/-- The decoupling terms of R327 and R476 as held fractions, d axis and q axis, at ωe in rad/s. -/
def State.decouple (s : State) (n : Fin 4) (g : Fin 4) (we t : Rat) : List Held × List Held :=
  let vb := milli (s.rdR (Obj.vBase n.val))
  let ff := q16 (s.actG g (Obj.ffMut g.val))
  let terms := ((s.bound g).filter (fun m => m != n && (s.loaf.get m).running)).map (fun m =>
    let o := s.oven.get m
    let md := s.rdR (Obj.mutD g.val (4 * n.val + m.val)) / 1000000000
    let mq := s.rdR (Obj.mutQ g.val (4 * n.val + m.val)) / 1000000000
    let refs := o.refOk && o.refOkPrev
    let did := if refs then divR (o.idRef - o.idRefPrev) t else 0
    let diq := if refs then divR (o.iqRef - o.iqRefPrev) t else 0
    ([ff * md * did, -(ff * we * mq * o.iqSnap)], [ff * mq * diq, ff * we * md * o.idSnap]))
  let remote := if s.rd Obj.prMode = 1 ∧ s.paired ∧ s.prGroup = g ∧ !s.pair.lost then
      (List.range 2).map (fun r =>
        let p := s.rdN (Obj.prRemoteLoaf r)
        if p < 4 then
          let ib := milli (s.rdR (Obj.iBase n.val))
          let idp := (leAtI s.pair.last (80 + 12 * p + 8) 2 : Rat) / 32768 * ib
          let iqp := (leAtI s.pair.last (80 + 12 * p + 10) 2 : Rat) / 32768 * ib
          ([-(ff * we * (s.rdR (Obj.prMutQ (2 * n.val + r)) / 1000000000) * iqp)],
           [ff * we * (s.rdR (Obj.prMutD (2 * n.val + r)) / 1000000000) * idp])
        else ([], []))
    else []
  let fractions := fun (l : List Rat) => l.map (fun v => held (v / vb))
  (fractions ((terms ++ remote).flatMap (fun x => x.1)), fractions ((terms ++ remote).flatMap (fun x => x.2)))

/-- Stages 1 to 3: id and iq as fractions from currents in mA at the middle of the averaged frame. -/
def State.loopIn (s : State) (n : Fin 4) (i3 : Rat × Rat × Rat) (theta : Nat) (weRev : Rat) : Held × Held :=
  let ibm := s.rdR (Obj.iBase n.val)
  let t : Rat := (s.frameTicks n : Rat) / 200000000
  park (clarke (held (i3.1 / ibm)) (held (i3.2.1 / ibm)) (held (i3.2.2 / ibm))) (angleAdd theta (-(weRev * t / 2)))

/-- Stages 2 to 10 for currents in mA, a link voltage in mV, the angle and ωe in electrical revolutions per second. -/
def State.loopRun (s : State) (n : Fin 4) (i3 : Rat × Rat × Rat) (udcMv : Rat) (theta : Nat) (weRev : Rat) : Loop :=
  let o := s.oven.get n
  let ibm := s.rdR (Obj.iBase n.val)
  let vbm := s.rdR (Obj.vBase n.val)
  let vb := milli vbm
  let t : Rat := (s.frameTicks n : Rat) / 200000000
  let we := Config.twoPi * weRev
  let dq := s.loopIn n i3 theta weRev
  let id := dq.1
  let iq := dq.2
  let r0 := s.loopRefs n
  let rd := held r0.1
  let rq := held r0.2
  let r := limitRefs rd.1 rq.1 (s.actN n (Obj.iMax n.val) / ibm)
  let ed := heldSub (r.1, rd.2) id
  let eq := heldSub (r.2.1, rq.2) iq
  let k := milli ibm / vb
  let ld := s.rdR (Obj.motLd n.val) / 1000000000
  let lq := s.rdR (Obj.motLq n.val) / 1000000000
  let psi := s.rdR (Obj.motPsi n.val) / 1000000
  let xc := q16 (s.actN n (Obj.ffXc n.val))
  let emf := q16 (s.actN n (Obj.ffEmf n.val))
  let dec := match s.groupOf n with
    | some g => if (s.loaf.get n).test then ([], []) else s.decouple n g we t
    | none => ([], [])
  let inj := match s.groupOf n with
    | some g => if (s.loaf.get n).test then 0 else s.injection g weRev
    | none => 0
  let ud := heldSum ([heldMul (q16 (s.actN n (Obj.kpD n.val)) * k) ed, (o.xd, false), heldMul (-(xc * we * lq * k)) iq]
    ++ dec.1 ++ [held (inj / vbm)])
  let uq := heldSum ([heldMul (q16 (s.actN n (Obj.kpQ n.val)) * k) eq, (o.xq, false), heldMul (xc * we * ld * k) id,
    held (emf * we * psi / vb)] ++ dec.2)
  let udc := held (udcMv / vbm)
  let vmax := heldMul (q16 (s.actN n (Obj.modMax n.val)) / Config.sqrtR 3) udc
  let vd := clampR (-vmax.1) vmax.1 ud.1
  let m := Config.sqrtR (vmax.1 * vmax.1 - vd * vd)
  let vq := clampR (-m) m uq.1
  let kaw := q16 (s.actN n (Obj.kaw n.val))
  let xd := heldSum [(o.xd, false), heldMul (t * q16 (s.actN n (Obj.kiD n.val)) * k) ed, heldMul (t * kaw) (heldSub (vd, false) ud)]
  let xq := heldSum [(o.xq, false), heldMul (t * q16 (s.actN n (Obj.kiQ n.val)) * k) eq, heldMul (t * kaw) (heldSub (vq, false) uq)]
  let v3 := invPark (vd, false) (vq, false) (angleAdd theta (3 / 2 * weRev * t))
  let d := duties v3.1 v3.2.1 v3.2.2 udc.1
  { id := id.1, iq := iq.1, idRef := r.1, iqRef := r.2.1, vd := vd, vq := vq, xd := xd.1, xq := xq.1,
    duty := d.1, v3 := (v3.1.1, v3.2.1.1, v3.2.2.1),
    limited := decide (vd ≠ ud.1) || decide (vq ≠ uq.1), clamped := r.2.2, satIn := id.2 || iq.2,
    sat := vmax.2 || xd.2 || xq.2 || d.2 }

/-- Entry into CLOSED: both integrators 0, the open-phase blocks, the check runs and the voltage history from the start (R283, R316,
R340). -/
def OvenSt.closed (o : OvenSt) : OvenSt :=
  { o with xd := 0, xq := 0, incRun := 0, incSaid := false, udcRun := 0, vlimRun := 0, opFrames := 0, opBad := false, opMaxI := [],
           opMaxV := [], opDone := false, lostSaid := [], uHist := [] }
/-- A loaf enters CLOSED, by its group or by `LOAF_STATE` on the test references. -/
def State.loafClose (n : Fin 4) (test : Bool) (s : State) : State :=
  ((s.loafTo n .closed).modLoaf n (fun l => { l with test := test })).modOven n OvenSt.closed

/-- The closing conditions of R291. -/
def State.canClose (s : State) (n : Fin 4) : Bool :=
  decide (s.mode = .ready ∨ s.mode = .operational) && s.has n.val
    && (List.range 4).all (fun k => !s.has k || !s.convServes k n || s.power.refReady.get (Fin.ofNat 6 k))
    && (decide (2 ≤ ([1, 2, 3].filter (fun r => (s.findRole n r).isSome)).length) || s.reconOk n)
    && (s.findRole (Fin.ofNat 4 (s.rdN (Obj.udcLoaf n.val))) 7).isSome
    && s.safety.genC && s.safety.genM && s.loafFree n

/-! ## Run counts of Proof and of the loop's own faults -/

/-- A run count kept at place `i` of a list. -/
def runAt (l : List Nat) (i : Nat) : Nat := l.getD i 0
def setAt {α : Type} (z : α) (l : List α) (i : Nat) (v : α) : List α :=
  ((List.range (max l.length (i + 1))).map (fun j => l.getD j z)).set i v

/-- A check's run moved on: it counts while beyond its threshold, returns to 0 within it, and its fault is raised once
in a run that reaches its count (R315). -/
def State.runCheck (n : Fin 4) (i : Nat) (beyond : Bool) (count : Nat) (code : Half) (data : Int) (s : State) : State :=
  let o := s.oven.get n
  if !beyond then s.modOven n (fun o => { o with runs := setAt 0 o.runs i 0, said := setAt false o.said i false })
  else
    let r := runAt o.runs i + 1
    let s1 := s.modOven n (fun o => { o with runs := setAt 0 o.runs i r })
    if count ≤ r ∧ !o.said.getD i false then
      (s1.modOven n (fun o => { o with said := setAt false o.said i true })).latch code (mkInst n.val 0) data
    else s1

/-- Proof is on for check `i` of the loaf. -/
def State.proofOn (s : State) (n : Fin 4) (i : Nat) : Bool := s.rdBit (Obj.proofEn n.val) i

/-- The magnitude of a current vector in mA. -/
def magMa (ib d q : Rat) : Rat := Config.sqrtR (d * d + q * q) * ib

/-- Proof's frame checks of a loaf (electrical, angle, ground, inter-turn) over a completed loop, of an incomplete frame or not.
`k` indexes the free values of the prediction and the observer. -/
def State.proofFrame (n : Fin 4) (inc : Bool) (l : Loop) (i3 : Rat × Rat × Rat) (theta thetaP : Nat) (weRev : Rat) (sensor : Bool)
    (k : Nat) (s : State) : State :=
  let o := s.oven.get n
  let ib := s.rdR (Obj.iBase n.val)
  let closed := decide ((s.loaf.get n).st = .closed)
  let s1 := if s.proofOn n 0 && closed && !inc then
      let d := magMa ib (l.id - Config.proofPredict k n.val 0) (l.iq - Config.proofPredict k n.val 1)
      let f := Config.filterStep o.peRes d (s.rdN (Obj.peTc n.val + s.bankOfLoaf n))
      let v := shown32 (showInt f)
      ((s.modOven n (fun o => { o with peRes := f })).wr (Obj.peRes n.val) v).runCheck n 0
        (decide (s.actN n (Obj.peThr n.val) < f)) (s.rdN (Obj.peCount n.val + s.bankOfLoaf n)) 0x5001 v
    else s
  let s2 := if s1.proofOn n 2 && closed && sensor && decide (q16 (s1.actN n (Obj.paMinspd n.val)) ≤ absR weRev) then
      let d := angleWrap ((Config.obsAngle k n.val : Int) - (theta : Int))
      (s1.wr (Obj.paDiff n.val) d).runCheck n 2 (decide (s1.actN n (Obj.paThr n.val) < absR (d : Rat)))
        (s1.rdN (Obj.paCount n.val + s1.bankOfLoaf n)) 0x5003 d
    else s1
  let s3 := if s2.proofOn n 3 && decide (([1, 2, 3].filter (fun r => (s2.findRole n r).isSome)).length = 3)
        && !([1, 2, 3].any (fun r => s2.roleLost n r)) then
      let sum := absR (heldSum [held (i3.1 / ib), held (i3.2.1 / ib), held (i3.2.2 / ib)]).1 * ib
      let v := shown32 (roundAway sum)
      (s2.wr (Obj.pgSum n.val) v).runCheck n 3 (decide (s2.actN n (Obj.pgThr n.val) < sum))
        (s2.rdN (Obj.pgCount n.val + s2.bankOfLoaf n)) 0x5004 v
    else s2
  if s3.proofOn n 4 && closed then
    let ab := clarke (held (i3.1 / ib)) (held (i3.2.1 / ib)) (held (i3.2.2 / ib))
    let dq := park ab (toBits 32 (-(thetaP : Int)))
    let f := Config.filterStep o.pnRes (magMa ib dq.1.1 dq.2.1) (s3.rdN (Obj.pnTc n.val + s3.bankOfLoaf n))
    let v := shown32 (showInt f)
    ((s3.modOven n (fun o => { o with pnRes := f })).wr (Obj.pnRes n.val) v).runCheck n 4
      (decide (s3.actN n (Obj.pnThr n.val) < f)) (s3.rdN (Obj.pnCount n.val + s3.bankOfLoaf n)) 0x5005 v
  else s3

/-- The open-phase block test (R340): the greatest |ix| and |vx| of the block, judged at its end. -/
def State.openPhase (n : Fin 4) (inc : Bool) (i3 v3 : Rat × Rat × Rat) (s : State) : State :=
  let o := s.oven.get n
  let k := s.rdN (Obj.opK n.val + s.bankOfLoaf n)
  let vb := s.rdR (Obj.vBase n.val)
  let up := fun (l : List Rat) (i : Nat) (v : Rat) => max (l.getD i 0) (absR v)
  let mi := [up o.opMaxI 0 i3.1, up o.opMaxI 1 i3.2.1, up o.opMaxI 2 i3.2.2]
  let mv := [up o.opMaxV 0 (v3.1 * vb), up o.opMaxV 1 (v3.2.1 * vb), up o.opMaxV 2 (v3.2.2 * vb)]
  let bad := o.opBad || inc
  if o.opFrames + 1 < k then
    s.modOven n (fun o => { o with opFrames := o.opFrames + 1, opMaxI := mi, opMaxV := mv, opBad := bad })
  else
    let hit := (List.range 3).filter (fun p => !bad
      && decide (mi.getD p 0 < s.actN n (Obj.opIThr n.val) ∧ s.actN n (Obj.opVThr n.val) < mv.getD p 0))
    let s1 := s.modOven n (fun o => { o with
      opFrames := 0, opMaxI := [], opMaxV := [], opBad := false, opDone := !hit.isEmpty || (o.opDone && bad) })
    match hit with
    | [] => s1
    | p :: _ =>
      let leg := physLeg (s.rdN (Obj.legPerm n.val)) p
      let s2 := s1.bump (Obj.openCount n.val)
      if o.opDone then s2
      else (s2.wr (Obj.protLeg n.val) (leg : Int)).latch 0x5404 (mkInst n.val leg) 0

/-- The faults of lost phase currents, R342 and R343: 0x5405 once an input, 0x5406 where no reconstruction is possible. -/
def State.lostCurrents (n : Fin 4) (s : State) : State :=
  let s1 := forAll [1, 2, 3] (fun r x =>
    if x.roleLost n r then
      (if (x.oven.get n).lostSaid.contains r then x
       else ((x.modOven n (fun o => { o with lostSaid := r :: o.lostSaid })).wr (Obj.protLeg n.val) ((r - 1 : Nat) : Int)).latch
          0x5405 (mkInst n.val (r - 1)) 0)
    else x.modOven n (fun o => { o with lostSaid := o.lostSaid.filter (fun y => y != r) })) s
  let said := (s1.oven.get n).lostSaid
  if decide (s1.currentsHeld n < 2) && !s1.reconOk n then
    (if said.contains 0 then s1
     else ((s1.modOven n (fun o => { o with lostSaid := 0 :: said })).wr (Obj.protLeg n.val) 4).latch 0x5406 (mkInst n.val 4) 0)
  else s1.modOven n (fun o => { o with lostSaid := said.filter (fun y => y != 0) })

/-! ## Attribution of a plausibility fault (R316) -/

/-- Proof's estimate of a loaf's link voltage in mV over its last 64 frames (R316). -/
def OvenSt.udcEstimate (o : OvenSt) : Rat :=
  let l := o.uHist.flatten
  divR ((l.map (fun p => p.1 * (p.2 - 1 / 2))).sum) ((l.map (fun p => (p.2 - 1 / 2) * (p.2 - 1 / 2))).sum)

/-- The attribution of R316 for pair `p` by loaf `n`. -/
def State.attribute (p : Nat) (n : Fin 4) (s : State) : State :=
  match s.findRole n 7 with
  | some (k, i) =>
    if decide ((s.loaf.get n).st = .closed ∧ i = 8 ∧ k / 2 = p) && [4, 5, 6].all (fun r => (s.findRole n r).isSome) then
      let u := (s.oven.get n).udcEstimate * 32768 / s.rdR (Obj.chFs k 8)
      let ok := fun (c : Nat) => decide (absR (s.rdR (Obj.chMean c 8) - u) ≤ s.rdR (Obj.plausTol (2 * p)) / 2)
      let e := ok (2 * p)
      let d := ok (2 * p + 1)
      if e && !d then s.latch 0x5006 (mkInst (2 * p + 1) 0) 0
      else if d && !e then s.latch 0x5006 (mkInst (2 * p) 0) 0
      else s
    else s
  | none => s

/-- A fault raised for a pair's plausibility sets off the attribution by every loaf (R316). -/
def State.attributed (code inst : Half) (s : State) : State :=
  if code = 0x4403 then forAll s.loaves (State.attribute (instIndex inst)) s else s

end Sys2Proof.Machine
end

