-- ==== Sys2Proof/Machine/GroupOps.lean ====
section
/-! DEFINITION. The group boundary of the Oven (R282): state changes and the Starter (R293 to R296, R305 to R308), the
bank swap (R304), shares, drag and capability (R328 to R336), the set-point generator and the outer loops (R297 to
R302), stall and invalid-speed timers (R300, R309), and what a pair adds (R460, R470, R475, R477). -/

namespace Sys2Proof.Machine

/-! ## Measured values of a group -/

/-- The group's speed is valid (`SPD_VALID` of its channel; the observer's is taken as valid while locked). -/
def State.spdOk (s : State) (g : Fin 4) : Bool :=
  if s.onObserver g then true
  else match s.posFb g with
    | some c => (s.fb.get c).spdOk
    | none => false
/-- `FB_INVALID` of the group's channel. -/
def State.fbBad (s : State) (g : Fin 4) : Bool :=
  match s.posFb g with
  | some c => (s.fb.get c).invalid
  | none => false
/-- The group's speed in rev/s: its channel's, or the observer's (R292); 0 while it is not valid. -/
def State.measSpeed (s : State) (g : Fin 4) : Rat :=
  if s.onObserver g then
    match s.timingLoaf g with
    | some n => divR (Config.obsSpeed s.freeNo n.val) (s.rdR (Obj.polePairs n.val))
    | none => 0
  else match s.posFb g with
    | some c => if (s.fb.get c).spdOk then (s.fb.get c).vShown else 0
    | none => 0
/-- The measured position in revolutions: as handed over at the latest boundary of the timing loaf (R270), or the present one
while none runs. -/
def State.measPos (s : State) (g : Fin 4) : Rat :=
  match s.posFb g with
  | some c => (((s.posHanded g).getD (s.posAt c s.time.now) : Int) : Rat) / 2 ^ 25
  | none => 0
/-! ## State changes (step 1) -/

/-- A bound loaf joins the run that starts (R293): it enters CLOSED where it meets R291, also one that `LOAF_STATE` closed, which
leaves the test for the group (DEDUCED, log entry 204); an OPEN one that may not close enters OFF. -/
def State.joinRun (n : Fin 4) (s : State) : State :=
  let l := s.loaf.get n
  if l.st = .isolated ∨ l.st = .fault ∨ (l.st = .closed ∧ !l.test) then s
  else if s.canClose n then s.loafClose n false
  else if l.st = .open_ then s.loafTo n .off else s

/-- Entry into STARTING (R281, R293, R301, R305): the generator picks the machine up, z is 0, the Starter begins; with
no bound counter running the loaves that may close do so at once. -/
def State.groupStart (g : Fin 4) (s0 : State) : State :=
  let s := if s0.rdN Obj.sbcGroup = g.val then s0.modSafety (fun f => { f with brakeDemC := false, brakeDemM := false }) else s0
  let st := s.rdN (Obj.starter g.val)
  let running := (s.bound g).any (fun n => (s.loaf.get n).running)
  let s1 := s.modGrp g (fun x => { x with
    st := .starting, startReq := true, stopReq := false, frame := 0, v := s.measSpeed g, a := 0, pos := s.measPos g,
    z := 0, p := 0, slewed := 0, startPhase := if (st = 1 ∨ st = 3 ∨ st = 4) ∧ !s.follows g then 1 else 0, startAngle := 0,
    startT := s.time.now, angleFromCh := decide (st ≠ 2), stallT := none, invT := none, stallHold := false, brakeDue := false,
    rotRevs := 0, rotSum := 0, rotN := 0, degNext := false, capped := false, staleRun := 0,
    posSaid := false, spdSaid := false })
  if running then s1 else forAll (s1.bound g) State.joinRun s1

/-- The boundary that applies a start: the loaves close (R293), the brakes of the group are released unless one has been demanded
since the start (R390). -/
def State.groupBegin (g : Fin 4) (s : State) : State :=
  let s1 := forAll (s.bound g) State.joinRun (s.modGrp g (fun x => { x with startReq := false }))
  if s1.rd Obj.sbcEn = 1 ∧ s1.rdN Obj.sbcGroup = g.val ∧ s1.safety.genC ∧ s1.safety.genM then
    s1.modSafety (fun f => { f with brkA := !f.brakeDemC, brkB := !f.brakeDemM })
  else s1

/-- The Starter has completed: RUNNING with every bound loaf CLOSED, DEGRADED otherwise (R293). -/
def State.starterDone (g : Fin 4) (s : State) : State :=
  let all := (s.bound g).all (fun n => decide ((s.loaf.get n).st = .closed))
  s.modGrp g (fun x => { x with st := if all then .running else .degraded, startPhase := 0 })

/-- Entry into STOPPING: the generator retargeted to 0 from the measured speed with acceleration 0; in torque mode the
speed integrator takes the standing torque (R295). -/
def State.enterStopping (g : Fin 4) (s : State) : State :=
  s.modGrp g (fun x => { x with
    st := .stopping, stopReq := false, startPhase := 0, a := 0, v := if x.stallHold then 0 else s.measSpeed g
    y := if s.rd (Obj.ctrlMode g.val) = 0 then x.torque else x.y, startT := s.time.now, stallT := none })

/-- The ramp stands at 0 and the machine at rest (R296, R300). -/
def State.atRest (s : State) (g : Fin 4) : Bool :=
  decide ((s.grp.get g).v = 0) && !s.fbBad g
    && (!s.spdOk g || decide (absR (s.measSpeed g) ≤ q16 (s.actG g (Obj.stopSpeed g.val))))

/-- The results of the rotation test, R308; a travel below half the expected one fails the Starter. -/
def State.rotationEnd (g : Fin 4) (s : State) : State :=
  let x := s.grp.get g
  let n := (s.timingLoaf g).getD 0
  let travel := x.rotMid - x.rotFrom
  let revs := s.actG g (Obj.rotRev g.val)
  let short := decide (absR travel < revs / s.rdR (Obj.polePairs n.val) / 2)
  let s1 := ((s.wr (Obj.rotResult g.val) ((b2n (decide (travel < 0)) + 2 + 4 * b2n short : Nat) : Int)).wr
    (Obj.rotPpMeas g.val) (shown32 (showInt (divR revs (absR travel) * 65536)))).wr (Obj.rotAngleOfs g.val)
      ((toBits 32 ((x.rotOfs : Int) + showInt (divR (x.rotSum : Rat) (x.rotN : Rat))) : Nat) : Int)
  let s2 := s1.enterStopping g
  if short then s2.latch 0x4C03 (mkInst g.val 0) 0 else s2

/-- One group frame of the rotation test's passes: the angle moves on and the offset is sampled (R308). -/
def State.rotationStep (g : Fin 4) (s : State) : State :=
  let x := s.grp.get g
  let n := (s.timingLoaf g).getD 0
  let d := q16 (s.actG g (Obj.startSpeed g.val)) * s.groupT g
  let revs := s.actG g (Obj.rotRev g.val)
  let pos := (s.posHanded g).getD 0 % 2 ^ 25
  let ofs := toBits 32 ((x.startAngle : Int) - pos * (s.rdN (Obj.polePairs n.val) : Int) * 128)
  let s1 := s.modGrp g (fun y => { y with
    rotOfs := if y.rotN = 0 then ofs else y.rotOfs
    rotSum := if y.rotN = 0 then 0 else y.rotSum + angleWrap ((ofs : Int) - (y.rotOfs : Int))
    rotN := y.rotN + 1 })
  if x.startPhase = 2 then
    let s2 := s1.modGrp g (fun y => { y with startAngle := angleAdd y.startAngle d, rotRevs := y.rotRevs + d })
    if revs ≤ x.rotRevs + d then s2.modGrp g (fun y => { y with startPhase := 3, rotMid := s.measPos g }) else s2
  else
    let s2 := s1.modGrp g (fun y => { y with startAngle := angleAdd y.startAngle (-d), rotRevs := y.rotRevs - d })
    if x.rotRevs - d ≤ 0 then s2.rotationEnd g else s2

/-- The polarity test of R306: the response under −`POL_I` less that under +`POL_I`, in the unit of `POL_MIN`. -/
def State.polarityTest (g : Fin 4) (polarity : Int) (s : State) : State :=
  let m := s.rd (Obj.polMin g.val + s.bankOfGroup g)
  if m ≤ polarity then s.modGrp g (fun x => { x with startPhase := 9 })
  else if polarity ≤ -m then s.modGrp g (fun x => { x with startPhase := 9, startAngle := (x.startAngle + 2 ^ 31) % 2 ^ 32 })
  else (s.modGrp g (fun x => { x with startPhase := 8 })).latch 0x4C03 (mkInst g.val 0) 0

/-- Both polarity pulses of the sensorless Starter have run by the group boundary (R306). -/
def State.pulsesDone (s : State) (g : Fin 4) : Bool :=
  let x := s.grp.get g
  decide (s.rdN (Obj.starter g.val) = 3 ∧ x.startPhase = 5) && decide (s.hfiCycles g 8 ≤ ((s.time.now - x.polT : Nat) : Rat))

/-- The Starter at a group boundary (R305). -/
def State.starterStep (g : Fin 4) (s : State) : State :=
  let x := s.grp.get g
  let ch := s.rdN (Obj.posCh g.val)
  let st := s.rdN (Obj.starter g.val)
  if x.startPhase = 0 ∨ x.startPhase = 9 then s.starterDone g
  else if s.pulsesDone g then
    let s1 := s.polarityTest g x.polResp
    if (s1.grp.get g).startPhase = 9 then s1.starterDone g else s1
  else if st = 1 then
    if (match s.posFb g with
        | some c => (s.fb.get c).posRef
        | none => false) then (s.modGrp g (fun y => { y with startPhase := 0 })).starterDone g
    else if x.startPhase = 2 then
      s.modGrp g (fun y => { y with
        startAngle := angleAdd y.startAngle (q16 (s.actG g (Obj.startSpeed g.val)) * s.groupT g) })
    else s
  else if st = 4 ∧ 2 ≤ x.startPhase ∧ ch < 4 then s.rotationStep g
  else s

/-- The Hall Starter hands the angle over once the position channel has `POS_REF` (R305). -/
def State.hallHandover (g : Fin 4) (s : State) : State :=
  match s.posFb g with
  | some c => if (s.fb.get c).posRef then s.modGrp g (fun y => { y with angleFromCh := true }) else s
  | none => s

/-- The brake of a hold-then-brake group is demanded (R311, R389 case 3). -/
def State.brakeDemand (g : Fin 4) (s : State) : State :=
  let s1 := s.modGrp g (fun y => { y with brakeDue := true, brakeT := s.time.now })
  if s.rd Obj.sbcEn = 1 ∧ s.rdN Obj.sbcGroup = g.val then s1.brakesOff else s1

/-- State changes latched up to the boundary (step 1 of R282). -/
def State.groupStates (g : Fin 4) (s : State) : State :=
  let x := s.grp.get g
  let s1 := if x.startReq then s.groupBegin g else s.modGrp g (fun y => { y with frame := (y.frame + 1) % 2 ^ 32 })
  let s2 := s1.hallHandover g
  if x.stopReq then s2.enterStopping g
  else if x.st = .starting then s2.starterStep g
  else if x.st = .running then
    (if (s2.bound g).any (fun n => decide ((s2.loaf.get n).st = .isolated)) then
      s2.modGrp g (fun y => { y with st := .degraded }) else s2)
  else if x.st = .stopping ∧ s2.atRest g then
    (if s2.rd (Obj.stallMode g.val) = 1 then
      (if x.brakeDue ∨ x.stallHold then s2 else s2.brakeDemand g)
    else s2.groupStopped g true)
  else s2

/-! ## Bank swap (step 2, R304) -/

/-- The class A addresses of a table in a range of unit 0, for unit `n`. -/
def classAOf (tbl : List ObjRow) (lo n : Nat) : List Nat :=
  (tbl.filter (fun r => decide (lo ≤ r.idx ∧ r.idx < lo + 0x100) && decide (r.cls = .a))).flatMap (fun r =>
    (List.range (r.hi + 1 - r.lo)).map (fun i => (r.idx + 0x100 * n) * 0x100 + r.lo + i))
/-- The class A objects of a group and the loaves bound to it. -/
def State.classA (s : State) (g : Fin 4) : List Nat :=
  classAOf (rowsOven ++ rowsMulti) 0x5400 g.val ++ (s.bound g).flatMap (fun n =>
    classAOf rowsOven 0x5000 n.val ++ classAOf rowsOven 0x5800 n.val ++ classAOf rowsMulti 0x5C00 n.val)

/-- A pending swap takes effect: the shadow bank becomes active, is copied into the new shadow bank, and the writes held
are applied there. -/
def State.bankSwap (g : Fin 4) (s : State) : State :=
  if !(s.grp.get g).swap then s
  else
    let newAct := if s.rd (Obj.bankActive g.val) = 1 then 0 else bankBit
    let newSh := bankBit - newAct
    let s1 := s.wr (Obj.bankActive g.val) (if newAct = 0 then 0 else 1)
    let s2 := forAll (s.classA g) (fun a x => x.wr (a + newSh) (x.rd (a + newAct))) s1
    let s3 := forAll (s.grp.get g).held (fun w x => x.wr (w.1 + newSh) w.2) s2
    (s3.bump (Obj.swapCount g.val)).modGrp g (fun x => { x with swap := false, held := [], swapped := true })

/-! ## Shares, drag and capability (step 3) -/

/-- id* of stage 4 in A, the Starter's value while it gives the current (R283, R328). -/
def State.idStar (s : State) (n : Fin 4) : Rat :=
  let m := milli (s.actN n (Obj.iMax n.val))
  clampR (-m) m ((s.loopRefs n).1 * milli (s.rdR (Obj.iBase n.val)))
/-- kt(n), R328. -/
def State.ktOf (s : State) (n : Fin 4) : Rat :=
  3 / 2 * s.rdR (Obj.polePairs n.val) * (s.rdR (Obj.motPsi n.val) / 1000000
    + (s.rdR (Obj.motLd n.val) - s.rdR (Obj.motLq n.val)) / 1000000000 * s.idStar n)
/-- cap(n), R328. -/
def State.capOf (s : State) (n : Fin 4) : Rat :=
  let m := milli (s.actN n (Obj.iMax n.val))
  if s.ktOf n ≤ 0 then 0 else absR (s.ktOf n) * Config.sqrtR (m * m - s.idStar n * s.idStar n)
/-- drag(m) of a loaf held in ASC, R332. -/
def State.dragOf (s : State) (g m : Fin 4) : Rat :=
  let we := Config.twoPi * s.rdR (Obj.polePairs m.val) * (s.grp.get g).speed
  let r := s.rdR (Obj.motR m.val) / 1000000
  let ld := s.rdR (Obj.motLd m.val) / 1000000000
  let lq := s.rdR (Obj.motLq m.val) / 1000000000
  let psi := s.rdR (Obj.motPsi m.val) / 1000000
  let den := r * r + we * we * ld * lq
  let ida := divR (-(we * we * lq * psi)) den
  let iqa := divR (-(we * r * psi)) den
  q16 (s.actG g (Obj.dragGain g.val)) * (3 / 2) * s.rdR (Obj.polePairs m.val) * (psi * iqa + (ld - lq) * ida * iqa)

/-- The loaves of the group now CLOSED. -/
def State.closedOf (s : State) (g : Fin 4) : List (Fin 4) :=
  (s.bound g).filter (fun n => decide ((s.loaf.get n).st = .closed))

/-- The capability the group has before `DEG_SCALE` (R334, R477). -/
def State.capRaw (s : State) (g : Fin 4) : Rat :=
  max 0 (((s.closedOf g).map s.capOf).sum - absR (s.grp.get g).drag)

/-- Step 3: the set, the drag and the published values (R331 to R336). -/
def State.renormalise (g : Fin 4) (s : State) : State :=
  let ns := s.closedOf g
  let changed := decide (ns ≠ (s.grp.get g).shareSet)
  let drag := if s.spdOk g then
      (((s.bound g).filter (fun m => decide ((s.loaf.get m).st = .isolated) && decide (s.pattern m = .asc))).map
        (s.dragOf g)).sum
    else (s.grp.get g).drag
  let s1 := s.modGrp g (fun x => { x with shareSet := ns, renorm := changed, drag := drag })
  let raw := s1.capRaw g
  let cap := if (s1.grp.get g).degraded then raw * q16 (s1.actG g (Obj.degScale g.val)) else raw
  let full := ((s1.bound g).map s1.capOf).sum
  let pct := if full = 0 then truncR (Config.divByZero (10000 * cap)) else truncR (10000 * cap / full)
  let s2 := (((((s1.modGrp g (fun x => { x with cap := cap, capFull := full })).wr (Obj.capTrq g.val)
    (shown32 (showInt (cap * 1000)))).wr (Obj.capFull g.val) (shown32 (showInt (full * 1000)))).wr
    (Obj.capPct g.val) (clampI 0 65535 pct)).wr (Obj.dragTrq g.val) (shown32 (showInt (drag * 1000))))
  let s3 := if changed then s2.wr (Obj.rtLastT g.val) ((s.time.now % 2 ^ 32 : Nat) : Int) else s2
  let st := (s3.grp.get g).st
  if changed && decide (st = .starting ∨ st = .running ∨ st = .degraded)
      && decide ((ns.length : Rat) < s3.actG g (Obj.rtMin g.val)) then
    s3.latch 0x5410 (mkInst g.val 0) 0
  else s3

/-! ## The set-point generator and the outer loops (step 4) -/

/-- The sign of a number. -/
def sgnR (x : Rat) : Rat := if x < 0 then -1 else if 0 < x then 1 else 0

/-- One generator step, R301: the new speed and acceleration. -/
def genStep (target v a acc dec jerk t : Rat) : Rat × Rat :=
  let dv := target - v
  let sg := sgnR dv
  let rising := decide (sg ≠ 0) && (decide (v = 0) || decide (sgnR v = sg))
  let alim := if rising then acc else dec
  let want := if sg ≠ 0 ∧ 0 < a * sg ∧ absR dv ≤ a * a / (2 * jerk) then 0 else sg * alim
  let a1 := a + clampR (-(jerk * t)) (jerk * t) (want - a)
  let v1 := v + a1 * t
  if sg = 0 ∨ (target - v1) * sg ≤ 0 then (target, 0) else (v1, a1)

/-- A value moved toward another by at most a step (R302). -/
def slewTo (x target step : Rat) : Rat := x + clampR (-step) step (target - x)

/-- The target in its mode's unit: N·m, rev/s, revolutions or N (R156). -/
def targetValue (t : Nat × Word × Int) : Rat :=
  if t.1 = 0 then milli (signExt 32 t.2.1.toNat : Int)
  else if t.1 = 1 then q16 (signExt 32 t.2.1.toNat : Int)
  else if t.1 = 2 then (t.2.2 : Rat) + (t.2.1.toNat % 2 ^ 25 : Nat) / 2 ^ 25
  else (signExt 32 t.2.1.toNat : Int)

/-- The target latched, in the control mode's unit; none where no `MOVE` of that mode stands. -/
def State.goal (s : State) (g : Fin 4) : Option Rat :=
  match (s.grp.get g).target with
  | some t => if (t.1 : Int) = s.rd (Obj.ctrlMode g.val) then some (targetValue t) else none
  | none => none

/-- The FOLLOWER's capability, 0 once three frames are lost (R469, R477). -/
def State.capR (s : State) : Rat := if s.pair.lost then 0 else milli (leAtI s.pair.last 68 4 : Int)

/-- The limit L of R298; the LEAD of a split pair adds its follower's capability (R477). -/
def State.trqLimit (s : State) (g : Fin 4) : Rat :=
  min (milli (s.actG g (Obj.trqMax g.val)))
    (if s.prGroup = g ∧ s.prRole = 3 then s.capRaw g + s.capR else (s.grp.get g).cap)

/-- The generator stepped once with the group's ramp objects. -/
def State.genTo (g : Fin 4) (target t : Rat) (s : State) : State :=
  let x := s.grp.get g
  let r := genStep target x.v x.a (q16 (s.actG g (Obj.rampAcc g.val))) (q16 (s.actG g (Obj.rampDec g.val)))
    (q16 (s.actG g (Obj.rampJerk g.val))) t
  s.modGrp g (fun x => { x with v := r.1, a := r.2, pos := x.pos + r.1 * t })

/-- The generator of the group's mode, R301. -/
def State.generator (g : Fin 4) (t : Rat) (s : State) : State :=
  let x := s.grp.get g
  let mode := s.rd (Obj.ctrlMode g.val)
  let lim := q16 (s.actG g (Obj.spdMax g.val))
  if x.st = .stopping then (if x.stallHold then s.modGrp g (fun y => { y with v := 0, a := 0 }) else s.genTo g 0 t)
  else if mode = 1 then s.genTo g (clampR (-lim) lim ((s.goal g).getD 0)) t
  else if mode = 2 then
    match s.goal g with
    | none => s.genTo g 0 t
    | some w =>
      let p := w - x.pos
      let s1 := s.genTo g (sgnR p * min lim (Config.sqrtR (2 * q16 (s.actG g (Obj.rampDec g.val)) * absR p))) t
      s1.modGrp g (fun y => { y with pos := if absR (w - y.pos) < 1 / 2 ^ 25 ∧ y.v = 0 then w else y.pos })
  else s

/-- The position loop at every `POS_DIV`-th update; its term is held between runs and while the speed is invalid (R298, R300). -/
def State.posLoop (g : Fin 4) (s : State) : State :=
  let x := s.grp.get g
  let hold := x.st = .stopping ∧ x.stallHold
  if (s.rd (Obj.ctrlMode g.val) = 2 ∧ x.st ≠ .stopping) ∨ hold then
    let due := decide (x.frame / s.rdN (Obj.spdDiv g.val) % s.rdN (Obj.posDiv g.val) = 0)
    if due && s.spdOk g then
      s.modGrp g (fun y => { y with p := q16 (s.actG g (Obj.kpP g.val))
        * ((if y.stallHold then y.holdPos else y.pos) - s.measPos g) })
    else s
  else s.modGrp g (fun y => { y with p := 0 })

/-- The speed PI for a reference: the new integrator and the limited torque (R298); the integrator holds while the speed
is invalid (R300). -/
def State.speedPi (s : State) (g : Fin 4) (ref t : Rat) : Rat × Rat :=
  let x := s.grp.get g
  let e := ref - s.measSpeed g
  let l := s.trqLimit g
  let tau := q16 (s.actG g (Obj.kpW g.val)) * e + x.y
  let lim := clampR (-l) l tau
  let y := x.y + t * (q16 (s.actG g (Obj.kiW g.val)) * e + q16 (s.actG g (Obj.kawW g.val)) * (lim - tau))
  (if s.spdOk g then y else x.y, lim)

/-- The tension loop of R299. -/
def State.tensionLoop (g : Fin 4) (t : Rat) (s : State) : State :=
  let x := s.grp.get g
  let aux := s.rdN (Obj.tenAux g.val)
  let mean := s.rd (Obj.chMean 5 aux)
  let f : Rat := (mean : Rat) * s.rdR (Obj.tenFs g.val) / 32768
  let lim := milli (s.actG g (Obj.tenTrimMax g.val))
  let trim := q16 (s.actG g (Obj.kpTen g.val)) * (x.slewed - f) + x.z
  let acts := decide (trim < -lim ∨ lim < trim)
  let tt := q16 (s.actG g (Obj.tenLever g.val)) * x.slewed + clampR (-lim) lim trim
  let z := if acts || !s.spdOk g then x.z else x.z + t * q16 (s.actG g (Obj.kiTen g.val)) * (x.slewed - f)
  let vmax := q16 (s.actG g (Obj.tenSpdMax g.val))
  let ref := if 0 ≤ tt then vmax else -vmax
  let r := s.speedPi g ref t
  let smaller := decide (absR tt ≤ absR r.2)
  let y := if !s.spdOk g then x.y
    else if smaller then tt - q16 (s.actG g (Obj.kpW g.val)) * (ref - s.measSpeed g) else r.1
  let bad := (s.conv.get 5).auxStale.testBit aux || (s.conv.get 5).auxSat.testBit aux
  let run := if bad then x.staleRun + 1 else 0
  let s1 := (s.modGrp g (fun w => { w with y := y, z := z, torque := if smaller then tt else r.2, staleRun := run })).wr
    (Obj.tenMeas g.val) (shown32 (showInt f))
  if run = 10 then s1.latch 0x4C0A (mkInst g.val 0) 0 else s1

/-- Proof's mechanical check of a loaf at a speed update (R315): the speed change less what the electrical torque of the
CLOSED loaves explains and the load estimate, which is free. -/
def State.mechCheck (g : Fin 4) (t : Rat) (n : Fin 4) (s : State) : State :=
  let st := (s.grp.get g).st
  if s.proofOn n 1 && decide (st = .running ∨ st = .degraded) && s.spdOk g then
    let tq := ((s.closedOf g).map (fun m => s.ktOf m * ((s.oven.get m).iq * milli (s.rdR (Obj.iBase m.val))))).sum
    let acc := tq / q16 (s.rdR (Obj.pmInertia n.val)) * t / Config.twoPi
    let r := (s.grp.get g).speed - (s.grp.get g).lastSpd - acc - Config.proofLoad s.freeNo n.val
    (s.wr (Obj.pmRes n.val) (shown32 (showInt (r * 65536)))).runCheck n 1
      (decide (q16 (s.actN n (Obj.pmThr n.val)) < absR r)) (s.rdN (Obj.pmCount n.val + s.bankOfLoaf n)) 0x5002 (shown32 (showInt (r * 65536)))
  else s

/-- The group frame is a speed update (R292). -/
def State.updates (s : State) (g : Fin 4) : Bool := decide ((s.grp.get g).frame % s.rdN (Obj.spdDiv g.val) = 0)

/-- A speed update latches a new target (R302). -/
def State.latchTarget (g : Fin 4) (s : State) : State :=
  s.modGrp g (fun x => match x.nextTarget with
    | some w => if x.st = .stopping then x else { x with target := some w, nextTarget := none }
    | none => x)

/-- A speed update (R298, R299, R301): the generator, the loops, and their faults. -/
def State.speedUpdate (g : Fin 4) (s : State) : State :=
  let t := s.groupT g * s.rdR (Obj.spdDiv g.val)
  let s2 := (s.generator g t).posLoop g
  let x := s2.grp.get g
  let mode := s2.rd (Obj.ctrlMode g.val)
  let s3 :=
    if x.st = .stopping ∨ mode = 1 ∨ mode = 2 then
      let r := s2.speedPi g (x.v + x.p) t
      s2.modGrp g (fun w => { w with y := r.1, torque := r.2 })
    else if mode = 3 then s2.tensionLoop g t
    else s2
  let beyond := decide (s3.actG g (Obj.posErrMax g.val) / 2 ^ 25 < absR (x.pos - s3.measPos g))
    && decide (mode = 2 ∧ x.st ≠ .stopping)
  let s4 := s3.modGrp g (fun w => { w with posSaid := beyond, limL := s3.trqLimit g })
  let s5 := if beyond && !x.posSaid then s4.latch 0x4C09 (mkInst g.val 0) 0 else s4
  (forAll (s5.bound g) (State.mechCheck g t) s5).modGrp g (fun w => { w with lastSpd := w.speed })

/-- What every group frame adds: the slewed reference of torque and tension mode (R302), the torque clamp (R297),
overspeed (R298) and the timers of stall and of an invalid speed (R300, R309). -/
def State.groupFrame (g : Fin 4) (s : State) : State :=
  let x := s.grp.get g
  let mode := s.rd (Obj.ctrlMode g.val)
  let t := s.groupT g
  let l := s.trqLimit g
  let run := decide (x.st ≠ .stopping)
  let target := (s.goal g).getD 0
  let s1 :=
    if run && decide (mode = 0) then
      let z := slewTo x.slewed target (s.actG g (Obj.trqSlew g.val) * t)
      s.modGrp g (fun w => { w with slewed := z, torque := clampR (-l) l z })
    else if run && decide (mode = 3) then
      s.modGrp g (fun w => { w with slewed := slewTo x.slewed target (s.actG g (Obj.tenSlew g.val) * t) })
    else s
  let y := s1.grp.get g
  let slow := decide (absR (s1.measSpeed g) < q16 (s1.actG g (Obj.stallSpeed g.val)))
  let stall := decide (mode ≠ 0) && slow && decide (absR y.torque = y.limL)
  let blind := !s1.spdOk g && decide (q16 (s1.actG g (Obj.stallSpeed g.val)) < absR y.v)
  let fast := decide (q16 (s1.actG g (Obj.overspeed g.val)) < absR (s1.measSpeed g))
  let hold := fun (o : Option Nat) (b : Bool) => if b then some (o.getD s1.time.now) else none
  let s2 := s1.modGrp g (fun w => { w with
    stallT := hold w.stallT stall, invT := hold w.invT blind, spdSaid := fast, stallHold := w.stallHold && (stall || !run) })
  if fast && !y.spdSaid then s2.latch 0x4C07 (mkInst g.val 0) 0 else s2

/-! ## The split (step 5, R329, R330) -/

/-- The passes of R329: loaves still open, the rest, and the shares given. -/
def State.sharePasses (s : State) (g : Fin 4) : Nat → List (Fin 4) → Rat → List (Fin 4 × Rat) → List (Fin 4 × Rat)
  | 0, _, _, acc => acc
  | _, [], _, acc => acc
  | fuel + 1, x :: xs, rest, acc =>
    let open_ := x :: xs
    let w := (open_.map (fun n => s.actG g (Obj.shareW g.val n.val))).sum
    let part := fun (n : Fin 4) =>
      if w = 0 then rest / (open_.length : Rat) else rest * s.actG g (Obj.shareW g.val n.val) / w
    let full := open_.filter (fun n => decide (s.capOf n < absR (part n)))
    if full.isEmpty then acc ++ open_.map (fun n => (n, part n))
    else
      let got := full.map (fun n => (n, sgnR rest * s.capOf n))
      State.sharePasses s g fuel (open_.filter (fun n => !full.contains n)) (rest - (got.map (fun p => p.2)).sum) (acc ++ got)

/-- The LEAD's part w of the torque, 0 where both capabilities are 0 (R477). -/
def State.shareW (s : State) (g : Fin 4) : Rat :=
  if s.capRaw g + s.capR = 0 then 0 else s.capRaw g / (s.capRaw g + s.capR)
/-- The torque this module splits: its own, or the half of a split pair (R475, R477). -/
def State.ownTorque (s : State) (g : Fin 4) : Rat :=
  let tau := (s.grp.get g).torque
  if s.prGroup ≠ g ∨ !s.paired ∨ s.rd Obj.prMode ≠ 1 then tau
  else if s.prRole = 4 then milli (leAtI s.pair.last 44 4 : Int)
  else if s.prRole = 3 then
    let dragR : Rat := if !s.pair.lost ∧ leAt s.pair.last 17 1 % 16 = 0 then milli (leAtI s.pair.last 72 4 : Int) else 0
    tau * s.shareW g - dragR
  else tau
/-- The torque sent to the follower, R477. -/
def State.tauFollower (s : State) (g : Fin 4) : Rat :=
  (s.grp.get g).torque * (1 - s.shareW g)

/-- Step 5: the q-axis references of the CLOSED loaves, `SHARE_EFF` and `IQ_SPLIT`. -/
def State.split (g : Fin 4) (s : State) : State :=
  let ns := (s.grp.get g).shareSet
  let need := s.ownTorque g - (s.grp.get g).drag
  let parts := s.sharePasses g 5 ns need []
  let w := (ns.map (fun n => s.actG g (Obj.shareW g.val n.val))).sum
  let s1 := forAll (s.bound g) (fun n x =>
    let t := ((parts.find? (fun p => p.1 == n)).map (fun p => p.2)).getD 0
    let inSet := ns.contains n
    let iq := if inSet && decide (0 < s.ktOf n) then t / s.ktOf n else 0
    let eff := if !inSet then 0
      else if need = 0 then (if w = 0 then 1 / (ns.length : Rat) else s.actG g (Obj.shareW g.val n.val) / w)
      else t / need
    ((x.wr (Obj.shareEff g.val n.val) (shown32 (showInt (eff * 65536)))).wr (Obj.iqSplit g.val n.val)
      (shown32 (showInt (iq * 1000)))).modOven n (fun o => { o with
        idRefPrev := o.idRef, iqRefPrev := o.iqRef, refOkPrev := o.refOk, refOk := inSet, idRef := s.idStar n, iqRef := iq,
        idSnap := o.id * milli (s.rdR (Obj.iBase n.val)), iqSnap := o.iq * milli (s.rdR (Obj.iBase n.val)) })) s
  let s2 := s1.modGrp g (fun x => { x with capped := !ns.isEmpty && ns.all (fun n =>
    decide (absR (((parts.find? (fun p => p.1 == n)).map (fun p => p.2)).getD 0) = s.capOf n)) && decide (need ≠ 0) })
  if s2.prGroup = g ∧ s2.prRole = 3 then
    (s2.modPair (fun p => { p with tauF := s.tauFollower g })).wrs
      [(Obj.prCapPartner, shown32 (showInt (s.capR * 1000))), (Obj.prShare, shown32 (showInt (s.shareW g * 65536)))]
  else s2

/-! ## The pair (R460, R470) -/

/-- The last frame reports group frame `j - 1`. -/
def State.mirrorFits (s : State) (j : Nat) : Bool := decide (s.pair.last.length = 130)
  && decide ((leAt s.pair.last 4 4 + 1) % 2 ^ 32 = j)

/-- A STANDBY runs the loaves of the pair group in the state the last mirror frame reports (R470): one reported CLOSED closes where it may
close; one not reported CLOSED by a group past its start is OFF (DEDUCED: the frame says no more of its state, log entry 195). -/
def State.mirrorStates (g : Fin 4) (s : State) : State :=
  let started := leAt s.pair.last 3 1 / 16 % 8
  if s.prRole ≠ 2 ∨ s.pair.last.length ≠ 130 ∨ s.pair.lost then s
  else forAll (s.bound g) (fun n x =>
    let l := (x.loaf.get n).st
    if (leAt s.pair.last 17 1).testBit n.val then (if (l = .off ∨ l = .open_) ∧ x.canClose n then x.loafClose n false else x)
    else if l = .closed ∧ (started = 2 ∨ started = 3) then x.loafTo n .off else x) s

/-- The values of the last mirror frame replace the module's own (R470; a FOLLOWER takes no integrators of slots, R475). -/
def State.mirrorApply (g : Fin 4) (s : State) : State :=
  let b := s.pair.last
  let q28 := fun (off : Nat) => (leAtI b off 4 : Rat) / 2 ^ 28
  let s1 := if s.prRole = 2 then
      forAll (s.bound g) (fun n x => if (x.loaf.get n).st = .closed then
        x.modOven n (fun o => { o with xd := q28 (80 + 12 * n.val), xq := q28 (84 + 12 * n.val) }) else x) s
    else s
  s1.modGrp g (fun x => { x with
    v := (leAtI b 20 4 : Rat) / 65536, a := (leAtI b 24 4 : Rat) / 65536
    pos := (leAtI b 32 2 : Rat) + (leAt b 28 4 % 2 ^ 25 : Nat) / 2 ^ 25
    y := milli (leAtI b 36 4 : Int), z := milli (leAtI b 40 4 : Int)
    target := some (leAt b 54 1, BitVec.ofNat 32 (leAt b 48 4), leAtI b 52 2) })

/-- The pair group of a STANDBY or FOLLOWER follows the partner's group into STARTING, STOPPING and STOPPED (R460);
its group frames take the partner's numbers, so that the frame before is the one the last mirror frame reports (R470). -/
def State.followPartner (g : Fin 4) (s : State) : State :=
  let p := leAt s.pair.last 3 1 / 16 % 8
  let st := (s.grp.get g).st
  let numbered := fun (x : State) => x.modGrp g (fun y => { y with frame := (leAt s.pair.last 4 4 + 1) % 2 ^ 32 })
  if s.pair.last.length ≠ 130 ∨ s.pair.lost then s
  else if st = .stopped ∧ 1 ≤ p ∧ p ≤ 3 then numbered (s.groupStart g)
  else if st = .starting ∧ (s.grp.get g).startReq ∧ 1 ≤ p ∧ p ≤ 3 then numbered s
  else if (st = .starting ∨ st = .running ∨ st = .degraded) ∧ p = 4 then s.modGrp g (fun x => { x with stopReq := true })
  else if st.active ∧ p = 0 then s.groupStopped g true
  else s

/-! ## The boundary -/

/-- The instant of the group boundary in progress. -/
def State.boundAt (s : State) (g : Fin 4) : Nat := match s.timingLoaf g with
  | some n => (s.loaf.get n).boundaryT
  | none => s.time.now

/-- Step 2: a swap received at least one cycle before the boundary (R304). -/
def State.boundSwap (g : Fin 4) (s : State) : State := if (s.grp.get g).swapT < s.boundAt g then s.bankSwap g else s

/-- A group boundary (R282). A group at rest only takes a pending swap; its frames are numbered on from its last
entry into STARTING (R281). -/
def State.groupBoundary (g : Fin 4) (s : State) : State :=
  let s0 := s.modGrp g (fun x => { x with swapped := false, renorm := false, speed := s.measSpeed g, boundT := s.boundAt g })
  let s1 := if s0.follows g then s0.followPartner g else s0
  if !(s1.grp.get g).st.active then ((s1.modGrp g (fun x => { x with frame := (x.frame + 1) % 2 ^ 32 })).boundSwap g).noShares g
  else
    let s2 := (((s1.groupStates g).groupsBare).boundSwap g)
    if !(s2.grp.get g).st.active then s2.noShares g
    else
      let r2 := if s2.follows g then s2.mirrorStates g else s2
      let s3 := if r2.follows g && r2.mirrorFits (r2.grp.get g).frame then r2.mirrorApply g else r2
      let up := s3.updates g
      let s4 := (if up then (s3.renormalise g).latchTarget g else s3.renormalise g).groupFrame g
      let s5 := if up then s4.speedUpdate g else s4
      let s6 := s5.split g
      let x := s6.grp.get g
      let s7 := s6.wrs [(Obj.rampSpd g.val, shown32 (showInt (x.v * 65536))),
        (Obj.rampA g.val, shown32 (showInt (x.a * 65536))),
        (Obj.trqRef g.val, shown32 (showInt (x.torque * 1000)))]
      match s7.timingLoaf g with
      | some n => s7.modGrp g (fun x => { x with thetaB := toBits 32 ((s7.loafAngle n s7.freeNo).1 - (s7.dispAngle n : Int)) })
      | none => s7

/-- A group's swap takes effect at once where no bound counter runs (R154). -/
def State.swapIfIdle (g : Fin 4) (s : State) : State :=
  if (s.bound g).any (fun n => (s.loaf.get n).running) then s else s.bankSwap g

end Sys2Proof.Machine
end

