-- ==== Sys2Proof/Machine/ConvOps.lean ====
section
/-! DEFINITION. The sample path of chapter 7: correction, accumulators, detectors, sequences and bursts, and the capture
memory. -/

namespace Sys2Proof.Machine

/-- Converter `k` changed. -/
def State.modConvN (k : Nat) (f : ConvSt → ConvSt) (s : State) : State := s.modConv (Fin.ofNat 6 k) f

/-! ## Correction (R215, R228, R229) -/

/-- The resolution of a converter in bits (R213). -/
def convBits (k : Nat) : Nat := if k = 5 then 12 else 14
/-- The result of a raw count under an offset and a gain, before the clamp (R228). -/
def corrected (k : Nat) (offset gain raw : Int) : Int := roundAway (((raw - offset) * gain : Int) / (2 : Rat) ^ (convBits k - 2))
/-- The result of a raw count (R228). -/
def chanResult (k : Nat) (offset gain raw : Int) : Int := clampI (-32767) 32767 (corrected k offset gain raw)
/-- The raw count stands at an end of its range. -/
def rawAtEnd (k : Nat) (raw : Int) : Bool :=
  decide (raw = -(2 : Int) ^ (convBits k - 1) ∨ raw = (2 : Int) ^ (convBits k - 1) - 1)
/-- The result is flagged saturated (R228). -/
def chanSat (k : Nat) (offset gain raw : Int) : Bool :=
  rawAtEnd k raw || decide (chanResult k offset gain raw ≠ corrected k offset gain raw)
/-- The results of a converter carry the not-ready flag (R102, R215, R219). -/
def State.notReady (s : State) (k : Nat) : Bool :=
  !s.power.refReady.get (Fin.ofNat 6 k) || (s.convAt k).failed || s.power.ckAdcBad
/-- A result in mA or mV (R229). -/
def State.physical (s : State) (k i : Nat) (result : Int) : Int :=
  roundAway ((result * s.rd (Obj.chFs k i) : Int) / (32768 : Rat))
/-- A threshold in mA as Q15 counts of an input (R338). -/
def State.thrCounts (s : State) (k i : Nat) (thr : Int) : Int :=
  roundAway ((thr * 32768 : Int) / s.rdR (Obj.chFs k i))

/-! ## Accumulators (R232 to R234, R241) -/

/-- A sample added to an input's accumulator; a not-ready one only marks it. -/
def accAdd (l : List Acc) (conv input : Nat) (v : Int) (bad sat : Bool) : List Acc :=
  let old := (l.find? (fun a => a.conv == conv && a.input == input)).getD
    { conv := conv, input := input, sum := 0, count := 0, bad := false }
  let new := if bad then { old with bad := true } else { old with sum := old.sum + v, count := old.count + 1, sat := old.sat || sat }
  l.filter (fun a => !(a.conv == conv && a.input == input)) ++ [new]

/-- The loaf whose frames average the `AUX` inputs (R241). -/
def State.auxLoafN (s : State) : Fin 4 := Fin.ofNat 4 (s.rdN (Obj.auxLoaf 5))
/-- The loaf an accumulator serves. -/
def State.accLoaf (s : State) (conv input : Nat) : Option (Fin 4) :=
  if conv = 5 then some s.auxLoafN
  else if s.role conv input % 16 = 0 then none else some (Fin.ofNat 4 (s.role conv input / 16))

/-- A regular sample reaches its accumulator by its recorded instant (R233, R234): the open frame, the frame closing,
or, too late, none; one recorded before the counter started belongs to no frame. -/
def State.accumulate (k i : Nat) (v : Int) (bad sat : Bool) (inst : Nat) (s : State) : State :=
  match s.accLoaf k i with
  | none => s
  | some n =>
    let l := s.loaf.get n
    if !l.running then (if k = 5 then { s with acc := accAdd s.acc k i v bad sat } else s)
    else if l.boundaryT ≤ inst then { s with acc := accAdd s.acc k i v bad sat }
    else if l.closing && decide (l.frameT ≤ inst) then { s with accOld := accAdd s.accOld k i v bad sat }
    else if l.startT ≤ inst then s.bump (Obj.lateSamples k)
    else s

/-- The mean of an `AUX` input's accumulator, or its previous mean flagged stale (R241). -/
def State.auxMean (l : List Acc) (i : Nat) (s : State) : State :=
  match l.find? (fun a => a.conv == 5 && a.input == i) with
  | some a =>
    if a.count = 0 then s.modConvN 5 (fun c => { c with auxStale := putBit c.auxStale i true })
    else (s.wr (Obj.chMean 5 i) (roundAway ((a.sum : Rat) / (a.count : Rat)))).modConvN 5
      (fun c => { c with auxStale := putBit c.auxStale i false, auxSat := putBit c.auxSat i a.sat })
  | none => s.modConvN 5 (fun c => { c with auxStale := putBit c.auxStale i true })

/-! ## Detectors (R338, R339) -/

/-- An input number put into a list or taken out of it. -/
def setMember (l : List Nat) (i : Nat) (b : Bool) : List Nat :=
  let r := l.filter (fun x => x != i)
  if b then i :: r else r

/-- The four steps from five results, newest first, all of one sign (R339). -/
def oneSign : List Int → Bool
  | [a, b, c, d, e] => decide (b < a ∧ c < b ∧ d < c ∧ e < d) || decide (a < b ∧ b < c ∧ c < d ∧ d < e)
  | _ => false

/-- The overcurrent test of a sample of loaf `n` in role `r` (R338). -/
def State.overHit (s : State) (k i : Nat) (n r : Nat) (v : Int) (sat : Bool) : Bool :=
  let thr := if r = 8 then s.rd (Obj.ocDcThr n) else s.rd (Obj.ocThr n)
  decide (thr ≠ 0) && (sat || decide (s.thrCounts k i thr < (v.natAbs : Int)))
/-- The slope test over a chain of five results (R339). -/
def State.slopeHit (s : State) (k i n : Nat) (chain : List Int) : Bool :=
  decide (s.rd (Obj.slopeThr n) ≠ 0) && oneSign chain
    && decide (s.thrCounts k i (s.rd (Obj.slopeThr n)) < ((chain.getD 0 0 - chain.getD 4 0).natAbs : Int))

/-- A result offered to the detectors of its loaf. The input `i` is one of converter `k`'s own. -/
def State.offer (k i : Nat) (v : Int) (sat bad : Bool) (s : State) : State :=
  let r := s.role k i % 16
  let n := s.role k i / 16 % 4
  if 4 ≤ k ∨ !(decide (1 ≤ r ∧ r ≤ 3) || decide (r = 8)) then s
  else if bad then s.modConvN k (fun c => { c with
    chains := c.chains.filter (fun x => x.1 != i), slopeOn := setMember c.slopeOn i false })
  else
    let chain := (v :: (((s.convAt k).chains.find? (fun x => x.1 == i)).map (fun x => x.2)).getD []).take 5
    let s1 := s.modConvN k (fun c => { c with
      overInputs := setMember c.overInputs i (s.overHit k i n r v sat)
      chains := (i, chain) :: c.chains.filter (fun x => x.1 != i)
      slopeOn := if r = 8 then c.slopeOn else setMember c.slopeOn i (s.slopeHit k i n chain) })
    if r = 8 then s1
    else
      let p := (s.physical k i v).natAbs
      if s.rd (Obj.ocPeak n) < (p : Int) then s1.wr (Obj.ocPeak n) (shown32 p) else s1

/-! ## Saturation and calibration -/

/-- A saturated result: its flag and its fault, once per 1 ms and input (R228). -/
def State.saturated (k i : Nat) (s : State) : State :=
  (s.wrBit (Obj.satFlags k) i true).latchLimited 0x0403 (mkInst k i) 0

/-- A sample counted by the calibrations of its input (R231). -/
def State.calibrate (k i : Nat) (raw : Int) (bad sat : Bool) (s : State) : State :=
  s.modCmd (fun c => { c with cals := c.cals.map (fun j =>
    if j.conv = k ∧ j.input = i ∧ !bad ∧ j.count < 4096 ∧ !(if j.full then sat else rawAtEnd k raw) then
      { j with count := j.count + 1, sum := j.sum + (if j.full then raw - j.offset else raw) }
    else j) })

/-! ## Sequences and bursts (R220 to R225) -/

/-- The even converter of the pair of `k`. -/
def evenOf (k : Nat) : Nat := k / 2 * 2

/-- A regular sample of the input of the entry due moves the sequence on; back at entry 0 the objects' sequence takes effect
(R220). `none` where the entry due names another input. -/
def State.seqStep (k i : Nat) (s : State) : Option State :=
  let l := s.seqNow k
  let e := (s.convAt k).seqPos
  if l.getD e 9 ≠ i then none
  else if e + 1 < l.length then some (s.modConvN k (fun c => { c with seqAct := l, seqPos := e + 1 }))
  else some (s.modConvN k (fun c => { c with seqAct := s.seqObj k, seqPos := 0 }))

/-- The result of a regular sample: one whose hold has been told already (R226) leaves the sequence as it is; a pair that
interleaves continuously holds none (R225). -/
def State.seqResult (k i inst : Nat) (s : State) : Option State :=
  let c := s.convAt k
  if c.held.contains (i, inst) ∨ c.gone.contains (i, inst) then
    some (s.modConvN k (fun c => { c with held := c.held.erase (i, inst), gone := c.gone.erase (i, inst) }))
  else if s.rd (Obj.pairMode (evenOf k)) = 2 then none
  else s.seqStep k i

/-- What was held before `b` on the inputs of loaf `n` is awaited no more (R234, R235). -/
def State.dropHeld (n : Fin 4) (b : Nat) (s : State) : State :=
  let old := fun (k : Nat) (x : Nat × Nat) => decide (x.2 < b) && s.accLoaf k x.1 == some n
  forAll (List.range 4) (fun k x => x.modConvN k (fun c => { c with
    held := c.held.filter (fun y => !old k y), gone := (c.held.filter (old k) ++ c.gone).take 64 })) s

/-- A regular sample is held and stamped; its result comes later (R226). -/
def State.seqHold (k i inst : Nat) (s : State) : Option State :=
  (s.seqStep k i).map (fun x => x.modConvN k (fun c => { c with held := (c.held ++ [(i, inst)]).reverse.take 64 |>.reverse }))

/-- A burst of the pair of converter `k` is in progress. -/
def State.bursting (s : State) (k : Nat) : Bool := (s.convAt (evenOf k)).burst.isSome
/-- Converter and input that `PAIR_SRC` names (R224). -/
def State.pairInput (s : State) (even : Nat) : Nat × Nat :=
  let x := s.rdN (Obj.pairSrc even)
  (even + x / 9, x % 9)

/-- The injected entries of a converter. -/
def State.injEntries (s : State) (k : Nat) : List Nat :=
  (List.range (s.rdN (Obj.injLen k))).map (fun e => s.rdN (Obj.seqInj k e))

/-- A dropped start: counted, and its fault at most once per 1 ms and converter (R223). -/
def State.overrun (k : Nat) (s : State) : State := (s.bump (Obj.injOverrun k)).latchLimited 0x4404 (mkInst k 0) 0

/-- A held injected start runs once the work in progress has ended (R223). -/
def State.injNext (k : Nat) (s : State) : State :=
  let c := s.convAt k
  if c.injHeld && c.injRun.isNone && !s.bursting k then
    s.modConvN k (fun c => { c with
      injHeld := false, injRun := if s.rd (Obj.injLen k) = 0 then none else some (s.injEntries k), injRes := [] })
  else s

/-- An injected start on a converter (R221, R223); a pair that interleaves continuously takes none (R225). Starts of one
cycle are one start. -/
def State.injStart (k : Nat) (s : State) : State :=
  let c := s.convAt k
  if s.rd (Obj.injLen k) = 0 ∨ s.rd (Obj.pairMode (evenOf k)) = 2 ∨ c.injT = some s.time.now then s
  else
    let s1 := s.modConvN k (fun c => { c with injT := some s.time.now })
    if c.injRun.isSome || s.bursting k then
      (if c.injHeld then s1.overrun k else s1.modConvN k (fun c => { c with injHeld := true }))
    else s1.modConvN k (fun c => { c with injRun := some (s.injEntries k), injRes := [] })

/-- A burst start on a pair by its even converter (R222, R223): `line` for a line start, else the Oven's own (R344). -/
def State.burstStart (even line : Nat) (own : Option (Nat × Nat × Int)) (s : State) : State :=
  if (s.convAt even).pairT = some s.time.now then s
  else
    let s1 := s.modConvN even (fun c => { c with pairT := some s.time.now })
    if s.bursting even then s1.overrun even
    else s1.modConvN even (fun c => { c with
      burst := some (s.rdN (Obj.pairBurstLen even)), burstLine := line, burstFor := own, burstBuf := [] })

/-- A reconstructed phase current taken: the third phase follows from the two (R344). -/
def State.reconTake (n p : Nat) (v : Rat) (s : State) : State :=
  s.modOven (Fin.ofNat 4 n) (fun o => { o with
    reconI := setAt 0 ((List.range 3).map (fun j => o.reconI.getD j 0)) p v
    reconAge := setAt 0 ((List.range 3).map (fun j => o.reconAge.getD j 65536)) p 0 })

/-- The handoff of loaf `n` carries the `PAIR_BUF` of a burst completed within its frame (R236). -/
def State.burstHanded (even : Nat) (n : Fin 4) (s : State) : State :=
  s.modLoaf n (fun l => { l with
    burstDone := (even, s.blob (Obj.pairBuf even) (List.replicate 132 0)) :: l.burstDone.filter (fun x => x.1 != even) })

/-- A burst has taken its last sample: `PAIR_BUF`, the loaf it is handed to, a reconstructed current, and the injected
starts held on either converter (R223, R224, R344). -/
def State.burstEnd (even : Nat) (s : State) : State :=
  let c := s.convAt even
  let owner := s.pairInput even
  let bytes := leBytes 4 (c.burstT % 2 ^ 32) ++ (List.range 64).flatMap (fun i => leBytes 2 (toBits 16 (c.burstBuf.getD i 0)))
  let s1 := (s.setBlob (Obj.pairBuf even) bytes).modConvN even (fun c => { c with burst := none, burstFor := none })
  let m := c.burstBuf.length
  let mid := slice4 c.burstBuf (m / 4) (m / 2)
  let mean : Rat := divR (mid.sum : Int) (mid.length : Nat)
  let s2 := match c.burstFor with
    | some (n, p, sg) =>
      (s1.reconTake n p (sg * (mean * s.rdR (Obj.chFs owner.1 owner.2) / 32768))).burstHanded even (Fin.ofNat 4 n)
    | none => s1.burstHanded even (Fin.ofNat 4 (c.burstLine / 3))
  (s2.injNext even).injNext (even + 1)
where
  /-- `n` results from place `off`. -/
  slice4 (l : List Int) (off n : Nat) : List Int := (l.drop off).take n

/-- A sample of the burst in progress. -/
def State.burstSample (even : Nat) (v : Int) (inst : Nat) (s : State) : State :=
  match (s.convAt even).burst with
  | none => s
  | some left =>
    let s1 := s.modConvN even (fun c => { c with
      burst := some (left - 1), burstBuf := c.burstBuf ++ [v], burstT := if c.burstBuf.isEmpty then inst else c.burstT })
    if left ≤ 1 then s1.burstEnd even else s1

/-- A sample of the injected sequence: after the last one its results are shown and the next work follows (R221, R236). -/
def State.injSample (k i : Nat) (v : Int) (inst : Nat) (s : State) : State :=
  match (s.convAt k).injRun with
  | some (e :: rest) =>
    if e ≠ i then s
    else
      let s1 := s.modConvN k (fun c => { c with
        injRun := some rest, injRes := c.injRes ++ [(v, inst)] })
      if rest.isEmpty then
        let c := s1.convAt k
        let s2 := forAll (List.range c.injRes.length) (fun e x => x.wr (Obj.injResult k e) (c.injRes.getD e (0, 0)).1) s1
        ((s2.wr (Obj.injTime k) (((c.injRes.getD 0 (0, 0)).2 % 2 ^ 32 : Nat) : Int)).modConvN k (fun c => { c with
          injRun := none, injDone := c.injDone + 1, injLast := c.injRes })).injNext k
      else s1
  | _ => s

/-! ## Capture (R242 to R247) -/

/-- The capacity per source, R243. -/
def capCapacity (mode sources : Nat) : Nat :=
  if mode = 1 then 32768 else if sources = 0 then 0 else 1048576 / sources / 64 * 64

/-- Items of a list newest first: those at or after the trigger, and the others. -/
def postOf {α : Type} (trig : Nat) (l : List (α × Nat)) : List (α × Nat) := l.filter (fun x => decide (trig ≤ x.2))
def preOf {α : Type} (trig : Nat) (l : List (α × Nat)) : List (α × Nat) := l.filter (fun x => decide (x.2 < trig))

/-- An item taken into a ring: the last P before a trigger, then Q from the trigger item on (R244). -/
def ringAdd {α : Type} (state : Int) (c : CapSt) (l : List (α × Nat)) (v : α) (inst : Nat) : List (α × Nat) :=
  if state = 3 then
    let post := postOf c.trigT l
    if c.trigT ≤ inst then (if post.length < c.post then (v, inst) :: l else l)
    else post ++ ((v, inst) :: preOf c.trigT l).take c.pre
  else ((v, inst) :: l).take c.pre

/-- The items of a source. -/
def CapSt.held (c : CapSt) (src : Nat) : List (Int × Nat) :=
  ((c.items.find? (fun x => x.1 == src)).map (fun x => x.2)).getD []
/-- The frame records as items. -/
def CapSt.recItems (c : CapSt) : List (List Byte × Nat) := c.recs.map (fun r => (r.2, r.1))

/-- P items per source are held. -/
def CapSt.filled (c : CapSt) : Bool :=
  if c.mode = 1 then decide (c.pre ≤ c.recs.length) else c.sources.all (fun x => decide (c.pre ≤ (c.held x).length))
/-- Q items per source from the trigger item on are held. -/
def CapSt.complete (c : CapSt) : Bool :=
  if c.mode = 1 then decide (c.post ≤ (postOf c.trigT c.recItems).length)
  else c.sources.all (fun x => decide (c.post ≤ (postOf c.trigT (c.held x)).length))
/-- P′: the pre-trigger items every source holds. -/
def CapSt.preKept (c : CapSt) : Nat :=
  if c.mode = 1 then (preOf c.trigT c.recItems).length
  else (c.sources.map (fun x => (preOf c.trigT (c.held x)).length)).foldl min c.pre

/-- The state follows the items held (R244 step 2). -/
def State.capFollow (s : State) : State :=
  if s.rd Obj.capState = 1 ∧ s.cap.filled then s.wr Obj.capState 2 else s

/-- The decimation that acts: D of the sampled inputs, none of a pair stream (R242). -/
def CapSt.every (c : CapSt) : Nat := if c.mode = 0 then c.decim else 1

/-- A sample of a selected source, every D-th kept (R242). -/
def State.capItem (src : Nat) (v : Int) (inst : Nat) (s : State) : State :=
  let st := s.rd Obj.capState
  let c := s.cap
  if 1 ≤ st ∧ st ≤ 3 ∧ c.sources.contains src then
    let k := ((c.skips.find? (fun x => x.1 == src)).map (fun x => x.2)).getD 0 + 1
    let s1 := s.modCap (fun c => { c with skips := (src, k % c.every) :: c.skips.filter (fun x => x.1 != src) })
    if k % c.every ≠ 0 then s1
    else (s1.modCap (fun c => { c with
      pairSrc := if 36 ≤ src then s.pairInput (2 * (src - 36)) else c.pairSrc
      items := (src, ringAdd st c (c.held src) v inst) :: c.items.filter (fun x => x.1 != src) })).capFollow
  else s

/-- A frame record pushed while mode 1 captures its loaf (R242). -/
def State.capRecord (n : Nat) (bytes : List Byte) (s : State) : State :=
  let st := s.rd Obj.capState
  if 1 ≤ st ∧ st ≤ 3 ∧ s.cap.mode = 1 ∧ s.cap.sources.contains n then
    (s.modCap (fun c => { c with recs := (ringAdd st c c.recItems bytes s.time.now).map (fun x => (x.2, x.1)) })).capFollow
  else s

/-- The threshold trigger's test of a sample of its source (R245). The first sample after arming has no previous one and crosses
nothing (DESIGN CHOICE: the rule does not say what stands before it, log entry 159). -/
def State.capThreshold (v : Int) (inst : Nat) (s : State) : State :=
  let lvl := s.rd Obj.capThrLevel
  let e := s.rdN Obj.capThrEdge
  let s1 := s.modCap (fun c => { c with prevThr := some v })
  match s.cap.prevThr with
  | none => s1
  | some p =>
    if (e.testBit 0 && decide (p < lvl ∧ lvl ≤ v)) || (e.testBit 1 && decide (lvl ≤ p ∧ v < lvl)) then
      s1.captureTriggerAt 2 inst
    else s1

/-- A sample as the capture memory sees it: sources 0 to 35 the regular samples of CV0 to CV3, 36 and 37 the pair streams. -/
def State.capSample (src : Nat) (v : Int) (inst : Nat) (s : State) : State :=
  let thr := s.rdN Obj.capThrSrc
  let watched := if 36 ≤ src then decide (thr ≠ 255) && s.cap.sources.contains src
    else decide (thr = src) && decide (s.cap.mode < 2)
  let s1 := if watched then s.capThreshold v inst else s
  s1.capItem src v inst

/-- Converter and input of a source in the image's table; those of a pair stream are the ones `PAIR_SRC` named as it was captured
(DESIGN CHOICE: R247 does not say which converter and input the table names for it, log entry 160). -/
def State.capSource (s : State) (src : Nat) : Nat × Nat :=
  if 36 ≤ src then s.cap.pairSrc else (src / 9, src % 9)

/-- The P′ + Q items of a list newest first, oldest first. -/
def capKept {α : Type} (c : CapSt) (l : List (α × Nat)) : List (α × Nat) :=
  ((preOf c.trigT l).take c.preKept).reverse ++ ((postOf c.trigT l).reverse).take c.post

/-- Indexes of groups of 64 among `m` items: first and last. -/
def groupsOf64 (m : Nat) : List (Nat × Nat) := (List.range ((m + 63) / 64)).map (fun g => (64 * g, min (64 * g + 63) (m - 1)))

/-- The image of R247. -/
def State.capImage (s : State) : List Byte :=
  let c := s.cap
  let head := leBytes 2 (s.rdN Obj.capSeq) ++ leBytes 1 c.mode ++ leBytes 1 (s.rdN Obj.capCause)
    ++ leBytes 2 (if c.mode = 1 then 0 else c.sources.length) ++ leBytes 2 c.decim ++ leBytes 4 c.preKept ++ leBytes 4 c.post
    ++ leBytes 4 (c.trigNs % 1000000000) ++ leBytes 4 (c.trigNs / 1000000000) ++ leBytes 4 (c.trigT % 2 ^ 32) ++ leBytes 4 0
  if c.mode = 1 then head ++ (capKept c c.recItems).flatMap (fun x => x.1)
  else
    head
      ++ c.sources.flatMap (fun x => leBytes 1 (s.capSource x).1 ++ leBytes 1 (s.capSource x).2 ++ leBytes 2 0)
      ++ c.sources.flatMap (fun x => (capKept c (c.held x)).flatMap (fun y => leBytes 2 (toBits 16 y.1)))
      ++ c.sources.flatMap (fun x =>
          let l := capKept c (c.held x)
          (groupsOf64 l.length).flatMap (fun g =>
            leBytes 4 ((l.getD g.1 (0, 0)).2 % 2 ^ 32) ++ leBytes 4 ((l.getD g.2 (0, 0)).2 % 2 ^ 32)))

/-- `CAPTURE_ARM` ACTION 1 (R159, R243, R244): the sources selected, and P and Q recorded. -/
def State.capArm (s : State) : State :=
  let mode := s.rdN Obj.capMode
  let srcs :=
    if mode = 0 then (List.range 36).filter (fun x => (s.rdN (Obj.capSel (x / 9))).testBit (x % 9) && s.has (x / 9))
    else if mode = 1 then (List.range 4).filter (fun n => s.rdBit Obj.capRecMask n && s.has n)
    else [36 + (mode - 2)]
  let room := capCapacity mode srcs.length
  let p := min (s.rdN Obj.capPre) room
  let q := min (s.rdN Obj.capPost) (room - p)
  ((s.wrs [(Obj.capState, 1), (Obj.capSeq, (s.rd Obj.capSeq + 1) % 65536), (Obj.capCause, 0), (Obj.capLen, 0)]).modCap
    (fun _ => { ({} : CapSt) with mode := mode, decim := s.rdN Obj.capDecim, sources := srcs, pre := p, post := q })).capFollow

/-- ACTION 2: back to IDLE, the contents discarded (R244). -/
def State.capDisarm (s : State) : State :=
  (s.wrs [(Obj.capState, 0), (Obj.capCause, 0), (Obj.capLen, 0)]).modCap (fun _ => {})

/-! ## One sample -/

/-- The latest result of an input. -/
def State.lastResult (k i : Nat) (v : Int) (bad : Bool) (inst : Nat) (s : State) : State :=
  (s.wr (Obj.chResult k i) v).modConvN k (fun c => { c with
    lastT := (i, inst, bad) :: c.lastT.filter (fun x => x.1 != i) })

/-- The sine or cosine result of CV4 held for FB0; the two of one instant form a pair, with the comparator count at it (R240,
R263). Outside mode 5 the comparators' tracks follow the signs of the results (R263; DEDUCED, log entry 163). -/
def State.scTake (i : Nat) (v : Int) (bad : Bool) (inst : Nat) (s : State) : State :=
  let five := decide (s.rd (Obj.fbMode 0) = 5)
  s.modFb 0 (fun f =>
    let x := if i = 0 then (v, inst, !bad) else f.sinLast
    let y := if i = 0 then f.cosLast else (v, inst, !bad)
    let h := (f.hist.find? (fun h => decide (h.1 ≤ inst))).getD (f.hist.getLastD (0, f.count, f.count - f.qcount))
    { f with
      sinLast := x, cosLast := y
      compA := if !five && i = 0 then decide (0 < v) else f.compA
      compB := if !five && i ≠ 0 then decide (0 < v) else f.compB
      scHist := if x.2.1 = y.2.1 then
          ({ inst := inst, sin := x.1, cos := y.1, good := x.2.2 && y.2.2, count := h.2.1, corr := h.2.2 } :: f.scHist).take 8
        else f.scHist })

/-- An input's comparison against `OW_LEVEL` goes on or ends (R239). -/
def State.owStep (k i : Nat) (v : Int) (inst : Nat) (s : State) : State :=
  let now := s.owBeyond k i v
  s.modConvN k (fun c =>
    if !now then { c with owSince := c.owSince.filter (fun x => x.1 != i) }
    else if c.owSince.any (fun x => x.1 == i) then c
    else { c with owSince := (i, inst) :: c.owSince })

/-- What every sample of an input of converter `k` does: the result, saturation, the detectors and the open-wire
comparison. `own` is the converter whose correction and role apply (R224). -/
def State.sampleCommon (own i : Nat) (v : Int) (sat bad : Bool) (inst : Nat) (s : State) : State :=
  let s1 := s.lastResult own i v bad inst
  let s2 := if sat then s1.saturated own i else s1
  let s3 := s2.offer own i v sat bad
  if own = 4 then s3 else s3.owStep own i v inst

end Sys2Proof.Machine
end

