-- ==== Sys2Proof/Machine/FbOps.lean ====
section
/-! DEFINITION. Feedback channels (chapter 8): edges and their timing, index, serial samples, the sine/cosine merge, and
what each frame receives. -/

namespace Sys2Proof.Machine

/-- A speed in rev/s as Q16.16, rounded to nearest, ties away from zero (R271). -/
def speedWord (v : Rat) : Int := shown32 (roundAway (v * 65536))

/-! ## Edge timing (R271 to R275) -/

/-- An edge of a direction recorded at an instant: the run it belongs to, and the edge estimate over the last
`SPD_EDGE_AVG` intervals of that run. -/
def FbSt.timed (f : FbSt) (neg : Bool) (inst cpr avg : Nat) : FbSt :=
  let turn := f.haveDir && (f.dirNeg != neg)
  let run := if turn then [inst] else (inst :: f.edges).take 17
  let m := min avg (run.length - 1)
  let span : Nat := inst - run.getD m inst
  let v := divR ((m : Rat) * hzCtl) ((cpr : Rat) * (span : Rat))
  { f with
    edges := run, lastEdge := some inst, dirNeg := neg, haveDir := true, standstill := false
    ve := if m = 0 then (if turn then 0 else f.ve) else (if neg then -v else v)
    spdValid := f.spdValid || decide (m ≠ 0) }

/-- The edge estimate after the decay of R274 at an instant. -/
def FbSt.decayed (f : FbSt) (t cpr : Nat) : Rat :=
  match f.lastEdge with
  | none => f.ve
  | some tj =>
    if t ≤ tj then f.ve
    else
      let cap := hzCtl / ((cpr : Rat) * ((t - tj : Nat) : Rat))
      if f.ve < 0 then -(min (-f.ve) cap) else min f.ve cap

/-- The count estimate at a boundary over the marks held, newest first (R276). -/
def FbSt.countSpeed (f : FbSt) (frames : Nat) (cpr : Nat) : Rat :=
  match f.marks with
  | [] => 0
  | (t, q) :: _ =>
    let r := f.marks.getD (min frames (f.marks.length - 1)) (t, q)
    if r.1 < t then ((q - r.2 : Int) : Rat) * hzCtl / ((cpr : Rat) * ((t - r.1 : Nat) : Rat)) else 0

/-- The speed of modes 1, 2 and 5 formed at an instant and shown (R274, R276); 0 while `SPD_VALID` is clear. -/
def State.formSpeed (n : Fin 4) (t : Nat) (s : State) : State :=
  let f := s.fb.get n
  let five := decide (s.rd (Obj.fbMode n.val) = 5)
  let ve := if f.spdOk then f.decayed t (s.cpr n) else 0
  let vc := f.countSpeed (s.rdN (Obj.spdFrames n.val)) (if five then 4096 * s.rdN (Obj.fbRes n.val) else s.cpr n)
  let lo := q16 (s.rdR (Obj.spdBlendLo n.val))
  let hi := q16 (s.rdR (Obj.spdBlendHi n.val))
  let w := clampR 0 1 (divR (absR ve - lo) (hi - lo))
  let v := if f.spdOk then speedWord ((1 - w) * ve + w * vc) else 0
  (s.wrs [(Obj.spd n.val, v), (Obj.spdEdge n.val, speedWord ve), (Obj.spdCnt n.val, speedWord vc)]).modFb n
    (fun f => { f with vShown := q16 (v : Rat) })

/-! ## Counting (R255 to R258, R262) -/

/-- The count moved by a step; the speed's count and the distance from the last index move with it. -/
def FbSt.moved (f : FbSt) (d : Int) : FbSt :=
  { f with count := f.count + d, qcount := f.qcount + d, sinceIdx := f.sinceIdx + d }

/-- The missing-index fault, once until the next index event (R262). -/
def State.indexMissing (n : Fin 4) (s : State) : State :=
  let f := s.fb.get n
  if decide (s.rd (Obj.idxMode n.val) = 1) && f.posRef && !f.missSaid && decide (3 * s.cpr n ≤ 2 * f.sinceIdx.natAbs) then
    (s.modFb n (fun f => { f with missSaid := true })).latch 0x4802 (mkInst n.val 0) 0
  else s

/-- An illegal transition: counted, the edge estimate's run restarted, its fault once per 1 ms (R255, R272). -/
def State.illegal (n : Fin 4) (s : State) : State :=
  ((s.modFb n (fun f => { f with edges := [] })).bump (Obj.illegalCnt n.val)).latchLimited 0x0801 (mkInst n.val 0) 0

/-- The last timed edge shown. -/
def State.edgeT (n : Fin 4) (inst : Nat) (s : State) : State := s.wr (Obj.fbEdgeT n.val) ((inst % 2 ^ 32 : Nat) : Int)

/-- The tracks the channel counts take new levels. -/
def State.setTracks (n : Fin 4) (a b : Bool) (s : State) : State :=
  s.modFb n (fun f => if s.rd (Obj.fbMode n.val) = 5 then { f with compA := a, compB := b } else { f with a := a, b := b })

/-- The count after a change, kept with the index corrections it holds (R263, R276). -/
def FbSt.remember (f : FbSt) (t : Nat) : FbSt := { f with hist := ((t, f.count, f.count - f.qcount) :: f.hist).take 64 }

/-- A step of A and B in modes 1 and 5 (R255, R256). -/
def State.quadEdge (n : Fin 4) (a b : Bool) (inst t : Nat) (s : State) : State :=
  let inv := s.dirInv n
  let old := s.tracks n
  let d := (quadOf inv a b + 4 - quadOf inv old.1 old.2) % 4
  let s0 := s.setTracks n a b
  if d = 0 then s0
  else if d = 2 then s0.illegal n
  else
    let neg := decide (d = 3)
    let s1 := (s0.modFb n (fun f =>
      ((f.moved (if neg then -1 else 1)).timed neg inst (s.cpr n) (s.rdN (Obj.spdEdgeAvg n.val))).remember t)).edgeT n inst
    let c := (s1.fb.get n).count
    let s2 := if s.rd (Obj.fbMode n.val) = 1 then (s1.showCount n c).showPos n (posOfCount c (s.cpr n)) else s1
    s2.indexMissing n

/-- The filtered levels of the pads, and since when they are no Hall state. -/
def State.setLevels (n : Fin 4) (a b z : Bool) (t : Nat) (s : State) : State :=
  let s1 := s.modFb n (fun f => { f with a := a, b := b, z := z })
  s1.modFb n (fun f => { f with hallT := s1.invalidSince n t })

/-- A change of the Hall state (R255, R258): one sector on or back is an edge, any other is illegal and moves the count the
shorter way round. -/
def State.hallEdge (n : Fin 4) (a b z : Bool) (inst t : Nat) (s : State) : State :=
  let inv := s.dirInv n
  let s0 := s.setLevels n a b z t
  match hallOf inv a b z with
  | none => s0
  | some k =>
    let d := ((k : Int) - (s.fb.get n).count) % 6
    if d = 0 then s0
    else
      let cpr := s.cpr n
      let step : Int := if d ≤ 3 then d else d - 6
      let neg := decide (step < 0)
      let s1 := s0.modFb n (fun f =>
        let g := f.moved step
        { g with hallPos := if neg then hallHigh g.count cpr else hallLow g.count cpr, posT := inst })
      let s2 := if step = 1 ∨ step = -1 then
          (s1.modFb n (fun f => f.timed neg inst cpr (s.rdN (Obj.spdEdgeAvg n.val)))).edgeT n inst
        else s1.illegal n
      (s2.showCount n (s2.fb.get n).count).showPos n (s2.fb.get n).hallPos

/-! ## The index (R259 to R261) -/

/-- The deviation of a count from the nearest multiple of a revolution. -/
def indexDev (c : Int) (cpr : Nat) : Int := (c + (cpr : Int) / 2) % (cpr : Int) - (cpr : Int) / 2

/-- The gate condition is to become true again once it has ceased to hold (R259). -/
def State.gateFollow (n : Fin 4) (s : State) : State :=
  s.modFb n (fun f => { f with gateWas := f.gateWas && s.indexGate n })

/-- The count set by an index event; position and turns of mode 1 follow. -/
def State.setCount (n : Fin 4) (c : Int) (s : State) : State :=
  let s1 := s.modFb n (fun f => ({ f with count := c }).remember s.time.now)
  if s.rd (Obj.fbMode n.val) = 1 then (s1.showCount n c).showPos n (posOfCount c (s.cpr n)) else s1

/-- One index event, R260. -/
def State.indexTake (n : Fin 4) (s : State) : State :=
  let f := s.fb.get n
  let d := indexDev f.count (s.cpr n)
  let s1 := ((s.wr (Obj.idxDev n.val) d).bump (Obj.idxCnt n.val)).modFb n (fun f => { f with sinceIdx := 0, missSaid := false })
  let mode := s.rd (Obj.idxMode n.val)
  if f.armed || (decide (mode = 1) && !f.posRef) then
    (s1.setCount n 0).modFb n (fun f => { f with posRef := true, armed := false })
  else if mode = 1 then
    if (d.natAbs : Int) ≤ s.rd (Obj.idxWindow n.val) then
      let s2 := s1.setCount n (f.count - d)
      if d = 0 then s2 else s2.latch 0x0804 (mkInst n.val 0) d
    else
      let s2 := s1.bump (Obj.slipCnt n.val)
      let s3 := if f.slip then s2
        else (s2.wr (Obj.idxDevLatch n.val) d).modFb n (fun f => { f with slip := true })
      s3.latch 0x4801 (mkInst n.val 0) d
  else s1

/-! ## Serial encoders (R265 to R269, R277) -/

/-- Gray code to binary, `bits` bits. -/
def grayDecode (bits g : Nat) : Nat :=
  ((List.range bits).reverse.foldl (fun (r : Nat × Bool) i =>
    let b := r.2 != g.testBit i
    (2 * r.1 + b2n b, b)) (0, false)).1

/-- The position within a turn of a single-turn value (R268). -/
def stScale (bits st : Nat) : Nat := if bits ≤ 25 then st * 2 ^ (25 - bits) else st / 2 ^ (bits - 25)

/-- The turns after a change of a counter of the given range: a wrap is counted where it moves by more than half (R268). -/
def wrapStep (range prev now : Nat) : Int :=
  if range < 2 * (now - prev) then -1 else if range < 2 * (prev - now) then 1 else 0

/-- Bits, most significant first, as a number. -/
def bitsVal (l : List Bool) : Nat := l.foldl (fun v b => 2 * v + b2n b) 0

/-- The CRC-6 of BiSS-C, polynomial x^6 + x + 1, over bits in the order received (R267; it starts from 0, PRESUMED, log entry 164). -/
def crc6 (l : List Bool) : BitVec 6 := l.foldl (fun c b => crcShift 0x03 (c ^^^ (if b then 0x20 else 0))) 0

/-- What a serial transfer brought: the data word, and in mode 4 the levels of nE and nW. -/
structure SerialWord where
  data : Nat
  nE   : Bool
  nW   : Bool
deriving DecidableEq, Repr

/-- An SSI transfer of `bits` data bits: failed where the line still reads low at idle (R266). -/
def ssiWord (bits : Nat) (r : SerialResult) : Option SerialWord :=
  if r.idle then some { data := bitsVal ((List.range bits).map (fun i => r.line.getD i false)), nE := true, nW := true } else none

/-- A BiSS-C transfer of `bits` data bits: the acknowledge within 64 clocks, the start bit, CDS, the data, nE, nW and the inverted
CRC; none where one of them fails (R267). -/
def bissWord (bits : Nat) (r : SerialResult) : Option SerialWord :=
  match (r.line.take 64).findIdx? (fun b => !b) with
  | none => none
  | some i =>
    let body := (((r.line.drop (i + 1)).dropWhile (fun b => !b)).drop 2)
    let frame := body.take (bits + 2)
    let crc := (body.drop (bits + 2)).take 6
    if crc.length = 6 ∧ bitsVal crc = (~~~ (crc6 frame)).toNat then
      some { data := bitsVal (frame.take bits), nE := frame.getD bits false, nW := frame.getD (bits + 1) false }
    else none

/-- A failed transfer, R269; 0x4806 once in a run of `SER_ERR_MAX` or more. -/
def State.serFail (n : Fin 4) (s : State) : State :=
  let f := s.fb.get n
  let many := decide (s.rd (Obj.serErrMax n.val) ≤ (f.serRun + 1 : Nat))
  let s1 := ((s.bump (Obj.serErrCnt n.val)).modFb n (fun f => { f with
    serRun := f.serRun + 1, serOkRun := 0, spdValid := false, serSaid := f.serSaid || many })).latch 0x0802 (mkInst n.val 0) 0
  if many && !f.serSaid then s1.latch 0x4806 (mkInst n.val 0) 0 else s1

/-- A transfer succeeded (R269, R277). -/
def FbSt.serGood (f : FbSt) : FbSt :=
  { f with serRun := 0, serSaid := false, serOkRun := f.serOkRun + 1, spdValid := decide (1 ≤ f.serOkRun) }

/-- The wraps counted when a raw value arrives: of the multi-turn counter, or of ST where there is none; a 16-bit counter starts
as the signed number it is (R268). -/
def FbSt.serWraps (f : FbSt) (mtb stb mt st : Nat) : Int :=
  match f.serPrev with
  | none => if mtb = 16 ∧ 2 ^ 15 ≤ mt then -1 else f.serTurns
  | some p => f.serTurns + (if mtb = 0 then wrapStep (2 ^ stb) p.2 st else wrapStep (2 ^ mtb) p.1 mt)

/-- A usable sample of a serial encoder, latched at `t0`: the accumulated position, its negation under `FB_DIR_INV`, and the
speed over the last `SPD_FRAMES` samples (R256, R268, R277); it is the sample of the boundary its transfer serves (R270). -/
def State.serTake (n : Fin 4) (mt st t0 : Nat) (s : State) : State :=
  let f := s.fb.get n
  let mtb := s.rdN (Obj.serMtBits n.val)
  let stb := s.rdN (Obj.serStBits n.val)
  let wraps := f.serWraps mtb stb mt st
  let turns : Int := if mtb = 0 then wraps else (mt : Int) + wraps * 2 ^ mtb
  let raw : Int := turns * 2 ^ 25 + (stScale stb st : Int)
  let p := if s.dirInv n then -raw else raw
  let l := ((t0, p) :: f.serSamples).take 17
  let r := l.getD (min (s.rdN (Obj.spdFrames n.val)) (l.length - 1)) (t0, p)
  let ok := decide (1 ≤ f.serOkRun)
  let v := if ok && decide (r.1 < t0) then ((p - r.2 : Int) : Rat) / 2 ^ 25 * hzCtl / ((t0 - r.1 : Nat) : Rat) else 0
  (((s.modFb n (fun f => { f.serGood with
      serPrev := some (mt, st), serTurns := wraps, serPos := p, sampT := t0, serSamples := l, serGot := f.serFor :: f.serGot.take 255
      posValid := true, vShown := q16 (speedWord v : Rat) })).showCount n p).showPos n p).wr (Obj.spd n.val) (speedWord v)

/-! ## The sine/cosine merge (R263, R264) -/

/-- The adjusted comparator count and whether an adjustment was used; none at a quadrant mismatch of 2. -/
def mergeCount (k : Int) (fine : Nat) : Option (Int × Bool) :=
  let d := ((fine / 1024 : Nat) - k % 4 : Int) % 4
  if d = 0 then some (k, false) else if d = 1 then some (k + 1, true) else if d = 3 then some (k - 1, true) else none

/-- The whole part of a square root below 2^17. -/
def isqrt (a : Nat) : Nat :=
  (List.range 17).reverse.foldl (fun r i => if (r + 2 ^ i) * (r + 2 ^ i) ≤ a then r + 2 ^ i else r) 0

/-- The amplitude a = √(s² + c²) of a square `a2` (R264): exact where it is a whole number; the rounding of any other is free. -/
def amplitude (a2 : Nat) : Int :=
  let r : Int := isqrt a2
  if r * r = a2 then r else clampI r (r + 1) (showInt (Config.sqrtR (a2 : Rat)))

/-- The arctangent series of a slope below 0.43, in radians, exact within 10^-9. -/
def atanSeries (z : Rat) : Rat := ((List.range 10).map (fun k => (-1) ^ k * z ^ (2 * k + 1) / ((2 * k + 1 : Nat) : Rat))).sum
/-- atan(y / x) with 0 ≤ y ≤ x, 0 < x, in steps of 2^-12 period (2048/π in a radian), exact within a thousandth. -/
def octantSteps (y x : Int) : Rat :=
  let z : Rat := (y : Rat) / (x : Rat)
  let c : Rat := 651898646904403 / 1000000000000
  if 5 * y ≤ 2 * x then c * atanSeries z else 512 - c * atanSeries ((1 - z) / (1 + z))
/-- The angle of y, x with 0 ≤ y and 0 < x within its quadrant, 0 to 1024: exact on the axis and the diagonal, otherwise one of the
two steps next to it; which one is free (R263). -/
def quadAngle (y x : Int) : Nat :=
  if y = 0 then 0
  else if y = x then 512
  else
    let a := if y < x then octantSteps y x else 1024 - octantSteps x y
    (clampI (a - 1 / 1000).floor (-((-(a + 1 / 1000)).floor)) (Config.atan4096 y x)).toNat
/-- `fine` of R263: atan2(s, c) in steps of 2^-12 period, 0 at s = 0, c > 0. -/
def fineAngle (s c : Int) : Nat :=
  (if 0 ≤ s ∧ 0 < c then quadAngle s c
   else if 0 < s ∧ c ≤ 0 then 1024 + quadAngle (-c) s
   else if s ≤ 0 ∧ c < 0 then 2048 + quadAngle (-s) (-c)
   else 3072 + quadAngle c (-s)) % 4096

/-- The pair a boundary `t` takes: the last held before it, at most 200 ns old (R240). -/
def FbSt.pairFor (f : FbSt) (t : Nat) : Option ScPair := f.scHist.find? (fun p => decide (p.inst < t ∧ t ≤ p.inst + 40))

/-- The merge of a pair on FB0 at a boundary `t` (R263, R264). -/
def State.scMerge (p : ScPair) (t : Nat) (s : State) : State :=
  let x := if s.dirInv 0 then (p.cos, p.sin) else (p.sin, p.cos)
  if !p.good then s
  else
    let a2 := x.1 * x.1 + x.2 * x.2
    let nom := s.rd (Obj.scAmpNom 0)
    let s1 := s.wr (Obj.scAmp 0) (clampI (-32768) 32767 (amplitude a2.toNat))
    let bad := decide (4 * a2 < nom * nom ∨ 9 * (nom * nom) < 4 * a2)
    let s1 := s1.modFb 0 (fun f => { f with ampBad := bad })
    if bad then s1.latch 0x4803 (mkInst 0 0) 0
    else
      let fine := fineAngle x.1 x.2
      let s2 := s1.wr (Obj.scFine 0) (fine : Int)
      match mergeCount p.count fine with
      | none => s2.latch 0x4804 (mkInst 0 0) 0
      | some (k, adj) =>
        let interp := k / 4 * 4096 + (fine : Int)
        let pos := posOfCount interp (4096 * s.rdN (Obj.fbRes 0))
        (((if adj then s2.bump (Obj.scAdj 0) else s2).modFb 0 (fun f => { f with
          interp := interp, qInterp := interp - 1024 * p.corr, serPos := pos, sampT := p.inst, serGot := [t]
          posValid := true })).showCount 0 interp).showPos 0 pos

/-! ## What each frame receives (R270) -/

/-- What a channel hands the Oven for a loaf at its boundary `t`, latched. -/
def State.fbLatch (n : Fin 4) (c : Fin 4) (t : Nat) (s : State) : State :=
  let f := s.fb.get c
  let x : FbLatch := { pos := s.posAt c t, spd := f.vShown, posOk := f.posOk, spdOk := f.spdOk, stat := f.stat }
  s.modFb c (fun f => { f with latch := f.latch.set n x })

/-- The channel's sample meant for a boundary `t` of `FB_LOAF` is still to come: CV4's pair, or the transfer that serves it (R240,
R265). -/
def State.sampleAwaited (s : State) (c : Fin 4) (t : Nat) : Bool :=
  let f := s.fb.get c
  let mode := s.rd (Obj.fbMode c.val)
  if mode = 5 then (f.pairFor t).isNone
  else if mode = 3 ∨ mode = 4 then (f.serBusy.isSome && decide (f.serFor = t) && !f.serLate) || f.serQ.contains t
  else false

/-- A boundary of `FB_LOAF` completes on its channel: the merge, whether the sample meant for it was usable, the mark and the
speed, and what the Oven is handed (R263, R270, R276); a
fault its sample brought has made the values invalid (R277). -/
def State.fbFinish (c : Fin 4) (t : Nat) (s : State) : State :=
  let n := Fin.ofNat 4 (s.rdN (Obj.fbLoaf c.val))
  let mode := s.rd (Obj.fbMode c.val)
  let s1 := if mode = 5 then (match (s.fb.get c).pairFor t with
    | some p => s.scMerge p t
    | none => s) else s
  let s2 := s1.fbFollow.modFb c (fun f => { f with
    stale := decide (mode = 3 ∨ mode = 4 ∨ mode = 5) && !f.serGot.contains t
    serGot := f.serGot.filter (fun b => decide (t < b)), mergeDue := none })
  let s3 := if mode = 1 ∨ mode = 2 ∨ mode = 5 then
      (s2.modFb c (fun f => { f with marks := ((t, if mode = 5 then f.qInterp else f.qcount) :: f.marks).take 17 })).formSpeed c t
    else s2
  s3.fbLatch n c t

/-- At a boundary of `FB_LOAF` a channel completes it, or awaits its sample. -/
def State.fbBoundary (c : Fin 4) (t : Nat) (s : State) : State :=
  if s.sampleAwaited c t then s.modFb c (fun f => { f with mergeDue := some t }) else s.fbFinish c t

/-- The channels at a boundary of loaf `n`: those whose `FB_LOAF` it is form their values, and all it reads are latched for it. -/
def State.fbHandoff (n : Fin 4) (t : Nat) (s : State) : State :=
  forAll units4 (fun c x =>
    if !x.has c.val then x
    else if x.rd (Obj.fbMode c.val) ≠ 0 ∧ x.rdN (Obj.fbLoaf c.val) = n.val then x.fbBoundary c t
    else if (x.fbReaders c.val).contains n then x.fbLatch n c t else x) s

/-- A channel of loaf `n` awaits the sample of its latest boundary. -/
def State.fbWaits (s : State) (n : Fin 4) : Bool :=
  units4.any (fun c => (s.fb.get c).mergeDue.isSome && decide (s.rdN (Obj.fbLoaf c.val) = n.val))

/-- A sample awaited by its boundary has come or has failed: the boundary completes on the channel (R270). -/
def State.fbResume (n : Fin 4) (s : State) : State :=
  match (s.fb.get n).mergeDue with
  | some b => if s.sampleAwaited n b then s else s.fbFinish n b
  | none => s

/-- The frame boundary to come of a loaf (R181, R186, R187). -/
def State.nextBoundary (s : State) (n : Fin 4) : Option Nat :=
  let l := s.loaf.get n
  if !l.running then (if l.st = .off then none else l.firstTick.map (fun x => x + s.rdN (Obj.phaseOfs n.val)))
  else if s.rd (Obj.peakReload n.val) = 1 then
    (match l.peakDue with
    | some p => if l.boundaryT < p then some p else some l.nextStart
    | none => some l.nextStart)
  else some (l.nextStart + (l.actLen - l.periods) * s.periodTicks n)

/-- A transfer falls due at `t`, `SER_LEAD` ahead of a boundary of `FB_LOAF`, and has not been started (R265). -/
def State.serDue (s : State) (c : Fin 4) (t : Nat) : Bool :=
  let n := Fin.ofNat 4 (s.rdN (Obj.fbLoaf c.val))
  let x := t + s.rdN (Obj.serLead c.val)
  let f := s.fb.get c
  (match s.nextBoundary n with
  | some b => decide (b ≤ x) && decide ((x - b) % s.frameTicks n = 0)
  | none => false) && decide (f.serFor ≠ x) && !f.serQ.contains x

/-- The clock has idled for `SER_PAUSE` since the last transfer's end from this instant on (R265). -/
def State.serFrom (s : State) (c : Fin 4) (t : Nat) : Nat := match (s.fb.get c).serEndT with
  | some e => max t (e + s.rdN (Obj.serPause c.val) * usCycles)
  | none => t

/-- The next transfer waiting starts once the clock has idled (R265). -/
def State.serNext (c : Fin 4) (t : Nat) (s : State) : State :=
  match (s.fb.get c).serQ with
  | [] => s
  | b :: rest => s.modFb c (fun f => { f with serBusy := some (s.serFrom c t), serFor := b, serLate := false, serQ := rest })

end Sys2Proof.Machine
end

