-- ==== Sys2Proof/Machine/Crypto.lean ====
section
/-! DEFINITION. SHA-256 (FIPS 180-4) and HMAC-SHA-256 (FIPS 198-1), which the rules of chapter 16 name, and AES-128-GCM
(FIPS 197, SP 800-38D), which R417 names. The signature schemes of chapter 16 are not computed: whether one verifies is an
operand of the command. -/

namespace Sys2Proof.Machine

/-- Big-endian bytes of a word. -/
def beBytes (n v : Nat) : List Byte := (leBytes n v).reverse
/-- The word four big-endian bytes hold. -/
def beWord (bs : List Byte) : Word := BitVec.ofNat 32 (leNat bs.reverse)

/-- The 32-bit word `i` of a number of `n` words, the most significant first. -/
def wordOf (n v i : Nat) : Word := BitVec.ofNat 32 (v >>> (32 * (n - 1 - i)))

/-- The 64 round constants as one number, the first the most significant. -/
def shaConsts : Nat :=
  0x428a2f9871374491b5c0fbcfe9b5dba53956c25b59f111f1923f82a4ab1c5ed5d807aa9812835b01243185be550c7dc372be5d7480deb1fe9bdc06a7c19bf174 * 2 ^ 1536
    + 0xe49b69c1efbe47860fc19dc6240ca1cc2de92c6f4a7484aa5cb0a9dc76f988da983e5152a831c66db00327c8bf597fc7c6e00bf3d5a7914706ca635114292967 * 2 ^ 1024
    + 0x27b70a852e1b21384d2c6dfc53380d13650a7354766a0abb81c2c92e92722c85a2bfe8a1a81a664bc24b8b70c76c51a3d192e819d6990624f40e3585106aa070 * 2 ^ 512
    + 0x19a4c1161e376c082748774c34b0bcb5391c0cb34ed8aa4a5b9cca4f682e6ff3748f82ee78a5636f84c878148cc7020890befffaa4506cebbef9a3f7c67178f2 * 2 ^ 0
/-- The initial hash value as one number. -/
def shaStart : Nat := 0x6a09e667bb67ae853c6ef372a54ff53a510e527f9b05688c1f83d9ab5be0cd19

/-- The exclusive or of a word's rotations. -/
def rotSum (x : Word) (rs : List Nat) : Word := rs.foldl (fun acc r => acc ^^^ x.rotateRight r) 0

/-- The message schedule from the sixteen words of a block: word `t` stands `16 - t` places before the newest, which is first. -/
def shaGrow : Nat → List Word → List Word
  | 0, w => w
  | k + 1, w =>
    let back := fun (j : Nat) => w.getD (j - 1) 0
    let mix := fun (x : Word) (rs : List Nat) (sh : Nat) => rotSum x rs ^^^ (x >>> sh)
    shaGrow k ((back 16 + mix (back 15) [7, 18] 3 + back 7 + mix (back 2) [17, 19] 10) :: w)

/-- The words of a block of 64 bytes, newest first. -/
def blockWords (block : List Byte) : List Word :=
  ((List.range 16).map (fun i => beWord (slice block (4 * i) 4))).reverse

/-- The working variables as two histories of four words, newest first: a, b, c, d and e, f, g, h. -/
structure ShaRun where
  low  : List Word
  high : List Word

/-- A round with the sum of its constant and its schedule word. -/
def ShaRun.turn (r : ShaRun) (kw : Word) : ShaRun :=
  let p := fun i => r.low.getD i 0
  let q := fun i => r.high.getD i 0
  let pick := (q 0 &&& (q 1 ^^^ q 2)) ^^^ q 2
  let most := (p 0 &&& p 1) ||| (p 2 &&& (p 0 ||| p 1))
  let x := kw + q 3 + pick + rotSum (q 0) [6, 11, 25]
  { low := [x + most + rotSum (p 0) [2, 13, 22], p 0, p 1, p 2], high := [x + p 3, q 0, q 1, q 2] }

/-- One block compressed into the hash value. -/
def shaBlock (h : List Word) (block : List Byte) : List Word :=
  let w := (shaGrow 48 (blockWords block)).reverse
  let r := (w.mapIdx (fun i x => wordOf 64 shaConsts i + x)).foldl ShaRun.turn { low := h.take 4, high := h.drop 4 }
  (r.low ++ r.high).mapIdx (fun i x => h.getD i 0 + x)

/-- The message padded to whole blocks of 64 bytes. -/
def shaPad (m : List Byte) : List Byte :=
  m ++ [0x80] ++ List.replicate ((119 - m.length % 64) % 64) 0 ++ beBytes 8 (8 * m.length)

/-- The hash value after every block of a padded message. -/
def shaBlocks (h : List Word) (p : List Byte) : Nat → List Word
  | 0 => h
  | k + 1 => shaBlock (shaBlocks h p k) (slice p (64 * k) 64)

/-- SHA-256. -/
def sha256 (m : List Byte) : List Byte :=
  let p := shaPad m
  (shaBlocks ((List.range 8).map (wordOf 8 shaStart)) p (p.length / 64)).flatMap (fun w => beBytes 4 w.toNat)

/-- A key brought to one block, combined with a pad byte. -/
def hmacPad (key : List Byte) (pad : Byte) : List Byte :=
  (slice (if key.length ≤ 64 then key else sha256 key) 0 64).map (fun b => b ^^^ pad)
/-- HMAC-SHA-256. -/
def hmac (key m : List Byte) : List Byte := sha256 (hmacPad key 0x5C ++ sha256 (hmacPad key 0x36 ++ m))

/-! ## AES-128 (FIPS 197); a block is 16 bytes, column after column -/

/-- The substitution table as one number, the entry of 0 in its least significant byte. -/
def sboxTable : Nat :=
  0x16bb54b00f2d99416842e6bf0d89a18cdf2855cee9871e9b948ed9691198f8e19e1dc186b95735610ef6034866b53e708a8bbd4b1f74dde8c6b4a61c2e2578ba * 2 ^ 1536
    + 0x08ae7a65eaf4566ca94ed58d6d37c8e779e4959162acd3c25c2406490a3a32e0db0b5ede14b8ee4688902a22dc4f816073195d643d7ea7c41744975fec130ccd * 2 ^ 1024
    + 0xd2f3ff1021dab6bcf5389d928f40a351a89f3c507f02f94585334d43fbaaefd0cf584c4a39becb6a5bb1fc20ed00d153842fe329b3d63b52a05a6e1b1a2c8309 * 2 ^ 512
    + 0x75b227ebe28012079a059618c323c7041531d871f1e5a534ccf73f362693fdb7c072a49cafa2d4adf04759fa7dc982ca76abd7fe2b670130c56f6bf27b777c63 * 2 ^ 0
/-- SubBytes of one byte. -/
def sbox (b : Byte) : Byte := BitVec.ofNat 8 (sboxTable >>> (8 * b.toNat))
/-- A byte times x in the field of AES. -/
def timesX (b : Byte) : Byte := (b <<< 1) ^^^ (if b.getLsbD 7 then 0x1B else 0)
/-- Two lists of bytes, exclusive or. -/
def xorBytes (a b : List Byte) : List Byte := List.zipWith (fun x y => x ^^^ y) a b

/-- ShiftRows after SubBytes. -/
def aesShift (b : List Byte) : List Byte := (List.range 16).map (fun i => sbox (b.getD ((i + 4 * (i % 4)) % 16) 0))
/-- MixColumns. -/
def aesMix (b : List Byte) : List Byte :=
  (List.range 16).map (fun i =>
    let at_ := fun k => b.getD (i / 4 * 4 + (i + k) % 4) 0
    timesX (at_ 0) ^^^ timesX (at_ 1) ^^^ at_ 1 ^^^ at_ 2 ^^^ at_ 3)
/-- The round key after `k`, with its round constant. -/
def aesNextKey (rc : Byte) (k : List Byte) : List Byte :=
  let w0 := xorBytes (slice k 0 4) [sbox (k.getD 13 0) ^^^ rc, sbox (k.getD 14 0), sbox (k.getD 15 0), sbox (k.getD 12 0)]
  let w1 := xorBytes (slice k 4 4) w0
  let w2 := xorBytes (slice k 8 4) w1
  w0 ++ w1 ++ w2 ++ xorBytes (slice k 12 4) w2
/-- `n` rounds with the round key and round constant that come next, the last without MixColumns. -/
def aesRounds : Nat → Byte → List Byte → List Byte → List Byte
  | 0, _, _, b => b
  | n + 1, rc, key, b =>
    let k := aesNextKey rc key
    aesRounds n (timesX rc) k (xorBytes (if n = 0 then aesShift b else aesMix (aesShift b)) k)
/-- One block enciphered. -/
def aes128 (key block : List Byte) : List Byte := aesRounds 10 1 key (xorBytes block key)

/-! ## GCM (SP 800-38D) -/

/-- The product of two blocks, as numbers whose most significant bit is their first: the bits of `x` from the first on. -/
def gcmMul (x : Nat) : Nat → Nat → Nat → Nat
  | 0, _, z => z
  | n + 1, v, z =>
    gcmMul x n (if v % 2 = 1 then (v / 2) ^^^ (0xE1 * 2 ^ 120) else v / 2) (if x.testBit n then z ^^^ v else z)
/-- The number of big-endian bytes. -/
def beNat (bs : List Byte) : Nat := leNat bs.reverse
/-- `n` blocks of `m` from block `i` on taken into a hash. -/
def ghashBlocks (h : Nat) (m : List Byte) : Nat → Nat → Nat → Nat
  | 0, _, y => y
  | n + 1, i, y => ghashBlocks h m n (i + 1) (gcmMul (y ^^^ beNat (slice m (16 * i) 16)) 128 h 0)
/-- A text filled with zeros to whole blocks, taken into a hash. -/
def ghash (h : Nat) (m : List Byte) (y : Nat) : Nat := ghashBlocks h m ((m.length + 15) / 16) 0 y

/-- AES-128-GCM with a nonce of 12 bytes: the cipher text and its tag of 16 bytes. -/
def gcmSeal (key nonce aad plain : List Byte) : List Byte :=
  let h := beNat (aes128 key (List.replicate 16 0))
  let stream := (List.range ((plain.length + 15) / 16)).flatMap (fun i => aes128 key (nonce ++ beBytes 4 (i + 2)))
  let cipher := xorBytes plain stream
  let sum := ghash h (beBytes 8 (8 * aad.length) ++ beBytes 8 (8 * cipher.length)) (ghash h cipher (ghash h aad 0))
  cipher ++ xorBytes (beBytes 16 sum) (aes128 key (nonce ++ beBytes 4 1))

end Sys2Proof.Machine
end

