-- ==== Sys2Proof/Machine/Port.lean ====
section
/-! DEFINITION. The peripheral port's transfers (chapter 14): start, early end, results, the entries of a list run. -/

namespace Sys2Proof.Machine

/-- Field of `PGP_CFG` for general-purpose pin 0 or 1 (R442). -/
def State.pgpField (s : State) (p : Nat) : Nat := fieldOf (s.rdN Obj.pgpCfg) (2 * p) 2
/-- The transfer in progress holds general-purpose pin 0 or 1 low (R442). -/
def PpSt.pgpHeld (x : PpSt) (p : Nat) : Bool := x.run.any (fun r => r.selected && r.sel == 8 + p)
/-- Plain output pins follow `PGP_CFG`; a select is low while its transfer holds it (R442). -/
def State.pgpPlain (s : State) : State :=
  let level := fun (p : Nat) => if s.pgpField p = 2 then !s.pp.pgpHeld p else decide (s.pgpField p ≠ 1)
  s.modPp (fun x => { x with pgp0 := level 0, pgp1 := level 1 })

/-- Cycles of the local timebase that a time of the port takes, in ns. -/
def ppCycles (ns : Nat) : Nat := (ns + 4) / 5
/-- A `PSCK` period in ns (R444). -/
def PpRun.period (r : PpRun) : Nat := 8 * r.div
/-- A word with the gap after it (R446). -/
def PpRun.wordCycles (r : PpRun) : Nat := ppCycles ((r.nbits + 1) * r.period)

/-- The transfer waits for `PRDY` to begin a word, after the lead or the gap (R447). -/
def PpRun.awaits (r : PpRun) (now : Nat) : Bool :=
  r.wait && r.selected && decide (r.begun < r.tx.length) && decide (r.nextT ≤ now)
/-- `PRDY` as it reads: low for as long as a transfer waits for it. -/
def State.prdyLevel (s : State) : Bool := s.pp.prdy && !s.pp.run.any (fun r => r.awaits s.time.now)

/-- `PP_STAT`, R456. -/
def State.ppStat (s : State) : Nat :=
  let p := s.pp
  let runs := fun (l : Nat) => p.run.any (fun r => r.owner == l) || p.next.any (fun x => x.1 == l)
  b2n p.run.isSome + 2 * b2n (runs 0) + 4 * b2n (runs 1) + 8 * b2n p.manual + 16 * b2n s.prdyLevel
    + 32 * b2n ((s.pgpField 0 == 2 && !p.pgp0) || (s.pgpField 1 == 2 && !p.pgp1))

/-- A received word, right-aligned (R445): most significant bit first, or least significant first with order 1. -/
def ppWord (order : Nat) (bits : List Bool) : Nat :=
  (if order = 0 then bits else bits.reverse).foldl (fun v b => 2 * v + b2n b) 0
/-- The bits a transmit word is sent in: its low `nbits` bits in the device's order (R445). -/
def ppBits (order nbits : Nat) (w : Word) : List Bool :=
  let low := (List.range nbits).map (fun i => w.getLsbD i)
  if order = 0 then low.reverse else low

/-- The words of a transfer as received (R450): of the words begun, at most `nbits` bits of each, none after one cut short. -/
def PpRun.received (r : PpRun) (rx : List (List Bool)) : List (List Bool) :=
  let l := (rx.take (min r.begun r.tx.length)).map (fun w => w.take r.nbits)
  l.take ((l.takeWhile (fun w => w.length == r.nbits)).length + 1)
/-- Words completed. -/
def PpRun.wordsDone (r : PpRun) (rx : List (List Bool)) : Nat :=
  ((r.received rx).filter (fun w => w.length == r.nbits)).length
/-- Bits of the word that ended: none where the next word was awaited (DEDUCED from R450, log entry 196). -/
def PpRun.lastBits (r : PpRun) (now : Nat) (rx : List (List Bool)) : Nat :=
  if r.awaits now then 0 else ((r.received rx).getLast?.getD []).length
/-- Receive word `i`; words not begun read 0. -/
def PpRun.rxWord (r : PpRun) (rx : List (List Bool)) (i : Nat) : Nat := ppWord r.order ((r.received rx).getD i [])
/-- The bits sent while those were received (R445, R450). -/
def PpRun.sentBits (r : PpRun) (rx : List (List Bool)) : List (List Bool) :=
  (r.received rx).mapIdx (fun i w => (ppBits r.order r.nbits (r.tx.getD i 0)).take w.length)

/-- A result entry of 12 bytes (R455). -/
def ppEntry (cause bits done rx0 rx1 : Nat) : List Byte :=
  leBytes 1 cause ++ leBytes 1 bits ++ leBytes 2 done ++ leBytes 4 rx0 ++ leBytes 4 rx1

/-- The entries of a written `LIST_DEF`. -/
def ppEntries (b : List Byte) : List (List Byte) := (List.range (b.length / 12)).map (fun i => slice b (12 * i) 12)

/-- A list run ends: `LIST_RUNS` counts and `LIST_RES` is replaced as a whole (R452, R455, R456). -/
def State.ppRunEnd (l : Nat) (s : State) : State :=
  let s1 := s.bumpWrap (Obj.listRuns l)
  ((s1.setBlob (Obj.listRes l) (leBytes 4 (s1.rdN (Obj.listRuns l)) ++ s1.pp.build)).modPp
    (fun p => { p with run := none, build := [] }))

/-- The device's descriptor latched for a transfer of `tx` (R440, R444); `none` where it is unused. -/
def State.ppOpen (s : State) (owner dev : Nat) (tx : List Word) (rest : List (List Byte)) : Option PpRun :=
  let sel := s.rdN (Obj.devSel dev)
  if sel = 0xFF then none
  else some { owner := owner, dev := dev, sel := sel, mode := s.rdN (Obj.devMode dev), nbits := s.rdN (Obj.devBits dev),
              order := s.rdN (Obj.devOrder dev), div := s.rdN (Obj.devDiv dev), lead := s.rdN (Obj.devLead dev),
              lag := s.rdN (Obj.devLag dev), wait := decide (s.rd (Obj.devPrdy dev) = 1), prdyTo := s.rdN (Obj.devPrdyTo dev),
              tx := tx, rest := rest }

/-- The select is asserted now: the lead runs, and without `PRDY` every word follows (R442, R446, R447). -/
def PpRun.select (r : PpRun) (now : Nat) : PpRun :=
  let lead := now + ppCycles (4 * r.lead)
  { r with selected := true, begun := if r.wait then 0 else r.tx.length
           nextT := if r.wait then lead else lead + r.tx.length * r.wordCycles }

/-- A transfer starts, the selects deasserted for at least 40 ns and a period of its clock: `PSCK` takes its idle level, and a decoded
address and its strobe are set, or a general-purpose select is asked for (R441 to R443, R446). -/
def State.ppSelect (r : PpRun) (s0 : State) : State :=
  let s := s0.atT (s0.pp.freeT + ppCycles (max 40 r.period))
  s.modPp (fun p => { p with
    run := some (if r.sel < 8 then r.select s.time.now else r), next := none, sck := decide (2 ≤ r.mode)
    psel := if r.sel < 8 then r.sel else p.psel, pstbN := !decide (r.sel < 8) })

/-- A list run comes to its next entry: an unused descriptor ends its entry at once with cause 5 (R440); after the last entry the
run ends. -/
def State.ppNext (l : Nat) : List (List Byte) → State → State
  | [], s => (s.modPp (fun p => { p with next := none })).ppRunEnd l
  | e :: rest, s =>
    if s.rdN (Obj.devSel (leAt e 0 1)) = 0xFF then
      State.ppNext l rest (s.modPp (fun p => { p with build := p.build ++ ppEntry 5 0 0 0 0 }))
    else s.modPp (fun p => { p with next := some (l, e :: rest) })

/-- The entry a list run stands at starts. -/
def State.ppEnter (s : State) : State :=
  match s.pp.next with
  | some (l, e :: rest) =>
    let tx := ((List.range (leAt e 1 1)).map (fun i => BitVec.ofNat 32 (leAt e (4 + 4 * i) 4)))
    match s.ppOpen l (leAt e 0 1) tx rest with
    | some r => s.ppSelect r
    | none => s.ppNext l (e :: rest)
  | _ => s

/-- The result of a manual transfer: `MAN_RX`, `MAN_STAT` with bit 15 (R451). -/
def State.ppManual (cause bits done : Nat) (rx : List Nat) (s : State) : State :=
  (forAll (List.range 8) (fun i x => x.wr (Obj.manRx i) ((rx.getD i 0 : Nat) : Int)) s).wr Obj.manStat
    ((cause + 8 * bits + 512 * done + 32768 : Nat) : Int)

/-- The selects released after a transfer (R443). -/
def State.ppRelease (s : State) : State :=
  (s.modPp (fun p => { p with run := none, pstbN := true, freeT := s.time.now })).pgpPlain

/-- The transfer in progress has ended with a cause: its results are recorded, and the rest of a list run follows or is
skipped with cause 4 (R449, R450, R453). -/
def State.ppFinish (r : PpRun) (cause : Nat) (rx : List (List Bool)) (s : State) : State :=
  let s1 := s.ppRelease.modPp (fun p => { p with mosi := r.sentBits rx })
  let bits := r.lastBits s.time.now rx
  if r.owner = 2 then
    s1.ppManual cause bits (r.wordsDone rx) ((List.range 8).map (fun i => r.rxWord rx i))
  else
    let e := ppEntry cause bits (r.wordsDone rx) (r.rxWord rx 0) (r.rxWord rx 1)
    let s2 := s1.modPp (fun p => { p with build := p.build ++ e })
    if cause = 1 ∨ cause = 3 then
      (s2.modPp (fun p => { p with build := p.build ++ r.rest.flatMap (fun _ => ppEntry 4 0 0 0 0) })).ppRunEnd r.owner
    else s2.ppNext r.owner r.rest

/-- The next due work of the port: the next entry of the run in progress, list 0, list 1, the manual transfer (R453). -/
def State.ppStart (s : State) : State :=
  if s.pp.run.isSome then s
  else if s.pp.next.isSome then s.ppEnter
  else if s.pp.due0 then
    ((s.modPp (fun p => { p with due0 := false, build := [] })).ppNext 0 (ppEntries (s.blob (Obj.listDef 0) []))).ppEnter
  else if s.pp.due1 then
    ((s.modPp (fun p => { p with due1 := false, build := [] })).ppNext 1 (ppEntries (s.blob (Obj.listDef 1) []))).ppEnter
  else if s.pp.manual then
    let s1 := s.modPp (fun p => { p with manual := false })
    let tx := (List.range (s.rdN Obj.manCnt)).map (fun i => BitVec.ofInt 32 (s.rd (Obj.manTx i)))
    match s1.ppOpen 2 (s.rdN Obj.manDev) tx [] with
    | some r => s1.ppSelect r
    | none => s1.ppManual 5 0 0 []
  else s

/-- A list's trigger arrives: its run becomes due, or the trigger is dropped, counted and reported where the previous run
still runs or waits (R452, R454). -/
def State.listTrig (l : Fin 2) (s : State) : State :=
  let due := if l = 0 then s.pp.due0 else s.pp.due1
  if due || s.pp.run.any (fun r => r.owner == l.val) || s.pp.next.any (fun x => x.1 == l.val) then
    (s.bump (Obj.listOverrun l.val)).reportM 0xF802 (mkInst l.val 0) 0
  else s.modPp (fun p => if l = 0 then { p with due0 := true } else { p with due1 := true })

end Sys2Proof.Machine
end

