-- ==== Sys2Proof/Machine/Views.lean ====
section
/-! DEFINITION. What the objects show: the log and audit records as bytes (R364, R498), the objects that are computed
from the machine's state, the BLOBs, and the reading rules of R150 and R164. -/

namespace Sys2Proof.Machine

/-! ## Records -/

/-- A log entry, R364. -/
def LogEntry.bytes (e : LogEntry) : List Byte :=
  leBytes 8 e.timeNs ++ leBytes 4 e.seq ++ leBytes 2 e.ev.code.toNat ++ leBytes 2 e.ev.inst.toNat
    ++ leBytes 1 (e.ev.cls.num + 16 * e.ev.react) ++ leBytes 1 e.ev.flags ++ leBytes 1 e.ev.event ++ leBytes 1 0
    ++ leBytes 4 e.ev.occ ++ leBytes 4 (toBits 32 e.ev.data) ++ leBytes 4 0

/-- Bytes 0 to 23 of an audit entry, R498. -/
def AuditEntry.head (e : AuditEntry) : List Byte :=
  leBytes 8 e.timeNs ++ leBytes 4 e.seq ++ leBytes 2 e.event ++ leBytes 1 e.path ++ leBytes 1 e.user
    ++ leBytes 1 e.role ++ leBytes 1 e.result ++ leBytes 6 e.data
/-- An audit entry, R498. -/
def AuditEntry.bytes (e : AuditEntry) : List Byte := e.head ++ e.chain

/-- The chain bytes of the latest audit entry (newest first in both lists; the queue is the newer). -/
def State.auditChain (s : State) : List Byte :=
  match (s.sec.auditQ ++ s.sec.audit).head? with
  | some e => e.chain
  | none => List.replicate 8 0

/-- An event enters the audit queue, R498, R499; `AUDIT_LOG_WRITE` writes it. -/
def State.auditEvent (event path user role result data : Nat) (s : State) : State :=
  let e : AuditEntry := { timeNs := s.stationNs, seq := s.sec.auditSeq + 1, event := event, path := path, user := user,
                          role := role, result := result, data := data, chain := [] }
  let c := slice (sha256 (e.head ++ s.auditChain)) 0 8
  s.modSec (fun x => { x with auditSeq := x.auditSeq + 1, auditQ := { e with chain := c } :: x.auditQ })

/-- The first 128 records, oldest first, at or after a sequence number, filled with zeros to 4096 bytes. -/
def viewBytes (recs : List (Nat × List Byte)) (sel : Nat) : List Byte :=
  slice (((recs.filter (fun r => decide (sel ≤ r.1))).take 128).flatMap (fun r => r.2)) 0 4096

/-- An event timestamp, R435: sequence number, edge, seconds, nanoseconds. -/
def etsBytes (e : Nat × Nat × Nat × Nat) : List Byte :=
  leBytes 4 e.1 ++ leBytes 1 e.2.1 ++ leBytes 3 0 ++ leBytes 4 e.2.2.1 ++ leBytes 4 e.2.2.2

/-! ## Computed objects -/

/-- `SUB_STATE`, R178. -/
def Sub.state (x : Sub) : Nat :=
  if x.active then 1 + 2 * b2n x.udp + 4 * x.source + 16 * x.owner else 0
/-- The admitted rates on a path, R173. -/
def State.rateUsed (s : State) (udp : Bool) : Rat :=
  ((s.cmd.subs.filter (fun x => x.active && x.udp == udp)).map (fun x => x.rate)).sum

/-- `PLAUS_STALE` (R238): the comparisons are on, and neither converter's regular sequence holds the shared input. -/
def State.plausStale (s : State) (even : Nat) : Bool :=
  decide (s.rd (Obj.plausEn even) = 1) && !(s.seqNow even).contains 8 && !(s.seqNow (even + 1)).contains 8

/-- `CONV_STAT`, R249. -/
def State.convStat (s : State) (k : Fin 6) : Nat :=
  let c := s.conv.get k
  let even := k.val / 2 * 2
  b2n (s.power.refReady.get k) + 2 * b2n c.mmConv + 4 * b2n (decide (s.rd (Obj.sliceExcl k.val) ≠ 0))
    + 8 * b2n (s.conv.get (Fin.ofNat 6 even)).burst.isSome
    + 16 * b2n (decide (k.val < 4) && decide (s.rd (Obj.pairMode even) = 2))
    + 32 * b2n (decide (k.val < 4 ∧ k.val = even) && s.plausStale even) + 64 * b2n c.failed

/-- `SS1_REMAIN`, R407. -/
def State.ss1Remain (s : State) : Nat :=
  if s.safety.ss1M then s.rdN Obj.ss1Time - (s.time.now - s.safety.ss1StartM) / msCycles else 0

/-- `NET_STAT`, R437: bit 2 while the address of `IP_MODE` 0 fell back to `IP_ADDR` (R413). -/
def State.netStat (s : State) : Nat :=
  b2n (s.net.up.getD 0 false) + 2 * b2n (s.net.up.getD 1 false) + 4 * b2n s.net.fallback

/-- `LV_STATE`, R422. -/
def LvState.code : LvState → Nat
  | .free => 0
  | .tracking => 1
  | .locked => 2
  | .holdover => 3
  | .jump => 4

/-- The end of the `PTP_ANN_TO` announce intervals a master's last message holds for (R418). -/
def State.heardUntil (s : State) (h : Heard) : Nat := h.heardT + s.rdN Obj.ptpAnnTo * h.every
/-- The Announce messages that hold now. -/
def State.heardNow (s : State) : List Heard := s.net.foreign.filter (fun h => decide (s.time.now ≤ s.heardUntil h))

/-- The port the selected master's Announce messages arrive on, port 0 where they arrive on both (R419). -/
def State.ptpPort (s : State) : Option Nat :=
  match s.net.master with
  | none => none
  | some m =>
    if s.heardNow.any (fun f => f.clockId == m && f.port == 0) then some 0
    else if s.heardNow.any (fun f => f.clockId == m) then some 1 else none
/-- `PTP_STATE`, R438: disabled, faulty while no port is up (PRESUMED, log entry 120), listening, uncalibrated until an offset of the
selected master stands, slave. -/
def State.ptpState (s : State) : Nat :=
  if s.rd Obj.ptpEn = 0 ∨ s.boot.stage ≠ .askard then 0
  else if !s.net.up.any (fun u => u) then 4
  else if s.net.master.isNone then 1 else if s.net.synced then 3 else 2

/-- `PR_STAT`, R478; a module of no pair ignores its pair pads (R457). -/
def State.prStat (s : State) : Nat :=
  let p := s.pair
  b2n p.trained + 2 * b2n p.roleAct + 4 * b2n (s.paired && s.partnerFilt) + 8 * b2n (s.paired && p.mlPres) + 16 * b2n s.takeReady
    + 32 * b2n s.takeRequest.isSome + 64 * b2n p.lost + 128 * b2n p.handover + 256 * b2n (decide (s.time.lv1.st = .locked))

/-- A status object that Askard and region C form once Askard runs; before that it holds its default of 0 (R8). -/
def State.formed (s : State) (v : Nat) : Int := if s.boot.stage = .askard then (v : Int) else 0

/-- `SEC_STAT`, R502. -/
def State.secStat (s : State) : Nat :=
  b2n s.sec.owner.isSome + 2 * b2n s.sec.session.isSome + 4 * b2n s.sec.unlocked + 8 * b2n s.boot.second
    + 16 * b2n s.sec.owner.isNone

/-- The running slot. -/
def State.runSlot (s : State) : Slot := if s.sec.runB then s.sec.slotB else s.sec.slotA
/-- `FW_VERSION`, R127; its bits 31:24 are reserved and read 0 (R3). -/
def State.fwVersion (s : State) : Nat := s.runSlot.version % 2 ^ 24

/-- `SLOT_A_VER` and `SLOT_B_VER`, R502: 0 for an invalid slot; bits 31:24 are reserved as in `FW_VERSION` (R3, R127). -/
def Slot.shown (x : Slot) : Nat := if x.present then x.version % 2 ^ 24 else 0

/-- `LOCKOUT`, R502. -/
def State.lockoutBits (s : State) : Nat :=
  ((List.range 16).map (fun u => b2n ((s.sec.lockouts.getD u (0, 0, none)).2.2.isSome) * 2 ^ u)).sum

/-- The last sequence number of the records written, and the oldest held (0 for none). -/
def oldestSeq (recs : List LogEntry) : Nat := (recs.getLast?.map (fun e => e.seq)).getD 0

/-- Objects of 0x1000 to 0x1FFF that show machine state. -/
def State.viewModule (s : State) (idx sub : Nat) : Option Int :=
  match idx, sub with
  | 0x1000, 1 => some (if s.variant = .f4 then 0x34120004 else 0x34120002)
  | 0x1000, 2 => some (if s.variant = .f4 then 4 else 2)
  | 0x1000, 3 => some ((Config.hwRev 0).toNat : Int)
  | 0x1000, 4 => some s.fwVersion
  | 0x1000, 5 => some ((Config.serial 0).toNat : Int)
  | 0x1001, 1 => some s.mode.code
  | 0x1001, 3 => some s.readyBlock
  | 0x1001, 4 => some (min ((s.time.now - s.boot.stateT) / msCycles) 0xFFFFFFFF : Nat)
  | 0x1003, 1 => some s.clkStatus
  | 0x1003, 3 => some s.refReadyAll
  | 0x1004, 1 => some s.power.swReset.toNat
  | 0x1004, 2 => some s.power.swNow.toNat
  | 0x1004, 3 => some s.power.swDiscrep.toNat
  | 0x1004, 4 => some (b2n s.power.coverOpen)
  | 0x1005, 1 => some s.power.vin
  | 0x1005, 2 => some s.power.vioG
  | 0x1005, 3 => some s.power.vioH
  | 0x1005, 4 => some s.power.vbat
  | 0x1005, 5 => some s.power.agnd
  | 0x1005, 6 => some s.power.vioGClass
  | 0x1007, 1 => some ((s.time.counter.floor.toNat % 2 ^ 48 : Nat) : Int)
  | 0x1007, 2 => some (((s.time.counter - s.time.counter.floor) * 32768).floor)
  | _, _ => none

/-- Objects of 0x2000 to 0x5FFF that show machine state; `n` is the unit. -/
def State.viewDrive (s : State) (base n sub : Nat) : Option Int :=
  let u := Fin.ofNat 4 n
  match base, sub with
  | 0x2008, 1 => some (s.formed (s.pwmStat u))
  | 0x2802, 1 => some s.tripLevel
  | 0x2802, 2 => some s.tripSyncLevel
  | 0x2F00, 2 => some s.runMask
  | 0x2F00, 3 => some s.genLevels
  | 0x3000, 1 => some (s.convStat (Fin.ofNat 6 n))
  | 0x300F, 2 => some (s.owFlags n)
  | 0x3C00, k => some ((s.cmd.subs.getD (k - 1) {}).state : Nat)
  | 0x3C01, k => some (showInt (s.cmd.subs.getD (k - 1) {}).rate)
  | 0x3C04, 1 => some (showInt (s.rateUsed false))
  | 0x3C04, 2 => some (showInt (s.rateUsed true))
  | 0x4001, 2 => if s.rd (Obj.fbMode n) = 5 then some 1 else none
  | 0x4002, 4 => some (s.fb.get u).stat
  | 0x4002, 1 => if s.rd (Obj.fbMode n) = 2 then some (s.hallAt u s.time.now % 2 ^ 25) else none
  | 0x4002, 2 => if s.rd (Obj.fbMode n) = 2 then some (signExt 16 (toBits 16 (s.hallAt u s.time.now / 2 ^ 25))) else none
  | 0x4002, 6 =>
    some (if s.rd (Obj.fbMode n) = 2 then b2n (s.fb.get u).a + 2 * b2n (s.fb.get u).b + 4 * b2n (s.fb.get u).z else 0 : Nat)
  | 0x5000, 1 => some (s.loaf.get u).st.code
  | 0x5C03, 1 => some (s.protStat u)
  | 0x5400, 1 => some (s.grp.get u).st.code
  | 0x5407, 2 => some (b2n (s.grp.get u).swap)
  | 0x540C, 5 => some ((units4.map (fun m => b2n ((s.grp.get u).shareSet.contains m) * 2 ^ m.val)).sum : Nat)
  | 0x540C, 6 => some ((units4.map (fun m =>
      b2n ((s.bound u).contains m && decide ((s.loaf.get m).st = .isolated)) * 2 ^ m.val)).sum : Nat)
  | _, _ => none

/-- Objects of 0x6000 to 0x7FFF that show machine state. -/
def State.viewSafety (s : State) (idx sub : Nat) : Option Int :=
  match idx, sub with
  | 0x6000, 3 => some s.flt.pend.length
  | 0x6100, 1 => some s.flt.seq
  | 0x6100, 7 => some (oldestSeq s.flt.vlog)
  | 0x6100, 8 => some (oldestSeq s.flt.nvlog)
  | 0x6200, 1 => some s.flt.inj.length
  | 0x6300, 4 => some (match s.flt.lastBeat with
    | some t => ((min ((s.time.now - t) / msCycles) 0xFFFFFFFF : Nat) : Int)
    | none => 0)
  | 0x6300, 7 => some s.beatStat
  | 0x7000, 1 => some s.safeStat
  | 0x7000, 2 => some s.safeInputs
  | 0x7000, 3 => some (fieldOf s.power.swReset.toNat 0 2)
  | 0x7000, 6 => some s.ss1Remain
  | 0x7011, k => some ((s.safety.sets.get (Fin.ofNat 4 (k - 1))).state : Nat)
  | 0x7012, k =>
    let x := s.safety.sets.get (Fin.ofNat 4 (k - 1))
    some (if x.state = 0 then 0 else (crc32 x.image).toNat)
  | _, _ => none

/-- Objects of 0x8000 to 0xBFFF that show machine state. -/
def State.viewOuter (s : State) (idx sub : Nat) : Option Int :=
  match idx, sub with
  | 0x8000, 1 => some s.netStat
  | 0x8000, 4 => some ((Config.macAddr 0).toNat : Int)
  | 0x8010, 8 => some s.net.ipNow
  | 0x8020, 1 => some ((units4.map (fun c => b2n (s.net.conns.get c).open_ * 2 ^ c.val)).sum : Nat)
  | 0x8021, k => some ((s.net.conns.get (Fin.ofNat 4 (k - 1))).peer : Nat)
  | 0x8022, k => some ((s.net.conns.get (Fin.ofNat 4 (k - 1))).role : Nat)
  | 0x8100, 7 => some s.ptpState
  | 0x8100, 8 => some (s.ptpPort.getD 0xFF : Nat)
  | 0x8100, 9 => some (s.net.master.getD 0 : Nat)
  | 0x8200, 1 => some s.time.lv0.st.code
  | 0x8200, 9 => some (clampI (-0x80000000) 0x7FFFFFFF (showInt (s.time.lv0.rate * 100)))
  | 0x8200, 11 => some (b2n s.time.lv0.jump)
  | 0x8201, 1 => some s.time.lv1.st.code
  | 0x8201, 9 => some (clampI (-0x80000000) 0x7FFFFFFF (showInt (s.time.lv1.rate * 100)))
  | 0x8201, 11 => some (b2n s.time.lv1.jump)
  | 0x9000, 1 => some (s.formed s.ppStat)
  | 0xA000, 1 => some s.prSide
  | 0xA000, 4 => some (s.formed s.prStat)
  | 0xA000, 5 => some s.prRole
  | 0xA000, 6 => some (s.formed s.prCfgCrc.toNat)
  | 0xB000, 1 => some (s.formed s.secStat)
  | 0xB000, 2 => some s.hostRole
  | 0xB000, 3 => some ((s.sec.session.map (fun x => x.2)).getD 0xFF : Nat)
  | 0xB000, 6 => some s.lockoutBits
  | 0xB001, 1 => some s.runSlot.svn
  | 0xB001, 2 => some s.sec.rollback
  | 0xB001, 3 => some s.sec.slotA.shown
  | 0xB001, 4 => some s.sec.slotB.shown
  | 0xB001, 5 => some (b2n s.sec.runB)
  | 0xB004, 1 => some s.sec.auditSeq
  | 0xB004, 4 => some ((s.sec.audit.getLast?.map (fun e => e.seq)).getD 0 : Nat)
  | _, _ => none

/-- An object that shows machine state and has no home of its own. -/
def State.view (s : State) (idx sub : Nat) : Option Int :=
  if idx < 0x2000 then s.viewModule idx sub
  else if idx < 0x6000 then s.viewDrive (baseIndex idx) (unitOf idx) sub
  else if idx < 0x8000 then s.viewSafety idx sub
  else s.viewOuter idx sub

/-! ## BLOBs -/

/-- The greatest length of a BLOB, and whether its length varies (R153). -/
def blobSize (addr : Nat) : Nat × Bool :=
  if addr = Obj.classTable then (512, false)
  else if addr / 0x100 = 0x9034 then (192, true)
  else if addr / 0x100 = 0x9035 then (196, true)
  else if addr = Obj.devCert then (1024, true)
  else if addr = Obj.pendList ∨ addr = Obj.logView ∨ addr = Obj.audView then (4096, false)
  else if addr = Obj.injList ∨ addr = Obj.ownerKeyHash then (32, false)
  else if addr / 0x100 = 0x7010 ∨ addr = Obj.userTable then (128, false)
  else if addr / 0x100 = 0x8422 then (256, false)
  else if addr / 0x100 = 0x3C10 then (64, false)
  else if addr = Obj.attest then (144, false)
  else (132, false)

/-- The bytes a BLOB shows. -/
def State.blobView (s : State) (addr : Nat) : List Byte :=
  if addr = Obj.classTable then s.classTable
  else if addr = Obj.pendList then
    slice ((s.flt.pend.take 512).flatMap (fun p => leBytes 2 p.code.toNat ++ leBytes 2 p.inst.toNat
      ++ leBytes 1 (p.cls.num + 16 * p.react) ++ leBytes 1 p.flags ++ leBytes 2 (min p.occ 0xFFFF))) 0 4096
  else if addr = Obj.logView then
    viewBytes ((if s.rd Obj.logSrc = 1 then s.flt.nvlog else s.flt.vlog).reverse.map (fun e => (e.seq, e.bytes)))
      (s.rdN Obj.logSel)
  else if addr = Obj.injList then
    slice (s.flt.inj.flatMap (fun j => leBytes 2 j.code.toNat ++ leBytes 2 j.inst.toNat ++ leBytes 1 (b2n j.live)
      ++ leBytes 3 0)) 0 32
  else if addr / 0x100 = 0x7010 then slice (s.safety.sets.get (Fin.ofNat 4 (addr % 0x100 - 1))).image 0 128
  else if addr = Obj.etsLog 0 then slice (s.time.ets0.flatMap etsBytes) 0 256
  else if addr = Obj.etsLog 1 then slice (s.time.ets1.flatMap etsBytes) 0 256
  else if addr = Obj.ownerKeyHash then (s.sec.owner.map sha256).getD (List.replicate 32 0)
  else if addr = Obj.userTable then
    slice (s.sec.users.flatMap (fun u => leBytes 1 u.role ++ leBytes 3 0 ++ slice u.pubHash 0 4)) 0 128
  else if addr = Obj.devCert then (Config.devCert 0).take 1024
  else if addr = Obj.audView then viewBytes (s.sec.audit.reverse.map (fun e => (e.seq, e.bytes))) (s.rdN Obj.audSel)
  else if addr = Obj.attest then slice (s.blob addr []) 0 144
  else if addr / 0x100 = 0x3C10 then slice (s.blob addr []) 0 64
  else if addr = Obj.pairBuf 0 ∨ addr = Obj.pairBuf 2 then slice (s.blob addr []) 0 132
  else s.blob addr []

/-! ## Reading rules -/

/-- Loaf numbers a subindex names on indices that repeat per loaf inside themselves; used on the F2 (R51). -/
def subLoaves (idx sub : Nat) : List Nat :=
  let b := baseIndex idx
  if idx = 0x3C10 ∨ idx = 0x3C11 ∨ idx = 0x8410 ∨ idx = 0x8411 ∨ idx = 0x8412 then [sub - 1]
  else if idx = 0x3801 ∧ 2 ≤ sub ∧ sub ≤ 5 then [sub - 2]
  else if 0x5400 ≤ idx ∧ idx ≤ 0x57FF then
    (if b = 0x5408 ∧ 2 ≤ sub then [sub - 2]
     else if b = 0x5409 ∨ b = 0x540A then [(sub - 1) / 4, (sub - 1) % 4]
     else if (b = 0x540B ∧ sub ≤ 4) ∨ b = 0x540D ∨ b = 0x540E then [sub - 1] else [])
  else if 0x8400 ≤ idx ∧ idx ≤ 0x8404 ∧ sub ≤ 4 then [sub - 1]
  else if idx = 0xA003 ∨ idx = 0xA004 then [(sub - 1) / 2]
  else []

/-- An object of a unit the F2 lacks (R50, R51). -/
def State.absent (s : State) (idx sub : Nat) : Bool :=
  decide (s.variant = .f2) &&
    ((decide (0x2200 ≤ idx ∧ idx ≤ 0x23FF) || decide (0x3200 ≤ idx ∧ idx ≤ 0x33FF) || decide (0x4200 ≤ idx ∧ idx ≤ 0x43FF)
      || decide (0x5200 ≤ idx ∧ idx ≤ 0x53FF) || decide (0x5A00 ≤ idx ∧ idx ≤ 0x5BFF)
      || decide (0x5E00 ≤ idx ∧ idx ≤ 0x5FFF)) || (decide (sub ≠ 0) && (subLoaves idx sub).any (fun n => decide (2 ≤ n))))

/-- The group whose banks hold a class A object of an index: its own, or that of the loaf (R303). -/
def State.bankGroup (s : State) (idx : Nat) : Option (Fin 4) :=
  let u := Fin.ofNat 4 (unitOf idx)
  if 0x5400 ≤ idx ∧ idx ≤ 0x57FF then some u else s.groupOf u

/-- A class A write held while its group's swap is pending, which the shadow bank shows already (R171, R303, R304). -/
def State.heldValue (s : State) (idx a : Nat) : Option Int :=
  (s.bankGroup idx).bind (fun g =>
    if (s.grp.get g).swap then (((s.grp.get g).held.filter (fun x => x.1 == a)).getLast?).map (fun x => x.2) else none)

/-- The value of a scalar object: computed, or its home in the active or the shadow bank (R146, R303). A WO object reads 0,
and so do the nibbles of loaves 2 and 3 in a `TRIP_MAP` of the F2 (R200). -/
def State.value (s : State) (idx sub : Nat) (active : Bool) : Int :=
  let a := idx * 0x100 + sub
  match s.view idx sub, objRow idx sub with
  | some v, _ => v
  | none, none => 0
  | none, some r =>
    if r.acc = .wo then 0
    else if r.cls = .a then
      let act := match s.bankGroup idx with
        | some g => s.bankOfGroup g
        | none => 0
      if active then s.rd (a + act) else (s.heldValue idx a).getD (s.rd (a + (bankBit - act)))
    else if idx = 0x2801 ∧ s.variant = .f2 then s.rd a % 256
    else s.rd a

/-- Objects region C holds, which read as zeros until Peel has trained (R150). -/
def regionC (idx : Nat) : Bool := decide (0x2000 ≤ idx ∧ idx ≤ 0x5FFF) && !decide (0x3C00 ≤ idx ∧ idx ≤ 0x3C04)

/-- A role may read an object (R164, R485); role 0 is no session. -/
def readable (role idx sub : Nat) : Bool :=
  if role = 0 then decide (0x1000 ≤ idx ∧ idx ≤ 0x1FFF)
  else !(decide (idx = 0xB004 ∧ (sub = 2 ∨ sub = 3)) && decide (role = 1 ∨ role = 2))

/-- The object may be shown at all: present, its region reachable, the role allowed. -/
def State.shows (s : State) (role idx sub : Nat) : Bool :=
  readable role idx sub && !s.absent idx sub && (s.boot.peelTrained || !regionC idx)

/-- What `GET` returns for an address word (R150): the value, or 0. Subindex 0 is read as a U8 (DESIGN CHOICE: R168 gives the
entry count no type, log entry 152). -/
def State.getValue (s : State) (role : Nat) (w : Word) : Int :=
  let idx := awAddr w / 0x100
  let sub := awAddr w % 0x100
  if !s.shows role idx sub then 0
  else if sub = 0 then (if awType w = 1 then (entryCount idx : Int) else 0)
  else match objRow idx sub with
    | some r => if r.ty.code = awType w then s.value idx sub (awActive w) else 0
    | none => 0

/-- The words `GET` returns for an address word. -/
def State.getWords (s : State) (role : Nat) (w : Word) : List Word := encodeValue (awType w) (s.getValue role w)

/-- The bytes `GET_BLOCK` takes of an object: none where it is no BLOB (R152), whatever TYPE its address word states (DESIGN
CHOICE: R150's test of TYPE is that of `GET`, and R152 has none, log entry 153). -/
def State.blockOf (s : State) (role : Nat) (w : Word) : List Byte :=
  let idx := awAddr w / 0x100
  let sub := awAddr w % 0x100
  match objRow idx sub with
  | some r => if r.ty = .blob ∧ s.shows role idx sub then s.blobView (awAddr w) else []
  | none => []

end Sys2Proof.Machine
end

