-- ==== Sys2Proof/Machine/Access.lean ====
section
/-! DEFINITION. Object writes (R166 to R171): the reasons for which a write is ignored, in the order of R170, and what
a write that is taken does. -/

namespace Sys2Proof.Machine

/-! ## What a write affects -/

/-- The loaves a write of the PWM timing objects of loaf `n` reaches: every loaf of its group (R323). -/
def State.timingLoaves (s : State) (n : Fin 4) : List (Fin 4) := match s.groupOf n with
  | some g => s.bound g
  | none => [n]

/-- `CNT_MODE`, `PERIOD`, `FRAME_LEN` and `PEAK_RELOAD`, which R323 copies. -/
def isTiming (b sub : Nat) : Bool := decide (b = 0x2000 ∧ 1 ≤ sub ∧ sub ≤ 4)

/-- The loaf is OFF. -/
def State.isOff (s : State) (n : Fin 4) : Bool := decide ((s.loaf.get n).st = .off)
/-- The loaf is OFF or OPEN (R169). -/
def State.isOffOpen (s : State) (n : Fin 4) : Bool := decide ((s.loaf.get n).st = .off ∨ (s.loaf.get n).st = .open_)

/-- The loaves a class B write affects (R169, R185, R200, R249, R279, R322, R323, R478). -/
def State.classBLoaves (s : State) (idx sub : Nat) (v : Int) : List (Fin 4) :=
  let b := baseIndex idx
  let u := Fin.ofNat 4 (unitOf idx)
  if idx < 0x2400 then (if isTiming b sub then s.timingLoaves u else [u])
  else if idx = 0x2800 then s.loaves.filter (fun n => (s.mapNibble (sub - 1) n).testBit 0)
  else if idx = 0x2801 then
    s.loaves.filter (fun n => (s.mapNibble (sub - 1) n).testBit 0 || (v.toNat / 16 ^ n.val % 16).testBit 0)
  else if idx < 0x3600 then
    let k := unitOf idx
    if b = 0x3014 ∨ b = 0x3015 ∨ b = 0x3016 then s.loaves.filter (fun n => s.convServes k n || s.convServes (k + 1) n)
    else if k < 4 then s.loaves.filter (fun n => s.convServes k n) else []
  else if idx < 0x5000 then
    Fin.ofNat 4 (s.rdN (Obj.fbLoaf u.val)) :: s.fbReaders u.val
  else if idx < 0x5400 then [u]
  else if idx < 0x5800 then
    (if b = 0x5408 ∧ sub = 1 then s.loaves.filter (fun n => (s.bound u).contains n || v.toNat.testBit n.val) else s.bound u)
  else if idx < 0x6000 then [u]
  else s.bound s.prGroup

/-! ## Reasons -/

/-- A WO object that clears counters or flags (R170). -/
def isClear (idx sub : Nat) : Bool :=
  let b := baseIndex idx
  [(0x1011, 7), (0x1010, 10), (0x1012, 4), (0x3C04, 3), (0x2008, 8), (0x2804, 1), (0x3013, 4), (0x4006, 4), (0x5006, 3),
   (0x5C04, 5), (0x6100, 9), (0x6200, 6), (0x8005, 1), (0x9041, 1), (0xA002, 6)].contains (b, sub)

/-- The module state as region M knows it: the one before SAFE until the report that led there has arrived (R112). -/
def State.modeM (s : State) : ModState := if s.mode = .safe ∧ !s.boot.safeSeen then s.boot.preSafe else s.mode

/-- A `MODULE_REQ` value names a transition R97 or R98 does not allow now; it is judged in region M (R112). -/
def State.reqRefused (s : State) (v : Int) : Bool :=
  if v = 1 then !(decide (s.modeM = .config) && s.readyBlock == 0)
  else if v = 2 then decide (s.modeM ≠ .ready)
  else if v = 3 then decide (s.modeM ≠ .config ∧ s.modeM ≠ .ready)
  else if v = 4 then decide (s.modeM = .operational)
  else false

/-- A manual transfer is pending or running (R451). -/
def State.manBusy (s : State) : Bool := s.pp.manual || s.pp.run.any (fun r => r.owner == 2)

/-- Reason 6: the present state refuses the write. -/
def State.refusedState (s : State) (idx sub : Nat) (v : Int) : Bool :=
  let b := baseIndex idx
  let u := Fin.ofNat 4 (unitOf idx)
  (decide (s.mode = .safe) && !(decide (idx = 0x1001 ∧ sub = 2)) && !isClear idx sub)
    || (if idx = 0x1001 ∧ sub = 2 then s.reqRefused v
        else if b = 0x2000 ∧ (sub = 1 ∨ sub = 4) then (s.timingLoaves u).any (fun n => !s.isOff n)
        else if (b = 0x2000 ∧ (sub = 6 ∨ sub = 7)) ∨ b = 0x2001 ∨ b = 0x2002 then !s.isOff u
        else if idx = 0x8410 ∨ idx = 0x8411 then !s.isOff (Fin.ofNat 4 (sub - 1))
        else if idx = 0x6000 ∧ sub ≤ 2 then decide (s.mode ≠ .config ∧ s.mode ≠ .ready)
        else if (idx = 0xA000 ∧ (sub = 2 ∨ sub = 3)) ∨ (idx = 0x8010 ∧ sub ≤ 7)
            ∨ (idx = 0x8000 ∧ (sub = 2 ∨ sub = 3)) then
          decide (s.mode ≠ .config)
        else if idx = 0x8401 then decide (s.rd (Obj.tuTrim (sub - 1)) = 1)
        else if (idx = 0x9020 ∧ sub ≤ 3) ∨ idx = 0x9021 then s.manBusy
        else if idx = 0x3801 ∨ idx = 0x3802 then decide (1 ≤ s.rd Obj.capState ∧ s.rd Obj.capState ≤ 3)
        else false)

/-- Reason 5 by value: on the F2, a value that names loaf 2 or 3 (R53, R230, R241, R456). -/
def State.namesAbsent (s : State) (idx sub : Nat) (v : Int) : Bool :=
  let b := baseIndex idx
  decide (s.variant = .f2) &&
    (if b = 0x3008 ∧ idx < 0x3600 then decide (v % 16 ≠ 0 ∧ v % 16 ≤ 9 ∧ 0 ≤ v ∧ v < 64 ∧ 2 ≤ v / 16)
     else if idx = 0x3517 ∨ idx = 0x9031 then decide (v = 2 ∨ v = 3)
     else if b = 0x5408 ∧ sub = 1 then v.toNat.testBit 2 || v.toNat.testBit 3
     else false)

/-- The period length in ticks (R179). -/
def State.periodLen (s : State) (n : Nat) : Int :=
  if s.rd (Obj.cntMode n) = 0 then s.rd (Obj.period n) else 2 * s.rd (Obj.period n)

/-- `PERIOD` in the range of a counter mode (R180). -/
def periodOk (mode period : Int) : Bool :=
  if mode = 0 then decide (2000 ≤ period ∧ period ≤ 200000) else decide (1000 ≤ period ∧ period ≤ 100000)

/-- Range rules of the PWM and trip objects (R180, R187, R200, R210). -/
def State.rangePwm (s : State) (b sub : Nat) (u : Fin 4) (v : Int) : Bool :=
  if isTiming b sub then
    (s.timingLoaves u).all (fun m =>
      let peak := decide (s.rd (Obj.peakReload m.val) = 1)
      if sub = 1 then periodOk v (s.rd (Obj.period m.val)) && !(peak && decide (v = 0))
      else if sub = 2 then periodOk (s.rd (Obj.cntMode m.val)) v && !(peak && decide (v < 2000))
      else if sub = 3 then !(peak && decide (v ≠ 1))
      else decide (v = 0) || decide (s.rd (Obj.cntMode m.val) = 1 ∧ s.rd (Obj.frameLen m.val) = 1
        ∧ 2000 ≤ s.rd (Obj.period m.val)))
  else if b = 0x2000 ∧ sub = 6 then decide (v < s.periodLen u.val)
  else if b = 0x2000 ∧ sub = 10 then decide (v ≤ s.rd (Obj.autoSpeed u.val))
  else if b = 0x2801 then
    s.loaves.all (fun n => let x := v.toNat / 16 ^ n.val % 16; !x.testBit 3 && !(x.testBit 1 && x.testBit 2))
  else true

/-- `CH_ROLE`: a defined role that no other input holds for the same loaf (R230). -/
def State.roleOk (s : State) (k i : Nat) (v : Int) : Bool :=
  let r := v.toNat % 16
  decide (v < 64 ∧ r ≤ 9)
    && (decide (r = 0 ∨ r = 9)
      || ((List.range 4).flatMap (fun k' => (List.range 9).map (fun i' => (k', i')))).all (fun p =>
          decide (p = (k, i)) || !s.has p.1 || !s.holds p.1 p.2 (Fin.ofNat 4 (v.toNat / 16)) r))

/-- Range rules of the converter and capture objects (R224, R228, R230, R249, R250). -/
def State.rangeConv (s : State) (idx b sub k : Nat) (v : Int) : Bool :=
  if b = 0x3006 ∧ k = 5 then decide (-2048 ≤ v ∧ v ≤ 2047)
  else if b = 0x3008 then s.roleOk k (sub - 1) v
  else if b = 0x300F ∧ sub = 1 then decide (v < 512)
  else if b = 0x3015 ∧ sub = 4 then decide (v % 2 = 0)
  else if idx = 0x3802 ∧ sub = 3 then decide (v ≤ 35 ∨ v = 255)
  else true

/-- `FB_RES` in the range of a mode (R279). -/
def fbResOk (mode res : Int) : Bool :=
  if mode = 1 then decide (1 ≤ res ∧ res ≤ 8388608)
  else if mode = 2 then decide (1 ≤ res ∧ res ≤ 64)
  else if mode = 5 then decide (1 ≤ res ∧ res ≤ 8192)
  else true

/-- Range rules of the feedback objects (R252, R259, R265, R268, R279). -/
def State.rangeFb (s : State) (b sub n : Nat) (v : Int) : Bool :=
  if b = 0x4000 ∧ sub = 1 then !(decide (v = 5) && decide (n ≠ 0)) && fbResOk v (s.rd (Obj.fbRes n))
  else if b = 0x4000 ∧ sub = 2 then fbResOk (s.rd (Obj.fbMode n)) v
  else if b = 0x4001 ∧ sub = 2 then !(decide (s.rd (Obj.fbMode n) = 5) && decide (v = 0))
  else if b = 0x4001 ∧ sub = 3 then decide (2 * v ≤ (fbCpr (s.rdN (Obj.fbMode n)) (s.rdN (Obj.fbRes n)) : Int))
  else if b = 0x4003 ∧ sub = 8 then decide (s.rd (Obj.spdBlendLo n) < v)
  else if b = 0x4004 ∧ sub = 1 then decide (v + s.rd (Obj.serMtBits n) ≤ 48)
  else if b = 0x4004 ∧ sub = 2 then decide (v + s.rd (Obj.serStBits n) ≤ 48)
  else if b = 0x4004 ∧ sub = 4 then !(decide (s.rd (Obj.fbMode n) = 3) && decide (v < 50))
  else true

/-- Range rules of the Oven, group and fault objects (R318 to R322, R326, R368). -/
def State.rangeOven (s : State) (idx b sub : Nat) (u : Fin 4) (v : Int) : Bool :=
  let iMaxOk := (s.bound u).all (fun m => decide (v ≤ s.value (0x5003 + 0x100 * m.val) 8 false))
  if b = 0x5003 ∧ sub = 8 then decide (v ≤ 8 * s.rd (Obj.iBase u.val))
  else if b = 0x5003 ∧ sub = 10 then
    decide (-(s.value idx 8 false) ≤ v ∧ v ≤ s.value idx 8 false)
  else if b = 0x5400 ∧ sub = 3 then decide (v ≤ 3 ∨ v = 255)
  else if b = 0x5401 ∧ sub = 9 then decide (s.value idx 8 false < v)
  else if b = 0x5403 ∧ sub = 7 then decide (v ≤ s.value (idx - 2) 8 false)
  else if b = 0x5404 ∧ (sub = 1 ∨ sub = 7) then iMaxOk
  else if b = 0x5404 ∧ sub = 6 then (s.bound u).all (fun m => decide (v ≤ s.rd (Obj.vBase m.val)))
  else if b = 0x5404 ∧ sub = 10 then decide (v ≤ 3 ∨ v = 255)
  else if b = 0x5408 ∧ sub = 1 then
    s.loaves.all (fun n => !v.toNat.testBit n.val || s.groupOf n == none || s.groupOf n == some u)
  else if b = 0x5409 ∨ b = 0x540A then decide ((sub - 1) / 4 ≠ (sub - 1) % 4)
  else if idx = 0x6300 ∧ sub = 1 then decide (v = 0 ∨ 10 ≤ v)
  else true

/-- Contiguous ones from bit 31, 8 to 30 of them (R437). -/
def maskOk (v : Int) : Bool := (List.range 23).any (fun i => decide (v = ((2 ^ 32 - 2 ^ (24 - i) : Nat) : Int)))

/-- `PGP_CFG`: no field 3, no plain field for a pin an in-use descriptor names (R442, R456). -/
def State.pgpOk (s : State) (v : Int) : Bool :=
  decide (v < 16) && (List.range 2).all (fun p =>
    let f := fieldOf v.toNat (2 * p) 2
    decide (f ≠ 3) && (decide (f = 2)
      || (List.range 10).all (fun d => decide (s.rdN (Obj.devSel d) ≠ 8 + p))))

/-- Range rules of the network, time, port and pair objects (R414 to R417, R433, R440, R456, R478). -/
def State.rangeOuter (s : State) (idx sub : Nat) (v : Int) : Bool :=
  if idx = 0x1005 ∧ sub = 7 then decide (v < 256)
  else if idx = 0x8010 ∧ sub = 4 then maskOk v
  else if idx = 0x8010 ∧ sub = 7 then decide (v ≠ s.rd Obj.mgtPort ∧ v ≠ 319 ∧ v ≠ 320)
  else if idx = 0x8020 ∧ sub = 2 then decide (v = 0 ∨ 10 ≤ v)
  else if idx = 0x8410 then decide ((1000000000 : Int) % v = 0 ∧ s.rd (Obj.epochPhase (sub - 1)) < v)
  else if idx = 0x8411 then decide (v < s.rd (Obj.epochInterval (sub - 1)))
  else if idx = 0x9000 ∧ sub = 3 then s.pgpOk v
  else if idx = 0x9010 then decide (v ≤ 9 ∨ v = 255)
  else if idx = 0xA005 then decide (v ≤ 3 ∨ v = 255)
  else true

/-- The value lies in the object's range (R170 reason 3 otherwise). -/
def State.inRange (s : State) (r : ObjRow) (idx sub : Nat) (v : Int) : Bool :=
  let b := baseIndex idx
  let u := Fin.ofNat 4 (unitOf idx)
  decide (r.min ≤ v ∧ v ≤ r.max)
    && (if idx < 0x2000 then s.rangeOuter idx sub v
        else if idx < 0x3000 then s.rangePwm b sub u v
        else if idx < 0x4000 then s.rangeConv idx b sub (unitOf idx) v
        else if idx < 0x5000 then s.rangeFb b sub u.val v
        else if idx < 0x8000 then s.rangeOven idx b sub u v
        else s.rangeOuter idx sub v)

/-- Read-only beyond the access column: subindex 0, the 0x7000 range, the fixed trip sources (R168, R170, R200). -/
def readOnly (r : ObjRow) (idx sub : Nat) (active : Bool) : Bool :=
  decide (r.acc = .ro) || active || decide (0x7000 ≤ idx ∧ idx ≤ 0x7FFF)
    || (decide (idx = 0x2800 ∨ idx = 0x2801) && decide (15 ≤ sub))

/-- Why a write of a value is ignored, R170: 0 where it is taken. The value is none where its words do not encode one. -/
def State.reasonFor (s : State) (r : ObjRow) (idx sub : Nat) (active : Bool) (v : Option Int) : Nat :=
  let w := v.getD 0
  if s.absent idx sub || (v.isSome && s.namesAbsent idx sub w) then 5
  else if readOnly r idx sub active then 2
  else if s.refusedState idx sub w then 6
  else if r.cls = .b ∧ (s.classBLoaves idx sub w).any (fun n => !s.isOffOpen n) then 4
  else match v with
    | none => 3
    | some x => if s.inRange r idx sub x then 0 else 3

/-- Why a write of words is ignored, R170; 0 where it is taken. -/
def State.judge (s : State) (aw : Word) (vals : List Word) : Nat :=
  let idx := awAddr aw / 0x100
  let sub := awAddr aw % 0x100
  if sub = 0 then (if entryCount idx = 0 ∨ awType aw ≠ 1 ∨ awReserved aw then 1 else if s.absent idx sub then 5 else 2)
  else match objRow idx sub with
    | none => 1
    | some r =>
      if r.ty.code ≠ awType aw ∨ awReserved aw ∨ r.ty = .blob then 1
      else s.reasonFor r idx sub (awActive aw) (decodeValue (awType aw) vals)

/-- An ignored write is counted, R170. -/
def State.ignored (s : State) (aw : Word) (reason : Nat) : State :=
  let s1 := s.bump Obj.ignoredWrites
  let s2 := match reason with
    | 1 => s1.bump Obj.ignNoobj
    | 2 => s1.bump Obj.ignRo
    | 3 => s1.bump Obj.ignRange
    | 4 => s1.bump Obj.ignClassB
    | 5 => s1.bump Obj.ignAbsent
    | _ => s1.bump Obj.ignState
  (s2.wr Obj.ignLast (aw.toNat : Int)).wr Obj.ignLastReason (reason : Int)

/-! ## Effects -/

/-- The counters a clear object clears. -/
def clearList (idx sub : Nat) : List Nat :=
  let u := unitOf idx
  let b := baseIndex idx
  if idx = 0x1011 then [Obj.peelCrcC, Obj.peelCrcM, Obj.peelRetx, Obj.peelRetrain, Obj.recDrop, Obj.peelCtlLatMax]
  else if idx = 0x1010 then
    [Obj.ignoredWrites, Obj.ignNoobj, Obj.ignRo, Obj.ignRange, Obj.ignClassB, Obj.ignAbsent, Obj.ignState, Obj.ignLast,
     Obj.ignLastReason]
  else if idx = 0x1012 then [Obj.cmdTaken, Obj.cmdRefused, Obj.cmdLastRefused]
  else if idx = 0x3C04 then (List.range 8).map Obj.subSent ++ (List.range 8).map Obj.subDropped
  else if b = 0x2008 then [Obj.lateCount u, Obj.cycleTrips u]
  else if idx = 0x2804 then (List.range 16).map Obj.tripCount
  else if b = 0x3013 ∧ idx < 0x3600 then [Obj.injOverrun u, Obj.lateSamples u, Obj.incomplete u]
  else if b = 0x4006 then [Obj.illegalCnt u, Obj.idxCnt u, Obj.slipCnt u, Obj.serErrCnt u]
    ++ (if u = 0 then [Obj.scAdj 0] else [])
  else if b = 0x5006 then [Obj.heldFrames u, Obj.vlimFrames u]
  else if b = 0x5C04 then [Obj.ocPeak u, Obj.desatCount u, Obj.ocCount u, Obj.slopeCount u, Obj.openCount u]
  else if idx = 0x6200 ∧ sub = 6 then [Obj.injCount, Obj.injCoinc]
  else if idx = 0x8005 then
    (List.range 2).map Obj.ethRx ++ (List.range 2).map Obj.ethTx ++ (List.range 3).map Obj.ethDrops
      ++ (List.range 2).map Obj.ethFcsErr ++ [Obj.tcUnmatched]
  else if idx = 0x9041 then (List.range 2).map Obj.listOverrun ++ (List.range 10).map Obj.prdyToCnt
  else if idx = 0xA002 then [Obj.mlCrcErr, Obj.mlLost, Obj.mlRetrain, Obj.mlLatMax, Obj.failovers]
  else []

/-- A host heartbeat, R368. -/
def State.hostBeat (s : State) : State :=
  s.modFlt (fun f => { f with lastBeat := some s.time.now, hbSaid := false, hbArmed := decide (s.rd Obj.hbTimeout ≠ 0) })

/-- An attestation asked for, taken after one that is forming (R500). -/
def State.askAttest (v : Int) (s : State) : State :=
  s.modSec (fun x => if x.attest.isSome then { x with attestNext := some v.toNat } else { x with attest := some v.toNat })

/-- A binding taken: the timing objects of the lowest loaf named are copied into the others (R323). -/
def State.bindLoaves (g : Fin 4) (v : Int) (s : State) : State :=
  let s1 := forAll (s.loaves.filter (fun n => !v.toNat.testBit n.val)) (fun n x => x.wr (Obj.shareEff g.val n.val) 0)
    (s.modGrp g (fun x => { x with shareSet := x.shareSet.filter (fun n => v.toNat.testBit n.val) }))
  match s1.loaves.filter (fun n => v.toNat.testBit n.val) with
  | [] => s1
  | m :: rest => forAll rest (fun n x =>
      x.wrs [(Obj.cntMode n.val, x.rd (Obj.cntMode m.val)), (Obj.period n.val, x.rd (Obj.period m.val)),
             (Obj.frameLen n.val, x.rd (Obj.frameLen m.val)), (Obj.peakReload n.val, x.rd (Obj.peakReload m.val))]) s1

/-- A class A write: both banks of an unbound loaf, the shadow bank otherwise, held while a swap is pending (R303, R304). -/
def State.writeA (idx sub : Nat) (v : Int) (s : State) : State :=
  let a := idx * 0x100 + sub
  match s.bankGroup idx with
  | none => (s.wr a v).wr (a + bankBit) v
  | some g =>
    if (s.grp.get g).swap then s.modGrp g (fun x => { x with held := x.held ++ [(a, v)] })
    else s.wr (a + (bankBit - s.bankOfGroup g)) v

/-- What a taken `MODULE_REQ` does (R97, R98, R112, R528): a module that stands in SAFE already stays there; a reset or a standby
entry begins all the same. -/
def State.moduleReq (src : Source) (v : Int) (s : State) : State :=
  if s.mode = .safe ∧ (v = 1 ∨ v = 2) then
    s.modBoot (fun b => { b with preSafe := if v = 1 then .ready else .config, auto := b.auto && decide (v ≠ 2) })
  else if v = 1 then (s.setMode .ready).settle
  else if v = 2 then ((s.modBoot (fun b => { b with auto := false })).setMode .config).settle
  else
    let s1 := if v = 3 then s.wr Obj.wakeMissed 0 else s
    s1.modBoot (fun b => { b with transition := some (v.toNat, src) })

/-- What a taken write of a WO object does. -/
def State.writeWo (src : Source) (idx sub : Nat) (v : Int) (s : State) : State :=
  let u := Fin.ofNat 4 (unitOf idx)
  if idx = 0x1001 then s.moduleReq src v
  else if idx = 0x6100 then s.modFlt (fun f => { f with vlog := [] })
  else if baseIndex idx = 0x4001 then s.modFb u (fun f => { f with armed := true })
  else if idx = 0x8402 then s.modTime (fun t => { t with unitPending := t.unitPending.set (sub - 1) true })
  else if idx = 0x9000 then s.ppEarly 1
  else if idx = 0x9020 then (s.modPp (fun p => { p with manual := true })).wr Obj.manStat 0x4000
  else s.clear (clearList idx sub)

/-- The ordinary clock is switched off: channel 0 is FREE, no master is selected (R422, R438). -/
def State.ptpOff (s : State) : State :=
  (s.modTime (fun t => { t with lv0 := {} })).modNet (fun n => { n with
    master := none, foreign := [], synced := false, syncPend := none, lastSync := none, reqLatch := none, mpd := 0, offset := none })

/-- What follows from a taken write of an RW object, its value already in place; `old` is what it held before. -/
def State.wrote (idx sub : Nat) (old v : Int) (s : State) : State :=
  let b := baseIndex idx
  let u := Fin.ofNat 4 (unitOf idx)
  if idx = 0x2801 then (s.tripRemap (sub - 1) old v).settle
  else if b = 0x2000 then s.patternFollow
  else if b = 0x2004 ∨ b = 0x2005 then s.modLoaf u (fun l => { l with evtCount := (slice3 l.evtCount).set (sub - 1) 0 })
  else if b = 0x300A then s.modConv (Fin.ofNat 6 (unitOf idx)) (fun c => { c with owSince := c.owSince.filter (fun x => x.1 != sub - 1) })
  else if b = 0x4000 ∧ (sub = 1 ∨ sub = 3) then s.fbRestart u
  else if b = 0x4000 ∧ sub = 2 then s.fbRescale u
  else if b = 0x4000 ∧ sub = 4 then s.modFb u (fun f => { f with marks := [], mergeDue := none })
  else if b = 0x4001 ∧ sub = 1 then s.modFb u (fun f => { f with armed := false })
  else if b = 0x4001 ∧ sub = 2 then s.modFb u (fun f => { f with gateWas := s.indexGate u })
  else if b = 0x5408 ∧ sub = 1 then s.bindLoaves u v
  else if idx = 0x6300 ∧ sub = 1 then s.modFlt (fun f => { f with hbArmed := false })
  else if idx = 0x6300 ∧ sub = 3 then (if old ≠ v ∧ s.rdBit Obj.hbSrc 1 then s.hostBeat else s)
  else if idx = 0x8100 ∧ sub = 1 then (if v = 0 then s.ptpOff else s)
  else if idx = 0x9000 then s.pgpPlain
  else if idx = 0x9030 then s.modPp (fun p =>
      if sub = 1 then { p with evt0 := 0, trig0 := s.time.now } else { p with evt1 := 0, trig1 := s.time.now })
  else if idx = 0xB005 then s.askAttest v
  else s
where
  /-- The three counts of the event channels. -/
  slice3 (l : List Nat) : List Nat := [l.getD 0 0, l.getD 1 0, l.getD 2 0]

/-- A value stored in the homes its write reaches. -/
def State.store (idx sub : Nat) (v : Int) (s : State) : State :=
  let a := idx * 0x100 + sub
  if isTiming (baseIndex idx) sub && decide (idx < 0x2400) then
    forAll (s.timingLoaves (Fin.ofNat 4 (unitOf idx))) (fun n x => x.wr (0x200000 + 0x10000 * n.val + sub) v) s
  else if idx = 0x2801 ∧ s.variant = .f2 then s.wr a (v % 256)
  else s.wr a v

/-- What a write must find accounted: the event channels' occurrences so far (R208). -/
def State.before (idx : Nat) (s : State) : State :=
  if 0x2004 ≤ baseIndex idx ∧ baseIndex idx ≤ 0x2006 then s.pwmTo (Fin.ofNat 4 (unitOf idx)) else s

/-- A write that is taken. -/
def State.takeWrite (src : Source) (r : ObjRow) (idx sub : Nat) (v : Int) (s : State) : State :=
  let a := idx * 0x100 + sub
  match r.acc with
  | .wo => s.writeWo src idx sub v
  | .w1c => s.wr a (((s.rdN a) &&& (65535 ^^^ (v.toNat % 65536)) : Nat) : Int)
  | .ro => s
  | .rw => if r.cls = .a then s.writeA idx sub v else ((s.before idx).store idx sub v).wrote idx sub (s.rd a) v

/-- The `OBJ_WR` packet of a write of an object that region C holds (R12, R17, R31). -/
def State.carryWrite (src : Source) (aw : Word) (vals : List Word) (s : State) : State :=
  if regionC (awAddr aw / 0x100) then s.carry (srcNum src) (pkt .objWr (wordsToBytes (aw :: vals))) else s

/-- One object write, applied or ignored (R151, R170). -/
def State.writeObj (src : Source) (aw : Word) (vals : List Word) (s : State) : State :=
  let reason := s.judge aw vals
  if reason ≠ 0 then s.ignored aw reason
  else
    let idx := awAddr aw / 0x100
    let sub := awAddr aw % 0x100
    match objRow idx sub, decodeValue (awType aw) vals with
    | some r, some v => (s.takeWrite src r idx sub v).carryWrite src aw vals
    | _, _ => s

/-- The write is a taken write of `OPEN_CMP` of loaf `n`. -/
def State.touchesOpen (s : State) (n : Fin 4) (aw : Word) (vals : List Word) : Bool :=
  decide (awAddr aw / 0x100 = 0x2003 + 0x100 * n.val) && s.judge aw vals == 0

/-- The `OPEN_CMP` writes of one command form one commit of a loaf that is OPEN (R191). -/
def State.commitOpen (touched : List (Fin 4)) (s : State) : State :=
  forAll touched (fun n x => if (x.loaf.get n).st = .open_ then x.commit n (x.openCmp3 n) else x) s

/-- Writes in payload order, with the loaves whose `OPEN_CMP` they took. -/
def State.writeFold (src : Source) : List (Word × List Word) → State × List (Fin 4) → State × List (Fin 4)
  | [], r => r
  | w :: ws, r =>
    let t := r.2 ++ s4 r.1 w
    State.writeFold src ws (r.1.writeObj src w.1 w.2, t)
where
  s4 (s : State) (w : Word × List Word) : List (Fin 4) := s.loaves.filter (fun n => s.touchesOpen n w.1 w.2)

/-- The writes of one command, in payload order (R151), with the commit they form. -/
def State.writeAll (src : Source) (ws : List (Word × List Word)) (s : State) : State :=
  let r := State.writeFold src ws (s, [])
  r.1.commitOpen r.2.dedup

/-! ## BLOB writes (R153) -/

/-- The rules a written `LIST_DEF` keeps, R455. -/
def listDefOk (b : List Byte) : Bool :=
  decide (b.length % 12 = 0 ∧ 12 ≤ b.length ∧ b.length ≤ 192)
    && (ppEntries b).all (fun e => decide (1 ≤ leAt e 1 1 ∧ leAt e 1 1 ≤ 2) && decide (leAt e 0 1 ≤ 9))

/-- Why the staging copy of a BLOB is not taken; 0 where it is. -/
def State.judgeBlob (s : State) (aw : Word) (b : List Byte) : Nat :=
  let idx := awAddr aw / 0x100
  let sub := awAddr aw % 0x100
  if sub = 0 then (if entryCount idx = 0 ∨ awType aw ≠ 1 ∨ awReserved aw then 1 else if s.absent idx sub then 5 else 2)
  else match objRow idx sub with
    | none => 1
    | some r =>
      if r.ty ≠ .blob ∨ awType aw ≠ 8 ∨ awReserved aw then 1
      else if s.absent idx sub then 5
      else if readOnly r idx sub (awActive aw) then 2
      else if s.refusedState idx sub 0 then 6
      else if (if idx = 0x6000 then classTableOk b else listDefOk b) then 0 else 3

/-- Bytes 2 and 3 of every entry of a `LIST_DEF` are reserved and read 0 (R3, R455). -/
def listDefClean (b : List Byte) : List Byte := b.mapIdx (fun i x => if i % 12 = 2 ∨ i % 12 = 3 then 0 else x)

/-- The staging copy replaces the object as one write, applied or ignored (R153). -/
def State.writeBlob (aw : Word) (b : List Byte) (s : State) : State :=
  let reason := s.judgeBlob aw b
  if reason ≠ 0 then s.ignored aw reason
  else s.setBlob (awAddr aw) (if awAddr aw = Obj.classTable then b else listDefClean b)

end Sys2Proof.Machine
end

