-- ==== Sys2Proof/Machine/Stream.lean ====
section
/-! DEFINITION. Streaming deliveries (R172 to R177, R417) and the logs (R363 to R366). -/

namespace Sys2Proof.Machine

/-! ## Deliveries -/

/-- One subscription changed. -/
def State.modSub (j : Nat) (f : Sub → Sub) (s : State) : State :=
  s.modCmd (fun c => { c with subs := c.subs.set j (f (c.subs.getD j {})) })
/-- Subscription `j`. -/
def State.sub (s : State) (j : Nat) : Sub := s.cmd.subs.getD j {}

/-- The connection a UDP subscription belongs to. -/
def Sub.conn (x : Sub) : Fin 4 := Fin.ofNat 4 (x.owner - 1)

/-- Words of items a delivery of a path holds after its four header words (R175). -/
def deliveryRoom (udp : Bool) : Nat := if udp then 346 else 59

/-- The words of the delivery a subscription has open, R174. Its first delivery carries sequence number 0 (DESIGN CHOICE: the rule
gives no first value, log entry 166). -/
def State.deliveryWords (s : State) (j : Nat) : List Word :=
  let x := s.sub j
  let len := if x.udp then 0 else 3 + x.items.length
  [BitVec.ofNat 32 ((0x8000 + j) * 65536 + x.nItems * 256 + len), BitVec.ofNat 32 x.seqNo,
   BitVec.ofNat 32 (x.first % 1000000000), BitVec.ofNat 32 (x.first / 1000000000)] ++ x.items

/-- Broadcasts port 2 took in the last second. -/
def State.recentBcast (s : State) : List Nat := s.net.bcastT.filter (fun t => decide (s.time.now < t + 200000000))

/-- The frame meets a full queue or the broadcast limit (R410). -/
def State.queueFull (s : State) (q : Nat) (bc : Bool) (f : EgressFrame) : Bool :=
  let l := s.net.egress.getD q []
  if q = 2 then decide (32 ≤ l.length) || (bc && decide (1000 ≤ s.recentBcast.length))
  else !f.high && decide (24576 < ((l.filter (fun x => !x.high)).map (fun x => x.len)).sum + f.len)

/-- The ports that are up. -/
def State.upPorts (s : State) : List Nat := (List.range 2).filter (fun p => s.net.up.getD p false)

/-- Where a datagram for an address is sent on the link: to itself on the subnet, to the gateway off it; unreachable where there is
none (R413). -/
def State.nextHop (s : State) (ip : Nat) : Option Nat :=
  if ip &&& s.net.mask = s.net.ipNow &&& s.net.mask then some ip else if s.net.gw = 0 then none else some s.net.gw

/-- The external ports a datagram for an address leaves by: the one its next hop's MAC address was learned on, else every one that is
up (R409); none for an unreachable one (R413). -/
def State.portsTo (s : State) (ip : Nat) : List Nat :=
  match s.nextHop ip with
  | none => []
  | some hop =>
    let mac := (s.net.arp.find? (fun e => e.1 == hop)).map (fun e => e.2.1)
    match mac.bind (fun m => (s.net.macs.find? (fun e => e.1 == m)).map (fun e => e.2.1)) with
    | some p => [p]
    | none => s.upPorts

/-- The kind of PTP message a frame of the endpoint carries, with its header. -/
def OwnFrame.ptp : OwnFrame → Option (PtpKind × PtpHead)
  | .delayReq h _ => some (.delayReq, h)
  | .pdelayReq h _ | .pdelayResp h _ _ | .pdelayFollow h _ _ => some (.pdelay, h)
  | _ => none
/-- Bytes of a frame of the endpoint, headers and FCS included, at least 64; the TLS record of a response adds 22 to its words. -/
def OwnFrame.len (f : OwnFrame) : Nat :=
  max 64 (match f with
    | .echoReply _ p => 18 + 20 + 8 + p.length
    | .response _ _ ws => 18 + 20 + 20 + 22 + 4 * ws.length
    | .datagram d => 18 + 20 + 8 + d.bytes.length
    | _ => match f.ptp with
      | some (k, h) => 18 + (if h.udp then 28 else 0) + (if k = .pdelay then 54 else 44)
      | none => 64)
/-- A frame of the endpoint as it waits: PTP messages in the high queue (R410). -/
def OwnFrame.frame (f : OwnFrame) : EgressFrame :=
  let corr := match f with
    | .delayReq _ c | .pdelayReq _ c | .pdelayFollow _ _ c => c
    | _ => 0
  { len := f.len, high := f.ptp.isSome, corr := corr, ptp := f.ptp.map (fun k => k.1), stampIn := 0, ingress := 2, twoStep := false,
    ptpId := 0, ptpSeq := (f.ptp.map (fun k => k.2.seq)).getD 0, udp := f.ptp.any (fun k => k.2.udp), noSum := false, own := some f }

/-- A frame enters an egress queue or is dropped (R410). -/
def State.queuePut (q : Nat) (bc : Bool) (f : EgressFrame) (s : State) : State :=
  if s.queueFull q bc f then s.bump (Obj.ethDrops q)
  else s.modNet (fun n => { n with
    egress := n.egress.set q (n.egress.getD q [] ++ [f])
    bcastT := if q = 2 ∧ bc then s.time.now :: s.recentBcast else n.bcastT })

/-- The responses that wait in TCP enter the queue, in order (R415). -/
def State.tcpPush (s : State) : State :=
  forAll s.net.tcpOut (fun f x => match f with
    | .response ip _ _ => forAll (x.portsTo ip) (fun p y => y.queuePut p false f.frame) x
    | _ => x) (s.modNet (fun n => { n with tcpOut := [] }))

/-- A frame enters an egress queue behind what waits in TCP (R410). -/
def State.egressPut (q : Nat) (bc : Bool) (f : EgressFrame) (s : State) : State := s.tcpPush.queuePut q bc f

/-- A frame of the endpoint leaves for some ports. -/
def State.ownSend (ports : List Nat) (f : OwnFrame) (s : State) : State :=
  forAll ports (fun p y => y.egressPut p false f.frame) s

/-- The nonce of a stream datagram: the IV with its last 8 bytes XORed with the counter, most significant first (R417). -/
def streamNonce (iv : List Byte) (n : Nat) : List Byte :=
  slice iv 0 4 ++ List.zipWith (fun a b => a ^^^ b) (slice iv 4 8) (beBytes 8 n)

/-- The UDP datagram that carries a delivery on a connection, R417. -/
def State.datagram (s : State) (c : Fin 4) (ws : List Word) : Datagram :=
  let n := s.rdN (Obj.connDgrams c.val)
  let head := leBytes 2 1 ++ leBytes 1 c.val ++ leBytes 1 0 ++ leBytes 8 n
  let k := s.net.conns.get c
  { conn := c.val, srcIp := s.net.ipNow, srcPort := s.net.streamPort, dstIp := k.peer, dstPort := s.net.streamPort,
    bytes := head ++ gcmSeal (slice k.keys 0 16) (streamNonce (slice k.keys 16 12) n) head (wordsToBytes ws) }

/-- Deliveries of a path in the last second. -/
def State.recentRate (s : State) (l : List Nat) : List Nat := l.filter (fun t => decide (s.time.now < t + 200000000))

/-- A delivery is dropped, R176; one that meets the full MB2 queue is counted in `STREAM_DROP` as well (R139). -/
def State.dropDelivery (j : Nat) (mb2Full : Bool) (s : State) : State :=
  let s1 := s.bump (Obj.subDropped j)
  if mb2Full then
    (s1.modHost (fun h => { h with streamDrop := min (h.streamDrop + 1) 0xFFFFFFFF })).setIrq 14
  else s1

/-- A delivery leaves on its path, or is dropped (R175, R176). -/
def State.sendDelivery (j : Nat) (ws : List Word) (s : State) : State :=
  let x := s.sub j
  if x.udp then
    let recent := s.recentRate s.cmd.rateUdp
    let d := s.datagram x.conn ws
    let ports := s.portsTo d.dstIp
    if 20000 ≤ recent.length then s.dropDelivery j false
    else if !ports.isEmpty && ports.all (fun p => s.tcpPush.queueFull p false (OwnFrame.datagram d).frame) then s.dropDelivery j false
    else
      let s1 := s.ownSend ports (.datagram d)
      ((s1.modCmd (fun c => { c with
        udpSent := d :: c.udpSent, rateUdp := s.time.now :: recent })).wr (Obj.connDgrams x.conn.val)
        (s.rd (Obj.connDgrams x.conn.val) + 1)).bump (Obj.subSent j)
  else
    let recent := s.recentRate s.cmd.rateMb2
    if 8 ≤ s.cmd.mb2Queue.length then s.dropDelivery j true
    else if 2000 ≤ recent.length then s.dropDelivery j false
    else s.modCmd (fun c => { c with mb2Queue := c.mb2Queue ++ [ws], rateMb2 := s.time.now :: recent })

/-- The open delivery of a subscription is closed and formed (R174, R175). -/
def State.closeDelivery (j : Nat) (s : State) : State :=
  if (s.sub j).nItems = 0 then s
  else
    let ws := s.deliveryWords j
    (s.modSub j (fun x => { x with seqNo := (x.seqNo + 1) % 2 ^ 32, items := [], nItems := 0 })).sendDelivery j ws

/-- An item of a station time joins the open delivery; where it would not fit, the delivery is closed first (R174, R175). -/
def State.streamItem (j ns : Nat) (ws : List Word) (s : State) : State :=
  let x := s.sub j
  let s1 := if deliveryRoom x.udp < x.items.length + ws.length then s.closeDelivery j else s
  s1.modSub j (fun x => { x with items := x.items ++ ws, nItems := x.nItems + 1,
                                 first := if x.nItems = 0 then ns else x.first
                                 firstT := if x.nItems = 0 then s.time.now else x.firstT })

/-- A frame record reaches its subscriptions, decimated per loaf (R172, R174). Its station time is that of the instant it joins the
delivery (DESIGN CHOICE: a record carries the local timebase of its boundary and no station time, log entry 182). -/
def State.streamRecord (n : Fin 4) (bytes : List Byte) (s : State) : State :=
  forAll (List.range 8) (fun j x =>
    let u := x.sub j
    if u.active && u.source == 0 && u.mask.testBit n.val then
      let k := u.recCount.getD n.val 0 + 1
      let rc := (List.range 4).map (fun m => if m = n.val then k % u.decim else u.recCount.getD m 0)
      let y := x.modSub j (fun z => { z with recCount := rc })
      if k % u.decim = 0 then y.streamItem j y.stationNs (bytesToWords bytes) else y
    else x) s

/-- A log entry reaches its subscriptions, with the station time of its latch (R174, R364). -/
def State.streamLog (e : LogEntry) (s : State) : State :=
  forAll (List.range 8) (fun j x =>
    if (x.sub j).active && (x.sub j).source == 2 then x.streamItem j e.timeNs (bytesToWords e.bytes) else x) s

/-- A subscription ends: its rate is free again (R173, R177). -/
def State.endSub (j : Nat) (s : State) : State := s.modSub j (fun _ => {})

/-- Every subscription of an owner ends (R177): 0 the host port's session, 1 to 4 the connections. -/
def State.endSubs (owner : Nat) (s : State) : State :=
  forAll (List.range 8) (fun j x => if (x.sub j).active && (x.sub j).owner == owner then x.endSub j else x) s

/-! ## The logs -/

/-- An event logged, R363 to R365: its station time, the next sequence number, the volatile ring, the queue of the
non-volatile log, `FAULT_NEW`, and the subscriptions. -/
def State.logEvent (e : Event) (s : State) : State :=
  let back : Rat := 5 * ((s.time.now - e.stamp : Nat) : Rat) * (1 - s.time.lv0.rate / 1000000000)
  let entry : LogEntry := { timeNs := (s.time.station - back).floor.toNat, seq := (s.flt.seq + 1) % 2 ^ 32, ev := e }
  let s1 := s.modFlt (fun f => { f with seq := (f.seq + 1) % 2 ^ 32, sinceReset := f.sinceReset + 1,
                                        vlog := (entry :: f.vlog).take 1024 })
  let s2 :=
    if e.cls.num < s.rdN Obj.logNvMin then s1
    else if s.flt.nvQ.length < 32 then s1.modFlt (fun f => { f with nvQ := f.nvQ ++ [entry] })
    else s1.bump Obj.logNvLost
  (if e.cls = .c0 ∨ e.quiet ∨ 2 ≤ e.event then s2 else s2.setIrq 8).streamLog entry

/-- The queue of the non-volatile log written to its ring (R363). -/
def State.nvWrite (s : State) : State :=
  s.modFlt (fun f => { f with nvlog := (f.nvQ.reverse ++ f.nvlog).take 2048, nvQ := [] })
/-- The queue of the audit log written to its ring (R498). -/
def State.auditWrite (s : State) : State :=
  s.modSec (fun x => { x with audit := (x.auditQ ++ x.audit).take 4096, auditQ := [] })
/-- Every event still on its way logged, and both queues written (R65, R107). -/
def State.flushLogs (s : State) : State :=
  ((forAll s.flt.evtQ State.logEvent (s.modFlt (fun f => { f with evtQ := [] }))).nvWrite).auditWrite

end Sys2Proof.Machine
end

