-- ==== Sys2Proof/Machine/Frame.lean ====
section
/-! DEFINITION. A control frame: its boundary (R186 to R190, R209), its close (R234 to R236) and the Oven's computation of
it (R283 to R288, R313 to R316). -/

namespace Sys2Proof.Machine

/-! ## The boundary -/

/-- The latest of the commits a reload at `t` takes: those landed 20 cycles before it or earlier (R188). -/
def takenCommit (l : List Commit) (t : Nat) : Option Commit := (l.filter (fun c => decide (c.landed + 20 ≤ t))).getLast?

/-- Active compare words written. -/
def State.setActive (n : Fin 4) (c : Int × Int × Int) (s : State) : State :=
  s.wrs [(Obj.activeCmp n.val 0, c.1), (Obj.activeCmp n.val 1, c.2.1), (Obj.activeCmp n.val 2, c.2.2)]

/-- The commits of a reload at `t`: the taken one becomes active, those of the lock window stay (R185, R188). -/
def State.reloadCommits (n : Fin 4) (t : Nat) (s : State) : State :=
  let l := s.loaf.get n
  let s1 := s.modLoaf n (fun l => { l with commits := l.commits.filter (fun c => !decide (c.landed + 20 ≤ t)) })
  match takenCommit l.commits t with
  | some c => s1.setActive n c.cmp
  | none => s1

/-- `PERIOD` and `DEAD_TIME` load at a reload on a period start, `FRAME_LEN` at every frame boundary (R185, R186). -/
def State.reloadTiming (n : Fin 4) (atStart : Bool) (s : State) : State :=
  s.modLoaf n (fun l => { l with
    actPeriod := if atStart then s.rdN (Obj.period n.val) else l.actPeriod
    actDead := if atStart then s.rdN (Obj.deadTime n.val) else l.actDead
    actLen := s.rdN (Obj.frameLen n.val) })

/-- The Crust pattern of a loaf as the frame refreshes it: OFF under a latched trip with target OFF, otherwise the loaf
safe state (R206). -/
def State.crustRefresh (n : Fin 4) (s : State) : State :=
  let asc := !s.targetOf n (s.rdN (Obj.tripLatch n.val)) false && decide (s.safePattern n = .asc)
  s.modLoaf n (fun l => { l with crustAsc := asc })

/-- The accumulators of a loaf move to the frame that ended (R233, R234). -/
def State.splitAcc (n : Fin 4) (s : State) : State :=
  let mine := fun (a : Acc) => s.accLoaf a.conv a.input == some n
  { s with acc := s.acc.filter (fun a => !mine a), accOld := s.accOld.filter (fun a => !mine a) ++ s.acc.filter mine }

/-- The group boundary where the loaf is its group's timing loaf (R281, R282); a handover releases there (R473). -/
def State.groupAt (n : Fin 4) (s : State) : State :=
  match s.groupOf n with
  | none => s
  | some g =>
    if s.timingLoaf g = some n then
      let s1 := forAll (s.bound g) (fun m x => x.modLoaf m (fun l => { l with done := false })) s
      let s2 := s1.groupBoundary g
      let s3 := if s2.pair.releaseDue && decide (s2.prGroup = g) then
          (s2.modPair (fun p => { p with releaseDue := false, handT := some s2.time.now })).releaseRole true else s2
      s3.drew
    else s

/-- What has been latched of a group by now. -/
def State.cutOf (s : State) (g : Fin 4) : GroupCut :=
  let x := s.grp.get g
  { startReq := x.startReq, stopReq := x.stopReq, target := x.nextTarget, loaves := units4.map (fun m => (s.loaf.get m).st) }

/-- The group as it had been latched by a cut. -/
def State.asCut (g : Fin 4) (c : GroupCut) (s : State) : State :=
  forAll (s.bound g) (fun m x => x.modLoaf m (fun l => { l with st := c.loaves.getD m.val l.st }))
    (s.modGrp g (fun x => { x with startReq := c.startReq, stopReq := c.stopReq, nextTarget := c.target, cut := none }))

/-- What was latched after a cut, up to the state `r`, stands until the next boundary. -/
def State.afterCut (g : Fin 4) (c : GroupCut) (r s : State) : State :=
  let y := r.grp.get g
  forAll (s.bound g) (fun m x =>
    if (r.loaf.get m).st = c.loaves.getD m.val (r.loaf.get m).st then x
    else x.modLoaf m (fun l => { l with st := (r.loaf.get m).st }))
    (s.modGrp g (fun x => { x with
      startReq := x.startReq || (y.startReq && !c.startReq), stopReq := x.stopReq || (y.stopReq && !c.stopReq)
      nextTarget := if y.nextTarget = c.target then x.nextTarget else y.nextTarget }))

/-- A loaf's boundary hands over the feedback it reads and runs its group's part; that of a running group waits for a sample still to
come, with what has been latched by the boundary (R270, R282). -/
def State.handover (n : Fin 4) (t : Nat) (s : State) : State :=
  let s1 := s.fbHandoff n t
  match s1.groupOf n with
  | some g =>
    if s1.fbWaits n && (s1.grp.get g).st.active then
      (s1.modLoaf n (fun l => { l with grpDue := true })).modGrp g (fun x => { x with cut := some (s1.cutOf g) })
    else s1.groupAt n
  | none => s1

/-- A group part that waited runs once every sample of the boundary has come or failed, on what had been latched by the boundary. -/
def State.groupResume (n : Fin 4) (s : State) : State :=
  if (s.loaf.get n).grpDue && (s.loaf.get n).running && !s.fbWaits n then
    let s1 := s.modLoaf n (fun l => { l with grpDue := false })
    match s1.groupOf n with
    | some g =>
      match (s1.grp.get g).cut with
      | some c => ((s1.asCut g c).groupAt n).afterCut g c s1
      | none => s1.groupAt n
    | none => s1
  else s

/-- A sample of a channel has come or failed: a boundary that awaited it completes (R270). -/
def State.sampleCame (c : Fin 4) (s : State) : State :=
  (s.fbResume c).groupResume (Fin.ofNat 4 (s.rdN (Obj.fbLoaf c.val)))

/-- The tick in which a burst of `len` samples at 80 MS/s begins that is centred, on the counter's way up, between compare words `hi`
and `lo` in eighths of a tick (R344); no burst begins before its period. -/
def State.reconStart (s : State) (n : Fin 4) (len hi lo : Nat) : Nat :=
  let l := s.loaf.get n
  max l.lastStart ((8 * l.baseT + 8 * l.actPeriod - (hi + lo) / 2 - 10 * len) / 8)

/-- The bursts of a loaf on reconstruction in the first period of a frame (R344): placed with its pair, those of the last
frame not begun being dropped. -/
def State.reconAsk (n : Fin 4) (s : State) : State :=
  if !(s.reconRuns n && decide ((s.loaf.get n).st = .closed)) then s
  else match s.findRole n 8 with
    | none => s
    | some (k, _) =>
      let v := fun p => s.activeCmp n p
      let top := (List.range 3).foldl (fun b p => if v b < v p then p else b) 0
      let low := (List.range 3).foldl (fun b p => if p ≠ top ∧ (b = top ∨ v p ≤ v b) then p else b) top
      let mid := 3 - top - low
      let room := 8 * s.rdN (Obj.reconMin n.val)
      let at_ := s.reconStart n (s.rdN (Obj.pairBurstLen (evenOf k)))
      let a := if room ≤ v top - v mid then [(at_ (v top) (v mid), n.val, top, (1 : Int))] else []
      let b := if room ≤ v mid - v low then [(at_ (v mid) (v low), n.val, low, (-1 : Int))] else []
      (s.modConvN (evenOf k) (fun c => { c with reconQ := c.reconQ.filter (fun q => decide (q.2.1 ≠ n.val)) ++ a ++ b })).modOven n
        (fun o => { o with reconThird := mid })

/-- The period that begins at `t` is laid out: a correction of R434 makes the counter start at 1 or hold 0 for two ticks. -/
def State.layPeriod (n : Fin 4) (t : Nat) (corr : Int) (s : State) : State :=
  let base := ((t : Int) + corr).toNat
  s.modLoaf n (fun l => { l with
    lastStart := t, baseT := base, nextStart := base + s.periodTicks n, peakDue := some (base + s.peakTicks n) })

/-- A period begins: gaps end or go on, cleared latches are let go, the period start is an occurrence (R201, R205, R208). -/
def State.periodBegin (n : Fin 4) (s : State) : State :=
  let s1 := s.modLoaf n (fun l => { l with hold := 0, gapCounted := false, gap := false })
  let s2 := if s1.cycleOn n then s1.gapBegin n else s1
  s2.occur n 1 1

/-- The loaf whose epoch loaf `n` uses (R323, R433): a running one's that its counter start or latest boundary took over, a waiting
one's by its binding. -/
def State.epochLoaf (s : State) (n : Fin 4) : Fin 4 :=
  let l := s.loaf.get n
  (if l.running then l.epoch else s.epochHead n).getD n

/-- `d` of R434: ticks from the latest start tick less `PHASE_OFS`, modulo the period length, folded. -/
def State.epochD (s : State) (n : Fin 4) (t : Nat) : Int :=
  let len : Int := s.periodTicks n
  let x := ((t : Int) - (s.time.startTick.get (s.epochLoaf n) : Int) - s.rd (Obj.phaseOfs n.val)) % len
  if len < 2 * x then x - len else x

/-- The epoch interval is a multiple of the period's length of 5 ns ticks (R434). -/
def State.epochFits (s : State) (n : Fin 4) : Bool :=
  decide (s.rdN (Obj.epochInterval (s.epochLoaf n).val) % (5 * s.periodTicks n) = 0)

/-- The correction of the period that begins with deviation `d`: a tick shorter, longer or none (R434). -/
def State.epochCorr (s : State) (n : Fin 4) (d : Int) : Int := if !s.epochFits n then 0 else if 0 < d then -1 else if d < 0 then 1 else 0

/-- The epoch unit at a period start: `EPOCH_DEV` and bits 2 and 3 of `TU_STAT` (R434). -/
def State.epochStep (n : Fin 4) (t : Nat) (s : State) : State :=
  let d := s.epochD n t
  let run := if d.natAbs ≤ 1 then min (s.time.alignRun.get n + 1) 16 else 0
  let s1 := s.modTime (fun x => { x with alignRun := x.alignRun.set n run })
  ((s1.wr (Obj.epochDev n.val) d).wrBit (Obj.tuStat n.val) 2 (!s.epochFits n)).wrBit (Obj.tuStat n.val) 3 (decide (run = 16))

/-- The counter starts (R181, R186): frame 0 begins, the first reload is taken, no record, packet or late frame; the
epoch unit acts on its first period start (R434). The level before
the first period counts as low (DESIGN CHOICE: R183 and R208 name none, log entry 158). -/
def State.counterStart (n : Fin 4) (t : Nat) (s00 : State) : State :=
  let s := s00.pwmTo n
  let mine := fun (a : Acc) => s.accLoaf a.conv a.input == some n
  let s1 := { s with acc := s.acc.filter (fun a => !mine a), accOld := s.accOld.filter (fun a => !mine a) }
  let s2 := (s1.modLoaf n (fun l => { l with
    running := true, periods := 1, startT := t, frameT := t, boundaryT := t, evtCount := [], evtFired := 0, evtOven := 0, evtEnd := 0
    high := 0, closing := false, grpDue := false, due := false, done := false, wasLate := false
    injBase := (List.range 4).map (fun k => (s.convAt k).injDone), injOut := [], burstDone := [], burstOut := []
    epoch := s.epochHead n })).modOven n
      (fun o => { o with udc := none, thetaOk := false, uHist := [] })
  let s3 := (((s2.wr (Obj.frameCount n.val) 0).reloadCommits n t).reloadTiming n true).crustRefresh n
  let s4 := if (takenCommit (s.loaf.get n).commits t).isSome then
      (s3.wr (Obj.lateRun n.val) 0).modLoaf n (fun l => { l with lateSaid := false }) else s3
  let d := s4.epochD n t
  (((((s4.layPeriod n t (s4.epochCorr n d)).epochStep n t).periodBegin n).reconAsk n).dropHeld n t).handover n t

/-- The `EVENT` packet of a frame that ended (R209). -/
def State.eventPacket (n : Fin 4) (s : State) : State :=
  let fired := (s.loaf.get n).evtFired
  let bits := (List.range 3).foldl (fun v x => putBit v x (fired.testBit x && s.rdBit (Obj.evtTgt n.val x) 2)) 0
  s.enqueue .c n.val (pkt .event (leBytes 1 bits ++ leBytes 1 n.val ++ leBytes 2 (s.rdN (Obj.frameCount n.val) % 65536)))

/-- The late-frame count of a boundary (R189, R190). -/
def State.lateCheck (n : Fin 4) (took : Bool) (s : State) : State :=
  if took then (s.wr (Obj.lateRun n.val) 0).modLoaf n (fun l => { l with lateSaid := false, wasLate := false })
  else if (s.loaf.get n).st = .closed then
    let s1 := ((s.bump (Obj.lateCount n.val)).bumpTo (Obj.lateRun n.val) 255).modLoaf n (fun l => { l with wasLate := true })
    if s1.rd (Obj.lateRun n.val) = 3 ∧ !(s.loaf.get n).lateSaid then
      (s1.modLoaf n (fun l => { l with lateSaid := true })).latch 0x4001 (mkInst n.val 0) 0
    else s1
  else s.modLoaf n (fun l => { l with wasLate := false })

/-- A peak reload falls at `t` (R187). -/
def State.atPeak (s : State) (n : Fin 4) (t : Nat) : Bool :=
  let l := s.loaf.get n
  decide (s.rd (Obj.peakReload n.val) = 1) && decide (l.peakDue = some t) && decide (l.boundaryT < t)

/-- The period start that ends the frame falls at `t` and has not been taken (R186). -/
def State.atFrameEnd (s : State) (n : Fin 4) (t : Nat) : Bool :=
  let l := s.loaf.get n
  decide (l.actLen ≤ l.periods) && decide (l.nextStart = t)

/-- A frame boundary is due: the frame's periods have passed, or a peak reload (R186, R187). -/
def State.boundaryDue (s : State) (n : Fin 4) (t : Nat) : Bool :=
  (s.loaf.get n).running && (s.atPeak n t || s.atFrameEnd n t)

/-- The boundary notes what the ended frame hands over beside its means: per converter serving the loaf the injected sequences
completed in it with the last one's results and instants, and the `PAIR_BUF` of a burst the loaf started (R236). -/
def State.frameExtras (n : Fin 4) (s : State) : State :=
  let base := (s.loaf.get n).injBase
  let out := ((List.range 4).filter (fun k => s.convServes k n)).map (fun k =>
    let c := s.convAt k
    let m := c.injDone - base.getD k 0
    (k, m, if m = 0 then [] else c.injLast))
  s.modLoaf n (fun l => { l with
    injOut := out, injBase := (List.range 4).map (fun k => (s.convAt k).injDone), burstOut := l.burstDone, burstDone := [] })

/-- What the Oven notes of the frame that ended: the phase its bursts left to the other two (R344), and the duties it ran with. -/
def State.ovenBoundary (n : Fin 4) (s : State) : State :=
  let d := fun p => (s.activeCmp n p : Rat) / (8 * (s.loaf.get n).actPeriod : Nat)
  s.modOven n (fun o => { o with reconPrev := o.reconThird, runDuty := (d 0, d 1, d 2) })

/-- A frame boundary after the counter start (R186). -/
def State.boundary (n : Fin 4) (t : Nat) (s0 : State) : State :=
  let s := s0.pwmTo n
  let peak := s.atPeak n t
  let took := (takenCommit (s.loaf.get n).commits t).isSome
  let s1 := (s.eventPacket n).ovenBoundary n
  let s2 := s1.modLoaf n (fun l => { l with
    periods := if peak then l.periods else l.periods - l.actLen, frameT := l.boundaryT, boundaryT := t, closing := true, due := false
    countEnd := s.rdN (Obj.frameCount n.val), evtEnd := l.evtOven, evtFired := 0, evtOven := 0
    epoch := (s.epochHead n).orElse (fun _ => l.epoch) })
  let s3 := (((s2.bumpWrap (Obj.frameCount n.val)).reloadCommits n t).reloadTiming n (!peak)).lateCheck n took
  (((s3.splitAcc n).frameExtras n).crustRefresh n).handover n t

/-! ## The close (R234 to R236) -/

/-- One input's part of a close: its mean, and whether it marks the frame (R235). -/
structure InputClose where
  conv : Nat
  role : Nat
  value : Rat
  valid : Bool
  marks : Bool
  count : Nat
deriving DecidableEq, Repr

/-- Every input with a role for the loaf: converter and input. -/
def State.inputsOf (s : State) (n : Fin 4) : List (Nat × Nat) :=
  ((List.range 4).flatMap (fun k => (List.range 9).map (fun i => (k, i)))).filter
    (fun p => s.has p.1 && decide (s.role p.1 p.2 % 16 ≠ 0 ∧ s.role p.1 p.2 / 16 % 4 = n.val))

/-- The accumulator of an input in the frame that ended. -/
def State.oldAcc (s : State) (k i : Nat) : Acc :=
  (s.accOld.find? (fun a => a.conv == k && a.input == i)).getD { conv := k, input := i, sum := 0, count := 0, bad := false }
/-- The mean of an accumulator (R234). -/
def Acc.mean (a : Acc) : Int := roundAway ((a.sum : Rat) / (a.count : Rat))

/-- A sample of an input held before an instant has not arrived (R234, R235). -/
def State.awaits (s : State) (t : Nat) (p : Nat × Nat) : Bool :=
  (s.convAt p.1).held.any (fun x => decide (x.1 = p.2 ∧ x.2 < t))

/-- The frame that ended may close: nothing held before its boundary is awaited on an input of role 1 to 8, or 300 ns have passed
(R234). -/
def State.closeDue (s : State) (n : Fin 4) (t : Nat) : Bool :=
  let b := (s.loaf.get n).boundaryT
  (s.loaf.get n).closing && (decide (b + 60 ≤ t)
    || !(s.inputsOf n).any (fun p => decide (s.role p.1 p.2 % 16 ≤ 8) && s.awaits b p))

/-- What an input gives its loaf's close; `late` with a sample before the boundary awaited (R235). -/
def State.closeInput (s : State) (late : Bool) (k i : Nat) : InputClose :=
  let a := s.oldAcc k i
  let r := s.role k i % 16
  let lost := s.owLatched k i
  { conv := k, role := r, value := if a.count = 0 then 0 else (a.mean : Rat) * s.rdR (Obj.chFs k i) / 32768
    valid := decide (a.count ≠ 0) && !lost
    marks := decide (1 ≤ r ∧ r ≤ 8) && !lost && (late || a.bad || decide (a.count = 0)), count := a.count }

/-- Serial transfers of the frame that have not completed count as failed at its close, those not begun are dropped (R269), and the
channels' boundary completes. -/
def State.serialLate (n : Fin 4) (s : State) : State :=
  forAll units4 (fun c x =>
    let f := x.fb.get c
    let mode := x.rd (Obj.fbMode c.val)
    let b := (x.loaf.get n).boundaryT
    if (mode = 3 ∨ mode = 4) ∧ x.rdN (Obj.fbLoaf c.val) = n.val then
      let x1 := if f.serBusy.isSome && !f.serLate && decide (f.serFor ≤ b) then
          (x.modFb c (fun f => { f with serLate := true })).serFail c
        else x
      let x2 := forAll (f.serQ.filter (fun q => decide (q ≤ b))) (fun _ y => y.serFail c) x1
      (x2.modFb c (fun f => { f with serQ := f.serQ.filter (fun q => decide (b < q)) })).sampleCame c
    else x) s

/-- A boundary of loaf `n` whose pair has not come by the time the frame is computed completes without it (R270). -/
def State.scMissed (n : Fin 4) (s : State) : State :=
  (forAll units4 (fun c x =>
    match (x.fb.get c).mergeDue with
    | some b => if x.rdN (Obj.fbLoaf c.val) = n.val then x.fbFinish c b else x
    | none => x) s).groupResume n

/-- The frame that ended is closed and handed to the Oven (R234 to R236). -/
def State.closeFrame (n : Fin 4) (s : State) : State :=
  let b := (s.loaf.get n).boundaryT
  let ins := s.inputsOf n
  let cs := ins.map (fun p => s.closeInput (s.awaits b p) p.1 p.2)
  let s1 := forAll ins (fun p x =>
    let a := s.oldAcc p.1 p.2
    if a.count = 0 then x else x.wr (Obj.chMean p.1 p.2) a.mean) s
  let marked := (List.range 4).filter (fun k => cs.any (fun c => decide (c.conv = k) && c.marks))
  let s2 := forAll marked (fun k x => x.bump (Obj.incomplete k)) s1
  let h : Handoff := {
    incomplete := cs.any (fun c => c.marks)
    means := cs.map (fun c => (c.role, c.value, c.valid))
    counts := cs.map (fun c => (c.role, c.count))
    inj := (s.loaf.get n).injOut
    pairBuf := (s.loaf.get n).burstOut
    marked := marked }
  let s3 := s2.setHand n h
  let s4 := s3.modLoaf n (fun l => { l with closing := false, due := true })
  let s5 := if s.auxLoafN = n then forAll (List.range 8) (State.auxMean s.accOld) s4 else s4
  ((s5.setAccOld (s5.accOld.filter (fun a => !(s.accLoaf a.conv a.input == some n)))).dropHeld n b).serialLate n

/-- The injected sequences of a frame on the converter of the loaf's U current: how many, and the first result of the last. -/
def State.injOfU (s : State) (n : Fin 4) : Nat × Int :=
  match s.findRole n 1 with
  | none => (0, 0)
  | some p => match (s.hand.get n).inj.find? (fun x => x.1 == p.1) with
    | some x => (x.2.1, if x.2.1 = 0 then s.rd (Obj.injResult p.1 0) else (x.2.2.getD 0 (0, 0)).1)
    | none => (0, 0)
/-- The samples of its U current in the frame. -/
def State.samplesOfU (s : State) (n : Fin 4) : Nat :=
  (((s.hand.get n).counts.find? (fun x => x.1 == 1)).map (fun x => x.2)).getD 0

/-! ## The computation (R283 to R288) -/

/-- What the computation of a frame has found, for the record. -/
structure FrameOut where
  loop : Loop
  theta : Nat
  thetaP : Nat
  i3 : Rat × Rat × Rat
  udc : Rat
  incomplete : Bool
  held : Bool
  udcHeld : Bool
deriving DecidableEq, Repr

/-- The third phase of a reconstruction taken from the other two (R344). -/
def State.reconThirds (n : Fin 4) (s : State) : State :=
  s.modOven n (fun o =>
    if o.reconI.length = 3 then
      let a := (o.reconPrev + 1) % 3
      let b := (o.reconPrev + 2) % 3
      { o with reconI := o.reconI.set o.reconPrev (-(o.reconI.getD a 0 + o.reconI.getD b 0))
               reconAge := o.reconAge.set o.reconPrev (max (o.reconAge.getD a 0) (o.reconAge.getD b 0)) }
    else o)

/-- A frame of a loaf on reconstruction whose values have grown too old is incomplete, and counts for the converter of its role-8
input (R235, R345). -/
def State.reconMark (n : Fin 4) (s : State) : State :=
  if s.reconRuns n && decide ((s.loaf.get n).st = .closed) && !s.reconFresh n then
    let h := s.hand.get n
    let s1 := s.setHand n { h with incomplete := true }
    match s.findRole n 8 with
    | some (k, _) => if h.marked.contains k then s1 else s1.bump (Obj.incomplete k)
    | none => s1
  else s

/-- The choice of a loaf in AUTO, refreshed at every frame (R196): its electrical speed in revolutions per second. -/
def State.autoChoice (n : Fin 4) (we : Rat) (s : State) : State :=
  let valid := match s.groupOf n with
    | some g => s.onObserver g || (match s.posFb g with
      | some c => ((s.fb.get c).latch.get n).spdOk
      | none => false)
    | none => false
  let hi := q16 (s.rdR (Obj.autoSpeed n.val))
  let hyst := q16 (s.rdR (Obj.autoHyst n.val))
  if !valid || decide (s.rd (Obj.safeState n.val) ≠ 2) then s
  else if hi < absR we then s.modLoaf n (fun l => { l with autoAsc := true })
  else if absR we < hi - hyst then s.modLoaf n (fun l => { l with autoAsc := false })
  else s

/-- The loop of a frame and what it held (R283, R286, R287). -/
def State.frameLoop (s : State) (n : Fin 4) : FrameOut × Rat × Bool × Bool :=
  let a := s.loafAngle n s.freeNo
  let o := s.oven.get n
  let h := s.hand.get n
  let cur := s.stageCurrents n
  let udcNew := s.udcMean n
  let udc := match udcNew with
    | some u => some u
    | none => o.udc
  let inc := h.incomplete || cur.isNone
  let i3 := cur.getD o.lastI
  let t : Rat := (s.frameTicks n : Rat) / 200000000
  let l := s.loopRun n i3 (udc.getD 0) a.1 a.2.1
  ({ loop := l, theta := a.1, thetaP := angleAdd a.1 (-(a.2.1 * t / 2)), i3 := i3, udc := udc.getD 0
     incomplete := inc, held := inc || udc.isNone, udcHeld := udcNew.isNone }, a.2.1, a.2.2.1, a.2.2.2)

/-- A fraction shown in mA or mV (R285). -/
def shownBase (q base : Rat) : Int := shown32 (roundAway (q * base))

/-- What a frame writes of the Oven's context: every loaf its measured currents, a CLOSED one its loop as well. -/
def State.frameStore (n : Fin 4) (f : FrameOut) (fromPos : Bool) (s : State) : State :=
  let l := f.loop
  let closed := decide ((s.loaf.get n).st = .closed)
  let ib := s.rdR (Obj.iBase n.val)
  let vb := s.rdR (Obj.vBase n.val)
  let run := closed && !f.held
  let s1 := s.modOven n (fun o => { o with
    id := l.id, iq := l.iq, lastI := f.i3, theta := f.theta, thetaOk := o.thetaOk || fromPos
    thetaHold := if fromPos then f.theta else o.thetaHold
    udc := if f.udcHeld then o.udc else some f.udc
    xd := if run then l.xd else o.xd, xq := if run then l.xq else o.xq
    vd := if run then l.vd else if closed then o.vd else 0, vq := if run then l.vq else if closed then o.vq else 0
    duty := if run then l.duty else o.duty
    incRun := if closed && f.incomplete then o.incRun + 1 else 0, incSaid := o.incSaid && closed && f.incomplete
    udcRun := if closed && f.udcHeld then o.udcRun + 1 else 0
    vlimRun := if run && l.limited then o.vlimRun + 1 else 0
    reconAge := o.reconAge.map (fun a => a + 1) })
  let o := s1.oven.get n
  let s2 := s1.wrs [(Obj.idMeas n.val, shownBase l.id ib), (Obj.iqMeas n.val, shownBase l.iq ib),
    (Obj.vdOut n.val, shownBase o.vd vb), (Obj.vqOut n.val, shownBase o.vq vb), (Obj.udcMeas n.val, shownBase (ovenHold (f.udc / vb)) vb),
    (Obj.thetaE n.val, (f.theta : Int))]
  let s3 := if closed && f.held then s2.bump (Obj.heldFrames n.val) else s2
  if run && l.limited then s3.bump (Obj.vlimFrames n.val) else s3

/-- The commit of a CLOSED loaf: its duties, or the held compare words (R189, R283 stage 11). -/
def State.frameCommit (n : Fin 4) (f : FrameOut) (s : State) : State :=
  if (s.loaf.get n).st ≠ .closed then s
  else if f.held then s.commit n (s.loaf.get n).shadow
  else
    let p := s.rd (Obj.period n.val)
    let d := f.loop.duty
    s.commit n (dutyWord d.1 p, dutyWord d.2.1 p, dutyWord d.2.2 p)

/-- The faults of a frame's own runs (R286, R287, R317). -/
def State.frameFaults (n : Fin 4) (s : State) : State :=
  let o := s.oven.get n
  let i := mkInst n.val 0
  let s1 := if !o.incSaid && decide (o.incRun ≠ 0) && decide (s.actN n (Obj.incompleteMax n.val) ≤ (o.incRun : Rat)) then
      (s.modOven n (fun o => { o with incSaid := true })).latch 0x4C06 i 0
    else s
  let s2 := if o.udcRun = 8 then s1.latch 0x4C01 i 0 else s1
  if o.vlimRun = 1000 then s2.latch 0x4C02 i 0 else s2

/-- The last 64 CLOSED frames of phase-voltage mean and the duty the frame ran with, for R316; a phase without a valid mean adds
nothing. -/
def State.voltHistory (n : Fin 4) (s : State) : State :=
  if (s.loaf.get n).st ≠ .closed then s
  else
    let m := fun p => (s.hand.get n).mean (s.phaseRole n p 4)
    s.modOven n (fun o => { o with
      uHist := ([(m 0, o.runDuty.1), (m 1, o.runDuty.2.1), (m 2, o.runDuty.2.2)].filterMap
        (fun x => x.1.map (fun v => (v, x.2))) :: o.uHist).take 64 })

/-! ## The frame record (R313, R314) -/

/-- A duty in the record: 2^-16, 0xFFFF for 1; its rounding is free. -/
def dutyField (d : Rat) : Nat := if d = 1 then 65535 else (clampI 0 65535 (showInt (d * 65536))).toNat

/-- The flags of a record, R314. -/
def State.recFlags (s : State) (n : Fin 4) (f : FrameOut) : Nat :=
  let closed := decide ((s.loaf.get n).st = .closed)
  let l := f.loop
  let grp := (s.groupOf n).map (fun g => s.grp.get g)
  let gb := fun (p : GroupSt → Bool) => (grp.map p).getD false
  let fbc := match s.groupOf n with
    | some g => (s.posFb g).map (fun c => (s.fb.get c).latch.get n)
    | none => none
  b2n f.incomplete + 2 * b2n (closed && f.held) + 4 * b2n (closed && !f.held && l.limited)
    + 8 * b2n (closed && (l.clamped || gb (fun g => g.capped && g.shareSet.contains n)))
    + 16 * b2n (fbc.any (fun c => c.posOk)) + 32 * b2n (fbc.any (fun c => c.spdOk))
    + 64 * b2n (decide (s.bankOfLoaf n ≠ 0)) + 128 * b2n (gb (fun g => g.swapped)) + 256 * b2n (gb (fun g => g.renorm))
    + 512 * b2n (closed && gb (fun g => decide (g.drag ≠ 0))) + 1024 * b2n f.udcHeld
    + 2048 * b2n (gb (fun g => decide (g.st = .starting)))
    + 4096 * b2n (match s.groupOf n with
        | some g => s.onObserver g && (s.grp.get g).st.active && decide (s.blendW g (Config.obsSpeed s.freeNo n.val) < 1)
        | none => false)
    + 8192 * b2n (gb (fun g => g.stallT.isSome)) + 16384 * b2n (s.loaf.get n).wasLate
    + 32768 * b2n (l.satIn || (closed && !f.held && l.sat))

/-- Classes pending on a loaf or its group. -/
def State.loafClasses (s : State) (n : Fin 4) : Nat :=
  ((List.range 5).map (fun c => b2n (s.flt.pend.any (fun p => p.cls.num == c
    && ((s.targetLoaves p.code p.inst).contains n || (match s.groupOf n with
      | some g => (s.targetGroups p.code p.inst).contains g
      | none => false)))) * 2 ^ c)).sum

/-- Bytes 0 to 61 of a record, R313; what the loaf's state does not compute reads 0. -/
def State.recBody (s : State) (n : Fin 4) (f : FrameOut) : List Byte :=
  let lf := s.loaf.get n
  let o := s.oven.get n
  let l := f.loop
  let closed := decide (lf.st = .closed)
  let g := s.groupOf n
  let gst := (g.map (fun g => (s.grp.get g).st.code)).getD 0
  let ch := (g.map (fun g => s.rdN (Obj.posCh g.val))).getD 255
  let pos := ((s.fb.get (Fin.ofNat 4 ch)).latch.get n).pos
  let ib := s.rdR (Obj.iBase n.val)
  let on := fun (q : Rat) => if closed then recI16 q else 0
  leBytes 4 lf.countEnd ++ leBytes 4 (lf.boundaryT % 2 ^ 32)
    ++ leBytes 1 (n.val + 4 * ((g.map (fun g => g.val)).getD 0) + 16 * b2n g.isSome)
    ++ leBytes 1 (lf.st.code + 16 * gst) ++ leBytes 2 (s.recFlags n f)
    ++ leBytes 2 (recI16 l.id) ++ leBytes 2 (recI16 l.iq) ++ leBytes 2 (on l.idRef) ++ leBytes 2 (on l.iqRef)
    ++ leBytes 2 (on o.vd) ++ leBytes 2 (on o.vq) ++ leBytes 2 (recI16 (ovenHold (f.udc / s.rdR (Obj.vBase n.val))))
    ++ leBytes 2 (recI16 ((f.i3.1 + f.i3.2.1 + f.i3.2.2) / 3 / ib)) ++ leBytes 4 f.thetaP
    ++ (if ch < 4 then leBytes 4 (pos % 2 ^ 25).toNat ++ leBytes 2 (toBits 16 (pos / 2 ^ 25)) else leBytes 6 0)
    ++ leBytes 4 ((g.map (fun g => toBits 32 (speedWord (s.grp.get g).speed))).getD 0)
    ++ (if closed then leBytes 2 (dutyField o.duty.1) ++ leBytes 2 (dutyField o.duty.2.1) ++ leBytes 2 (dutyField o.duty.2.2)
        else leBytes 6 0)
    ++ leBytes 2 (on (o.peRes / ib)) ++ leBytes 2 (on (o.pnRes / ib))
    ++ leBytes 2 (if closed then toBits 16 (s.rd (Obj.paDiff n.val) / 65536) else 0)
    ++ leBytes 1 lf.evtEnd ++ leBytes 1 (min (s.injOfU n).1 255) ++ leBytes 2 (toBits 16 (s.injOfU n).2)
    ++ leBytes 2 (min (s.samplesOfU n) 65535) ++ leBytes 2 (s.loafClasses n)
/-- A frame record of 64 bytes. -/
def State.record (s : State) (n : Fin 4) (f : FrameOut) : List Byte :=
  let b := s.recBody n f
  b ++ leBytes 2 (crc16 b).toNat

/-- A record pushed into its loaf's queue of 32, or dropped and counted (R19); `REC_PUSHED` counts either (R321), the
capture memory and `REC_LAST` take the pushed one. -/
def State.pushRecord (n : Fin 4) (bytes : List Byte) (s : State) : State :=
  let s1 := s.bumpWrap (Obj.recPushed n.val)
  if 32 ≤ (s.oven.get n).queue.length then s1.bumpOpen Obj.recDrop
  else ((s1.modOven n (fun o => { o with queue := o.queue ++ [bytes] })).setBlob (Obj.recLast n.val) bytes).capRecord n.val bytes

/-- The STATE frame of the mirror link, after the last loaf of the pair group has been computed (R468). -/
def State.mirrorAfter (n : Fin 4) (s : State) : State :=
  let s1 := s.modLoaf n (fun l => { l with done := true })
  let g := s1.prGroup
  if s1.paired && decide (s1.groupOf n = some g)
      && (s1.bound g).all (fun m => !(s1.loaf.get m).running || (s1.loaf.get m).done) then
    s1.mirrorSend (s1.mirrorFrame 0 false)
  else s1

/-- The computation of a frame of loaf `n` that its close has handed over. -/
def State.computeFrame (n : Fin 4) (s0 : State) : State :=
  let s := (((s0.scMissed n).reconThirds n).reconMark n).modLoaf n (fun l => { l with due := false })
  let r := s.frameLoop n
  let f := r.1
  let closed := decide ((s.loaf.get n).st = .closed)
  let s1 := ((s.frameStore n f r.2.2.1).frameCommit n f).autoChoice n r.2.1
  let s2 := (s1.proofFrame n f.incomplete f.loop f.i3 f.theta f.thetaP r.2.1 r.2.2.2 s.freeNo).voltHistory n
  let s3 := if closed then (((s2.openPhase n f.incomplete f.i3 f.loop.v3).lostCurrents n).frameFaults n) else s2
  let fl := s3.recFlags n f
  let s4 := (s3.wr (Obj.ovenFlags n.val) (fl : Int)).pushRecord n (s3.record n f)
  let s5 := s4.mirrorAfter n
  s5.drew.settle

end Sys2Proof.Machine
end

