-- ==== Sys2Proof/Machine/Pads.lean ====
section
/-! DEFINITION. The levels of the output pads: their reset and SAFE states (R57), the bank supplies (R61, R69), the gates and
enables (R192 to R195, R206), the clock on `FBn_Z` (R251, R252, R265), and the boundary scan (R81, R84). -/

namespace Sys2Proof.Machine

/-- The output pads of R57; `gate n k` is the k-th of `PWMn_UH` to `PWMn_WL`. -/
inductive OutPad where
  | gate (n : Fin 4) (k : Fin 6)
  | gen (n : Fin 4)
  | genC
  | genM
  | fbZ (n : Fin 4)
  | brkA
  | brkB
  | safeOk
  | beat
  | hmiso
  | hirq
  | eth (port : Fin 2) (k : Fin 3)
  | mdc
  | mdio
  | ppsOut
  | psck
  | pmosi
  | psel (k : Fin 3)
  | pstb
  | pgp (k : Fin 2)
  | mltx (lane : Fin 2)
  | roleAct
  | tdo
  | resetN
  | pwrgood
  | cover
deriving DecidableEq, Repr

/-- What a pad shows: a level, nothing driven, or the signal of the unit that owns it (a bus in operation). -/
inductive PadLevel where
  | low
  | high
  | released
  | signal
deriving DecidableEq, Repr

/-- A driven level. -/
def PadLevel.of (b : Bool) : PadLevel := if b then .high else .low

/-- The pad's number, R57 (the first of a differential pair). -/
def OutPad.number : OutPad → Nat
  | .gate n k => 3 + 8 * n.val + k.val
  | .gen n => 9 + 8 * n.val
  | .genC => 35
  | .genM => 36
  | .fbZ n => 55 + 3 * n.val
  | .brkA => 71
  | .brkB => 72
  | .safeOk => 73
  | .beat => 74
  | .hmiso => 137
  | .hirq => 139
  | .eth p k => 142 + 9 * p.val + k.val
  | .mdc => 159
  | .mdio => 160
  | .ppsOut => 161
  | .psck => 164
  | .pmosi => 165
  | .psel k => 167 + k.val
  | .pstb => 170
  | .pgp k => 172 + k.val
  | .mltx l => 298 + 3 * l.val
  | .roleAct => 311
  | .tdo => 317
  | .resetN => 320
  | .pwrgood => 321
  | .cover => 322

/-- The banks of R57 that have outputs. -/
inductive Bank where
  | g
  | v
  | h
  | l
deriving DecidableEq, Repr

/-- A pad's bank, R57. -/
def OutPad.bank : OutPad → Bank
  | .gate _ _ | .gen _ | .genC | .genM | .fbZ _ => .g
  | .brkA | .brkB | .safeOk | .beat => .v
  | .mltx _ => .l
  | _ => .h

/-- Its reset state, R57. -/
def OutPad.inReset : OutPad → PadLevel
  | .fbZ _ | .hmiso | .hirq | .mdio | .tdo => .released
  | .pstb | .pgp _ => .high
  | _ => .low

/-- A bank's supply is out of its range, so that its outputs cannot drive: its monitor reports it low (R64, R69), or it has not
reached its release range in reset (R57, R63). Banks H and L share VIO_H (R60). -/
def State.bankDead (s : State) : Bank → Bool
  | .g => s.power.asserted.contains .vioGUnder || (decide (s.boot.stage = .inReset) && decide (s.power.vioG < 3000))
  | .h | .l => s.power.asserted.contains .vioHUnder || (decide (s.boot.stage = .inReset) && decide (s.power.vioH < 3000))
  | .v => false

/-- What the pull-downs of R57 and R69 hold low when nothing drives: gates, enables and `ROLE_ACT`. -/
def OutPad.pulledDown : OutPad → Bool
  | .gate _ _ | .gen _ | .genC | .genM | .roleAct => true
  | _ => false

/-- Open-drain outputs, which drive low or nothing (R57, R126). -/
def OutPad.openDrain : OutPad → Bool
  | .hirq | .resetN | .pwrgood => true
  | _ => false

/-- The boundary register drives or floats the pad: `EXTEST` and `CLAMP` from its cell, `HIGHZ` not at all; the cells of the
enables, of `GENn` and of bank V only observe, and LVDS pads have none (R81, R84). Which TAP and cell serve a pad is the BSDL
files', not the manual's: free. -/
def State.scanned (s : State) (p : OutPad) : Option PadLevel :=
  let has := match p with
    | .gen _ | .genC | .genM | .brkA | .brkB | .safeOk | .beat | .mltx _ | .tdo => false
    | _ => true
  let x := if Config.padTapC p.number then s.tapC else s.tapM
  if !has then none
  else match x.ins with
    | .extest | .clamp =>
      let high := x.upd.getD (Config.padCell p.number) false
      some (if high && p.openDrain then .released else .of high)
    | .highz => some .released
    | _ => none

/-- `HMISO` carries a frame's bytes while `HCS_N` is low (R116): bank H can drive, and no boundary scan holds the pad (R69, R81). -/
def State.misoDrives (s : State) : Bool := !s.bankDead .h && (s.scanned .hmiso).isNone

/-- `FBn_Z` in modes 3 and 4: the clock idles high and, from the latch instant of a transfer, runs at 100 MHz / `SER_CLK_DIV`,
its first edge falling; in every other mode the pad is an input (R252, R265). -/
def State.fbClock (s : State) (n : Fin 4) : PadLevel :=
  let m := s.rd (Obj.fbMode n.val)
  if m = 3 ∨ m = 4 then
    match (s.fb.get n).serBusy with
    | some t0 => .of (decide (s.time.now < t0) || decide ((s.time.now - t0) / s.rdN (Obj.serClkDiv n.val) % 2 = 1))
    | none => .high
  else .released

/-- The level a pad's own unit gives it while the module is out of reset. -/
def State.unitPad (s : State) : OutPad → PadLevel
  | .gate n k => .of (s.regionUp && s.has n.val && (s.gatePadsAt n (8 * s.time.now)).getD k.val false)
  | .gen n => .of (s.regionUp && s.genN n)
  | .genC => .of s.safety.genC
  | .genM => .of s.safety.genM
  | .fbZ n => if s.has n.val then s.fbClock n else .released
  | .brkA => .of (s.safety.brkA && !s.safety.brkShutA)
  | .brkB => .of (s.safety.brkB && !s.safety.brkShutB)
  | .safeOk => .of s.safeOk
  | .beat => .of s.flt.beat
  | .hirq => if s.hirqLow then .low else .released
  | .ppsOut => .of s.time.ppsOut
  | .psel k => .of (s.pp.psel.testBit k.val)
  | .pstb => .of s.pp.pstbN
  | .pgp k => .of (if k.val = 0 then s.pp.pgp0 else s.pp.pgp1)
  | .psck => if s.pp.run.any (fun r => r.selected) then .signal else .of s.pp.sck
  | .pmosi => if s.pp.run.isSome then .signal else .low
  | .roleAct => .of s.pair.roleAct
  | .tdo => if s.sec.unlocked then .signal else .released
  | .resetN => if s.power.resetLow then .low else .released
  | .pwrgood => if s.power.pwrgoodLow then .low else .released
  | .cover => .of s.power.coverOpen
  | .hmiso => .released
  | .eth _ _ | .mdc | .mdio | .mltx _ => .signal

/-- The level of an output pad, between host frames (`HCS_N` high: `HMISO` is high-impedance, R116). Without VIN nothing drives;
`RESET_N` and `PWRGOOD`, whose drivers VIN feeds, and `COVER` follow their own rules through reset (R57, R66); an unclassed VIO_G
holds the outputs of bank G low, and leaves an `FBn_Z` that is an input alone (R61, R252). -/
def State.padLevel (s : State) (p : OutPad) : PadLevel :=
  if s.boot.stage = .off then (if p.pulledDown then .low else .released)
  else if p = .resetN ∨ p = .pwrgood then (s.scanned p).getD (s.unitPad p)
  else if s.bankDead p.bank then (if p.pulledDown then .low else .released)
  else if p = .cover then (s.scanned p).getD (s.unitPad p)
  else if s.boot.stage = .inReset then p.inReset
  else if s.boot.vioGBad && p.bank = .g then (if (∃ n, p = .fbZ n) ∧ s.unitPad p = .released then .released else .low)
  else (s.scanned p).getD (s.unitPad p)

end Sys2Proof.Machine
end

