-- ==== Sys2Proof/Machine/Reset.lean ====
section
/-! DEFINITION. Resets and power-down (R87 to R89, R106 to R112): what is kept, what is set to its default. -/

namespace Sys2Proof.Machine

/-- Objects kept in flash or by the standby domain through a reset (R89, R110, R407). -/
def keptKeys : List Nat :=
  [Obj.coverCount, Obj.coverLast, Obj.tempPeak, Obj.resetCause, Obj.resetCount, Obj.wdtCount, Obj.timeValid, Obj.vinLossS,
   Obj.wakeAlarmS, Obj.standbyReason, Obj.wakeMissed, Obj.stoDemands, Obj.ptAge]

/-- The homes of the kept objects. -/
def Store.keep (m : Store) : Store := m.filter (fun p => keptKeys.contains p.1)

/-- VIN, VIO_G and VIO_H in their release ranges, R63 (mV). -/
def vinInRange (v : Int) : Bool := decide (9500 < v ∧ v < 33000)
def vioHInRange (v : Int) : Bool := decide (3000 < v ∧ v < 3700)
def vioGInRange (v : Int) : Bool := decide (3000 < v ∧ v < 5700)
def PowerSt.inRange (p : PowerSt) : Bool := vinInRange p.vin && vioGInRange p.vioG && vioHInRange p.vioH

/-- The class of VIO_G, R61: 0 for 3.3 V, 1 for 5 V, 2 invalid. -/
def vioClass (v : Int) : Nat := if 3000 ≤ v ∧ v ≤ 3600 then 0 else if 4500 ≤ v ∧ v ≤ 5500 then 1 else 2

/-- Sessions and connections end with the reset; their ends are audited (R491, R499 event 3 data 3). -/
def State.endSessions (s : State) : State :=
  let s1 := match s.sec.session with
    | some x => s.auditEvent 0x0003 0 x.2 x.1 0 3
    | none => s
  forAll units4 (fun c x =>
    let k := x.net.conns.get c
    if k.open_ && k.tls then x.auditEvent 0x0003 (2 * c.val + 1) k.user k.role 0 3 else x)
    (if s1.sec.unlocked then s1.auditEvent 0x0050 8 0xFF 0 0 0 else s1)

/-- Every register, object, memory and mailbox at its default; flash, one-time memory and the standby domain kept (R89, R110). -/
def State.cold (s0 : State) : State :=
  let s := (s0.releaseRole true).endSessions
  { State.reset with
    variant := s.variant
    pending := s.pending
    freeNo := s.freeNo
    objs := s.objs.keep.set Obj.bootMs 0xFFFF
    power := { s.power with
      resetLow := true, pwrgoodLow := true, hotC := 0, hotM := 0, ckAdcBad := false, ckAdcBack := false, ckSafeBad := false
      ckSafeStop := false
      refFailed := Six.all false, refLostT := Six.all none, ckMgtBad := false, ckCtlBad := false, refReady := Six.all false
      swReset := 0, swNow := 0, swDiscrep := 0,
      swAgreed := 0, swDisRun := [], vinUnderNow := false }
    time := { ({} : TimeSt) with now := s.time.now, counter := s.time.counter }
    flt := { ({} : FaultSt) with nvlog := s.flt.nvlog, seq := s.flt.seq }
    safety := { ({} : SafetySt) with sets := s.safety.sets, coverSince := s.safety.coverSince, ptMs := s.safety.ptMs }
    pair := { ({} : PairSt) with
      partner := s.pair.partner, partnerT := s.time.now, mlPres := s.pair.mlPres, presT := s.time.now
      sent := if s0.pair.roleAct then s.pair.sent else [] }
    sec := { ({} : SecSt) with
      users := s.sec.users, owner := s.sec.owner, image := s.sec.image, nonceNo := s.sec.nonceNo, sessCount := s.sec.sessCount,
      audit := s.sec.audit, auditQ := s.sec.auditQ, auditSeq := s.sec.auditSeq, slotA := s.sec.slotA, slotB := s.sec.slotB,
      preferB := s.sec.preferB, runB := s.sec.runB, rollback := s.sec.rollback } }

/-- A reset with the given bits of `RESET_CAUSE` (R87); the boot sequence starts at t0 (R90). -/
def State.doReset (causes : Nat) (s : State) : State :=
  let c := (s.cold.bumpOpen Obj.resetCount).wr Obj.resetCause (causes : Int)
  c.modBoot (fun _ => { ({} : BootSt) with t0 := s.time.now, stateT := s.time.now })

/-- The VIO_G class is detected (R61). -/
def State.classify (s : State) : State := s.modPower (fun p => { p with vioGClass := vioClass p.vioG })
/-- A power-on reset or the end of a hold-up: the VIO_G class is detected again, and judged once reset is released (R61, R63,
R87). -/
def State.redetect (s : State) : State := s.classify.modBoot (fun b => { b with classDue := true })

/-- Everything but the standby domain powered down (R106, R107). -/
def State.powerDown (slept : Bool) (s : State) : State :=
  { s.cold with
    mode := .standby
    boot := { ({} : BootSt) with stage := .off, slept := slept, t0 := s.time.now, stateT := s.time.now }
    power := { s.cold.power with resetLow := false, pwrgoodLow := true } }

/-- The standby entry of R107. -/
def State.standbyEntry (s : State) : State :=
  let s1 := ((s.setMode .standby).dropGen .c).dropGen .m
  (s1.flushLogs.wr Obj.standbyReason 2).powerDown true

/-- The transition a taken `MODULE_REQ` or a firmware commit asked for begins (R528). -/
def State.beginTransition (s : State) : State :=
  match s.boot.transition with
  | none => s
  | some (3, _) => s.standbyEntry
  | some (5, _) => s.doReset 32
  | some (_, _) => s.doReset 16

end Sys2Proof.Machine
end

