-- ==== Sys2Proof/Machine/SafetyOps.lean ====
section
/-! DEFINITION. The safety functions each channel evaluates on its own views (R379 to R388, R392), and the binding of a
parameter set (R395 to R399). -/

namespace Sys2Proof.Machine

/-- The input's number, R381. -/
def inputNum : SafetyInput → Fin 4
  | .stoA => 0
  | .stoB => 1
  | .guardA => 2
  | .guardB => 3
/-- Its side, the instance of its faults: 0 channel A, 1 channel B (R353). -/
def inputSide (i : SafetyInput) : Nat := (inputNum i).val % 2

/-- A channel's filtered view of an input. -/
def State.viewOf (s : State) (ch : Chan) (i : Fin 4) : Bool := match ch with
  | .c => s.safety.viewC.get i
  | .m => s.safety.viewM.get i
/-- The view has taken the pad level since reset (R379). -/
def State.takenOf (s : State) (ch : Chan) (i : Fin 4) : Bool := match ch with
  | .c => s.safety.takenC.get i
  | .m => s.safety.takenM.get i
/-- A channel runs: Crust once region C does, Askard once started (R91). -/
def State.chanUp (s : State) (ch : Chan) : Bool := match ch with
  | .c => s.regionUp
  | .m => decide (s.boot.stage = .askard)
/-- A fault a channel finds: channel C's at once, channel M's in a `FAULT` packet (R376). -/
def State.chanFault (ch : Chan) (code inst : Half) (data : Int) (s : State) : State := match ch with
  | .c => s.fault code inst data
  | .m => s.reportM code inst data

/-- An input of the pair reads low in a channel; both read high in both channels. -/
def State.pairLow (s : State) (ch : Chan) (a b : Fin 4) : Bool := !(s.viewOf ch a) || !(s.viewOf ch b)
def State.pairHigh (s : State) (a b : Fin 4) : Bool := !s.pairLow .c a b && !s.pairLow .m a b

/-- An STO-input demand or an open guard stands in a channel. -/
def State.stoIn (s : State) (ch : Chan) : Bool := match ch with
  | .c => s.safety.stoInC
  | .m => s.safety.stoInM
def State.guardOpen (s : State) (ch : Chan) : Bool := match ch with
  | .c => s.safety.guardOpenC
  | .m => s.safety.guardOpenM
def State.setStoIn (ch : Chan) (b : Bool) (s : State) : State := match ch with
  | .c => s.modSafety (fun f => { f with stoInC := b })
  | .m => s.modSafety (fun f => { f with stoInM := b })
def State.setGuardOpen (ch : Chan) (b : Bool) (s : State) : State := match ch with
  | .c => s.modSafety (fun f => { f with guardOpenC := b })
  | .m => s.modSafety (fun f => { f with guardOpenM := b })

/-- The STO inputs in a channel: a demand from its first low view, ended when every input reads high in both channels
(R382 to R386). -/
def State.stoEval (ch : Chan) (s : State) : State :=
  if !s.stoIn ch && s.pairLow ch 0 1 then
    let s1 := s.setStoIn ch true
    if s.rd Obj.stoFunc = 1 then (s1.safetyReport ch 2).ss1Start ch else (s1.safetyReport ch 1).demandSto ch
  else if s.stoIn ch && s.pairHigh 0 1 then s.setStoIn ch false
  else s

/-- The guard in a channel: its opening is reported with data 4, and the function it demands with its own (R383, R384, R386, R388). -/
def State.guardEval (ch : Chan) (s : State) : State :=
  if s.rd Obj.guardReact = 0 then s.setGuardOpen ch false
  else if !s.guardOpen ch && s.pairLow ch 2 3 then
    let s1 := (s.setGuardOpen ch true).safetyReport ch 4
    if s.rd Obj.guardReact = 2 then (s1.safetyReport ch 2).ss1Start ch else (s1.safetyReport ch 1).demandSto ch
  else if s.guardOpen ch && s.pairHigh 2 3 then s.setGuardOpen ch false
  else s

/-- What still demands STO on a channel's enable (R383, R385, R386). -/
def State.stoStands (s : State) (ch : Chan) : Bool :=
  let ended := match ch with
    | .c => s.safety.ss1EndC
    | .m => s.safety.ss1EndM
  (s.stoIn ch && decide (s.rd Obj.stoFunc = 0)) || (s.guardOpen ch && decide (s.rd Obj.guardReact = 1))
    || (ended && ((s.stoIn ch && decide (s.rd Obj.stoFunc = 1)) || (s.guardOpen ch && decide (s.rd Obj.guardReact = 2))
      || s.safety.react5))

/-- A channel's STO demand ends once nothing demands it; the last one to end with both enables read back low
restarts `PT_AGE` (R385, R406). -/
def State.stoEnd (ch : Chan) (s : State) : State :=
  let held := match ch with
    | .c => s.safety.stoC
    | .m => s.safety.stoM
  if held && !s.stoStands ch then
    let s1 := match ch with
      | .c => s.modSafety (fun f => { f with stoC := false, ss1EndC := false })
      | .m => s.modSafety (fun f => { f with stoM := false, ss1EndM := false })
    if !s1.safety.stoC && !s1.safety.stoM && !s1.genReadC && !s1.genReadM then
      (s1.wr Obj.ptAge 0).modSafety (fun f => { f with ptMs := 0 })
    else s1
  else s

/-- The start-up guard test (R392, R393): opened in both channels, then closed, each pair of changes within `GUARD_DISC`. -/
def State.guardTest (s : State) : State :=
  let f := s.safety
  let lim := s.rdN Obj.guardDisc * msCycles
  let near := fun (q : Quad Nat) => decide (q.get 2 ≤ q.get 3 + lim ∧ q.get 3 ≤ q.get 2 + lim)
  let pairs := near f.viewTC && near f.viewTM
  let lows := [2, 3].all (fun i => s.takenOf .c i && !s.viewOf .c i && s.takenOf .m i && !s.viewOf .m i)
  let highs := s.pairHigh 2 3
  if s.rd Obj.guardReact = 0 ∨ f.guardPass then s
  else if !f.guardSeen && lows && pairs then s.modSafety (fun f => { f with guardSeen := true })
  else if f.guardSeen && highs then
    s.modSafety (fun f => { f with guardPass := pairs, guardSeen := pairs })
  else s

/-- Both channels evaluate their views: nothing before a set governs (R396). -/
def State.safetyEval (s : State) : State :=
  if s.safety.governs.isNone then s
  else (((((s.stoEval .c).stoEval .m).guardEval .c).guardEval .m).stoEnd .c).stoEnd .m |>.guardTest

/-- `DISC_MAX`: a difference of a channel's views of `STO_A` and `STO_B`, begun, going on or ended (R407). -/
def State.discStep (ch : Chan) (s : State) : State :=
  let since := match ch with
    | .c => s.safety.discTC
    | .m => s.safety.discTM
  let differ := s.viewOf ch 0 != s.viewOf ch 1
  let s1 := match since with
    | some t0 =>
      let ms := min ((s.time.now - t0) / msCycles) 65535
      if s.rdN Obj.discMax < ms then s.wr Obj.discMax (ms : Int) else s
    | none => s
  let now := if differ then some (since.getD s.time.now) else none
  match ch with
  | .c => s1.modSafety (fun f => { f with discTC := now })
  | .m => s1.modSafety (fun f => { f with discTM := now })

/-- The instant two levels began to differ: kept while they do. -/
def diffSince (differ : Bool) (since : Option Nat) (t : Nat) : Option Nat := if differ then some (since.getD t) else none

/-- The differences of R376 and R382 begun, going on or ended with a view of input `i`. -/
def State.diffStep (i : Fin 4) (s : State) : State :=
  let t := s.time.now
  s.modSafety (fun f => { f with
    guardDiffC := diffSince (f.viewC.get 2 != f.viewC.get 3) f.guardDiffC t
    guardDiffM := diffSince (f.viewM.get 2 != f.viewM.get 3) f.guardDiffM t
    chanDiff := f.chanDiff.set i (diffSince (f.viewC.get i != f.viewM.get i) (f.chanDiff.get i) t) })

/-- The view of an input takes a level. -/
def State.takeView (ch : Chan) (i : Fin 4) (level : Bool) (s : State) : State :=
  let t := s.time.now
  (match ch with
  | .c => s.modSafety (fun f => { f with viewC := f.viewC.set i level, takenC := f.takenC.set i true, viewTC := f.viewTC.set i t })
  | .m => s.modSafety (fun f => { f with viewM := f.viewM.set i level, takenM := f.takenM.set i true, viewTM := f.viewTM.set i t })
  ).diffStep i

/-- More than `lim` cycles have passed since an instant on a channel's own clock: channel C's may run 5 % fast (R100, R402). -/
def passedOn (ch : Chan) (since lim now : Nat) : Bool := match ch with
  | .c => decide (100 * since + 95 * lim ≤ 100 * now)
  | .m => decide (since + lim ≤ now)
/-- A difference of two levels has lasted more than `ms` on a channel's own clock. -/
def lastedOn (ch : Chan) (since : Option Nat) (ms now : Nat) : Bool :=
  since.any (fun t0 => passedOn ch t0 (ms * msCycles + 1) now)

/-- What the fixed filter of a safety input makes of a level that has lasted `ns` (R379): none of 1.0 ms or less, any of more than
1.575 ms, and one between may or may not be taken. -/
def safeFilterTakes (ns : Nat) (free : Bool) : Bool := if ns ≤ 1000000 then false else if 1575000 < ns then true else free

/-! ## Binding (R395 to R399) -/

/-- The set the switches select, R394. -/
def State.setSel (s : State) : Fin 4 := Fin.ofNat 4 (s.power.swReset.toNat % 4)

/-- The binding CRC of an image under a set number, R398, R399. -/
def State.bindingCrc (s : State) (image : List Byte) (n : Nat) : Word :=
  let w := s.power.swReset.toNat
  let word := putBit w 10 false / 4 * 4 + n % 4
  crc32 (slice image 0 128 ++ leBytes 2 word
    ++ leBytes 2 (if w.testBit 11 then s.rdN Obj.coverCount else 0))

/-- The governing set's parameters and identifier shown in their objects (R396, R407). -/
def State.showParams (b : List Byte) (s : State) : State :=
  s.wrs [(Obj.safeSetId, leAt b 4 4), (Obj.stoFunc, leAt b 16 1), (Obj.guardReact, leAt b 17 1), (Obj.sbcEn, leAt b 18 1),
    (Obj.sbcGroup, leAt b 19 1), (Obj.ss1Time, leAt b 20 4), (Obj.guardDisc, leAt b 24 2), (Obj.sbcDelay, leAt b 26 2),
    (Obj.sbcStoLag, leAt b 28 2), (Obj.tpExpect, leAt b 30 1), (Obj.tpPeriod, leAt b 32 2)]

/-- A parameter image keeps the format, the ranges and the reserved zeros of R395 and R396. -/
def paramsOk (b : List Byte) (n : Nat) : Bool :=
  decide (b.length = 128 ∧ leAt b 0 2 = 1 ∧ leAt b 2 1 = n ∧ leAt b 3 1 = 0 ∧ leAt b 12 4 = 0 ∧ leAt b 31 1 = 0
    ∧ leAt b 34 14 = 0 ∧ leAt b 48 16 = 0 ∧ leAt b 16 1 ≤ 1 ∧ leAt b 17 1 ≤ 2 ∧ leAt b 18 1 ≤ 1 ∧ leAt b 19 1 ≤ 3
    ∧ leAt b 20 4 ≤ 30000 ∧ 20 ≤ leAt b 24 2 ∧ leAt b 24 2 ≤ 2000 ∧ leAt b 26 2 ≤ 2000
    ∧ (leAt b 18 1 = 1 → leAt b 26 2 ≤ leAt b 20 4) ∧ leAt b 28 2 ≤ 500 ∧ leAt b 30 1 < 16
    ∧ 10 ≤ leAt b 32 2 ∧ leAt b 32 2 ≤ 10000)

end Sys2Proof.Machine
end

