-- ==== Sys2Proof/Machine/Power.lean ====
section
/-! DEFINITION. Supplies, resets, boot, clocks, standby and the TAPs: the events of chapters 2 and 3. -/

namespace Sys2Proof.Machine

/-- The standby domain's values after it lost its contents (R111 names the counter and the cover objects only): free. -/
def State.standbyOpen (a : Nat) (top : Int) (s : State) : State :=
  (s.wr a (clampI 0 top (Config.standbyFree s.freeNo a))).drew

/-- Reset has ended (R90): the boot sequence is past tR. -/
def State.resetOver (s : State) : Bool := decide (s.boot.stage ≠ .off ∧ s.boot.stage ≠ .inReset)
/-- Askard runs. -/
def State.askard (s : State) : Bool := decide (s.boot.stage = .askard)

/-! ## Resets -/

/-- The four supplies as measured. -/
def PowerSt.withSupplies (p : PowerSt) (vin vioG vioH vbat : Int) : PowerSt :=
  { p with vin := vin, vioG := vioG, vioH := vioH, vbat := vbat }

/-- `POWER_ON` (R65, R87, R112): the supplies enter their release ranges; in a reset that waits for them t0 is taken again. Where
the ranges are not entered, or while the hold-up sequence runs to its end, only the measured values change. -/
def execPowerOn (vin vioG vioH vbat : Int) (s : State) : Host.Outcome State Fault Refusal :=
  let s1 := s.modPower (fun p => p.withSupplies vin vioG vioH vbat)
  if s.power.inRange || !s1.power.inRange || s.boot.holdup then .next s1
  else
    let s2 := (s1.modPower (fun p => { p with peakOk := false })).wr Obj.tempPeak 0
    if s.boot.stage = .inReset then
      .next ((s2.redetect.wrBit Obj.resetCause 0 true).modBoot (fun b => { b with t0 := s.time.now }))
    else .next (s2.doReset 1).redetect

/-- `EXTERNAL_RESET` (R88, R108): low for 10 µs or more; shorter than 1 µs ignored; between, either. Out of STANDBY it needs VIN,
which powers the boot; out of commanded standby it is the standby wake alone (R87). A hold-up runs to its end (R65). -/
def execExternalReset (lowNs : Nat) (s : State) : Host.Outcome State Fault Refusal :=
  let taken := decide (10000 ≤ lowNs) || (decide (1000 ≤ lowNs) && Config.shortResetTaken lowNs)
  if taken && !s.boot.holdup && (decide (s.boot.stage ≠ .off) || vinInRange s.power.vin) then
    .next (s.doReset (if s.boot.slept then 64 else 2))
  else .next s

/-! ## Thresholds of the monitors (R64) -/

/-- The quantity is beyond the monitor's fault threshold (R64); a core rail's value is its deviation in thousandths. -/
def monBeyond (m : Monitor) (cls : Nat) (v : Int) : Bool := match m with
  | .vinOver => decide (34000 < v)
  | .vioGUnder => (decide (cls = 0) && decide (v < 2900)) || (decide (cls = 1) && decide (v < 4300))
  | .vioGOver => (decide (cls = 0) && decide (3800 < v)) || (decide (cls = 1) && decide (5800 < v))
  | .vioHUnder => decide (v < 2900)
  | .vioHOver => decide (3800 < v)
  | .coreRail _ => decide (80 < v.natAbs)
  | .vbatLow => decide (v < 2000)
  | .agndOffset => decide (100 < v.natAbs)
/-- The quantity is inside its clearing threshold. -/
def monInside (m : Monitor) (cls : Nat) (v : Int) : Bool := match m with
  | .vinOver => decide (v < 33000)
  | .vioGUnder => (decide (cls = 0) && decide (3000 < v)) || (decide (cls = 1) && decide (4400 < v))
  | .vioGOver => (decide (cls = 0) && decide (v < 3700)) || (decide (cls = 1) && decide (v < 5700))
  | .vioHUnder => decide (3000 < v)
  | .vioHOver => decide (v < 3700)
  | .coreRail _ => decide (v.natAbs ≤ 60)
  | .vbatLow => decide (2100 < v)
  | .agndOffset => decide (v.natAbs ≤ 80)

/-- Every monitor of R64 but VBAT low stands inside its clearing threshold (R66). -/
def PowerSt.allInside (p : PowerSt) : Bool :=
  decide (9500 < p.vin) && monInside .vinOver p.vioGClass p.vin && monInside .vioGUnder p.vioGClass p.vioG
    && monInside .vioGOver p.vioGClass p.vioG && monInside .vioHUnder p.vioGClass p.vioH && monInside .vioHOver p.vioGClass p.vioH
    && monInside (.coreRail .c) p.vioGClass p.coreC && monInside (.coreRail .m) p.vioGClass p.coreM
    && monInside .agndOffset p.vioGClass p.agnd

/-- `PWRGOOD` follows the monitors once reset has ended (R66): low with a fault reported, released with every monitor inside its
clearing threshold, between the two as it was. -/
def PowerSt.pwrgood (p : PowerSt) (ended : Bool) : PowerSt :=
  { p with pwrgoodLow := !ended || p.vinUnderNow || p.asserted.any (fun m => decide (m ≠ .vbatLow)) || (p.pwrgoodLow && !p.allInside) }

/-- `RESET_END` (R61, R63, R66, R90): the pads are released, and the class of VIO_G is judged; an invalid one is found. -/
def execResetEnd (s : State) : Host.Outcome State Fault Refusal :=
  if s.boot.stage = .inReset ∧ s.power.inRange then
    let s0 := if s.boot.classDue then s.classify else s
    let s1 := (s0.modBoot (fun b => { b with stage := .released, classDue := false })).modPower (fun p =>
      { p.pwrgood true with resetLow := false })
    if s0.power.vioGClass = 2 then
      .next ((s1.modBoot (fun b => { b with vioGBad := true, resetOnly := true })).fault 0xE009 0 s.power.vioG)
    else .next s1
  else .next s

/-- `SW_RESET_READ` (R72, R92). -/
def execSwResetRead (pole1 pole2 : BitVec 12) (s : State) : Host.Outcome State Fault Refusal :=
  if s.boot.stage = .released then
    let d := pole1 ^^^ pole2
    let s1 := (s.modBoot (fun b => { b with stage := .switchesRead, resetOnly := b.resetOnly || decide (d ≠ 0) })).modPower (fun p =>
      { p with swReset := pole2, swNow := pole2, swDiscrep := d, swAgreed := ~~~ d, swDisRun := List.replicate 12 0 })
    .next ((forAll ((List.range 12).filter (fun i => d.getLsbD i)) (fun i x => x.latch 0xE401 (mkInst i 0) 0) s1).settle)
  else .next s

/-- A slot passes secure boot (R493). -/
def State.slotBoots (s : State) (x : Slot) (ok : Bool) : Bool := ok && x.present && decide (s.sec.rollback ≤ x.svn)

/-- `SECURE_BOOT` (R94, R493, R499): the preferred slot first, the other second. -/
def execSecureBoot (vendorKeyOk slotAOk slotBOk : Bool) (s : State) : Host.Outcome State Fault Refusal :=
  if s.boot.stage ≠ .switchesRead then .next s
  else
    let good := fun (b : Bool) => vendorKeyOk && (if b then s.slotBoots s.sec.slotB slotBOk else s.slotBoots s.sec.slotA slotAOk)
    let old := fun (b : Bool) => vendorKeyOk && (if b then slotBOk && s.sec.slotB.present else slotAOk && s.sec.slotA.present)
    let pref := s.sec.preferB
    let bootFrom := fun (b : Bool) (err : Nat) =>
      ((s.modBoot (fun x => { x with stage := .secured, second := decide (b ≠ pref) })).modSec (fun x => { x with runB := b })).wr
        Obj.bootErr (err : Int) |>.auditEvent 0x0012 9 0xFF 0 0 (b2n b + 256 * err)
    if good pref then .next (bootFrom pref 0)
    else if good (!pref) then
      .next ((bootFrom (!pref) (if old pref then 4 else if pref then 2 else 1)).reportM 0xF004 0 0)
    else .next ((s.modBoot (fun b => { b with stage := .noImage })).wr Obj.bootErr
      (if old pref || old (!pref) then 4 else 3))

/-- Whether the standby domain lost its contents: what the boot after it sets (R111). -/
def State.afterLoss (s : State) : State :=
  if s.power.standbyLost then
    let n : Int := min (s.power.coverFlash + 1) 65535
    let s1 := (s.wrBit Obj.supplyFlags 6 true).wrs [(Obj.timeValid, 0), (Obj.coverCount, n), (Obj.coverLast, 0xFFFFFFFF),
      (Obj.wakeAlarmS, 0)]
    let s2 := ((s1.standbyOpen Obj.vinLossS 0xFFFFFFFF).standbyOpen Obj.standbyReason 255).standbyOpen Obj.wakeMissed 1
    ((s2.modTime (fun t => { t with counter := 0 })).modPower (fun p => { p with standbyLost := false, missDue := false })).modSafety
      (fun f => { f with coverSince := true })
  else s

/-- `ASKARD_START` (R90, R109, R111, R425): the boot after a missed wake clears the alarm; the flash copies are written. -/
def execAskardStart (s : State) : Host.Outcome State Fault Refusal :=
  if s.boot.stage = .secured then
    let s1 := s.afterLoss
    let s2 := if s1.power.missDue then s1.wr Obj.wakeAlarmS 0 else s1
    .next (((s2.modBoot (fun b => { b with stage := .askard, askardT := s.time.now })).modPower (fun p =>
      { p with coverFlash := s2.rdN Obj.coverCount, coverLastFlash := s2.rdN Obj.coverLast, missDue := false })).modTime (fun t =>
        { t with station := if s2.rd Obj.timeValid = 1 then ((t.counter * 32768).floor : Rat) / 32768 * 1000000000 else 0 }))
  else .next s

/-- `PLL_LOCK` (R91, R104, R431): region C leaves reset, every T is 0 and the references are enabled. -/
def execPllLock (s : State) : Host.Outcome State Fault Refusal :=
  if s.askard && !s.boot.pllLocked then
    .next (((s.modBoot (fun b => { b with pllLocked := true })).modPower (fun p =>
      { p with refT := s.time.now, refLostT := Six.all none })).modTime (fun t => { t with units := t.units.map (fun _ => 0) }))
  else .next s

/-- `PEEL_TRAINING_COMPLETE` (R37, R90): the endpoints number from 0 again and a READY block clears. -/
def execPeelTrainingComplete (s : State) : Host.Outcome State Fault Refusal :=
  if s.regionUp && !s.boot.peelTrained then .next (s.modBoot (fun b => { b with peelTrained := true })).settle else .next s

/-- `PEEL_TRAIN_TIMEOUT` (R95). -/
def execPeelTrainTimeout (s : State) : Host.Outcome State Fault Refusal :=
  if s.askard && !s.boot.peelTrained then
    .next ((((s.atT (s.boot.askardT + 50 * msCycles)).modBoot (fun b => { b with resetOnly := true })).wr Obj.bootErr 5).fault 0x9802 1 0)
  else .next s

/-- The running image's SVN raises `ROLLBACK_CTR`, never above 64 (R494, R499). -/
def State.raiseRollback (s : State) : State :=
  let v := s.runSlot.svn
  if s.sec.rollback < v ∧ v ≤ 64 then (s.modSec (fun x => { x with rollback := v })).auditEvent 0x0013 9 0xFF 0 0 v else s

/-- The address of R413, from the values the objects hold at the configuration load. -/
def State.ownAddress (s : State) : State :=
  let node := fieldOf s.power.swReset.toNat 4 6
  let sum := (s.rdN Obj.ipBase + node) % 2 ^ 32
  let back := decide (s.rd Obj.ipMode = 0) && decide (node = 0 ∨ sum % 256 = 0 ∨ sum % 256 = 255)
  s.modNet (fun n => { n with
    ipNow := if s.rd Obj.ipMode = 0 ∧ !back then sum else s.rdN Obj.ipAddr
    fallback := back
    mask := s.rdN Obj.ipMask, gw := s.rdN Obj.ipGw, mgtPort := s.rdN Obj.mgtPort, streamPort := s.rdN Obj.streamPort })

/-- Askard sets up both PHYs over MDIO (R411): register 4 advertises 100BASE-TX full duplex only, then register 0 restarts
auto-negotiation (PRESUMED: the bits of clause 22 of IEEE 802.3, log entry 193). -/
def State.phySetup (s : State) : State :=
  s.modNet (fun n => { n with mdio := [(0, Obj.phyAddr0), (1, Obj.phyAddr1)].flatMap (fun p =>
    [{ port := p.1, phy := s.rdN p.2, reg := 0, value := 0x1200, write := true },
     { port := p.1, phy := s.rdN p.2, reg := 4, value := 0x0101, write := true }]) })

/-- `CONFIG_ENTRY` (R90, R97, R411, R494): CONFIG is entered from BOOT and the configuration load begins; without an image to load the
PHYs are set up. -/
def execConfigEntry (s : State) : Host.Outcome State Fault Refusal :=
  if s.askard && !s.boot.loading then
    let s1 := if s.mode = .boot then s.setMode .config else s
    let s2 := (s1.modBoot (fun b => { b with loading := true })).raiseRollback.ownAddress
    .next (if s2.sec.image.isNone then s2.phySetup else s2).settle
  else .next s

/-- `CONFIG_IMAGE_APPLIED` (R90, R97, R411, R413): the stored image's last write has been applied. -/
def execConfigImageApplied (s : State) : Host.Outcome State Fault Refusal :=
  match s.sec.image with
  | none => .next s
  | some img =>
    if s.askard && s.boot.loading && !s.boot.imageDone then
      let s1 := s.writeAll (.mb 0) (img.writes.map (fun w => (w.addrWord, w.vals)))
      .next (((s1.wrs [(Obj.configCrc, img.crc), (Obj.cfgVersion, img.version)]).ownAddress.phySetup).modBoot (fun b =>
        { b with imageDone := true, auto := true })).settle
    else .next s

/-- `SAFETY_BINDING_CHECK` (R396, R399): the selected set governs where it is accepted and its binding CRC matches. -/
def execSafetyBindingCheck (s : State) : Host.Outcome State Fault Refusal :=
  if s.askard && s.boot.loading && !s.boot.bindDone then
    let n := s.setSel
    let x := s.safety.sets.get n
    let crc := s.bindingCrc x.image n.val
    let res := if x.state ≠ 2 then 1 else if x.bind ≠ crc.toNat then 2 else 0
    let s1 := (s.modBoot (fun b => { b with bindDone := true, bindRes := res })).wr Obj.safeBindCrc
      (if x.state = 0 then 0 else (crc.toNat : Int))
    if res = 0 then
      .next (((s1.modSafety (fun f => { f with governs := some n })).showParams x.image).safetyEval).settle
    else .next s1.settle
  else .next s

/-- `SAFETY_PARAM_READBACK` (R401): the CRC Crust computes over its copy of bytes 16 to 47. -/
def execSafetyParamReadback (crustCrc : Word) (s : State) : Host.Outcome State Fault Refusal :=
  match s.safety.governs with
  | none => .next s
  | some n =>
    if s.boot.peelTrained && !s.boot.readDone then
      let good := decide (crustCrc = crc32 (slice (s.safety.sets.get n).image 16 32))
      .next (s.modBoot (fun b => { b with readDone := true, readOk := good })).settle
    else .next s

/-! ## References (R104, R105) -/

/-- The reference has been near its nominal value from here on at the earliest: its enable, or its last loss (R104, R105). -/
def State.refFrom (s : State) (k : Fin 6) : Nat := max s.power.refT ((s.power.refLostT.get k).getD 0)

/-- `REF_READY_SET` (R104, R105): no earlier than 2 ms after the enable or a loss, none after the reference failed to settle
within 5 ms of its enable. -/
def execRefReadySet (k : Fin 6) (s : State) : Host.Outcome State Fault Refusal :=
  if s.regionUp && s.hasConv k.val && !s.power.ckAdcBad && !s.power.refFailed.get k then
    .next ((s.atT (s.refFrom k + 2 * msCycles)).modPower (fun p => { p with refReady := p.refReady.set k true })).settle
  else .next s

/-- `REF_SETTLE_TIMEOUT` (R104): 5 ms after the enable; a reference lost since had settled. -/
def execRefSettleTimeout (k : Fin 6) (s : State) : Host.Outcome State Fault Refusal :=
  if s.regionUp && s.hasConv k.val && !s.power.refReady.get k && (s.power.refLostT.get k).isNone then
    .next (((s.atT (s.power.refT + 5 * msCycles)).modPower (fun p => { p with refFailed := p.refFailed.set k true })).fault 0x4401
      (mkInst k.val 0) 0)
  else .next s

/-- `REF_LOST` (R105): the further 2 ms count from here. -/
def execRefLost (k : Fin 6) (s : State) : Host.Outcome State Fault Refusal :=
  if s.regionUp && s.hasConv k.val && s.power.refReady.get k then
    .next (((s.modPower (fun p => { p with
      refReady := p.refReady.set k false, refLostT := p.refLostT.set k (some s.time.now) })).modConv k
      (fun c => { c with mmConv := false })).fault 0x4402 (mkInst k.val 0) 0)
  else .next s

/-! ## Supplies (R64 to R66, R86, R106) -/

/-- Low 32 bits of the time counter's seconds. -/
def State.counterLow (s : State) : Nat := s.time.counter.floor.toNat % 2 ^ 32

/-- VIN is lost: the standby domain notes when and why (R106). -/
def State.noteVinLoss (s : State) : State := s.wrs [(Obj.vinLossS, s.counterLow), (Obj.standbyReason, 1)]

/-- `VIN_UNDER` (R64, R65, R106): the hold-up sequence up to `RESET_N`; in STANDBY the loss is noted. -/
def execVinUnder (mv : Int) (s : State) : Host.Outcome State Fault Refusal :=
  let s1 := s.modPower (fun p => { p with vin := mv })
  if 9000 ≤ mv then .next s1
  else if s.boot.stage = .off then .next ((s1.noteVinLoss).modBoot (fun b => { b with slept := false }))
  else if !s.resetOver || s.boot.holdup then .next s1
  else
    let s2 := ((s1.modPower (fun p => { p with vinUnderNow := true, pwrgoodLow := true })).modBoot
      (fun b => { b with holdup := true })).wrBit Obj.supplyFlags 0 true
    .next (((s2.fault 0xE001 0 mv).flushLogs).modPower (fun p => { p with resetLow := true }))

/-- `VIN_HOLDUP_END` (R65, R87, R106). -/
def execVinHoldupEnd (vin : Int) (s : State) : Host.Outcome State Fault Refusal :=
  if s.boot.holdup then
    let s1 := s.modPower (fun p => { p with vin := vin })
    if vinInRange vin then .next (s1.doReset 4).redetect else .next (s1.noteVinLoss.powerDown false)
  else .next (s.modPower (fun p => { p with vin := vin }))

/-- The measured value of a monitor shown where an object shows it. -/
def PowerSt.measured (p : PowerSt) (m : Monitor) (v : Int) : PowerSt := match m with
  | .vinOver => { p with vin := v }
  | .vioGUnder => { p with vioG := v }
  | .vioGOver => { p with vioG := v }
  | .vioHUnder => { p with vioH := v }
  | .vioHOver => { p with vioH := v }
  | .coreRail .c => { p with coreC := v }
  | .coreRail .m => { p with coreM := v }
  | .vbatLow => { p with vbat := v }
  | .agndOffset => { p with agnd := v }

/-- The code and instance of a monitor (R353, R372) and its bit of `SUPPLY_FLAGS` (R85). -/
def monCode : Monitor → Half × Half
  | .vinOver => (0xE002, 0)
  | .vioGUnder => (0xE003, 0)
  | .vioGOver => (0xE004, 0)
  | .vioHUnder => (0xE005, 0)
  | .vioHOver => (0xE006, 0)
  | .coreRail .c => (0xA001, 0)
  | .coreRail .m => (0xA001, 1)
  | .vbatLow => (0xE007, 0)
  | .agndOffset => (0xE008, 0)
def monBit : Monitor → Nat
  | .vinOver => 1
  | .vioGUnder => 2
  | .vioGOver => 2
  | .vioHUnder => 3
  | .vioHOver => 3
  | .coreRail _ => 4
  | .vbatLow => 5
  | .agndOffset => 7

/-- The state with `PWRGOOD` brought to its monitors. -/
def State.pwrgoodFollow (s : State) : State := s.modPower (fun p => p.pwrgood s.resetOver)

/-- A monitor reports its fault: those of region M's core rail and of VBAT in a `FAULT` packet, the others at the collector in
region C (R12, R365; DESIGN CHOICE: R11 places no supply monitor, log entry 101). -/
def State.supplyReport (m : Monitor) (value : Int) (s : State) : State :=
  let c := monCode m
  match m with
  | .coreRail .m => s.faultM c.1 c.2 value
  | .vbatLow => s.reportM c.1 c.2 value
  | _ => s.fault c.1 c.2 value

/-- `SUPPLY_MONITOR_FAULT` (R64, R66, R86): VBAT is measured while VIN is present; in reset only the value is taken. -/
def execSupplyMonitorFault (m : Monitor) (value : Int) (s : State) : Host.Outcome State Fault Refusal :=
  let s1 := s.modPower (fun p => p.measured m value)
  let c := monCode m
  if s.resetOver && monBeyond m s.power.vioGClass value && !(s.power.asserted.contains m && s.isPending c.1 c.2) then
    let s2 := s1.modPower (fun p => { p with asserted := if p.asserted.contains m then p.asserted else m :: p.asserted })
    .next ((s2.pwrgoodFollow.wrBit Obj.supplyFlags (monBit m) true).supplyReport m value)
  else .next s1.pwrgoodFollow

/-- `SUPPLY_MONITOR_CLEAR` (R64, R66). -/
def execSupplyMonitorClear (m : Monitor) (value : Int) (s : State) : Host.Outcome State Fault Refusal :=
  let s1 := s.modPower (fun p => p.measured m value)
  if s.power.asserted.contains m && monInside m s.power.vioGClass value then
    .next (s1.modPower (fun p => { p with asserted := p.asserted.filter (fun x => decide (x ≠ m)) })).pwrgoodFollow
  else .next s1.pwrgoodFollow

/-- Where a junction stands against the two thresholds of R77, each clearing 5 °C below: 0, 1 above 120 °C, 2 above 135 °C. -/
def hotLevel (old : Nat) (tenths : Int) : Nat :=
  if 1350 < tenths ∨ (old = 2 ∧ 1300 < tenths) then 2
  else if 1200 < tenths ∨ (1 ≤ old ∧ 1150 < tenths) then 1 else 0

/-- `TEMP_MONITOR` (R77, R85): region C reports at once, region M in a `FAULT` packet. -/
def execTempMonitor (r : Region) (tenths : Int) (s : State) : Host.Outcome State Fault Refusal :=
  let up := match r with
    | .c => s.regionUp
    | .m => s.resetOver
  if !up then .next s
  else
    let v := clampI (-32768) 32767 tenths
    let peak := if s.power.peakOk then max (s.rd Obj.tempPeak) v else v
    let old := match r with
      | .c => s.power.hotC
      | .m => s.power.hotM
    let new := hotLevel old tenths
    let s1 := match r with
      | .c => (s.wrs [(Obj.tempC, v), (Obj.tempPeak, peak)]).modPower (fun p => { p with hotC := new, peakOk := true })
      | .m => (s.wrs [(Obj.tempM, v), (Obj.tempPeak, peak)]).modPower (fun p => { p with hotM := new, peakOk := true })
    let inst : Half := match r with
      | .c => 0
      | .m => 1
    let say := fun (code : Half) (x : State) => match r with
      | .c => x.latch code inst tenths
      | .m => x.reportM code inst tenths
    let s2 := if old = 0 ∧ 1 ≤ new then say 0xA002 s1 else s1
    .next (if old < 2 ∧ new = 2 then say 0xA003 s2 else s2).settle

/-! ## Switches and cover (R73 to R75) -/

/-- One switch at a poll: its level where the poles agree, its run of disagreeing polls, its fault. -/
def State.pollSwitch (p1 p2 : BitVec 12) (i : Nat) (s : State) : State :=
  let put := fun (v : BitVec 12) (b : Bool) => BitVec.ofNat 12 (putBit v.toNat i b)
  let a := p1.getLsbD i
  if a = p2.getLsbD i then
    let s1 := s.modPower (fun p => { p with
      swDiscrep := put p.swDiscrep false, swAgreed := put p.swAgreed true, swDisRun := p.swDisRun.set i 0, swNow := put p.swNow a })
    if s.power.swNow.getLsbD i ≠ a then
      (s1.reportM 0xE402 (mkInst i 0) 0).auditEvent 0x0041 9 0xFF 0 0 s1.power.swNow.toNat
    else s1
  else
    let run := min (s.power.swDisRun.getD i 0 + 1) 13
    let s1 := s.modPower (fun p => { p with
      swDiscrep := put p.swDiscrep true, swDisRun := p.swDisRun.set i run
      swNow := if p.swAgreed.getLsbD i then p.swNow else put p.swNow (p2.getLsbD i) })
    if run = 12 then s1.reportM 0xE403 (mkInst i 0) 0 else s1

/-- `SWITCH_POLL` (R73): the twelfth poll in a row, 110 ms after the first, is the first beyond 100 ms. -/
def execSwitchPoll (pole1 pole2 : BitVec 12) (s : State) : Host.Outcome State Fault Refusal :=
  if s.askard then .next (forAll (List.range 12) (fun i x => x.pollSwitch pole1 pole2 i) s) else .next s

/-- `COVER_SAMPLE` (R74, R111, R400): sampled while the standby domain has its supply, VIN or VBAT. -/
def execCoverSample (isOpen : Bool) (s : State) : Host.Outcome State Fault Refusal :=
  if s.power.standbyLost && !vinInRange s.power.vin then .next s
  else
    let s1 := s.modPower (fun p => { p with coverOpen := isOpen })
    if isOpen && !s.power.coverOpen then
      let s2 := ((s1.bumpTo Obj.coverCount 65535).wr Obj.coverLast (s.counterLow : Int)).modSafety
        (fun f => { f with coverSince := true })
      if s.askard then
        .next ((s2.modPower (fun p => { p with
          coverFlash := s2.rdN Obj.coverCount, coverLastFlash := s2.rdN Obj.coverLast })).auditEvent 0x0040 9 0xFF 0 0
          (s2.rdN Obj.coverCount))
      else .next s2
    else .next s1

/-! ## Boundary scan and debug (R81 to R84, R501) -/

/-- A SERVICE session or a network connection carrying SERVICE is open (R82). -/
def State.serviceOpen (s : State) : Bool :=
  s.hostRole == 5 || units4.any (fun c => let k := s.net.conns.get c; k.open_ && k.tls && k.role == 5)

/-- `TAP_INSTRUCTION_LOAD` (R81, R84, R378): on an unlocked TAP. -/
def execTapInstructionLoad (tap : Region) (ins : TapIns) (s : State) : Host.Outcome State Fault Refusal :=
  if !s.sec.unlocked then .next s
  else
    let s1 : State := match tap with
      | .c => { s with tapC := { ins := ins, upd := s.tapC.upd } }
      | .m => { s with tapM := { ins := ins, upd := s.tapM.upd } }
    if ins = .extest ∨ ins = .clamp ∨ ins = .highz then
      let code := match ins with
        | .extest => 0
        | .clamp => 1
        | _ => 2
      let s2 := (((s1.modSafety (fun f => { f with tapHold := true })).modBoot (fun b => { b with resetOnly := true })).auditEvent
        0x0051 8 0xFF 0 0 (Config.tapCode code)).dropGen .c |>.dropGen .m
      .next ((if s.regionUp then s2.crustTrip 14 else s2).fault 0xF001 0 0)
    else .next s1

/-- The debug port locks: both TAPs return to Test-Logic-Reset and halts end (R83, R501). -/
def State.relock (s : State) : State :=
  ({ s with tapM := {}, tapC := {}, haltC := false, haltM := false }.modSec (fun x => { x with unlocked := false })).auditEvent
    0x0050 8 0xFF 0 0 0

/-- `TAP_RELOCK` (R83, R501). -/
def execTapRelock (s : State) : Host.Outcome State Fault Refusal :=
  if s.sec.unlocked && !s.serviceOpen then .next s.relock.settle else .next s

/-! ## Clocks (R28, R29, R100 to R103) -/

/-- `CK_CTL_LOSS` (R28, R99, R198, R207): source 15 and `HALT_CAUSE` bit 2. -/
def execCkCtlLoss (s : State) : Host.Outcome State Fault Refusal :=
  if s.regionUp && !s.power.ckCtlBad then
    .next ((((s.modPower (fun p => { p with ckCtlBad := true })).modBoot (fun b => { b with resetOnly := true })).wrBit
      Obj.haltCause 2 true).crustTrip 15 |>.fault 0x9C01 0 0)
  else .next s

/-- `CK_SAFE_STOP` (R29, R99): `GEN_C` falls. -/
def execCkSafeStop (s : State) : Host.Outcome State Fault Refusal :=
  if s.regionUp then
    .next ((((s.modPower (fun p => { p with ckSafeBad := true, ckSafeStop := true })).modBoot
      (fun b => { b with resetOnly := true })).dropGen .c).fault
      0x9C02 0 0)
  else .next s

/-- `CK_SAFE_DEVIATION` (R29, R100): 16 MHz within 5 %, as measured in CK_CTL. -/
def execCkSafeDeviation (hz : Nat) (s : State) : Host.Outcome State Fault Refusal :=
  if s.regionUp then
    let bad := decide (hz < 15200000 ∨ 16800000 < hz)
    let s1 := (s.wr Obj.ckSafeHz (hz : Int)).modPower (fun p => { p with ckSafeBad := bad })
    if bad && !s.power.ckSafeBad then .next (s1.fault 0x9C02 0 0) else .next s1
  else .next s

/-- `CK_ADC_FAULT` (R102): every reference loses its readiness; every loaf and group is a target of the reaction. A clock that had
recovered may fail again before its fault is cleared. -/
def execCkAdcFault (s : State) : Host.Outcome State Fault Refusal :=
  if s.regionUp && (!s.power.ckAdcBad || s.power.ckAdcBack) then
    let s1 := s.modPower (fun p => { p with ckAdcBad := true, ckAdcBack := false, refReady := Six.all false })
    .next ((forAll units6 (fun k x => x.modConv k (fun c => { c with mmConv := false })) s1).fault 0x9C03 0 0)
  else .next s

/-- `CK_ADC_RECOVERED` (R102). -/
def execCkAdcRecovered (s : State) : Host.Outcome State Fault Refusal :=
  if s.power.ckAdcBad then
    .next (s.modPower (fun p => { p with ckAdcBack := true, refT := s.time.now, refLostT := Six.all none }))
  else .next s

/-- `CK_MGT_DEVIATION` (R87, R101): `RESET_N` is low from the detection on. -/
def execCkMgtDeviation (s : State) : Host.Outcome State Fault Refusal :=
  if s.resetOver && !s.boot.mgtHit then
    .next ((((s.modPower (fun p => { p with ckMgtBad := true, resetLow := true })).modBoot (fun b => { b with
      mgtHit := true, resetOnly := true, hitT := if b.wdtHit then b.hitT else s.time.now })).dropGen
      .m).faultM 0x9C04 1 0)
  else .next s

/-- `WATCHDOG_EXPIRY` (R87, R101): `RESET_N` is low from the detection on. -/
def execWatchdogExpiry (s : State) : Host.Outcome State Fault Refusal :=
  if s.askard && !s.boot.wdtHit then
    .next (((((s.bumpOpen Obj.wdtCount).modPower (fun p => { p with resetLow := true })).modBoot (fun b =>
      { b with wdtHit := true, resetOnly := true, hitT := if b.mgtHit then b.hitT else s.time.now })).dropGen .m).faultM 0x9C04 1 0)
  else .next s

/-- `WATCHDOG_RESET` (R101), 5 ms after the detection: bit 3 for a watchdog expiry, bit 7 for a CK_MGT deviation. A hold-up in
progress runs to its own end (R65). -/
def execWatchdogReset (s : State) : Host.Outcome State Fault Refusal :=
  if (s.boot.wdtHit || s.boot.mgtHit) && !s.boot.holdup then
    .next ((s.atT (s.boot.hitT + 5 * msCycles)).doReset (8 * b2n s.boot.wdtHit + 128 * b2n s.boot.mgtHit))
  else .next s

/-- `STANDBY_CLOCK_FAULT` (R103): one that still stands after a reset is reported again. -/
def execStandbyClockFault (s : State) : Host.Outcome State Fault Refusal :=
  if s.resetOver && !(s.power.standbyClkBad && s.isPending 0xDC01 0) then
    .next (((s.modPower (fun p => { p with standbyClkBad := true, standbyClkWait := false })).wr Obj.timeValid 0).reportM 0xDC01 0 0)
  else .next s

/-- `STANDBY_CLOCK_RECOVERED` (R103). -/
def execStandbyClockRecovered (s : State) : Host.Outcome State Fault Refusal :=
  if s.power.standbyClkBad then
    .next (s.modPower (fun p => { p with standbyClkBad := false, standbyClkWait := true }))
  else .next s

/-- The counter may be reloaded: never before since reset, or 60 s ago (R111). -/
def State.reloadDue (s : State) : Bool := match s.time.reloadT with
  | none => true
  | some t0 => decide (t0 + 60000 * msCycles ≤ s.time.now)

/-- `TIME_COUNTER_RELOAD` (R103, R111). -/
def execTimeCounterReload (s : State) : Host.Outcome State Fault Refusal :=
  if s.askard && decide (s.time.lv0.st = .locked) && s.reloadDue then
    let s1 := s.modTime (fun t => { t with counter := t.station / 1000000000, reloadT := some t.now })
    if s.power.standbyClkBad then .next s1
    else .next ((s1.modPower (fun p => { p with standbyClkWait := false })).wr Obj.timeValid 1)
  else .next s

/-- `WAKE_ALARM_COMPARE` (R108, R109): in STANDBY the counter has moved on by the second of the compare. A match with VIN
present in the standby a VIN loss began sets no bit of `RESET_CAUSE` (DESIGN CHOICE: no row of R87 names it, log entry 155). -/
def execWakeAlarmCompare (s : State) : Host.Outcome State Fault Refusal :=
  if s.boot.stage ≠ .off ∨ s.power.standbyLost then .next s
  else
    let s1 := s.modTime (fun t => { t with counter := t.counter + 1 })
    if s1.rd Obj.wakeAlarmS ≠ 0 ∧ s1.rdN Obj.wakeAlarmS = s1.counterLow then
      (if vinInRange s1.power.vin then .next ((s1.wr Obj.wakeAlarmS 0).doReset (if s.boot.slept then 64 else 0))
       else .next ((s1.wr Obj.wakeMissed 1).modPower (fun p => { p with missDue := true })))
    else .next s1

/-- `STANDBY_SUPPLY_LOSS` (R111): below 1.8 V while VIN is absent. -/
def execStandbySupplyLoss (s : State) : Host.Outcome State Fault Refusal :=
  if s.boot.stage = .off ∧ !vinInRange s.power.vin then
    .next (s.modPower (fun p => { p with standbyLost := true }))
  else .next s

/-- `TRANSITION_BEGIN` (R528): 10 ms after the response was placed or handed over; not within a hold-up (R65). -/
def execTransitionBegin (s : State) : Host.Outcome State Fault Refusal :=
  match s.boot.transT with
  | none => .next s
  | some t0 => if s.boot.holdup then .next s else .next (s.atT (t0 + 10 * msCycles)).beginTransition

end Sys2Proof.Machine
end

