-- ==== Sys2Proof/Machine/HostOps.lean ====
section
/-! DEFINITION. The host window (R127 to R136): reads, writes of one word, the doorbells and the buffers of the mailboxes. -/

namespace Sys2Proof.Machine

/-- A word of a window register. -/
def word32 (v : Nat) : Word := BitVec.ofNat 32 v

/-! ## Reading the window (R127, R128, R131, R132) -/

/-- The words 0x054 to 0x060 as they stand. -/
def State.tsWords (s : State) : List Word := [s.host.tsSubns, s.host.tsNs, s.host.tsSecLo, s.host.tsSecHi]
/-- The words 0x010 and 0x014. -/
def serialWords : List Word := [(Config.serial 0).setWidth 32, ((Config.serial 0) >>> 32).setWidth 32]

/-- A register of 0x000 to 0x7FF; a WO register and an unlisted address read 0. -/
def State.regRead (s : State) (a : Nat) : Word :=
  let h := s.host
  match a with
  | 0x000 => if s.variant = .f4 then 0x34120004 else 0x34120002
  | 0x004 => word32 (Config.hwRev 0).toNat
  | 0x008 => word32 s.fwVersion
  | 0x00C => 1
  | 0x010 => (if h.serialSnap.isEmpty then serialWords else h.serialSnap).getD 0 0
  | 0x014 => (if h.serialSnap.isEmpty then serialWords else h.serialSnap).getD 1 0
  | 0x020 => word32 s.modStatus
  | 0x024 => word32 s.faultSum
  | 0x028 => word32 s.power.swReset.toNat
  | 0x030 => h.irqFlags
  | 0x034 => h.irqEn
  | 0x038 => s.irqPend
  | 0x040 => h.hbModule
  | 0x044 => h.hbHost
  | 0x054 => h.tsSnap.getD 0 0
  | 0x058 => h.tsSnap.getD 1 0
  | 0x05C => h.tsSnap.getD 2 0
  | 0x060 => h.tsSnap.getD 3 0
  | 0x078 => word32 s.mbStatus
  | 0x07C => h.mbErr
  | 0x080 => word32 (h.lastResult + 65536 * (h.frameCnt % 65536))
  | 0x084 => word32 (h.errCrc + 65536 * h.errCut)
  | 0x088 => word32 (h.errFmt + 65536 * h.errGap)
  | 0x08C => word32 h.winIgnored
  | 0x090 => word32 h.streamDrop
  | _ => 0

/-- The mailbox an address of 0x800 to 0xFFF belongs to, and the byte offset within its two buffers. -/
def mbOf (a : Nat) : Fin 4 := Fin.ofNat 4 ((a - 0x800) / 0x200)
def mbOff (a : Nat) : Nat := (a - 0x800) % 0x200

/-- A word of the window. -/
def State.windowRead (s : State) (a : Nat) : Word :=
  if 0x1000 ≤ a then 0
  else if 0x800 ≤ a then
    let m := s.mb.get (mbOf a)
    if mbOff a < 0x100 then (if m.inBusy then 0 else m.inBuf.getD (mbOff a / 4) 0)
    else (if m.outFull then m.outBuf.getD ((mbOff a - 0x100) / 4) 0 else 0)
  else s.regRead a

/-- The snapshot groups a read frame's accepted header covers are taken (R128). -/
def State.snapshot (s : State) (addr count : Nat) : State :=
  let covers := fun (low : Nat) => decide (addr ≤ low ∧ low < addr + 4 * count)
  s.modHost (fun h => { h with
    serialSnap := if covers 0x010 then serialWords else h.serialSnap
    tsSnap := if covers 0x054 then s.tsWords else h.tsSnap })

/-! ## Writing the window -/

/-- A word ignored (R131). -/
def State.winIgnore (s : State) : State :=
  s.modHost (fun h => { h with winIgnored := min (h.winIgnored + 1) 0xFFFFFFFF })

/-- The host releases an OUT buffer (R134): a waiting response enters it (R139), or the transition whose response it held
begins (R528). -/
def State.releaseOut (n : Fin 4) (s : State) : State :=
  if !(s.mb.get n).outFull then s
  else
    let s1 := (s.modMb n (fun m => { m with outBuf := [], outFull := false })).clrIrq n.val
    match (s.mb.get n).respWait with
    | some ws => (s1.modMb n (fun m => { m with respWait := none })).placeOut n ws |>.transPlaced (.mb n)
    | none =>
      match s.boot.transition with
      | some (_, .mb k) => if k = n ∧ s.boot.transT.isSome then s1.beginTransition else s1
      | _ => s1

/-- The host passes an IN buffer, or overflows (R133, R135). -/
def State.passIn (n : Fin 4) (s : State) : State :=
  if (s.mb.get n).inBusy then
    ((s.modHost (fun h => { h with mbErr := word32 (putBit h.mbErr.toNat n.val true) })).setIrq 12).reportM 0xF402 (mkInst n.val 0) 0
  else (s.modMb n (fun m => { m with inBusy := true })).clrIrq (4 + n.val)

/-- A doorbell word (R133, R134). -/
def State.writeDbIn (w : Word) (s : State) : State :=
  forAll units4 (fun n x => if w.getLsbD n.val then x.passIn n else x) s
def State.writeDbOut (w : Word) (s : State) : State :=
  forAll units4 (fun n x => if w.getLsbD n.val then x.releaseOut n else x) s

/-- `TS_CTRL` (R130): the station time at the end of the frame, within ±40 ns, and whether Leaven is locked; a second latch before the first is
complete
is ignored and counted. -/
def State.writeTsCtrl (w : Word) (s : State) : State :=
  if w ≠ 1 then s
  else if s.time.tsPending.isSome then s.winIgnore
  else
    let v := s.time.station + clampR (-40) 40 (Config.tsError s.freeNo)
    (s.modTime (fun t => { t with tsPending := some v, tsLock := decide (t.lv0.st = .locked) })).drew

/-- `HB_HOST` (R368): a write that changes the value is one beat where `HB_SRC` counts it. -/
def State.writeHbHost (w : Word) (s : State) : State :=
  if s.host.hbHost = w then s
  else
    let s1 := s.modHost (fun h => { h with hbHost := w })
    if s.rdBit Obj.hbSrc 0 then s1.hostBeat else s1

/-- `IRQ_FLAGS` (R129). -/
def State.writeIrqFlags (w : Word) (s : State) : State := s.modHost (fun h => { h with irqFlags := h.irqFlags &&& ~~~ w })

/-- `HOST_CNT_CLR` (R127). -/
def State.writeHostCntClr (w : Word) (s : State) : State :=
  if w = 1 then s.modHost (fun h => { h with errCrc := 0, errCut := 0, errFmt := 0, errGap := 0, winIgnored := 0, streamDrop := 0 })
  else s

/-- A word written into an IN buffer the host owns (R133). -/
def State.writeIn (n : Fin 4) (i : Nat) (w : Word) (s : State) : State :=
  s.modMb n (fun m => { m with inBuf := (List.range 64).map (fun j => if j = i then w else m.inBuf.getD j 0) })

/-- One word of an accepted write frame (R127, R131, R132); a module in reset or unpowered takes none. -/
def State.windowWrite (a : Nat) (w : Word) (s : State) : State :=
  if !s.resetOver then s
  else if 0x1000 ≤ a then s.winIgnore
  else if 0x800 ≤ a then
    (if mbOff a < 0x100 ∧ !(s.mb.get (mbOf a)).inBusy then s.writeIn (mbOf a) (mbOff a / 4) w else s.winIgnore)
  else match a with
    | 0x030 => s.writeIrqFlags w
    | 0x034 => s.modHost (fun h => { h with irqEn := w &&& 0x7FFF })
    | 0x044 => s.writeHbHost w
    | 0x050 => s.writeTsCtrl w
    | 0x070 => s.writeDbIn w
    | 0x074 => s.writeDbOut w
    | 0x07C => s.modHost (fun h => { h with mbErr := h.mbErr &&& ~~~ w })
    | 0x094 => s.writeHostCntClr w
    | _ => s.winIgnore

/-- Words written in ascending address order (R122, R132). -/
def State.windowWrites : Nat → List Word → State → State
  | _, [], s => s
  | a, w :: ws, s => State.windowWrites (a + 4) ws (s.windowWrite a w)

end Sys2Proof.Machine
end

