-- ==== Sys2Proof/Machine/CmdOps.lean ====
section
/-! DEFINITION. Taking firmware commands (R137, R138, R145, R162 to R165): the mailbox lists, the order of checks, and the
helpers of the commands of chapter 5: persistence and clearing of faults (R361, R362), start conditions (R294), sessions
(R488 to R491), station clock steps (R426). -/

namespace Sys2Proof.Machine

/-! ## What a source may send (step 3 of R145) -/

/-- The commands a mailbox accepts, R137. -/
def mbCodes (n : Fin 4) : List Nat :=
  if n = 0 then [cEcho, cGet, cLoafState, cGroupState, cMove, cSwapBank, cFaultAck, cFaultClear, cPairHandover]
  else if n = 1 then [cEcho, cGet, cSet, cGetBlock, cSetBlock, cCalZero, cCalFull, cCaptureArm, cInject, cTimeStep,
    cSafetyLoad, cSafetyAccept, cUpdateBegin, cUpdateChunk, cUpdateCommit]
  else if n = 2 then [cEcho, cGet, cGetBlock, cCaptureRead, cSubscribe]
  else [cEcho, cSessionOpen, cSessionAuth, cSessionClose]
/-- The commands a network connection refuses: those of sessions, and `SWAP_BANK`, which travels only on MB0 (R154, R165, R415). -/
def sessionCodes : List Nat := [cSessionOpen, cSessionAuth, cSessionClose, cSwapBank]
/-- The source accepts the code. -/
def pathAccepts (src : Source) (code : Nat) : Bool := match src with
  | .mb n => (mbCodes n).contains code
  | .net _ => !sessionCodes.contains code

/-! ## Roles (step 5) -/

/-- Word `i` of a payload, 0 beyond its end. -/
def pw (ws : List Word) (i : Nat) : Nat := (ws.getD i 0).toNat

/-- OPERATOR may make the write (R484). -/
def operatorMay (w : Word × List Word) : Bool :=
  let idx := awAddr w.1 / 0x100
  let sub := awAddr w.1 % 0x100
  if idx = 0x1001 ∧ sub = 2 then decide (w.2 ≠ [2] ∧ w.2 ≠ [4])
  else [(0x1007, 5), (0x6300, 3), (0x6100, 2), (0x6100, 3), (0xB005, 1)].contains (idx, sub)
    || (isClear idx sub && !decide (idx = 0x6100 ∧ sub = 9))

/-- Kind of the open update transfer. -/
def State.xferKind (s : State) : Option Nat := s.cmd.xfer.map (fun x => x.kind)

/-- The role may issue the command (R162, R163); `role` 0 is no session. -/
def State.roleMay (s : State) (src : Source) (role code : Nat) (ws : List Word) : Bool :=
  let eng := decide (3 ≤ role)
  let net := match src with
    | .mb _ => false
    | .net _ => true
  if [cEcho, cGet, cGetBlock, cSessionOpen, cSessionAuth, cSessionClose].contains code then true
  else if code = cCaptureRead then decide (1 ≤ role)
  else if code = cSubscribe then decide (1 ≤ role) && !decide (pw ws 0 / 65536 % 256 = (if net then 0 else 1))
  else if [cGroupState, cMove, cPairHandover, cFaultAck, cFaultClear].contains code then decide (2 ≤ role)
  else if code = cSet then eng || (decide (role = 2) && (splitSet ws 64).1.all operatorMay)
  else if code = cUpdateBegin then (if pw ws 0 = 0 ∧ ws ≠ [] then decide (role = 5) else eng)
  else if code = cUpdateChunk ∨ code = cUpdateCommit then (if s.xferKind = some 0 then decide (role = 5) else eng)
  else if code = cSafetyLoad ∨ code = cSafetyAccept then decide (role = 4)
  else if code = cInject then (if pw ws 1 = 1 then decide (role = 5) else eng)
  else eng

/-! ## Module states (step 6) -/

/-- The module state accepts the command, R162. -/
def State.modeMay (s : State) (code : Nat) (ws : List Word) : Bool :=
  let config := decide (s.mode = .config)
  let ready := decide (s.mode = .ready)
  let oper := decide (s.mode = .operational)
  if [cSetBlock, cSwapBank, cCaptureArm, cUpdateBegin, cUpdateChunk, cTimeStep].contains code then config || ready || oper
  else if [cLoafState, cGroupState, cMove, cPairHandover].contains code then ready || oper
  else if [cCalZero, cCalFull, cSafetyLoad, cSafetyAccept].contains code then config || ready
  else if code = cInject then ready || oper || (config && decide (pw ws 1 ≠ 1))
  else if code = cUpdateCommit then config || (ready && decide (s.xferKind ≠ some 1))
  else config || ready || oper || decide (s.mode = .safe)

/-! ## Payload encodings (step 7) -/

/-- An address word without encoding error, of a TYPE R147 lists. -/
def awSound (w : Nat) : Bool := decide (w / 32 % 8 = 0 ∧ 1 ≤ w % 16 ∧ w % 16 ≤ 8)
/-- The same for a scalar TYPE. -/
def awScalar (w : Nat) : Bool := decide (w / 32 % 8 = 0 ∧ 1 ≤ w % 16 ∧ w % 16 ≤ 7)
/-- Inputs of converter `k` (R158). -/
def convInputs (k : Nat) : Nat := if k = 4 then 2 else if k = 5 then 8 else 9
/-- A word with COUNT 1 to 240 and FINAL, and the payload length it asks for. -/
def countFinal (w len : Nat) : Bool :=
  decide (w / 256 % 2 ^ 23 = 0 ∧ 1 ≤ w % 256 ∧ w % 256 ≤ 240 ∧ len = 3 + (w % 256 + 3) / 4)
/-- The payload of a `CAL_ZERO` or `CAL_FULL` names an input. -/
def calSound (w : Nat) : Bool := decide (w < 65536 ∧ w % 256 ≤ 5 ∧ w / 256 < convInputs (w % 256))

/-- `SUBSCRIBE`, R172. -/
def subscribeSound (ws : List Word) : Bool :=
  let w := pw ws 0
  let p := pw ws 1
  let src := w / 2 ^ 24
  decide (w % 256 ≤ 7 ∧ w / 256 % 256 ≤ 1 ∧ w / 65536 % 256 ≤ 1 ∧ src ≤ 2)
    && (if w / 256 % 256 = 0 then decide (ws.length = 1)
        else if src = 0 then decide (ws.length = 2 ∧ p < 65536 ∧ p / 16 % 16 = 0 ∧ 1 ≤ p / 256)
        else if src = 1 then
          decide (p < 2 ^ 24 ∧ 1 ≤ p % 65536 ∧ p % 65536 ≤ 1000 ∧ 1 ≤ p / 65536 ∧ p / 65536 ≤ 8
            ∧ ws.length = 2 + p / 65536) && (ws.drop 2).all (fun a => awScalar a.toNat)
        else decide (ws.length = 2 ∧ p = 0))

/-- Nanoseconds of a `TIME_STEP` MODE 1, R161. -/
def nsSound (sec ns : Int) : Bool :=
  decide (-999999999 ≤ ns ∧ ns ≤ 999999999) && (decide (sec = 0 ∨ ns = 0) || (decide (sec < 0) == decide (ns < 0)))

/-- LEN and encoding of the drive, fault and calibration commands (R149, R156, R158). -/
def soundDrive (code : Nat) (ws : List Word) : Bool :=
  let n := ws.length
  let w := pw ws 0
  if code = cSwapBank then decide (n = 1 ∧ 1 ≤ w ∧ w < 16)
  else if code = cLoafState then decide (n = 1 ∧ w < 65536 ∧ w % 256 ≤ 3 ∧ w / 256 ≤ 2)
  else if code = cGroupState then decide (n = 1 ∧ w < 65536 ∧ w % 256 ≤ 3 ∧ w / 256 ≤ 1)
  else if code = cMove then decide (n = 3 ∧ w < 65536 ∧ w % 256 ≤ 3 ∧ w / 256 ≤ 3
    ∧ (if w / 256 = 2 then pw ws 2 < 65536 else pw ws 2 = 0))
  else if code = cFaultAck ∨ code = cFaultClear then decide (n = 1)
  else if code = cCalZero then decide (n = 1) && calSound w
  else decide (n = 2) && calSound w
    && decide (-32767 ≤ signExt 32 (pw ws 1) ∧ signExt 32 (pw ws 1) ≤ 32767)

/-- LEN and encoding of the session, update, safety, injection and time commands (R149, R160, R161, R495). -/
def soundAdmin (code : Nat) (ws : List Word) : Bool :=
  let n := ws.length
  let w := pw ws 0
  let x := pw ws 1
  if code = cSessionOpen then decide (n = 1 ∧ w < 65536 ∧ 1 ≤ w % 256 ∧ w % 256 ≤ 5 ∧ w / 256 ≤ 15)
  else if code = cSessionAuth then decide (n = 8)
  else if code = cSessionClose ∨ code = cUpdateCommit ∨ code = cPairHandover then decide (n = 0)
  else if code = cUpdateBegin then decide (n = 2 ∧ w ≤ 1 ∧ (w = 0 → 1 ≤ x ∧ x ≤ 458752))
  else if code = cUpdateChunk then decide (3 ≤ n ∧ 1 ≤ x ∧ x ≤ 240 ∧ n = 2 + (x + 3) / 4)
  else if code = cSafetyLoad then decide (w ≤ 3) && countFinal (pw ws 2) n
  else if code = cSafetyAccept then decide (n = 2 ∧ w ≤ 3)
  else if code = cInject then decide (n = 2 ∧ x ≤ 1)
  else (decide (w = 0) && decide (n = 1))
    || (decide (w = 1) && decide (n = 3) && nsSound (signExt 32 x) (signExt 32 (pw ws 2)))

/-- LEN and encoding of a command (R149); field bits the layout leaves undefined are 0. -/
def encodingOk (code : Nat) (ws : List Word) : Bool :=
  let n := ws.length
  if code = cEcho then true
  else if code = cGet then decide (1 ≤ n ∧ n ≤ 31) && ws.all (fun a => awScalar a.toNat)
  else if code = cSet then decide (2 ≤ n) && (splitSet ws 64).2
  else if code = cGetBlock then decide (n = 3 ∧ 1 ≤ pw ws 2 ∧ pw ws 2 ≤ 248) && awSound (pw ws 0)
  else if code = cSetBlock then awSound (pw ws 0) && countFinal (pw ws 2) n
  else if code = cCaptureArm then decide (n = 1 ∧ 1 ≤ pw ws 0 ∧ pw ws 0 ≤ 3)
  else if code = cCaptureRead then decide (n = 3 ∧ pw ws 0 ≤ 0xFFFF ∧ pw ws 1 % 4 = 0 ∧ pw ws 2 % 4 = 0
    ∧ 4 ≤ pw ws 2 ∧ pw ws 2 ≤ 240)
  else if code = cSubscribe then subscribeSound ws
  else if [cSwapBank, cLoafState, cGroupState, cMove, cFaultAck, cFaultClear, cCalZero, cCalFull].contains code then
    soundDrive code ws
  else soundAdmin code ws

/-! ## The order of checks (R145) -/

/-- Steps 3 to 7: 0 where they pass. Steps 8 and 9 belong to each command. -/
def State.check (s : State) (src : Source) (role code : Nat) (ws : List Word) : Nat :=
  if !pathAccepts src code then stAccess
  else if s.mode = .boot ∧ code ≠ cEcho ∧ code ≠ cGet then stBusy
  else if !s.roleMay src role code ws then stAccess
  else if s.mode ≠ .boot ∧ !s.modeMay code ws then stState
  else if !encodingOk code ws then stLength
  else 0

/-- The transfer that stages the safety set of a number (R160). -/
def State.setXfer (s : State) (n : Nat) : Option Transfer := s.cmd.setXfers.find? (fun x => x.kind == 2 + n)
/-- A staging transfer written in place of the one of its set. -/
def State.putSet (t : Transfer) (s : State) : State :=
  s.modCmd (fun c => { c with setXfers := c.setXfers.filter (fun x => x.kind != t.kind) ++ [t] })
/-- The staged safety set of a number from a source is discarded (R142, R397). -/
def State.dropSet (src : Source) (n : Nat) (s : State) : State :=
  s.modCmd (fun c => { c with setXfers := c.setXfers.filter (fun x => !(decide (x.src = src) && x.kind == 2 + n)) })

/-- What a refused command leaves behind, R142. -/
def State.refusedEffects (src : Source) (code status : Nat) (ws : List Word) (s : State) : State :=
  if code = cSafetyLoad ∧ (pw ws 2).testBit 31 ∧ (status = stCrc ∨ status = stLength ∨ status = stState) then
    s.dropSet src (pw ws 0)
  else if code = cUpdateCommit ∧ status = stCrc then s.modCmd (fun c => { c with xfer := none })
  else if code = cSessionAuth ∧ (status = stState ∨ status = stCrc) then s.modSec (fun x => { x with challenge := none })
  else s

/-- The executing command of a source is refused. -/
def State.deny (src : Source) (j : Job) (status : Nat) (s : State) : State :=
  (s.refusedEffects src j.code status j.payload).respond src status []

/-! ## Taking a command -/

/-- The role a command of a source carries now (R165). -/
def State.roleOf (s : State) (src : Source) : Nat := match src with
  | .mb _ => s.hostRole
  | .net c => (s.net.conns.get c).role

/-- A command of a source is taken: refused at once by the first failing check, or executing (R137, R145, R178). -/
def State.takeCommand (src : Source) (w0 : Word) (rest : List Word) (s : State) : State :=
  let s1 := s.bump Obj.cmdTaken
  let ws := (List.range (cmdLen w0)).map (fun i => rest.getD i 0)
  let role := s.roleOf src
  let status :=
    if 63 < cmdLen w0 then stLength
    else if !allCodes.contains (cmdCode w0) then stUnknown
    else s.check src role (cmdCode w0) ws
  if status = 0 then
    s1.setJob src (some { code := cmdCode w0, tag := cmdTag w0, payload := ws, role := role, waiting := false })
  else (s1.refusedEffects src (cmdCode w0) status ws).answer src (cmdCode w0) (cmdTag w0) status []

/-- A mailbox's command may be taken (R138); a response that waits for the OUT buffer is still the command's. -/
def State.takeable (s : State) (n : Fin 4) : Bool :=
  let m := s.mb.get n
  m.inBusy && !m.outFull && m.job.isNone && m.respWait.isNone

/-- A connection's command may be taken: its last response has been sent (R415). -/
def State.takeableConn (s : State) (c : Fin 4) : Bool :=
  let k := s.net.conns.get c
  k.open_ && k.tls && k.job.isNone && !k.queue.isEmpty

/-- A source's command may be taken now. -/
def State.takeableSrc (s : State) (src : Source) : Bool := match src with
  | .mb n => s.takeable n
  | .net c => s.takeableConn c

/-- Its place in the rotation: MB1 to MB3, then the connections (R165). -/
def turnOf (src : Source) : Nat := match src with
  | .mb n => n.val
  | .net c => 4 + c.val

/-- The source served next: MB0, else MB1 to MB3 and the connections in round-robin after the last served (R138, R165). -/
def State.nextSource (s : State) : Option Source :=
  if s.takeable 0 then some (.mb 0)
  else
    let dist := fun (x : Source) => (turnOf x + 6 - s.cmd.rr) % 7
    ((([1, 2, 3].map Source.mb) ++ units4.map Source.net).filter (fun x => s.takeableSrc x)).foldl
      (fun b x => match b with
        | none => some x
        | some y => if dist x < dist y then some x else some y) none

/-- The command in the IN buffer of mailbox `n` is taken and the buffer handed back (R133, R138, R139). -/
def State.takeMailbox (n : Fin 4) (s : State) : State :=
  let m := s.mb.get n
  let s1 := (s.modMb n (fun x => { x with inBusy := false })).setIrq (4 + n.val)
  let s2 := s1.modCmd (fun c => { c with
    rr := if n = 0 then c.rr else n.val
    mb2Ahead := if n = 2 then c.mb2Queue.length else c.mb2Ahead })
  (s2.modSec (fun x => { x with cmdT := s.time.now })).takeCommand (.mb n) (m.inBuf.getD 0 0)
    ((List.range 63).map (fun i => m.inBuf.getD (i + 1) 0))

/-- The oldest command of a connection is taken (R165, R415). -/
def State.takeConn (c : Fin 4) (s : State) : State :=
  match (s.net.conns.get c).queue with
  | (w :: rest) :: more =>
    ((s.modCmd (fun m => { m with rr := 4 + c.val })).modConn c (fun k => { k with queue := more })).takeCommand (.net c) w rest
  | _ => s

/-- A command of a source runs: nothing where the source has none of the kind; refused where a check fails now. -/
def State.run (src : Source) (code : Nat) (p : Job → Bool) (f : Job → State → State) (s : State) : State :=
  match s.jobOf src with
  | none => s
  | some j =>
    if j.code ≠ code ∨ j.waiting ∨ !p j then s
    else
      let st := s.check src j.role j.code j.payload
      (if st = 0 then f j s else s.deny src j st).settle

/-- A waiting command of a source with the given code. -/
def State.waitingJob (s : State) (src : Source) (code : Nat) : Option Job :=
  (s.jobOf src).filter (fun j => j.waiting && j.code == code)

/-! ## Start conditions (R294, R305) -/

/-- Ticks of a frame of the loaf as configured (R179, R186, R187). -/
def State.cfgFrameTicks (s : State) (n : Fin 4) : Nat :=
  let p := s.rdN (Obj.period n.val)
  if s.rd (Obj.peakReload n.val) = 1 then p
  else (if s.rdN (Obj.cntMode n.val) = 0 then p else 2 * p) * s.rdN (Obj.frameLen n.val)
/-- Ticks of the loaf's present frame: the running counter's, or those its objects give. -/
def State.nowFrameTicks (s : State) (n : Fin 4) : Nat :=
  if (s.loaf.get n).running then s.frameTicks n else s.cfgFrameTicks n

/-- The Starter's needs, R305. -/
def State.starterNeeds (s : State) (g : Fin 4) : Bool :=
  let st := s.rdN (Obj.starter g.val)
  let mode := (s.posFb g).map (fun c => s.rd (Obj.fbMode c.val))
  let ref := match s.posFb g with
    | some c => (s.fb.get c).posRef
    | none => false
  if st = 0 then decide (mode = some 3 ∨ mode = some 4) || ref
  else if st = 1 then (match s.posFb g with
    | some c => decide (s.rd (Obj.fbMode c.val) = 1 ∨ s.rd (Obj.fbMode c.val) = 5) && decide (s.rd (Obj.idxMode c.val) ≠ 0)
    | none => false)
  else if st = 2 then
    decide (s.rdN (Obj.startHallCh g.val) < 4) && decide (s.rd (Obj.fbMode (s.rdN (Obj.startHallCh g.val))) = 2)
  else if st = 3 then (match s.bound g with
    | n :: _ => decide (8 * s.rdN (Obj.hfiFreq g.val) * s.cfgFrameTicks n ≤ 200000000)
    | [] => false)
  else (s.posFb g).isSome

/-- A start of the group is accepted (R294, R393, R460). -/
def State.startOk (s : State) (g : Fin 4) : Bool :=
  decide ((s.grp.get g).st = .stopped) && (s.bound g).any (fun n => s.canClose n)
    && !decide (s.rd (Obj.ctrlMode g.val) = 2 ∧ s.rd (Obj.posCh g.val) = 255) && s.starterNeeds g
    && (decide (s.rd Obj.guardReact = 0) || s.safety.guardPass) && !s.follows g

/-! ## FAULT_CLEAR (R157, R204, R361, R362) -/

/-- Causes only a reset ends, R99: of CK_SAFE its stop, not a deviation. -/
def State.resetOnlyCode (s : State) (code : Half) : Bool :=
  ([0xE401, 0xF001, 0xE009, 0x9801, 0x9802, 0x9C01, 0x9C04] : List Half).contains code
    || (code == 0x9C02 && s.power.ckSafeStop)

/-- The latched sources of a protection trip code on loaf `n`: source 8 to 11 share 0x5401. -/
def tripSources (code : Nat) : List Nat :=
  if 0x4010 ≤ code ∧ code ≤ 0x4017 then [code - 0x4010]
  else if 0x4020 ≤ code ∧ code ≤ 0x4027 then [code - 0x4020]
  else if code = 0x5401 ∨ code = 0x5411 then [8, 9, 10, 11]
  else if code = 0x5402 ∨ code = 0x5412 then [12]
  else if code = 0x5403 ∨ code = 0x5413 then [13]
  else []

/-- Level conditions of regions and supplies that hold now. A level read back differs from its command while the command is still
other than the level found (R70, R377, R391; log entry 189). -/
def State.persistsHigh (s : State) (c i : Nat) : Bool :=
  if c = 0xE001 then s.power.vinUnderNow
  else if (0xE002 ≤ c ∧ c ≤ 0xE008) ∨ c = 0xA001 then
    s.power.asserted.any (fun m => (monCode m).1.toNat == c && (monCode m).2.toNat == i)
  else if c = 0xA002 then decide (1 ≤ (if i = 0 then s.power.hotC else s.power.hotM))
  else if c = 0xA003 then decide (2 ≤ (if i = 0 then s.power.hotC else s.power.hotM))
  else if c = 0x9C02 then s.power.ckSafeBad
  else if c = 0x9C03 then s.power.ckAdcBad && !s.power.ckAdcBack
  else if c = 0xDC01 then s.power.standbyClkBad
  else if c = 0xE403 then s.power.swDiscrep.getLsbD i
  else if c = 0xE404 then s.viewOf .c 0 != s.viewOf .c 1 || s.viewOf .m 0 != s.viewOf .m 1
  else if c = 0xE408 then s.viewOf .c 2 != s.viewOf .c 3 || s.viewOf .m 2 != s.viewOf .m 3
  else if c = 0xE405 then [0, 1, 2, 3].any (fun k => k.val % 2 == i && s.viewOf .c k != s.viewOf .m k)
  else if c = 0xE406 then
    (if i = 0 then s.safety.genBackC.any (fun b => b != s.safety.genC) else s.safety.genBackM.any (fun b => b != s.safety.genM))
  else if c = 0xE407 then (if i = 0 then s.safety.brkA && s.safety.brkShutA else s.safety.brkB && s.safety.brkShutB)
  else if c = 0x8001 then (if i = 0 then s.haltC else s.haltM)
  else if c = 0xE801 then s.time.lv0.jump
  else if c = 0xE802 then decide (s.time.lv0.st = .holdover)
  else if c = 0xEC01 then s.pair.lost
  else if c = 0xEC03 then s.pair.partner && s.pair.roleAct
  else if c = 0xF401 then
    s.flt.hbArmed && decide (s.rd Obj.hbTimeout ≠ 0)
      && s.flt.lastBeat.any (fun t => decide (s.rdN Obj.hbTimeout * msCycles < s.time.now - t))
  else false

/-- The trip sources that reported code `c` for loaf `i` with leg `sub` last (R204, R341). -/
def State.sourcesOf (s : State) (c i sub : Nat) : List Nat :=
  (tripSources c).filter (fun k => (s.loaf.get (Fin.ofNat 4 i)).tripLegs.contains (k, sub))

/-- Level and run conditions of converters, loaves and groups that hold now (R361). -/
def State.persistsLow (s : State) (c i sub : Nat) : Bool :=
  let n := Fin.ofNat 4 i
  let o := s.oven.get n
  let x := s.grp.get n
  if tripSources c ≠ [] then
    (s.sourcesOf c i sub).any (fun k => s.tripOn k n)
  else if c = 0x0001 then
    (s.loaf.get n).padBack.any (fun x => x.1 == sub && (s.gatePadsAt n (8 * s.time.now)).getD sub false != x.2)
  else if c = 0x0002 then (s.loaf.get n).genBack.any (fun b => b != s.genN n)
  else if c = 0x4001 then decide (s.rd (Obj.lateRun i) ≠ 0)
  else if c = 0x0401 then s.owBeyond i sub (s.rd (Obj.chResult i sub))
  else if c = 0x4401 ∨ c = 0x4402 then !s.power.refReady.get (Fin.ofNat 6 i)
  else if c = 0x4405 then (s.conv.get (Fin.ofNat 6 i)).failed
  else if c = 0x4403 then decide (s.rd (Obj.plausRun (2 * i)) ≠ 0)
  else if c = 0x4803 then (s.fb.get n).ampBad && decide (s.rd (Obj.fbMode i) = 5)
  else if c = 0x4805 then (hallSector (s.fb.get n).a (s.fb.get n).b (s.fb.get n).z).isNone && decide (s.rd (Obj.fbMode i) = 2)
  else if 0x5001 ≤ c ∧ c ≤ 0x5005 then decide (runAt o.runs (c - 0x5001) ≠ 0)
  else if c = 0x4C01 then decide (o.udcRun ≠ 0)
  else if c = 0x4C02 then decide (o.vlimRun ≠ 0)
  else if c = 0x4C06 then decide (o.incRun ≠ 0)
  else if c = 0x5404 then o.opDone
  else if c = 0x5405 then s.roleLost n (sub + 1)
  else if c = 0x5406 then decide (s.currentsHeld n < 2) && !s.reconOk n
  else if c = 0x4C04 then s.fbBad n
    || (x.st.active && !s.spdOk n && decide (q16 (s.actG n (Obj.stallSpeed i)) < absR x.v))
  else if c = 0x4C07 then x.spdSaid
  else if c = 0x4C09 then x.posSaid
  else if c = 0x4C0A then decide (x.staleRun ≠ 0)
  else if c = 0x5410 then x.st.active && decide ((s.closedOf n).length < s.rdN (Obj.rtMin i + s.bankOfGroup n))
  else false

/-- The condition of a pending fault persists (R361); an injected fault has none, and events never do. -/
def State.persists (s : State) (p : Pend) : Bool :=
  !p.inj && (s.persistsHigh p.code.toNat (instIndex p.inst) || s.persistsLow p.code.toNat (instIndex p.inst) (instSub p.inst))

/-- The latch bits a cleared fault is tied to (R70, R102, R204, R205, R207, R261). -/
def State.clearLatches (p : Pend) (s : State) : State :=
  let i := instIndex p.inst
  let n := Fin.ofNat 4 i
  let c := p.code.toNat
  if tripSources c ≠ [] then
    let latched := decide ((0x4010 ≤ c ∧ c ≤ 0x4017) ∨ (0x5401 ≤ c ∧ c ≤ 0x5403))
    let bits := (s.sourcesOf c i (instSub p.inst)).filter (fun k => latched && s.rdBit (Obj.tripLatch i) k)
    let s1 := forAll bits (fun k x => x.wrBit (Obj.tripLatch i) k false) s
    if (s.loaf.get n).running then
      s1.modLoaf n (fun l => { l with hold := bits.foldl (fun h k => putBit h k true) l.hold })
    else s1
  else if c = 0x0001 then (s.wrBit (Obj.readbackErr i) (instSub p.inst) false).modLoaf n (fun l => { l with
    padBack := l.padBack.filter (fun x => x.1 != instSub p.inst) })
  else if c = 0x0002 then (s.wrBit (Obj.readbackErr i) 6 false).modLoaf n (fun l => { l with genBack := none })
  else if c = 0xE406 then
    if i = 0 then s.modSafety (fun f => { f with genBackC := none }) else s.modSafety (fun f => { f with genBackM := none })
  else if c = 0x4801 then (s.modFb n (fun f => { f with slip := false })).wr (Obj.idxDevLatch i) 0
  else if c = 0x8001 then s.wrBit Obj.haltCause i false
  else if c = 0x9C03 then s.modPower (fun x => { x with ckAdcBad := false, ckAdcBack := false })
  else s

/-- One pending fault ends: its latches clear and event 4 is logged (R362). -/
def State.clearOne (p : Pend) (s : State) : State :=
  ((s.modFlt (fun f => { f with
      pend := f.pend.filter (fun x => !(x.code == p.code && x.inst == p.inst))
      windows := f.windows.filter (fun w => w != (p.code, p.inst))
      inj := f.inj.filter (fun x => !(x.live && x.code == p.code && x.inst == p.inst)) })).clearLatches p).emit
    p.code p.inst p.cls p.react (p.flags % 16) 4 1 0

/-- `FAULT_CLEAR`'s wild cards, R157. -/
def clearNames (code inst : Half) (c i : Half) : Bool := (code == 0xFFFF || code == c) && (inst == 0xFFFF || inst == i)

/-- Loaves in FAULT that no fault's reaction reaches any more enter OFF (R290). -/
def State.faultToOff (s : State) : State :=
  forAll s.loaves (fun n x => if (x.loaf.get n).st = .fault ∧ x.loafFree n then x.loafTo n .off else x) s

/-- SAFE is left for READY or CONFIG (R97, R99). -/
def State.leaveSafe (s : State) : State :=
  if s.mode = .safe ∧ !s.c4Pending ∧ !s.boot.resetOnly then
    let s1 := s.modSafety (fun f => { f with react5 := false, react6 := false })
    let s2 := s1.setMode (if s1.readyBlock = 0 then .ready else .config)
    ((s2.stoEnd .c).stoEnd .m).safetyEval
  else s

/-- Faults named and their clearing: none where one of them cannot be cleared (R157). -/
def State.clearFaults (code inst : Half) (s : State) : Option (Nat × State) :=
  let named := s.flt.pend.filter (fun p => clearNames code inst p.code p.inst)
  if named.any (fun p => s.resetOnlyCode p.code || s.persists p) then none
  else
    let s1 := forAll named State.clearOne s
    let s2 := s1.modFlt (fun f => { f with inj := f.inj.filter (fun x => !(x.live && clearNames code inst x.code x.inst)) })
    some (named.length, s2.fbFollow.faultToOff.leaveSafe)

/-! ## Sessions (R488 to R491) -/

/-- The path byte of a source, R498. -/
def auditPath (src : Source) : Nat := match src with
  | .mb _ => 0
  | .net c => 2 * c.val + 1
/-- The user a source acts for; 0xFF none. -/
def State.auditUser (s : State) (src : Source) : Nat := match src with
  | .mb _ => (s.sec.session.map (fun x => x.2)).getD 0xFF
  | .net c => (s.net.conns.get c).user
/-- An audited command. -/
def State.auditCmd (src : Source) (role event status data : Nat) (s : State) : State :=
  s.auditEvent event (auditPath src) (s.auditUser src) role status data

/-- A transfer came through a mailbox. -/
def Transfer.fromHost (x : Transfer) : Bool := match x.src with
  | .mb _ => true
  | .net _ => false

/-- The host-port session ends, with its subscriptions and transfers (R160, R177, R491, R499). -/
def State.endHostSession (why : Nat) (s : State) : State :=
  match s.sec.session with
  | none => s
  | some (role, user) =>
    ((((s.auditEvent 0x0003 0 user role 0 why).endSubs 0).modCmd (fun c => { c with
      xfer := c.xfer.filter (fun x => !x.fromHost), setXfers := c.setXfers.filter (fun x => !x.fromHost) })).modSec
        (fun x => { x with session := none }))

/-- A user of role `have` may open a session at role `want` (R482). -/
def roleOpens (have_ want : Nat) : Bool :=
  decide (have_ ≠ 0) && (decide (want = have_) || (decide (want ≤ 3) && decide (want < have_)))

/-- The key a session of a user and role authenticates against (R482, R486, R487). -/
def State.sessionKey (s : State) (role user : Nat) : Option (List Byte) :=
  if s.sec.owner.isNone then (if user = 0 ∧ role = 3 then some (sha256 (Config.commCode 0)) else none)
  else match s.sec.users[user]? with
    | some u => if roleOpens u.role role then some u.hmacKey else none
    | none => none

/-- The message a session is authenticated over, R488. -/
def sessionMsg (role user : Nat) (challenge : List Byte) : List Byte :=
  [0x50, 0x56, 0x33, 0x34, 0x31, 0x32, 0x2D, 0x53, 0x45, 0x53, 0x53] ++ leBytes 1 role ++ leBytes 1 user ++ challenge

/-- Failures, lockout length and lock of a user. -/
def State.lockOf (s : State) (user : Nat) : Nat × Nat × Option Nat := s.sec.lockouts.getD user (0, 0, none)
/-- The same written. -/
def State.setLock (user : Nat) (v : Nat × Nat × Option Nat) (s : State) : State :=
  s.modSec (fun x => { x with lockouts := ((List.range 16).map (fun i => x.lockouts.getD i (0, 0, none))).set user v })

/-- A failed authentication counts (R490). -/
def State.authFailed (role user : Nat) (s : State) : State :=
  let l := s.lockOf user
  let k := l.1 + 1
  let s1 := (s.auditEvent 0x0002 0 user role stCrc 0).reportM 0xF002 0 0
  if l.2.1 ≠ 0 ∨ s.rdN Obj.secLockN ≤ k then
    let secs := if l.2.1 = 0 then 60 else min (2 * l.2.1) 3600
    (s1.setLock user (k, secs, some s.time.now)).auditEvent 0x0004 0 user role 0 secs
  else s1.setLock user (k, l.2.1, none)

/-! ## The station clock (R426, R432) -/

/-- The station clock stepped by `d` ns. -/
def State.stepStation (d : Int) (s : State) : State :=
  (s.modTime (fun t => { t with
    station := if t.station + d < 0 then 0 else t.station + d
    stepT := some t.now
    lv0 := { t.lv0 with st := .tracking, jump := false, inRun := 0, outRun := 0 }
    unitPending := t.unitPending.mapIdx (fun u b => b || decide (s.rd (Obj.tuTrim u) = 1)) })).modNet (fun n => { n with
      syncPend := none, lastSync := none, reqLatch := none, pdLatch := [none, none] })

end Sys2Proof.Machine
end

