-- ==== Sys2Proof/Machine/PeelOps.lean ====
section
/-! DEFINITION. The Peel link (R30 to R48): the endpoints, the arbiter of a grant slot, transmission, acknowledgement and
reception. -/

namespace Sys2Proof.Machine

/-! ## Endpoints -/

/-- The endpoint of a region. -/
def State.peel (s : State) (r : Region) : PeelEnd := match r with
  | .c => s.peelC
  | .m => s.peelM
/-- An endpoint changed. -/
def State.modPeel (r : Region) (f : PeelEnd → PeelEnd) (s : State) : State := match r with
  | .c => { s with peelC := f s.peelC }
  | .m => { s with peelM := f s.peelM }
/-- The region's side of the link works: region C out of reset, Askard running in region M. -/
def State.endUp (s : State) (r : Region) : Bool := match r with
  | .c => s.regionUp
  | .m => s.askard

/-- Packets outside the sequence: class LINK, and `SYNC`, which is never retransmitted (R36). -/
def pktSequenced (p : Packet) : Bool := decide (pktCls p ≠ 3 ∧ p.clsTyp ≠ PktKind.sync.head)

/-! ## Transmit order (R31, R32, R40 to R43) -/

/-- The order of a waiting packet, lowest first: CTL, DAT `RECORD`, DAT `CAPTURE`, MGT. -/
def pktRank (p : Packet) : Nat :=
  if pktCls p = 3 then 0 else if pktCls p = 0 then 1
  else if p.clsTyp = PktKind.record.head then 2 else if pktCls p = 1 then 3 else 4

/-- What waits at an endpoint by arbiter source: its queue, and in region C the frame records (R17, R31). -/
def State.peelWaiting (s : State) (r : Region) : List (Nat × Packet × Nat) := match r with
  | .m => s.peelM.waiting
  | .c => s.peelC.waiting ++ s.loaves.filterMap (fun n =>
      ((s.oven.get n).queue.head?).map (fun b => (n.val, pkt .record b, 0)))

/-- Sources of a region arbiter: four loaves and the capture memory, or four mailboxes and four sessions (R41). -/
def arbSources (r : Region) : Nat := match r with
  | .c => 5
  | .m => 8

/-! ## Bandwidth (R33) -/

/-- The limit of a traffic row in bytes per millisecond on the link, by the order of `pktRank`: LINK, CTL, `RECORD`,
`CAPTURE`; management traffic takes the remainder. -/
def bwLimit (v : Variant) (r : Region) (rank : Nat) : Option Nat :=
  match r, rank with
  | _, 0 => some 4000
  | .c, 1 => some 6000
  | .m, 1 => some 1000
  | .c, 2 => some (if v = .f4 then 28800 else 14400)
  | .c, 3 => some 50000
  | _, _ => none

/-- Byte times of a packet on the link (R30). -/
def pktLen (p : Packet) : Nat := p.payload.length + 8

/-- The bytes of a traffic row an endpoint has sent in the running millisecond. -/
def PeelEnd.bwUsed (e : PeelEnd) (now rank : Nat) : Nat := if now < e.bwT + msCycles then e.bw.getD rank 0 else 0

/-- A packet put on the link is counted in its row; the first after a millisecond begins the next (DESIGN CHOICE: R33 gives
rates and no interval they are taken over, log entry 150). -/
def PeelEnd.bwAdd (e : PeelEnd) (now : Nat) (p : Packet) : PeelEnd :=
  { e with
    bwT := if now < e.bwT + msCycles then e.bwT else now
    bw := (List.range 5).map (fun i => e.bwUsed now i + if i = pktRank p then pktLen p else 0) }

/-- A new packet may leave within its row's limit (R33). -/
def State.bwRoom (s : State) (r : Region) (p : Packet) : Bool :=
  match bwLimit s.variant r (pktRank p) with
  | some l => decide ((s.peel r).bwUsed s.time.now (pktRank p) + pktLen p ≤ l)
  | none => true

/-! ## Sending -/

/-- A `SYNC` payload, formed as its start characters leave: station time in the layout of R130's words (sub-ns, ns, seconds). -/
def State.syncPayload (s : State) : List Byte :=
  let w := s.time.station
  leBytes 2 ((w - (w.floor : Rat)) * 65536).floor.toNat ++ leBytes 4 (s.stationNs % 1000000000) ++ leBytes 6 (s.stationNs / 1000000000)

/-- The packet as it goes on the link: sequence and acknowledgement numbers and the CRC filled in (R30, R35). -/
def State.peelForm (s : State) (r : Region) (seq : Nat) (p : Packet) : Packet :=
  pktSeal { p with
    seq := BitVec.ofNat 8 seq
    ackseq := BitVec.ofNat 8 (s.peel r).expect
    payload := if p.clsTyp = PktKind.sync.head then s.syncPayload else p.payload }

/-- A packet leaves; any packet carries the acknowledgement due. -/
def State.peelPut (r : Region) (p : Packet) (s : State) : State :=
  s.modPeel r (fun e => { e.bwAdd s.time.now p with sent := some p, ackDue := false })

/-- A retransmission: the next packet again, counted; of the first unacknowledged one the run grows (R36, R37). -/
def State.peelResend (r : Region) (p : Packet) (s : State) : State :=
  let q := s.peelForm r p.seq.toNat p
  let first := decide (((s.peel r).unacked.head?).map (fun x => x.seq) = some p.seq)
  ((s.peelPut r q).modPeel r (fun e => { e with
    resend := e.resend.drop 1, retxRun := if first then e.retxRun + 1 else e.retxRun
    waitT := if first then s.time.now else e.waitT })).bumpOpen Obj.peelRetx

/-- The key a CTL packet's latency is kept under. -/
def ctlKey (p : Packet) : Nat := if pktSequenced p then p.seq.toNat else 256

/-- A waiting packet leaves its queue, numbered where it is sequenced. -/
def State.peelFirst (r : Region) (w : Nat × Packet × Nat) (s : State) : State :=
  let q := s.peelForm r (s.peel r).nextSeq w.2.1
  let s1 := if w.2.1.clsTyp = PktKind.record.head then s.modOven (Fin.ofNat 4 w.1) (fun o => { o with queue := o.queue.drop 1 })
    else s.modPeel r (fun e => { e with waiting := e.waiting.erase w })
  let s2 := if pktCls q = 0 then
      s1.modPeel r (fun e => { e with ctlT := e.ctlT.filter (fun x => x.1 != ctlKey q) ++ [(ctlKey q, w.2.2)] }) else s1
  (s2.peelPut r q).modPeel r (fun e =>
    if pktSequenced q then { e with
      nextSeq := (e.nextSeq + 1) % 256, unacked := e.unacked ++ [q], waitT := if e.unacked.isEmpty then s.time.now else e.waitT }
    else if q.clsTyp = PktKind.sync.head then { e with syncT := some (q.payload, s.time.now) } else e)

/-- Waiting packets that may leave: with 64 unacknowledged only those outside the sequence (R36), and none beyond the limit
of its traffic row (R33). -/
def State.peelReady (s : State) (r : Region) : List (Nat × Packet × Nat) :=
  (s.peelWaiting r).filter (fun w =>
    (decide ((s.peel r).unacked.length < 64) || !pktSequenced w.2.1) && s.bwRoom r w.2.1)

/-- The packet a grant slot sends: among the ready ones of the highest order, CTL and DAT of region C and MGT of region M
by the arbiter, the others in order. -/
def State.peelChoose (s : State) (r : Region) : Option ((Nat × Packet × Nat) × Arb) :=
  let ready := s.peelReady r
  let rank := ready.foldl (fun m w => min m (pktRank w.2.1)) 5
  let level := ready.filter (fun w => pktRank w.2.1 == rank)
  let e := s.peel r
  if (match r with | .c => decide (rank = 4) | .m => decide (rank ≠ 4)) then level.head?.map (fun w => (w, e.arb))
  else match e.arb.grant (arbSources r) (fun b => level.any (fun w => w.1 == b)) with
    | none => none
    | some g => (level.find? (fun w => w.1 == g.1)).map (fun w => (w, g.2))

/-- A slot in which nothing else leaves: an `ACK` that is due (R35). -/
def State.peelIdle (r : Region) (s : State) : State :=
  if (s.peel r).ackDue && s.bwRoom r (pkt .ack []) then s.peelPut r (s.peelForm r (s.peel r).nextSeq (pkt .ack [])) else s

/-- One transmit opportunity of a region: a `NAK`, a retransmission, the packet chosen, or an `ACK` that nothing else
carries (R32, R35, R36), within the limits of R33. While a retransmission is held for its row's limit nothing of the sequence overtakes
it: the receiver would not take it. -/
def State.peelGrant (r : Region) (s : State) : State :=
  let e := s.peel r
  if e.nakDue && s.bwRoom r (pkt .nak []) then
    (s.peelPut r (s.peelForm r e.nextSeq (pkt .nak []))).modPeel r (fun x => { x with nakDue := false })
  else match e.resend with
    | p :: _ => if s.bwRoom r p then s.peelResend r p else s.peelIdle r
    | [] =>
      match s.peelChoose r with
      | some c => (s.modPeel r (fun x => { x with arb := c.2 })).peelFirst r c.1
      | none => s.peelIdle r

/-- The sender goes back to the first unacknowledged packet (R36), whose acknowledgement is awaited anew. -/
def State.peelBack (r : Region) (s : State) : State :=
  s.modPeel r (fun e => { e with resend := e.unacked, waitT := s.time.now })

/-! ## Receiving (R30, R35, R38) -/

/-- Packets an `ACKSEQ` acknowledges: those before it in the window. -/
def ackedBy (e : PeelEnd) (ackseq : Byte) : Nat :=
  match e.unacked with
  | [] => 0
  | p :: _ => let k := (ackseq.toNat + 256 - p.seq.toNat) % 256
    if k ≤ e.unacked.length then k else 0

/-- The acknowledged packets leave the window; the run of retransmissions ends with the packet it was of, and the next
acknowledgement is awaited from now. -/
def PeelEnd.ack (e : PeelEnd) (now : Nat) (ackseq : Byte) : PeelEnd :=
  let k := ackedBy e ackseq
  let rest := e.unacked.drop k
  { e with unacked := rest, resend := e.resend.filter (fun p => rest.any (fun q => q.seq == p.seq))
           retxRun := if k = 0 then e.retxRun else 0, waitT := if k = 0 then e.waitT else now }

/-- The other end of the link. -/
def otherEnd (r : Region) : Region := match r with
  | .c => .m
  | .m => .c

/-- A CTL packet is delivered: the highest latency from its entry into the transmit queue, in ns (R34, R48). -/
def State.ctlLatency (r : Region) (p : Packet) (s : State) : State :=
  if pktCls p ≠ 0 then s
  else match (s.peel (otherEnd r)).ctlT.find? (fun x => x.1 == ctlKey p) with
    | none => s
    | some x =>
      let s1 := s.modPeel (otherEnd r) (fun e => { e with ctlT := e.ctlT.filter (fun y => y.1 != ctlKey p) })
      let lat : Int := ((min (5 * (s.time.now - x.2)) 0xFFFFFFFF : Nat) : Int)
      if s.rd Obj.peelCtlLatMax < lat then s1.wr Obj.peelCtlLatMax lat else s1

/-- A packet of a kind reaches a region. One longer than 64 bytes is discarded; one whose CRC fails is counted and a `NAK`
becomes due; a good one acknowledges, restarts the armed timer of region M, and is accepted where it is the next of the
sequence or outside it; any sequenced one has the number expected next returned (R35). -/
def State.peelRx (r : Region) (k : PktKind) (p : Packet) (s : State) : Bool × State :=
  if !s.boot.peelTrained || !s.endUp r || decide (64 < p.payload.length) then (false, s)
  else if p.crc ≠ crc16 (pktBody p) then
    (false, (s.bumpOpen (match r with | .c => Obj.peelCrcC | .m => Obj.peelCrcM)).modPeel r (fun e => { e with nakDue := true }))
  else if p.clsTyp ≠ k.head then (false, s)
  else
    let s1 := s.modPeel r (fun e =>
      let a := e.ack s.time.now p.ackseq
      match r with
      | .c => a
      | .m => { a with timedOut := false, timer := a.timer.map (fun _ => s.time.now) })
    if !pktSequenced p then (true, s1.ctlLatency r p)
    else if p.seq.toNat = (s.peel r).expect then
      (true, (s1.modPeel r (fun e => { e with expect := (e.expect + 1) % 256, ackDue := true })).ctlLatency r p)
    else (false, s1.modPeel r (fun e => { e with ackDue := true }))

/-- A packet of a kind received, with what it does where it is accepted. -/
def State.peelTake (r : Region) (k : PktKind) (p : Packet) (f : State → State) (s : State) : State :=
  let x := s.peelRx r k p
  if x.1 then f x.2 else x.2

/-! ## Objects and captures across the link -/

/-- The words of a payload. -/
def pktWords (p : Packet) : List Word := bytesToWords p.payload

/-- The object write an `OBJ_WR` carries, taken where R170 takes it (R17, R303); region M has counted it already. -/
def State.peelWrite (p : Packet) (s : State) : State :=
  match pktWords p with
  | [] => s
  | aw :: vals =>
    let idx := awAddr aw / 0x100
    if regionC idx && s.judge aw vals == 0 then
      match objRow idx (awAddr aw % 0x100), decodeValue (awType aw) vals with
      | some row, some v => s.takeWrite (.mb 1) row idx (awAddr aw % 0x100) v
      | _, _ => s
    else s

/-- The answer to an `OBJ_RD`: the address word and the object's value words. -/
def State.peelRead (p : Packet) (s : State) : State :=
  match pktWords p with
  | [] => s
  | aw :: _ => s.enqueue .c 0 (pkt .objRsp (wordsToBytes (aw :: s.getWords 5 aw)))

/-- Bytes of the capture image a `CAPTURE_READ` asks for. -/
def State.capChunk (s : State) (off n : Nat) : List Byte := slice s.capImage off n

/-- The image cut into payloads of 64 bytes, the last filled with zeros. -/
def chunks64 (b : List Byte) : List (List Byte) := (List.range ((b.length + 63) / 64)).map (fun i => slice b (64 * i) 64)

/-- A `CAPTURE_READ` starts: its data enters the queue of region C (R159). -/
def State.capReadStart (src : Source) (off n : Nat) (s : State) : State :=
  (forAll (chunks64 (s.capChunk off n)) (fun b x => x.enqueue .c 4 (pkt .capture b)) s).modCmd (fun c => { c with
    capReads := c.capReads ++ [(src, n, true)] })

/-- A source's `CAPTURE_READ` no longer waits: its data is dropped as it comes. -/
def State.capForget (src : Source) (s : State) : State :=
  s.modCmd (fun c => { c with capReads := c.capReads.map (fun r => if r.1 = src then (r.1, r.2.1, false) else r) })

/-- Data received for the first `CAPTURE_READ`; answered once all of it is in. -/
def State.capData (bytes : List Byte) (s : State) : State :=
  match s.cmd.capReads with
  | [] => s
  | (src, n, live) :: rest =>
    let got := s.cmd.capRx ++ bytes
    if got.length < n then s.modCmd (fun c => { c with capRx := got })
    else
      let s1 := s.modCmd (fun c => { c with capReads := rest, capRx := [] })
      if live then s1.respond src 0 (BitVec.ofInt 32 (s.rd Obj.capLen) :: bytesToWords (slice got 0 n)) else s1

end Sys2Proof.Machine
end

