-- ==== Sys2Proof/Machine/Commands.lean ====
section
/-! DEFINITION. The firmware commands (chapter 5): taking them (R137 to R139) and what each does once taken (R149 to R161). A
row with a source runs the command that source has executing. -/

namespace Sys2Proof.Machine

/-! ## Mailboxes -/

/-- `MAILBOX_TAKE` (R138, R145, R165): the source whose turn it is, a connection's waiting command among them. -/
def execMailboxTake (s : State) : Host.Outcome State Fault Refusal :=
  if s.askard then
    match s.nextSource with
    | none => .next s
    | some (.mb n) => .next (s.takeMailbox n).settle
    | some (.net c) => .next (s.takeConn c).settle
  else .next s

/-- Deliveries of MB2 may enter OUT now: no response owed comes before the next of them (R139). -/
def State.mb2May (s : State) : Bool :=
  let m := s.mb.get 2
  s.askard && !m.outFull && m.respWait.isNone && (m.job.isNone || decide (s.cmd.mb2Ahead ≠ 0))

/-- `MB2_DELIVERY_OUT` (R139, R178). -/
def execMb2DeliveryOut (s : State) : Host.Outcome State Fault Refusal :=
  match s.cmd.mb2Queue with
  | [] => .next s
  | ws :: rest =>
    if s.mb2May then
      let s1 := s.modCmd (fun c => { c with mb2Queue := rest, mb2Ahead := c.mb2Ahead - 1 })
      .next ((s1.placeOut 2 ws).bump (Obj.subSent (pw ws 0 / 65536 % 8)))
    else .next s

/-! ## Objects (R149 to R153) -/

/-- `ECHO` (R149). -/
def execEcho (src : Source) (s : State) : Host.Outcome State Fault Refusal :=
  .next (s.run src cEcho (fun _ => true) (fun j x => x.respond src 0 j.payload))

/-- The `OBJ_RD` packets of reads of objects that region C holds (R12, R31). -/
def State.readOver (src : Source) (ws : List Word) (s : State) : State :=
  forAll (ws.filter (fun w => regionC (awAddr w / 0x100))) (fun w x =>
    x.enqueue .m (srcNum src) (pkt .objRd (wordsToBytes [w]))) s

/-- `GET` (R150). -/
def execGet (src : Source) (s : State) : Host.Outcome State Fault Refusal :=
  .next (s.run src cGet (fun _ => true) (fun j x =>
    (x.readOver src j.payload).respond src 0 (j.payload.flatMap (x.getWords j.role))))

/-- `SET` (R151). -/
def execSet (src : Source) (s : State) : Host.Outcome State Fault Refusal :=
  .next (s.run src cSet (fun _ => true) (fun j x => (x.writeAll src (splitSet j.payload 64).1).respond src 0 []))

/-- A `GET_BLOCK` (R152): the source's snapshot of the BLOB, taken again at OFFSET 0 or where it has none. -/
def State.getBlock (src : Source) (j : Job) (s : State) : State :=
  let aw := j.payload.getD 0 0
  let off := j.arg 1
  let n := j.arg 2
  let isBlob := decide (s.blockOf j.role aw ≠ []) || (match objRow (j.arg 0 / 65536) (j.arg 0 / 256 % 256) with
    | some r => decide (r.ty = .blob) && s.shows j.role (j.arg 0 / 65536) (j.arg 0 / 256 % 256)
    | none => false)
  if !isBlob then s.respond src 0 (0 :: bytesToWords (List.replicate n 0))
  else
    let held := s.cmd.snaps.find? (fun p => decide (p.1 = src) && p.2.1 == awAddr aw)
    let bytes := match held with
      | some p => if off = 0 then s.blockOf j.role aw else p.2.2
      | none => s.blockOf j.role aw
    (s.modCmd (fun c => { c with
      snaps := (src, awAddr aw, bytes) :: c.snaps.filter (fun p => decide (p.1 ≠ src)) })).respond src 0
        (BitVec.ofNat 32 bytes.length :: bytesToWords (slice bytes off n))

/-- `GET_BLOCK` (R152). -/
def execGetBlock (src : Source) (s : State) : Host.Outcome State Fault Refusal :=
  .next (s.run src cGetBlock (fun _ => true) (fun j x => x.getBlock src j))

/-- The staging copies without that of a source. -/
def State.dropStaging (src : Source) (s : State) : State :=
  s.modCmd (fun c => { c with staging := c.staging.filter (fun p => decide (p.1 ≠ src)) })

/-- A `SET_BLOCK` (R153). -/
def State.setBlock (src : Source) (j : Job) (s : State) : State :=
  let aw := j.payload.getD 0 0
  let addr := awAddr aw
  let off := j.arg 1
  let n := j.arg 2 % 256
  let final := (j.arg 2).testBit 31
  let isBlob := decide (awType aw = 8) && (match objRow (addr / 0x100) (addr % 0x100) with
    | some r => decide (r.ty = .blob)
    | none => false)
  let data := slice (wordsToBytes (j.payload.drop 3)) 0 n
  if !isBlob then (if final then s.writeBlob aw [] else s)
  else if (blobSize addr).1 < off + n then
    let r := s.judgeBlob aw []
    s.ignored aw (if r = 0 then 3 else r)
  else
    let old := match s.cmd.staging.find? (fun p => decide (p.1 = src) && p.2.1 == addr) with
      | some p => p.2.2
      | none => (slice (s.blobView addr) 0 (blobSize addr).1, 0)
    let bytes := patchBytes old.1 off data
    let len := max old.2 (off + n)
    let s1 := s.dropStaging src
    if final then s1.writeBlob aw (if (blobSize addr).2 then slice bytes 0 len else bytes)
    else s1.modCmd (fun c => { c with staging := (src, addr, bytes, len) :: c.staging })

/-- `SET_BLOCK` (R153). -/
def execSetBlock (src : Source) (s : State) : Host.Outcome State Fault Refusal :=
  .next (s.run src cSetBlock (fun _ => true) (fun j x => (x.setBlock src j).respond src 0 []))

/-! ## The drive (R154 to R156) -/

/-- The swap of each named group becomes pending, or joins one that is (R154, R304). -/
def State.askSwaps (mask : Nat) (s : State) : State :=
  forAll (units4.filter (fun g => mask.testBit g.val)) (fun g x =>
    (x.modGrp g (fun y => { y with swap := true, swapT := if y.swap then y.swapT else x.time.now })).swapIfIdle g) s

/-- The `CMD` packet that carries a `SWAP_BANK` (R12, R31). -/
def swapPacket (j : Job) : Packet :=
  pkt .cmd (wordsToBytes (BitVec.ofNat 32 (cSwapBank * 65536 + j.tag * 256 + 1) :: j.payload.take 1))

/-- `SWAP_BANK` (R154); answered once no named group's swap is pending. -/
def execSwapBank (src : Source) (s : State) : Host.Outcome State Fault Refusal :=
  .next (s.run src cSwapBank (fun _ => true) (fun j x =>
    ((x.askSwaps (j.arg 0)).carry (srcNum src) (swapPacket j)).wait src))

/-- `SWAP_BANK_TIMEOUT` (R154), 100 ms after the command began to wait: the swap stays pending. -/
def execSwapBankTimeout (src : Source) (s : State) : Host.Outcome State Fault Refusal :=
  match s.waitingJob src cSwapBank with
  | none => .next s
  | some j => .next ((s.atT (j.since + 100 * msCycles)).respond src stTimeout [])

/-- The loaf a `LOAF_STATE` names, and its request. -/
def Job.loafArg (j : Job) : Fin 4 := Fin.ofNat 4 (j.arg 0 % 256)
def Job.req (j : Job) : Nat := j.arg 0 / 256 % 256

/-- A `LOAF_STATE` request judged (R155, R290), its transition made where `ok` allows it from the present state. -/
def State.loafState (src : Source) (j : Job) (want : LoafState) (ok : Bool) (go : State → State) (s : State) : State :=
  let n := j.loafArg
  let free := match s.groupOf n with
    | none => true
    | some g => decide ((s.grp.get g).st = .stopped)
  if !s.has n.val || !free then s.deny src j stState
  else if (s.loaf.get n).st = want then s.respond src 0 [BitVec.ofNat 32 want.code]
  else if ok then (go s).respond src 0 [BitVec.ofNat 32 want.code]
  else s.deny src j stState

/-- `LOAF_STATE` with REQ 0 (R290). -/
def execLoafStateOff (src : Source) (s : State) : Host.Outcome State Fault Refusal :=
  .next (s.run src cLoafState (fun j => decide (j.req = 0)) (fun j x =>
    let st := (x.loaf.get j.loafArg).st
    x.loafState src j .off (decide (st = .open_ ∨ st = .closed)) (State.loafTo j.loafArg .off)))

/-- `LOAF_STATE` with REQ 1 (R191, R290). -/
def execLoafStateOpen (src : Source) (s : State) : Host.Outcome State Fault Refusal :=
  .next (s.run src cLoafState (fun j => decide (j.req = 1)) (fun j x =>
    let l := x.loaf.get j.loafArg
    x.loafState src j .open_ (decide (l.st = .off) || (decide (l.st = .closed) && l.test)) (State.loafOpen j.loafArg)))

/-- A converter that serves the loaf runs interleaved (R225). -/
def State.interleaved (s : State) (n : Fin 4) : Bool :=
  (List.range 2).any (fun p => decide (s.rd (Obj.pairMode (2 * p)) = 2) && (s.convServes (2 * p) n || s.convServes (2 * p + 1) n))

/-- `LOAF_STATE` with REQ 2 (R225, R290, R291). -/
def execLoafStateClosed (src : Source) (s : State) : Host.Outcome State Fault Refusal :=
  .next (s.run src cLoafState (fun j => decide (j.req = 2)) (fun j x =>
    let n := j.loafArg
    let st := (x.loaf.get n).st
    x.loafState src j .closed
      (decide (st = .off ∨ st = .open_) && (x.groupOf n).isSome && x.canClose n && !x.interleaved n) (State.loafClose n true)))

/-- The group a `GROUP_STATE` or `MOVE` names. -/
def Job.grpArg (j : Job) : Fin 4 := Fin.ofNat 4 (j.arg 0 % 256)

/-- `GROUP_STATE` with REQ 1 (R293, R294). -/
def execGroupStateStart (src : Source) (s : State) : Host.Outcome State Fault Refusal :=
  .next (s.run src cGroupState (fun j => decide (j.req = 1)) (fun j x =>
    if x.startOk j.grpArg then
      let y := x.groupStart j.grpArg
      y.respond src 0 [BitVec.ofNat 32 (y.grp.get j.grpArg).st.code]
    else x.deny src j stState))

/-- `GROUP_STATE` with REQ 0 (R155, R293, R295, R460). -/
def execGroupStateStop (src : Source) (s : State) : Host.Outcome State Fault Refusal :=
  .next (s.run src cGroupState (fun j => decide (j.req = 0)) (fun j x =>
    let st := (x.grp.get j.grpArg).st
    if x.follows j.grpArg then x.deny src j stState
    else if st = .stopped ∨ st = .stopping ∨ st = .safe then x.respond src 0 [BitVec.ofNat 32 st.code]
    else (x.groupStop j.grpArg).wait src))

/-- `MOVE` (R156, R302, R460). -/
def execMove (src : Source) (s : State) : Host.Outcome State Fault Refusal :=
  .next (s.run src cMove (fun _ => true) (fun j x =>
    let g := j.grpArg
    let st := (x.grp.get g).st
    let mode := j.arg 0 / 256 % 256
    let target := (mode, BitVec.ofNat 32 (j.arg 1), signExt 16 (j.arg 2))
    if decide (x.rd (Obj.ctrlMode g.val) ≠ (mode : Int) ∨ st = .safe) || x.follows g then x.deny src j stState
    else if st = .stopped ∨ st = .stopping then (x.modGrp g (fun y => { y with target := some target })).respond src 0 []
    else (x.modGrp g (fun y => { y with nextTarget := some target })).wait src))

/-! ## Faults (R157, R359, R362, R369) -/

/-- CODE and INSTANCE of a payload's first word. -/
def Job.faultCode (j : Job) : Half := BitVec.ofNat 16 (j.arg 0)
def Job.faultInst (j : Job) : Half := BitVec.ofNat 16 (j.arg 0 / 65536)

/-- `FAULT_ACK` (R157, R359): Askard's copy of the collector state shows the window open; the acknowledgement travels to the
collector. -/
def execFaultAck (src : Source) (s : State) : Host.Outcome State Fault Refusal :=
  .next (s.run src cFaultAck (fun _ => true) (fun j x =>
    if x.flt.windows.contains (j.faultCode, j.faultInst) then
      ((x.modFlt (fun f => { f with acks := f.acks ++ [(j.faultCode, j.faultInst)] })).enqueue .m 0
        (pkt .fault (faultPayload j.faultCode j.faultInst 1))).respond src 0 []
    else x.deny src j stState))

/-- `FAULT_CLEAR` (R157, R362). -/
def execFaultClear (src : Source) (s : State) : Host.Outcome State Fault Refusal :=
  .next (s.run src cFaultClear (fun _ => true) (fun j x =>
    match x.clearFaults j.faultCode j.faultInst with
    | none => x.deny src j stState
    | some r => (r.2.carry 0 (pkt .fault (faultPayload j.faultCode j.faultInst 2))).respond src 0 [BitVec.ofNat 32 r.1]))

/-- An injection becomes active and is counted (R369). -/
def State.addInj (j : Inj) (s : State) : State := (s.modFlt (fun f => { f with inj := f.inj ++ [j] })).bump Obj.injCount

/-- A real fault of the code and instance is pending: the injection coincides at once (R370). -/
def State.realPending (s : State) (code inst : Half) : Bool :=
  s.flt.pend.any (fun p => p.code == code && p.inst == inst && !p.inj)

/-- A dry injection raised: logged, not pending, no reaction (R369). -/
def State.raiseDry (code inst : Half) (s : State) : State :=
  let c := s.classOf code
  let j : Inj := { code := code, inst := inst, live := false, since := s.time.now }
  let s1 := s.addInj j
  if s.realPending code inst then s1.cancelInj j else s1.emitAs true code inst c.1 c.2 flagInj 0 1 0

/-- The trip source a live injection asserts on its loaf (R369), and whether the code reports cycle mode. -/
def injSource (code n : Nat) : Option (Nat × Bool) :=
  if 0x4010 ≤ code ∧ code ≤ 0x4017 then some (code - 0x4010, false)
  else if 0x4020 ≤ code ∧ code ≤ 0x4027 then some (code - 0x4020, true)
  else if code = 0x5401 ∨ code = 0x5411 then some (8 + n, decide (code = 0x5411))
  else if code = 0x5402 ∨ code = 0x5412 then some (12, decide (code = 0x5412))
  else if code = 0x5403 ∨ code = 0x5413 then some (13, decide (code = 0x5413))
  else none

/-- The loaf's nibble enables the source in the mode the code reports (R161, R369). -/
def State.injEnabled (s : State) (i : Nat) (cycle : Bool) (n : Fin 4) : Bool :=
  (s.mapNibble i n).testBit 0 && ((s.mapNibble i n).testBit 1 == cycle)

/-- A live injection raised (R369, R370): a trip code through its source on the loaf, any other straight into the
collector, with what its raise sets off (R316). One more occurrence where an injection of it is pending already (R360). -/
def State.raiseLive (code inst : Half) (s : State) : State :=
  let n := Fin.ofNat 4 (instIndex inst)
  let src := injSource code.toNat n.val
  let at_ := match src with
    | some (i, _) => mkInst n.val (s.tripLeg i n)
    | none => inst
  let j : Inj := { code := code, inst := at_, live := true }
  let s1 := s.addInj j
  if s.realPending code at_ then s1.cancelInj j
  else if s.isPending code at_ then
    s1.again code at_
  else match src with
    | some (i, _) => (s1.bump (Obj.tripCount i)).tripAct i n true
    | none => (s1.enter code inst 0 flagInj true).attributed code inst

/-- The code is injectable in a mode (R161, R372). -/
def injectable (code : Half) (live : Bool) : Bool := match codeRow code with
  | none => false
  | some r => if live then r.live else r.dry

/-- An `INJECT`, its resources and conditions checked (R161, R369). -/
def State.inject (src : Source) (j : Job) (live : Bool) (s : State) : State :=
  let n := Fin.ofNat 4 (instIndex j.faultInst)
  let tripOk := match injSource j.faultCode.toNat n.val with
    | some (i, cycle) => !live || (s.has n.val && decide (instIndex j.faultInst < 4) && s.injEnabled i cycle n)
    | none => true
  if 4 ≤ s.flt.inj.length then s.deny src j stBusy
  else if !injectable j.faultCode live || !tripOk || !s.raisable j.faultCode j.faultInst then s.deny src j stState
  else
    let s1 := s.carry 0 (pkt .fault (faultPayload j.faultCode j.faultInst (if live then 4 else 3)))
    (if live then s1.raiseLive j.faultCode j.faultInst else s1.raiseDry j.faultCode j.faultInst).respond src 0 []

/-- `INJECT` MODE 0 (R369). -/
def execInjectDry (src : Source) (s : State) : Host.Outcome State Fault Refusal :=
  .next (s.run src cInject (fun j => decide (j.arg 1 ≠ 1)) (fun j x => x.inject src j false))
/-- `INJECT` MODE 1 (R369). -/
def execInjectLive (src : Source) (s : State) : Host.Outcome State Fault Refusal :=
  .next (s.run src cInject (fun j => decide (j.arg 1 = 1)) (fun j x => x.inject src j true))

/-- `INJ_HOLD_EXPIRY` (R369): the oldest dry injection of the code and instance ends after `INJ_HOLD` ms. -/
def execInjHoldExpiry (code inst : Half) (s : State) : Host.Outcome State Fault Refusal :=
  match s.flt.inj.find? (fun j => !j.live && j.code == code && j.inst == inst) with
  | none => .next s
  | some j => .next ((s.atT (j.since + s.rdN Obj.injHold * msCycles)).modFlt (fun f => { f with inj := f.inj.erase j }))

/-! ## Calibration (R158, R231) -/

/-- A calibration started. -/
def State.calStart (src : Source) (j : Job) (full : Bool) (s : State) : State :=
  let k := j.arg 0 % 256
  let i := j.arg 0 / 256 % 256
  let e := signExt 32 (j.arg 1)
  if !(s.hasConv k && s.power.refReady.get (Fin.ofNat 6 k)) then s.deny src j stState
  else if full && (!s.cmd.zeroed.contains (k, i) || decide (-8192 ≤ e ∧ e ≤ 8192)) then s.deny src j stState
  else
    let c : CalJob := { src := src, conv := k, input := i, full := full, expected := if full then e else 0,
                        offset := s.rd (Obj.chOffset k i), count := 0, sum := 0, since := s.time.now }
    (s.modCmd (fun x => { x with cals := x.cals ++ [c] })).wait src

/-- `CAL_ZERO` (R158, R231). -/
def execCalZero (src : Source) (s : State) : Host.Outcome State Fault Refusal :=
  .next (s.run src cCalZero (fun _ => true) (fun j x => x.calStart src j false))
/-- `CAL_FULL` (R158, R231). -/
def execCalFull (src : Source) (s : State) : Host.Outcome State Fault Refusal :=
  .next (s.run src cCalFull (fun _ => true) (fun j x => x.calStart src j true))

/-- The calibration of a source, and the others. -/
def State.calOf (s : State) (src : Source) : Option CalJob := s.cmd.cals.find? (fun c => decide (c.src = src))
/-- The state without a source's calibration. -/
def State.calGone (src : Source) (s : State) : State :=
  s.modCmd (fun x => { x with cals := x.cals.filter (fun c => decide (c.src ≠ src)) })

/-- The gain code of a full-scale calibration; none where R158 refuses it. -/
def gainCode (k : Nat) (expected m : Int) : Option Int :=
  if m = 0 ∨ (decide (m < 0) != decide (expected < 0)) then none
  else
    let g := roundAway ((expected * 2 ^ (convBits k + 10) : Int) / (m : Rat))
    if 65536 ≤ g then none else some g

/-- `CAL_COMPLETE` (R231): the 4096 samples are in. -/
def execCalComplete (src : Source) (s : State) : Host.Outcome State Fault Refusal :=
  match s.calOf src with
  | none => .next s
  | some c =>
    if c.count < 4096 then .next s
    else
      let s1 := s.calGone src
      if c.full then
        match gainCode c.conv c.expected c.sum with
        | none => .next (s1.respond src stState [])
        | some g => .next ((s1.wr (Obj.chGain c.conv c.input) g).respond src 0 [BitVec.ofInt 32 g])
      else
        let m := roundAway ((c.sum : Rat) / 4096)
        .next (((s1.wr (Obj.chOffset c.conv c.input) m).modCmd (fun x => { x with
          zeroed := (c.conv, c.input) :: x.zeroed })).respond src 0 [BitVec.ofInt 32 m])

/-- `CAL_TIMEOUT` (R158): 200 ms after the calibration began. -/
def execCalTimeout (src : Source) (s : State) : Host.Outcome State Fault Refusal :=
  match s.calOf src with
  | none => .next s
  | some c =>
    if c.count < 4096 then .next (((s.atT (c.since + 200 * msCycles)).calGone src).respond src stTimeout []) else .next s

/-! ## Capture (R159, R244, R245) -/

/-- The response of a `CAPTURE_ARM`. -/
def State.capReply (src : Source) (s : State) : State := s.respond src 0 [BitVec.ofInt 32 (s.rd Obj.capSeq)]

/-- `CAPTURE_ARM` ACTION 1. -/
def execCaptureArm (src : Source) (s : State) : Host.Outcome State Fault Refusal :=
  .next (s.run src cCaptureArm (fun j => decide (j.arg 0 = 1)) (fun _ x => x.capArm.capReply src))
/-- `CAPTURE_ARM` ACTION 2. -/
def execCaptureDisarm (src : Source) (s : State) : Host.Outcome State Fault Refusal :=
  .next (s.run src cCaptureArm (fun j => decide (j.arg 0 = 2)) (fun _ x => x.capDisarm.capReply src))
/-- `CAPTURE_ARM` ACTION 3, at the cycle region C executes it; in the cycle of another trigger the two are one (R245). -/
def execCaptureTriggerNow (src : Source) (t : Nat) (s0 : State) : Host.Outcome State Fault Refusal :=
  let s := s0.atT t
  .next (s.run src cCaptureArm (fun j => decide (j.arg 0 = 3)) (fun j x =>
    if x.rd Obj.capState = 1 ∨ x.rd Obj.capState = 2 ∨ (x.rd Obj.capState = 3 ∧ x.cap.trigT = t) then
      (x.captureTriggerAt 0 t).capReply src
    else x.deny src j stState))

/-- `CAPTURE_READ` (R159): answered when the data has crossed Peel. -/
def execCaptureRead (src : Source) (s : State) : Host.Outcome State Fault Refusal :=
  .next (s.run src cCaptureRead (fun _ => true) (fun j x =>
    if x.rd Obj.capSeq ≠ (j.arg 0 : Int) ∨ x.rd Obj.capState ≠ 4 then x.deny src j stState
    else (x.capReadStart src (j.arg 1) (j.arg 2)).wait src))
/-- `CAPTURE_READ_TIMEOUT` (R159): 50 ms after the command began to wait. -/
def execCaptureReadTimeout (src : Source) (s : State) : Host.Outcome State Fault Refusal :=
  match s.waitingJob src cCaptureRead with
  | none => .next s
  | some j => .next (((s.atT (j.since + 50 * msCycles)).capForget src).respond src stTimeout [])

/-! ## Subscriptions (R172, R173) -/

/-- The session that owns a source's subscriptions. -/
def subOwner (src : Source) : Nat := match src with
  | .mb _ => 0
  | .net c => c.val + 1

/-- The item rate of a start in bytes/s, R173. -/
def State.itemRate (s : State) (source p : Nat) : Rat :=
  if source = 0 then
    64 * ((s.loaves.filter (fun n => p.testBit n.val)).map (fun n =>
      (200000000 : Rat) / (s.nowFrameTicks n : Rat) / ((p / 256 : Nat) : Rat))).sum
  else if source = 1 then 4 * ((p / 65536 : Nat) : Rat) * 1000 / ((p % 65536 : Nat) : Rat)
  else 0

/-- A subscription start (R172, R173). -/
def State.subscribe (src : Source) (j : Job) (s : State) : State :=
  let w := j.arg 0
  let p := j.arg 1
  let id := w % 256
  let udp := decide (w / 65536 % 256 = 1)
  let source := w / 2 ^ 24
  let old := s.sub id
  let rate := s.itemRate source p
  let used := s.rateUsed udp - (if old.active ∧ old.udp = udp ∧ old.owner = subOwner src then old.rate else 0)
  if decide ((if udp then 8000000 else 200000) < used + rate) then s.deny src j stBusy
  else if old.active ∧ old.owner ≠ subOwner src then s.deny src j stState
  else
    let x : Sub := { active := true, udp := udp, source := source, owner := subOwner src, mask := p % 16, decim := p / 256
                     period := p % 65536, addrs := j.payload.drop 2, nextT := s.time.now + p % 65536 * msCycles, rate := rate }
    (s.modSub id (fun _ => x)).respond src 0 [BitVec.ofInt 32 (showInt rate)]

/-- `SUBSCRIBE` ACTION 1 (R173). -/
def execSubscribeStart (src : Source) (s : State) : Host.Outcome State Fault Refusal :=
  .next (s.run src cSubscribe (fun j => decide (j.arg 0 / 256 % 256 = 1)) (fun j x => x.subscribe src j))
/-- `SUBSCRIBE` ACTION 0 (R172). -/
def execSubscribeCancel (src : Source) (s : State) : Host.Outcome State Fault Refusal :=
  .next (s.run src cSubscribe (fun j => decide (j.arg 0 / 256 % 256 ≠ 1)) (fun j x =>
    let id := j.arg 0 % 256
    if (x.sub id).active ∧ (x.sub id).owner ≠ subOwner src then x.deny src j stState
    else (x.endSub id).respond src 0 [0]))

/-! ## Sessions (R488 to R491) -/

/-- `SESSION_OPEN` (R488). -/
def execSessionOpen (src : Source) (s : State) : Host.Outcome State Fault Refusal :=
  .next (s.run src cSessionOpen (fun _ => true) (fun j x =>
    let y := x.endHostSession 2
    let count := (y.sec.sessCount + 1) % 2 ^ 32
    let bytes := slice (Config.nonce y.sec.nonceNo) 0 16 ++ leBytes 8 (Config.serial 0).toNat ++ leBytes 4 count ++ leBytes 4 0
    (y.modSec (fun v => { v with
      sessCount := count, nonceNo := v.nonceNo + 1
      challenge := some (j.arg 0 % 256, j.arg 0 / 256 % 256, bytes, y.time.now) })).respond src 0 (bytesToWords bytes)))

/-- A session opens at a role (R488, R490, R499, R501). -/
def State.openSession (role user : Nat) (s : State) : State :=
  let s1 := ((s.modSec (fun x => { x with session := some (role, user), challenge := none })).setLock user (0, 0, none)).auditEvent
    0x0001 0 user role 0 role
  if role = 5 ∧ s.power.swReset.getLsbD 10 ∧ !s.sec.unlocked then
    (s1.modSec (fun x => { x with unlocked := true })).auditEvent 0x0050 8 user role 0 1
  else s1

/-- `SESSION_AUTH` (R488 to R490). -/
def execSessionAuth (src : Source) (s : State) : Host.Outcome State Fault Refusal :=
  .next (s.run src cSessionAuth (fun _ => true) (fun j x =>
    match x.sec.challenge with
    | none => x.deny src j stState
    | some (role, user, bytes, t) =>
      if t + 2000000000 < x.time.now ∨ (x.lockOf user).2.2.isSome then x.deny src j stState
      else
        let good := match x.sessionKey role user with
          | some k => decide (hmac k (sessionMsg role user bytes) = wordsToBytes j.payload)
          | none => false
        if good then (x.openSession role user).respond src 0 [BitVec.ofNat 32 role]
        else (x.authFailed role user).deny src j stCrc))

/-- `SESSION_CLOSE` (R491). -/
def execSessionClose (src : Source) (s : State) : Host.Outcome State Fault Refusal :=
  .next (s.run src cSessionClose (fun _ => true) (fun _ x => (x.endHostSession 0).respond src 0 []))

/-! ## Updates (R160, R492 to R497) -/

/-- Another source has a transfer in progress. -/
def heldByOther (src : Source) (x : Option Transfer) : Bool := x.any (fun t => decide (t.src ≠ src))

/-- `UPDATE_BEGIN` (R160). -/
def execUpdateBegin (src : Source) (s : State) : Host.Outcome State Fault Refusal :=
  .next (s.run src cUpdateBegin (fun _ => true) (fun j x =>
    if heldByOther src x.cmd.xfer then x.deny src j stBusy
    else (x.modCmd (fun c => { c with
      xfer := some { src := src, kind := j.arg 0, size := j.arg 1, data := [] } })).respond src 0 []))

/-- `UPDATE_CHUNK` (R160). -/
def execUpdateChunk (src : Source) (s : State) : Host.Outcome State Fault Refusal :=
  .next (s.run src cUpdateChunk (fun _ => true) (fun j x =>
    match x.cmd.xfer with
    | none => x.deny src j stState
    | some t =>
      if t.src ≠ src then x.deny src j stBusy
      else if j.arg 0 ≠ t.data.length then x.deny src j stState
      else
        let data := t.data ++ slice (wordsToBytes (j.payload.drop 2)) 0 (j.arg 1)
        (x.modCmd (fun c => { c with xfer := some { t with data := data } })).respond src 0 []))

/-- A refused image is audited (R499) and, where its check value fails, reported (R495, R497). -/
def State.imageRefused (src : Source) (j : Job) (status : Nat) (s : State) : State :=
  let s1 := s.auditCmd src j.role 0x0011 status status
  (if status = stCrc then s1.reportM 0xF003 0 0 else s1).deny src j status

/-- The firmware image staged is committed into the slot that does not run (R492, R495, R528). -/
def State.commitFirmware (src : Source) (j : Job) (t : Transfer) (s : State) : State :=
  let slot : Slot := { present := true, version := leAt t.data 4 4 % 2 ^ 24, svn := leAt t.data 8 2 }
  let s1 := s.modSec (fun x => if x.runB then { x with slotA := slot, preferB := false } else { x with slotB := slot, preferB := true })
  let s2 := s1.auditCmd src j.role 0x0010 0 (slot.version + 2 ^ 32 * slot.svn)
  ((s2.modCmd (fun c => { c with xfer := none })).modBoot (fun b => { b with transition := some (5, src) })).respond src 0 []

/-- `UPDATE_COMMIT` of a firmware image, and with no transfer open (R160, R495). -/
def execUpdateCommitFirmware (src : Source) (verifies : Bool) (s : State) : Host.Outcome State Fault Refusal :=
  if s.xferKind = some 1 then .next s
  else .next (s.run src cUpdateCommit (fun _ => true) (fun j x =>
    match x.cmd.xfer with
    | none => x.deny src j stState
    | some t =>
      if t.src ≠ src then x.deny src j stBusy
      else if t.data.length ≠ t.size then x.deny src j stState
      else if !verifies then x.imageRefused src j stCrc
      else if leAt t.data 8 2 < x.sec.rollback then x.imageRefused src j stState
      else x.commitFirmware src j t))

/-- An object write of an image names a range it may not (R497). -/
def imageWriteBad (w : ImageWrite) : Bool :=
  let idx := awAddr w.addrWord / 0x100
  decide ((0x7000 ≤ idx ∧ idx ≤ 0x7FFF) ∨ (0xB000 ≤ idx ∧ idx ≤ 0xBFFF))

/-- The configuration image staged is stored and applied (R497, R499). -/
def State.commitConfig (src : Source) (j : Job) (img : ConfigImage) (s : State) : State :=
  let s1 := s.modSec (fun x => { x with
    image := some img, users := img.users, owner := match img.ownerKey with
      | some k => some k
      | none => x.owner })
  let s2 := s1.writeAll src (img.writes.map (fun w => (w.addrWord, w.vals)))
  let s3 := (s2.wrs [(Obj.configCrc, img.crc), (Obj.cfgVersion, img.version)]).auditCmd src j.role 0x0020 0 img.version
  ((s3.modCmd (fun c => { c with xfer := none })).modBoot (fun b => { b with imageDone := true })).respond src 0 []

/-- `UPDATE_COMMIT` of a configuration image (R160, R486, R487, R497). -/
def execUpdateCommitConfig (src : Source) (verifies : Bool) (img : ConfigImage) (s : State) : Host.Outcome State Fault Refusal :=
  if s.xferKind ≠ some 1 then .next s
  else .next (s.run src cUpdateCommit (fun _ => true) (fun j x =>
    match x.cmd.xfer with
    | none => x.deny src j stState
    | some t =>
      if t.src ≠ src then x.deny src j stBusy
      else if t.data.length ≠ t.size then x.deny src j stState
      else if !verifies || (x.sec.owner.isNone && img.ownerKey.isNone) then x.imageRefused src j stCrc
      else if img.version ≤ x.rdN Obj.cfgVersion then x.imageRefused src j stState
      else if img.writes.any imageWriteBad then x.imageRefused src j stLength
      else x.commitConfig src j img))

/-! ## Safety sets (R160, R397, R398) -/

/-- SW11 read 1 at reset and the cover is closed. -/
def State.sealed (s : State) : Bool := s.power.swReset.getLsbD 11 && !s.power.coverOpen

/-- A staged set is complete: checked and stored (R397, R499). -/
def State.storeSet (src : Source) (j : Job) (verifies : Bool) (image : List Byte) (s : State) : State :=
  let n := j.arg 0 % 4
  if !verifies then s.deny src j stCrc
  else if !paramsOk image n then s.deny src j stLength
  else if s.sealed then s.deny src j stState
  else
    let s1 := s.modSafety (fun f => { f with sets := f.sets.set (Fin.ofNat 4 n) { image := image, state := 1, bind := 0 } })
    ((s1.dropSet src n).auditCmd src j.role 0x0030 0 (n + 256 * leAt image 4 4)).respond src 0 []

/-- `SAFETY_LOAD` (R160, R397). -/
def execSafetyLoad (src : Source) (verifies : Bool) (s : State) : Host.Outcome State Fault Refusal :=
  .next (s.run src cSafetyLoad (fun _ => true) (fun j x =>
    let n := j.arg 0
    let held := match x.setXfer n with
      | some t => t.data
      | none => []
    if heldByOther src (x.setXfer n) then x.deny src j stBusy
    else if j.arg 1 ≠ held.length then x.deny src j stState
    else
      let data := held ++ slice (wordsToBytes (j.payload.drop 3)) 0 (j.arg 2 % 256)
      let y := x.putSet { src := src, kind := 2 + n, size := 128, data := data }
      if (j.arg 2).testBit 31 then y.storeSet src j verifies data else y.respond src 0 []))

/-- `SAFETY_ACCEPT` (R398). -/
def execSafetyAccept (src : Source) (s : State) : Host.Outcome State Fault Refusal :=
  .next (s.run src cSafetyAccept (fun _ => true) (fun j x =>
    let n := Fin.ofNat 4 (j.arg 0)
    let v := x.safety.sets.get n
    if v.state = 0 then x.deny src j stState
    else if j.arg 1 ≠ (crc32 v.image).toNat then x.deny src j stCrc
    else if (x.power.swNow ^^^ x.power.swReset) &&& 0xBFF ≠ 0 ∨ x.sealed then x.deny src j stState
    else
      let bind := (x.bindingCrc v.image n.val).toNat
      ((x.modSafety (fun f => { f with
        sets := f.sets.set n { v with state := 2, bind := bind }, coverSince := false })).auditCmd src j.role 0x0030 0
          (n.val + 256 * leAt v.image 4 4)).respond src 0 []))

/-! ## Pair and time (R426, R473) -/

/-- `PAIR_HANDOVER` (R161, R473): the release follows at the next group boundary. -/
def execPairHandover (src : Source) (s : State) : Host.Outcome State Fault Refusal :=
  .next (s.run src cPairHandover (fun _ => true) (fun j x =>
    if x.paired && decide (x.prRole = 1 ∨ x.prRole = 3) && x.lastFlag 3 then
      (x.modPair (fun p => { p with handover := true, releaseDue := true })).wait src
    else x.deny src j stState))

/-- `PAIR_HANDOVER_COMPLETE` (R473): the partner has asserted. -/
def execPairHandoverComplete (src : Source) (s : State) : Host.Outcome State Fault Refusal :=
  match s.waitingJob src cPairHandover with
  | none => .next s
  | some _ =>
    if s.pair.partner && !s.pair.roleAct then
      .next ((s.modPair (fun p => { p with handover := false, releaseDue := false })).respond src 0 []).settle
    else .next s

/-- `PAIR_HANDOVER_TIMEOUT` (R161, R473), after 10 ms: the releasing module may assert again. -/
def execPairHandoverTimeout (src : Source) (s : State) : Host.Outcome State Fault Refusal :=
  match s.waitingJob src cPairHandover with
  | none => .next s
  | some j => .next (((s.atT (j.since + 10 * msCycles)).modPair (fun p => { p with handover := false, releaseDue := false })).respond src
      stTimeout []).settle

/-- The station clock stepped by command, and the step audited (R426, R499). -/
def State.timeStep (src : Source) (j : Job) (d : Int) (s : State) : State :=
  ((s.stepStation d).auditCmd src j.role 0x0060 0 (toBits 32 (truncR ((d : Rat) / 1000000000)))).respond src 0 []

/-- `TIME_STEP` MODE 0 (R161, R426). -/
def execTimeStepMeasured (src : Source) (s : State) : Host.Outcome State Fault Refusal :=
  .next (s.run src cTimeStep (fun j => decide (j.arg 0 = 0)) (fun j x =>
    if x.time.lv0.jump then x.timeStep src j (-x.time.lv0.jumpOfs) else x.deny src j stState))
/-- `TIME_STEP` MODE 1 (R426). -/
def execTimeStepGiven (src : Source) (s : State) : Host.Outcome State Fault Refusal :=
  .next (s.run src cTimeStep (fun j => decide (j.arg 0 ≠ 0)) (fun j x =>
    x.timeStep src j (signExt 32 (j.arg 1) * 1000000000 + signExt 32 (j.arg 2))))

end Sys2Proof.Machine
end

