-- ==== Sys2Proof/WellFormed.lean ====
section
/-! DEFINITION. Well-formed commands: the operand values the rules admit where the operand's type alone does not
say it. -/

namespace Sys2Proof

/-- A Peel packet carries at most 64 payload bytes, R30. -/
def Packet.wf (p : Packet) : Bool := decide (p.payload.length ≤ 64)

/-- A mirror frame has 130 bytes, R466. -/
def mirrorWf (bytes : List Byte) : Bool := decide (bytes.length = 130)

/-- Raw counts of a converter: signed 14 bits, 12 bits on CV5 (R228). -/
def rawWf (k : Fin 6) (raw : Int) : Bool :=
  if k = 5 then decide (-2048 ≤ raw ∧ raw ≤ 2047) else decide (-8192 ≤ raw ∧ raw ≤ 8191)

/-- Inputs of a converter, R213: 0 to 8 on CV0 to CV3, 0 and 1 on CV4, 0 to 7 on CV5. -/
def inputWf (k : Fin 6) (i : Fin 9) : Bool :=
  if k = 4 then decide (i.val ≤ 1) else if k = 5 then decide (i.val ≤ 7) else true

/-- A host frame clocks whole bytes: its bit count covers the bytes given, R118, R120. -/
def frameWf (bytes : List Byte) (bits : Nat) : Bool :=
  decide (bits / 8 ≤ bytes.length ∧ bytes.length ≤ bits / 8 + 1)

/-- Station-time and pad-time operands of a sample: the recorded instant does not lie after the event. -/
def instWf (inst t : Nat) : Bool := decide (inst ≤ t)

/-- The well-formed commands. -/
def WellFormed : Instr → Bool
  | .hostWriteFrame b n _ => frameWf b n
  | .hostReadFrame b n _ => frameWf b n
  | .windowRegisterWrite a _ => decide (a % 4 = 0 ∧ a < 0x10000)
  | .peelAck _ p => p.wf
  | .peelNak _ p => p.wf
  | .peelTrain _ p => p.wf
  | .heartbeat p _ => p.wf
  | .sync p _ => p.wf
  | .event p => p.wf
  | .peelRecord p => p.wf
  | .peelCapture p => p.wf
  | .objWr p => p.wf
  | .objRd p => p.wf
  | .cmd p => p.wf
  | .objRsp p => p.wf
  | .cmdRsp p => p.wf
  | .faultPacketEvent p => p.wf
  | .faultPacketReport p _ => p.wf
  | .faultPacketAck p _ => p.wf
  | .faultPacketClear p _ => p.wf
  | .faultPacketInject p _ => p.wf
  | .haltNotification p _ => p.wf
  | .sampleResult k i _ raw inst t => inputWf k i && rawWf k raw && instWf inst t
  | .openWireDetect k i _ => inputWf k i && decide (k ≠ 4)
  | .fbEdge _ _ _ _ _ inst t => instWf inst t
  | .mirrorState b _ => mirrorWf b
  | .mirrorHello b => mirrorWf b
  | .mirrorRelease b _ => mirrorWf b
  | .netCommand _ ws => decide (1 ≤ ws.length ∧ ws.length ≤ 256)
  | _ => true

end Sys2Proof
end

