-- ==== Sys2Proof/Machine/Converter.lean ====
section
/-! DEFINITION. The converter events of chapter 7. -/

namespace Sys2Proof.Machine

/-- A regular sample: the sequence moves on, the result is averaged, calibrated and captured (R220, R232, R242). -/
def State.regularSample (k i : Nat) (raw : Int) (inst : Nat) (s : State) : State :=
  let v := chanResult k (s.rd (Obj.chOffset k i)) (s.rd (Obj.chGain k i)) raw
  let sat := chanSat k (s.rd (Obj.chOffset k i)) (s.rd (Obj.chGain k i)) raw
  let bad := s.notReady k
  let s1 := ((s.sampleCommon k i v sat bad inst).accumulate k i v bad sat inst).calibrate k i raw bad sat
  if k = 4 then (s1.scTake i v bad inst).sampleCame 0
  else if k = 5 then s1
  else s1.capSample (9 * k + i) v inst

/-- An injected sample (R221, R236). -/
def State.injectedSample (k i : Nat) (raw : Int) (inst : Nat) (s : State) : State :=
  let v := chanResult k (s.rd (Obj.chOffset k i)) (s.rd (Obj.chGain k i)) raw
  let sat := chanSat k (s.rd (Obj.chOffset k i)) (s.rd (Obj.chGain k i)) raw
  let bad := s.notReady k
  ((s.sampleCommon k i v sat bad inst).calibrate k i raw bad sat).injSample k i v inst

/-- A sample of the pair burst or of the continuous interleave, under the correction of the input's owner (R222, R224, R225). -/
def State.pairSample (k : Nat) (raw : Int) (inst : Nat) (s : State) : State :=
  let e := evenOf k
  let o := s.pairInput e
  let v := chanResult o.1 (s.rd (Obj.chOffset o.1 o.2)) (s.rd (Obj.chGain o.1 o.2)) raw
  let sat := chanSat o.1 (s.rd (Obj.chOffset o.1 o.2)) (s.rd (Obj.chGain o.1 o.2)) raw
  let bad := s.notReady k
  let s1 := s.sampleCommon o.1 o.2 v sat bad inst
  if s.rd (Obj.pairMode e) = 2 then s1.capSample (36 + e / 2) v inst else s1.burstSample e v inst

/-- `SAMPLE_RESULT` (R227): the result of a raw count (after slice correction, R216) held at `inst`. A sample that no
work of the converter can have taken changes nothing. -/
def execSampleResult (k : Fin 6) (input : Fin 9) (kind : SampleKind) (raw : Int) (inst t : Nat) (s0 : State) :
    Host.Outcome State Fault Refusal :=
  let s := s0.atT t
  let even := evenOf k.val
  let mode := if k.val < 4 then s.rd (Obj.pairMode even) else 0
  if !(s.regionUp && s.hasConv k.val && inputWf k input && rawWf k raw) then .next s
  else match kind with
    | .regular =>
      if 4 ≤ k.val then .next (s.regularSample k.val input.val raw inst).settle
      else match s.seqResult k.val input.val inst with
        | some s1 => .next (s1.regularSample k.val input.val raw inst).settle
        | none => .next s
    | .held =>
      if 4 ≤ k.val ∨ mode = 2 then .next s
      else match s.seqHold k.val input.val inst with
        | some s1 => .next s1
        | none => .next s
    | .injected =>
      match (s.conv.get k).injRun with
      | some (e :: _) =>
        if e = input.val ∧ k.val < 4 ∧ mode ≠ 2 then .next (s.injectedSample k.val input.val raw inst).settle else .next s
      | _ => .next s
    | .burst =>
      if k.val < 4 ∧ (mode = 2 ∨ (mode = 1 ∧ s.bursting k.val)) ∧ input.val = (s.pairInput even).2 then
        .next (s.pairSample k.val raw inst).settle
      else .next s

/-- Toggles of a trigger line so far (R209). -/
def State.lineCount (s : State) (line : Nat) : Nat := (s.loaf.get (Fin.ofNat 4 (line / 3))).lines.getD (line % 3) 0

/-- `INJECTED_SEQ_START` (R209, R221): a firing of a line enabled in `INJ_TRIG` that the converter has not taken yet. -/
def execInjectedSeqStart (k : Fin 4) (line : Fin 12) (t : Nat) (s0 : State) : Host.Outcome State Fault Refusal :=
  let s := (s0.atT t).pwmTo (Fin.ofNat 4 (line.val / 3))
  let seen := (s.convAt k.val).lineSeen
  if s.regionUp && s.has k.val && s.rdBit (Obj.injTrig k.val) line.val && decide (seen.getD line.val 0 < s.lineCount line.val) then
    .next ((s.modConvN k.val (fun c => { c with
      lineSeen := setAt 0 c.lineSeen line.val (s.lineCount line.val) })).injStart k.val).settle
  else .next s

/-- `PAIR_BURST_START` (R222): a firing of a line enabled in `PAIR_TRIG`, or, on a line not enabled there, the burst
the Oven has placed at this instant (R344). -/
def execPairBurstStart (p : Fin 2) (line : Fin 12) (t : Nat) (s0 : State) : Host.Outcome State Fault Refusal :=
  let s := (s0.atT t).pwmTo (Fin.ofNat 4 (line.val / 3))
  let e := 2 * p.val
  if !(s.regionUp && s.has e && decide (s.rd (Obj.pairMode e) = 1)) then .next s
  else if s.rdBit (Obj.pairTrig e) line.val then
    (if (s.convAt e).pairSeen.getD line.val 0 < s.lineCount line.val then
      .next ((s.modConvN e (fun c => { c with pairSeen := setAt 0 c.pairSeen line.val (s.lineCount line.val) })).burstStart e
        line.val none).settle
    else .next s)
  else match (s.convAt e).reconQ.find? (fun q => q.1 == t) with
    | none => .next s
    | some q =>
      .next ((s.modConvN e (fun c => { c with reconQ := c.reconQ.filter (fun x => decide (t < x.1)) })).burstStart e (3 * q.2.1)
        (some q.2)).settle

/-- `SLICE_EXCLUDE` (R218): the slice's slot stays empty; a second one fails the converter (R219). -/
def execSliceExclude (k : Fin 4) (sl : Fin 4) (s : State) : Host.Outcome State Fault Refusal :=
  let ex := s.rdN (Obj.sliceExcl k.val)
  if !(s.regionUp && s.has k.val) || ex.testBit sl.val then .next s
  else
    let s1 := (s.wrBit (Obj.sliceExcl k.val) sl.val true).latch 0x0402 (mkInst k.val sl.val) 0
    if ex = 0 ∨ (s.convAt k.val).failed then .next s1.settle
    else .next ((s1.modConvN k.val (fun c => { c with failed := true })).fault 0x4405 (mkInst k.val 0) 0)

/-- `MISMATCH_CONVERGED` (R216): the estimates, which `MM_FREEZE` holds (R217), are shown; before convergence their objects show
0 (DESIGN CHOICE: R216 does not say what they show then, log entry 162). -/
def execMismatchConverged (k : Fin 4) (s : State) : Host.Outcome State Fault Refusal :=
  if !(s.has k.val && s.power.refReady.get (Fin.ofNat 6 k.val)) then .next s
  else
    let s1 := s.modConvN k.val (fun c => { c with mmConv := true })
    if s.rd (Obj.mmFreeze k.val) = 1 then .next s1
    else
      let est := fun (q sl : Nat) => clampI (-32768) 32767 (Config.sliceEstimate s.freeNo (4 * k.val + sl) q)
      let s2 := forAll (List.range 4) (fun sl x =>
        ((x.wr (Obj.sliceOfs k.val sl) (est 0 sl)).wr (Obj.sliceGain k.val sl) (est 1 sl)).wr (Obj.sliceSkew k.val sl) (est 2 sl)) s1
      .next s2.drew

/-- The latest shared-input result of a converter, usable in a comparison at `t`: ready and at most 1 µs old (R237). -/
def State.plausInput (s : State) (k t : Nat) : Option Int :=
  match (s.convAt k).lastT.find? (fun x => x.1 == 8) with
  | some (_, inst, bad) => if bad ∨ inst + usCycles < t then none else some (s.rd (Obj.chResult k 8))
  | none => none

/-- `PLAUS_COMPARE` (R237, R238). -/
def execPlausCompare (p : Fin 2) (t : Nat) (s0 : State) : Host.Outcome State Fault Refusal :=
  let s := s0.atT t
  let e := 2 * p.val
  if !(s.regionUp && s.has e && decide (s.rd (Obj.plausEn e) = 1)) then .next s
  else
    match s.plausInput e t, s.plausInput (e + 1) t with
    | some a, some b =>
      if s.plausStale e then .next s
      else
        let d := a - b
        let shown := if -32768 ≤ d ∧ d ≤ 32767 then d else clampI (-32768) 32767 (Config.pastRange (Obj.plausDiff e) d)
        let s2 := s.wr (Obj.plausDiff e) shown
        if s.rd (Obj.plausTol e) < (d.natAbs : Int) then
          let s3 := s2.bumpTo (Obj.plausRun e) 65535
          if s.rd (Obj.plausCount e) ≤ s3.rd (Obj.plausRun e) ∧ !(s.convAt e).plausSaid then
            .next (((s3.modConvN e (fun c => { c with plausSaid := true })).latch 0x4403 (mkInst p.val 0) 0).attributed 0x4403
              (mkInst p.val 0)).settle
          else .next s3
        else .next ((s2.wr (Obj.plausRun e) 0).modConvN e (fun c => { c with plausSaid := false }))
    | _, _ => .next s

/-- An input's result has lain beyond `OW_LEVEL`, in the direction of the current now on, for `OW_TIME` at `t` (R239). -/
def State.owDue (s : State) (k i t : Nat) : Bool :=
  s.owBeyond k i (s.rd (Obj.chResult k i)) && (match (s.convAt k).owSince.find? (fun x => x.1 == i) with
    | some x => decide (x.2 + s.rdN (Obj.owTime k) * usCycles ≤ t)
    | none => false)

/-- `OPEN_WIRE_DETECT` (R239): latched until cleared. -/
def execOpenWireDetect (k : Fin 6) (input : Fin 9) (t : Nat) (s0 : State) : Host.Outcome State Fault Refusal :=
  let s := s0.atT t
  if s.regionUp && s.hasConv k.val && inputWf k input && decide (k ≠ 4) && s.owDue k.val input.val t
      && !s.owLatched k.val input.val then
    .next (s.fault 0x0401 (mkInst k.val input.val) 0)
  else .next s

/-- `AUX_WINDOW` (R241): the means of a window of 1 ms of the local timebase while the counter of `AUX_LOAF` is stopped. The windows
end at its whole milliseconds (DESIGN CHOICE: R241 gives no alignment, log entry 188). -/
def execAuxWindow (t : Nat) (s0 : State) : Host.Outcome State Fault Refusal :=
  let s := s0.atT t
  if !s.regionUp || (s.loaf.get s.auxLoafN).running || decide (t % msCycles ≠ 0 ∨ t ≤ (s.convAt 5).auxEndT) then .next s
  else
    let s1 := forAll (List.range 8) (State.auxMean s.acc) (s.modConvN 5 (fun c => { c with auxEndT := t }))
    .next (s1.setAcc (s1.acc.filter (fun a => decide (a.conv ≠ 5))))

/-- `CAPTURE_COMPLETE` (R244 step 4): Q items per source are held from the trigger item on. -/
def execCaptureComplete (t : Nat) (s0 : State) : Host.Outcome State Fault Refusal :=
  let s := s0.atT t
  if s.rd Obj.capState = 3 ∧ s.cap.complete then
    .next ((s.wr Obj.capState 4).wr Obj.capLen (s.capImage.length : Int))
  else .next s

end Sys2Proof.Machine
end

