-- ==== Sys2Proof/Machine/Faults.lean ====
section
/-! DEFINITION. The commands of chapter 11: `FAULT` packets across Peel (R358 to R370), debug halts (R207), grace windows,
the writers of the logs, the host heartbeat and `BEAT`. -/

namespace Sys2Proof.Machine

/-! ## FAULT packets to region M (R365, R366) -/

/-- The event a packet carries, rebuilt by region M where nothing more of it is on its way: the class and reaction from the
class table, the latch from bits 25:2 of its stamp (R366). -/
def State.rebuild (s : State) (p : Packet) : Event :=
  let ev := pktAction p % 8
  let c := s.classOf (pktCode p)
  let ago := 4 * ((s.time.now / 4 % 2 ^ 24 + 2 ^ 24 - leAt p.payload 5 3) % 2 ^ 24)
  { code := pktCode p, inst := pktInst p, cls := if ev = 1 then .c3 else c.1, react := c.2, flags := pktAction p / 8 % 32
    event := ev, occ := 1, data := 0, stamp := s.time.now - ago, quiet := (pktAction p / 8).testBit 0 }

/-- Region M learns of an event: one whose reaction stops the module tells it of SAFE (R112); the raising of a C2 fault tells it of
an open window, any later event of the fault that the window is closed (R358, R359). -/
def State.learnEvent (e : Event) (s : State) : State :=
  let others := s.flt.windows.filter (fun w => w != (e.code, e.inst))
  (s.modBoot (fun b => { b with safeSeen := b.safeSeen || decide (5 ≤ e.react) })).modFlt (fun f => { f with
    windows := if e.event = 0 ∧ e.cls = .c2 ∧ !e.quiet then others ++ [(e.code, e.inst)]
      else if e.event = 3 then f.windows else others })

/-- `FAULT_PACKET_EVENT` (R112, R363 to R366). -/
def execFaultPacketEvent (p : Packet) (s : State) : Host.Outcome State Fault Refusal :=
  .next (s.peelTake .m .fault p (fun x =>
    match x.flt.evtQ.find? (fun e => eventPayload e == p.payload) with
    | some e => ((x.modFlt (fun f => { f with evtQ := f.evtQ.erase e })).logEvent e).learnEvent e
    | none => (x.logEvent (x.rebuild p)).learnEvent (x.rebuild p)))

/-! ## FAULT packets to the collector (R366) -/

/-- A `FAULT` packet with an action of R366 reaches region C. -/
def State.faultTake (p : Packet) (ok : Nat → Bool) (f : State → State) (s : State) : State :=
  s.peelTake .c .fault p (fun x => if ok (pktAction p) then f x else x)

/-- `FAULT_PACKET_REPORT` (R365): latched in the cycle of its arrival, with the data its report holds. -/
def execFaultPacketReport (p : Packet) (t : Nat) (s0 : State) : Host.Outcome State Fault Refusal :=
  let s := s0.atT t
  .next (s.faultTake p (fun a => a == 0) (fun x =>
    match x.flt.mRep.find? (fun r => r.1 == pktCode p && r.2.1 == pktInst p) with
    | some r => (x.modFlt (fun f => { f with mRep := f.mRep.erase r })).fault (pktCode p) (pktInst p) r.2.2
    | none => x.fault (pktCode p) (pktInst p) 0))

/-- An acknowledgement reaches the collector: before the expiry it closes the window, from it on it is logged late
(R358, R359). -/
def State.ackLands (code inst : Half) (s : State) : State :=
  match s.flt.pend.find? (fun p => p.code == code && p.inst == inst) with
  | none => s
  | some q =>
    let flags := q.flags % 16
    match q.window with
    | some e =>
      if s.time.now < e then
        (s.modFlt (fun f => { f with pend := f.pend.map (fun p =>
          if p.code == code && p.inst == inst then { p with window := none } else p) })).emit code inst q.cls q.react flags 2 1 0
      else s.emit code inst q.cls q.react flags 3 1 0
    | none => if q.ran then s.emit code inst q.cls q.react flags 3 1 0 else s

/-- `FAULT_PACKET_ACK` (R358, R359). -/
def execFaultPacketAck (p : Packet) (t : Nat) (s0 : State) : Host.Outcome State Fault Refusal :=
  let s := s0.atT t
  .next (s.faultTake p (fun a => a == 1) (fun x =>
    ((x.modFlt (fun f => { f with acks := f.acks.erase (pktCode p, pktInst p) })).ackLands (pktCode p) (pktInst p)).settle))

/-- `FAULT_PACKET_CLEAR` (R362): what it names and the collector can clear; that of a `FAULT_CLEAR` has been cleared with it. -/
def execFaultPacketClear (p : Packet) (t : Nat) (s0 : State) : Host.Outcome State Fault Refusal :=
  let s := s0.atT t
  .next (s.faultTake p (fun a => a == 2) (State.unlessCarried p (fun x =>
    match x.clearFaults (pktCode p) (pktInst p) with
    | some r => r.2.settle
    | none => x)))

/-- `FAULT_PACKET_INJECT` (R369): that of an `INJECT` has been raised with it. -/
def execFaultPacketInject (p : Packet) (t : Nat) (s0 : State) : Host.Outcome State Fault Refusal :=
  let s := s0.atT t
  .next (s.faultTake p (fun a => a == 3 || a == 4) (State.unlessCarried p (fun x =>
    let live := pktAction p == 4
    let code := pktCode p
    let inst := pktInst p
    if decide (4 ≤ x.flt.inj.length) || !injectable code live || !x.raisable code inst then x
    else if live then (x.raiseLive code inst).settle else (x.raiseDry code inst).settle)))

/-! ## Debug halts (R207, R501) -/

/-- A halt puts every loaf in its Crust pattern and stops every counter; `HALT_CAUSE` holds its bit; 0x8001 follows. -/
def State.halt (r : Region) (s : State) : State :=
  let s1 : State := match r with
    | .c => ({ s with haltC := true }).wrBit Obj.haltCause 0 true
    | .m => ({ s with haltM := true }).wrBit Obj.haltCause 1 true
  (forAll units4 (fun n x => (x.pwmTo n).modLoaf n (fun l => { l with running := false, gapCounted := false })) s1).fault 0x8001
    (match r with | .c => 0 | .m => 1) 0

/-- `HALT_NOTIFICATION` (R207, R366 action 5): halts are possible only while debug access is unlocked. -/
def execHaltNotification (p : Packet) (t : Nat) (s0 : State) : Host.Outcome State Fault Refusal :=
  let s := s0.atT t
  .next (s.faultTake p (fun a => a == 5) (fun x => if x.sec.unlocked then x.halt .m else x))

/-- `DEBUG_HALT` (R207). -/
def execDebugHalt (t : Nat) (s0 : State) : Host.Outcome State Fault Refusal :=
  let s := s0.atT t
  if s.sec.unlocked && s.regionUp then .next (s.halt .c) else .next s

/-- `HALT_END` (R207): the halts in force end; `HALT_CAUSE` keeps every loaf in its Crust pattern. -/
def execHaltEnd (s : State) : Host.Outcome State Fault Refusal := .next { s with haltC := false, haltM := false }

/-! ## The collector (R354, R358) -/

/-- `FAULT_LATCH` (R316, R353 to R357, R360, R370, R372). -/
def execFaultLatch (code inst : Half) (data : Int) (t : Nat) (s0 : State) : Host.Outcome State Fault Refusal :=
  let s := s0.atT t
  if s.resetOver && s.raisable code inst then .next ((s.latch code inst data).attributed code inst).settle else .next s

/-- A window expires: the fault is C3 from now on, logged as escalated, and its reaction runs (R358). -/
def State.escalate (q : Pend) (s : State) : State :=
  ((s.modFlt (fun f => { f with pend := f.pend.map (fun p =>
    if p.code == q.code && p.inst == q.inst then { p with cls := .c3, ran := true, window := none } else p) })).emit
      q.code q.inst .c3 q.react (q.flags % 16 + flagEsc) 1 1 q.data).react q.react q.code q.inst

/-- `GRACE_EXPIRY` (R358). -/
def execGraceExpiry (code inst : Half) (t : Nat) (s0 : State) : Host.Outcome State Fault Refusal :=
  let s := s0.atT t
  match s.flt.pend.find? (fun p => p.code == code && p.inst == inst) with
  | none => .next s
  | some q => match q.window with
    | none => .next s
    | some e => if e ≤ s.time.now then .next (s.escalate q).settle else .next s

/-! ## Writers of the logs (R363, R498) -/

/-- `NV_LOG_WRITE` (R363): the oldest queued entry. -/
def execNvLogWrite (s : State) : Host.Outcome State Fault Refusal :=
  match s.flt.nvQ with
  | [] => .next s
  | e :: rest =>
    if s.askard then .next (s.modFlt (fun f => { f with nvlog := (e :: f.nvlog).take 2048, nvQ := rest })) else .next s

/-- `AUDIT_LOG_WRITE` (R498): the oldest queued entry. -/
def execAuditLogWrite (s : State) : Host.Outcome State Fault Refusal :=
  match s.sec.auditQ.getLast? with
  | none => .next s
  | some e =>
    if s.askard then
      .next (s.modSec (fun x => { x with audit := (e :: x.audit).take 4096, auditQ := x.auditQ.dropLast })) else .next s

/-! ## Heartbeats (R367, R368) -/

/-- `HOST_HB_TIMEOUT` (R368): more than `HB_TIMEOUT` ms have passed since the last beat; said once until the next. -/
def execHostHbTimeout (s0 : State) : Host.Outcome State Fault Refusal :=
  match s0.flt.lastBeat with
  | none => .next s0
  | some t0 =>
    if s0.askard && s0.flt.hbArmed && decide (s0.rd Obj.hbTimeout ≠ 0) && !s0.flt.hbSaid then
      let s := s0.atT (t0 + s0.rdN Obj.hbTimeout * msCycles + 1)
      .next ((((s.modFlt (fun f => { f with hbSaid := true })).bump Obj.hbLateCount).setIrq 13).reportM 0xF401 0 0)
    else .next s0

/-- The shortest half-period of `BEAT`, 475 µs, has passed since its last edge or the return of its conditions (R367). -/
def State.beatDue (s : State) : Bool := decide (s.flt.beatT + 475 * usCycles ≤ s.time.now)

/-- `BEAT_TOGGLE` (R367). -/
def execBeatToggle (t : Nat) (s0 : State) : Host.Outcome State Fault Refusal :=
  let s := s0.atT t
  if s.regionUp && s.beatOk && s.beatDue then .next (s.modFlt (fun f => { f with beat := !f.beat, beatT := t })) else .next s

end Sys2Proof.Machine
end

