-- ==== Sys2Proof/Machine/Feedback.lean ====
section
/-! DEFINITION. The feedback events of chapter 8. -/

namespace Sys2Proof.Machine

/-- Channel `n` works in one of the given modes. -/
def State.fbLive (s : State) (n : Fin 4) (modes : List Int) : Bool :=
  s.regionUp && s.has n.val && modes.contains (s.rd (Obj.fbMode n.val))

/-- `FB_EDGE` (R252 to R256, R258, R521): the levels of the channel's pads have stood for `ns`, and the filter takes them or does
not. In mode 5 A and B are the comparators', which no filter follows; in modes 3 and 4 `FBn_Z` is the clock's output; a mode that
ignores the pads only takes the levels. -/
def execFbEdge (n : Fin 4) (a b z : Bool) (ns inst t : Nat) (s00 : State) : Host.Outcome State Fault Refusal :=
  let s0 := s00.atT t
  if !(s0.regionUp && s0.has n.val) then .next s0
  else
    let takes := filterTakes true (s0.rdN (Obj.fbFilt n.val)) ns (Config.filterFree s0.freeNo)
    let s := s0.drew
    let lv := fun (x y w : Bool) (r : State) => r.setLevels n x y w t
    let f := s.fb.get n
    if s.fbLive n [5] then
      .next (((if takes then lv f.a f.b z s else s).quadEdge n a b inst t).gateFollow n).settle
    else if !takes then .next s
    else if s.fbLive n [1] then
      .next (((lv a b z (s.quadEdge n a b inst t))).gateFollow n).settle
    else if s.fbLive n [2] then .next (s.hallEdge n a b z inst t).settle
    else if s.fbLive n [3, 4] then .next (lv a b f.z s)
    else .next (lv a b z s)

/-- `INDEX_EVENT` (R259, R260): the condition becomes true, having ceased to hold since it last did. -/
def execIndexEvent (n : Fin 4) (t : Nat) (s0 : State) : Host.Outcome State Fault Refusal :=
  let s := s0.atT t
  if s.fbLive n [1, 5] && s.indexGate n && !(s.fb.get n).gateWas then
    .next ((s.modFb n (fun f => { f with gateWas := true })).indexTake n).settle
  else .next s

/-- `HALL_INVALID` (R258): the present state has been invalid for 20 µs; said once. -/
def execHallInvalid (n : Fin 4) (t : Nat) (s0 : State) : Host.Outcome State Fault Refusal :=
  let s := s0.atT t
  let f := s.fb.get n
  let due := match f.hallT with
    | some b => decide (b + 20 * usCycles ≤ t)
    | none => false
  if s.fbLive n [2] && (hallSector f.a f.b f.z).isNone && due then
    .next ((s.modFb n (fun f => { f with hallT := none })).fault 0x4805 (mkInst n.val 0) 0)
  else .next s

/-- `STANDSTILL` (R273): no edge for `SPD_STANDSTILL`, or since the start. -/
def execStandstill (n : Fin 4) (t : Nat) (s0 : State) : Host.Outcome State Fault Refusal :=
  let s := s0.atT t
  let due := match (s.fb.get n).lastEdge with
    | some tj => decide (tj + s.rdN (Obj.spdStandstill n.val) * usCycles ≤ t)
    | none => decide ((s.fb.get n).startT + s.rdN (Obj.spdStandstill n.val) * usCycles ≤ t)
  if s.fbLive n [1, 2, 5] && due then
    .next ((s.modFb n (fun f => { f with
      ve := 0, vShown := 0, standstill := true, spdValid := false, edges := [], haveDir := false })).wrs
        [(Obj.spd n.val, 0), (Obj.spdEdge n.val, 0)])
  else .next s

/-- `SERIAL_TRANSFER_START` (R265): a transfer falls due; it begins at once, or when the clock has idled for `SER_PAUSE` after the
one before. Its first clock edge is the latch instant. -/
def execSerialTransferStart (n : Fin 4) (t : Nat) (s0 : State) : Host.Outcome State Fault Refusal :=
  let s := s0.atT t
  if s.fbLive n [3, 4] && s.serDue n t then
    let s1 := s.modFb n (fun f => { f with serQ := f.serQ ++ [t + s.rdN (Obj.serLead n.val)] })
    .next (if (s.fb.get n).serBusy.isNone then s1.serNext n t else s1)
  else .next s

/-- A transfer that ended in time (R266 to R268): failed, in error (nE low), or usable. -/
def State.serResult (n : Fin 4) (r : SerialResult) (t0 : Nat) (s : State) : State :=
  let biss := decide (s.rd (Obj.fbMode n.val) = 4)
  let mtb := s.rdN (Obj.serMtBits n.val)
  let stb := s.rdN (Obj.serStBits n.val)
  let s1 := if biss && (r.line.take 64).contains false then s.wr (Obj.serLineDly n.val) (clampI 0 65535 (r.delay : Int)) else s
  match if biss then bissWord (mtb + stb) r else ssiWord (mtb + stb) r with
  | none => s1.serFail n
  | some w =>
    let bin := if !biss && decide (s.rd (Obj.serCode n.val) = 1) then grayDecode (mtb + stb) w.data else w.data
    let s2 := if w.nW then s1 else s1.latchLimited 0x0803 (mkInst n.val 0) 0
    if w.nE then s2.serTake n (bin / 2 ^ stb) (bin % 2 ^ stb) t0
    else (s2.modFb n FbSt.serGood).latch 0x4807 (mkInst n.val 0) 0

/-- `SERIAL_TRANSFER_END` (R265 to R269): one already counted as failed only ends; the next transfer waiting starts after the pause,
and a boundary that awaited this one completes. -/
def execSerialTransferEnd (n : Fin 4) (r : SerialResult) (t : Nat) (s0 : State) : Host.Outcome State Fault Refusal :=
  let s := s0.atT t
  match (s.fb.get n).serBusy with
  | none => .next s
  | some t0 =>
    if t < t0 then .next s
    else
      let s1 := s.modFb n (fun f => { f with serBusy := none, serLate := false, serEndT := some t })
      let s2 := if (s.fb.get n).serLate || !s.fbLive n [3, 4] then s1 else s1.serResult n r t0
      .next ((s2.serNext n t).sampleCame n).settle

end Sys2Proof.Machine
end

