-- ==== Sys2Proof/Machine/HostPort.lean ====
section
/-! DEFINITION. The host port (chapter 4): frames, the window registers with a row of their own, the heartbeat of Askard. -/

namespace Sys2Proof.Machine

/-! ## Frames (R117 to R124) -/

/-- The fields of a frame's header (R117). -/
def frOp (b : List Byte) : Nat := (b.getD 0 0).toNat
def frAddr (b : List Byte) : Nat := (b.getD 1 0).toNat * 256 + (b.getD 2 0).toNat
def frCount (b : List Byte) : Nat := (b.getD 3 0).toNat
/-- The frame's format is sound (R117). -/
def frFormat (b : List Byte) : Bool :=
  decide (frOp b = 0x0B ∨ frOp b = 0x02) && decide (frAddr b % 4 = 0) && decide (1 ≤ frCount b ∧ frCount b ≤ 64)
/-- Bits of the frame up to the end of its final CRC byte (R118). -/
def frBits (b : List Byte) : Nat := if frOp b = 0x0B then 8 * (4 * frCount b + 7) else 8 * (4 * frCount b + 5)
/-- The CRC the host sent is right: over the header of a read, over header and data of a write (R118, R119). -/
def frCrcOk (b : List Byte) : Bool :=
  if frOp b = 0x0B then decide (b.getD 4 0 = crc8 (slice b 0 4))
  else decide (b.getD (4 + 4 * frCount b) 0 = crc8 (slice b 0 (4 + 4 * frCount b)))

/-- The result code of a frame (R120, R123); `bits` is how many bits were clocked before `HCS_N` rose. -/
def frameResult (b : List Byte) (bits gapNs : Nat) : Nat :=
  if gapNs < 1000 then 4
  else if bits < 32 then 2
  else if !frFormat b then 3
  else if bits < frBits b then 2
  else if !frCrcOk b then 1
  else 0

/-- The header of a read frame is accepted: data are driven and groups snapshotted (R121, R123, R128). -/
def readHeaderOk (b : List Byte) (bits gapNs : Nat) : Bool :=
  decide (1000 ≤ gapNs ∧ 40 ≤ bits ∧ frOp b = 0x0B) && frFormat b && frCrcOk b

/-- The frame status word sampled at the falling edge (R124). -/
def State.statusWord (s : State) : List Byte :=
  [0x5A, BitVec.ofNat 8 s.host.lastResult, s.host.irqFlags.setWidth 8, BitVec.ofNat 8 s.host.frameCnt]

/-- The data words of a read frame, most significant byte first (R115). -/
def State.frameData (s : State) (b : List Byte) : List Byte :=
  (List.range (frCount b)).flatMap (fun i => beBytes 4 (s.windowRead (frAddr b + 4 * i)).toNat)

/-- What `HMISO` carries over a whole frame (R118, R121, R124). -/
def State.frameMiso (s : State) (b : List Byte) (good : Bool) : List Byte :=
  if frOp b = 0x0B then
    let data := if good then s.frameData b else List.replicate (4 * frCount b) 0
    let crc := crc8 (slice b 0 4 ++ data)
    s.statusWord ++ [0, 0] ++ data ++ [if good then crc else ~~~ crc]
  else if frOp b = 0x02 then s.statusWord ++ List.replicate (4 * frCount b + 1) 0
  else s.statusWord

/-- A discarded frame is counted by its result and sets `FRAME_ERR` (R120, R127, R129). -/
def State.frameErr (result : Nat) (s : State) : State :=
  if result = 0 then s
  else
    let up := fun (v : Nat) (i : Nat) => if result = i then min (v + 1) 0xFFFF else v
    (s.modHost (fun h => { h with
      errCrc := up h.errCrc 1, errCut := up h.errCut 2, errFmt := up h.errFmt 3, errGap := up h.errGap 4 })).setIrq 11

/-- The words a write frame carries (R115). -/
def frWords (b : List Byte) : List Word := (List.range (frCount b)).map (fun i => beWord (slice b (4 + 4 * i) 4))

/-- A frame from the falling to the rising edge of `HCS_N`; bytes beyond those given are 0. `HOST_LAST` read inside a frame does
not count that frame's own falling edge (DESIGN CHOICE: R124 says so of the status byte only, log entry 154). -/
def State.hostFrame (bytes : List Byte) (bits gapNs : Nat) (s : State) : State :=
  if !s.resetOver then s
  else
    let good := readHeaderOk bytes bits gapNs
    let result := frameResult bytes bits gapNs
    let s1 := if good then s.snapshot (frAddr bytes) (frCount bytes) else s
    let miso := if s.misoDrives then (s1.frameMiso bytes good).take ((bits + 7) / 8) else []
    let s2 := (s1.modHost (fun h => { h with
      miso := miso, lastResult := result, frameCnt := (h.frameCnt + 1) % 65536 })).frameErr result
    if result = 0 ∧ frOp bytes = 0x02 then State.windowWrites (frAddr bytes) (frWords bytes) s2 else s2

/-- `HOST_WRITE_FRAME` (R118, R120, R122). -/
def execHostWriteFrame (bytes : List Byte) (bits gapNs : Nat) (s : State) : Host.Outcome State Fault Refusal :=
  .next (s.hostFrame bytes bits gapNs).settle
/-- `HOST_READ_FRAME` (R118, R121, R128). -/
def execHostReadFrame (bytes : List Byte) (bits gapNs : Nat) (s : State) : Host.Outcome State Fault Refusal :=
  .next (s.hostFrame bytes bits gapNs).settle

/-! ## Window registers -/

/-- `DB_IN` (R133, R135). -/
def execDbIn (w : Word) (s : State) : Host.Outcome State Fault Refusal := .next (s.windowWrite 0x070 w)
/-- `DB_OUT` (R134, R528). -/
def execDbOut (w : Word) (s : State) : Host.Outcome State Fault Refusal := .next (s.windowWrite 0x074 w)
/-- `TS_CTRL` (R130). -/
def execTsCtrl (w : Word) (s : State) : Host.Outcome State Fault Refusal := .next (s.windowWrite 0x050 w)
/-- `HB_HOST` (R127, R368). -/
def execHbHost (w : Word) (s : State) : Host.Outcome State Fault Refusal := .next (s.windowWrite 0x044 w)
/-- `IRQ_FLAGS` (R129). -/
def execIrqFlags (w : Word) (s : State) : Host.Outcome State Fault Refusal := .next (s.windowWrite 0x030 w)
/-- `HOST_CNT_CLR` (R127). -/
def execHostCntClr (w : Word) (s : State) : Host.Outcome State Fault Refusal := .next (s.windowWrite 0x094 w)
/-- `WINDOW_REGISTER_WRITE` (R127, R131, R132). -/
def execWindowRegisterWrite (addr : Nat) (w : Word) (s : State) : Host.Outcome State Fault Refusal :=
  .next (s.windowWrite (addr / 4 * 4) w)

/-- `TS_LATCH_COMPLETE` (R130): the latched time in 0x054 to 0x060. -/
def execTsLatchComplete (s : State) : Host.Outcome State Fault Refusal :=
  match s.time.tsPending with
  | none => .next s
  | some v =>
    let seq := (s.host.tsSeq + 1) % 256
    let ns := v.floor.toNat
    let sub := ((v - v.floor) * 65536).floor.toNat
    let sec := ns / 1000000000
    .next (((s.modTime (fun t => { t with tsPending := none })).modHost (fun h => { h with
      tsSeq := seq
      tsSubns := word32 (sub + 65536 * b2n s.time.tsLock + 0x1000000 * seq)
      tsNs := word32 (ns % 1000000000), tsSecLo := word32 sec, tsSecHi := word32 (sec / 2 ^ 32 % 65536) })).setIrq 10)

/-! ## The heartbeat of Askard -/

/-- Flags of monitors whose condition persists set again at a sample (R86). -/
def State.supplyRefresh (s : State) : State :=
  let s1 := if s.power.vinUnderNow then s.wrBit Obj.supplyFlags 0 true else s
  forAll s.power.asserted (fun m x => x.wrBit Obj.supplyFlags (monBit m) true) s1

/-- A millisecond of `PT_AGE` (R407). -/
def State.ptTick (s : State) : State :=
  if s.safety.ptMs + 1 < 3600000 then s.modSafety (fun f => { f with ptMs := f.ptMs + 1 })
  else (s.modSafety (fun f => { f with ptMs := 0 })).bump Obj.ptAge

/-- `HB_MODULE_TICK` (R127): the count, and what the passing millisecond itself brings: the supply flags (R86), `PT_AGE` and
`DISC_MAX` (R407), and safety demands that end (R385). -/
def execHbModuleTick (t : Nat) (s0 : State) : Host.Outcome State Fault Refusal :=
  let s := s0.atT t
  if s.askard then
    let s1 := (s.modHost (fun h => { h with hbModule := h.hbModule + 1 })).supplyRefresh.ptTick
    .next (((s1.discStep .c).discStep .m).safetyEval).settle
  else .next s

end Sys2Proof.Machine
end

