-- ==== Sys2Proof/Machine/NetOps.lean ====
section
/-! DEFINITION. The switch, the connections and the PTP slave (R408 to R421), and Leaven (R422 to R428). -/

namespace Sys2Proof.Machine

/-! ## Ports -/

/-- An external port is up (R411). -/
def State.portUp (s : State) (p : Nat) : Bool := s.askard && s.net.up.getD p false
/-- The station time latched for a delimiter that crosses now: within 4 ns of it (R421). -/
def State.latched (s : State) : Rat := s.time.station + clampR (-4) 4 (Config.latchError s.freeNo)
/-- Compensated ingress and egress timestamps of a port, R421. -/
def State.stampRx (s : State) (p : Nat) : Rat := s.latched - s.rdR (Obj.phyRxLat p)
def State.stampTx (s : State) (p : Nat) : Rat := s.latched + s.rdR (Obj.phyTxLat p)

/-! ## The switch (R409, R410, R420) -/

/-- The module's own address. -/
def ownMac : Nat := (Config.macAddr 0).toNat
/-- A multicast or broadcast destination: bit 0 of the first byte. -/
def isGroup (mac : Nat) : Bool := mac.testBit 40
/-- The broadcast address. -/
def bcastMac : Nat := 0xFFFFFFFFFFFF

/-- A source address learned, or its entry refreshed: 512 entries (R409). -/
def State.learn (mac port : Nat) (s : State) : State :=
  if s.net.macs.any (fun e => e.1 == mac) then
    s.modNet (fun n => { n with macs := n.macs.map (fun e => if e.1 == mac then (mac, port, s.time.now) else e) })
  else if s.net.macs.length < 512 then s.modNet (fun n => { n with macs := n.macs ++ [(mac, port, s.time.now)] })
  else s

/-- The ports a good frame received on `p` goes to (R409). -/
def State.forwardTo (s : State) (p : Nat) (f : EthFrame) : List Nat :=
  let inner := decide (f.vid = 0) && (f.dst == ownMac || f.dst == bcastMac || (f.ptpMc && decide (s.rd Obj.ptpEn = 1)))
  if f.ptp = some .pdelay then (if inner then [2] else [])
  else if isGroup f.dst then (1 - p) :: (if inner then [2] else [])
  else match s.net.macs.find? (fun e => e.1 == f.dst) with
    | some e => if e.2.1 = p then [] else [e.2.1]
    | none => (1 - p) :: (if inner then [2] else [])

/-- The frame as it waits. -/
def State.egressFrame (s : State) (p : Nat) (f : EthFrame) : EgressFrame :=
  { len := f.len, high := f.ptp.isSome, corr := f.corr, ptp := f.ptp, stampIn := s.stampRx p, ingress := p,
    twoStep := f.twoStep, ptpId := f.ptpId, ptpSeq := f.ptpSeq, udp := f.udp, noSum := false, tagged := decide (f.vid ≠ 0) }

/-- The frame an egress port sends next: an external port's high queue first, the endpoint's in order (R410). -/
def nextFrame (q : Nat) (l : List EgressFrame) : Option EgressFrame :=
  if q = 2 then l.head?
  else match l.find? (fun f => f.high) with
    | some f => some f
    | none => l.head?

/-- A forwarded PTP frame leaves at a compensated stamp: the transparent clock's correction in 2^-16 ns (R420). One with a VID is
forwarded unchanged (R409). -/
def State.transparent (q : Nat) (out : Rat) (f : EgressFrame) (s : State) : State × EgressFrame :=
  let stay : Rat := out - f.stampIn
  let res : Int := showInt (65536 * stay)
  let p2p := decide (s.rd Obj.ptpDelay = 1)
  let add := if p2p then showInt (65536 * (stay + s.net.peerD.getD f.ingress 0)) else res
  if s.rd Obj.ptpTc ≠ 1 ∨ q = 2 ∨ f.ingress = 2 ∨ f.tagged then (s, f)
  else match f.ptp with
    | some .sync =>
      if f.twoStep then
        (s.modNet (fun n => { n with tcTable := ((f.ptpId, f.ptpSeq, add, f.stampIn) :: n.tcTable).take 8 }), f)
      else (s, { f with corr := f.corr + add, noSum := f.udp })
    | some .delayReq => if p2p then (s, f) else (s, { f with corr := f.corr + res, noSum := f.udp })
    | some .followUp =>
      match s.net.tcTable.find? (fun e => e.1 == f.ptpId && e.2.1 == f.ptpSeq) with
      | some e =>
        let s1 := s.modNet (fun n => { n with tcTable := n.tcTable.erase e })
        if 1000000000 < f.stampIn - e.2.2.2 then (s1.bump Obj.tcUnmatched, f)
        else (s1, { f with corr := f.corr + e.2.2.1, noSum := f.udp })
      | none => (s.bump Obj.tcUnmatched, f)
    | _ => (s, f)

/-! ## Connections (R414 to R417) -/

/-- A connection closes: its subscriptions end, a transfer it began is released, a command it has executing completes
without a response (R160, R177, R416, R499). -/
def State.closeConn (c : Fin 4) (why : Nat) (s : State) : State :=
  let k := s.net.conns.get c
  if !k.open_ then s
  else
    let src : Source := .net c
    let s1 := if k.tls then s.auditEvent 0x0003 (auditPath src) k.user k.role 0 why else s
    let s2 := ((s1.endSubs (c.val + 1)).modCmd (fun m => { m with
      xfer := m.xfer.filter (fun x => decide (x.src ≠ src)), setXfers := m.setXfers.filter (fun x => decide (x.src ≠ src))
      staging := m.staging.filter (fun x => decide (x.1 ≠ src))
      snaps := m.snaps.filter (fun x => decide (x.1 ≠ src)) })).capForget src
    s2.modConn c (fun x => { ({} : Conn) with job := x.job })

/-! ## Leaven (R422 to R428) -/

/-- A Leaven channel, and one written. -/
def State.lv (s : State) (ch : Fin 2) : Leaven := if ch = 0 then s.time.lv0 else s.time.lv1
def State.setLv (ch : Fin 2) (l : Leaven) (s : State) : State :=
  s.modTime (fun t => if ch = 0 then { t with lv0 := l } else { t with lv1 := l })

/-- An offset refused: R424. Fault 0xE801 concerns channel 0 only (R428). -/
def State.leavenRefuse (ch : Fin 2) (o : Int) (s : State) : State :=
  let l := s.lv ch
  let s1 := ((s.setLv ch { l with st := .jump, rate := l.integ, jump := true, jumpOfs := o, inRun := 0, outRun := 0 }).wrs
    [(Obj.lvJumpS ch.val, clampI (-0x80000000) 0x7FFFFFFF (Int.tdiv o 1000000000)),
     (Obj.lvJumpNs ch.val, Int.tmod o 1000000000)]).bump (Obj.lvRefused ch.val)
  if ch = 0 ∧ l.st ≠ .jump then s1.reportM 0xE801 0 (clampI (-0x80000000) 0x7FFFFFFF o) else s1

/-- The servo and the state of an accepted offset (R422, R423). -/
def State.leavenAccept (ch : Fin 2) (o : Int) (s : State) : State :=
  let l := s.lv ch
  let top : Rat := s.rdR (Obj.lvMaxPpb ch.val)
  let i := clampR (-top) top (l.integ + q16 (s.rdR (Obj.lvKi ch.val)) * (o : Rat))
  let rate := clampR (-top) top (i + q16 (s.rdR (Obj.lvKp ch.val)) * (o : Rat))
  let near := decide ((o.natAbs : Int) ≤ s.rd (Obj.lvLockNs ch.val))
  let inRun := if near then l.inRun + 1 else 0
  let outRun := if near then 0 else l.outRun + 1
  let st : LvState :=
    if l.st = .locked then (if 4 ≤ outRun then .tracking else .locked)
    else if s.rdN (Obj.lvLockN ch.val) ≤ inRun then .locked else .tracking
  s.setLv ch { l with st := st, integ := i, rate := rate, inRun := inRun, outRun := if st = .locked then outRun else 0, jump := false }

/-- The first offset in FREE steps the clock (R425, R428); the trimmed units are loaded after a step of the station clock
(R432). -/
def State.leavenStep (ch : Fin 2) (o : Int) (s : State) : State :=
  s.modTime (fun t =>
    if ch = 0 then { t with
      station := if t.station - o < 0 then 0 else t.station - o
      unitPending := t.unitPending.mapIdx (fun u b => b || decide (s.rd (Obj.tuTrim u) = 1)) }
    else { t with pairClk := if t.pairClk - o < 0 then 0 else t.pairClk - o })

/-- An offset delivered to a channel (R423 to R425). -/
def State.leaven (ch : Fin 2) (o : Int) (s0 : State) : State :=
  let s := s0.wr (Obj.lvLastOfs ch.val) (clampI (-0x80000000) 0x7FFFFFFF o)
  if (s.lv ch).st = .free ∧ s.rd (Obj.lvInitStep ch.val) = 1 then (s.leavenStep ch o).leavenAccept ch o
  else if s.rd (Obj.lvJump ch.val) < (o.natAbs : Int) then s.leavenRefuse ch o
  else s.leavenAccept ch o

/-- The station channel enters HOLDOVER (R427, R436): the rate is held at the integrator. -/
def State.holdover (s : State) : State :=
  let l := s.time.lv0
  if l.st = .holdover then s
  else (s.setLv 0 { l with st := .holdover, rate := l.integ, inRun := 0, outRun := 0 }).reportM 0xE802 0
    (clampI (-0x80000000) 0x7FFFFFFF (showInt (l.integ * 100)))

/-! ## The PTP slave (R418, R419) -/

/-- A vector that comes before another. -/
def rankLt : List Nat → List Nat → Bool
  | [], [] => false
  | [], _ :: _ => true
  | _ :: _, [] => false
  | a :: as, b :: bs => decide (a < b) || (a == b && rankLt as bs)
/-- The grandmaster's data set of an Announce message, from priority1 to its identity. -/
def announceRank (a : Announce) : List Nat := [a.priority1, a.clockClass, a.accuracy, a.variance, a.priority2, a.gmId]
/-- The data set comparison of IEEE 1588: of one grandmaster the nearer, of two the better (R418). -/
def Heard.better (f g : Heard) : Bool :=
  if f.gmId = g.gmId then rankLt [f.steps, f.clockId, f.port] [g.steps, g.clockId, g.port] else rankLt f.rank g.rank
/-- The best of the masters heard. -/
def bestMaster (l : List Heard) : Option Nat :=
  (l.foldl (fun (b : Option Heard) f => match b with
    | none => some f
    | some g => if f.better g then some f else some g) none).map (fun f => f.clockId)

/-- An announce interval in cycles: 2^n s. -/
def announceCycles (n : Int) : Nat := if 0 ≤ n then secCycles * 2 ^ n.toNat else secCycles / 2 ^ (-n).toNat

/-- The best master clock algorithm over what is heard now: a different clockIdentity brings HOLDOVER (R427). -/
def State.selectMaster (s : State) : State :=
  let best := bestMaster s.heardNow
  if best = s.net.master then s
  else
    let s1 := s.modNet (fun n => { n with
      master := best, synced := false, syncPend := none, lastSync := none, reqLatch := none })
    if s.net.master.isSome then s1.holdover else s1

/-- The module's own PTP runs. -/
def State.ptpOn (s : State) : Bool := s.askard && decide (s.rd Obj.ptpEn = 1)
/-- Peer delay is measured on each port (R420). -/
def State.peerMeasured (s : State) : Bool :=
  s.askard && decide (s.rd Obj.ptpDelay = 1) && decide (s.rd Obj.ptpEn = 1 ∨ s.rd Obj.ptpTc = 1)

/-- The module's own clockIdentity: its MAC address with 0xFFFE after the third byte; and the portIdentity of a port (R418). -/
def ownClock : Nat := ownMac / 2 ^ 24 * 2 ^ 40 + 0xFFFE * 2 ^ 24 + ownMac % 2 ^ 24
def ownPort (p : Nat) : Nat × Nat := (ownClock, p + 1)

/-- A message of the module's domain and transport, of version 2 or above (R418). -/
def State.hears (s : State) (h : PtpHead) : Bool :=
  decide ((h.domain : Int) = s.rd Obj.ptpDomain) && decide (h.udp = decide (s.rd Obj.ptpTransport = 1)) && decide (2 ≤ h.version)
/-- A message of the selected master at the active port (R418, R419). -/
def State.fromMaster (s : State) (p : Nat) (h : PtpHead) : Bool :=
  s.ptpOn && decide (s.ptpPort = some p) && s.hears h && decide (s.net.master = some h.src.1)
/-- The header of a message the module sends from a port (R418). -/
def State.ownHead (s : State) (p seq : Nat) (req : Nat × Nat) : PtpHead :=
  { domain := s.rdN Obj.ptpDomain, udp := decide (s.rd Obj.ptpTransport = 1), version := 2, src := ownPort p, seq := seq, req := req }

/-- The correctionField of a request the module sends from a port, in 2^-16 ns: less the asymmetry, which its answer brings back, so
that the path delays of `PTP_DELAY_RESP` and `PDELAY_RESP` hold none of it (R419; PRESUMED from IEEE 1588, log entry 121). -/
def State.requestCorr (s : State) (p : Nat) : Int := -65536 * s.rd (Obj.asym p)

/-- A frame of the endpoint leaves an external port at a compensated stamp: a request's departure is kept for its response; that of a
Pdelay_Resp goes out in the Follow_Up (R418, R419). -/
def State.ownLeft (p : Nat) (out : Rat) (f : OwnFrame) (s : State) : State := match f with
  | .delayReq h _ => if h.seq = s.net.reqSeq then s.modNet (fun n => { n with reqLatch := some out }) else s
  | .pdelayReq h _ =>
    if h.seq = s.net.pdSeq.getD p 0 then s.modNet (fun n => { n with pdLatch := n.pdLatch.set p (some out) }) else s
  | .pdelayResp h receipt corr =>
    (s.modNet (fun n => { n with pdSent := some (p, h.seq, receipt, out) })).ownSend [p] (.pdelayFollow h out corr)
  | _ => s

/-- An offset formed from a Sync of an instant (R419): ingress less origin, correction, asymmetry and meanPathDelay; it is on its way
to Leaven. -/
def State.offsetFormed (x : Rat) (t : Nat) (s : State) : State :=
  let o := showInt (x - s.net.mpd)
  (s.wr Obj.ptpOffset (clampI (-0x80000000) 0x7FFFFFFF o)).modNet (fun n => { n with
    lastSync := some x, syncPend := none, synced := true, offset := some (o, t) })

/-- A value shown in an unsigned 32-bit object; beyond its range it is free. -/
def showU32 (a : Nat) (x : Rat) : Int :=
  let v := showInt x
  if 0 ≤ v ∧ v < 2 ^ 32 then v else Config.pastRange a v
/-- meanPathDelay replaced. -/
def State.setMpd (x : Rat) (s : State) : State :=
  (s.wr Obj.ptpMpd (shown32 (showInt x))).modNet (fun n => { n with mpd := x })

end Sys2Proof.Machine
end

