-- ==== Sys2Proof/Machine/Network.lean ====
section
/-! DEFINITION. The commands of the switch, the endpoint, the connections, the streams and the PTP slave (R408 to R428). -/

namespace Sys2Proof.Machine

/-! ## Switch and PHYs -/

/-- `ETH_FRAME_RX` (R409, R410, R421): checked, learned, and queued at every port it goes to. -/
def execEthFrameRx (port : Fin 2) (f : EthFrame) (t : Nat) (s0 : State) : Host.Outcome State Fault Refusal :=
  let s := s0.atT t
  if s.portUp port.val then
    if !f.fcsOk || decide (f.len < 64 ∨ 1522 < f.len) then .next (s.bump (Obj.ethFcsErr port.val))
    else
      let s1 := (s.bump (Obj.ethRx port.val)).learn f.src port.val
      .next (forAll (s1.forwardTo port.val f) (fun q x =>
        x.egressPut q (f.dst == bcastMac) (s.egressFrame port.val f)) s1.drew)
  else .next s

/-- `ETH_FRAME_TX` (R410, R415, R420, R421): the next frame of a port leaves, behind what waits in TCP; port 2 hands it to the
endpoint. -/
def execEthFrameTx (port : Fin 3) (t : Nat) (s0 : State) : Host.Outcome State Fault Refusal :=
  let s := (s0.atT t).tcpPush
  let l := s.net.egress.getD port.val []
  match nextFrame port.val l with
  | none => .next s
  | some f =>
    let out := s.stampTx port.val
    let r := (s.modNet (fun n => { n with egress := n.egress.set port.val (l.erase f) })).drew.transparent port.val out f
    let s1 := r.1.modNet (fun n => { n with txLast := some (port.val, r.2) })
    if port.val = 2 then .next s1
    else
      let s2 := s1.bump (Obj.ethTx port.val)
      match f.own with
      | none => .next s2
      | some o => .next (s2.ownLeft port.val out o)

/-- `ADDRESS_AGING` (R409): 300 s after the entry was last refreshed. -/
def execAddressAging (mac : Nat) (s : State) : Host.Outcome State Fault Refusal :=
  match s.net.macs.find? (fun e => e.1 == mac) with
  | none => .next s
  | some e => .next ((s.atT (e.2.2 + 300 * secCycles)).modNet (fun n => { n with macs := n.macs.filter (fun e => e.1 != mac) }))

/-- `PHY_POLL` (R411, R412, R427): register 1 of the PHY at `PHY_ADDR` is read; a port that goes down is reported and forgets its
addresses; a link-up sends a gratuitous ARP. -/
def execPhyPoll (port : Fin 2) (reg1 : Half) (refclk : Bool) (s : State) : Host.Outcome State Fault Refusal :=
  if s.askard then
    let was := s.net.up.getD port.val false
    let now := decide (reg1 ≠ 0xFFFF) && reg1.getLsbD 2 && refclk
    let op : MdioOp := { port := port.val, phy := s.rdN (if port = 0 then Obj.phyAddr0 else Obj.phyAddr1), reg := 1, value := reg1,
                         write := false }
    let s1 := s.modNet (fun n => { n with up := n.up.set port.val now, mdio := (op :: n.mdio).take 8 })
    if was && !now then
      .next (((s1.modNet (fun n => { n with
        macs := n.macs.filter (fun e => e.2.1 != port.val)
        foreign := n.foreign.filter (fun f => f.port != port.val) })).reportM 0xE803 (mkInst port.val 0) 0).selectMaster)
    else if !was && now then
      .next ((s1.modNet (fun n => { n with arpSent := n.arpSent + 1 })).ownSend s1.upPorts (.gratuitousArp s1.net.ipNow))
    else .next s1
  else .next s

/-! ## The IPv4 endpoint (R412) -/

/-- `ARP_RX` (R412): a request for the module's address is answered; its sender, or that of a reply, is cached. -/
def execArpRx (isRequest : Bool) (senderIp senderMac targetIp : Nat) (s : State) : Host.Outcome State Fault Refusal :=
  if s.askard then
    let known := s.net.arp.any (fun e => e.1 == senderIp)
    let ours := targetIp == s.net.ipNow
    let s1 :=
      if known then s.modNet (fun n => { n with
        arp := n.arp.map (fun e => if e.1 == senderIp then (senderIp, senderMac, s.time.now) else e) })
      else if ours && decide (s.net.arp.length < 16) then
        s.modNet (fun n => { n with arp := n.arp ++ [(senderIp, senderMac, s.time.now)] })
      else s
    .next (if isRequest && ours then
      (s1.modNet (fun n => { n with arpReplies := (senderIp, senderMac) :: n.arpReplies })).ownSend (s1.portsTo senderIp)
        (.arpReply senderIp senderMac) else s1)
  else .next s

/-- `ICMP_ECHO` (R412): at most 100 answers a second, with the request's payload; fragments are dropped, and a peer without a route
is not answered (R413). -/
def execIcmpEcho (r : EchoRequest) (t : Nat) (s0 : State) : Host.Outcome State Fault Refusal :=
  let s := s0.atT t
  let recent := s.recentRate s.net.echoT
  if s.askard && !r.fragment && decide (r.payload.length ≤ 1472) && decide (recent.length < 100) && (s.nextHop r.peer).isSome then
    .next ((s.modNet (fun n => { n with echoSent := n.echoSent + 1, echoT := s.time.now :: recent })).ownSend (s.portsTo r.peer)
      (.echoReply r.peer r.payload))
  else .next s

/-- `ARP_CACHE_AGING` (R412): 60 s after the entry was last refreshed. -/
def execArpCacheAging (ip : Nat) (s : State) : Host.Outcome State Fault Refusal :=
  match s.net.arp.find? (fun e => e.1 == ip) with
  | none => .next s
  | some e => .next ((s.atT (e.2.2 + 60 * secCycles)).modNet (fun n => { n with arp := n.arp.filter (fun e => e.1 != ip) }))

/-! ## Connections (R414 to R416, R483) -/

/-- The lowest connection number free: not open, and no command of an earlier connection still executing on it. -/
def State.freeConn (s : State) : Option (Fin 4) :=
  units4.find? (fun c => !(s.net.conns.get c).open_ && (s.net.conns.get c).job.isNone)

/-- `TCP_CONNECT` (R413, R414): on `MGT_PORT` it takes a free number; with every number taken, or on another port, it is answered
with a reset; a peer without a route gets no answer. -/
def execTcpConnect (r : TcpRequest) (s : State) : Host.Outcome State Fault Refusal :=
  if s.askard && (s.nextHop r.ip).isSome then
    match (if r.dstPort = s.net.mgtPort then s.freeConn else none) with
    | some c => .next (s.modConn c (fun _ =>
        { ({} : Conn) with open_ := true, peer := r.ip, port := r.srcPort, since := s.time.now, cmdT := s.time.now }))
    | none => .next (s.ownSend (s.portsTo r.ip) (.tcpReset r))
  else .next s

/-- The role and number of the user a certificate names; none for an unused entry or a chain that fails (R483). -/
def State.certUser (s : State) (user : Option (Fin 16)) (chainOk : Bool) : Option (Nat × Nat) :=
  match user with
  | none => none
  | some u => match s.sec.users[u.val]? with
    | some v => if chainOk ∧ v.role ≠ 0 then some (v.role, u.val) else none
    | none => none

/-- What R414 asks of a handshake: TLS 1.3, TLS_AES_128_GCM_SHA256, ECDHE on secp256r1, a client certificate. -/
def tlsOk (o : TlsOffer) : Bool := o.tls13 && o.suites.contains 0x1301 && o.p256 && o.cert

/-- `TLS_HANDSHAKE_COMPLETE` (R414, R417, R483, R499, R501). -/
def execTlsHandshakeComplete (c : Fin 4) (user : Option (Fin 16)) (offer : TlsOffer) (exporter : List Byte) (s : State) :
    Host.Outcome State Fault Refusal :=
  let k := s.net.conns.get c
  if k.open_ && !k.tls then
    match s.certUser user (tlsOk offer && offer.chainOk) with
    | none => .next ((s.auditEvent 0x0002 (auditPath (.net c)) 0xFF 0 0 0).closeConn c 0)
    | some (role, u) =>
      let s1 := ((s.modConn c (fun x => { x with tls := true, role := role, user := u, keys := slice exporter 0 28 })).wr
        (Obj.connDgrams c.val) 0).auditEvent 0x0001 (auditPath (.net c)) u role 0 role
      .next (if role = 5 ∧ s.power.swReset.getLsbD 10 ∧ !s.sec.unlocked then
        (s1.modSec (fun x => { x with unlocked := true })).auditEvent 0x0050 8 u role 0 1 else s1)
  else .next s

/-- `TLS_HANDSHAKE_TIMEOUT` (R414): 10 s after the connection was opened. -/
def execTlsHandshakeTimeout (c : Fin 4) (s : State) : Host.Outcome State Fault Refusal :=
  let k := s.net.conns.get c
  if k.open_ && !k.tls then .next ((s.atT (k.since + 10 * secCycles)).closeConn c 0) else .next s

/-- `NET_COMMAND` (R165, R415): a complete command on a connection. It is taken in its turn, and the next only once its response has
been sent; until then it waits. -/
def execNetCommand (c : Fin 4) (words : List Word) (s : State) : Host.Outcome State Fault Refusal :=
  let k := s.net.conns.get c
  if s.askard && k.open_ && k.tls && decide (words ≠ []) then
    let s1 := s.modConn c (fun x => { x with cmdT := s.time.now, queue := x.queue ++ [words] })
    .next (if s1.nextSource = some (.net c) then (s1.takeConn c).settle else s1)
  else .next s

/-- `CONNECTION_CLOSE` (R416). -/
def execConnectionClose (c : Fin 4) (s : State) : Host.Outcome State Fault Refusal := .next (s.closeConn c 0)

/-- `NET_IDLE_TIMEOUT` (R416): `NET_IDLE_S` after the last complete command. -/
def execNetIdleTimeout (c : Fin 4) (s : State) : Host.Outcome State Fault Refusal :=
  let k := s.net.conns.get c
  if k.open_ && decide (s.rd Obj.netIdleS ≠ 0) then .next ((s.atT (k.cmdT + s.rdN Obj.netIdleS * secCycles)).closeConn c 1)
  else .next s

/-! ## Streams (R174, R175) -/

/-- The age limit of a path, R175. -/
def ageLimit (udp : Bool) : Nat := if udp then msCycles else 5 * msCycles

/-- `DELIVERY_CLOSE` (R175 to R177, R417): the first item of the open delivery reaches the age limit. -/
def execDeliveryClose (sub : Fin 8) (s : State) : Host.Outcome State Fault Refusal :=
  let x := s.sub sub.val
  if x.active && decide (x.nItems ≠ 0) then .next ((s.atT (x.firstT + ageLimit x.udp)).closeDelivery sub.val) else .next s

/-- The role an owner's subscriptions read with. -/
def State.ownerRole (s : State) (owner : Nat) : Nat :=
  if owner = 0 then s.hostRole else (s.net.conns.get (Fin.ofNat 4 (owner - 1))).role

/-- `OBJECT_SAMPLE_TICK` (R174): every PERIOD_MS, COUNT words read in one step, one for each address. -/
def execObjectSampleTick (sub : Fin 8) (s0 : State) : Host.Outcome State Fault Refusal :=
  let x := s0.sub sub.val
  if x.active && x.source == 1 then
    let s := (s0.atT x.nextT).modSub sub.val (fun y => { y with nextT := y.nextT + y.period * msCycles })
    .next (s.streamItem sub.val s.stationNs (x.addrs.flatMap (fun a => (s.getWords (s.ownerRole x.owner) a).take 1)))
  else .next s0

/-! ## The PTP slave (R418 to R421, R427) -/

/-- `PTP_SYNC` (R418, R419): of the selected master at the active port, at an interval the module supports; a one-step Sync forms the
offset, a two-step one waits for its Follow_Up. -/
def execPtpSync (port : Fin 2) (h : PtpHead) (twoStep : Bool) (logInterval : Int) (origin corr : Int) (t : Nat) (s0 : State) :
    Host.Outcome State Fault Refusal :=
  let s := s0.atT t
  if s.fromMaster port.val h && decide (-7 ≤ logInterval ∧ logInterval ≤ 1) then
    let x : Rat := s.stampRx port.val - s.rdR (Obj.asym port.val) - (corr : Rat) / 65536
    .next (if twoStep then s.drew.modNet (fun n => { n with syncPend := some (port.val, h.seq, s.time.now, x) })
      else s.drew.offsetFormed (x - (origin : Rat)) s.time.now)
  else .next s

/-- `PTP_FOLLOW_UP` (R419). -/
def execPtpFollowUp (port : Fin 2) (h : PtpHead) (origin corr : Int) (s : State) : Host.Outcome State Fault Refusal :=
  match s.net.syncPend with
  | none => .next s
  | some (p, q, t, x) =>
    if s.fromMaster port.val h && p == port.val && q == h.seq then
      .next (s.offsetFormed (x - (origin : Rat) - (corr : Rat) / 65536) t)
    else .next s

/-- `PTP_DELAY_REQ_SEND` (R418, R419): only from the active port; its departure is stamped as it leaves. -/
def execPtpDelayReqSend (t : Nat) (s0 : State) : Host.Outcome State Fault Refusal :=
  let s := s0.atT t
  match s.ptpPort with
  | none => .next s
  | some p =>
    if s.ptpOn && decide (s.rd Obj.ptpDelay = 0) then
      let s1 := s.modNet (fun n => { n with reqSeq := (n.reqSeq + 1) % 65536, reqLatch := none })
      .next (s1.ownSend [p] (.delayReq (s1.ownHead p s1.net.reqSeq (0, 0)) (s.requestCorr p)))
    else .next s

/-- `PTP_DELAY_RESP` (R419): meanPathDelay from the last Sync and the matched request. -/
def execPtpDelayResp (port : Fin 2) (h : PtpHead) (receive corr : Int) (s : State) : Host.Outcome State Fault Refusal :=
  match s.net.reqLatch, s.net.lastSync with
  | some t3, some x =>
    if s.fromMaster port.val h && decide (h.req = ownPort port.val) && s.net.reqSeq == h.seq && decide (s.rd Obj.ptpDelay = 0) then
      .next ((s.setMpd ((x + ((receive : Rat) - t3 - (corr : Rat) / 65536)) / 2)).modNet (fun n => { n with reqLatch := none }))
    else .next s
  | _, _ => .next s

/-- `PTP_ANNOUNCE` (R418, R427): of the module's domain and transport and of version 2 or above. -/
def execPtpAnnounce (a : Announce) (s : State) : Host.Outcome State Fault Refusal :=
  if s.ptpOn && s.hears a.head then
    .next ((s.modNet (fun n => { n with
      foreign := { clockId := a.head.src.1, port := a.port.val, rank := announceRank a, gmId := a.gmId, steps := a.steps,
                   every := announceCycles a.logEvery, heardT := s.time.now }
        :: n.foreign.filter (fun f => !(f.clockId == a.head.src.1 && f.port == a.port.val)) })).selectMaster)
  else .next s

/-- `PTP_ANNOUNCE_TIMEOUT` (R427): `PTP_ANN_TO` announce intervals have passed with nothing from the present master. -/
def execPtpAnnounceTimeout (s0 : State) : Host.Outcome State Fault Refusal :=
  match s0.net.master with
  | none => .next s0
  | some m =>
    if s0.ptpOn then
      let s := s0.atT (((s0.net.foreign.filter (fun f => f.clockId == m)).map s0.heardUntil).foldl max 0 + 1)
      .next (s.modNet (fun n => { n with foreign := n.foreign.filter (fun f => f.clockId != m) })).selectMaster
    else .next s0

/-- `PDELAY_REQ_SEND` (R418, R420): its departure is stamped as it leaves. -/
def execPdelayReqSend (port : Fin 2) (t : Nat) (s0 : State) : Host.Outcome State Fault Refusal :=
  let s := s0.atT t
  if s.peerMeasured then
    let seq := (s.net.pdSeq.getD port.val 0 + 1) % 65536
    .next ((s.modNet (fun n => { n with pdSeq := n.pdSeq.set port.val seq, pdLatch := n.pdLatch.set port.val none })).ownSend [port.val]
      (.pdelayReq (s.ownHead port.val seq (0, 0)) (s.requestCorr port.val)))
  else .next s

/-- `PDELAY_REQ` (R418): answered two-step; the request's correctionField goes back in the Follow_Up. -/
def execPdelayReq (port : Fin 2) (h : PtpHead) (corr : Int) (t : Nat) (s0 : State) : Host.Outcome State Fault Refusal :=
  let s := s0.atT t
  if s.peerMeasured && s.hears h then
    .next (s.drew.ownSend [port.val] (.pdelayResp (s.ownHead port.val h.seq h.src) (s.stampRx port.val) corr))
  else .next s

/-- `PDELAY_RESP` (R420): the peer delay of the port, and meanPathDelay where it is the active one (R419). -/
def execPdelayResp (port : Fin 2) (h : PtpHead) (t2 t3 corr : Int) (t : Nat) (s0 : State) : Host.Outcome State Fault Refusal :=
  let s := s0.atT t
  match s.net.pdLatch.getD port.val none with
  | none => .next s
  | some t1 =>
    if s.peerMeasured && s.hears h && decide (h.req = ownPort port.val) && s.net.pdSeq.getD port.val 0 == h.seq then
      let d : Rat := (s.stampRx port.val - t1 - ((t3 - t2 : Int) : Rat) - s.rdR (Obj.asym port.val) - (corr : Rat) / 65536) / 2
      let s1 := (s.drew.wr (Obj.peerDelay port.val) (showU32 (Obj.peerDelay port.val) d)).modNet (fun n => { n with
        pdLatch := n.pdLatch.set port.val none, peerD := n.peerD.set port.val d })
      .next (if s.ptpPort = some port.val then s1.setMpd d else s1)
    else .next s

end Sys2Proof.Machine
end

