-- ==== Sys2Proof/Machine/ObjWrite.lean ====
section
/-! DEFINITION. Object writes that have a row of their own: each is the one write of R170 with the object and the value named.
They come from a command of Askard, so nothing is written before Askard runs or in BOOT (R93). -/

namespace Sys2Proof.Machine

/-- Writes of one command, with what follows from them. -/
def State.hostWrites (src : Source) (ws : List (Word × List Word)) (s : State) : State :=
  if s.askard ∧ s.mode ≠ .boot then (s.writeAll src ws).settle else s

/-- The address word of an object under its own type, and the words of a value. -/
def writeWords (a : Nat) (v : Int) : Word × List Word :=
  let t := match objRow (a / 0x100) (a % 0x100) with
    | some r => r.ty.code
    | none => 0
  (BitVec.ofNat 32 (a * 256 + t), encodeValue t v)

/-- One value written to an object. -/
def State.hostWrite (src : Source) (a : Nat) (v : Int) (s : State) : State := s.hostWrites src [writeWords a v]

/-- The source of a configuration write over the host port. -/
def confSrc : Source := .mb 1

/-! ## MODULE_REQ (R97, R98, R528) -/

/-- `MODULE_REQ` = 1. -/
def execModuleReqReady (src : Source) (s : State) : Host.Outcome State Fault Refusal := .next (s.hostWrite src Obj.moduleReq 1)
/-- `MODULE_REQ` = 2. -/
def execModuleReqConfig (src : Source) (s : State) : Host.Outcome State Fault Refusal := .next (s.hostWrite src Obj.moduleReq 2)
/-- `MODULE_REQ` = 3. -/
def execModuleReqStandby (src : Source) (s : State) : Host.Outcome State Fault Refusal := .next (s.hostWrite src Obj.moduleReq 3)
/-- `MODULE_REQ` = 4. -/
def execModuleReqReset (src : Source) (s : State) : Host.Outcome State Fault Refusal := .next (s.hostWrite src Obj.moduleReq 4)

/-! ## Clear objects -/

/-- `PEEL_STATS_CLR` (R48). -/
def execPeelStatsClr (v : Int) (s : State) : Host.Outcome State Fault Refusal := .next (s.hostWrite confSrc Obj.peelStatsClr v)
/-- `IGN_CLR` (R178). -/
def execIgnClr (v : Int) (s : State) : Host.Outcome State Fault Refusal := .next (s.hostWrite confSrc Obj.ignClr v)
/-- `CMD_CNT_CLR` (R178). -/
def execCmdCntClr (v : Int) (s : State) : Host.Outcome State Fault Refusal := .next (s.hostWrite confSrc Obj.cmdCntClr v)
/-- `STREAM_CNT_CLR` (R178). -/
def execStreamCntClr (v : Int) (s : State) : Host.Outcome State Fault Refusal := .next (s.hostWrite confSrc Obj.streamCntClr v)
/-- `PWM_CNT_CLR` (R210). -/
def execPwmCntClr (n : Fin 4) (v : Int) (s : State) : Host.Outcome State Fault Refusal :=
  .next (s.hostWrite confSrc (Obj.pwmCntClr n.val) v)
/-- `TRIP_CNT_CLR` (R211). -/
def execTripCntClr (v : Int) (s : State) : Host.Outcome State Fault Refusal := .next (s.hostWrite confSrc Obj.tripCntClr v)
/-- `CONV_CNT_CLR` (R249). -/
def execConvCntClr (k : Fin 6) (v : Int) (s : State) : Host.Outcome State Fault Refusal :=
  .next (s.hostWrite confSrc (Obj.convCntClr k.val) v)
/-- `FB_CNT_CLR` (R279). -/
def execFbCntClr (n : Fin 4) (v : Int) (s : State) : Host.Outcome State Fault Refusal :=
  .next (s.hostWrite confSrc (Obj.fbCntClr n.val) v)
/-- `OVEN_CNT_CLR` (R318). -/
def execOvenCntClr (n : Fin 4) (v : Int) (s : State) : Host.Outcome State Fault Refusal :=
  .next (s.hostWrite confSrc (Obj.ovenCntClr n.val) v)
/-- `PROT_CNT_CLR` (R352). -/
def execProtCntClr (n : Fin 4) (v : Int) (s : State) : Host.Outcome State Fault Refusal :=
  .next (s.hostWrite confSrc (Obj.protCntClr n.val) v)
/-- `LOG_CLR` (R373). -/
def execLogClr (v : Int) (s : State) : Host.Outcome State Fault Refusal := .next (s.hostWrite confSrc Obj.logClr v)
/-- `INJ_CNT_CLR` (R373). -/
def execInjCntClr (v : Int) (s : State) : Host.Outcome State Fault Refusal := .next (s.hostWrite confSrc Obj.injCntClr v)
/-- `ETH_CNT_CLR` (R437). -/
def execEthCntClr (v : Int) (s : State) : Host.Outcome State Fault Refusal := .next (s.hostWrite confSrc Obj.ethCntClr v)
/-- `PP_CNT_CLR` (R456). -/
def execPpCntClr (v : Int) (s : State) : Host.Outcome State Fault Refusal := .next (s.hostWrite confSrc Obj.ppCntClr v)
/-- `ML_CNT_CLR` (R478). -/
def execMlCntClr (v : Int) (s : State) : Host.Outcome State Fault Refusal := .next (s.hostWrite confSrc Obj.mlCntClr v)
/-- `SUPPLY_FLAGS` (R86): 1s clear; a condition that persists sets its flag again. -/
def execSupplyFlagsClear (v : Int) (s : State) : Host.Outcome State Fault Refusal := .next (s.hostWrite confSrc Obj.supplyFlags v)
/-- `SAT_FLAGS` (R228). -/
def execSatFlagsClear (k : Fin 6) (v : Int) (s : State) : Host.Outcome State Fault Refusal :=
  .next (s.hostWrite confSrc (Obj.satFlags k.val) v)

/-! ## Objects whose write acts -/

/-- `IDX_ARM` (R261). -/
def execIdxArm (n : Fin 4) (v : Int) (s : State) : Host.Outcome State Fault Refusal :=
  .next (s.hostWrite confSrc (Obj.idxArm n.val) v)
/-- `IDX_MODE` (R261). -/
def execIdxModeWrite (n : Fin 4) (v : Int) (s : State) : Host.Outcome State Fault Refusal :=
  .next (s.hostWrite confSrc (Obj.idxMode n.val) v)
/-- `FB_MODE` or `FB_DIR_INV` (R252). -/
def execFbModeWrite (n : Fin 4) (dirInv : Bool) (v : Int) (s : State) : Host.Outcome State Fault Refusal :=
  .next (s.hostWrite confSrc (if dirInv then Obj.fbDirInv n.val else Obj.fbMode n.val) v)
/-- `EVT_SRC` or `EVT_PRESC` of an event channel (R208). -/
def execEvtConfigWrite (n : Fin 4) (x : Fin 3) (presc : Bool) (v : Int) (s : State) : Host.Outcome State Fault Refusal :=
  .next (s.hostWrite confSrc (if presc then Obj.evtPresc n.val x.val else Obj.evtSrc n.val x.val) v)
/-- The `OPEN_CMP` writes of one command (R191). -/
def execOpenCmpWrite (n : Fin 4) (u v w : Option Int) (s : State) : Host.Outcome State Fault Refusal :=
  .next (s.hostWrites confSrc ([(0, u), (1, v), (2, w)].filterMap (fun p =>
    p.2.map (fun x => writeWords (Obj.openCmp n.val p.1) x))))
/-- `GRP_LOAVES` (R322, R323). -/
def execGrpLoavesWrite (g : Fin 4) (v : Int) (s : State) : Host.Outcome State Fault Refusal :=
  .next (s.hostWrite confSrc (Obj.grpLoaves g.val) v)
/-- `TU_INC` (R430, R432). -/
def execTuIncWrite (u : Fin 7) (v : Int) (s : State) : Host.Outcome State Fault Refusal :=
  .next (s.hostWrite confSrc (Obj.tuInc u.val) v)
/-- `TU_LOAD` (R431): the load waits for the next `SYNC`. -/
def execTuLoad (u : Fin 7) (v : Int) (s : State) : Host.Outcome State Fault Refusal :=
  .next (s.hostWrite confSrc (Obj.tuLoad u.val) v)
/-- `HB_NET` (R368). -/
def execHbNet (v : Int) (s : State) : Host.Outcome State Fault Refusal := .next (s.hostWrite confSrc Obj.hbNet v)
/-- `LIST_TRIG` (R452). -/
def execListTrigWrite (l : Fin 2) (v : Int) (s : State) : Host.Outcome State Fault Refusal :=
  .next (s.hostWrite confSrc (Obj.listTrig l.val) v)
/-- `MAN_GO` (R451). -/
def execManGo (v : Int) (s : State) : Host.Outcome State Fault Refusal := .next (s.hostWrite confSrc Obj.manGo v)
/-- `PP_ABORT` (R449). -/
def execPpAbort (v : Int) (s : State) : Host.Outcome State Fault Refusal := .next (s.hostWrite confSrc Obj.ppAbort v)
/-- `ATTEST_NONCE` (R500). -/
def execAttestNonce (v : Int) (s : State) : Host.Outcome State Fault Refusal := .next (s.hostWrite confSrc Obj.attestNonce v)

/-- Bytes 0 to 79 of an attestation over a nonce (R500). -/
def State.attestBody (s : State) (nonce : Nat) : List Byte :=
  leBytes 8 nonce ++ leBytes 8 (Config.serial 0).toNat ++ leBytes 4 s.fwVersion ++ leBytes 2 s.runSlot.svn
    ++ leBytes 2 s.sec.rollback ++ leBytes 4 (s.rdN Obj.configCrc) ++ leBytes 4 (s.rdN Obj.cfgVersion)
    ++ leBytes 4 (s.rdN Obj.safeSetId) ++ leBytes 4 (s.rdN Obj.safeBindCrc) ++ leBytes 2 s.power.swReset.toNat
    ++ leBytes 2 (s.rdN Obj.coverCount) ++ leBytes 4 (s.rdN Obj.coverLast) ++ leBytes 1 (b2n s.power.coverOpen)
    ++ leBytes 1 (b2n s.safety.coverSince) ++ leBytes 1 (b2n s.sec.unlocked) ++ leBytes 1 0 ++ leBytes 4 s.sec.auditSeq
    ++ slice s.auditChain 0 8 ++ leBytes 8 s.stationNs ++ leBytes 1 (s.rdN Obj.timeValid) ++ leBytes 7 0

/-- `ATTESTATION_FORMED` (R500): the attestation appears with its 64-byte signature, and a nonce written meanwhile is taken. -/
def execAttestationFormed (signature : List Byte) (s : State) : Host.Outcome State Fault Refusal :=
  match s.sec.attest with
  | none => .next s
  | some n =>
    if s.askard then
      .next ((s.setBlob Obj.attest (s.attestBody n ++ slice signature 0 64)).modSec (fun x => { x with
        attest := x.attestNext, attestNext := none }))
    else .next s

/-- `OBJECT_WRITE` (R151, R170): one write of a `SET` over MB1. -/
def execObjectWrite (addrWord : Word) (vals : List Word) (s : State) : Host.Outcome State Fault Refusal :=
  .next (s.hostWrites confSrc [(addrWord, vals)])

end Sys2Proof.Machine
end

