-- ==== Sys2Proof/Machine/OvenTimers.lean ====
section
/-! DEFINITION. The timers of the Oven (chapter 9): the Starter's alignment and its timeout (R305, R306, R308), stall
(R309 to R312), the end of a stop (R296) and an invalid speed (R300). -/

namespace Sys2Proof.Machine

/-- Milliseconds a class A object of group `g` gives have passed since an instant. -/
def State.elapsed (s : State) (g : Fin 4) (since obj : Nat) : Bool :=
  decide (since + s.rdN (obj + s.bankOfGroup g) * msCycles ≤ s.time.now)

/-- The first phase of the group's Starter runs: alignment, or tracking of the sensorless sequence. -/
def State.aligning (s : State) (g : Fin 4) : Bool :=
  s.regionUp && decide ((s.grp.get g).st = .starting ∧ (s.grp.get g).startPhase = 1)

/-- `STARTER_ALIGN_END` (R305, R306, R308): `START_ALIGN` has passed since STARTING was entered. The sensorless sequence applies its
polarity pulses, to which the machine will answer with `polarity`: the response under −`POL_I` less that under +`POL_I`. -/
def execStarterAlignEnd (g : Fin 4) (polarity : Int) (t : Nat) (s0 : State) : Host.Outcome State Fault Refusal :=
  let s := s0.atT t
  if s.aligning g && s.elapsed g (s.grp.get g).startT (Obj.startAlign g.val) then
    let st := s.rdN (Obj.starter g.val)
    .next (if st = 3 then s.modGrp g (fun x => { x with startPhase := 5, polT := s.time.now, polResp := polarity })
      else s.modGrp g (fun x => { x with startPhase := 2, rotFrom := s.measPos g, rotRevs := 0, rotN := 0 })).settle
  else .next s

/-- `STARTER_TIMEOUT` (R306): the sensorless sequence has not locked. -/
def execStarterTimeout (g : Fin 4) (t : Nat) (s0 : State) : Host.Outcome State Fault Refusal :=
  let s := s0.atT t
  if s.aligning g && decide (s.rdN (Obj.starter g.val) = 3) && s.elapsed g (s.grp.get g).startT (Obj.startTimeout g.val) then
    .next (s.fault 0x4C03 (mkInst g.val 0) 0)
  else .next s

/-- `STALL_DETECT` (R309, R311): in hold-then-brake mode the position at the stall is held through the stop. -/
def execStallDetect (g : Fin 4) (t : Nat) (s0 : State) : Host.Outcome State Fault Refusal :=
  let s := s0.atT t
  match (s.grp.get g).stallT with
  | none => .next s
  | some b =>
    if s.regionUp && s.elapsed g b (Obj.stallTime g.val) then
      let brake := decide (s.rd (Obj.stallMode g.val) = 1)
      .next ((s.modGrp g (fun x => { x with
        stallT := some s.time.now, stallHold := brake, holdPos := if x.stallHold then x.holdPos else s.measPos g })).fault
        0x4C05 (mkInst g.val 0) 0)
    else .next s

/-- `STALL_HOLD_EXPIRY` (R311, R389 case 3). -/
def execStallHoldExpiry (g : Fin 4) (t : Nat) (s0 : State) : Host.Outcome State Fault Refusal :=
  let s := s0.atT t
  let x := s.grp.get g
  if s.regionUp && decide (x.st = .stopping) && x.stallHold && !x.brakeDue && s.elapsed g x.startT (Obj.stallHold g.val) then
    .next (s.brakeDemand g).settle
  else .next s

/-- `SBC_DELAY_EXPIRY` (R312): the group enters STOPPED and its loaves OFF. -/
def execSbcDelayExpiry (g : Fin 4) (t : Nat) (s0 : State) : Host.Outcome State Fault Refusal :=
  let s := s0.atT t
  let x := s.grp.get g
  if s.regionUp && decide (x.st = .stopping) && x.brakeDue && decide (s.rd (Obj.stallMode g.val) = 1)
      && decide (x.brakeT + s.rdN Obj.sbcDelay * msCycles ≤ s.time.now) then
    .next (s.groupStopped g true).settle
  else .next s

/-- `STOP_TIMEOUT` (R296). -/
def execStopTimeout (g : Fin 4) (t : Nat) (s0 : State) : Host.Outcome State Fault Refusal :=
  let s := s0.atT t
  if s.regionUp && decide ((s.grp.get g).st = .stopping) && s.elapsed g (s.grp.get g).startT (Obj.stopTimeout g.val) then
    .next (s.fault 0x4C08 (mkInst g.val 0) 0)
  else .next s

/-- `SPD_INVALID_TIMEOUT` (R300). -/
def execSpdInvalidTimeout (g : Fin 4) (t : Nat) (s0 : State) : Host.Outcome State Fault Refusal :=
  let s := s0.atT t
  match (s.grp.get g).invT with
  | none => .next s
  | some b =>
    if s.regionUp && s.elapsed g b (Obj.spdInvMs g.val) then
      .next ((s.modGrp g (fun x => { x with invT := some s.time.now })).fault 0x4C04 (mkInst g.val 0) 0)
    else .next s

end Sys2Proof.Machine
end

