-- ==== Sys2Proof/Machine/Pair.lean ====
section
/-! DEFINITION. The mirror link, the interlock, takeover and the pair clock (R457 to R478). -/

namespace Sys2Proof.Machine

/-- The pair's pads and mirror receivers work: a paired module out of reset (R457). -/
def State.pairUp (s : State) : Bool := s.paired && s.regionUp

/-! ## Receiving (R465 to R470) -/

/-- A mirror frame that arrives: of 130 bytes with a good CRC, whose instant and sequence number the next frame sent reports, or
discarded and counted (R466). -/
def State.mirrorIn (bytes : List Byte) (good : State → State) (s : State) : State :=
  if decide (bytes.length = 130) && decide (leAt bytes 128 2 = (crc16 (bytes.take 128)).toNat) then
    good (s.modPair (fun p => { p with crcRun := 0, rxT := s.time.now, rxSeq := leAt bytes 1 1 }))
  else (s.bump Obj.mlCrcErr).modPair (fun p => { p with crcRun := p.crcRun + 1 })

/-- Group state of a STATE or RELEASE frame, byte 3 bits 6:4. -/
def frameGroup (bytes : List Byte) : Nat := leAt bytes 3 1 / 16 % 8

/-- The frame is newer than the last one taken (R469), by U32 serial order; a run of the partner's group that begins numbers
its frames anew (R281). -/
def State.mirrorNewer (s : State) (bytes : List Byte) : Bool :=
  let d := (leAt bytes 4 4 + 2 ^ 32 - leAt s.pair.last 4 4) % 2 ^ 32
  let active := fun (b : List Byte) => decide (1 ≤ frameGroup b ∧ frameGroup b ≤ 4)
  decide (s.pair.last.length ≠ 130) || decide (0 < d ∧ d < 2 ^ 31) || (active bytes && !active s.pair.last)

/-- A RELEASE is discarded only where its group frame is older: it repeats the number of the frame's STATE (R464). -/
def State.releaseNewer (s : State) (bytes : List Byte) : Bool :=
  s.mirrorNewer bytes || decide (leAt bytes 4 4 = leAt s.pair.last 4 4)

/-- A valid STATE or RELEASE frame has arrived; it is taken where it is newer (R469, R470). A STANDBY or FOLLOWER whose pair group has
no boundaries, since none of its counters runs, follows the partner's group at once (R460; DESIGN CHOICE, log entry 194). -/
def State.mirrorTake (bytes : List Byte) (newer : Bool) (s : State) : State :=
  let s1 := s.modPair (fun p => { p with awaited := true, lost := false, last := if newer then bytes else p.last })
  if newer then
    let s2 := s1.wr Obj.mlLatMax (max (s.rd Obj.mlLatMax)
      ((min 0xFFFFFFFF (5 * (s.time.now - (s.grp.get s.prGroup).boundT)) : Nat) : Int))
    if s2.follows s2.prGroup && (s2.timingLoaf s2.prGroup).isNone then s2.followPartner s2.prGroup else s2
  else s1

/-- `MIRROR_STATE` (R466, R468 to R470). -/
def execMirrorState (bytes : List Byte) (t : Nat) (s0 : State) : Host.Outcome State Fault Refusal :=
  let s := s0.atT t
  if s.pairUp then
    .next (s.mirrorIn bytes (fun x =>
      if x.pair.trained && decide (leAt bytes 0 1 = 0) then x.mirrorTake bytes (x.mirrorNewer bytes) else x)).settle
  else .next s

/-- `MIRROR_RELEASE` (R464, R472). -/
def execMirrorRelease (bytes : List Byte) (t : Nat) (s0 : State) : Host.Outcome State Fault Refusal :=
  let s := s0.atT t
  if s.pairUp then
    .next (s.mirrorIn bytes (fun x =>
      if x.pair.trained && decide (leAt bytes 0 1 = 2) then x.mirrorTake bytes (x.releaseNewer bytes) else x)).settle
  else .next s

/-- The data of 0xEC02 a partner's HELLO gives: none where every field matches and the sides differ (R467). -/
def State.helloFault (s : State) (bytes : List Byte) : Option Nat :=
  let own := s.helloFrame
  if leAt bytes 2 1 = s.prSide then some 2
  else if leAt bytes 2 1 ≠ 1 ∧ leAt bytes 2 1 ≠ 2 then some 18
  else (((List.range 128).drop 3).find? (fun i => bytes.getD i 0 != own.getD i 0)).map (fun i => 16 + i)

/-- 0xEC02, once for each cause until the link trains (R467). -/
def State.linkFault (data : Nat) (s : State) : State :=
  if s.pair.hello02.contains data then s
  else (s.modPair (fun p => { p with hello02 := p.hello02 ++ [data] })).latch 0xEC02 0 data

/-- `MIRROR_HELLO` (R465, R467): each side sends its own HELLO as the link trains; it does not train while `ML_PRES` is low. -/
def execMirrorHello (bytes : List Byte) (s : State) : Host.Outcome State Fault Refusal :=
  if s.pairUp then
    .next (s.mirrorIn bytes (fun x =>
      if leAt bytes 0 1 ≠ 1 ∨ x.pair.mlPres = false then x
      else
        let y := x.modPair (fun p => { p with helloSent := x.helloFrame, txSeq := (p.txSeq + 1) % 256 })
        match y.helloFault bytes with
        | some d => y.linkFault d
        | none => y.modPair (fun p => { p with
            trained := true, hello02 := [], bWait := false, awaited := true }))).settle
  else .next s

/-- I of R469 in seconds: the group's frame length, at most 500 µs. -/
def State.mirrorI (s : State) : Rat :=
  let t := s.groupT s.prGroup
  if t = 0 then 1 / 2000 else min t (1 / 2000)

/-- `MIRROR_FRAMES_LOST` (R469): no valid frame for 3 × I + 10 µs, once until one arrives. -/
def execMirrorFramesLost (t : Nat) (s0 : State) : Host.Outcome State Fault Refusal :=
  let s := s0.atT t
  if s.pairUp && s.pair.awaited && !s.pair.lost
      && decide ((3 * s.mirrorI + 1 / 100000) * 200000000 ≤ ((s.time.now - s.pair.rxT : Nat) : Rat)) then
    .next ((((s.modPair (fun p => { p with lost := true })).bump Obj.mlLost).wr Obj.prCapPartner 0).fault 0xEC01 0
      (showInt (s.mirrorI * 1000000)))
  else .next s

/-- `MIRROR_RETRAIN` (R469). -/
def execMirrorRetrain (s : State) : Host.Outcome State Fault Refusal :=
  if s.pairUp then
    .next ((s.modPair (fun p => { p with trained := false, crcRun := 0 })).bump Obj.mlRetrain).settle
  else .next s

/-- `ML_PRES_TIMEOUT` (R465): `ML_PRES` has read low for 1 s, and the link has not trained. -/
def execMlPresTimeout (s : State) : Host.Outcome State Fault Refusal :=
  if s.pairUp && !s.pair.mlPres && !s.pair.trained then .next ((s.atT (s.pair.presT + secCycles)).linkFault 1).settle else .next s

/-! ## Sending (R468) -/

/-- No boundary of the pair group for 500 µs, and no frame sent for as long (R468). -/
def State.repeatDue (s : State) : Bool :=
  let old := fun (t : Nat) => decide (500 * usCycles ≤ (s.time.now + 2 ^ 32 - t) % 2 ^ 32)
  decide ((s.grp.get s.prGroup).boundT + 500 * usCycles ≤ s.time.now)
    && (decide (s.pair.sent.length ≠ 130) || old (leAt s.pair.sent 8 4))

/-- `MIRROR_REPEAT` (R468): the last frame again, its group frame number unchanged, with its own sequence number and instants. -/
def execMirrorRepeat (t : Nat) (s0 : State) : Host.Outcome State Fault Refusal :=
  let s := s0.atT t
  if s.pairUp && s.repeatDue then
    if s.pair.sent.length = 130 then
      let b := s.pair.sent.take 1 ++ leBytes 1 s.pair.txSeq ++ slice s.pair.sent 2 6 ++ leBytes 4 (s.time.now % 2 ^ 32)
        ++ leBytes 4 (s.pair.rxT % 2 ^ 32) ++ leBytes 1 s.pair.rxSeq ++ slice s.pair.sent 17 111
      .next (s.mirrorSend (b ++ leBytes 2 (crc16 b).toNat))
    else .next (s.mirrorSend (s.mirrorFrame 0 false))
  else .next s

/-! ## The interlock and takeover (R462 to R464, R472) -/

/-- The module releases for 0xEC03 and raises it (R463, R464). -/
def State.yieldRole (data : Int) (s : State) : State := (s.releaseRole true).fault 0xEC03 0 data

/-- The level of `ML_PRES` noted (R465). -/
def State.notePres (level : Bool) (s : State) : State :=
  if s.pair.mlPres = level then s else s.modPair (fun p => { p with mlPres := level, presT := s.time.now })

/-- `ROLE_PARTNER_CHANGE` (R462, R463, R465): the pair's input pads as synchronised; side B yields at once. -/
def execRolePartnerChange (pads : PairPads) (t : Nat) (s0 : State) : Host.Outcome State Fault Refusal :=
  let s := (s0.atT t).notePres pads.present
  if s.pair.partner = pads.partner then .next s
  else
    let s1 := s.modPair (fun p => { p with partner := pads.partner, partnerT := s.time.now, partnerF := s.partnerFilt })
    if s.pairUp && pads.partner && s.pair.roleAct && decide (s.prSide = 2) then .next (s1.yieldRole 1) else .next s1.settle

/-- `SIDE_A_PARTNER_HIGH_2US` (R463). -/
def execSideAPartnerHigh2us (t : Nat) (s0 : State) : Host.Outcome State Fault Refusal :=
  let s := s0.atT t
  if s.pairUp && decide (s.prSide = 1) && s.pair.roleAct && s.pair.partner
      && decide (2 * usCycles ≤ s.time.now - s.pair.partnerT) then .next (s.yieldRole 2)
  else .next s

/-- `ROLE_PARTNER` has read low through its filter (R462). -/
def State.partnerLow (s : State) : Bool := !s.pair.partner && !s.partnerFilt

/-- 10 ms have passed since a handover's release (R473). -/
def State.handoverOver (s : State) : Bool := match s.pair.handT with
  | some h => decide (10 * msCycles ≤ s.time.now - h)
  | none => true

/-- `ROLE_ACT_GRANT` (R462, R472): `ROLE_ACT` rises. -/
def execRoleActGrant (t : Nat) (s0 : State) : Host.Outcome State Fault Refusal :=
  let s := s0.atT t
  if s.pairUp && s.partnerLow && s.handoverOver && !s.power.ckSafeBad then
    match s.takeRequest with
    | none => .next s
    | some d =>
      let data : Int := if d = 0 then ((Config.sideATrigger s.freeNo % 2 ^ 31 : Nat) : Int) else d
      .next ((((s.modPair (fun p => { p with roleAct := true, handover := false, handT := none, bWait := false })).drew.bump
        Obj.failovers).wr Obj.prLastT ((s.time.now % 2 ^ 32 : Nat) : Int)).fault 0xEC04 0 data)
  else .next s

/-- `PR_B_WAIT_EXPIRY` (R472): `PR_B_WAIT_MS` after the module became READY, side B asks for assertion without a link. -/
def execPrBWaitExpiry (s : State) : Host.Outcome State Fault Refusal :=
  if s.pairUp && decide (s.prSide = 2) && !s.pair.trained && decide (s.mode = .ready ∨ s.mode = .operational) then
    .next ((s.atT (s.boot.readyT + s.rdN Obj.prBWaitMs * msCycles)).modPair (fun p => { p with bWait := true })).settle
  else .next s

/-! ## The pair clock (R471) -/

/-- `PAIR_CLOCK_OFFSET` (R471): formed from the instants in ns of station time, and on its way to channel 1; side A's channel 1 stays
FREE. -/
def execPairClockOffset (t1 t2 t3 t4 : Int) (s : State) : Host.Outcome State Fault Refusal :=
  if s.askard && s.pairUp && decide (s.prRole = 2) then
    let o := showInt ((((t2 - t1) - (t4 - t3) : Int) : Rat) / 2)
    let s1 := s.wr Obj.prClkOfs (clampI (-0x80000000) 0x7FFFFFFF o)
    .next (if s.prSide = 2 then s1.modPair (fun p => { p with clkDue := some o }) else s1)
  else .next s

end Sys2Proof.Machine
end

