-- ==== Sys2Proof/Machine/Peel.lean ====
section
/-! DEFINITION. The commands of the Peel link (chapter 1): each is an event at one endpoint. -/

namespace Sys2Proof.Machine

/-! ## Transmission -/

/-- `PEEL_TX_GRANT` (R32 to R34, R40 to R43): the link of a region is free for a packet. -/
def execPeelTxGrant (r : Region) (s : State) : Host.Outcome State Fault Refusal :=
  if s.boot.peelTrained && s.endUp r then .next (s.peelGrant r) else .next s

/-- `PEEL_ACK` (R35). -/
def execPeelAck (r : Region) (p : Packet) (s : State) : Host.Outcome State Fault Refusal :=
  .next (s.peelTake r .ack p (fun x => x))

/-- `PEEL_NAK` (R35, R36): the sender retransmits from its first unacknowledged packet. -/
def execPeelNak (r : Region) (p : Packet) (s : State) : Host.Outcome State Fault Refusal :=
  .next (s.peelTake r .nak p (State.peelBack r))

/-- `PEEL_TRAIN` (R37): link training leaves no other state. -/
def execPeelTrain (r : Region) (p : Packet) (s : State) : Host.Outcome State Fault Refusal :=
  .next (s.peelTake r .train p (fun x => x))

/-- `PEEL_RETX_TIMEOUT` (R36): 5 µs have passed without the acknowledgement awaited. -/
def execPeelRetxTimeout (r : Region) (s : State) : Host.Outcome State Fault Refusal :=
  if s.boot.peelTrained ∧ (s.peel r).unacked ≠ [] then .next ((s.atT ((s.peel r).waitT + 5 * usCycles)).peelBack r) else .next s

/-- `PEEL_RETRAIN` (R37, R40): neither timer restarts. -/
def execPeelRetrain (s : State) : Host.Outcome State Fault Refusal :=
  if 16 ≤ s.peelC.retxRun ∨ 16 ≤ s.peelM.retxRun then
    .next ((((s.bumpOpen Obj.peelRetrain).peelBack .c).peelBack .m).modPeel .c (fun e => { e with retxRun := 0 }) |>.modPeel .m
      (fun e => { e with retxRun := 0 }))
  else .next s

/-- `PEEL_TIMEOUT` (R39, R99, R378): the timer of the region has run for more than 2 ms since it last started again; none runs
before the first `HEARTBEAT` (R95). -/
def execPeelTimeout (r : Region) (s0 : State) : Host.Outcome State Fault Refusal :=
  match (s0.peel r).timer with
  | none => .next s0
  | some t0 =>
    if s0.endUp r then
      let s := s0.atT (t0 + 2 * msCycles + 1)
      let s1 := (s.modPeel r (fun e => { e with timedOut := true })).modBoot (fun b => { b with resetOnly := true })
      match r with
      | .c => .next (((s1.crustTrip 14).dropGen .c).fault 0x9801 0 0)
      | .m => .next ((s1.dropGen .m).faultM 0x9801 1 0)
    else .next s0

/-! ## Control packets -/

/-- `HEARTBEAT_SEND` (R38): none once the watchdog or the CK_MGT monitor has hit (R101). -/
def execHeartbeatSend (s : State) : Host.Outcome State Fault Refusal :=
  if s.askard && !s.boot.wdtHit && !s.boot.mgtHit then
    .next (s.enqueue .m 0 (pkt .heartbeat (leBytes 4 s.host.hbModule.toNat)))
  else .next s

/-- The longest gap between `HEARTBEAT` packets in µs (`MGT_HB_MAX`). -/
def State.mgtGap (s : State) : State :=
  let s1 := match s.flt.mgtBeat with
    | none => s
    | some t0 =>
      let gap := clampI 0 0xFFFFFFFF (showInt (((s.time.now - t0 : Nat) : Rat) / 200))
      if s.rd Obj.mgtHbMax < gap then s.wr Obj.mgtHbMax gap else s
  s1.modFlt (fun f => { f with mgtBeat := some s.time.now })

/-- `HEARTBEAT` (R38, R90, R367): region C's timer starts again; the first arms both. -/
def execHeartbeat (p : Packet) (t : Nat) (s0 : State) : Host.Outcome State Fault Refusal :=
  let s := s0.atT t
  .next (s.peelTake .c .heartbeat p (fun x =>
    ((((x.modBoot (fun b => { b with hbSeen := true })).modPeel .c (fun e => { e with
      timedOut := false, timer := some x.time.now })).modPeel .m (fun e => { e with
      timer := some (e.timer.getD x.time.now) })).mgtGap).settle))

/-- `SYNC_SEND` (R21). -/
def execSyncSend (s : State) : Host.Outcome State Fault Refusal :=
  if s.askard then .next (s.enqueue .m 0 (pkt .sync s.syncPayload)) else .next s

/-- An `EVENT` packet of loaf `n` counted by list `l`; `LIST_TRIGGER` takes each `LIST_DIV` of them (R452). -/
def State.listEvent (n : Nat) (l : Fin 2) (s : State) : State :=
  if s.rd (Obj.listTrig l.val) = 1 ∧ s.rdN (Obj.listLoaf l.val) = n then
    s.modPp (fun p => if l = 0 then { p with evt0 := p.evt0 + 1 } else { p with evt1 := p.evt1 + 1 })
  else s

/-- `EVENT` (R209, R452). -/
def execEvent (p : Packet) (s : State) : Host.Outcome State Fault Refusal :=
  .next (s.peelTake .m .event p (forAll [0, 1] (State.listEvent (leAt p.payload 1 1))))

/-! ## Data packets -/

/-- `PEEL_RECORD` (R19, R172): the record leaves its queue and reaches the subscriptions. -/
def execPeelRecord (p : Packet) (s : State) : Host.Outcome State Fault Refusal :=
  .next (s.peelTake .m .record p (fun x =>
    let n := Fin.ofNat 4 (leAt p.payload 8 1 % 4)
    let y := if (x.oven.get n).queue.head? = some p.payload then x.modOven n (fun o => { o with queue := o.queue.drop 1 }) else x
    y.streamRecord n p.payload))

/-- `PEEL_CAPTURE` (R159). -/
def execPeelCapture (p : Packet) (s : State) : Host.Outcome State Fault Refusal :=
  .next (s.peelTake .m .capture p (State.capData p.payload))

/-! ## Management packets -/

/-- `OBJ_WR` (R17, R303). -/
def execObjWr (p : Packet) (s : State) : Host.Outcome State Fault Refusal :=
  .next (s.peelTake .c .objWr p (State.unlessCarried p (fun x => (x.peelWrite p).settle)))

/-- `OBJ_RD` (R31): an `OBJ_RSP` follows. -/
def execObjRd (p : Packet) (s : State) : Host.Outcome State Fault Refusal :=
  .next (s.peelTake .c .objRd p (State.peelRead p))

/-- `CMD` (R17, R18, R31): a `SWAP_BANK` becomes pending, or joins one that is; a `CMD_RSP` follows. -/
def execCmd (p : Packet) (s : State) : Host.Outcome State Fault Refusal :=
  .next (s.peelTake .c .cmd p (fun x =>
    match pktWords p with
    | [] => x
    | w :: rest =>
      let y := x.unlessCarried p (fun z => if cmdCode w = cSwapBank then z.askSwaps (pw rest 0) else z)
      (y.enqueue .c 0 (pkt .cmdRsp (wordsToBytes [respWord 0 (cmdTag w) 0]))).settle))

/-- `OBJ_RSP` (R31). -/
def execObjRsp (p : Packet) (s : State) : Host.Outcome State Fault Refusal :=
  .next (s.peelTake .m .objRsp p (fun x => x))

/-- `CMD_RSP` (R31, R143): region M answers the commands region C has executed. -/
def execCmdRsp (p : Packet) (s : State) : Host.Outcome State Fault Refusal :=
  .next (s.peelTake .m .cmdRsp p State.settle)

end Sys2Proof.Machine
end

