-- ==== Sys2Proof/Machine/Periph.lean ====
section
/-! DEFINITION. The commands of the peripheral port (chapter 14). -/

namespace Sys2Proof.Machine

/-- `PP_TRANSFER_START` (R441, R453): the next due work, once no transfer is in progress. -/
def execPpTransferStart (s : State) : Host.Outcome State Fault Refusal :=
  if s.askard then .next s.ppStart else .next s

/-- `PGP_SELECT_DRIVEN` (R442): the port sees the pin of the transfer's select low: Askard drives it where it is a select, and a plain
output may stand low already; one held high is never driven, and the transfer waits (DESIGN CHOICE, log entry 197). -/
def execPgpSelectDriven (s : State) : Host.Outcome State Fault Refusal :=
  match s.pp.run with
  | none => .next s
  | some r =>
    if !r.selected && r.cause.isNone && decide (8 ≤ r.sel) && decide (s.pgpField (r.sel - 8) ≠ 0) then
      .next (s.modPp (fun p => { p with run := some (r.select s.time.now) })).pgpPlain
    else .next s

/-- The wait for `PRDY` in progress runs out in this cycle: it has read low for more than `DEV_PRDY_TO` (R448). -/
def PpRun.expiry (r : PpRun) : Nat := r.nextT + r.prdyTo * usCycles + 1

/-- `PRDY_READY` (R447): the transfer begins the next word, at the end of the lead or the gap at the earliest; in the expiry cycle it
comes too late (R448). -/
def execPrdyReady (s0 : State) : Host.Outcome State Fault Refusal :=
  let s := s0.modPp (fun p => { p with prdy := true })
  match s.pp.run with
  | none => .next s
  | some r =>
    if r.wait && r.selected && r.cause.isNone && decide (r.begun < r.tx.length) && decide (s.time.now < r.expiry) then
      let s1 := s.atT r.nextT
      .next (s1.modPp (fun p => { p with run := some { r with begun := r.begun + 1, nextT := s1.time.now + r.wordCycles } }))
    else .next s

/-- `PRDY_TIMEOUT` (R448): the wait in progress has run out: the transfer ends early with cause 2. -/
def execPrdyTimeout (s : State) : Host.Outcome State Fault Refusal :=
  match s.pp.run with
  | none => .next s
  | some r =>
    if r.wait && r.selected && r.cause.isNone && decide (r.begun < r.tx.length) then
      .next (((((s.atT r.expiry).modPp (fun p => { p with prdy := false })).ppEarly 2).bump (Obj.prdyToCnt r.dev)).reportM 0xF801
        (mkInst r.dev 0) 0)
    else .next s

/-- A transfer that is complete releases its select: `DEV_LAG` after the last edge of its last word (R444, R446). -/
def PpRun.endT (r : PpRun) : Nat := r.nextT - ppCycles r.period + ppCycles (4 * r.lag)

/-- `PP_TRANSFER_END` (R449, R450, R455): complete with every word in, or early with the cause that ended it; `rx` holds the
bits received of each word. -/
def execPpTransferEnd (rx : List (List Bool)) (s : State) : Host.Outcome State Fault Refusal :=
  match s.pp.run with
  | none => .next s
  | some r => match r.cause with
    | some c => .next (s.ppFinish r c rx)
    | none =>
      if r.selected = true ∧ r.begun = r.tx.length ∧ r.wordsDone rx = r.tx.length then .next ((s.atT r.endT).ppFinish r 0 rx)
      else .next s

/-- The trigger of a list has come: its period, or `LIST_DIV` events of its loaf, which it takes (R452). -/
def State.listDue (l : Fin 2) (s : State) : Option State :=
  let mode := s.rd (Obj.listTrig l.val)
  let n := if l = 0 then s.pp.evt0 else s.pp.evt1
  let d := s.rdN (Obj.listDiv l.val)
  if mode = 2 then
    let x := s.atT ((if l = 0 then s.pp.trig0 else s.pp.trig1) + s.rdN (Obj.listPeriod l.val) * usCycles)
    some (x.modPp (fun p => if l = 0 then { p with trig0 := x.time.now } else { p with trig1 := x.time.now }))
  else if mode = 1 ∧ d ≤ n then
    some (s.modPp (fun p => if l = 0 then { p with evt0 := p.evt0 - d } else { p with evt1 := p.evt1 - d }))
  else none

/-- `LIST_TRIGGER` (R452, R454). -/
def execListTrigger (l : Fin 2) (s : State) : Host.Outcome State Fault Refusal :=
  if s.askard then
    match s.listDue l with
    | some x => .next (x.listTrig l)
    | none => .next s
  else .next s

end Sys2Proof.Machine
end

