-- ==== Sys2Proof/Machine/Pwm.lean ====
section
/-! DEFINITION. The PWM events of chapter 6: the epoch (R433, R434), counter starts, periods, frames, trips, readback. -/

namespace Sys2Proof.Machine

/-- The counter of a loaf of region C runs. -/
def State.counterRuns (s : State) (n : Fin 4) : Bool := s.regionUp && s.has n.val && (s.loaf.get n).running

/-- A start tick of an epoch is the first since they left OFF for the loaves that use it and wait for their counters (R181,
R433). -/
def State.tickWaits (e : Fin 4) (t : Nat) (s : State) : State :=
  forAll s.loaves (fun m x =>
    let l := x.loaf.get m
    if x.epochLoaf m = e ∧ l.st ≠ .off ∧ !l.running ∧ l.firstTick = none then
      x.modLoaf m (fun l => { l with firstTick := some t })
    else x) s

/-- The nanoseconds of the loaf's time unit first reach or pass `EPOCH_PHASE` + k × `EPOCH_INTERVAL` in this cycle (R433). -/
def State.tickNow (s : State) (n : Fin 4) : Bool :=
  let every := s.rdN (Obj.epochInterval n.val) * 2 ^ 32
  let ns := s.time.units.getD n.val 0 % (1000000000 * 2 ^ 32)
  decide ((ns + 1000000000 * 2 ^ 32 - s.rdN (Obj.epochPhase n.val) * 2 ^ 32) % every < s.tuStep n.val)

/-- `EPOCH_START_TICK` (R433): the latest start tick of the loaf's epoch. -/
def execEpochStartTick (n : Fin 4) (t : Nat) (s0 : State) : Host.Outcome State Fault Refusal :=
  let s := s0.atT t
  if s.regionUp && s.has n.val && s.tickNow n then
    .next ((s.modTime (fun x => { x with startTick := x.startTick.set n t })).tickWaits n t)
  else .next s

/-- The counter of a loaf that has left OFF starts at `t`: `PHASE_OFS` after the first start tick since (R181). -/
def State.startsAt (s : State) (n : Fin 4) (t : Nat) : Bool :=
  let l := s.loaf.get n
  decide (l.st ≠ .off) && !l.running && decide (l.firstTick.map (fun x => x + s.rdN (Obj.phaseOfs n.val)) = some t)

/-- `COUNTER_START` (R181, R186). -/
def execCounterStart (n : Fin 4) (t : Nat) (s0 : State) : Host.Outcome State Fault Refusal :=
  let s := s0.atT t
  if s.regionUp && s.has n.val && s.startsAt n t && !s.haltC && !s.haltM then .next (s.counterStart n t).settle
  else .next s

/-- A period of the running counter ends at `t`, and its frame boundary, where one falls there, has been taken (R179, R186). -/
def State.periodEnds (s : State) (n : Fin 4) (t : Nat) : Bool :=
  s.counterRuns n && decide ((s.loaf.get n).nextStart = t) && !s.atFrameEnd n t

/-- `PERIOD_START` (R183, R201, R205, R208, R434). -/
def execPeriodStart (n : Fin 4) (t : Nat) (s0 : State) : Host.Outcome State Fault Refusal :=
  let s := s0.atT t
  if s.periodEnds n t then
    let first := decide ((s.loaf.get n).periods = 0)
    let s1 := (((s.pwmTo n).modLoaf n (fun l => { l with periods := l.periods + 1 })).layPeriod n t
      (s.epochCorr n (s.epochD n t))).epochStep n t |>.periodBegin n
    .next (if first then s1.reconAsk n else s1).settle
  else .next s

/-- `PWM_PEAK` (R179, R187, R208): the counter's peak, after the reload that falls there. -/
def execPwmPeak (n : Fin 4) (t : Nat) (s0 : State) : Host.Outcome State Fault Refusal :=
  let s := s0.atT t
  if s.counterRuns n && decide ((s.loaf.get n).peakDue = some t) && !s.atPeak n t then
    .next ((s.occur n 2 1).modLoaf n (fun l => { l with peakDue := none }))
  else .next s

/-- `FRAME_BOUNDARY` (R186 to R190, R209, R233, R282). -/
def execFrameBoundary (n : Fin 4) (t : Nat) (s0 : State) : Host.Outcome State Fault Refusal :=
  let s := s0.atT t
  if s.counterRuns n && s.boundaryDue n t then .next (s.boundary n t).settle else .next s

/-- `FRAME_CLOSE` (R234 to R236). -/
def execFrameClose (n : Fin 4) (t : Nat) (s0 : State) : Host.Outcome State Fault Refusal :=
  let s := s0.atT t
  if s.counterRuns n && s.closeDue n t then .next (s.closeFrame n).settle else .next s

/-- A loaf's frame is closed and awaits the datapath (R280); the feedback it reads is there, or 300 ns have passed since its
boundary (R270). -/
def State.frameDue (s : State) (n : Nat) : Bool :=
  units4.any (fun m => decide (m.val = n) && s.counterRuns m && (s.loaf.get m).due
    && (!s.fbWaits m || decide ((s.loaf.get m).boundaryT + 60 ≤ s.time.now)))

/-- `LOAF_FRAME_COMPUTE` (R283 to R288): a grant slot of the datapath (R41, R42) takes the frame a close handed over; the slot
of another loaf is not this one's. -/
def execLoafFrameCompute (n : Fin 4) (t : Nat) (s0 : State) : Host.Outcome State Fault Refusal :=
  let s := s0.atT t
  match s.ovenArb.grant 4 s.frameDue with
  | some g => if g.1 = n.val then .next (({ s with ovenArb := g.2 }).computeFrame n) else .next s
  | none => .next s

/-- `TRIP_LATCH` (R199, R202, R203, R521): a source has stood asserted for `ns`; the loaf's nibble says what its filtered
assertion does. -/
def execTripLatch (i : Fin 16) (n : Fin 4) (ns t : Nat) (s0 : State) : Host.Outcome State Fault Refusal :=
  .next ((s0.atT t).tripEdge i.val n true ns)

/-- `TRIP_CYCLE_GAP` (R199, R201, R203, R521). -/
def execTripCycleGap (i : Fin 16) (n : Fin 4) (ns t : Nat) (s0 : State) : Host.Outcome State Fault Refusal :=
  .next ((s0.atT t).tripEdge i.val n true ns)

/-- `TRIP_FILTER_DEASSERT` (R199, R521): a source has stood deasserted for `ns`. -/
def execTripFilterDeassert (i : Fin 16) (n : Fin 4) (ns t : Nat) (s0 : State) : Host.Outcome State Fault Refusal :=
  .next ((s0.atT t).tripEdge i.val n false ns)

/-- `READBACK_MISMATCH` (R70): pads 0 to 5 are the gates, pad 6 is `GENn`. -/
def execReadbackMismatch (n : Fin 4) (pad : Fin 7) (t : Nat) (s0 : State) : Host.Outcome State Fault Refusal :=
  let s := s0.atT t
  if s.regionUp && s.has n.val then
    let s1 := s.wrBit (Obj.readbackErr n.val) pad.val true
    if pad.val < 6 then
      let level := !((s.gatePadsAt n (8 * s.time.now)).getD pad.val false)
      .next ((s1.modLoaf n (fun l => { l with
        padBack := (pad.val, level) :: l.padBack.filter (fun x => x.1 != pad.val) })).fault 0x0001 (mkInst n.val pad.val) 0)
    else .next ((s1.modLoaf n (fun l => { l with genBack := some !(s.genN n) })).fault 0x0002 (mkInst n.val 0) 0)
  else .next s

end Sys2Proof.Machine
end

