-- ==== Sys2Proof/Machine/SafetyFn.lean ====
section
/-! DEFINITION. The commands of chapter 12: changes of the filtered safety inputs, their tests and discrepancies, the
timers of SS1 and SBC, and the tests of the outputs. -/

namespace Sys2Proof.Machine

/-! ## Inputs (R379 to R386) -/

/-- `SAFETY_INPUT_CHANGE` (R379, R383 to R388, R392): an input has stood at a level for `ns` in a channel, whose view takes it as
the filter says. -/
def execSafetyInputChange (ch : Chan) (i : SafetyInput) (level : Bool) (ns t : Nat) (s0 : State) : Host.Outcome State Fault Refusal :=
  let s := (s0.atT t).drew
  let n := inputNum i
  if s.chanUp ch && safeFilterTakes ns (Config.filterFree s0.freeNo) && (s.viewOf ch n != level || !s.takenOf ch n) then
    .next (((s.takeView ch n level).discStep ch).safetyEval).settle
  else .next s

/-- `INPUT_STAGE_TEST` (R380): a stage that fails to read low. -/
def execInputStageTest (ch : Chan) (i : SafetyInput) (readsLow : Bool) (s : State) : Host.Outcome State Fault Refusal :=
  if s.chanUp ch && !readsLow then
    .next (s.chanFault ch 0xE405 (mkInst (inputSide i) 0) ((inputNum i).val : Int))
  else .next s

/-- Input `i` is expected to show pulses (R381, R388, R396). -/
def State.pulseDue (s : State) (i : Fin 4) : Bool :=
  s.safety.governs.isSome && s.rdBit Obj.tpExpect i.val && decide (i.val < 2 ∨ s.rd Obj.guardReact ≠ 0)
/-- The other input of the pair. -/
def pairMate (i : Fin 4) : Fin 4 := if i = 0 then 1 else if i = 1 then 0 else if i = 2 then 3 else 2

/-- An input has stood high in a channel for `TP_PERIOD`, which runs from its return to high (R381): the view shows that return
later by the filter time of at most 1.575 ms. -/
def State.pulseLate (s : State) (i : Fin 4) : Bool :=
  let due := fun (since : Nat) => decide (since + s.rdN Obj.tpPeriod * msCycles ≤ s.time.now + 1575 * usCycles)
  (s.viewOf .c i && due (s.safety.viewTC.get i)) || (s.viewOf .m i && due (s.safety.viewTM.get i))

/-- `TEST_PULSE_MISSING` (R381): no pulse in `TP_PERIOD` on an input that is not low, or pulses of a pair that overlap. -/
def execTestPulseMissing (i : SafetyInput) (cross : Bool) (t : Nat) (s0 : State) : Host.Outcome State Fault Refusal :=
  let s := s0.atT t
  let n := inputNum i
  let due := s.pulseDue n && (if cross then s.pulseDue (pairMate n) else s.pulseLate n)
  if s.regionUp && due then .next (s.fault 0xE405 (mkInst (inputSide i) 0) (n.val : Int)) else .next s

/-- Since when a channel's views of the STO inputs, and of the guard inputs, differ. -/
def State.stoDiffer (s : State) (ch : Chan) : Option Nat := match ch with
  | .c => s.safety.discTC
  | .m => s.safety.discTM
def State.guardDiffer (s : State) (ch : Chan) : Option Nat := match ch with
  | .c => s.safety.guardDiffC
  | .m => s.safety.guardDiffM

/-- `STO_DISCREPANCY` (R382, R396): for more than 20 ms on the channel's own clock. -/
def execStoDiscrepancy (ch : Chan) (t : Nat) (s0 : State) : Host.Outcome State Fault Refusal :=
  let s := s0.atT t
  if s.chanUp ch && s.safety.governs.isSome && lastedOn ch (s.stoDiffer ch) 20 t then .next (s.chanFault ch 0xE404 0 0)
  else .next s

/-- `GUARD_DISCREPANCY` (R382, R388, R396): for more than `GUARD_DISC`. -/
def execGuardDiscrepancy (ch : Chan) (t : Nat) (s0 : State) : Host.Outcome State Fault Refusal :=
  let s := s0.atT t
  if s.chanUp ch && s.safety.governs.isSome && decide (s.rd Obj.guardReact ≠ 0)
      && lastedOn ch (s.guardDiffer ch) (s.rdN Obj.guardDisc) t then
    .next (s.chanFault ch 0xE408 0 0)
  else .next s

/-- `CHANNEL_DISCREPANCY` (R376): the views of one input differ between the channels for more than 20 ms, found first on the faster
of the two clocks; guard inputs that are ignored are not compared (R388). -/
def execChannelDiscrepancy (i : SafetyInput) (t : Nat) (s0 : State) : Host.Outcome State Fault Refusal :=
  let s := s0.atT t
  let n := inputNum i
  if s.chanUp .c && s.chanUp .m && decide (n.val < 2 ∨ s.rd Obj.guardReact ≠ 0) && lastedOn .c (s.safety.chanDiff.get n) 20 t then
    .next (s.fault 0xE405 (mkInst (inputSide i) 0) (n.val : Int))
  else .next s

/-! ## Outputs (R377, R391) -/

/-- The number of a channel, of its enable and of its brake output: instances of R353 and R377. -/
def chanNum (ch : Chan) : Nat := match ch with
  | .c => 0
  | .m => 1

/-- `ENABLE_READBACK_MISMATCH` (R377): the enable concerned is the instance. -/
def execEnableReadbackMismatch (ch : Chan) (s : State) : Host.Outcome State Fault Refusal :=
  if s.regionUp then
    let s1 := match ch with
      | .c => s.modSafety (fun f => { f with genBackC := some !f.genC })
      | .m => s.modSafety (fun f => { f with genBackM := some !f.genM })
    .next (s1.fault 0xE406 (mkInst (chanNum ch) 0) 0)
  else .next s

/-- The brake output of a channel is commanded on. -/
def State.brakeOn (s : State) (ch : Chan) : Bool := match ch with
  | .c => s.safety.brkA
  | .m => s.safety.brkB

/-- 0xE407 with the output in the data field (R391). -/
def State.brakeFault (ch : Chan) (s : State) : State :=
  s.chanFault ch 0xE407 (mkInst (chanNum ch) 0) (chanNum ch : Int)

/-- `BRAKE_TEST` (R391): the released output is switched off for at most 300 µs and on again; its pad must fall. -/
def execBrakeTest (ch : Chan) (fell : Bool) (s : State) : Host.Outcome State Fault Refusal :=
  if s.chanUp ch && s.brakeOn ch && !fell then .next (s.brakeFault ch) else .next s

/-- A brake output commanded on whose pad reads off is in thermal shutdown (R69). -/
def State.brakeShut (ch : Chan) (s : State) : State := match ch with
  | .c => s.modSafety (fun f => { f with brkShutA := f.brkShutA || f.brkA })
  | .m => s.modSafety (fun f => { f with brkShutB := f.brkShutB || f.brkB })

/-- `BRAKE_MISMATCH` (R69, R391). -/
def execBrakeMismatch (ch : Chan) (s : State) : Host.Outcome State Fault Refusal :=
  if s.chanUp ch then .next ((s.brakeShut ch).brakeFault ch) else .next s

/-! ## Timers (R386, R389) -/

/-- A channel's detection of the SS1 (R387). -/
def State.ss1From (s : State) (ch : Chan) : Nat := match ch with
  | .c => s.safety.ss1StartC
  | .m => s.safety.ss1StartM

/-- `SS1_TIMER_EXPIRY` (R386): the channel's timer has reached `SS1_TIME` on its own clock. -/
def execSs1TimerExpiry (ch : Chan) (t : Nat) (s0 : State) : Host.Outcome State Fault Refusal :=
  let s := s0.atT t
  if s.ss1Runs ch && passedOn ch (s.ss1From ch) (s.rdN Obj.ss1Time * msCycles) s.time.now then .next ((s.ss1End ch).stoEnd ch).settle
  else .next s

/-- `SBC_STO_LAG_EXPIRY` (R389 case 1): `SBC_STO_LAG` after the first of the two enables fell. -/
def execSbcStoLagExpiry (ch : Chan) (t : Nat) (s0 : State) : Host.Outcome State Fault Refusal :=
  let s := s0.atT t
  if s.chanUp ch && decide (s.rd Obj.sbcEn = 1) && !(s.safety.genC && s.safety.genM)
      && passedOn ch s.safety.genFallT (s.rdN Obj.sbcStoLag * msCycles) t then .next (s.brakeOff ch).settle
  else .next s

/-- A brake demand of an SS1 starts the brake delay of a hold-then-brake stop (R312). -/
def State.brakeDueFor (s : State) : State :=
  let g := Fin.ofNat 4 (s.rdN Obj.sbcGroup)
  let x := s.grp.get g
  if x.st = .stopping ∧ s.rd (Obj.stallMode g.val) = 1 ∧ !x.brakeDue then
    s.modGrp g (fun y => { y with brakeDue := true, brakeT := s.time.now })
  else s

/-- `SS1_BRAKE_EXPIRY` (R389 case 2): `SS1_TIME` − `SBC_DELAY` into the channel's SS1-t. -/
def execSs1BrakeExpiry (ch : Chan) (t : Nat) (s0 : State) : Host.Outcome State Fault Refusal :=
  let s := s0.atT t
  let after := (s.rdN Obj.ss1Time - s.rdN Obj.sbcDelay) * msCycles
  if s.ss1Runs ch && decide (s.rd Obj.sbcEn = 1) && passedOn ch (s.ss1From ch) after t then
    .next ((s.brakeOff ch).brakeDueFor).settle
  else .next s

end Sys2Proof.Machine
end

