-- ==== Sys2Proof/Machine/Security.lean ====
section
/-! DEFINITION. The timers of sessions and lockouts (R490, R491), boundary scan (R81, R82) and the debug units' accesses
(R501). -/

namespace Sys2Proof.Machine

/-- `SESSION_IDLE_TIMEOUT` (R491, R499): `SEC_IDLE_S` after the last command was taken from a mailbox. -/
def execSessionIdleTimeout (s : State) : Host.Outcome State Fault Refusal :=
  match s.sec.session with
  | none => .next s
  | some _ => .next ((s.atT (s.sec.cmdT + s.rdN Obj.secIdleS * secCycles)).endHostSession 1).settle

/-- `LOCKOUT_EXPIRY` (R490): the failure run and the length stay, so that the next failure locks out again at once. -/
def execLockoutExpiry (u : Fin 16) (s : State) : Host.Outcome State Fault Refusal :=
  let k := s.lockOf u.val
  match k.2.2 with
  | none => .next s
  | some t0 => .next ((s.atT (t0 + k.2.1 * secCycles)).setLock u.val (k.1, k.2.1, none))

/-- What a TAP captures into the data register its instruction selects, the bit nearest TDO first: the identity code, the
boundary cells as the pads present them, or the bypass bit (R81; CLAMP and HIGHZ select the bypass, IEEE 1149.1). -/
def tapCapture (tap : Region) (ins : TapIns) (pads : List Bool) : List Bool :=
  let cells := match tap with
    | .m => 96
    | .c => 112
  let code : Nat := match tap with
    | .m => 0x13412A01
    | .c => 0x13412C01
  match ins with
  | .idcode => (List.range 32).map (fun i => code.testBit i)
  | .samplePreload | .extest => (List.range cells).map (fun i => pads.getD i (Config.scanCell i))
  | .bypass | .clamp | .highz => [false]

/-- One shift: a bit leaves towards TDO, a bit enters from TDI. -/
def tapShift (x : List Bool × List Bool) (b : Bool) : List Bool × List Bool := (x.1.drop 1 ++ [b], x.2 ++ x.1.take 1)

/-- Bits of a TAP's instruction register, R81. -/
def tapIrLen : Region → Nat
  | .m => 5
  | .c => 6
/-- What the instruction register holds for an instruction: `BYPASS` is all ones (IEEE 1149.1), the other codes stand in Farnar's
BSDL files. -/
def tapIr (tap : Region) (ins : TapIns) : Nat :=
  let k := match ins with
    | .extest => 0
    | .clamp => 1
    | .highz => 2
    | .idcode => 3
    | .samplePreload => 4
    | .bypass => 5
  if ins = .bypass then 2 ^ tapIrLen tap - 1 else Config.tapCode k % 2 ^ tapIrLen tap

/-- A data scan of one TAP: its register captures, the bits of `tdi` are shifted through it, and a boundary register latches what
it then holds (R81). -/
def TapSt.scan (x : TapSt) (tap : Region) (tdi pads : List Bool) : TapSt :=
  let r := tdi.foldl tapShift (tapCapture tap x.ins pads, [])
  { x with dr := r.1, tdo := r.2, upd := if x.ins = .samplePreload ∨ x.ins = .extest then r.1 else x.upd }

/-- `TAP_DATA_SCAN` (R81, R82): the chain runs from `TDI` through region M's register into region C's and on to `TDO`; the pads
given are those of the TAP named. -/
def execTapDataScan (tap : Region) (tdi capture : List Bool) (s : State) : Host.Outcome State Fault Refusal :=
  if !s.sec.unlocked then .next s
  else
    let m := s.tapM.scan .m tdi (if tap = .m then capture else [])
    .next { s with tapM := m, tapC := s.tapC.scan .c m.tdo (if tap = .c then capture else []) }

/-- Where the debug port finds a byte: the two regions' spaces are apart. -/
def debugKey (r : Region) (addr : Nat) : Nat := match r with
  | .c => 2 * addr
  | .m => 2 * addr + 1

/-- `DEBUG_MEMORY_ACCESS` (R501): a locked port accepts no access; a byte nothing wrote reads as a free value. -/
def execDebugMemoryAccess (r : Region) (write : Bool) (addr : Nat) (data : Byte) (s : State) : Host.Outcome State Fault Refusal :=
  if !s.sec.unlocked then .next s
  else if write then
    .next (s.modSec (fun x => { x with
      debugMem := x.debugMem.filter (fun p => decide (p.1 < debugKey r addr)) ++ (debugKey r addr, data)
        :: x.debugMem.filter (fun p => decide (debugKey r addr < p.1)) }))
  else
    let v := match s.sec.debugMem.find? (fun p => p.1 == debugKey r addr) with
      | some p => p.2
      | none => Config.debugByte s.sec.debugCount
    .next (s.modSec (fun x => { x with debugRead := v, debugCount := x.debugCount + 1 }))

end Sys2Proof.Machine
end

