-- ==== Sys2Proof/Machine/TimeUnits.lean ====
section
/-! DEFINITION. Leaven's offsets, `PPS_OUT`, the time units at a `SYNC`, and event timestamps (R422 to R435). -/

namespace Sys2Proof.Machine

/-- An offset stamped at an instant was taken before the last step of the station clock, or with it (R426). -/
def State.beforeStep (s : State) (t : Nat) : Bool := s.time.stepT.any (fun u => decide (t ≤ u))

/-- `LEAVEN_OFFSET` (R419, R422 to R428, R471): the offset on its way to a channel is delivered: the last Sync's, or the pair clock's.
One whose timestamps were taken before the last clock step is discarded (R426). -/
def execLeavenOffset (channel : Fin 2) (t : Nat) (s0 : State) : Host.Outcome State Fault Refusal :=
  let s := s0.atT t
  if !s.askard then .next s
  else if channel = 0 then
    match s.net.offset with
    | none => .next s
    | some (o, at_) =>
      let s1 := s.modNet (fun n => { n with offset := none })
      .next (if s.beforeStep at_ then s1 else s1.leaven 0 o)
  else match s.pair.clkDue with
    | none => .next s
    | some o => .next ((s.modPair (fun p => { p with clkDue := none })).leaven 1 o)

/-- Cycles of the local timebase in which the station clock advances by `ns` (R422). -/
def State.cyclesOf (s : State) (ns : Rat) : Nat := (ns / (5 * (1 - s.time.lv0.rate / 1000000000))).ceil.toNat

/-- Nanoseconds of station time to the next station second; none where it is one now. -/
def State.toSecond (s : State) : Rat :=
  let past := s.time.station - 1000000000 * ((s.time.station / 1000000000).floor : Rat)
  if past = 0 then 0 else 1000000000 - past

/-- `PPS_RISE` (R429): at the next station second. -/
def execPpsRise (s0 : State) : Host.Outcome State Fault Refusal :=
  let s := s0.atT (s0.time.now + s0.cyclesOf s0.toSecond)
  if s.askard && decide (s.rd Obj.ppsEn = 1) && decide (s.rd Obj.ppsGate = 0 ∨ s.time.lv0.st = .locked) then
    .next (s.modTime (fun t => { t with ppsOut := true, ppsEnd := t.now + s.cyclesOf (1000 * s.rdR Obj.ppsWidth) }))
  else .next s
/-- `PPS_FALL` (R429): a pulse in progress completes its width. -/
def execPpsFall (s : State) : Host.Outcome State Fault Refusal :=
  if s.time.ppsOut then .next ((s.atT s.time.ppsEnd).modTime (fun t => { t with ppsOut := false })) else .next s

/-! ## SYNC (R21, R22, R430 to R432, R471) -/

/-- The units of a module: those of absent loaves left out. -/
def State.unitsHere (s : State) : List Nat := (List.range 7).filter (fun u => decide (4 ≤ u) || s.has u)

/-- The loaf of a unit whose time follows the pair clock: one of the pair group on a STANDBY module in mode 0 (R471). -/
def State.onPairClock (s : State) (u : Nat) : Bool :=
  s.paired && decide (s.prRole = 2) && decide (s.rd Obj.prMode = 0) && decide (u < 4)
    && s.groupOf (Fin.ofNat 4 u) == some s.prGroup

/-- The increments with which the offset at the next `SYNC`, a millisecond on, lies within 20 ns (R432): the clock the unit follows
advances by its rate, and the present offset is made up for. -/
def State.trimRange (s : State) (u : Nat) (ofs : Rat) : Int × Int :=
  let rate := if s.onPairClock u then s.time.lv1.rate else s.time.lv0.rate
  let need : Rat := (5 * (1 - rate / 1000000000) - ofs / msCycles) * 2 ^ 32
  let room : Rat := 20 * 2 ^ 32 / msCycles
  ((need - room).ceil, (need + room).floor)

/-- Askard's trim of a unit: some increment that meets the goal, within the object's limits (R430, R432). -/
def State.trim (u : Nat) (ofs : Rat) (s : State) : State :=
  let r := s.trimRange u ofs
  s.wr (Obj.tuInc u) (clampI 0x400000000 0x600000000 (r.1 + (Config.trimInc u (showInt ofs) : Int) % (r.2 - r.1 + 1)))

/-- What a `SYNC` does to one unit: the offset latched and shown, a pending load taken, and Askard's trim. -/
def State.unitSync (station : Rat) (u : Nat) (s : State) : State :=
  let here : Rat := ((s.time.units.getD u 0 : Nat) : Rat) / 2 ^ 32
  let ofs := here - station + (if s.onPairClock u then s.time.station - s.time.pairClk else 0)
  let s1 := (s.wr (Obj.tuOfs u) (clampI (-0x80000000) 0x7FFFFFFF (showInt ofs))).wrBit (Obj.tuStat u) 1 (decide (absR ofs ≤ 20))
  let s2 :=
    if s.time.unitPending.getD u false then
      (s1.modTime (fun t => { t with
        units := t.units.set u ((station * 2 ^ 32).floor.toNat % stationWrap)
        unitLoaded := t.unitLoaded.set u true, unitPending := t.unitPending.set u false })).wrBit (Obj.tuStat u) 0 true
    else s1
  if s.rd (Obj.tuTrim u) ≠ 1 then s2
  else if !s2.time.unitLoaded.getD u false || decide (10000 < absR ofs) then
    s2.modTime (fun t => { t with unitPending := t.unitPending.set u true })
  else s2.trim u ofs

/-- The station time a `SYNC` packet carries, in ns. -/
def syncTime (p : Packet) : Rat :=
  ((leAt p.payload 6 6 * 1000000000 + leAt p.payload 2 4 : Nat) : Rat) + ((leAt p.payload 0 2 : Nat) : Rat) / 65536

/-- The station time that has passed on the way of a `SYNC`, in ns: from the instant its start characters left to now. A packet
that is not the last one sent has no such instant, and nothing is compensated (R22). -/
def State.syncDelay (s : State) (p : Packet) : Rat :=
  match s.peelM.syncT with
  | some (payload, t0) =>
    if payload = p.payload then 5 * ((s.time.now - t0 : Nat) : Rat) * (1 - s.time.lv0.rate / 1000000000) else 0
  | none => 0

/-- `SYNC` (R21, R22, R431, R432): one that fails its CRC latches nothing. -/
def execSync (p : Packet) (t : Nat) (s0 : State) : Host.Outcome State Fault Refusal :=
  let s := s0.atT t
  .next (s.peelTake .c .sync p (fun x => forAll x.unitsHere (State.unitSync (syncTime p + s.syncDelay p)) x))

/-! ## Event timestamps (R435) -/

/-- The unit's source is a pad, of a unit that is present (R52, R435). -/
def State.etsSource (s : State) (u : Nat) (pad : Fin 12) : Bool :=
  decide (s.rdN (Obj.etsSrc u) = pad.val + 1) && (decide (pad.val < 8) || s.has (pad.val - 8))

/-- `EVENT_TIMESTAMP` (R435): an edge of the pad and kind that the unit's source and selection name, seen at instant `t`; the stamp is
two cycles older. -/
def execEventTimestamp (u : Fin 2) (e : EtsEdge) (t : Nat) (s0 : State) : Host.Outcome State Fault Refusal :=
  let s := s0.atT t
  if s.regionUp && s.etsSource u.val e.pad && s.rdBit (Obj.etsEdge u.val) (if e.rising then 0 else 1) then
    let n := 4 + u.val
    let ns := (s.time.units.getD n 0 + stationWrap - 2 * s.tuStep n) % stationWrap / 2 ^ 32
    let s1 := s.bumpWrap (Obj.etsCount u.val)
    let x := (s1.rdN (Obj.etsCount u.val), if e.rising then 1 else 2, ns / 1000000000 % 2 ^ 32, ns % 1000000000)
    .next (s1.modTime (fun y =>
      if u = 0 then { y with ets0 := (x :: y.ets0).take 16 } else { y with ets1 := (x :: y.ets1).take 16 }))
  else .next s

end Sys2Proof.Machine
end

