-- ==== Sys2Proof/Machine/Dispatch.lean ====
section
/-! DEFINITION. One arm per command. -/

namespace Sys2Proof.Machine

def exec (i : Instr) (s : State) : Host.Outcome State Fault Refusal :=
  match i with
  | .powerOn vin vioG vioH vbat => Sys2Proof.Machine.execPowerOn vin vioG vioH vbat s
  | .externalReset lowNs => Sys2Proof.Machine.execExternalReset lowNs s
  | .resetEnd => Sys2Proof.Machine.execResetEnd s
  | .swResetRead pole1 pole2 => Sys2Proof.Machine.execSwResetRead pole1 pole2 s
  | .secureBoot vendorKeyOk slotAOk slotBOk => Sys2Proof.Machine.execSecureBoot vendorKeyOk slotAOk slotBOk s
  | .askardStart => Sys2Proof.Machine.execAskardStart s
  | .pllLock => Sys2Proof.Machine.execPllLock s
  | .peelTrainingComplete => Sys2Proof.Machine.execPeelTrainingComplete s
  | .peelTrainTimeout => Sys2Proof.Machine.execPeelTrainTimeout s
  | .configEntry => Sys2Proof.Machine.execConfigEntry s
  | .configImageApplied => Sys2Proof.Machine.execConfigImageApplied s
  | .safetyBindingCheck => Sys2Proof.Machine.execSafetyBindingCheck s
  | .safetyParamReadback crustCrc => Sys2Proof.Machine.execSafetyParamReadback crustCrc s
  | .refReadySet k => Sys2Proof.Machine.execRefReadySet k s
  | .refSettleTimeout k => Sys2Proof.Machine.execRefSettleTimeout k s
  | .refLost k => Sys2Proof.Machine.execRefLost k s
  | .vinUnder mv => Sys2Proof.Machine.execVinUnder mv s
  | .vinHoldupEnd vin => Sys2Proof.Machine.execVinHoldupEnd vin s
  | .supplyMonitorFault m value => Sys2Proof.Machine.execSupplyMonitorFault m value s
  | .supplyMonitorClear m value => Sys2Proof.Machine.execSupplyMonitorClear m value s
  | .tempMonitor r tenths => Sys2Proof.Machine.execTempMonitor r tenths s
  | .switchPoll pole1 pole2 => Sys2Proof.Machine.execSwitchPoll pole1 pole2 s
  | .coverSample isOpen => Sys2Proof.Machine.execCoverSample isOpen s
  | .tapInstructionLoad tap ins => Sys2Proof.Machine.execTapInstructionLoad tap ins s
  | .tapRelock => Sys2Proof.Machine.execTapRelock s
  | .ckCtlLoss => Sys2Proof.Machine.execCkCtlLoss s
  | .ckSafeStop => Sys2Proof.Machine.execCkSafeStop s
  | .ckSafeDeviation hz => Sys2Proof.Machine.execCkSafeDeviation hz s
  | .ckAdcFault => Sys2Proof.Machine.execCkAdcFault s
  | .ckAdcRecovered => Sys2Proof.Machine.execCkAdcRecovered s
  | .ckMgtDeviation => Sys2Proof.Machine.execCkMgtDeviation s
  | .watchdogExpiry => Sys2Proof.Machine.execWatchdogExpiry s
  | .watchdogReset => Sys2Proof.Machine.execWatchdogReset s
  | .standbyClockFault => Sys2Proof.Machine.execStandbyClockFault s
  | .standbyClockRecovered => Sys2Proof.Machine.execStandbyClockRecovered s
  | .timeCounterReload => Sys2Proof.Machine.execTimeCounterReload s
  | .wakeAlarmCompare => Sys2Proof.Machine.execWakeAlarmCompare s
  | .standbySupplyLoss => Sys2Proof.Machine.execStandbySupplyLoss s
  | .transitionBegin => Sys2Proof.Machine.execTransitionBegin s
  | .hostWriteFrame bytes bits gapNs => Sys2Proof.Machine.execHostWriteFrame bytes bits gapNs s
  | .hostReadFrame bytes bits gapNs => Sys2Proof.Machine.execHostReadFrame bytes bits gapNs s
  | .dbIn w => Sys2Proof.Machine.execDbIn w s
  | .dbOut w => Sys2Proof.Machine.execDbOut w s
  | .tsCtrl w => Sys2Proof.Machine.execTsCtrl w s
  | .tsLatchComplete => Sys2Proof.Machine.execTsLatchComplete s
  | .hbHost w => Sys2Proof.Machine.execHbHost w s
  | .irqFlags w => Sys2Proof.Machine.execIrqFlags w s
  | .hostCntClr w => Sys2Proof.Machine.execHostCntClr w s
  | .windowRegisterWrite addr w => Sys2Proof.Machine.execWindowRegisterWrite addr w s
  | .hbModuleTick t => Sys2Proof.Machine.execHbModuleTick t s
  | .mailboxTake => Sys2Proof.Machine.execMailboxTake s
  | .mb2DeliveryOut => Sys2Proof.Machine.execMb2DeliveryOut s
  | .echo src => Sys2Proof.Machine.execEcho src s
  | .get src => Sys2Proof.Machine.execGet src s
  | .set src => Sys2Proof.Machine.execSet src s
  | .getBlock src => Sys2Proof.Machine.execGetBlock src s
  | .setBlock src => Sys2Proof.Machine.execSetBlock src s
  | .swapBank src => Sys2Proof.Machine.execSwapBank src s
  | .swapBankTimeout src => Sys2Proof.Machine.execSwapBankTimeout src s
  | .loafStateOff src => Sys2Proof.Machine.execLoafStateOff src s
  | .loafStateOpen src => Sys2Proof.Machine.execLoafStateOpen src s
  | .loafStateClosed src => Sys2Proof.Machine.execLoafStateClosed src s
  | .groupStateStart src => Sys2Proof.Machine.execGroupStateStart src s
  | .groupStateStop src => Sys2Proof.Machine.execGroupStateStop src s
  | .move src => Sys2Proof.Machine.execMove src s
  | .faultAck src => Sys2Proof.Machine.execFaultAck src s
  | .faultClear src => Sys2Proof.Machine.execFaultClear src s
  | .calZero src => Sys2Proof.Machine.execCalZero src s
  | .calFull src => Sys2Proof.Machine.execCalFull src s
  | .calComplete src => Sys2Proof.Machine.execCalComplete src s
  | .calTimeout src => Sys2Proof.Machine.execCalTimeout src s
  | .captureArm src => Sys2Proof.Machine.execCaptureArm src s
  | .captureDisarm src => Sys2Proof.Machine.execCaptureDisarm src s
  | .captureTriggerNow src t => Sys2Proof.Machine.execCaptureTriggerNow src t s
  | .captureRead src => Sys2Proof.Machine.execCaptureRead src s
  | .captureReadTimeout src => Sys2Proof.Machine.execCaptureReadTimeout src s
  | .subscribeStart src => Sys2Proof.Machine.execSubscribeStart src s
  | .subscribeCancel src => Sys2Proof.Machine.execSubscribeCancel src s
  | .sessionOpen src => Sys2Proof.Machine.execSessionOpen src s
  | .sessionAuth src => Sys2Proof.Machine.execSessionAuth src s
  | .sessionClose src => Sys2Proof.Machine.execSessionClose src s
  | .updateBegin src => Sys2Proof.Machine.execUpdateBegin src s
  | .updateChunk src => Sys2Proof.Machine.execUpdateChunk src s
  | .updateCommitFirmware src verifies => Sys2Proof.Machine.execUpdateCommitFirmware src verifies s
  | .updateCommitConfig src verifies img => Sys2Proof.Machine.execUpdateCommitConfig src verifies img s
  | .safetyLoad src verifies => Sys2Proof.Machine.execSafetyLoad src verifies s
  | .safetyAccept src => Sys2Proof.Machine.execSafetyAccept src s
  | .injectDry src => Sys2Proof.Machine.execInjectDry src s
  | .injectLive src => Sys2Proof.Machine.execInjectLive src s
  | .injHoldExpiry code inst => Sys2Proof.Machine.execInjHoldExpiry code inst s
  | .pairHandover src => Sys2Proof.Machine.execPairHandover src s
  | .pairHandoverComplete src => Sys2Proof.Machine.execPairHandoverComplete src s
  | .pairHandoverTimeout src => Sys2Proof.Machine.execPairHandoverTimeout src s
  | .timeStepMeasured src => Sys2Proof.Machine.execTimeStepMeasured src s
  | .timeStepGiven src => Sys2Proof.Machine.execTimeStepGiven src s
  | .moduleReqReady src => Sys2Proof.Machine.execModuleReqReady src s
  | .moduleReqConfig src => Sys2Proof.Machine.execModuleReqConfig src s
  | .moduleReqStandby src => Sys2Proof.Machine.execModuleReqStandby src s
  | .moduleReqReset src => Sys2Proof.Machine.execModuleReqReset src s
  | .peelStatsClr v => Sys2Proof.Machine.execPeelStatsClr v s
  | .ignClr v => Sys2Proof.Machine.execIgnClr v s
  | .cmdCntClr v => Sys2Proof.Machine.execCmdCntClr v s
  | .streamCntClr v => Sys2Proof.Machine.execStreamCntClr v s
  | .pwmCntClr n v => Sys2Proof.Machine.execPwmCntClr n v s
  | .tripCntClr v => Sys2Proof.Machine.execTripCntClr v s
  | .convCntClr k v => Sys2Proof.Machine.execConvCntClr k v s
  | .fbCntClr n v => Sys2Proof.Machine.execFbCntClr n v s
  | .ovenCntClr n v => Sys2Proof.Machine.execOvenCntClr n v s
  | .protCntClr n v => Sys2Proof.Machine.execProtCntClr n v s
  | .logClr v => Sys2Proof.Machine.execLogClr v s
  | .injCntClr v => Sys2Proof.Machine.execInjCntClr v s
  | .ethCntClr v => Sys2Proof.Machine.execEthCntClr v s
  | .ppCntClr v => Sys2Proof.Machine.execPpCntClr v s
  | .mlCntClr v => Sys2Proof.Machine.execMlCntClr v s
  | .supplyFlagsClear v => Sys2Proof.Machine.execSupplyFlagsClear v s
  | .satFlagsClear k v => Sys2Proof.Machine.execSatFlagsClear k v s
  | .idxArm n v => Sys2Proof.Machine.execIdxArm n v s
  | .idxModeWrite n v => Sys2Proof.Machine.execIdxModeWrite n v s
  | .fbModeWrite n dirInv v => Sys2Proof.Machine.execFbModeWrite n dirInv v s
  | .evtConfigWrite n x presc v => Sys2Proof.Machine.execEvtConfigWrite n x presc v s
  | .openCmpWrite n u v w => Sys2Proof.Machine.execOpenCmpWrite n u v w s
  | .grpLoavesWrite g v => Sys2Proof.Machine.execGrpLoavesWrite g v s
  | .tuIncWrite u v => Sys2Proof.Machine.execTuIncWrite u v s
  | .tuLoad u v => Sys2Proof.Machine.execTuLoad u v s
  | .hbNet v => Sys2Proof.Machine.execHbNet v s
  | .listTrigWrite l v => Sys2Proof.Machine.execListTrigWrite l v s
  | .manGo v => Sys2Proof.Machine.execManGo v s
  | .ppAbort v => Sys2Proof.Machine.execPpAbort v s
  | .attestNonce v => Sys2Proof.Machine.execAttestNonce v s
  | .attestationFormed signature => Sys2Proof.Machine.execAttestationFormed signature s
  | .objectWrite addrWord vals => Sys2Proof.Machine.execObjectWrite addrWord vals s
  | .peelTxGrant r => Sys2Proof.Machine.execPeelTxGrant r s
  | .peelAck r p => Sys2Proof.Machine.execPeelAck r p s
  | .peelNak r p => Sys2Proof.Machine.execPeelNak r p s
  | .peelTrain r p => Sys2Proof.Machine.execPeelTrain r p s
  | .peelRetxTimeout r => Sys2Proof.Machine.execPeelRetxTimeout r s
  | .peelRetrain => Sys2Proof.Machine.execPeelRetrain s
  | .peelTimeout r => Sys2Proof.Machine.execPeelTimeout r s
  | .heartbeatSend => Sys2Proof.Machine.execHeartbeatSend s
  | .heartbeat p t => Sys2Proof.Machine.execHeartbeat p t s
  | .syncSend => Sys2Proof.Machine.execSyncSend s
  | .sync p t => Sys2Proof.Machine.execSync p t s
  | .event p => Sys2Proof.Machine.execEvent p s
  | .peelRecord p => Sys2Proof.Machine.execPeelRecord p s
  | .peelCapture p => Sys2Proof.Machine.execPeelCapture p s
  | .objWr p => Sys2Proof.Machine.execObjWr p s
  | .objRd p => Sys2Proof.Machine.execObjRd p s
  | .cmd p => Sys2Proof.Machine.execCmd p s
  | .objRsp p => Sys2Proof.Machine.execObjRsp p s
  | .cmdRsp p => Sys2Proof.Machine.execCmdRsp p s
  | .faultPacketEvent p => Sys2Proof.Machine.execFaultPacketEvent p s
  | .faultPacketReport p t => Sys2Proof.Machine.execFaultPacketReport p t s
  | .faultPacketAck p t => Sys2Proof.Machine.execFaultPacketAck p t s
  | .faultPacketClear p t => Sys2Proof.Machine.execFaultPacketClear p t s
  | .faultPacketInject p t => Sys2Proof.Machine.execFaultPacketInject p t s
  | .haltNotification p t => Sys2Proof.Machine.execHaltNotification p t s
  | .debugHalt t => Sys2Proof.Machine.execDebugHalt t s
  | .faultLatch code inst data t => Sys2Proof.Machine.execFaultLatch code inst data t s
  | .graceExpiry code inst t => Sys2Proof.Machine.execGraceExpiry code inst t s
  | .nvLogWrite => Sys2Proof.Machine.execNvLogWrite s
  | .auditLogWrite => Sys2Proof.Machine.execAuditLogWrite s
  | .hostHbTimeout => Sys2Proof.Machine.execHostHbTimeout s
  | .beatToggle t => Sys2Proof.Machine.execBeatToggle t s
  | .counterStart n t => Sys2Proof.Machine.execCounterStart n t s
  | .epochStartTick n t => Sys2Proof.Machine.execEpochStartTick n t s
  | .periodStart n t => Sys2Proof.Machine.execPeriodStart n t s
  | .pwmPeak n t => Sys2Proof.Machine.execPwmPeak n t s
  | .frameBoundary n t => Sys2Proof.Machine.execFrameBoundary n t s
  | .frameClose n t => Sys2Proof.Machine.execFrameClose n t s
  | .loafFrameCompute n t => Sys2Proof.Machine.execLoafFrameCompute n t s
  | .tripLatch x n ns t => Sys2Proof.Machine.execTripLatch x n ns t s
  | .tripCycleGap x n ns t => Sys2Proof.Machine.execTripCycleGap x n ns t s
  | .tripFilterDeassert x n ns t => Sys2Proof.Machine.execTripFilterDeassert x n ns t s
  | .readbackMismatch n pad t => Sys2Proof.Machine.execReadbackMismatch n pad t s
  | .sampleResult k input kind raw inst t => Sys2Proof.Machine.execSampleResult k input kind raw inst t s
  | .injectedSeqStart k line t => Sys2Proof.Machine.execInjectedSeqStart k line t s
  | .pairBurstStart p line t => Sys2Proof.Machine.execPairBurstStart p line t s
  | .sliceExclude k slice => Sys2Proof.Machine.execSliceExclude k slice s
  | .mismatchConverged k => Sys2Proof.Machine.execMismatchConverged k s
  | .plausCompare p t => Sys2Proof.Machine.execPlausCompare p t s
  | .openWireDetect k input t => Sys2Proof.Machine.execOpenWireDetect k input t s
  | .auxWindow t => Sys2Proof.Machine.execAuxWindow t s
  | .captureComplete t => Sys2Proof.Machine.execCaptureComplete t s
  | .fbEdge n a b z ns inst t => Sys2Proof.Machine.execFbEdge n a b z ns inst t s
  | .indexEvent n t => Sys2Proof.Machine.execIndexEvent n t s
  | .hallInvalid n t => Sys2Proof.Machine.execHallInvalid n t s
  | .standstill n t => Sys2Proof.Machine.execStandstill n t s
  | .serialTransferStart n t => Sys2Proof.Machine.execSerialTransferStart n t s
  | .serialTransferEnd n r t => Sys2Proof.Machine.execSerialTransferEnd n r t s
  | .starterAlignEnd g polarity t => Sys2Proof.Machine.execStarterAlignEnd g polarity t s
  | .starterTimeout g t => Sys2Proof.Machine.execStarterTimeout g t s
  | .stallDetect g t => Sys2Proof.Machine.execStallDetect g t s
  | .stallHoldExpiry g t => Sys2Proof.Machine.execStallHoldExpiry g t s
  | .sbcDelayExpiry g t => Sys2Proof.Machine.execSbcDelayExpiry g t s
  | .stopTimeout g t => Sys2Proof.Machine.execStopTimeout g t s
  | .spdInvalidTimeout g t => Sys2Proof.Machine.execSpdInvalidTimeout g t s
  | .safetyInputChange ch input level ns t => Sys2Proof.Machine.execSafetyInputChange ch input level ns t s
  | .inputStageTest ch input readsLow => Sys2Proof.Machine.execInputStageTest ch input readsLow s
  | .testPulseMissing input cross t => Sys2Proof.Machine.execTestPulseMissing input cross t s
  | .stoDiscrepancy ch t => Sys2Proof.Machine.execStoDiscrepancy ch t s
  | .guardDiscrepancy ch t => Sys2Proof.Machine.execGuardDiscrepancy ch t s
  | .channelDiscrepancy input t => Sys2Proof.Machine.execChannelDiscrepancy input t s
  | .enableReadbackMismatch ch => Sys2Proof.Machine.execEnableReadbackMismatch ch s
  | .ss1TimerExpiry ch t => Sys2Proof.Machine.execSs1TimerExpiry ch t s
  | .sbcStoLagExpiry ch t => Sys2Proof.Machine.execSbcStoLagExpiry ch t s
  | .ss1BrakeExpiry ch t => Sys2Proof.Machine.execSs1BrakeExpiry ch t s
  | .brakeTest ch fell => Sys2Proof.Machine.execBrakeTest ch fell s
  | .brakeMismatch ch => Sys2Proof.Machine.execBrakeMismatch ch s
  | .ethFrameRx port f t => Sys2Proof.Machine.execEthFrameRx port f t s
  | .ethFrameTx port t => Sys2Proof.Machine.execEthFrameTx port t s
  | .addressAging mac => Sys2Proof.Machine.execAddressAging mac s
  | .phyPoll port reg1 refclk => Sys2Proof.Machine.execPhyPoll port reg1 refclk s
  | .arpRx isRequest senderIp senderMac targetIp => Sys2Proof.Machine.execArpRx isRequest senderIp senderMac targetIp s
  | .icmpEcho r t => Sys2Proof.Machine.execIcmpEcho r t s
  | .tcpConnect r => Sys2Proof.Machine.execTcpConnect r s
  | .tlsHandshakeComplete c user offer exporter => Sys2Proof.Machine.execTlsHandshakeComplete c user offer exporter s
  | .tlsHandshakeTimeout c => Sys2Proof.Machine.execTlsHandshakeTimeout c s
  | .netCommand c words => Sys2Proof.Machine.execNetCommand c words s
  | .connectionClose c => Sys2Proof.Machine.execConnectionClose c s
  | .netIdleTimeout c => Sys2Proof.Machine.execNetIdleTimeout c s
  | .deliveryClose sub => Sys2Proof.Machine.execDeliveryClose sub s
  | .objectSampleTick sub => Sys2Proof.Machine.execObjectSampleTick sub s
  | .ptpSync port h twoStep logInterval origin corr t => Sys2Proof.Machine.execPtpSync port h twoStep logInterval origin corr t s
  | .ptpFollowUp port h origin corr => Sys2Proof.Machine.execPtpFollowUp port h origin corr s
  | .ptpDelayReqSend t => Sys2Proof.Machine.execPtpDelayReqSend t s
  | .ptpDelayResp port h receive corr => Sys2Proof.Machine.execPtpDelayResp port h receive corr s
  | .ptpAnnounce a => Sys2Proof.Machine.execPtpAnnounce a s
  | .ptpAnnounceTimeout => Sys2Proof.Machine.execPtpAnnounceTimeout s
  | .pdelayReqSend port t => Sys2Proof.Machine.execPdelayReqSend port t s
  | .pdelayReq port h corr t => Sys2Proof.Machine.execPdelayReq port h corr t s
  | .pdelayResp port h t2 t3 corr t => Sys2Proof.Machine.execPdelayResp port h t2 t3 corr t s
  | .leavenOffset channel t => Sys2Proof.Machine.execLeavenOffset channel t s
  | .ppsRise => Sys2Proof.Machine.execPpsRise s
  | .ppsFall => Sys2Proof.Machine.execPpsFall s
  | .eventTimestamp u e t => Sys2Proof.Machine.execEventTimestamp u e t s
  | .ppTransferStart => Sys2Proof.Machine.execPpTransferStart s
  | .pgpSelectDriven => Sys2Proof.Machine.execPgpSelectDriven s
  | .prdyReady => Sys2Proof.Machine.execPrdyReady s
  | .prdyTimeout => Sys2Proof.Machine.execPrdyTimeout s
  | .ppTransferEnd rx => Sys2Proof.Machine.execPpTransferEnd rx s
  | .listTrigger l => Sys2Proof.Machine.execListTrigger l s
  | .mirrorState bytes t => Sys2Proof.Machine.execMirrorState bytes t s
  | .mirrorHello bytes => Sys2Proof.Machine.execMirrorHello bytes s
  | .mirrorRelease bytes t => Sys2Proof.Machine.execMirrorRelease bytes t s
  | .mirrorRepeat t => Sys2Proof.Machine.execMirrorRepeat t s
  | .mirrorFramesLost t => Sys2Proof.Machine.execMirrorFramesLost t s
  | .mirrorRetrain => Sys2Proof.Machine.execMirrorRetrain s
  | .mlPresTimeout => Sys2Proof.Machine.execMlPresTimeout s
  | .rolePartnerChange pads t => Sys2Proof.Machine.execRolePartnerChange pads t s
  | .roleActGrant t => Sys2Proof.Machine.execRoleActGrant t s
  | .prBWaitExpiry => Sys2Proof.Machine.execPrBWaitExpiry s
  | .pairClockOffset t1 t2 t3 t4 => Sys2Proof.Machine.execPairClockOffset t1 t2 t3 t4 s
  | .sessionIdleTimeout => Sys2Proof.Machine.execSessionIdleTimeout s
  | .lockoutExpiry u => Sys2Proof.Machine.execLockoutExpiry u s
  | .arpCacheAging ip => Sys2Proof.Machine.execArpCacheAging ip s
  | .sideAPartnerHigh2us t => Sys2Proof.Machine.execSideAPartnerHigh2us t s
  | .tapDataScan tap tdi capture => Sys2Proof.Machine.execTapDataScan tap tdi capture s
  | .debugMemoryAccess r write addr data => Sys2Proof.Machine.execDebugMemoryAccess r write addr data s
  | .haltEnd => Sys2Proof.Machine.execHaltEnd s

end Sys2Proof.Machine
end

