-- ==== Sys2Proof/Safety.lean ====
section
/-! DEFINITION. The words claims are made in: a sound object store, safe pads, what a command answers, and the part of
the state that the fault collector and what follows from an event leave alone. -/

namespace Sys2Proof.Machine

/-! ## What the collector leaves alone -/

/-- A loaf's unit without what a reaction or a transition of its group may change (R181, R191, R290), and without the account of
its edges, wants and pattern (R184, R194, R208). -/
def LoafSt.still (l : LoafSt) : LoafSt :=
  { l with st := .off, running := false, periods := 0, shadow := (0, 0, 0), commits := [], holdOff := false, gap := false,
           autoAsc := false, test := false, evtCount := [], evtFired := 0, evtOven := 0, hold := 0, closing := false, high := 0,
           firstTick := none, peakDue := none, gapCounted := false, lines := [], legs := [], sigT := 0, pat := .off, patCrust := false, patT := 0 }

/-- A group without its state and what a transition clears (R293, R334, R335), and without its targets (R156). -/
def GroupSt.still (g : GroupSt) : GroupSt :=
  { g with st := .stopped, shareSet := [], drag := 0, cap := 0, capFull := 0, stopReq := false, startReq := false,
           stallT := none, invT := none, stallHold := false, brakeDue := false, degraded := false, degNext := false,
           target := none, nextTarget := none, isoT := none, isoN := 0, capped := false }

/-- A loaf's loop without the standing of its references, which ends with its group's run (R330). -/
def OvenSt.still (o : OvenSt) : OvenSt := { o with refOk := false, refOkPrev := false }

/-- A channel without `FB_INVALID`, which follows the pending faults (R278). -/
def FbSt.still (f : FbSt) : FbSt := { f with invalid := false }

/-- A mailbox without its executing command and its OUT buffer (R139). -/
def Mailbox.still (m : Mailbox) : Mailbox := { m with outBuf := [], outFull := false, job := none, respWait := none }

/-- A connection without its executing command and its last response; what waits in TCP to be sent is left out with it. -/
def Conn.still (c : Conn) : Conn := { c with job := none, sent := [] }

/-- The collector without pending faults, injections, and events on their way. -/
def FaultSt.still (f : FaultSt) : FaultSt :=
  { f with pend := [], inj := [], mRep := [], evtQ := [], c0 := [], lim := [], beating := false, beatT := 0 }

/-- The safety functions without enables, brakes, SS1 and demands (R375 to R391). -/
def SafetySt.still (f : SafetySt) : SafetySt :=
  { f with genC := false, genM := false, brkA := false, brkB := false, ss1C := false, ss1M := false, ss1StartC := 0,
           ss1StartM := 0, ss1EndC := false, ss1EndM := false, ss1Said := false, react5 := false, react6 := false, stoC := false,
           stoM := false, brakeDemC := false, brakeDemM := false, genFallT := 0 }

/-- What of the state neither the collector nor anything that follows from an event changes. Objects are left out; of
them the collector writes `collectorObjs` only. -/
def State.still (s : State) : State :=
  { s with
    mode := .boot
    boot := { s.boot with stateT := 0, readyT := 0, preSafe := .boot, safeSeen := true, transT := none }
    objs := []
    host := { s.host with irqFlags := 0 }
    mb := s.mb.mapIdx (fun _ => Mailbox.still)
    peelC := { s.peelC with waiting := [] }
    peelM := { s.peelM with waiting := [] }
    flt := s.flt.still
    loaf := s.loaf.mapIdx (fun _ => LoafSt.still)
    fb := s.fb.mapIdx (fun _ => FbSt.still)
    grp := s.grp.mapIdx (fun _ => GroupSt.still)
    oven := s.oven.mapIdx (fun _ => OvenSt.still)
    cap := { s.cap with trigT := 0, trigNs := 0 }
    safety := s.safety.still
    net := { s.net with conns := s.net.conns.mapIdx (fun _ => Conn.still), tcpOut := [] }
    pp := { s.pp with run := none }
    pair := { s.pair with roleAct := false, sent := [], txSeq := 0, bWait := false } }

/-- The objects the collector and what follows from an event may write: `RT_COUNT` and the published values of each
group, `BOOT_MS`, `BEAT_STOPS`, `STO_DEMANDS`, `INJ_COINC`, the capture's state and cause, and the refused commands. -/
def collectorObjs : List Nat :=
  [Obj.bootMs, Obj.beatStops, Obj.stoDemands, Obj.injCoinc, Obj.capState, Obj.capCause, Obj.cmdRefused, Obj.cmdLastRefused]
    ++ units4.flatMap (fun g => [Obj.rtCount g.val, Obj.capTrq g.val, Obj.capFull g.val, Obj.capPct g.val, Obj.dragTrq g.val])

end Sys2Proof.Machine

namespace Sys2Proof

open Sys2Proof.Machine

/-- The object store has its canonical form. -/
def StoreSound (s : State) : Prop := s.objs.wf = true

/-- Every power stage is off: no loaf's `GENn` is high (R194). -/
def AllOff (s : State) : Prop := ∀ n : Fin 4, s.genN n = false

/-- A command answers a next state with a property. -/
def Answers (c : Instr) (s : State) (P : State → Prop) : Prop := ∃ t, exec c s = .next t ∧ P t

/-- Every object but the listed ones reads as before. -/
def ObjsKept (but : List Nat) (s t : State) : Prop := ∀ a, a ∉ but → t.rd a = s.rd a

/-- From `s` to `t` only what the collector and what follows from an event may change has changed. -/
def Quiet (s t : State) : Prop := t.still = s.still ∧ ObjsKept collectorObjs s t

/-- From `s` to `t` only what the safety functions evaluate (R379 to R393) and what follows from them has changed. -/
def Watched (s t : State) : Prop :=
  { t.still with safety := {} } = { s.still with safety := {} } ∧ ObjsKept (Obj.ptAge :: Obj.discMax :: collectorObjs) s t

/-- The write of `v` to the object at `a` is one that R170 lets pass now: Askard takes commands, the value lies in the row's
limits, and no reason to ignore it holds. -/
def Taken (a : Nat) (v : Int) (s : State) : Prop :=
  s.askard = true ∧ s.mode ≠ .boot ∧ (∃ r, objRow (a / 0x100) (a % 0x100) = some r ∧ r.min ≤ v ∧ v ≤ r.max)
    ∧ s.judge (writeWords a v).1 (writeWords a v).2 = 0

/-- The packet of a write of `v` to the object at `a` is on its way to region C, where that region holds the object (R17, R31). -/
def Machine.State.sends (src : Source) (a : Nat) (v : Int) (s : State) : State :=
  s.carryWrite src (writeWords a v).1 (writeWords a v).2

/-- A command leads from `s` to `u`: it answers a next state that is `u` but for what the collector and what follows from
an event may change, and has the property. -/
def LeadsTo (c : Instr) (s u : State) (P : State → Prop) : Prop := Answers c s (fun t => Quiet u t ∧ P t)

/-- A command leads from `s` to `u` and all that follows from it. -/
def Settles (c : Instr) (s u : State) : Prop := LeadsTo c s u (fun _ => True)

/-- A command leads from `s` to `u` and a report of a code: where the module has the unit the instance names (R353, R372) and the
code's class in force is not C0 (whose reports pend nowhere, R354), the fault is pending. -/
def Reports (c : Instr) (s u : State) (code inst : Half) : Prop :=
  LeadsTo c s u (fun t => u.raisable code inst = true → (u.classOf code).1 ≠ .c0 → t.isPending code inst = true)

/-- A reset of region M's rules has been done (R87, R89, R90): the boot sequence starts, `RESET_N` and `PWRGOOD` are low, every
register is at its default but those flash and the standby domain keep, and `RESET_CAUSE` and `RESET_COUNT` tell of it. Where the
class of VIO_G is to be judged anew, that is noted (R61). -/
def ResetDone (causes : Nat) (s t : State) : Prop :=
  t.mode = .boot ∧ { t.boot with classDue := false } = { t0 := s.time.now, stateT := s.time.now } ∧ t.power.resetLow = true ∧ t.power.pwrgoodLow = true
    ∧ AllOff t
    ∧ t.rd Obj.resetCause = causes ∧ (s.rd Obj.resetCount < 0xFFFFFFFF → t.rd Obj.resetCount = s.rd Obj.resetCount + 1)
    ∧ t.rd Obj.bootMs = 0xFFFF
    ∧ (∀ a ∈ keptKeys, a ≠ Obj.resetCause → a ≠ Obj.resetCount → t.rd a = s.rd a)
    ∧ (∀ a, a ∉ keptKeys → a ≠ Obj.bootMs → t.rd a = storeDefault a)
    ∧ t.blobs = [] ∧ t.host = {} ∧ t.mb = Quad.all {} ∧ t.loaf = Quad.all {} ∧ t.flt.pend = [] ∧ t.flt.nvlog = s.flt.nvlog
    ∧ t.safety.sets = s.safety.sets ∧ t.sec.users = s.sec.users ∧ t.sec.image = s.sec.image ∧ t.sec.session = none
    ∧ t.sec.rollback = s.sec.rollback ∧ t.pending = s.pending ∧ t.variant = s.variant

/-- The command that `src` had executing is answered (R139, R140): its response stands in the OUT buffer of the mailbox, or
waits for the buffer where the host owned it; on an open connection it is the response sent. -/
def Answered (src : Source) (status tag : Nat) (ws : List Word) (s t : State) : Prop :=
  t.jobOf src = none ∧ match src with
    | .mb n =>
      if (s.mb.get n).outFull then (t.mb.get n).respWait = some (respWords status tag ws)
      else (t.mb.get n).outFull = true ∧ (t.mb.get n).outBuf = respWords status tag ws
    | .net c => (s.net.conns.get c).open_ = true → (t.net.conns.get c).sent = respWords status tag ws

/-- The command that `src` has executing passes the checks of R145 now: it is no waiting one, and of the given code. -/
def Ready (src : Source) (code : Nat) (j : Job) (s : State) : Prop :=
  s.jobOf src = some j ∧ j.code = code ∧ j.waiting = false ∧ s.check src j.role j.code j.payload = 0

/-- A firmware command is carried out: its effect leads from `s` to `u`, its response is `OK` with the words, and all that
follows follows. -/
def Replies (c : Instr) (src : Source) (s : State) (ws : List Word) (u : State) : Prop :=
  exec c s = .next (u.respond src 0 ws).settle

/-- A firmware command has started, which leads from `s` to `u`, and waits for the drive before it is answered (R143). -/
def Waits (c : Instr) (src : Source) (s u : State) : Prop := exec c s = .next (u.wait src).settle

/-- A firmware command is refused with a status, without its effect (R142). -/
def Refuses (c : Instr) (src : Source) (j : Job) (status : Nat) (s : State) : Prop :=
  exec c s = .next (s.deny src j status).settle

/-- A packet of a kind is accepted by a region now (R30, R35, R38): the link is trained and the region up, the packet is no
longer than 64 bytes, its CRC holds, and it is the next of the sequence or outside it. -/
def Arrives (r : Region) (k : PktKind) (p : Packet) (s : State) : Prop :=
  s.boot.peelTrained = true ∧ s.endUp r = true ∧ p.payload.length ≤ 64 ∧ p.crc = crc16 (pktBody p) ∧ p.clsTyp = k.head
    ∧ (pktSequenced p = true → p.seq.toNat = (s.peel r).expect)

/-- The link level of an accepted packet: acknowledgements, sequence, latency; what the packet itself does comes after it. -/
def Machine.State.linked (s : State) (r : Region) (k : PktKind) (p : Packet) : State := (s.peelRx r k p).2

end Sys2Proof
end

