-- ==== Sys2Proof/Certificates/Slice0/Obligations.lean ====
section
/-! DEFINITION. The statements for the provers, family by family of the command table. -/

section

open Sys2Proof Sys2Proof.Machine

/-! ## Chapters 2 and 3: resets and boot -/

/-- The ways into a reset (R65, R87, R88, R101, R108, R109). That `RESET_N` in commanded standby sets bit 6 of `RESET_CAUSE` alone is the
model's reading (assumption 149), and so is that a wake out of a VIN-loss standby sets none (assumption 155).
Completes, by a clause of its own for each: `powerOn`, `externalReset`, `watchdogReset`, `vinHoldupEnd`, `wakeAlarmCompare`. -/
def Obligations.ResetsReturnToDefaults : Prop :=
(∀ (vin vioG vioH vbat : Int) (s : State), s.power.inRange = false → 9500 < vin → vin < 33000 → 3000 < vioG → vioG < 5700 →
    3000 < vioH → vioH < 3700 → s.boot.holdup = false → s.boot.stage ≠ .inReset →
    (∃ t : State, exec (.powerOn vin vioG vioH vbat) s = .next t ∧ ResetDone 1 (s.wr Obj.tempPeak 0) t ∧ t.power.vin = vin ∧ t.power.vioG = vioG
      ∧ t.power.vioH = vioH ∧ t.power.vbat = vbat ∧ t.power.vioGClass = vioClass vioG ∧ t.boot.classDue = true))
  ∧ (∀ (vin vioG vioH vbat : Int) (s : State), s.power.inRange = false → 9500 < vin → vin < 33000 → 3000 < vioG → vioG < 5700 →
    3000 < vioH → vioH < 3700 → s.boot.holdup = false → s.boot.stage = .inReset →
    (∃ t : State, exec (.powerOn vin vioG vioH vbat) s = .next t ∧ t.rdBit Obj.resetCause 0 = true ∧ t.rd Obj.tempPeak = 0
      ∧ ObjsKept [Obj.resetCause, Obj.tempPeak] s t ∧ t.boot = { s.boot with t0 := s.time.now, classDue := true }
      ∧ t.power = { s.power.withSupplies vin vioG vioH vbat with peakOk := false, vioGClass := vioClass vioG }
      ∧ { t with power := s.power, boot := s.boot, objs := s.objs } = s))
  ∧ (∀ (vin vioG vioH vbat : Int) (s : State), s.boot.holdup = true →
    exec (.powerOn vin vioG vioH vbat) s = .next (s.modPower (fun p => p.withSupplies vin vioG vioH vbat)))
  ∧ (∀ (lowNs : Nat) (s : State), s.boot.holdup = true → exec (.externalReset lowNs) s = .next s)
  ∧ (∀ (lowNs : Nat) (s : State), 10000 ≤ lowNs → s.boot.holdup = false → s.boot.stage ≠ .off ∨ (9500 < s.power.vin ∧ s.power.vin < 33000) →
    (∃ t' : State, exec (.externalReset lowNs) s = .next t' ∧ ResetDone (if s.boot.slept then 64 else 2) s t'))
  ∧ (∀ (lowNs : Nat) (s : State), lowNs < 1000 → exec (.externalReset lowNs) s = .next s)
  ∧ (∀ s : State, s.boot.holdup = true → exec .watchdogReset s = .next s)
  ∧ (∀ s : State, s.boot.wdtHit = true ∨ s.boot.mgtHit = true → s.boot.holdup = false →
    (∃ t : State, exec .watchdogReset s = .next t ∧ t.time.now = max s.time.now (s.boot.hitT + 5 * msCycles)
      ∧ ResetDone ((if s.boot.wdtHit then 8 else 0) + (if s.boot.mgtHit then 128 else 0)) (s.atT (s.boot.hitT + 5 * msCycles)) t))
  ∧ (∀ (vin : Int) (s : State), s.boot.holdup = true → 9500 < vin → vin < 33000 →
    (∃ t : State, exec (.vinHoldupEnd vin) s = .next t ∧ ResetDone 4 s t ∧ t.power.vin = vin ∧ t.power.vioGClass = vioClass s.power.vioG
      ∧ t.boot.classDue = true))
  ∧ (∀ s : State, s.boot.stage = .off → s.power.standbyLost = false → s.rd Obj.wakeAlarmS ≠ 0 → 9500 < s.power.vin →
    s.power.vin < 33000 → s.rdN Obj.wakeAlarmS = (s.time.counter + 1).floor.toNat % 2 ^ 32 →
    (∃ t : State, exec .wakeAlarmCompare s = .next t ∧ ResetDone (if s.boot.slept then 64 else 0) (s.wr Obj.wakeAlarmS 0) t
      ∧ t.time.counter = s.time.counter + 1))
  ∧ (∀ s : State, s.boot.stage = .off → s.power.standbyLost = false →
    (s.rd Obj.wakeAlarmS = 0 ∨ s.rdN Obj.wakeAlarmS ≠ (s.time.counter + 1).floor.toNat % 2 ^ 32) →
    exec .wakeAlarmCompare s = .next (s.modTime (fun t => { t with counter := t.counter + 1 })))

/-- The boot sequence of R90 up to a running Askard, in its order: the release of reset, which judges the class of VIO_G where it was
detected again (R61, R66), the switches (R92), secure boot (R94), Askard, the clocks (R91), Peel, or its timeout 50 ms after
Askard's start (R95).
Completes, by a clause of its own for each: `resetEnd`, `swResetRead`, `secureBoot`, `askardStart`, `pllLock`, `peelTrainingComplete`,
`peelTrainTimeout`. -/
def Obligations.BootStepsInOrder : Prop :=
(∀ (s : State) (c : Nat), s.boot.stage = .inReset → s.power.inRange = true →
    c = (if s.boot.classDue then vioClass s.power.vioG else s.power.vioGClass) →
    (c ≠ 2 → exec .resetEnd s = .next ((s.modBoot (fun b => { b with stage := .released, classDue := false })).modPower (fun p => {
      PowerSt.pwrgood { p with vioGClass := c } true with resetLow := false })))
    ∧ (c = 2 → (∃ t' : State, exec .resetEnd s = .next t' ∧ Quiet ((s.modBoot (fun b => { b with
        stage := .released, classDue := false, vioGBad := true, resetOnly := true })).modPower (fun p => { PowerSt.pwrgood { p with vioGClass := c } true with resetLow := false })) t' ∧ (((s.modBoot (fun b => { b with
        stage := .released, classDue := false, vioGBad := true, resetOnly := true })).modPower (fun p => { PowerSt.pwrgood { p with vioGClass := c } true with resetLow := false })).raisable 0xE009 0 = true → (((s.modBoot (fun b => { b with
        stage := .released, classDue := false, vioGBad := true, resetOnly := true })).modPower (fun p => { PowerSt.pwrgood { p with vioGClass := c } true with resetLow := false })).classOf 0xE009).1 ≠ .c0 → t'.isPending 0xE009 0 = true))))
  ∧ (∀ (p1 p2 : BitVec 12) (s : State), s.boot.stage = .released →
    (∃ t : State, exec (.swResetRead p1 p2) s = .next t
        ∧ Quiet ((s.modBoot (fun b => { b with stage := .switchesRead, resetOnly := b.resetOnly || decide (p1 ^^^ p2 ≠ 0) })).modPower
        (fun p => { p with swReset := p2, swNow := p2, swDiscrep := p1 ^^^ p2, swAgreed := ~~~ (p1 ^^^ p2),
                           swDisRun := List.replicate 12 0 })) t
                               ∧ ∀ i < 12, p1.getLsbD i ≠ p2.getLsbD i → (s.classOf 0xE401).1 ≠ .c0 → t.isPending 0xE401 (mkInst i 0) = true))
  ∧ (∀ (a b : Bool) (s : State), s.boot.stage = .switchesRead →
    (if s.sec.preferB then s.slotBoots s.sec.slotB b else s.slotBoots s.sec.slotA a) = true →
    exec (.secureBoot true a b) s = .next ((((s.modBoot (fun x => { x with stage := .secured, second := false })).modSec
      (fun x => { x with runB := s.sec.preferB })).wr Obj.bootErr 0).auditEvent 0x0012 9 0xFF 0 0 (if s.sec.preferB then 1 else 0)))
  ∧ (∀ (k a b : Bool) (s : State), s.boot.stage = .switchesRead → (k = false ∨ (a = false ∧ b = false)) →
    exec (.secureBoot k a b) s = .next ((s.modBoot (fun x => { x with stage := .noImage })).wr Obj.bootErr 3))
  ∧ (∀ s : State, s.boot.stage = .secured → s.power.standbyLost = false →
    (∃ t : State, exec .askardStart s = .next t ∧ t.boot = { s.boot with stage := .askard, askardT := s.time.now }
      ∧ t.power = { s.power with coverFlash := s.rdN Obj.coverCount, coverLastFlash := s.rdN Obj.coverLast, missDue := false }
      ∧ t.time = { s.time with station := if s.rd Obj.timeValid = 1 then ((s.time.counter * 32768).floor : Rat) / 32768 * 1000000000 else 0 }
      ∧ t.rd Obj.wakeAlarmS = (if s.power.missDue then 0 else s.rd Obj.wakeAlarmS) ∧ ObjsKept [Obj.wakeAlarmS] s t
      ∧ { t with boot := s.boot, power := s.power, time := s.time, objs := s.objs } = s))
  ∧ (∀ s : State, s.boot.stage = .askard → s.boot.pllLocked = false →
    exec .pllLock s = .next (((s.modBoot (fun b => { b with pllLocked := true })).modPower (fun p => { p with
      refT := s.time.now, refLostT := Six.all none })).modTime (fun t => { t with units := t.units.map (fun _ => 0) })))
  ∧ (∀ s : State, s.boot.pllLocked = true → s.boot.peelTrained = false →
    (∃ t' : State, exec .peelTrainingComplete s = .next t' ∧ Quiet (s.modBoot (fun b => { b with peelTrained := true })) t'))
  ∧ (∀ s : State, s.boot.stage = .askard → s.boot.peelTrained = false →
    (∃ t' : State, exec .peelTrainTimeout s = .next t'
        ∧ Quiet ((((s.atT (s.boot.askardT + 50 * msCycles))).modBoot (fun b => { b with resetOnly := true })).wr
      Obj.bootErr 5) t' ∧ (((((s.atT (s.boot.askardT + 50 * msCycles))).modBoot (fun b => { b with resetOnly := true })).wr
      Obj.bootErr 5).raisable 0x9802 1 = true → (((((s.atT (s.boot.askardT + 50 * msCycles))).modBoot (fun b => { b with resetOnly := true })).wr
      Obj.bootErr 5).classOf 0x9802).1 ≠ .c0 → t'.isPending 0x9802 1 = true)))

/-- The configuration load, the set-up of the PHYs after it, and the two checks of the safety parameters (R97, R396, R399, R401, R411,
R413, R494). The values written over MDIO are the model's presumption (assumption 193).
Completes, by a clause of its own for each: `configEntry`, `configImageApplied`, `safetyBindingCheck`, `safetyParamReadback`. -/
def Obligations.ConfigurationLoads : Prop :=
(∀ s : State, s.boot.stage = .askard → s.boot.loading = false → s.mode = .boot → s.sec.image ≠ none →
    exec .configEntry s = .next (((s.setMode .config).modBoot (fun b => { b with loading := true })).raiseRollback.ownAddress).settle)
  ∧ (∀ s : State, s.boot.stage = .askard → s.boot.loading = false → s.mode = .boot → s.sec.image = none →
    exec .configEntry s = .next
      ((((s.setMode .config).modBoot (fun b => { b with loading := true })).raiseRollback.ownAddress).phySetup).settle)
  ∧ (∀ s : State, ∀ p : Fin 2, s.phySetup.net.mdio.filter (fun o => o.port == p.val) =
    [{ port := p.val, phy := s.rdN (if p.val = 0 then Obj.phyAddr0 else Obj.phyAddr1), reg := 0, value := 0x1200, write := true },
     { port := p.val, phy := s.rdN (if p.val = 0 then Obj.phyAddr0 else Obj.phyAddr1), reg := 4, value := 0x0101, write := true }])
  ∧ (∀ s : State, s.boot.stage = .askard → s.boot.loading = false →
    (∃ t : State, exec .configEntry s = .next t ∧ t.boot.loading = true
      ∧ t.sec.rollback = (if s.sec.rollback < s.runSlot.svn ∧ s.runSlot.svn ≤ 64 then s.runSlot.svn else s.sec.rollback)
      ∧ (s.rd Obj.ipMode ≠ 0 → t.net.ipNow = s.rdN Obj.ipAddr ∧ t.net.fallback = false)))
  ∧ (∀ (img : ConfigImage) (s : State), s.sec.image = some img → s.boot.stage = .askard → s.boot.loading = true →
    s.boot.imageDone = false →
    (∃ t : State, exec .configImageApplied s = .next t ∧ Quiet ((((s.writeAll (.mb 0) (img.writes.map (fun w => (w.addrWord, w.vals)))).wrs
      [(Obj.configCrc, img.crc), (Obj.cfgVersion, img.version)]).ownAddress.phySetup).modBoot (fun b => { b with
        imageDone := true, auto := true })) t ∧ t.boot.imageDone = true ∧ t.rd Obj.configCrc = img.crc ∧ t.rd Obj.cfgVersion = img.version))
  ∧ (∀ s : State, s.boot.stage = .askard → s.boot.loading = true → s.boot.bindDone = false →
    (s.safety.sets.get s.setSel).state = 2 →
    (s.safety.sets.get s.setSel).bind = (s.bindingCrc (s.safety.sets.get s.setSel).image s.setSel.val).toNat →
    (∃ t : State, exec .safetyBindingCheck s = .next t ∧ t.boot.bindDone = true ∧ t.boot.bindRes = 0 ∧ t.safety.governs = some s.setSel))
  ∧ (∀ s : State, s.boot.stage = .askard → s.boot.loading = true → s.boot.bindDone = false →
    ((s.safety.sets.get s.setSel).state ≠ 2
      ∨ (s.safety.sets.get s.setSel).bind ≠ (s.bindingCrc (s.safety.sets.get s.setSel).image s.setSel.val).toNat) →
    (∃ t : State, exec .safetyBindingCheck s = .next t ∧ t.boot.bindDone = true
      ∧ t.boot.bindRes = (if (s.safety.sets.get s.setSel).state ≠ 2 then 1 else 2) ∧ t.safety.governs = s.safety.governs))
  ∧ (∀ (crc : Word) (n : Fin 4) (s : State), s.safety.governs = some n → s.boot.peelTrained = true → s.boot.readDone = false →
    (∃ t' : State, exec (.safetyParamReadback crc) s = .next t' ∧ Quiet (s.modBoot (fun b => { b with
      readDone := true, readOk := decide (crc = crc32 (slice (s.safety.sets.get n).image 16 32)) })) t'))

/-! ## Chapters 2 and 3: references and clocks -/

/-- The references of the converters and the CK_ADC monitor (R102, R104, R105): readiness comes no earlier than 2 ms after the
enable or a loss, and none comes after the 5 ms of R104 have passed without it.
The clock monitors, the watchdog and the standby clock (R28, R29, R100, R101, R103, R111).
Completes, by a clause of its own for each: `refReadySet`, `refSettleTimeout`, `refLost`, `ckAdcFault`, `ckAdcRecovered`, `ckCtlLoss`,
`ckSafeStop`, `ckSafeDeviation`, `ckMgtDeviation`, `watchdogExpiry`, `standbyClockFault`, `standbyClockRecovered`, `timeCounterReload`. -/
def Obligations.ReferencesAndClocks : Prop :=
  (∀ (k : Fin 6) (s : State), s.boot.pllLocked = true → s.hasConv k.val = true → s.power.ckAdcBad = false →
    (s.power.refFailed.get k = false →
      (∃ t' : State, exec (.refReadySet k) s = .next t'
          ∧ Quiet ((s.atT (max s.power.refT ((s.power.refLostT.get k).getD 0) + 2 * msCycles)).modPower (fun p => { p with refReady := p.refReady.set k true })) t'))
    ∧ (s.power.refFailed.get k = true → exec (.refReadySet k) s = .next s))
  ∧ (∀ (k : Fin 6) (s : State), s.boot.pllLocked = true → s.hasConv k.val = true → s.power.refReady.get k = false →
    s.power.refLostT.get k = none → (∃ t' : State, exec (.refSettleTimeout k) s = .next t'
        ∧ Quiet ((s.atT (s.power.refT + 5 * msCycles)).modPower (fun p => { p with
      refFailed := p.refFailed.set k true })) t' ∧ (((s.atT (s.power.refT + 5 * msCycles)).modPower (fun p => { p with
      refFailed := p.refFailed.set k true })).raisable 0x4401 (mkInst k.val 0) = true → (((s.atT (s.power.refT + 5 * msCycles)).modPower (fun p => { p with
      refFailed := p.refFailed.set k true })).classOf 0x4401).1 ≠ .c0 → t'.isPending 0x4401 (mkInst k.val 0) = true)))
  ∧ (∀ (k : Fin 6) (s : State), s.boot.pllLocked = true → s.hasConv k.val = true → s.power.refReady.get k = true →
    (∃ t' : State, exec (.refLost k) s = .next t' ∧ Quiet ((s.modPower (fun p => { p with
      refReady := p.refReady.set k false, refLostT := p.refLostT.set k (some s.time.now) })).modConv k
      (fun c => { c with mmConv := false })) t' ∧ (((s.modPower (fun p => { p with
      refReady := p.refReady.set k false, refLostT := p.refLostT.set k (some s.time.now) })).modConv k
      (fun c => { c with mmConv := false })).raisable 0x4402 (mkInst k.val 0) = true → (((s.modPower (fun p => { p with
      refReady := p.refReady.set k false, refLostT := p.refLostT.set k (some s.time.now) })).modConv k
      (fun c => { c with mmConv := false })).classOf 0x4402).1 ≠ .c0 → t'.isPending 0x4402 (mkInst k.val 0) = true)))
  ∧ (∀ s : State, s.boot.pllLocked = true → s.power.ckAdcBad = false ∨ s.power.ckAdcBack = true →
    (∃ t' : State, exec .ckAdcFault s = .next t' ∧ Quiet (forAll units6 (fun k x => x.modConv k (fun c => { c with mmConv := false }))
      (s.modPower (fun p => { p with ckAdcBad := true, ckAdcBack := false, refReady := Six.all false }))) t'
          ∧ ((forAll units6 (fun k x => x.modConv k (fun c => { c with mmConv := false }))
      (s.modPower (fun p => { p with ckAdcBad := true, ckAdcBack := false, refReady := Six.all false }))).raisable 0x9C03 0 = true → ((forAll units6 (fun k x => x.modConv k (fun c => { c with mmConv := false }))
      (s.modPower (fun p => { p with ckAdcBad := true, ckAdcBack := false, refReady := Six.all false }))).classOf 0x9C03).1 ≠ .c0 → t'.isPending 0x9C03 0 = true)))
  ∧ (∀ s : State, s.power.ckAdcBad = true →
    exec .ckAdcRecovered s = .next (s.modPower (fun p => { p with ckAdcBack := true, refT := s.time.now, refLostT := Six.all none })))
  ∧ (∀ s : State, s.boot.pllLocked = true → s.power.ckCtlBad = false →
    (∃ t : State, exec .ckCtlLoss s = .next t
        ∧ Quiet ((((s.modPower (fun p => { p with ckCtlBad := true })).modBoot (fun b => { b with resetOnly := true })).wrBit
      Obj.haltCause 2 true).crustTrip 15) t ∧ t.rdBit Obj.haltCause 2 = true
        ∧ (∀ n ∈ s.loaves, t.rdBit (Obj.tripLatch n.val) 15 = true) ∧ ((s.classOf 0x9C01).1 ≠ .c0 → t.isPending 0x9C01 0 = true)))
  ∧ (∀ s : State, s.boot.pllLocked = true →
    (∃ t : State, exec .ckSafeStop s = .next t
        ∧ Quiet ((s.modPower (fun p => { p with ckSafeBad := true, ckSafeStop := true })).modBoot (fun b => { b with
      resetOnly := true })) t ∧ ((s.classOf 0x9C02).1 ≠ .c0 → t.isPending 0x9C02 0 = true)
        ∧ (s.isPending 0x9C02 0 = false → t.safety.genC = false ∧ AllOff t)))
  ∧ (∀ (hz : Nat) (s : State), s.boot.pllLocked = true → 15200000 ≤ hz → hz ≤ 16800000 →
    exec (.ckSafeDeviation hz) s = .next ((s.wr Obj.ckSafeHz hz).modPower (fun p => { p with ckSafeBad := false })))
  ∧ (∀ (hz : Nat) (s : State), s.boot.pllLocked = true → hz < 15200000 ∨ 16800000 < hz → s.power.ckSafeBad = false →
    (∃ t' : State, exec (.ckSafeDeviation hz) s = .next t' ∧ Quiet ((s.wr Obj.ckSafeHz hz).modPower (fun p => { p with ckSafeBad := true })) t'
        ∧ (((s.wr Obj.ckSafeHz hz).modPower (fun p => { p with ckSafeBad := true })).raisable 0x9C02 0 = true → (((s.wr Obj.ckSafeHz hz).modPower (fun p => { p with ckSafeBad := true })).classOf 0x9C02).1 ≠ .c0 → t'.isPending 0x9C02 0 = true)))
  ∧ (∀ s : State, s.boot.stage ≠ .off → s.boot.stage ≠ .inReset → s.boot.mgtHit = false →
    (∃ t : State, exec .ckMgtDeviation s = .next t
        ∧ Quiet ((s.modPower (fun p => { p with ckMgtBad := true, resetLow := true })).modBoot (fun b => { b with
      mgtHit := true, resetOnly := true, hitT := if b.wdtHit then b.hitT else s.time.now })) t ∧ t.power.resetLow = true
          ∧ (0x9C04, 1, 0) ∈ t.flt.mRep ∧ t.safety.genM = false ∧ AllOff t))
  ∧ (∀ s : State, s.boot.stage = .askard → s.boot.wdtHit = false → s.rd Obj.wdtCount < 0xFFFFFFFF →
    (∃ t : State, exec .watchdogExpiry s = .next t
        ∧ Quiet (((s.wr Obj.wdtCount (s.rd Obj.wdtCount + 1)).modPower (fun p => { p with resetLow := true })).modBoot
      (fun b => { b with wdtHit := true, resetOnly := true, hitT := if b.mgtHit then b.hitT else s.time.now })) t ∧ t.power.resetLow = true
          ∧ (0x9C04, 1, 0) ∈ t.flt.mRep ∧ t.safety.genM = false ∧ AllOff t))
  ∧ (∀ s : State, s.boot.stage ≠ .off → s.boot.stage ≠ .inReset → s.power.standbyClkBad = false ∨ s.isPending 0xDC01 0 = false →
    exec .standbyClockFault s = .next (((s.modPower (fun p => { p with standbyClkBad := true, standbyClkWait := false })).wr
      Obj.timeValid 0).reportM 0xDC01 0 0))
  ∧ (∀ s : State, s.power.standbyClkBad = true →
    exec .standbyClockRecovered s = .next (s.modPower (fun p => { p with standbyClkBad := false, standbyClkWait := true })))
  ∧ (∀ s : State, s.boot.stage = .askard → s.time.lv0.st = .locked → (∀ t0, s.time.reloadT = some t0 → t0 + 60000 * msCycles ≤ s.time.now) →
    (∃ t : State, exec .timeCounterReload s = .next t ∧ t.time = { s.time with
        counter := s.time.station / 1000000000, reloadT := some s.time.now }
      ∧ t.rd Obj.timeValid = (if s.power.standbyClkBad then s.rd Obj.timeValid else 1) ∧ ObjsKept [Obj.timeValid] s t
      ∧ t.power.standbyClkBad = s.power.standbyClkBad ∧ (s.power.standbyClkBad = false → t.power.standbyClkWait = false)))
  ∧ (∀ (s : State) (t0 : Nat), s.time.reloadT = some t0 → s.time.now < t0 + 60000 * msCycles → exec .timeCounterReload s = .next s)

/-! ## Chapters 2 and 3: supplies, temperatures, switches, cover, TAPs -/

/-- The supply monitors and the hold-up (R64 to R66, R77, R106, R111): what region M finds of its own travels in a `FAULT` packet
(R365; which monitors are region M's is the model's choice, assumption 101).
Switches, cover, boundary scan and the debug port (R73, R74, R81 to R84, R111, R501).
Completes, by a clause of its own for each: `vinUnder`, `supplyMonitorFault`, `supplyMonitorClear`, `tempMonitor`, `standbySupplyLoss`,
`switchPoll`, `coverSample`, `tapInstructionLoad`, `tapRelock`. -/
def Obligations.SuppliesAndInputs : Prop :=
  (∀ (mv : Int) (s : State), mv < 9000 → s.boot.stage ≠ .off → s.boot.stage ≠ .inReset → s.boot.holdup = false →
    (∃ t : State, exec (.vinUnder mv) s = .next t ∧ t.power.vin = mv ∧ t.power.vinUnderNow = true ∧ t.power.pwrgoodLow = true
      ∧ t.power.resetLow = true ∧ t.boot.holdup = true ∧ t.rdBit Obj.supplyFlags 0 = true
      ∧ ((s.classOf 0xE001).1 ≠ .c0 → t.isPending 0xE001 0 = true)
      ∧ t.flt.evtQ = [] ∧ t.flt.nvQ = [] ∧ t.sec.auditQ = []))
  ∧ (∀ (mv : Int) (s : State), 9000 ≤ mv → exec (.vinUnder mv) s = .next (s.modPower (fun p => { p with vin := mv })))
  ∧ (∀ (mv : Int) (s : State), mv < 9000 → s.boot.stage = .off →
    (∃ t : State, exec (.vinUnder mv) s = .next t ∧ t.rd Obj.standbyReason = 1 ∧ t.rd Obj.vinLossS = s.time.counter.floor.toNat % 2 ^ 32
      ∧ t.boot = { s.boot with slept := false } ∧ t.power.vin = mv ∧ ObjsKept [Obj.standbyReason, Obj.vinLossS] s t))
  ∧ (∀ (m : Monitor) (v : Int) (s : State), s.boot.stage ≠ .off → s.boot.stage ≠ .inReset →
    monBeyond m s.power.vioGClass v = true → m ∉ s.power.asserted →
    (∃ t : State, exec (.supplyMonitorFault m v) s = .next t
        ∧ Quiet (((s.modPower (fun p => ({ p.measured m v with asserted := m :: p.asserted }).pwrgood true))).wrBit Obj.supplyFlags (monBit m) true) t ∧ t.rdBit Obj.supplyFlags (monBit m) = true ∧ (m ≠ .vbatLow → t.power.pwrgoodLow = true)
        ∧ (m = .coreRail .m ∨ m = .vbatLow → ((monCode m).1, (monCode m).2, v) ∈ t.flt.mRep)
        ∧ (m ≠ .coreRail .m → m ≠ .vbatLow → (s.classOf (monCode m).1).1 ≠ .c0 → t.isPending (monCode m).1 (monCode m).2 = true)))
  ∧ (∀ (m : Monitor) (v : Int) (s : State), s.boot.stage ≠ .off → s.boot.stage ≠ .inReset →
    m ∈ s.power.asserted → monInside m s.power.vioGClass v = true →
    exec (.supplyMonitorClear m v) s = .next (s.modPower (fun p => ({ p.measured m v with
      asserted := p.asserted.filter (fun x => decide (x ≠ m)) }).pwrgood true)))
  ∧ (∀ p : PowerSt, p.vinUnderNow = false → (∀ m ∈ p.asserted, m = .vbatLow) →
    (p.allInside = true → (p.pwrgood true).pwrgoodLow = false) ∧ (p.allInside = false → (p.pwrgood true).pwrgoodLow = p.pwrgoodLow))
  ∧ (∀ (v : Int) (s : State), s.boot.pllLocked = true → -32768 ≤ v → v ≤ 32767 →
    (∃ t : State, exec (.tempMonitor .c v) s = .next t
        ∧ Quiet ((s.wrs [(Obj.tempC, v), (Obj.tempPeak, if s.power.peakOk then max (s.rd Obj.tempPeak) v else v)]).modPower
        (fun p => { p with hotC := hotLevel p.hotC v, peakOk := true })) t ∧ t.rd Obj.tempC = v
        ∧ (s.power.hotC = 0 → 1200 < v → (s.classOf 0xA002).1 ≠ .c0 → t.isPending 0xA002 0 = true)
        ∧ (s.power.hotC < 2 → 1350 < v → (s.classOf 0xA003).1 ≠ .c0 → t.isPending 0xA003 0 = true)))
  ∧ (∀ (v : Int) (s : State), s.boot.stage ≠ .off → s.boot.stage ≠ .inReset → -32768 ≤ v → v ≤ 32767 →
    (∃ t : State, exec (.tempMonitor .m v) s = .next t
        ∧ Quiet ((s.wrs [(Obj.tempM, v), (Obj.tempPeak, if s.power.peakOk then max (s.rd Obj.tempPeak) v else v)]).modPower
        (fun p => { p with hotM := hotLevel p.hotM v, peakOk := true })) t ∧ t.rd Obj.tempM = v
        ∧ (s.power.hotM = 0 → 1200 < v → (0xA002, 1, v) ∈ t.flt.mRep)
        ∧ (s.power.hotM < 2 → 1350 < v → (0xA003, 1, v) ∈ t.flt.mRep)))
  ∧ (∀ s : State, s.boot.stage = .off → ¬ (9500 < s.power.vin ∧ s.power.vin < 33000) →
    exec .standbySupplyLoss s = .next (s.modPower (fun p => { p with standbyLost := true })))
  ∧ (∀ (p1 p2 : BitVec 12) (s : State), s.boot.stage = .askard →
    (∃ t : State, exec (.switchPoll p1 p2) s = .next t ∧ ∀ i < 12,
      t.power.swDiscrep.getLsbD i = (p1.getLsbD i != p2.getLsbD i)
      ∧ (p1.getLsbD i = p2.getLsbD i → t.power.swNow.getLsbD i = p1.getLsbD i ∧ t.power.swAgreed.getLsbD i = true)
      ∧ (p1.getLsbD i ≠ p2.getLsbD i → s.power.swAgreed.getLsbD i = true → t.power.swNow.getLsbD i = s.power.swNow.getLsbD i)
      ∧ t.power.swReset = s.power.swReset ∧ t.objs = s.objs ∧ t.mode = s.mode))
  ∧ (∀ s : State, s.power.standbyLost = false ∨ (9500 < s.power.vin ∧ s.power.vin < 33000) → s.power.coverOpen = false →
    (∃ t : State, exec (.coverSample true) s = .next t ∧ t.power.coverOpen = true ∧ t.safety.coverSince = true
      ∧ t.rd Obj.coverCount = min (s.rd Obj.coverCount + 1) 65535 ∧ t.rd Obj.coverLast = s.time.counter.floor.toNat % 2 ^ 32
      ∧ ∀ a, a ≠ Obj.coverCount → a ≠ Obj.coverLast → t.rd a = s.rd a))
  ∧ (∀ s : State, s.power.standbyLost = false ∨ (9500 < s.power.vin ∧ s.power.vin < 33000) →
    exec (.coverSample false) s = .next (s.modPower (fun p => { p with coverOpen := false })))
  ∧ (∀ (ins : TapIns) (s : State), s.sec.unlocked = true → ins = .bypass ∨ ins = .idcode ∨ ins = .samplePreload →
    exec (.tapInstructionLoad .c ins) s = .next { s with tapC := { ins := ins, upd := s.tapC.upd } }
    ∧ exec (.tapInstructionLoad .m ins) s = .next { s with tapM := { ins := ins, upd := s.tapM.upd } })
  ∧ (∀ (r : Region) (ins : TapIns) (s : State), s.sec.unlocked = true → ins = .extest ∨ ins = .clamp ∨ ins = .highz →
    (∃ t : State, exec (.tapInstructionLoad r ins) s = .next t ∧ t.safety.tapHold = true ∧ t.boot.resetOnly = true ∧ AllOff t
      ∧ t.safety.genC = false ∧ t.safety.genM = false ∧ (match r with | .c => t.tapC.ins = ins | .m => t.tapM.ins = ins)
      ∧ ((s.classOf 0xF001).1 ≠ .c0 → t.isPending 0xF001 0 = true)))
  ∧ (∀ s : State, s.sec.unlocked = true → s.serviceOpen = false →
    (∃ t' : State, exec .tapRelock s = .next t' ∧ Quiet (({ s with tapM := {}, tapC := {}, haltC := false, haltM := false }.modSec (fun x => { x with
      unlocked := false })).auditEvent 0x0050 8 0xFF 0 0 0) t'))

/-! ## Chapter 4: the host port -/

/-- Frames (R117 to R124, R128): an accepted write frame writes its words in order, an accepted read frame returns the status
word, two dummy bytes, the data and their CRC (nothing where bank H cannot drive or boundary scan holds the pad, R61, R81), and a discarded frame writes nothing, is counted by its result and sets
`FRAME_ERR`.
Completes, by a clause of its own for each: `hostWriteFrame`, `hostReadFrame`. -/
def Obligations.HostFrames : Prop :=
(∀ (bytes : List Byte) (bits gapNs : Nat) (s : State), s.resetOver = true → 1000 ≤ gapNs → frOp bytes = 0x02 →
    frAddr bytes % 4 = 0 → 1 ≤ frCount bytes → frCount bytes ≤ 64 → 8 * (4 * frCount bytes + 5) ≤ bits →
    bytes.getD (4 + 4 * frCount bytes) 0 = crc8 (slice bytes 0 (4 + 4 * frCount bytes)) →
    (∃ t' : State, exec (.hostWriteFrame bytes bits gapNs) s = .next t' ∧ Quiet (State.windowWrites (frAddr bytes) (frWords bytes)
      (s.modHost (fun h => { h with
        miso := if s.misoDrives = true then (s.statusWord ++ List.replicate (4 * frCount bytes + 1) 0).take ((bits + 7) / 8) else []
        lastResult := 0
        frameCnt := (h.frameCnt + 1) % 65536 }))) t'))
  ∧ (∀ (bytes : List Byte) (bits gapNs : Nat) (s : State), s.resetOver = true → 1000 ≤ gapNs → frOp bytes = 0x0B →
    frAddr bytes % 4 = 0 → 1 ≤ frCount bytes → frCount bytes ≤ 64 → 8 * (4 * frCount bytes + 7) ≤ bits →
    bytes.getD 4 0 = crc8 (slice bytes 0 4) →
    (∃ t : State, exec (.hostReadFrame bytes bits gapNs) s = .next t ∧ Quiet ((s.snapshot (frAddr bytes) (frCount bytes)).modHost (fun h => { h with
        miso := if s.misoDrives = true then
            (s.statusWord ++ [0, 0] ++ (s.snapshot (frAddr bytes) (frCount bytes)).frameData bytes ++ [crc8 (slice bytes 0 4
              ++ (s.snapshot (frAddr bytes) (frCount bytes)).frameData bytes)]).take ((bits + 7) / 8)
          else []
        lastResult := 0
        frameCnt := (h.frameCnt + 1) % 65536 })) t ∧ t.host.lastResult = 0))
  ∧ (∀ (bytes : List Byte) (bits gapNs : Nat) (s : State), s.resetOver = true → frameResult bytes bits gapNs ≠ 0 →
    ∀ c ∈ [Instr.hostWriteFrame bytes bits gapNs, Instr.hostReadFrame bytes bits gapNs],
    ∃ u : State, exec c s = .next u.settle ∧ u.host.lastResult = frameResult bytes bits gapNs
      ∧ u.host.frameCnt = (s.host.frameCnt + 1) % 65536 ∧ u.host.irqFlags.getLsbD 11 = true
      ∧ u.host.errCrc = (if frameResult bytes bits gapNs = 1 then min (s.host.errCrc + 1) 0xFFFF else s.host.errCrc)
      ∧ u.host.errCut = (if frameResult bytes bits gapNs = 2 then min (s.host.errCut + 1) 0xFFFF else s.host.errCut)
      ∧ u.host.errFmt = (if frameResult bytes bits gapNs = 3 then min (s.host.errFmt + 1) 0xFFFF else s.host.errFmt)
      ∧ u.host.errGap = (if frameResult bytes bits gapNs = 4 then min (s.host.errGap + 1) 0xFFFF else s.host.errGap)
      ∧ { s with host := u.host } = u ∧ u.host.irqEn = s.host.irqEn ∧ u.host.winIgnored = s.host.winIgnored)

/-- The result code of a frame (R123): the first check that fails, in the order gap, length of the header, format, length,
CRC. -/
def Obligations.FrameResultOrder : Prop :=
∀ (bytes : List Byte) (bits gapNs : Nat),
    (gapNs < 1000 → frameResult bytes bits gapNs = 4)
    ∧ (1000 ≤ gapNs → bits < 32 → frameResult bytes bits gapNs = 2)
    ∧ (1000 ≤ gapNs → 32 ≤ bits → frFormat bytes = false → frameResult bytes bits gapNs = 3)
    ∧ (1000 ≤ gapNs → 32 ≤ bits → frFormat bytes = true → bits < frBits bytes → frameResult bytes bits gapNs = 2)
    ∧ (1000 ≤ gapNs → frFormat bytes = true → frBits bytes ≤ bits → frCrcOk bytes = false → frameResult bytes bits gapNs = 1)
    ∧ (1000 ≤ gapNs → frFormat bytes = true → frBits bytes ≤ bits → frCrcOk bytes = true → frameResult bytes bits gapNs = 0)

/-- The doorbells (R133 to R135, R139): each bit acts on its own mailbox.
Completes, by a clause of its own for each: `dbIn`, `dbOut`. -/
def Obligations.Doorbells : Prop :=
(∀ (w : Word) (s : State), s.resetOver = true →
    (∃ t : State, exec (.dbIn w) s = .next t ∧ ∀ n : Fin 4,
      (w.getLsbD n.val = false → t.mb.get n = s.mb.get n ∧ t.host.mbErr.getLsbD n.val = s.host.mbErr.getLsbD n.val)
      ∧ (w.getLsbD n.val = true → (s.mb.get n).inBusy = false → t.mb.get n = { s.mb.get n with inBusy := true }
        ∧ t.host.irqFlags.getLsbD (4 + n.val) = false)
      ∧ (w.getLsbD n.val = true → (s.mb.get n).inBusy = true → t.mb.get n = s.mb.get n ∧ t.host.mbErr.getLsbD n.val = true
        ∧ t.host.irqFlags.getLsbD 12 = true ∧ (0xF402, mkInst n.val 0, 0) ∈ t.flt.mRep)
      ∧ t.objs = s.objs ∧ t.mode = s.mode ∧ t.loaf = s.loaf ∧ t.grp = s.grp ∧ t.safety = s.safety))
  ∧ (∀ (w : Word) (s : State), s.resetOver = true → s.boot.transition = none →
    (∃ t : State, exec (.dbOut w) s = .next t ∧ ∀ n : Fin 4,
      (w.getLsbD n.val = false ∨ (s.mb.get n).outFull = false → t.mb.get n = s.mb.get n)
      ∧ (w.getLsbD n.val = true → (s.mb.get n).outFull = true → (s.mb.get n).respWait = none →
        t.mb.get n = { s.mb.get n with outBuf := [], outFull := false } ∧ t.host.irqFlags.getLsbD n.val = false)
      ∧ (∀ ws, w.getLsbD n.val = true → (s.mb.get n).outFull = true → (s.mb.get n).respWait = some ws →
        t.mb.get n = { s.mb.get n with outBuf := ws, outFull := true, respWait := none }
        ∧ t.host.irqFlags.getLsbD n.val = true)
      ∧ t.objs = s.objs ∧ t.mode = s.mode ∧ t.loaf = s.loaf ∧ t.grp = s.grp ∧ t.safety = s.safety))

/-- The window's other registers (R127, R129 to R133, R368).
Completes, by a clause of its own for each: `tsCtrl`, `tsLatchComplete`, `hbHost`, `irqFlags`, `hostCntClr`, `windowRegisterWrite`. -/
def Obligations.WindowRegisters : Prop :=
(∀ s : State, s.resetOver = true → s.time.tsPending = none → ∃ v : Rat, s.time.station - 40 ≤ v ∧ v ≤ s.time.station + 40
    ∧ exec (.tsCtrl 1) s = .next ((s.modTime (fun t => { t with tsPending := some v, tsLock := decide (t.lv0.st = .locked) })).drew))
  ∧ (∀ s : State, s.resetOver = true → s.time.tsPending ≠ none →
    exec (.tsCtrl 1) s = .next (s.modHost (fun h => { h with winIgnored := min (h.winIgnored + 1) 0xFFFFFFFF })))
  ∧ (∀ (v : Rat) (s : State), s.time.tsPending = some v → 0 ≤ v →
    (∃ t : State, exec .tsLatchComplete s = .next t ∧ t.time = { s.time with tsPending := none }
      ∧ t.host.tsNs.toNat = v.floor.toNat % 1000000000
      ∧ t.host.tsSecLo.toNat = v.floor.toNat / 1000000000 % 2 ^ 32
      ∧ t.host.tsSecHi.toNat = v.floor.toNat / 1000000000 / 2 ^ 32 % 65536
      ∧ t.host.tsSeq = (s.host.tsSeq + 1) % 256 ∧ t.host.tsSubns.getLsbD 16 = s.time.tsLock ∧ t.host.tsSubns.toNat / 2 ^ 24 = (s.host.tsSeq + 1) % 256
      ∧ t.host.irqFlags.getLsbD 10 = true ∧ t.objs = s.objs ∧ t.mb = s.mb ∧ t.flt = s.flt))
  ∧ (∀ (w : Word) (s : State), s.resetOver = true → s.host.hbHost ≠ w → s.rdBit Obj.hbSrc 0 = true →
    exec (.hbHost w) s = .next ((s.modHost (fun h => { h with hbHost := w })).modFlt (fun f => { f with
      lastBeat := s.time.now, hbSaid := false, hbArmed := decide (s.rd Obj.hbTimeout ≠ 0) })))
  ∧ (∀ (w : Word) (s : State), s.resetOver = true →
    exec (.irqFlags w) s = .next (s.modHost (fun h => { h with irqFlags := h.irqFlags &&& ~~~ w })))
  ∧ (∀ s : State, s.resetOver = true →
    exec (.hostCntClr 1) s = .next (s.modHost (fun h => { h with
      errCrc := 0, errCut := 0, errFmt := 0, errGap := 0, winIgnored := 0, streamDrop := 0 })))
  ∧ (∀ (w : Word) (s : State), s.resetOver = true →
    exec (.windowRegisterWrite 0x034 w) s = .next (s.modHost (fun h => { h with irqEn := w &&& 0x7FFF })))
  ∧ (∀ (w : Word) (s : State), s.resetOver = true →
    exec (.windowRegisterWrite 0x07C w) s = .next (s.modHost (fun h => { h with mbErr := h.mbErr &&& ~~~ w })))
  ∧ (∀ (a : Nat) (w : Word) (s : State), s.resetOver = true → a % 4 = 0 →
    (a ∈ [0x000, 0x004, 0x008, 0x00C, 0x010, 0x014, 0x020, 0x024, 0x028, 0x038, 0x040, 0x054, 0x058, 0x05C, 0x060, 0x078, 0x080,
      0x084, 0x088, 0x08C, 0x090] ∨ 0x1000 ≤ a) →
    exec (.windowRegisterWrite a w) s = .next (s.modHost (fun h => { h with winIgnored := min (h.winIgnored + 1) 0xFFFFFFFF })))
  ∧ (∀ (n : Fin 4) (i : Fin 64) (w : Word) (s : State), s.resetOver = true → (s.mb.get n).inBusy = false →
    (∃ t : State, exec (.windowRegisterWrite (0x800 + 0x200 * n.val + 4 * i.val) w) s = .next t ∧ ∃ f : Mailbox → Mailbox, t = s.modMb n f
      ∧ (∀ j : Fin 64, (t.mb.get n).inBuf.getD j.val 0 = if j = i then w else (s.mb.get n).inBuf.getD j.val 0)
      ∧ (t.mb.get n).inBusy = false ∧ (t.mb.get n).outFull = (s.mb.get n).outFull ∧ (t.mb.get n).outBuf = (s.mb.get n).outBuf))

/-- Askard's millisecond (R86, R127, R385, R407): `HB_MODULE` counts, the flags of monitors whose condition persists set again,
the safety functions are evaluated, and time does not run back.
Completes, by a clause of its own for each: `hbModuleTick`. -/
def Obligations.ModuleHeartbeat : Prop :=
∀ (t : Nat) (s : State), s.askard = true →
    (∃ u : State, exec (.hbModuleTick t) s = .next u ∧ Watched (((s.atT t).modHost (fun h => { h with hbModule := h.hbModule + 1 })).supplyRefresh) u
      ∧ u.host.hbModule = s.host.hbModule + 1 ∧ u.time.now = max s.time.now t
      ∧ (∀ m ∈ s.power.asserted, u.rdBit Obj.supplyFlags (monBit m) = true)
      ∧ (s.power.vinUnderNow = true → u.rdBit Obj.supplyFlags 0 = true))

/-! ## Chapter 5: mailboxes -/

/-- Taking a command and putting deliveries out (R133, R138, R139, R145, R165, R178): `MB0` first, the other mailboxes and the
connections in rotation.
Completes, by a clause of its own for each: `mailboxTake`, `mb2DeliveryOut`. -/
def Obligations.MailboxService : Prop :=
(∀ (n : Fin 4) (s : State), s.askard = true → s.nextSource = some (.mb n) →
    ∃ u : State, exec .mailboxTake s = .next u.settle ∧ (u.mb.get n).inBusy = false ∧ u.host.irqFlags.getLsbD (4 + n.val) = true
      ∧ (s.rd Obj.cmdTaken < 0xFFFFFFFF → u.rd Obj.cmdTaken = s.rd Obj.cmdTaken + 1)
      ∧ (let w0 := (s.mb.get n).inBuf.getD 0 0
         let ws := (List.range (cmdLen w0)).map (fun i => ((List.range 63).map (fun i => (s.mb.get n).inBuf.getD (i + 1) 0)).getD i 0)
         (cmdLen w0 ≤ 63 → cmdCode w0 ∈ allCodes → s.check (.mb n) s.hostRole (cmdCode w0) ws = 0 →
           u.jobOf (.mb n) = some { code := cmdCode w0, tag := cmdTag w0, payload := ws, role := s.hostRole, waiting := false })
         ∧ (cmdLen w0 ≤ 63 → cmdCode w0 ∉ allCodes → (u.mb.get n).outBuf = [respWord 2 (cmdTag w0) 0])
         ∧ (63 < cmdLen w0 → (u.mb.get n).outBuf = [respWord 3 (cmdTag w0) 0])))
  ∧ (∀ s : State, s.takeable 0 = true → s.nextSource = some (.mb 0))
  ∧ (∀ (c : Fin 4) (w : Word) (rest : List Word) (more : List (List Word)) (s : State), s.askard = true →
    s.nextSource = some (.net c) → (s.net.conns.get c).queue = (w :: rest) :: more →
    exec .mailboxTake s = .next ((((s.modCmd (fun m => { m with rr := 4 + c.val })).modConn c (fun k => { k with
      queue := more })).takeCommand (.net c) w rest).settle))
  ∧ (∀ (src : Source) (s : State), s.takeable 0 = false → s.nextSource = some src → s.takeableSrc src = true
    ∧ ∀ x ∈ [Source.mb 1, .mb 2, .mb 3, .net 0, .net 1, .net 2, .net 3], s.takeableSrc x = true →
      (turnOf src + 6 - s.cmd.rr) % 7 ≤ (turnOf x + 6 - s.cmd.rr) % 7)
  ∧ (∀ (ws : List Word) (rest : List (List Word)) (s : State), s.cmd.mb2Queue = ws :: rest → s.askard = true →
    (s.mb.get 2).outFull = false → (s.mb.get 2).respWait = none → (s.mb.get 2).job = none →
    (∃ t : State, exec .mb2DeliveryOut s = .next t ∧ (t.mb.get 2).outBuf = ws ∧ (t.mb.get 2).outFull = true
      ∧ t.host.irqFlags.getLsbD 2 = true ∧ t.cmd.mb2Queue = rest
      ∧ (∀ n : Fin 4, n ≠ 2 → t.mb.get n = s.mb.get n) ∧ ∀ a, a ≠ Obj.subSent (pw ws 0 / 65536 % 8) → t.rd a = s.rd a))

/-- Module requests and their transitions (R97, R98, R528): a request that the present state allows asks for its transition,
which begins once the source's response is gone.
Completes, by a clause of its own for each: `moduleReqReady`, `moduleReqConfig`, `moduleReqStandby`, `moduleReqReset`, `transitionBegin`. -/
def Obligations.ModuleRequests : Prop :=
(∀ (src : Source) (s : State), s.askard = true → s.mode = .config → s.readyBlock = 0 →
    exec (.moduleReqReady src) s = .next ((s.setMode .ready).settle).settle)
  ∧ (∀ (src : Source) (s : State), s.askard = true → s.mode = .ready →
    exec (.moduleReqConfig src) s = .next (((s.modBoot (fun b => { b with auto := false })).setMode .config).settle).settle)
  ∧ (∀ (src : Source) (s : State), s.askard = true → s.mode = .config ∨ s.mode = .ready →
    (∃ t' : State, exec (.moduleReqStandby src) s = .next t'
        ∧ Quiet ((s.wr Obj.wakeMissed 0).modBoot (fun b => { b with transition := some (3, src) })) t'))
  ∧ (∀ (src : Source) (s : State), s.askard = true → s.mode = .config ∨ s.mode = .ready ∨ s.mode = .safe → s.modeM ≠ .operational →
    (∃ t' : State, exec (.moduleReqReset src) s = .next t' ∧ Quiet (s.modBoot (fun b => { b with transition := some (4, src) })) t'))
  ∧ (∀ (src : Source) (t0 : Nat) (s : State), s.boot.transition = some (4, src) → s.boot.transT = some t0 → s.boot.holdup = false →
    (∃ t' : State, exec .transitionBegin s = .next t' ∧ ResetDone 16 (s.atT (t0 + 10 * msCycles)) t'))
  ∧ (∀ (src : Source) (t0 : Nat) (s : State), s.boot.transition = some (5, src) → s.boot.transT = some t0 → s.boot.holdup = false →
    (∃ t' : State, exec .transitionBegin s = .next t' ∧ ResetDone 32 (s.atT (t0 + 10 * msCycles)) t'))
  ∧ (∀ s : State, s.boot.transT = none ∨ s.boot.holdup = true → exec .transitionBegin s = .next s)
  ∧ (∀ (n : Fin 4) (v : Nat) (ws : List Word) (s : State), s.boot.transition = some (v, .mb n) → s.boot.transT = none →
    (s.mb.get n).outFull = false → (s.deliver (.mb n) ws).boot.transT = some s.time.now)
  ∧ (∀ (src : Source) (t0 : Nat) (s : State), s.boot.transition = some (3, src) → s.boot.transT = some t0 → s.boot.holdup = false →
    (∃ t : State, exec .transitionBegin s = .next t ∧ t.time.now = max s.time.now (t0 + 10 * msCycles) ∧ t.mode = .standby ∧ t.boot.stage = .off
        ∧ t.boot.slept = true ∧ t.rd Obj.standbyReason = 2
      ∧ t.power.resetLow = false ∧ t.power.pwrgoodLow = true ∧ AllOff t))

/-! ## Chapter 5: firmware commands -/

/-- A response is delivered (R139, R140, R142): the command is gone, its words stand in the OUT buffer, or wait for it where the
host owns it; on a connection they are sent. Nothing of the module but what follows from an event changes by it.
A command that fails a check when it runs is refused with the status of that check, whatever its kind (R142, R145). -/
def Obligations.ResponsesAndRefusals : Prop :=
  (∀ (src : Source) (status : Nat) (ws : List Word) (j : Job) (s : State), s.jobOf src = some j →
    Answered src status j.tag ws s (s.respond src status ws).settle ∧ Quiet s (s.respond src status ws).settle)
  ∧ (∀ (src : Source) (j : Job) (s : State), s.jobOf src = some j → j.waiting = false → s.check src j.role j.code j.payload ≠ 0 →
    ∀ p ∈ [(Instr.echo src, cEcho), (.get src, cGet), (.set src, cSet), (.getBlock src, cGetBlock), (.setBlock src, cSetBlock),
        (.swapBank src, cSwapBank), (.move src, cMove), (.faultAck src, cFaultAck), (.faultClear src, cFaultClear),
        (.calZero src, cCalZero), (.calFull src, cCalFull), (.captureRead src, cCaptureRead), (.sessionOpen src, cSessionOpen),
        (.sessionAuth src, cSessionAuth), (.sessionClose src, cSessionClose), (.updateBegin src, cUpdateBegin),
        (.updateChunk src, cUpdateChunk), (.safetyAccept src, cSafetyAccept), (.pairHandover src, cPairHandover)],
      j.code = p.2 → exec p.1 s = .next (s.deny src j (s.check src j.role j.code j.payload)).settle)

/-- `ECHO`, `GET` and `SET` (R149 to R151): the payload, the values of the objects named, the writes in payload order.
`GET_BLOCK` and `SET_BLOCK` (R152, R153): a read from the source's snapshot, which an OFFSET of 0 takes; chunks staged, and
the staging copy written as one write with the last.
Completes, by a clause of its own for each: `echo`, `get`, `set`, `getBlock`, `setBlock`. -/
def Obligations.ObjectAccessCommands : Prop :=
  (∀ (src : Source) (j : Job) (s : State), Ready src cEcho j s → exec (.echo src) s = .next (s.respond src 0 j.payload).settle)
  ∧ (∀ (src : Source) (j : Job) (s : State), Ready src cGet j s → exec (.get src) s = .next ((s.readOver src j.payload).respond src 0 (j.payload.flatMap (s.getWords j.role))).settle)
  ∧ (∀ (src : Source) (j : Job) (s : State), Ready src cSet j s →
    exec (.set src) s = .next ((s.writeAll src (splitSet j.payload 64).1).respond src 0 []).settle)
  ∧ (∀ (src : Source) (j : Job) (s : State) (aw : Word) (bytes : List Byte), Ready src cGetBlock j s → j.payload.getD 0 0 = aw →
    bytes = s.blockOf j.role aw → bytes ≠ [] → j.arg 1 = 0 →
    exec (.getBlock src) s = .next ((s.modCmd (fun c => { c with snaps := (src, awAddr aw, bytes) :: c.snaps.filter (fun p => decide (p.1 ≠ src)) })).respond src 0 (BitVec.ofNat 32 bytes.length :: bytesToWords (slice bytes 0 (j.arg 2)))).settle)
  ∧ (∀ (src : Source) (j : Job) (s : State) (aw : Word) (bytes : List Byte), Ready src cGetBlock j s → j.payload.getD 0 0 = aw →
    s.blockOf j.role aw ≠ [] → j.arg 1 ≠ 0 → s.cmd.snaps.find? (fun p => decide (p.1 = src) && p.2.1 == awAddr aw) =
      some (src, awAddr aw, bytes) →
    exec (.getBlock src) s = .next ((s.modCmd (fun c => { c with snaps := (src, awAddr aw, bytes) :: c.snaps.filter (fun p => decide (p.1 ≠ src)) })).respond src 0 (BitVec.ofNat 32 bytes.length :: bytesToWords (slice bytes (j.arg 1) (j.arg 2)))).settle)
  ∧ (∀ (src : Source) (j : Job) (s : State), Ready src cGetBlock j s →
    objRow (j.arg 0 / 65536) (j.arg 0 / 256 % 256) = none →
    exec (.getBlock src) s = .next (s.respond src 0 (0 :: bytesToWords (List.replicate (j.arg 2) 0))).settle)
  ∧ (∀ (src : Source) (j : Job) (s : State) (r : ObjRow) (old : List Byte) (len : Nat), Ready src cSetBlock j s →
    awType (j.payload.getD 0 0) = 8 →
    objRow (awAddr (j.payload.getD 0 0) / 0x100) (awAddr (j.payload.getD 0 0) % 0x100) = some r → r.ty = .blob →
    j.arg 1 + j.arg 2 % 256 ≤ (blobSize (awAddr (j.payload.getD 0 0))).1 →
    s.cmd.staging.find? (fun p => decide (p.1 = src) && p.2.1 == awAddr (j.payload.getD 0 0)) =
      some (src, awAddr (j.payload.getD 0 0), old, len) →
    let bytes := patchBytes old (j.arg 1) (slice (wordsToBytes (j.payload.drop 3)) 0 (j.arg 2 % 256))
    let n := max len (j.arg 1 + j.arg 2 % 256)
    exec (.setBlock src) s = .next ((if (j.arg 2).testBit 31 then
        (s.dropStaging src).writeBlob (j.payload.getD 0 0)
          (if (blobSize (awAddr (j.payload.getD 0 0))).2 then slice bytes 0 n else bytes)
      else (s.dropStaging src).modCmd (fun c => { c with staging := (src, awAddr (j.payload.getD 0 0), bytes, n) :: c.staging })).respond src 0 []).settle)

/-- `LOAF_STATE` (R155, R191, R290, R291): off, open and closed, on a loaf whose group is at rest.
Completes, by a clause of its own for each: `loafStateOff`, `loafStateOpen`, `loafStateClosed`. -/
def Obligations.LoafStateCommands : Prop :=
(∀ (src : Source) (j : Job) (s : State), Ready src cLoafState j s → j.req = 0 → s.has j.loafArg.val = true →
    s.groupOf j.loafArg = none → (s.loaf.get j.loafArg).st = .open_ ∨ (s.loaf.get j.loafArg).st = .closed →
    ∃ u : State, exec (.loafStateOff src) s = .next (u.respond src 0 [0]).settle ∧ (u.loaf.get j.loafArg).st = .off
        ∧ (u.loaf.get j.loafArg).running = false
      ∧ { s with loaf := u.loaf } = u ∧ ∀ n, n ≠ j.loafArg → u.loaf.get n = s.loaf.get n)
  ∧ (∀ (src : Source) (j : Job) (s : State), Ready src cLoafState j s → j.req = 1 → s.has j.loafArg.val = true →
    s.groupOf j.loafArg = none →
    (s.loaf.get j.loafArg).st = .off ∨ ((s.loaf.get j.loafArg).st = .closed ∧ (s.loaf.get j.loafArg).test = true) →
    ∃ u : State, exec (.loafStateOpen src) s = .next (u.respond src 0 [1]).settle ∧ (u.loaf.get j.loafArg).st = .open_
      ∧ (u.loaf.get j.loafArg).shadow = (s.rd (Obj.openCmp j.loafArg.val 0), s.rd (Obj.openCmp j.loafArg.val 1),
        s.rd (Obj.openCmp j.loafArg.val 2))
      ∧ { s with loaf := u.loaf } = u ∧ ∀ n, n ≠ j.loafArg → u.loaf.get n = s.loaf.get n)
  ∧ (∀ (src : Source) (j : Job) (s : State) (g : Fin 4), Ready src cLoafState j s → j.req = 2 → s.groupOf j.loafArg = some g →
    (s.grp.get g).st = .stopped → s.canClose j.loafArg = true → s.interleaved j.loafArg = false →
    (s.loaf.get j.loafArg).st = .off ∨ (s.loaf.get j.loafArg).st = .open_ →
    ∃ u : State, exec (.loafStateClosed src) s = .next (u.respond src 0 [2]).settle ∧ (u.loaf.get j.loafArg).st = .closed
        ∧ (u.loaf.get j.loafArg).test = true
      ∧ { s with loaf := u.loaf, oven := u.oven } = u
      ∧ ∀ n, n ≠ j.loafArg → u.loaf.get n = s.loaf.get n ∧ u.oven.get n = s.oven.get n)
  ∧ (∀ (src : Source) (j : Job) (s : State), Ready src cLoafState j s → s.has j.loafArg.val = true → s.groupOf j.loafArg = none →
    (j.req = 0 → (s.loaf.get j.loafArg).st = .off → exec (.loafStateOff src) s = .next (s.respond src 0 [0]).settle)
    ∧ (j.req = 1 → (s.loaf.get j.loafArg).st = .open_ → exec (.loafStateOpen src) s = .next (s.respond src 0 [1]).settle)
    ∧ (j.req = 0 → (s.loaf.get j.loafArg).st = .isolated ∨ (s.loaf.get j.loafArg).st = .fault →
      exec (.loafStateOff src) s = .next (s.deny src j stState).settle)
    ∧ (j.req = 2 → exec (.loafStateClosed src) s = .next (s.deny src j stState).settle ∨ (s.loaf.get j.loafArg).st = .closed))

/-- `GROUP_STATE` and `MOVE` (R155, R156, R293, R294, R302): a start enters STARTING, a stop is latched and answered at the group
boundary, a target is taken at once at rest and at the boundary in motion.
`SWAP_BANK` (R154, R303, R304): pending until the group's boundary, at once with no counter running; answered `TIMEOUT` 100 ms
after it began to wait where it stays pending.
Completes, by a clause of its own for each: `groupStateStart`, `groupStateStop`, `move`, `swapBank`, `swapBankTimeout`. -/
def Obligations.GroupAndBankCommands : Prop :=
  (∀ (src : Source) (j : Job) (s : State), Ready src cGroupState j s → j.req = 1 → s.startOk j.grpArg = true →
    ∃ u : State, exec (.groupStateStart src) s = .next (u.respond src 0 [1]).settle ∧ (u.grp.get j.grpArg).st = .starting
      ∧ (u.grp.get j.grpArg).startReq = true ∧ u.objs = s.objs ∧ u.mode = s.mode ∧ u.flt = s.flt
      ∧ (∀ g, g ≠ j.grpArg → u.grp.get g = s.grp.get g) ∧ ∀ n, n ∉ s.bound j.grpArg → u.loaf.get n = s.loaf.get n)
  ∧ (∀ (src : Source) (j : Job) (s : State), Ready src cGroupState j s → j.req = 1 → s.startOk j.grpArg = false →
    exec (.groupStateStart src) s = .next (s.deny src j stState).settle)
  ∧ (∀ (src : Source) (j : Job) (s : State), Ready src cGroupState j s → j.req = 0 → s.follows j.grpArg = false →
    (s.grp.get j.grpArg).st = .starting ∨ (s.grp.get j.grpArg).st = .running ∨ (s.grp.get j.grpArg).st = .degraded →
    exec (.groupStateStop src) s = .next ((s.modGrp j.grpArg (fun x => { x with stopReq := true })).wait src).settle)
  ∧ (∀ (src : Source) (j : Job) (s : State), Ready src cGroupState j s → j.req = 0 → s.follows j.grpArg = false →
    (s.grp.get j.grpArg).st = .stopped ∨ (s.grp.get j.grpArg).st = .stopping ∨ (s.grp.get j.grpArg).st = .safe →
    exec (.groupStateStop src) s = .next (s.respond src 0 [BitVec.ofNat 32 (s.grp.get j.grpArg).st.code]).settle)
  ∧ (∀ (src : Source) (j : Job) (s : State), Ready src cMove j s → s.follows j.grpArg = false →
    s.rd (Obj.ctrlMode j.grpArg.val) = (j.arg 0 / 256 % 256 : Nat) →
    (s.grp.get j.grpArg).st = .stopped ∨ (s.grp.get j.grpArg).st = .stopping →
    exec (.move src) s = .next ((s.modGrp j.grpArg (fun x => { x with
      target := some (j.arg 0 / 256 % 256, BitVec.ofNat 32 (j.arg 1), signExt 16 (j.arg 2)) })).respond src 0 []).settle)
  ∧ (∀ (src : Source) (j : Job) (s : State), Ready src cMove j s → s.follows j.grpArg = false →
    s.rd (Obj.ctrlMode j.grpArg.val) = (j.arg 0 / 256 % 256 : Nat) →
    (s.grp.get j.grpArg).st = .starting ∨ (s.grp.get j.grpArg).st = .running ∨ (s.grp.get j.grpArg).st = .degraded →
    exec (.move src) s = .next ((s.modGrp j.grpArg (fun x => { x with
      nextTarget := some (j.arg 0 / 256 % 256, BitVec.ofNat 32 (j.arg 1), signExt 16 (j.arg 2)) })).wait src).settle)
  ∧ (∀ (src : Source) (j : Job) (s : State), Ready src cMove j s → s.follows j.grpArg = true ∨ (s.grp.get j.grpArg).st = .safe
      ∨ s.rd (Obj.ctrlMode j.grpArg.val) ≠ (j.arg 0 / 256 % 256 : Nat) → exec (.move src) s = .next (s.deny src j stState).settle)
  ∧ (∀ (src : Source) (j : Job) (s : State) (g : Fin 4), Ready src cSwapBank j s → j.arg 0 = 2 ^ g.val →
    (s.bound g).any (fun n => (s.loaf.get n).running) = true →
    exec (.swapBank src) s = .next (((s.modGrp g (fun x => { x with
      swap := true, swapT := if x.swap then x.swapT else s.time.now })).carry (srcNum src) (swapPacket j)).wait src).settle)
  ∧ (∀ (src : Source) (j : Job) (s : State) (g : Fin 4), Ready src cSwapBank j s → j.arg 0 = 2 ^ g.val →
    (s.bound g).any (fun n => (s.loaf.get n).running) = false →
    ∃ u : State, exec (.swapBank src) s = .next (u.wait src).settle ∧ (u.grp.get g).swap = false ∧ (u.grp.get g).held = []
        ∧ (u.grp.get g).swapped = true
      ∧ (∀ h, h ≠ g → u.grp.get h = s.grp.get h) ∧ u.loaf = s.loaf ∧ u.mode = s.mode ∧ u.flt = s.flt)
  ∧ (∀ (src : Source) (s : State) (j : Job), s.waitingJob src cSwapBank = some j →
    exec (.swapBankTimeout src) s = .next ((s.atT (j.since + 100 * msCycles)).respond src stTimeout []))
  ∧ (∀ (src : Source) (s : State), s.waitingJob src cSwapBank = none → exec (.swapBankTimeout src) s = .next s)

/-- `FAULT_ACK`, by Askard's copy of the windows, `FAULT_CLEAR` and the injections, of codes and instances the module can raise (R157,
R161, R353, R359, R361, R362, R369, R370, R372). The effect takes place with the command and its packet brings no second one
(assumption 28).
Completes, by a clause of its own for each: `faultAck`, `faultClear`, `injectDry`, `injectLive`, `injHoldExpiry`. -/
def Obligations.FaultCommands : Prop :=
(∀ (src : Source) (j : Job) (s : State), Ready src cFaultAck j s → (j.faultCode, j.faultInst) ∈ s.flt.windows →
    exec (.faultAck src) s = .next (((s.modFlt (fun f => { f with acks := f.acks ++ [(j.faultCode, j.faultInst)] })).enqueue .m 0
      (pkt .fault (faultPayload j.faultCode j.faultInst 1))).respond src 0 []).settle)
  ∧ (∀ (src : Source) (j : Job) (s : State), Ready src cFaultAck j s →
    (j.faultCode, j.faultInst) ∉ s.flt.windows → exec (.faultAck src) s = .next (s.deny src j stState).settle)
  ∧ (∀ (src : Source) (j : Job) (s : State) (p : Pend), Ready src cFaultClear j s → p ∈ s.flt.pend →
    (j.faultCode = 0xFFFF ∨ j.faultCode = p.code) → (j.faultInst = 0xFFFF ∨ j.faultInst = p.inst) →
    s.resetOnlyCode p.code = true ∨ s.persists p = true → exec (.faultClear src) s = .next (s.deny src j stState).settle)
  ∧ (∀ (src : Source) (j : Job) (s : State), Ready src cFaultClear j s →
    (∀ p ∈ s.flt.pend, clearNames j.faultCode j.faultInst p.code p.inst = true → s.resetOnlyCode p.code = false ∧ s.persists p = false) →
    ∃ (u x : State), exec (.faultClear src) s = .next (u.respond src 0 [BitVec.ofNat 32 (s.flt.pend.filter (fun p => clearNames j.faultCode j.faultInst p.code p.inst)).length]).settle
      ∧ u = (x.fbFollow.faultToOff.leaveSafe).carry 0 (pkt .fault (faultPayload j.faultCode j.faultInst 2))
      ∧ x.flt.pend = s.flt.pend.filter (fun p => !clearNames j.faultCode j.faultInst p.code p.inst)
      ∧ x.mode = s.mode ∧ x.grp = s.grp)
  ∧ (∀ (src : Source) (j : Job) (s : State), Ready src cInject j s → j.arg 1 ≠ 1 → s.flt.inj.length < 4 →
    injectable j.faultCode false = true → s.raisable j.faultCode j.faultInst = true → s.realPending j.faultCode j.faultInst = false →
    ∃ u : State, exec (.injectDry src) s = .next (u.respond src 0 []).settle
        ∧ u.flt.inj = s.flt.inj ++ [{ code := j.faultCode, inst := j.faultInst, live := false, since := s.time.now }]
      ∧ u.flt.pend = s.flt.pend ∧ u.mode = s.mode ∧ u.loaf = s.loaf ∧ u.grp = s.grp ∧ u.safety = s.safety
      ∧ (s.rd Obj.injCount < 0xFFFFFFFF → u.rd Obj.injCount = s.rd Obj.injCount + 1))
  ∧ (∀ (src : Source) (j : Job) (s : State), Ready src cInject j s → j.arg 1 = 1 → s.flt.inj.length < 4 →
    injectable j.faultCode true = true → injSource j.faultCode.toNat (instIndex j.faultInst % 4) = none →
    s.raisable j.faultCode j.faultInst = true → s.isPending j.faultCode j.faultInst = false →
    exec (.injectLive src) s = .next (((((s.carry 0 (pkt .fault (faultPayload j.faultCode j.faultInst 4))).addInj
      { code := j.faultCode, inst := j.faultInst, live := true }).enter j.faultCode j.faultInst 0 flagInj true).attributed
        j.faultCode j.faultInst).respond src 0 []).settle)
  ∧ (∀ (src : Source) (j : Job) (s : State), Ready src cInject j s → s.flt.inj.length < 4 →
    s.raisable j.faultCode j.faultInst = false →
    (j.arg 1 ≠ 1 → exec (.injectDry src) s = .next (s.deny src j stState).settle)
        ∧ (j.arg 1 = 1 → exec (.injectLive src) s = .next (s.deny src j stState).settle))
  ∧ (∀ (src : Source) (j : Job) (s : State), Ready src cInject j s → 4 ≤ s.flt.inj.length →
    (j.arg 1 ≠ 1 → exec (.injectDry src) s = .next (s.deny src j stBusy).settle)
        ∧ (j.arg 1 = 1 → exec (.injectLive src) s = .next (s.deny src j stBusy).settle))
  ∧ (∀ (code inst : Half) (d : Inj) (s : State),
    s.flt.inj.find? (fun x => !x.live && x.code == code && x.inst == inst) = some d →
    exec (.injHoldExpiry code inst) s = .next ((s.atT (d.since + s.rdN Obj.injHold * msCycles)).modFlt (fun f => { f with
      inj := f.inj.erase d })))
  ∧ (∀ (code inst : Half) (s : State), (∀ x ∈ s.flt.inj, x.code = code → x.inst = inst → x.live = true) →
    exec (.injHoldExpiry code inst) s = .next s)

/-- Calibration (R158, R231): the offset is the mean of 4096 samples with the offset at 0, the gain what the mean asks for.
The capture commands (R159, R243, R244): armed with the next sequence number, discarded, triggered, read over Peel.
Completes, by a clause of its own for each: `calZero`, `calFull`, `calComplete`, `calTimeout`, `captureArm`, `captureDisarm`,
`captureTriggerNow`, `captureRead`, `captureReadTimeout`. -/
def Obligations.CalibrationAndCapture : Prop :=
  (∀ (src : Source) (j : Job) (s : State), Ready src cCalZero j s → s.hasConv (j.arg 0 % 256) = true →
    s.power.refReady.get (Fin.ofNat 6 (j.arg 0 % 256)) = true →
    exec (.calZero src) s = .next ((s.modCmd (fun c => { c with cals := c.cals ++ [{
      src := src, conv := j.arg 0 % 256, input := j.arg 0 / 256 % 256, full := false, expected := 0,
      offset := s.rd (Obj.chOffset (j.arg 0 % 256) (j.arg 0 / 256 % 256)), count := 0, sum := 0, since := s.time.now }] })).wait src).settle)
  ∧ (∀ (src : Source) (j : Job) (s : State), Ready src cCalFull j s → s.hasConv (j.arg 0 % 256) = true →
    s.power.refReady.get (Fin.ofNat 6 (j.arg 0 % 256)) = true → (j.arg 0 % 256, j.arg 0 / 256 % 256) ∈ s.cmd.zeroed →
    (signExt 32 (j.arg 1) < -8192 ∨ 8192 < signExt 32 (j.arg 1)) →
    exec (.calFull src) s = .next ((s.modCmd (fun c => { c with cals := c.cals ++ [{
      src := src, conv := j.arg 0 % 256, input := j.arg 0 / 256 % 256, full := true, expected := signExt 32 (j.arg 1),
      offset := s.rd (Obj.chOffset (j.arg 0 % 256) (j.arg 0 / 256 % 256)), count := 0, sum := 0, since := s.time.now }] })).wait src).settle)
  ∧ (∀ (src : Source) (j : Job) (s : State), Ready src cCalFull j s → s.hasConv (j.arg 0 % 256) = true →
    (j.arg 0 % 256, j.arg 0 / 256 % 256) ∉ s.cmd.zeroed ∨ (-8192 ≤ signExt 32 (j.arg 1) ∧ signExt 32 (j.arg 1) ≤ 8192) →
    exec (.calFull src) s = .next (s.deny src j stState).settle)
  ∧ (∀ (src : Source) (c : CalJob) (s : State), s.calOf src = some c → 4096 ≤ c.count → c.full = false →
    ∃ u : State, exec (.calComplete src) s = .next (u.respond src 0 [BitVec.ofInt 32 (roundAway ((c.sum : Rat) / 4096))])
      ∧ u.rd (Obj.chOffset c.conv c.input) = roundAway ((c.sum : Rat) / 4096) ∧ (c.conv, c.input) ∈ u.cmd.zeroed
      ∧ u.calOf src = none ∧ (∀ a, a ≠ Obj.chOffset c.conv c.input → u.rd a = s.rd a) ∧ u.flt = s.flt ∧ u.mode = s.mode)
  ∧ (∀ (src : Source) (c : CalJob) (g : Int) (s : State), s.calOf src = some c → 4096 ≤ c.count → c.full = true →
    gainCode c.conv c.expected c.sum = some g →
    exec (.calComplete src) s = .next (((s.calGone src).wr (Obj.chGain c.conv c.input) g).respond src 0 [BitVec.ofInt 32 g]))
  ∧ (∀ (src : Source) (c : CalJob) (s : State), s.calOf src = some c → 4096 ≤ c.count → c.full = true →
    gainCode c.conv c.expected c.sum = none → exec (.calComplete src) s = .next ((s.calGone src).respond src stState []))
  ∧ (∀ (src : Source) (c : CalJob) (s : State), s.calOf src = some c → c.count < 4096 →
    exec (.calTimeout src) s = .next (((s.atT (c.since + 200 * msCycles)).calGone src).respond src stTimeout []))
  ∧ (∀ (src : Source) (j : Job) (s : State), Ready src cCaptureArm j s → j.arg 0 = 1 →
    exec (.captureArm src) s = .next (s.capArm.respond src 0 [BitVec.ofInt 32 (s.capArm.rd Obj.capSeq)]).settle
    ∧ s.capArm.rd Obj.capSeq = (s.rd Obj.capSeq + 1) % 65536 ∧ s.capArm.rd Obj.capCause = 0 ∧ s.capArm.rd Obj.capLen = 0
    ∧ (s.capArm.rd Obj.capState = 1 ∨ s.capArm.rd Obj.capState = 2)
    ∧ (∀ a, a ∉ [Obj.capState, Obj.capSeq, Obj.capCause, Obj.capLen] → s.capArm.rd a = s.rd a))
  ∧ (∀ (src : Source) (j : Job) (s : State), Ready src cCaptureArm j s → j.arg 0 = 2 →
    ∃ u : State, exec (.captureDisarm src) s = .next (u.respond src 0 [BitVec.ofInt 32 (s.rd Obj.capSeq)]).settle ∧ u.rd Obj.capState = 0
      ∧ u.rd Obj.capCause = 0 ∧ u.rd Obj.capLen = 0 ∧ u.cap = {}
      ∧ ∀ a, a ∉ [Obj.capState, Obj.capCause, Obj.capLen] → u.rd a = s.rd a)
  ∧ (∀ (src : Source) (j : Job) (t : Nat) (s : State), s.time.now ≤ t → Ready src cCaptureArm j (s.atT t) → j.arg 0 = 3 →
    s.rd Obj.capState = 1 ∨ s.rd Obj.capState = 2 →
    ∃ u : State, exec (.captureTriggerNow src t) s = .next (u.respond src 0 [BitVec.ofInt 32 (s.rd Obj.capSeq)]).settle
      ∧ u.rd Obj.capState = 3 ∧ u.rd Obj.capCause = 1 ∧ u.cap.trigT = t
      ∧ ∀ a, a ∉ [Obj.capState, Obj.capCause] → u.rd a = s.rd a)
  ∧ (∀ (src : Source) (j : Job) (t : Nat) (s : State), s.time.now ≤ t → Ready src cCaptureArm j (s.atT t) → j.arg 0 = 3 →
    s.rd Obj.capState = 3 → s.cap.trigT = t →
    exec (.captureTriggerNow src t) s = .next (((s.atT t).wrBit Obj.capCause 0 true).respond src 0
      [BitVec.ofInt 32 (s.rd Obj.capSeq)]).settle)
  ∧ (∀ (src : Source) (j : Job) (s : State), Ready src cCaptureRead j s → s.rd Obj.capSeq = (j.arg 0 : Int) →
    s.rd Obj.capState = 4 → exec (.captureRead src) s = .next ((s.capReadStart src (j.arg 1) (j.arg 2)).wait src).settle)
  ∧ (∀ (src : Source) (j : Job) (s : State), Ready src cCaptureRead j s →
    s.rd Obj.capSeq ≠ (j.arg 0 : Int) ∨ s.rd Obj.capState ≠ 4 → exec (.captureRead src) s = .next (s.deny src j stState).settle)
  ∧ (∀ (src : Source) (j : Job) (s : State), s.waitingJob src cCaptureRead = some j →
    exec (.captureReadTimeout src) s = .next (((s.atT (j.since + 50 * msCycles)).capForget src).respond src stTimeout []))

/-- `SUBSCRIBE` (R172, R173): a start within the path's rate of a free slot or the source's own, and its cancel.
Completes, by a clause of its own for each: `subscribeStart`, `subscribeCancel`. -/
def Obligations.SubscribeCommands : Prop :=
(∀ (src : Source) (j : Job) (s : State), Ready src cSubscribe j s → j.arg 0 / 256 % 256 = 1 →
    (s.sub (j.arg 0 % 256)).active = false →
    s.rateUsed (decide (j.arg 0 / 65536 % 256 = 1)) + s.itemRate (j.arg 0 / 2 ^ 24) (j.arg 1)
      ≤ (if j.arg 0 / 65536 % 256 = 1 then 8000000 else 200000) →
    ∃ x : Sub, exec (.subscribeStart src) s = .next ((s.modSub (j.arg 0 % 256) (fun _ => x)).respond src 0 [BitVec.ofInt 32 (showInt x.rate)]).settle
      ∧ x.active = true ∧ x.owner = subOwner src ∧ x.source = j.arg 0 / 2 ^ 24 ∧ x.udp = decide (j.arg 0 / 65536 % 256 = 1)
      ∧ x.rate = s.itemRate (j.arg 0 / 2 ^ 24) (j.arg 1) ∧ x.items = [] ∧ x.nItems = 0)
  ∧ (∀ (src : Source) (j : Job) (s : State), Ready src cSubscribe j s → j.arg 0 / 256 % 256 = 1 →
    (s.sub (j.arg 0 % 256)).active = false →
    (if j.arg 0 / 65536 % 256 = 1 then (8000000 : Rat) else 200000)
      < s.rateUsed (decide (j.arg 0 / 65536 % 256 = 1)) + s.itemRate (j.arg 0 / 2 ^ 24) (j.arg 1) →
    exec (.subscribeStart src) s = .next (s.deny src j stBusy).settle)
  ∧ (∀ (src : Source) (j : Job) (s : State), Ready src cSubscribe j s → j.arg 0 / 256 % 256 ≠ 1 →
    ((s.sub (j.arg 0 % 256)).active = false ∨ (s.sub (j.arg 0 % 256)).owner = subOwner src) →
    exec (.subscribeCancel src) s = .next ((s.endSub (j.arg 0 % 256)).respond src 0 [0]).settle)
  ∧ (∀ (src : Source) (j : Job) (s : State), Ready src cSubscribe j s → j.arg 0 / 256 % 256 ≠ 1 →
    (s.sub (j.arg 0 % 256)).active = true → (s.sub (j.arg 0 % 256)).owner ≠ subOwner src →
    exec (.subscribeCancel src) s = .next (s.deny src j stState).settle)

/-- The sessions of the host port (R488 to R491, R499): a challenge over a new nonce, the proof that opens the session, the end.
Completes, by a clause of its own for each: `sessionOpen`, `sessionAuth`, `sessionClose`. -/
def Obligations.SessionCommands : Prop :=
(∀ (src : Source) (j : Job) (s : State), Ready src cSessionOpen j s → s.sec.session = none →
    ∃ bytes : List Byte, exec (.sessionOpen src) s = .next ((s.modSec (fun v => { v with
        sessCount := (v.sessCount + 1) % 2 ^ 32, nonceNo := v.nonceNo + 1
        challenge := some (j.arg 0 % 256, j.arg 0 / 256 % 256, bytes, s.time.now) })).respond src 0 (bytesToWords bytes)).settle
      ∧ bytes = slice (Config.nonce s.sec.nonceNo) 0 16 ++ leBytes 8 (Config.serial 0).toNat
        ++ leBytes 4 ((s.sec.sessCount + 1) % 2 ^ 32) ++ leBytes 4 0)
  ∧ (∀ (src : Source) (j : Job) (s : State) (role user : Nat) (bytes key : List Byte) (t : Nat), Ready src cSessionAuth j s →
    s.sec.challenge = some (role, user, bytes, t) → s.time.now ≤ t + 2000000000 → (s.lockOf user).2.2 = none →
    s.sessionKey role user = some key → hmac key (sessionMsg role user bytes) = wordsToBytes j.payload →
    ∃ u : State, exec (.sessionAuth src) s = .next (u.respond src 0 [BitVec.ofNat 32 role]).settle ∧ u.sec.session = some (role, user)
        ∧ u.sec.challenge = none
      ∧ (u.sec.unlocked = true → s.sec.unlocked = true ∨ (role = 5 ∧ s.power.swReset.getLsbD 10 = true))
      ∧ { s with sec := u.sec } = u)
  ∧ (∀ (src : Source) (j : Job) (s : State), Ready src cSessionAuth j s → s.sec.challenge = none →
    exec (.sessionAuth src) s = .next (s.deny src j stState).settle)
  ∧ (∀ (src : Source) (j : Job) (s : State) (role user : Nat) (bytes : List Byte) (t : Nat), Ready src cSessionAuth j s →
    s.sec.challenge = some (role, user, bytes, t) → (t + 2000000000 < s.time.now ∨ (s.lockOf user).2.2.isSome = true) →
    exec (.sessionAuth src) s = .next (s.deny src j stState).settle)
  ∧ (∀ (src : Source) (j : Job) (s : State) (role user : Nat) (bytes : List Byte) (t : Nat), Ready src cSessionAuth j s →
    s.sec.challenge = some (role, user, bytes, t) → s.time.now ≤ t + 2000000000 → (s.lockOf user).2.2 = none →
    (∀ key, s.sessionKey role user = some key → hmac key (sessionMsg role user bytes) ≠ wordsToBytes j.payload) →
    ∃ u : State, exec (.sessionAuth src) s = .next (u.deny src j stCrc).settle ∧ u.sec.session = s.sec.session
      ∧ (0xF002, 0, 0) ∈ u.flt.mRep ∧ (user < 16 → (u.lockOf user).1 = (s.lockOf user).1 + 1)
      ∧ u.mode = s.mode ∧ u.objs = s.objs)
  ∧ (∀ (src : Source) (j : Job) (s : State), Ready src cSessionClose j s →
    ∃ u : State, exec (.sessionClose src) s = .next (u.respond src 0 []).settle ∧ u.sec.session = none ∧ u.objs = s.objs ∧ u.flt = s.flt
        ∧ u.mode = s.mode
      ∧ u.sec.users = s.sec.users ∧ u.sec.lockouts = s.sec.lockouts)

/-- Transfers and the two commits (R160, R486, R487, R492 to R497, R528).
Completes, by a clause of its own for each: `updateBegin`, `updateChunk`, `updateCommitFirmware`, `updateCommitConfig`. -/
def Obligations.UpdateCommands : Prop :=
(∀ (src : Source) (j : Job) (s : State), Ready src cUpdateBegin j s → (∀ t, s.cmd.xfer = some t → t.src = src) →
    exec (.updateBegin src) s = .next ((s.modCmd (fun c => { c with
      xfer := some { src := src, kind := j.arg 0, size := j.arg 1, data := [] } })).respond src 0 []).settle)
  ∧ (∀ (src : Source) (j : Job) (t : Transfer) (s : State), Ready src cUpdateBegin j s → s.cmd.xfer = some t → t.src ≠ src →
    exec (.updateBegin src) s = .next (s.deny src j stBusy).settle)
  ∧ (∀ (src : Source) (j : Job) (t : Transfer) (s : State), Ready src cUpdateChunk j s → s.cmd.xfer = some t → t.src = src →
    j.arg 0 = t.data.length →
    exec (.updateChunk src) s = .next ((s.modCmd (fun c => { c with
      xfer := some { t with data := t.data ++ slice (wordsToBytes (j.payload.drop 2)) 0 (j.arg 1) } })).respond src 0 []).settle)
  ∧ (∀ (src : Source) (j : Job) (t : Transfer) (s : State), Ready src cUpdateChunk j s → s.cmd.xfer = some t →
    (t.src ≠ src → exec (.updateChunk src) s = .next (s.deny src j stBusy).settle)
    ∧ (t.src = src → j.arg 0 ≠ t.data.length → exec (.updateChunk src) s = .next (s.deny src j stState).settle))
  ∧ (∀ (src : Source) (j : Job) (t : Transfer) (s : State), Ready src cUpdateCommit j s → s.cmd.xfer = some t → t.kind = 0 →
    t.src = src → t.data.length = t.size → s.sec.rollback ≤ leAt t.data 8 2 →
    ∃ u : State, exec (.updateCommitFirmware src true) s = .next (u.respond src 0 []).settle ∧ u.boot.transition = some (5, src) ∧ u.cmd.xfer = none
      ∧ (if s.sec.runB then u.sec.slotA = { present := true, version := leAt t.data 4 4 % 2 ^ 24, svn := leAt t.data 8 2 }
          ∧ u.sec.preferB = false ∧ u.sec.slotB = s.sec.slotB
        else u.sec.slotB = { present := true, version := leAt t.data 4 4 % 2 ^ 24, svn := leAt t.data 8 2 }
          ∧ u.sec.preferB = true ∧ u.sec.slotA = s.sec.slotA)
      ∧ u.objs = s.objs ∧ u.mode = s.mode ∧ u.sec.rollback = s.sec.rollback)
  ∧ (∀ (src : Source) (j : Job) (t : Transfer) (s : State), Ready src cUpdateCommit j s → s.cmd.xfer = some t → t.kind = 0 →
    t.src = src → t.data.length = t.size → leAt t.data 8 2 < s.sec.rollback →
    ∃ u : State, exec (.updateCommitFirmware src true) s = .next (u.deny src j stState).settle ∧ u.sec.slotA = s.sec.slotA
      ∧ u.sec.slotB = s.sec.slotB ∧ u.cmd = s.cmd ∧ u.boot = s.boot ∧ u.objs = s.objs)
  ∧ (∀ (src : Source) (j : Job) (t : Transfer) (img : ConfigImage) (s : State), Ready src cUpdateCommit j s → s.cmd.xfer = some t →
    t.kind = 1 → t.src = src → t.data.length = t.size → s.sec.owner ≠ none → s.rdN Obj.cfgVersion < img.version →
    (∀ w ∈ img.writes, imageWriteBad w = false) →
    ∃ u : State, exec (.updateCommitConfig src true img) s = .next (u.respond src 0 []).settle ∧ u.rd Obj.configCrc = img.crc
        ∧ u.rd Obj.cfgVersion = img.version
      ∧ u.boot.imageDone = true ∧ u.cmd.xfer = none)
  ∧ (∀ (src : Source) (j : Job) (t : Transfer) (img : ConfigImage) (s : State), Ready src cUpdateCommit j s → s.cmd.xfer = some t →
    t.kind = 1 → t.src = src → t.data.length = t.size → img.version ≤ s.rdN Obj.cfgVersion → s.sec.owner ≠ none →
    ∃ u : State, exec (.updateCommitConfig src true img) s = .next (u.deny src j stState).settle ∧ u.objs = s.objs
      ∧ u.sec.users = s.sec.users ∧ u.sec.image = s.sec.image ∧ u.cmd = s.cmd)

/-- `SAFETY_LOAD` and `SAFETY_ACCEPT` (R397, R398): chunks staged in order, a complete set stored unaccepted, an accepted set bound to
the switches read at reset.
Completes, by a clause of its own for each: `safetyLoad`, `safetyAccept`. -/
def Obligations.SafetySetCommands : Prop :=
(∀ (src : Source) (v : Bool) (j : Job) (s : State), Ready src cSafetyLoad j s → s.setXfer (j.arg 0) = none → j.arg 1 = 0 →
    (j.arg 2).testBit 31 = false →
    exec (.safetyLoad src v) s = .next ((s.putSet {
      src := src, kind := 2 + j.arg 0, size := 128, data := slice (wordsToBytes (j.payload.drop 3)) 0 (j.arg 2 % 256) }).respond src 0 []).settle)
  ∧ (∀ (src : Source) (j : Job) (t : Transfer) (data : List Byte) (s : State), Ready src cSafetyLoad j s → s.setXfer (j.arg 0) = some t →
    t.src = src → j.arg 1 = t.data.length → (j.arg 2).testBit 31 = true → j.arg 0 < 4 →
    data = t.data ++ slice (wordsToBytes (j.payload.drop 3)) 0 (j.arg 2 % 256) → paramsOk data (j.arg 0) = true →
    s.sealed = false →
    ∃ u : State, exec (.safetyLoad src true) s = .next (u.respond src 0 []).settle
      ∧ u.safety.sets = s.safety.sets.set (Fin.ofNat 4 (j.arg 0)) { image := data, state := 1, bind := 0 }
      ∧ u.safety.governs = s.safety.governs ∧ u.objs = s.objs ∧ u.mode = s.mode ∧ u.setXfer (j.arg 0) = none)
  ∧ (∀ (src : Source) (v : Bool) (j : Job) (t : Transfer) (s : State), Ready src cSafetyLoad j s → s.setXfer (j.arg 0) = some t →
    t.src ≠ src → exec (.safetyLoad src v) s = .next (s.deny src j stBusy).settle)
  ∧ (∀ (src : Source) (j : Job) (n : Fin 4) (s : State), Ready src cSafetyAccept j s → n.val = j.arg 0 →
    (s.safety.sets.get n).state ≠ 0 → j.arg 1 = (crc32 (s.safety.sets.get n).image).toNat →
    (s.power.swNow ^^^ s.power.swReset) &&& 0xBFF = 0 → s.sealed = false →
    ∃ u : State, exec (.safetyAccept src) s = .next (u.respond src 0 []).settle ∧ u.safety.coverSince = false
      ∧ u.safety.sets = s.safety.sets.set n {
          image := (s.safety.sets.get n).image, state := 2, bind := (s.bindingCrc (s.safety.sets.get n).image n.val).toNat }
      ∧ u.safety.governs = s.safety.governs ∧ u.objs = s.objs ∧ u.mode = s.mode)
  ∧ (∀ (src : Source) (j : Job) (n : Fin 4) (s : State), Ready src cSafetyAccept j s → n.val = j.arg 0 →
    ((s.safety.sets.get n).state = 0 → exec (.safetyAccept src) s = .next (s.deny src j stState).settle)
    ∧ ((s.safety.sets.get n).state ≠ 0 → j.arg 1 ≠ (crc32 (s.safety.sets.get n).image).toNat →
      exec (.safetyAccept src) s = .next (s.deny src j stCrc).settle))

/-- `PAIR_HANDOVER` and `TIME_STEP` (R161, R426, R432, R473).
Completes, by a clause of its own for each: `pairHandover`, `pairHandoverComplete`, `pairHandoverTimeout`, `timeStepGiven`,
`timeStepMeasured`. -/
def Obligations.HandoverAndTimeStep : Prop :=
(∀ (src : Source) (j : Job) (s : State), Ready src cPairHandover j s → s.paired = true → (s.prRole = 1 ∨ s.prRole = 3) →
    s.lastFlag 3 = true →
    exec (.pairHandover src) s = .next ((s.modPair (fun p => { p with handover := true, releaseDue := true })).wait src).settle)
  ∧ (∀ (src : Source) (j : Job) (s : State), Ready src cPairHandover j s →
    (s.paired = false ∨ s.lastFlag 3 = false ∨ (s.prRole ≠ 1 ∧ s.prRole ≠ 3)) → exec (.pairHandover src) s = .next (s.deny src j stState).settle)
  ∧ (∀ (src : Source) (j : Job) (s : State), s.waitingJob src cPairHandover = some j → s.pair.partner = true →
    s.pair.roleAct = false →
    exec (.pairHandoverComplete src) s = .next ((s.modPair (fun p => { p with handover := false, releaseDue := false })).respond src 0 []).settle)
  ∧ (∀ (src : Source) (j : Job) (s : State), s.waitingJob src cPairHandover = some j →
    exec (.pairHandoverTimeout src) s = .next (((s.atT (j.since + 10 * msCycles)).modPair (fun p => { p with
      handover := false, releaseDue := false })).respond src
      stTimeout []).settle)
  ∧ (∀ (src : Source) (j : Job) (s : State), Ready src cTimeStep j s → j.arg 0 ≠ 0 →
    ∃ u : State, exec (.timeStepGiven src) s = .next (u.respond src 0 []).settle
      ∧ u.time.station = max 0 (s.time.station + ((signExt 32 (j.arg 1) * 1000000000 + signExt 32 (j.arg 2) : Int) : Rat))
      ∧ u.time.lv0.st = .tracking ∧ u.time.lv0.jump = false
      ∧ (∀ k : Fin 7, s.rd (Obj.tuTrim k.val) = 1 → k.val < s.time.unitPending.length → u.time.unitPending.getD k.val false = true)
      ∧ u.objs = s.objs ∧ u.mode = s.mode ∧ u.time.now = s.time.now ∧ u.time.counter = s.time.counter)
  ∧ (∀ (src : Source) (j : Job) (s : State), Ready src cTimeStep j s → j.arg 0 = 0 → s.time.lv0.jump = true →
    ∃ u : State, exec (.timeStepMeasured src) s = .next (u.respond src 0 []).settle
      ∧ u.time.station = max 0 (s.time.station - ((s.time.lv0.jumpOfs : Int) : Rat))
      ∧ u.time.lv0.st = .tracking ∧ u.time.lv0.jump = false ∧ u.objs = s.objs ∧ u.mode = s.mode)
  ∧ (∀ (src : Source) (j : Job) (s : State), Ready src cTimeStep j s → j.arg 0 = 0 → s.time.lv0.jump = false →
    exec (.timeStepMeasured src) s = .next (s.deny src j stState).settle)

/-! ## Chapter 6: object writes -/

/-- A write that R170 ignores changes no object it names: it is counted, and by its reason, and told in `IGN_LAST`.
The order of the reasons of R170: no such object, absent, read-only, state, class, range.
Completes, by a clause of its own for each: `objectWrite`. -/
def Obligations.IgnoredWrites : Prop :=
  (∀ (aw : Word) (vals : List Word) (s : State), s.askard = true → s.mode ≠ .boot → s.judge aw vals ≠ 0 →
    (∃ t' : State, exec (.objectWrite aw vals) s = .next t' ∧ Quiet (s.ignored aw (s.judge aw vals)) t'))
  ∧ (∀ (n : Fin 4) (k : Fin 6) (u : Fin 7) (l : Fin 2) (d : Bool) (x : Fin 3) (v : Int) (s : State), s.askard = true → s.mode ≠ .boot →
    ∀ p ∈ [(Instr.peelStatsClr v, Obj.peelStatsClr), (.ignClr v, Obj.ignClr), (.cmdCntClr v, Obj.cmdCntClr),
        (.streamCntClr v, Obj.streamCntClr), (.pwmCntClr n v, Obj.pwmCntClr n.val), (.tripCntClr v, Obj.tripCntClr),
        (.convCntClr k v, Obj.convCntClr k.val), (.fbCntClr n v, Obj.fbCntClr n.val), (.ovenCntClr n v, Obj.ovenCntClr n.val),
        (.protCntClr n v, Obj.protCntClr n.val), (.logClr v, Obj.logClr), (.injCntClr v, Obj.injCntClr),
        (.ethCntClr v, Obj.ethCntClr), (.ppCntClr v, Obj.ppCntClr), (.mlCntClr v, Obj.mlCntClr),
        (.supplyFlagsClear v, Obj.supplyFlags), (.satFlagsClear k v, Obj.satFlags k.val), (.idxArm n v, Obj.idxArm n.val),
        (.idxModeWrite n v, Obj.idxMode n.val), (.fbModeWrite n d v, if d then Obj.fbDirInv n.val else Obj.fbMode n.val),
        (.evtConfigWrite n x d v, if d then Obj.evtPresc n.val x.val else Obj.evtSrc n.val x.val),
        (.grpLoavesWrite n v, Obj.grpLoaves n.val), (.tuIncWrite u v, Obj.tuInc u.val), (.tuLoad u v, Obj.tuLoad u.val),
        (.hbNet v, Obj.hbNet), (.listTrigWrite l v, Obj.listTrig l.val), (.manGo v, Obj.manGo), (.ppAbort v, Obj.ppAbort),
        (.attestNonce v, Obj.attestNonce)],
      s.judge (writeWords p.2 v).1 (writeWords p.2 v).2 ≠ 0 →
        (∃ t' : State, exec p.1 s = .next t' ∧ Quiet (s.ignored (writeWords p.2 v).1 (s.judge (writeWords p.2 v).1 (writeWords p.2 v).2)) t'))
  ∧ (∀ (aw : Word) (reason : Nat) (s : State), reason = 1 ∨ reason = 2 ∨ reason = 3 ∨ reason = 4 ∨ reason = 5 ∨ reason = 6 →
    (s.ignored aw reason).rd Obj.ignLast = aw.toNat ∧ (s.ignored aw reason).rd Obj.ignLastReason = reason
    ∧ (s.rd Obj.ignoredWrites < 0xFFFFFFFF → (s.ignored aw reason).rd Obj.ignoredWrites = s.rd Obj.ignoredWrites + 1)
    ∧ ∀ a, a ∉ [Obj.ignLast, Obj.ignLastReason, Obj.ignoredWrites, Obj.ignNoobj, Obj.ignRo, Obj.ignRange, Obj.ignClassB,
      Obj.ignAbsent, Obj.ignState] → (s.ignored aw reason).rd a = s.rd a)
  ∧ (∀ (aw : Word) (vals : List Word) (s : State), s.askard = false ∨ s.mode = .boot → exec (.objectWrite aw vals) s = .next s)
  ∧ (∀ (r : ObjRow) (idx sub : Nat) (active : Bool) (v : Int) (s : State),
    (s.absent idx sub = true → s.reasonFor r idx sub active (some v) = 5)
    ∧ (s.absent idx sub = false → s.namesAbsent idx sub v = false → readOnly r idx sub active = true →
      s.reasonFor r idx sub active (some v) = 2)
    ∧ (s.absent idx sub = false → s.namesAbsent idx sub v = false → readOnly r idx sub active = false →
      s.refusedState idx sub v = true → s.reasonFor r idx sub active (some v) = 6)
    ∧ (∀ n, s.absent idx sub = false → s.namesAbsent idx sub v = false → readOnly r idx sub active = false →
      s.refusedState idx sub v = false → r.cls = .b → n ∈ s.classBLoaves idx sub v → s.isOffOpen n = false →
      s.reasonFor r idx sub active (some v) = 4)
    ∧ (s.absent idx sub = false → s.namesAbsent idx sub v = false → readOnly r idx sub active = false →
      s.refusedState idx sub v = false → r.cls ≠ .b → v < r.min ∨ r.max < v → s.reasonFor r idx sub active (some v) = 3))

/-- The clear objects (R17, R31, R48, R178, R210, R211, R249, R279, R318, R352, R373, R437, R456, R478): a taken write of 1 clears the
counters of its chapter and nothing else, and where region C holds them its `OBJ_WR` packet is on its way there.
A clear object of a unit the module has is taken in every state from CONFIG on, SAFE among them (R170).
Completes, by a clause of its own for each: `peelStatsClr`, `ignClr`, `cmdCntClr`, `streamCntClr`, `pwmCntClr`, `tripCntClr`, `convCntClr`,
`fbCntClr`, `ovenCntClr`, `protCntClr`, `logClr`, `injCntClr`, `ethCntClr`, `ppCntClr`, `mlCntClr`. -/
def Obligations.ClearObjects : Prop :=
  (∀ (n : Fin 4) (k : Fin 6) (s : State),
    (Taken Obj.peelStatsClr 1 s → (∃ t' : State, exec (.peelStatsClr 1) s = .next t' ∧ Quiet (s.clear [Obj.peelCrcC, Obj.peelCrcM, Obj.peelRetx,
      Obj.peelRetrain, Obj.recDrop, Obj.peelCtlLatMax]) t'))
    ∧ (Taken Obj.ignClr 1 s → (∃ t' : State, exec (.ignClr 1) s = .next t' ∧ Quiet (s.clear [Obj.ignoredWrites, Obj.ignNoobj, Obj.ignRo, Obj.ignRange,
      Obj.ignClassB, Obj.ignAbsent, Obj.ignState, Obj.ignLast, Obj.ignLastReason]) t'))
    ∧ (Taken Obj.cmdCntClr 1 s → (∃ t' : State, exec (.cmdCntClr 1) s = .next t'
        ∧ Quiet (s.clear [Obj.cmdTaken, Obj.cmdRefused, Obj.cmdLastRefused]) t'))
    ∧ (Taken Obj.streamCntClr 1 s → (∃ t' : State, exec (.streamCntClr 1) s = .next t' ∧ Quiet (s.clear ((List.range 8).map Obj.subSent
      ++ (List.range 8).map Obj.subDropped)) t'))
    ∧ (Taken (Obj.pwmCntClr n.val) 1 s → (∃ t' : State, exec (.pwmCntClr n 1) s = .next t'
        ∧ Quiet ((s.clear [Obj.lateCount n.val, Obj.cycleTrips n.val]).sends confSrc (Obj.pwmCntClr n.val) 1) t'))
    ∧ (Taken Obj.tripCntClr 1 s → (∃ t' : State, exec (.tripCntClr 1) s = .next t'
        ∧ Quiet ((s.clear ((List.range 16).map Obj.tripCount)).sends confSrc Obj.tripCntClr 1) t'))
    ∧ (Taken (Obj.convCntClr k.val) 1 s → (∃ t' : State, exec (.convCntClr k 1) s = .next t'
        ∧ Quiet ((s.clear [Obj.injOverrun k.val, Obj.lateSamples k.val,
      Obj.incomplete k.val]).sends confSrc (Obj.convCntClr k.val) 1) t'))
    ∧ (Taken (Obj.fbCntClr n.val) 1 s → (∃ t' : State, exec (.fbCntClr n 1) s = .next t' ∧ Quiet ((s.clear ([Obj.illegalCnt n.val, Obj.idxCnt n.val,
      Obj.slipCnt n.val, Obj.serErrCnt n.val] ++ (if n.val = 0 then [Obj.scAdj 0] else []))).sends confSrc (Obj.fbCntClr n.val) 1) t'))
    ∧ (Taken (Obj.ovenCntClr n.val) 1 s → (∃ t' : State, exec (.ovenCntClr n 1) s = .next t'
        ∧ Quiet ((s.clear [Obj.heldFrames n.val, Obj.vlimFrames n.val]).sends confSrc (Obj.ovenCntClr n.val) 1) t'))
    ∧ (Taken (Obj.protCntClr n.val) 1 s → (∃ t' : State, exec (.protCntClr n 1) s = .next t'
        ∧ Quiet ((s.clear [Obj.ocPeak n.val, Obj.desatCount n.val,
      Obj.ocCount n.val, Obj.slopeCount n.val, Obj.openCount n.val]).sends confSrc (Obj.protCntClr n.val) 1) t'))
    ∧ (Taken Obj.logClr 1 s → (∃ t' : State, exec (.logClr 1) s = .next t' ∧ Quiet (s.modFlt (fun f => { f with vlog := [] })) t'))
    ∧ (Taken Obj.injCntClr 1 s → (∃ t' : State, exec (.injCntClr 1) s = .next t' ∧ Quiet (s.clear [Obj.injCount, Obj.injCoinc]) t'))
    ∧ (Taken Obj.ethCntClr 1 s → (∃ t' : State, exec (.ethCntClr 1) s = .next t'
        ∧ Quiet (s.clear ((List.range 2).map Obj.ethRx ++ (List.range 2).map Obj.ethTx
      ++ (List.range 3).map Obj.ethDrops ++ (List.range 2).map Obj.ethFcsErr ++ [Obj.tcUnmatched])) t'))
    ∧ (Taken Obj.ppCntClr 1 s → (∃ t' : State, exec (.ppCntClr 1) s = .next t' ∧ Quiet (s.clear ((List.range 2).map Obj.listOverrun
      ++ (List.range 10).map Obj.prdyToCnt)) t'))
    ∧ (Taken Obj.mlCntClr 1 s → (∃ t' : State, exec (.mlCntClr 1) s = .next t'
        ∧ Quiet (s.clear [Obj.mlCrcErr, Obj.mlLost, Obj.mlRetrain, Obj.mlLatMax,
      Obj.failovers]) t')))
  ∧ (∀ (n : Fin 4) (k : Fin 6) (s : State), s.askard = true → s.mode ≠ .boot → s.has n.val = true → s.hasConv k.val = true →
    ∀ a ∈ [Obj.peelStatsClr, Obj.ignClr, Obj.cmdCntClr, Obj.streamCntClr, Obj.pwmCntClr n.val, Obj.tripCntClr,
      Obj.convCntClr k.val, Obj.fbCntClr n.val, Obj.ovenCntClr n.val, Obj.protCntClr n.val, Obj.logClr, Obj.injCntClr,
      Obj.ethCntClr, Obj.ppCntClr, Obj.mlCntClr], Taken a 1 s)

/-- Writes that clear flags or act (R17, R31, R86, R208, R228, R252, R261, R322, R323, R368, R430, R431, R449, R451, R452, R500).
Completes, by a clause of its own for each: `supplyFlagsClear`, `satFlagsClear`, `idxArm`, `idxModeWrite`, `fbModeWrite`, `evtConfigWrite`,
`grpLoavesWrite`, `tuIncWrite`, `tuLoad`, `hbNet`, `listTrigWrite`, `manGo`, `ppAbort`, `attestNonce`, `attestationFormed`. -/
def Obligations.ActingWrites : Prop :=
(∀ (v : Int) (s : State), Taken Obj.supplyFlags v s →
    (∃ t' : State, exec (.supplyFlagsClear v) s = .next t'
        ∧ Quiet (s.wr Obj.supplyFlags ((s.rdN Obj.supplyFlags &&& (65535 ^^^ v.toNat) : Nat) : Int)) t'))
  ∧ (∀ (k : Fin 6) (v : Int) (s : State), Taken (Obj.satFlags k.val) v s →
    (∃ t' : State, exec (.satFlagsClear k v) s = .next t' ∧ Quiet ((s.wr (Obj.satFlags k.val)
      ((s.rdN (Obj.satFlags k.val) &&& (65535 ^^^ v.toNat) : Nat) : Int)).sends confSrc (Obj.satFlags k.val) v) t'))
  ∧ (∀ (n : Fin 4) (s : State), Taken (Obj.idxArm n.val) 1 s →
    (∃ t' : State, exec (.idxArm n 1) s = .next t' ∧ Quiet ((s.modFb n (fun f => { f with armed := true })).sends confSrc (Obj.idxArm n.val) 1) t'))
  ∧ (∀ (n : Fin 4) (v : Int) (s : State), Taken (Obj.idxMode n.val) v s →
    (∃ t' : State, exec (.idxModeWrite n v) s = .next t'
        ∧ Quiet (((s.wr (Obj.idxMode n.val) v).modFb n (fun f => { f with armed := false })).sends confSrc
      (Obj.idxMode n.val) v) t'))
  ∧ (∀ (n : Fin 4) (v : Int) (s : State),
    (Taken (Obj.fbMode n.val) v s → (∃ t' : State, exec (.fbModeWrite n false v) s = .next t'
        ∧ Quiet (((s.wr (Obj.fbMode n.val) v).fbRestart n).sends confSrc (Obj.fbMode n.val) v) t'))
    ∧ (Taken (Obj.fbDirInv n.val) v s → (∃ t' : State, exec (.fbModeWrite n true v) s = .next t'
        ∧ Quiet (((s.wr (Obj.fbDirInv n.val) v).fbRestart n).sends confSrc (Obj.fbDirInv n.val) v) t')))
  ∧ (∀ (n : Fin 4) (x : Fin 3) (v : Int) (s : State),
    (Taken (Obj.evtSrc n.val x.val) v s → (∃ t : State, exec (.evtConfigWrite n x false v) s = .next t
        ∧ Quiet ((((s.pwmTo n).wr (Obj.evtSrc n.val x.val) v).modLoaf n (fun l => { l with
        evtCount := ([0, 1, 2].map (fun i => l.evtCount.getD i 0)).set x.val 0 })).sends confSrc (Obj.evtSrc n.val x.val) v) t
            ∧ t.rd (Obj.evtSrc n.val x.val) = v ∧ (t.loaf.get n).evtCount.getD x.val 0 = 0))
    ∧ (Taken (Obj.evtPresc n.val x.val) v s → (∃ t : State, exec (.evtConfigWrite n x true v) s = .next t
        ∧ Quiet ((((s.pwmTo n).wr (Obj.evtPresc n.val x.val) v).modLoaf n (fun l => { l with
        evtCount := ([0, 1, 2].map (fun i => l.evtCount.getD i 0)).set x.val 0 })).sends confSrc (Obj.evtPresc n.val x.val) v) t
            ∧ t.rd (Obj.evtPresc n.val x.val) = v ∧ (t.loaf.get n).evtCount.getD x.val 0 = 0)))
  ∧ (∀ (g : Fin 4) (v : Int) (s : State), Taken (Obj.grpLoaves g.val) v s →
    (∃ t' : State, exec (.grpLoavesWrite g v) s = .next t'
        ∧ Quiet (((s.wr (Obj.grpLoaves g.val) v).bindLoaves g v).sends confSrc (Obj.grpLoaves g.val) v) t'))
  ∧ (∀ (u : Fin 7) (v : Int) (s : State), Taken (Obj.tuInc u.val) v s → (∃ t' : State, exec (.tuIncWrite u v) s = .next t'
      ∧ Quiet (s.wr (Obj.tuInc u.val) v) t'))
  ∧ (∀ (u : Fin 7) (s : State), Taken (Obj.tuLoad u.val) 1 s →
    (∃ t' : State, exec (.tuLoad u 1) s = .next t' ∧ Quiet (s.modTime (fun t => { t with unitPending := t.unitPending.set u.val true })) t'))
  ∧ (∀ (v : Int) (s : State), Taken Obj.hbNet v s → s.rd Obj.hbNet ≠ v → s.rdBit Obj.hbSrc 1 = true →
    (∃ t' : State, exec (.hbNet v) s = .next t' ∧ Quiet ((s.wr Obj.hbNet v).modFlt (fun f => { f with
      lastBeat := s.time.now, hbSaid := false, hbArmed := decide (s.rd Obj.hbTimeout ≠ 0) })) t'))
  ∧ (∀ (v : Int) (s : State), Taken Obj.hbNet v s → s.rd Obj.hbNet = v ∨ s.rdBit Obj.hbSrc 1 = false →
    (∃ t' : State, exec (.hbNet v) s = .next t' ∧ Quiet (s.wr Obj.hbNet v) t'))
  ∧ (∀ (l : Fin 2) (v : Int) (s : State), Taken (Obj.listTrig l.val) v s →
    (∃ t' : State, exec (.listTrigWrite l v) s = .next t' ∧ Quiet ((s.wr (Obj.listTrig l.val) v).modPp (fun p =>
      if l.val = 0 then { p with evt0 := 0, trig0 := s.time.now } else { p with evt1 := 0, trig1 := s.time.now })) t'))
  ∧ (∀ s : State, Taken Obj.manGo 1 s →
    (∃ t' : State, exec (.manGo 1) s = .next t' ∧ Quiet ((s.modPp (fun p => { p with manual := true })).wr Obj.manStat 0x4000) t'))
  ∧ (∀ s : State, Taken Obj.ppAbort 1 s → (∃ t' : State, exec (.ppAbort 1) s = .next t' ∧ Quiet (s.ppEarly 1) t'))
  ∧ (∀ (v : Int) (s : State), Taken Obj.attestNonce v s → (∃ t' : State, exec (.attestNonce v) s = .next t'
      ∧ Quiet ((s.wr Obj.attestNonce v).modSec (fun x =>
      if x.attest.isSome then { x with attestNext := some v.toNat } else { x with attest := some v.toNat })) t'))
  ∧ (∀ (signature : List Byte) (n : Nat) (s : State), s.askard = true → s.sec.attest = some n →
    exec (.attestationFormed signature) s = .next ((s.setBlob Obj.attest (s.attestBody n ++ slice signature 0 64)).modSec (fun x =>
      { x with attest := x.attestNext, attestNext := none })))

/-- `OPEN_CMP` (R191): the words of one command are stored, and form one commit of a loaf that is OPEN with the words it does not
name as they stand; each word's packet is on its way to region C (R17, R31).
Completes, by a clause of its own for each: `openCmpWrite`. -/
def Obligations.OpenCompareWrites : Prop :=
∀ (n : Fin 4) (u v w : Option Int) (a b c : Int) (s : State), s.askard = true → s.mode ≠ .boot → s.mode ≠ .safe →
    s.has n.val = true → u ≠ none ∨ v ≠ none ∨ w ≠ none → (∀ x, u = some x ∨ v = some x ∨ w = some x → 0 ≤ x ∧ x ≤ 0x7FFFFF) →
    a = u.getD (s.rd (Obj.openCmp n.val 0)) → b = v.getD (s.rd (Obj.openCmp n.val 1)) → c = w.getD (s.rd (Obj.openCmp n.val 2)) →
    ∃ x : State, exec (.openCmpWrite n u v w) s = .next x.settle ∧ x.rd (Obj.openCmp n.val 0) = a ∧ x.rd (Obj.openCmp n.val 1) = b
      ∧ x.rd (Obj.openCmp n.val 2) = c ∧ ObjsKept [Obj.openCmp n.val 0, Obj.openCmp n.val 1, Obj.openCmp n.val 2] s x
      ∧ ((s.loaf.get n).st = .open_ → x.loaf = s.loaf.set n { s.loaf.get n with
        shadow := (a, b, c), commits := (s.loaf.get n).commits ++ [{ cmp := (a, b, c), landed := s.time.now }] })
      ∧ ((s.loaf.get n).st ≠ .open_ → x.loaf = s.loaf)
      ∧ { x with objs := s.objs, loaf := s.loaf, cmd := { x.cmd with carried := s.cmd.carried }
                 peelM := { x.peelM with waiting := s.peelM.waiting } } = s
      ∧ x.peelM.waiting.length = s.peelM.waiting.length + ([u, v, w].filter Option.isSome).length

/-- `OBJECT_WRITE` (R151, R170): a taken write of an RW object without effects of its own and outside the banks puts its value.
Completes, by a clause of its own for each: `objectWrite`. -/
def Obligations.ObjectWrites : Prop :=
∀ (aw : Word) (vals : List Word) (r : ObjRow) (v : Int) (s : State), s.askard = true → s.mode ≠ .boot → s.judge aw vals = 0 →
    objRow (awAddr aw / 0x100) (awAddr aw % 0x100) = some r → r.acc = .rw → r.cls = .none → decodeValue (awType aw) vals = some v →
    0x8000 ≤ awAddr aw / 0x100 → awAddr aw / 0x100 ∉ [0x8100, 0x9000, 0x9030, 0xB005] →
    (∃ t : State, exec (.objectWrite aw vals) s = .next t ∧ Quiet (s.wr (awAddr aw) v) t ∧ t.rd (awAddr aw) = v
        ∧ ∀ a, a ≠ awAddr aw → a ∉ collectorObjs →
      t.rd a = s.rd a)

/-! ## Chapter 1: the Peel link -/

/-- Reception (R30, R35, R38, R39). A packet that arrives at a region takes the packets it acknowledges out of the window, and,
where it is sequenced, is the next of the sequence and makes an acknowledgement due; nothing else changes but the highest CTL
latency. One that is not the next of the sequence is dropped, and an acknowledgement becomes due. A packet that is too long, comes before training or reaches a region that is down changes nothing; of one whose CRC
fails only the error is counted, and a `NAK` becomes due.
Completes, by a clause of its own for each: `peelAck`, `peelTrain`, `objRsp`, `cmdRsp`. -/
def Obligations.PacketsReceived : Prop :=
(∀ (r : Region) (k : PktKind) (p : Packet) (s : State), Arrives r k p s →
    ((s.linked r k p).peel r).unacked = (s.peel r).unacked.drop (ackedBy (s.peel r) p.ackseq)
    ∧ ((s.linked r k p).peel r).expect = (if pktSequenced p then ((s.peel r).expect + 1) % 256 else (s.peel r).expect)
    ∧ ((s.linked r k p).peel r).ackDue = (pktSequenced p || (s.peel r).ackDue)
    ∧ ((s.linked r k p).peel r).nakDue = (s.peel r).nakDue ∧ ((s.linked r k p).peel r).waiting = (s.peel r).waiting
    ∧ (r = .m → (s.linked r k p).peelM.timedOut = false
      ∧ (s.linked r k p).peelM.timer = s.peelM.timer.map (fun _ => s.time.now))
    ∧ (r = .c → (s.linked r k p).peelC.timedOut = s.peelC.timedOut ∧ (s.linked r k p).peelC.timer = s.peelC.timer)
    ∧ ObjsKept [Obj.peelCtlLatMax] s (s.linked r k p)
    ∧ { s.linked r k p with peelC := s.peelC, peelM := s.peelM, objs := s.objs } = s)
  ∧ (∀ (r : Region) (k : PktKind) (p : Packet) (s : State), s.boot.peelTrained = true → s.endUp r = true →
    p.payload.length ≤ 64 → p.crc = crc16 (pktBody p) → p.clsTyp = k.head → pktSequenced p = true →
    p.seq.toNat ≠ (s.peel r).expect →
    (s.peelRx r k p).1 = false ∧ ((s.linked r k p).peel r).ackDue = true
    ∧ ((s.linked r k p).peel r).expect = (s.peel r).expect ∧ { s.linked r k p with peelC := s.peelC, peelM := s.peelM } = s)
  ∧ (∀ (r : Region) (p : Packet) (s : State), Arrives r .ack p s → exec (.peelAck r p) s = .next (s.linked r .ack p))
  ∧ (∀ (r : Region) (p : Packet) (s : State), Arrives r .train p s → exec (.peelTrain r p) s = .next (s.linked r .train p))
  ∧ (∀ (p : Packet) (s : State), Arrives .m .objRsp p s → exec (.objRsp p) s = .next (s.linked .m .objRsp p))
  ∧ (∀ (p : Packet) (s : State), Arrives .m .cmdRsp p s → (∃ t' : State, exec (.cmdRsp p) s = .next t' ∧ Quiet (s.linked .m .cmdRsp p) t'))
  ∧ (∀ (r : Region) (p : Packet) (s : State), s.boot.peelTrained = false ∨ s.endUp r = false ∨ 64 < p.payload.length →
    ∀ c ∈ [Instr.peelAck r p, .peelNak r p, .peelTrain r p], exec c s = .next s)
  ∧ (∀ (p : Packet) (s : State), s.boot.peelTrained = false ∨ s.endUp .m = false ∨ 64 < p.payload.length →
    ∀ c ∈ [Instr.event p, .peelRecord p, .peelCapture p, .objRsp p, .cmdRsp p, .faultPacketEvent p], exec c s = .next s)
  ∧ (∀ (p : Packet) (s : State), s.boot.peelTrained = false ∨ s.endUp .c = false ∨ 64 < p.payload.length →
    ∀ c ∈ [Instr.objWr p, .objRd p, .cmd p], exec c s = .next s)
  ∧ (∀ (p : Packet) (s : State), s.boot.peelTrained = true → s.endUp .c = true → p.payload.length ≤ 64 →
    p.crc ≠ crc16 (pktBody p) →
    ∀ c ∈ [Instr.peelAck .c p, .peelNak .c p, .peelTrain .c p, .objWr p, .objRd p, .cmd p],
      exec c s = .next ((s.bumpOpen Obj.peelCrcC).modPeel .c (fun e => { e with nakDue := true })))
  ∧ (∀ (p : Packet) (s : State), s.boot.peelTrained = true → s.endUp .m = true → p.payload.length ≤ 64 →
    p.crc ≠ crc16 (pktBody p) →
    ∀ c ∈ [Instr.peelAck .m p, .peelNak .m p, .peelTrain .m p, .event p, .peelRecord p, .peelCapture p, .objRsp p, .cmdRsp p,
        .faultPacketEvent p],
      exec c s = .next ((s.bumpOpen Obj.peelCrcM).modPeel .m (fun e => { e with nakDue := true })))

/-- A grant slot (R31 to R33, R35, R40): a due `NAK` goes first, then what is retransmitted, then, of the packets that may leave
within the limits of their rows, retransmissions among them, one of the class that stands highest in the order CTL, DAT, MGT (in region C `RECORD` before `CAPTURE`); an
acknowledgement that nothing carries leaves when nothing else does. Every packet that leaves carries the acknowledgement due.
Completes, by a clause of its own for each: `peelTxGrant`. -/
def Obligations.GrantOrder : Prop :=
∀ (r : Region) (s : State), s.boot.peelTrained = true → s.endUp r = true →
    (∃ t : State, exec (.peelTxGrant r) s = .next t ∧ ((s.peel r).nakDue = true → s.bwRoom r (pkt .nak []) = true →
        (t.peel r).nakDue = false ∧ (t.peel r).unacked = (s.peel r).unacked
        ∧ ∃ q, (t.peel r).sent = some q ∧ q.clsTyp = PktKind.nak.head ∧ q.ackseq = BitVec.ofNat 8 (s.peel r).expect)
      ∧ (∀ p rest, (s.peel r).nakDue = false ∨ s.bwRoom r (pkt .nak []) = false → (s.peel r).resend = p :: rest →
        s.bwRoom r p = true → (t.peel r).resend = rest ∧ (s.rd Obj.peelRetx < 0xFFFFFFFF → t.rd Obj.peelRetx = s.rd Obj.peelRetx + 1)
        ∧ (t.peel r).unacked = (s.peel r).unacked
        ∧ ∃ q, (t.peel r).sent = some q ∧ q.clsTyp = p.clsTyp ∧ q.seq = BitVec.ofNat 8 p.seq.toNat ∧ q.crc = crc16 (pktBody q))
      ∧ ((s.peel r).nakDue = false ∨ s.bwRoom r (pkt .nak []) = false → (s.peel r).resend = [] → s.peelReady r ≠ [] →
        (∀ w ∈ s.peelReady r, w.1 < arbSources r) →
        ∃ q, (t.peel r).sent = some q ∧ (∃ w ∈ s.peelReady r, w.2.1.clsTyp = q.clsTyp)
          ∧ (∀ w ∈ s.peelReady r, pktRank q ≤ pktRank w.2.1) ∧ q.crc = crc16 (pktBody q) ∧ (t.peel r).ackDue = false
          ∧ (pktSequenced q = true → (t.peel r).unacked = (s.peel r).unacked ++ [q]
            ∧ (t.peel r).nextSeq = ((s.peel r).nextSeq + 1) % 256))
      ∧ ((s.peel r).nakDue = false ∨ s.bwRoom r (pkt .nak []) = false →
        ((s.peel r).resend = [] ∧ s.peelReady r = []) ∨ (∃ p rest, (s.peel r).resend = p :: rest ∧ s.bwRoom r p = false) →
        ((s.peel r).ackDue = true → s.bwRoom r (pkt .ack []) = true →
          (t.peel r).ackDue = false ∧ ∃ q, (t.peel r).sent = some q ∧ q.clsTyp = PktKind.ack.head)
        ∧ ((s.peel r).ackDue = false ∨ s.bwRoom r (pkt .ack []) = false → t = s)))

/-- Retransmission, training and the timers of the link (R35 to R37, R39, R99, R378): a `NAK` and the timeout send the sender
back to its first unacknowledged packet; the retrain is counted and keeps what is unacknowledged; a region that hears nothing
drops its power stages and reports 0x9801, region M in a `FAULT` packet (R365).
Control packets (R21, R38, R209, R367, R452): `HEARTBEAT` and `SYNC` enter the transmit queue of region M as CTL packets;
a `HEARTBEAT` received starts region C's timer again; an `EVENT` received counts for the lists its loaf triggers.
Completes, by a clause of its own for each: `peelNak`, `peelRetxTimeout`, `peelRetrain`, `peelTimeout`, `heartbeatSend`, `syncSend`,
`heartbeat`, `sync`, `event`. -/
def Obligations.LinkTimersAndControl : Prop :=
  (∀ (r : Region) (p : Packet) (s : State), Arrives r .nak p s →
    (∃ t : State, exec (.peelNak r p) s = .next t ∧ t = (s.linked r .nak p).peelBack r ∧ (t.peel r).resend = (t.peel r).unacked
      ∧ (t.peel r).unacked = ((s.linked r .nak p).peel r).unacked))
  ∧ (∀ (r : Region) (s : State), s.boot.peelTrained = true → (s.peel r).unacked ≠ [] →
    exec (.peelRetxTimeout r) s = .next ((s.atT ((s.peel r).waitT + 5 * usCycles)).peelBack r))
  ∧ (∀ s : State, 16 ≤ s.peelC.retxRun ∨ 16 ≤ s.peelM.retxRun →
    (∃ t : State, exec .peelRetrain s = .next t ∧ (s.rd Obj.peelRetrain < 0xFFFFFFFF → t.rd Obj.peelRetrain = s.rd Obj.peelRetrain + 1)
      ∧ t.peelC = { s.peelC with resend := s.peelC.unacked, retxRun := 0, waitT := s.time.now }
      ∧ t.peelM = { s.peelM with resend := s.peelM.unacked, retxRun := 0, waitT := s.time.now } ∧ ObjsKept [Obj.peelRetrain] s t
      ∧ { t with peelC := s.peelC, peelM := s.peelM, objs := s.objs } = s))
  ∧ (∀ (t0 : Nat) (s : State), s.peelC.timer = some t0 → s.regionUp = true →
    ∃ u : State, (∃ t' : State, exec (.peelTimeout .c) s = .next t' ∧ Quiet u t'
        ∧ (u.raisable 0x9801 0 = true → (u.classOf 0x9801).1 ≠ .c0 → t'.isPending 0x9801 0 = true)) ∧ u.peelC.timedOut = true
        ∧ u.boot.resetOnly = true
      ∧ u.time.now = max s.time.now (t0 + 2 * msCycles + 1) ∧ AllOff u)
  ∧ (∀ (t0 : Nat) (s : State), s.peelM.timer = some t0 → s.askard = true →
    ∃ u : State, (∃ t : State, exec (.peelTimeout .m) s = .next t ∧ Quiet u t ∧ (0x9801, 1, 0) ∈ t.flt.mRep) ∧ u.peelM.timedOut = true
        ∧ u.boot.resetOnly = true
      ∧ u.time.now = max s.time.now (t0 + 2 * msCycles + 1) ∧ AllOff u)
  ∧ (∀ (r : Region) (s : State), (s.peel r).timer = none → exec (.peelTimeout r) s = .next s)
  ∧ (∀ s : State, s.askard = true → s.boot.wdtHit = false → s.boot.mgtHit = false → (∃ t : State, exec .heartbeatSend s = .next t
      ∧ t.peelM.waiting = s.peelM.waiting ++ [(0, pkt .heartbeat (leBytes 4 s.host.hbModule.toNat), s.time.now)]
    ∧ { t with peelM := s.peelM } = s))
  ∧ (∀ s : State, s.boot.wdtHit = true ∨ s.boot.mgtHit = true → exec .heartbeatSend s = .next s)
  ∧ (∀ s : State, s.askard = true → (∃ t : State, exec .syncSend s = .next t ∧ (∃ q, t.peelM.waiting = s.peelM.waiting ++ [(0, q, s.time.now)]
      ∧ q.clsTyp = PktKind.sync.head)
    ∧ { t with peelM := s.peelM } = s))
  ∧ (∀ (p : Packet) (t : Nat) (s : State), Arrives .c .heartbeat p (s.atT t) →
    ∃ u : State, (∃ t' : State, exec (.heartbeat p t) s = .next t' ∧ Quiet u t') ∧ u.boot.hbSeen = true ∧ u.peelC.timedOut = false
      ∧ u.peelC.timer = some (s.atT t).time.now ∧ u.peelM.timer = some (s.peelM.timer.getD (s.atT t).time.now)
      ∧ u.flt.mgtBeat = some (s.atT t).time.now ∧ ObjsKept [Obj.mgtHbMax, Obj.peelCtlLatMax] s u)
  ∧ (∀ (p : Packet) (t : Nat) (s : State), Arrives .c .sync p (s.atT t) →
    (∃ u : State, exec (.sync p t) s = .next u ∧ ∀ n ∈ ((s.atT t).linked .c .sync p).unitsHere,
      u.rd (Obj.tuOfs n) = (((s.atT t).linked .c .sync p).unitSync (syncTime p + (s.atT t).syncDelay p) n).rd (Obj.tuOfs n)))
  ∧ (∀ (p : Packet) (s : State), Arrives .m .event p s →
    (∃ t : State, exec (.event p) s = .next t ∧ t.objs = (s.linked .m .event p).objs ∧
      t.pp.evt0 = s.pp.evt0 + (if s.rd (Obj.listTrig 0) = 1 ∧ s.rdN (Obj.listLoaf 0) = leAt p.payload 1 1 then 1 else 0)
      ∧ t.pp.evt1 = s.pp.evt1 + (if s.rd (Obj.listTrig 1) = 1 ∧ s.rdN (Obj.listLoaf 1) = leAt p.payload 1 1 then 1 else 0)))

/-- Data and management packets (R17 to R19, R31, R143, R159, R172, R303): a record leaves its queue for the subscriptions,
captured data goes to the `CAPTURE_READ` that waits for it, a write is taken where the eight reasons of R170 let it, a read is
answered by `OBJ_RSP`, a command by `CMD_RSP`. A packet of a command that has taken its effect already changes nothing more
(assumption 28).
Completes, by a clause of its own for each: `peelRecord`, `peelCapture`, `objWr`, `objRd`, `cmd`. -/
def Obligations.DataPackets : Prop :=
(∀ (p : Packet) (s : State), Arrives .m .record p s →
    (∃ t : State, exec (.peelRecord p) s = .next t ∧ ∀ n : Fin 4, n.val = leAt p.payload 8 1 % 4 →
      ((s.oven.get n).queue.head? = some p.payload → (t.oven.get n).queue = (s.oven.get n).queue.drop 1)
      ∧ ((s.oven.get n).queue.head? ≠ some p.payload → (t.oven.get n).queue = (s.oven.get n).queue)
      ∧ (∀ m : Fin 4, m ≠ n → t.oven.get m = s.oven.get m)))
  ∧ (∀ (p : Packet) (s : State) (src : Source) (n : Nat) (live : Bool) (rest : List (Source × Nat × Bool)),
    Arrives .m .capture p s → s.cmd.capReads = (src, n, live) :: rest →
    (∃ t : State, exec (.peelCapture p) s = .next t ∧ ((s.cmd.capRx ++ p.payload).length < n → t.cmd.capRx = s.cmd.capRx ++ p.payload
        ∧ t.cmd.capReads = s.cmd.capReads)
      ∧ (n ≤ (s.cmd.capRx ++ p.payload).length → t.cmd.capRx = [] ∧ t.cmd.capReads = rest
        ∧ (∀ j, live = true → s.jobOf src = some j → Answered src 0 j.tag
          (BitVec.ofInt 32 (s.rd Obj.capLen) :: bytesToWords (slice (s.cmd.capRx ++ p.payload) 0 n)) s t))))
  ∧ (∀ (p : Packet) (s : State) (aw : Word) (vals : List Word), Arrives .c .objWr p s → pktWords p = aw :: vals →
    ((p.clsTyp, p.payload) ∈ s.cmd.carried → exec (.objWr p) s = .next ((s.linked .c .objWr p).modCmd (fun c => { c with
      carried := c.carried.erase (p.clsTyp, p.payload) })))
    ∧ ((p.clsTyp, p.payload) ∉ s.cmd.carried → (s.linked .c .objWr p).judge aw vals ≠ 0 ∨ regionC (awAddr aw / 0x100) = false →
      (∃ t' : State, exec (.objWr p) s = .next t' ∧ Quiet (s.linked .c .objWr p) t'))
    ∧ (∀ (r : ObjRow) (v : Int), (p.clsTyp, p.payload) ∉ s.cmd.carried → (s.linked .c .objWr p).judge aw vals = 0 → regionC (awAddr aw / 0x100) = true →
      objRow (awAddr aw / 0x100) (awAddr aw % 0x100) = some r → decodeValue (awType aw) vals = some v →
      (∃ t' : State, exec (.objWr p) s = .next t' ∧ Quiet ((s.linked .c .objWr p).takeWrite (.mb 1) r (awAddr aw / 0x100) (awAddr aw % 0x100) v) t')))
  ∧ (∀ (p : Packet) (s : State) (aw : Word) (rest : List Word), Arrives .c .objRd p s → pktWords p = aw :: rest →
    (∃ t : State, exec (.objRd p) s = .next t ∧ ∃ q, t.peelC.waiting = s.peelC.waiting ++ [(0, q, s.time.now)]
      ∧ q.clsTyp = PktKind.objRsp.head ∧ q.payload = wordsToBytes (aw :: (s.linked .c .objRd p).getWords 5 aw)))
  ∧ (∀ (p : Packet) (s : State) (w : Word) (rest : List Word), Arrives .c .cmd p s → pktWords p = w :: rest →
    ∃ u q, (∃ t' : State, exec (.cmd p) s = .next t' ∧ Quiet u t') ∧ u.peelC.waiting = s.peelC.waiting ++ [(0, q, s.time.now)]
      ∧ q.clsTyp = PktKind.cmdRsp.head ∧ q.payload = wordsToBytes [respWord 0 (cmdTag w) 0]
      ∧ (cmdCode w ≠ cSwapBank ∨ (p.clsTyp, p.payload) ∈ s.cmd.carried → ∀ g, (u.grp.get g).swap = (s.grp.get g).swap)
      ∧ (cmdCode w = cSwapBank → (p.clsTyp, p.payload) ∉ s.cmd.carried → ∀ g, (pw rest 0).testBit g.val = true →
        (s.bound g).any (fun n => (s.loaf.get n).running) = true → (u.grp.get g).swap = true))

/-! ## Chapter 11: faults -/

/-- `FAULT` packets to region M (R358, R359, R363 to R366): the event on its way that the packet carries is logged and leaves; a packet that
carries none of them is rebuilt from its bytes. An event with reaction 5 or 6 tells region M of SAFE (R112).
The collector (R353 to R360, R369, R370, R372). A report of a code of the table is latched in its class: what is pending counts one
more occurrence, and what is not becomes pending, C0 codes excepted; a code outside the table, an instance with a reserved bit set
and a unit the module does not have are never raised.
Completes, by a clause of its own for each: `faultPacketEvent`, `nvLogWrite`, `auditLogWrite`, `faultLatch`. -/
def Obligations.FaultCollector : Prop :=
  (∀ (p : Packet) (e : Event) (s : State), Arrives .m .fault p s →
    s.flt.evtQ.find? (fun x => eventPayload x == p.payload) = some e →
    exec (.faultPacketEvent p) s =
      .next ((((s.linked .m .fault p).modFlt (fun f => { f with evtQ := f.evtQ.erase e })).logEvent e).learnEvent e))
  ∧ (∀ (p : Packet) (s : State), Arrives .m .fault p s → (∀ e ∈ s.flt.evtQ, eventPayload e ≠ p.payload) →
    exec (.faultPacketEvent p) s = .next (((s.linked .m .fault p).logEvent ((s.linked .m .fault p).rebuild p)).learnEvent
      ((s.linked .m .fault p).rebuild p)))
  ∧ (∀ (e : LogEntry) (rest : List LogEntry) (s : State), s.askard = true → s.flt.nvQ = e :: rest →
    (∃ t : State, exec .nvLogWrite s = .next t ∧ t.flt.nvQ = rest ∧ t.flt.nvlog = (e :: s.flt.nvlog).take 2048
      ∧ { t with flt := s.flt } = s ∧ t.flt.pend = s.flt.pend))
  ∧ (∀ (e : AuditEntry) (init : List AuditEntry) (s : State), s.askard = true → s.sec.auditQ = init ++ [e] →
    (∃ t : State, exec .auditLogWrite s = .next t ∧ t.sec.auditQ = init ∧ t.sec.audit = (e :: s.sec.audit).take 4096
      ∧ { t with sec := s.sec } = s ∧ t.sec.users = s.sec.users ∧ t.sec.session = s.sec.session))
  ∧ (∀ (code inst : Half) (data : Int) (t : Nat) (s : State), s.resetOver = true →
    (∃ t' : State, exec (.faultLatch code inst data t) s = .next t' ∧ Quiet (s.atT t) t'
        ∧ ((s.atT t).raisable code inst = true → ((s.atT t).classOf code).1 ≠ .c0 → t'.isPending code inst = true)))
  ∧ (∀ (code inst : Half) (data : Int) (t : Nat) (s : State), s.resetOver = true → s.raisable code inst = true →
    code ≠ 0x4403 → s.flt.inj = [] → s.isPending code inst = true →
    ∃ u : State, exec (.faultLatch code inst data t) s = .next u.settle
      ∧ u.flt.pend = s.flt.pend.map (fun p => if p.code == code && p.inst == inst then { p with occ := p.occ + 1 } else p)
      ∧ { u with flt := { u.flt with pend := s.flt.pend } } = s.atT t)
  ∧ (∀ (code inst : Half) (data : Int) (t : Nat) (s : State), s.raisable code inst = false →
    exec (.faultLatch code inst data t) s = .next (s.atT t))
  ∧ (∀ (code inst : Half) (s : State), codeRow code = none ∨ 256 ≤ inst.toNat → s.raisable code inst = false)
  ∧ (∀ (code inst : Half) (data : Int) (t : Nat) (s : State), s.resetOver = false →
    exec (.faultLatch code inst data t) s = .next (s.atT t))

/-- Grace windows (R358, R359): from the expiry on the fault is C3 and its reaction runs; an acknowledgement before the expiry
closes the window, so that it does not expire.
`FAULT` packets to the collector (R362, R365, R366, R369): a report is latched as it arrives; a clear removes what it names and
may clear, and nothing where any of it may not; an injection starts where the module can raise it, at most four at once; the packet
of a command that has taken its effect already brings no second one (assumption 28).
Completes, by a clause of its own for each: `graceExpiry`, `faultPacketAck`, `faultPacketReport`, `faultPacketClear`, `faultPacketInject`. -/
def Obligations.GraceAndFaultPackets : Prop :=
  (∀ (code inst : Half) (q : Pend) (e t : Nat) (s : State), s.flt.pend.find? (fun p => p.code == code && p.inst == inst) = some q →
    q.window = some e → e ≤ (s.atT t).time.now →
    ∃ u : State, exec (.graceExpiry code inst t) s = .next ((u.react q.react code inst).settle)
      ∧ u.flt.pend = s.flt.pend.map (fun p =>
        if p.code == code && p.inst == inst then { p with cls := .c3, ran := true, window := none } else p)
      ∧ u.loaf = s.loaf ∧ u.grp = s.grp ∧ u.safety = s.safety ∧ u.mode = s.mode)
  ∧ (∀ (code inst : Half) (q : Pend) (e t : Nat) (s : State), s.flt.pend.find? (fun p => p.code == code && p.inst == inst) = some q →
    q.window = some e → (s.atT t).time.now < e → exec (.graceExpiry code inst t) s = .next (s.atT t))
  ∧ (∀ (p : Packet) (q : Pend) (e t : Nat) (s : State), Arrives .c .fault p (s.atT t) → pktAction p = 1 →
    s.flt.pend.find? (fun x => x.code == pktCode p && x.inst == pktInst p) = some q → q.window = some e → (s.atT t).time.now < e →
    ∃ u : State, (∃ t' : State, exec (.faultPacketAck p t) s = .next t' ∧ Quiet u t')
      ∧ u.flt.pend = s.flt.pend.map (fun x => if x.code == pktCode p && x.inst == pktInst p then { x with window := none } else x)
      ∧ u.loaf = s.loaf ∧ u.grp = s.grp ∧ u.safety = s.safety ∧ u.mode = s.mode)
  ∧ (∀ (p : Packet) (t : Nat) (s : State), Arrives .c .fault p (s.atT t) → pktAction p = 1 →
    (∀ x ∈ s.flt.pend, x.code = pktCode p → x.inst ≠ pktInst p) →
    ∃ u : State, (∃ t' : State, exec (.faultPacketAck p t) s = .next t' ∧ Quiet u t') ∧ u.flt.pend = s.flt.pend
        ∧ u.flt.acks = s.flt.acks.erase (pktCode p, pktInst p))
  ∧ (∀ (p : Packet) (t : Nat) (s : State), Arrives .c .fault p (s.atT t) → pktAction p = 0 →
    ∃ u : State, (∃ t' : State, exec (.faultPacketReport p t) s = .next t' ∧ Quiet u t'
        ∧ (u.raisable (pktCode p) (pktInst p) = true → (u.classOf (pktCode p)).1 ≠ .c0 → t'.isPending (pktCode p) (pktInst p) = true))
        ∧ u.flt.pend = s.flt.pend)
  ∧ (∀ (p : Packet) (t : Nat) (s : State), Arrives .c .fault p (s.atT t) → pktAction p = 2 ∨ pktAction p = 3 ∨ pktAction p = 4 →
    (p.clsTyp, p.payload) ∈ s.cmd.carried →
    exec (if pktAction p = 2 then .faultPacketClear p t else .faultPacketInject p t) s =
      .next (((s.atT t).linked .c .fault p).modCmd (fun c => { c with carried := c.carried.erase (p.clsTyp, p.payload) })))
  ∧ (∀ (p : Packet) (t : Nat) (s : State), Arrives .c .fault p (s.atT t) → pktAction p = 2 → (p.clsTyp, p.payload) ∉ s.cmd.carried →
    (∀ x ∈ s.flt.pend, clearNames (pktCode p) (pktInst p) x.code x.inst = true →
      ((s.atT t).linked .c .fault p).resetOnlyCode x.code = false ∧ ((s.atT t).linked .c .fault p).persists x = false) →
    ∃ u x : State, exec (.faultPacketClear p t) s = .next u.settle ∧ u = x.fbFollow.faultToOff.leaveSafe
      ∧ x.flt.pend = s.flt.pend.filter (fun y => !clearNames (pktCode p) (pktInst p) y.code y.inst)
      ∧ x.mode = s.mode ∧ x.grp = s.grp)
  ∧ (∀ (p : Packet) (t : Nat) (x : Pend) (s : State), Arrives .c .fault p (s.atT t) → pktAction p = 2 →
    (p.clsTyp, p.payload) ∉ s.cmd.carried → x ∈ s.flt.pend →
    clearNames (pktCode p) (pktInst p) x.code x.inst = true →
    ((s.atT t).linked .c .fault p).resetOnlyCode x.code = true ∨ ((s.atT t).linked .c .fault p).persists x = true →
    exec (.faultPacketClear p t) s = .next ((s.atT t).linked .c .fault p))
  ∧ (∀ (p : Packet) (t : Nat) (s : State), Arrives .c .fault p (s.atT t) → pktAction p = 3 → s.flt.inj.length < 4 →
    (p.clsTyp, p.payload) ∉ s.cmd.carried → s.raisable (pktCode p) (pktInst p) = true → injectable (pktCode p) false = true →
    exec (.faultPacketInject p t) s = .next ((((s.atT t).linked .c .fault p).raiseDry (pktCode p) (pktInst p)).settle))
  ∧ (∀ (p : Packet) (t : Nat) (s : State), Arrives .c .fault p (s.atT t) → pktAction p = 4 → s.flt.inj.length < 4 →
    (p.clsTyp, p.payload) ∉ s.cmd.carried → s.raisable (pktCode p) (pktInst p) = true → injectable (pktCode p) true = true →
    exec (.faultPacketInject p t) s = .next ((((s.atT t).linked .c .fault p).raiseLive (pktCode p) (pktInst p)).settle))
  ∧ (∀ (p : Packet) (t : Nat) (s : State), Arrives .c .fault p (s.atT t) → pktAction p = 3 ∨ pktAction p = 4 →
    (p.clsTyp, p.payload) ∉ s.cmd.carried → 4 ≤ s.flt.inj.length → exec (.faultPacketInject p t) s = .next ((s.atT t).linked .c .fault p))



/-- Debug halts and heartbeats (R207, R367, R368): a halt stops every counter and puts every loaf in its Crust pattern, and its
end leaves the cause set; a host that misses its beat is counted, signalled and reported once; `BEAT` toggles while it may.
Completes, by a clause of its own for each: `debugHalt`, `haltNotification`, `haltEnd`, `hostHbTimeout`, `beatToggle`. -/
def Obligations.HaltsAndBeats : Prop :=
(∀ (t : Nat) (s : State), s.sec.unlocked = true → s.regionUp = true →
    ∃ u : State, (∃ t' : State, exec (.debugHalt t) s = .next t' ∧ Quiet u t'
        ∧ (u.raisable 0x8001 0 = true → (u.classOf 0x8001).1 ≠ .c0 → t'.isPending 0x8001 0 = true)) ∧ u.haltC = true ∧ u.rdBit Obj.haltCause 0 = true
      ∧ (∀ n, (u.loaf.get n).running = false ∧ u.crustForce n = true))
  ∧ (∀ (t : Nat) (s : State), s.sec.unlocked = false ∨ s.regionUp = false → exec (.debugHalt t) s = .next (s.atT t))
  ∧ (∀ (p : Packet) (t : Nat) (s : State), Arrives .c .fault p (s.atT t) → pktAction p = 5 → s.sec.unlocked = true →
    ∃ u : State, (∃ t' : State, exec (.haltNotification p t) s = .next t' ∧ Quiet u t'
        ∧ (u.raisable 0x8001 1 = true → (u.classOf 0x8001).1 ≠ .c0 → t'.isPending 0x8001 1 = true)) ∧ u.haltM = true ∧ u.rdBit Obj.haltCause 1 = true
      ∧ (∀ n, (u.loaf.get n).running = false ∧ u.crustForce n = true))
  ∧ (∀ s : State, (∃ t : State, exec .haltEnd s = .next t ∧ t.haltC = false ∧ t.haltM = false ∧ t.rd Obj.haltCause = s.rd Obj.haltCause
      ∧ (∀ n, t.crustForce n = s.crustForce n) ∧ { t with haltC := s.haltC, haltM := s.haltM } = s))
  ∧ (∀ (t0 : Nat) (s : State), s.askard = true → s.flt.hbArmed = true → s.rd Obj.hbTimeout ≠ 0 → s.flt.hbSaid = false →
    s.flt.lastBeat = some t0 → (∃ t : State, exec .hostHbTimeout s = .next t ∧ t.time.now = max s.time.now (t0 + s.rdN Obj.hbTimeout * msCycles + 1)
      ∧ t.flt.hbSaid = true ∧ t.host.irqFlags.getLsbD 13 = true
      ∧ (0xF401, 0, 0) ∈ t.flt.mRep ∧ (s.rd Obj.hbLateCount < 0xFFFFFFFF → t.rd Obj.hbLateCount = s.rd Obj.hbLateCount + 1)
      ∧ ObjsKept [Obj.hbLateCount] s t ∧ t.loaf = s.loaf ∧ t.grp = s.grp ∧ t.safety = s.safety ∧ t.mode = s.mode))
  ∧ (∀ s : State, s.flt.hbSaid = true ∨ s.flt.hbArmed = false ∨ s.rd Obj.hbTimeout = 0 ∨ s.askard = false
    ∨ s.flt.lastBeat = none → exec .hostHbTimeout s = .next s)
  ∧ (∀ (t : Nat) (s : State), s.regionUp = true → (s.atT t).beatOk = true → (s.atT t).beatDue = true →
    exec (.beatToggle t) s = .next ((s.atT t).modFlt (fun f => { f with beat := !f.beat, beatT := t })))
  ∧ (∀ (t : Nat) (s : State), s.regionUp = false ∨ (s.atT t).beatOk = false ∨ (s.atT t).beatDue = false →
    exec (.beatToggle t) s = .next (s.atT t))

/-! ## Chapter 9: the timers of a group -/

/-- The Starter's timers (R305, R306, R308): the alignment ends in the rotation, or in the polarity pulses of the sensorless
sequence, whose test the next group boundary after them judges; a test without a result, and a sequence that does not lock, raise 0x4C03.
Stall, stop and invalid speed (R296, R300, R309 to R312, R389): each timer raises its fault when its time has passed; the
holding time ends in the brake's demand, and the brake's delay in STOPPED with the loaves off.
Completes, by a clause of its own for each: `starterAlignEnd`, `starterTimeout`, `stallDetect`, `stallHoldExpiry`, `sbcDelayExpiry`,
`stopTimeout`, `spdInvalidTimeout`. -/
def Obligations.GroupTimers : Prop :=
  (∀ (g : Fin 4) (pol : Int) (t : Nat) (s : State), (s.atT t).aligning g = true →
    (s.atT t).elapsed g (s.grp.get g).startT (Obj.startAlign g.val) = true → s.rdN (Obj.starter g.val) ≠ 3 →
    (∃ t' : State, exec (.starterAlignEnd g pol t) s = .next t' ∧ Quiet ((s.atT t).modGrp g (fun x => { x with
      startPhase := 2, rotFrom := (s.atT t).measPos g, rotRevs := 0, rotN := 0 })) t'))
  ∧ (∀ (g : Fin 4) (pol : Int) (t : Nat) (s : State), (s.atT t).aligning g = true →
    (s.atT t).elapsed g (s.grp.get g).startT (Obj.startAlign g.val) = true → s.rdN (Obj.starter g.val) = 3 →
    (∃ t' : State, exec (.starterAlignEnd g pol t) s = .next t' ∧ Quiet ((s.atT t).modGrp g (fun x => { x with
      startPhase := 5, polT := (s.atT t).time.now, polResp := pol })) t'))
  ∧ (∀ (g : Fin 4) (s : State), (s.grp.get g).startPhase = 5 → s.pulsesDone g = true → 0 < s.rd (Obj.polMin g.val + s.bankOfGroup g) →
    (s.rd (Obj.polMin g.val + s.bankOfGroup g) ≤ (s.grp.get g).polResp →
      s.starterStep g = (s.modGrp g (fun x => { x with startPhase := 9 })).starterDone g)
    ∧ ((s.grp.get g).polResp ≤ -s.rd (Obj.polMin g.val + s.bankOfGroup g) →
      s.starterStep g = (s.modGrp g (fun x => { x with
        startPhase := 9, startAngle := (x.startAngle + 2 ^ 31) % 2 ^ 32 })).starterDone g)
    ∧ (-s.rd (Obj.polMin g.val + s.bankOfGroup g) < (s.grp.get g).polResp →
      (s.grp.get g).polResp < s.rd (Obj.polMin g.val + s.bankOfGroup g) →
      s.starterStep g = (s.modGrp g (fun x => { x with startPhase := 8 })).latch 0x4C03 (mkInst g.val 0) 0))
  ∧ (∀ (g : Fin 4) (t : Nat) (s : State), (s.atT t).aligning g = true → s.rdN (Obj.starter g.val) = 3 →
    (s.atT t).elapsed g (s.grp.get g).startT (Obj.startTimeout g.val) = true →
    (∃ t' : State, exec (.starterTimeout g t) s = .next t' ∧ Quiet (s.atT t) t'
        ∧ ((s.atT t).raisable 0x4C03 (mkInst g.val 0) = true → ((s.atT t).classOf 0x4C03).1 ≠ .c0 → t'.isPending 0x4C03 (mkInst g.val 0) = true)))
  ∧ (∀ (g : Fin 4) (pol : Int) (t : Nat) (s : State), (s.atT t).aligning g = false →
    ∀ c ∈ [Instr.starterAlignEnd g pol t, .starterTimeout g t], exec c s = .next (s.atT t))
  ∧ (∀ (g : Fin 4) (b t : Nat) (s : State), s.regionUp = true → (s.grp.get g).stallT = some b →
    (s.atT t).elapsed g b (Obj.stallTime g.val) = true →
    (∃ t' : State, exec (.stallDetect g t) s = .next t' ∧ Quiet ((s.atT t).modGrp g (fun x => { x with
      stallT := some (s.atT t).time.now, stallHold := decide (s.rd (Obj.stallMode g.val) = 1), 
      holdPos := if x.stallHold then x.holdPos else (s.atT t).measPos g })) t' ∧ (((s.atT t).modGrp g (fun x => { x with
      stallT := some (s.atT t).time.now, stallHold := decide (s.rd (Obj.stallMode g.val) = 1), 
      holdPos := if x.stallHold then x.holdPos else (s.atT t).measPos g })).raisable 0x4C05 (mkInst g.val 0) = true → (((s.atT t).modGrp g (fun x => { x with
      stallT := some (s.atT t).time.now, stallHold := decide (s.rd (Obj.stallMode g.val) = 1), 
      holdPos := if x.stallHold then x.holdPos else (s.atT t).measPos g })).classOf 0x4C05).1 ≠ .c0 → t'.isPending 0x4C05 (mkInst g.val 0) = true)))
  ∧ (∀ (g : Fin 4) (t : Nat) (s : State), (s.grp.get g).stallT = none → exec (.stallDetect g t) s = .next (s.atT t))
  ∧ (∀ (g : Fin 4) (t : Nat) (s : State), s.regionUp = true → (s.grp.get g).st = .stopping → (s.grp.get g).stallHold = true →
    (s.grp.get g).brakeDue = false → (s.atT t).elapsed g (s.grp.get g).startT (Obj.stallHold g.val) = true →
    ∃ u : State, (∃ t' : State, exec (.stallHoldExpiry g t) s = .next t' ∧ Quiet u t') ∧ (u.grp.get g).brakeDue = true
        ∧ (u.grp.get g).brakeT = (s.atT t).time.now
      ∧ (u.grp.get g).st = .stopping
      ∧ (s.rd Obj.sbcEn = 1 → s.rdN Obj.sbcGroup = g.val → u.safety.brkA = false ∧ u.safety.brkB = false)
      ∧ (s.rd Obj.sbcEn ≠ 1 ∨ s.rdN Obj.sbcGroup ≠ g.val → u.safety = s.safety))
  ∧ (∀ (g : Fin 4) (t : Nat) (s : State), s.regionUp = true → (s.grp.get g).st = .stopping → (s.grp.get g).brakeDue = true →
    s.rd (Obj.stallMode g.val) = 1 → (s.grp.get g).brakeT + s.rdN Obj.sbcDelay * msCycles ≤ (s.atT t).time.now →
    ∃ u : State, (∃ t' : State, exec (.sbcDelayExpiry g t) s = .next t' ∧ Quiet u t') ∧ (u.grp.get g).st = .stopped
      ∧ (∀ n ∈ s.bound g, (u.loaf.get n).st = .off ∨ (u.loaf.get n).st = .fault)
      ∧ u.rd (Obj.capTrq g.val) = 0 ∧ u.rd (Obj.capFull g.val) = 0 ∧ u.rd (Obj.capPct g.val) = 0 ∧ u.rd (Obj.dragTrq g.val) = 0)
  ∧ (∀ (g : Fin 4) (t : Nat) (s : State), (s.grp.get g).st ≠ .stopping →
    ∀ c ∈ [Instr.stallHoldExpiry g t, .sbcDelayExpiry g t, .stopTimeout g t], exec c s = .next (s.atT t))
  ∧ (∀ (g : Fin 4) (t : Nat) (s : State), s.regionUp = true → (s.grp.get g).st = .stopping →
    (s.atT t).elapsed g (s.grp.get g).startT (Obj.stopTimeout g.val) = true →
    (∃ t' : State, exec (.stopTimeout g t) s = .next t' ∧ Quiet (s.atT t) t'
        ∧ ((s.atT t).raisable 0x4C08 (mkInst g.val 0) = true → ((s.atT t).classOf 0x4C08).1 ≠ .c0 → t'.isPending 0x4C08 (mkInst g.val 0) = true)))
  ∧ (∀ (g : Fin 4) (b t : Nat) (s : State), s.regionUp = true → (s.grp.get g).invT = some b →
    (s.atT t).elapsed g b (Obj.spdInvMs g.val) = true →
    (∃ t' : State, exec (.spdInvalidTimeout g t) s = .next t' ∧ Quiet ((s.atT t).modGrp g (fun x => { x with invT := some (s.atT t).time.now })) t'
        ∧ (((s.atT t).modGrp g (fun x => { x with invT := some (s.atT t).time.now })).raisable 0x4C04 (mkInst g.val 0) = true → (((s.atT t).modGrp g (fun x => { x with invT := some (s.atT t).time.now })).classOf 0x4C04).1 ≠ .c0 → t'.isPending 0x4C04 (mkInst g.val 0) = true)))

/-! ## Chapter 6: periods, frames and trips -/

/-- Counter and period starts (R181, R183, R186, R188, R201, R433, R434): the counter starts `PHASE_OFS` after the first start tick
of its epoch, with frame 0, its timing registers loaded and the latest commit that landed 20 cycles before taken, and measures the
epoch on this first period start too; a period start counts, measures the epoch, and goes on with the gap of a cycle-mode trip that is still asserted; the peak counts as an event.
Frames (R185 to R190, R209, R233 to R235): a boundary that finds a commit loads it and numbers the frame on, with its `EVENT`
packet; a CLOSED loaf that finds none keeps its compare words, and the late frame is counted; the close writes the means of its
inputs and hands the frame to the Oven. The feedback and group parts of a boundary follow it; that of a running group waits for a
sample still to come, with what has been latched by the boundary (R282).
Completes, by a clause of its own for each: `counterStart`, `epochStartTick`, `periodStart`, `pwmPeak`, `frameBoundary`, `frameClose`. -/
def Obligations.PeriodsAndFrames : Prop :=
  (∀ (n : Fin 4) (t : Nat) (s : State), s.regionUp = true → s.has n.val = true → s.startsAt n t = true → s.haltC = false →
    s.haltM = false →
    ∃ u : State, exec (.counterStart n t) s = .next ((u.handover n t).settle)
      ∧ (u.loaf.get n).running = true ∧ (u.loaf.get n).periods = 1 ∧ (u.loaf.get n).lastStart = t ∧ (u.loaf.get n).boundaryT = t
      ∧ u.rd (Obj.frameCount n.val) = 0 ∧ (u.loaf.get n).actPeriod = s.rdN (Obj.period n.val)
      ∧ ((u.loaf.get n).nextStart : Int) = max 0 ((t : Int) + u.epochCorr n (u.epochD n t)) + u.periodTicks n
      ∧ (u.loaf.get n).epoch = s.epochHead n ∧ u.rd (Obj.epochDev n.val) = u.epochD n t
      ∧ u.rdBit (Obj.tuStat n.val) 2 = !u.epochFits n
      ∧ (u.loaf.get n).actDead = s.rdN (Obj.deadTime n.val) ∧ (u.loaf.get n).actLen = s.rdN (Obj.frameLen n.val)
      ∧ (∀ c, takenCommit (s.loaf.get n).commits t = some c → u.rd (Obj.lateRun n.val) = 0
        ∧ u.rd (Obj.activeCmp n.val 0) = c.cmp.1 ∧ u.rd (Obj.activeCmp n.val 1) = c.cmp.2.1
        ∧ u.rd (Obj.activeCmp n.val 2) = c.cmp.2.2)
      ∧ (∀ m, m ≠ n → u.loaf.get m = s.loaf.get m))
  ∧ (∀ (n : Fin 4) (t : Nat) (s : State), s.startsAt n t = true ↔ (s.loaf.get n).st ≠ .off ∧ (s.loaf.get n).running = false
    ∧ ∃ x, (s.loaf.get n).firstTick = some x ∧ x + s.rdN (Obj.phaseOfs n.val) = t)
  ∧ (∀ (n : Fin 4) (t : Nat) (s : State), s.startsAt n t = false ∨ s.haltC = true ∨ s.haltM = true →
    exec (.counterStart n t) s = .next (s.atT t))
  ∧ (∀ (n : Fin 4) (t : Nat) (s : State), s.regionUp = true → s.has n.val = true → (s.atT t).tickNow n = true →
    (∃ u : State, exec (.epochStartTick n t) s = .next u ∧ u.time = { (s.atT t).time with startTick := s.time.startTick.set n t }
      ∧ (∀ m ∈ s.loaves, s.epochLoaf m = n → (s.loaf.get m).st ≠ .off → (s.loaf.get m).running = false →
        (s.loaf.get m).firstTick = none → u.loaf.get m = { s.loaf.get m with firstTick := some t })
      ∧ (∀ m ∈ s.loaves, s.epochLoaf m ≠ n ∨ (s.loaf.get m).st = .off ∨ (s.loaf.get m).running = true
        ∨ (s.loaf.get m).firstTick ≠ none → u.loaf.get m = s.loaf.get m)
      ∧ { u with time := s.time, loaf := s.loaf } = s))
  ∧ (∀ (n : Fin 4) (t : Nat) (s : State), (s.atT t).tickNow n = false → exec (.epochStartTick n t) s = .next (s.atT t))
  ∧ (∀ (n : Fin 4) (t : Nat) (s : State), s.periodEnds n t = true →
    ∃ u : State, (∃ t' : State, exec (.periodStart n t) s = .next t' ∧ Quiet u t') ∧ (u.loaf.get n).periods = (s.loaf.get n).periods + 1
      ∧ (u.loaf.get n).lastStart = t ∧ (u.loaf.get n).hold = 0 ∧ (u.loaf.get n).gap = s.cycleOn n
      ∧ ((u.loaf.get n).nextStart : Int) = max 0 ((t : Int) + s.epochCorr n (s.epochD n t)) + s.periodTicks n
      ∧ u.rd (Obj.epochDev n.val) = s.epochD n t
      ∧ u.rdBit (Obj.tuStat n.val) 3 = decide ((u.time.alignRun.get n) = 16)
      ∧ (∀ m, m ≠ n → u.loaf.get m = s.loaf.get m))
  ∧ (∀ (n : Fin 4) (t : Nat) (s : State), s.counterRuns n = true → (s.loaf.get n).peakDue = some t → s.atPeak n t = false →
    (∃ u : State, exec (.pwmPeak n t) s = .next u ∧ u.objs = s.objs ∧ (∀ m, m ≠ n → u.loaf.get m = s.loaf.get m)
      ∧ (u.loaf.get n).peakDue = none
      ∧ (∀ x < 3, s.rdN (Obj.evtSrc n.val x) = 2 →
        (u.loaf.get n).evtCount.getD x 0 = (s.loaf.get n).evtCount.getD x 0 + 1)))
  ∧ (∀ (n : Fin 4) (t : Nat) (s : State), s.counterRuns n = false →
    ∀ c ∈ [Instr.periodStart n t, .pwmPeak n t, .frameBoundary n t, .frameClose n t, .loafFrameCompute n t],
      exec c s = .next (s.atT t))
  ∧ (∀ (n : Fin 4) (t : Nat) (c : Commit) (s : State), s.counterRuns n = true → s.boundaryDue n t = true →
    takenCommit (s.loaf.get n).commits t = some c →
    ∃ u : State, exec (.frameBoundary n t) s = .next ((u.handover n t).settle)
      ∧ u.rd (Obj.frameCount n.val) = (s.rd (Obj.frameCount n.val) + 1) % 0x100000000
      ∧ u.rd (Obj.activeCmp n.val 0) = c.cmp.1 ∧ u.rd (Obj.activeCmp n.val 1) = c.cmp.2.1
      ∧ u.rd (Obj.activeCmp n.val 2) = c.cmp.2.2 ∧ u.rd (Obj.lateRun n.val) = 0
      ∧ (u.loaf.get n).actLen = s.rdN (Obj.frameLen n.val) ∧ (u.loaf.get n).boundaryT = t
      ∧ (u.loaf.get n).closing = true ∧ (u.loaf.get n).due = false ∧ (u.loaf.get n).wasLate = false
      ∧ (∃ q, u.peelC.waiting = s.peelC.waiting ++ [(n.val, q, (s.atT t).time.now)] ∧ q.clsTyp = PktKind.event.head
        ∧ leAt q.payload 1 1 = n.val)
      ∧ (∀ a ∈ u.acc, s.accLoaf a.conv a.input ≠ some n) ∧ (∀ m, m ≠ n → u.loaf.get m = s.loaf.get m))
  ∧ (∀ (n : Fin 4) (t : Nat) (s : State), s.counterRuns n = true → s.boundaryDue n t = true → (s.loaf.get n).st = .closed →
    takenCommit (s.loaf.get n).commits t = none →
    ∃ u : State, exec (.frameBoundary n t) s = .next ((u.handover n t).settle)
      ∧ u.rd (Obj.frameCount n.val) = (s.rd (Obj.frameCount n.val) + 1) % 0x100000000
      ∧ (∀ p < 3, u.rd (Obj.activeCmp n.val p) = s.rd (Obj.activeCmp n.val p))
      ∧ (s.rd (Obj.lateCount n.val) < 0xFFFFFFFF → u.rd (Obj.lateCount n.val) = s.rd (Obj.lateCount n.val) + 1)
      ∧ (s.rd (Obj.lateRun n.val) < 255 → u.rd (Obj.lateRun n.val) = s.rd (Obj.lateRun n.val) + 1))
  ∧ (∀ (n : Fin 4) (t : Nat) (s : State), s.counterRuns n = true → s.boundaryDue n t = false →
    exec (.frameBoundary n t) s = .next (s.atT t))
  ∧ (∀ (n : Fin 4) (t : Nat) (u x : State), u.fbHandoff n t = x →
    (x.groupOf n = none → u.handover n t = x)
    ∧ (∀ g, x.groupOf n = some g → x.fbWaits n = true → (x.grp.get g).st.active = true →
      u.handover n t = (x.modLoaf n (fun l => { l with grpDue := true })).modGrp g (fun y => { y with cut := some (x.cutOf g) }))
    ∧ (∀ g, x.groupOf n = some g → x.fbWaits n = false ∨ (x.grp.get g).st.active = false → u.handover n t = x.groupAt n))
  ∧ (∀ (n : Fin 4) (t : Nat) (s : State), s.counterRuns n = true → s.closeDue n t = true →
    ∃ u : State, exec (.frameClose n t) s = .next ((u.serialLate n).settle) ∧ (u.loaf.get n).due = true
      ∧ (u.loaf.get n).closing = false ∧ (∀ m, m ≠ n → u.loaf.get m = s.loaf.get m)
      ∧ (∀ p ∈ s.inputsOf n, (s.oldAcc p.1 p.2).count ≠ 0 → u.rd (Obj.chMean p.1 p.2) = (s.oldAcc p.1 p.2).mean)
      ∧ (∀ a ∈ u.accOld, s.accLoaf a.conv a.input ≠ some n) ∧ u.acc = s.acc
      ∧ (u.hand.get n).means = (s.inputsOf n).map (fun p =>
        let i := s.closeInput (s.awaits (s.loaf.get n).boundaryT p) p.1 p.2
        (i.role, i.value, i.valid)))
  ∧ (∀ (n : Fin 4) (t : Nat) (s : State), s.closeDue n t = false → exec (.frameClose n t) s = .next (s.atT t))

/-- The computation of a frame (R19, R41, R42, R270, R283 to R288, R313): a grant slot of the datapath takes the frame handed over
once, publishes what it found, and pushes one record of 64 bytes, or counts it as dropped where 32 wait. A boundary of the loaf that
awaits feedback completes without it first. What the free values of the frame decide is left open.
Completes, by a clause of its own for each: `loafFrameCompute`. -/
def Obligations.FrameComputation : Prop :=
(∀ (n : Fin 4) (t : Nat) (a : Arb) (s w : State), s.ovenArb.grant 4 (s.atT t).frameDue = some (n.val, a) →
    w = ({ s.atT t with ovenArb := a }).scMissed n →
    (∃ u : State, exec (.loafFrameCompute n t) s = .next u ∧ (u.loaf.get n).due = false ∧ (u.loaf.get n).done = true ∧ u.freeNo = w.freeNo + 1
        ∧ u.ovenArb = a
      ∧ ((w.oven.get n).queue.length < 32 → ∃ r, (u.oven.get n).queue = (w.oven.get n).queue ++ [r] ∧ r.length = 64
        ∧ u.rd (Obj.recPushed n.val) = (w.rd (Obj.recPushed n.val) + 1) % 0x100000000)
      ∧ (32 ≤ (w.oven.get n).queue.length → (u.oven.get n).queue = (w.oven.get n).queue
        ∧ (w.rd Obj.recDrop < 0xFFFFFFFF → u.rd Obj.recDrop = w.rd Obj.recDrop + 1))
      ∧ ∃ f, f = ((((w.reconThirds n).reconMark n).modLoaf n (fun l => { l with due := false })).frameLoop n).1
        ∧ u.rd (Obj.idMeas n.val) = shownBase f.loop.id (w.rdR (Obj.iBase n.val))
        ∧ u.rd (Obj.iqMeas n.val) = shownBase f.loop.iq (w.rdR (Obj.iBase n.val))
        ∧ u.rd (Obj.thetaE n.val) = (f.theta : Int)))
  ∧ (∀ (n : Fin 4) (s : State), s.fbWaits n = false → (s.loaf.get n).grpDue = false → s.scMissed n = s)
  ∧ (∀ (n : Fin 4) (t : Nat) (s : State), s.ovenArb.grant 4 (s.atT t).frameDue = none ∨
    (∃ m a, s.ovenArb.grant 4 (s.atT t).frameDue = some (m, a) ∧ m ≠ n.val) → exec (.loafFrameCompute n t) s = .next (s.atT t))
  ∧ (∀ (n : Fin 4) (s : State), (∀ m : Fin 4, s.frameDue m.val = true ↔ m = n) → ∃ a, s.ovenArb.grant 4 s.frameDue = some (n.val, a))

/-- Trips (R198 to R203, R211, R521): an assertion that its filter takes is counted once, and does what the loaf's nibble says:
nothing, a latched trip with its fault, or the gap pattern; sources 14 and 15 raise no fault of their own; a deassertion ends the
level and no latch. A pad's level is taken for certain once it has stood for (`TRIP_FILT` + 2) × 5 ns, and never below
(`TRIP_FILT` − 1) × 5 ns; a level that arises in CK_CTL is taken from `TRIP_FILT` cycles on.
Completes, by a clause of its own for each: `tripLatch`, `tripCycleGap`, `tripFilterDeassert`, `readbackMismatch`. -/
def Obligations.Trips : Prop :=
(∀ (i : Fin 16) (n : Fin 4) (ns t : Nat) (s : State), s.tripLive i.val n = true →
    (i.val = 12 ∨ i.val = 13 → s.detects i.val n = true) →
    filterTakes (decide (i.val < 12)) (s.tripFilt i.val) ns (Config.filterFree s.freeNo) = true →
    (s.trip.get n).getLsbD i.val = false → (s.mapNibble i.val n).testBit 0 = true → (s.mapNibble i.val n).testBit 1 = false →
    ∃ u : State, (∃ t' : State, exec (.tripLatch i n ns t) s = .next t' ∧ Quiet u t') ∧ u.rdBit (Obj.tripLatch n.val) i.val = true
        ∧ u.tripOn i.val n = true
      ∧ u.rd (Obj.tripCount i.val) = (if s.tripOn i.val n then s.rd (Obj.tripCount i.val)
        else (s.bump (Obj.tripCount i.val)).rd (Obj.tripCount i.val))
      ∧ (∀ code, tripCode i.val false = some code → ∃ inst, (∃ t' : State, exec (.tripLatch i n ns t) s = .next t' ∧ Quiet u t'
          ∧ (u.raisable code inst = true → (u.classOf code).1 ≠ .c0 → t'.isPending code inst = true))
        ∧ instIndex inst = n.val ∧ (i.val < 8 → inst = mkInst n.val 0)))
  ∧ (∀ (i : Fin 16) (n : Fin 4) (ns t : Nat) (s : State), s.tripLive i.val n = true →
    (i.val = 12 ∨ i.val = 13 → s.detects i.val n = true) →
    filterTakes (decide (i.val < 12)) (s.tripFilt i.val) ns (Config.filterFree s.freeNo) = true →
    (s.trip.get n).getLsbD i.val = false → (s.mapNibble i.val n).testBit 0 = true → (s.mapNibble i.val n).testBit 1 = true →
    ∃ u : State, (∃ t' : State, exec (.tripCycleGap i n ns t) s = .next t' ∧ Quiet u t') ∧ (u.loaf.get n).gap = true ∧ u.tripOn i.val n = true
      ∧ u.rd (Obj.tripLatch n.val) = s.rd (Obj.tripLatch n.val) ∧ (∀ m, m ≠ n → u.loaf.get m = s.loaf.get m))
  ∧ (∀ (i : Fin 16) (n : Fin 4) (ns t : Nat) (s : State), s.tripLive i.val n = true →
    (i.val = 12 ∨ i.val = 13 → s.detects i.val n = true) →
    filterTakes (decide (i.val < 12)) (s.tripFilt i.val) ns (Config.filterFree s.freeNo) = true →
    (s.trip.get n).getLsbD i.val = false → (s.mapNibble i.val n).testBit 0 = false →
    ∀ c ∈ [Instr.tripLatch i n ns t, .tripCycleGap i n ns t],
    ∃ u : State, (∃ t' : State, exec c s = .next t' ∧ Quiet u t') ∧ u.tripOn i.val n = true ∧ u.loaf = s.loaf ∧ u.flt = s.flt
      ∧ ObjsKept [Obj.tripCount i.val] s u)
  ∧ (∀ (i : Fin 16) (n : Fin 4) (ns t : Nat) (s : State),
    (s.trip.get n).getLsbD i.val = true ∨ filterTakes (decide (i.val < 12)) (s.tripFilt i.val) ns (Config.filterFree s.freeNo) = false →
    ∀ c ∈ [Instr.tripLatch i n ns t, .tripCycleGap i n ns t],
    (∃ u : State, exec c s = .next u ∧ u.trip = s.trip ∧ { u with tripSync := s.tripSync, freeNo := s.freeNo } = s.atT t))
  ∧ (∀ (i : Fin 16) (n : Fin 4) (ns t : Nat) (s : State),
    s.tripLive i.val n = false ∨ ((i.val = 12 ∨ i.val = 13) ∧ s.detects i.val n = false) →
    ∀ c ∈ [Instr.tripLatch i n ns t, .tripCycleGap i n ns t], exec c s = .next (s.atT t))
  ∧ (∀ (f ns : Nat) (free : Bool), ((f + 2) * 5 ≤ ns → filterTakes true f ns free = true)
    ∧ (2 ≤ f → ns < (f - 1) * 5 → filterTakes true f ns free = false)
    ∧ filterTakes false f ns free = decide (f * 5 ≤ ns))
  ∧ (∀ (i : Fin 16) (n : Fin 4) (ns t : Nat) (s : State), s.tripLive i.val n = true →
    (i.val = 12 ∨ i.val = 13 → s.detects i.val n = false) →
    filterTakes (decide (i.val < 12)) (s.tripFilt i.val) ns (Config.filterFree s.freeNo) = true →
    (∃ u : State, exec (.tripFilterDeassert i n ns t) s = .next u ∧ (i.val < 14 → u.tripOn i.val n = false) ∧ (14 ≤ i.val → u = s.atT t)
      ∧ (∀ j < 16, j ≠ i.val → u.tripOn j n = s.tripOn j n)
      ∧ { u with trip := s.trip, tripSync := s.tripSync, freeNo := s.freeNo } = s.atT t))
  ∧ (∀ (i : Fin 16) (n : Fin 4) (ns t : Nat) (s : State), s.tripLive i.val n = false
    ∨ ((i.val = 12 ∨ i.val = 13) ∧ s.detects i.val n = true) → exec (.tripFilterDeassert i n ns t) s = .next (s.atT t))
  ∧ (∀ (n : Fin 4) (pad : Fin 7) (t : Nat) (s : State), s.regionUp = true → s.has n.val = true →
    ∃ u : State, (∃ t' : State, exec (.readbackMismatch n pad t) s = .next t' ∧ Quiet u t'
        ∧ (u.raisable (if pad.val < 6 then 0x0001 else 0x0002) (if pad.val < 6 then mkInst n.val pad.val else mkInst n.val 0) = true → (u.classOf (if pad.val < 6 then 0x0001 else 0x0002)).1 ≠ .c0 → t'.isPending (if pad.val < 6 then 0x0001 else 0x0002) (if pad.val < 6 then mkInst n.val pad.val else mkInst n.val 0) = true))
      ∧ u.rdBit (Obj.readbackErr n.val) pad.val = true)

/-! ## Chapter 7: converters and the capture memory -/

/-- Samples (R220 to R222, R224 to R226, R228, R239): a sample that the work of its converter can have taken shows its corrected
result, and moves that work on; one whose hold was told before leaves the sequence as it is; another changes nothing.
Completes, by a clause of its own for each: `sampleResult`. -/
def Obligations.Samples : Prop :=
(∀ (k : Fin 6) (i : Fin 9) (raw : Int) (inst t : Nat) (s s1 : State), s.regionUp = true → s.hasConv k.val = true →
    inputWf k i = true → rawWf k raw = true → k.val < 4 →
    (s.atT t).seqResult k.val i.val inst = some s1 →
    ∃ u : State, exec (.sampleResult k i .regular raw inst t) s = .next u.settle
      ∧ u.rd (Obj.chResult k.val i.val) = chanResult k.val (s.rd (Obj.chOffset k.val i.val)) (s.rd (Obj.chGain k.val i.val)) raw
      ∧ (chanSat k.val (s.rd (Obj.chOffset k.val i.val)) (s.rd (Obj.chGain k.val i.val)) raw = true →
        u.rdBit (Obj.satFlags k.val) i.val = true)
      ∧ (u.convAt k.val).owSince.any (fun x => x.1 == i.val) = s.owBeyond k.val i.val
        (chanResult k.val (s.rd (Obj.chOffset k.val i.val)) (s.rd (Obj.chGain k.val i.val)) raw)
      ∧ (u.convAt k.val).seqPos = (s1.convAt k.val).seqPos ∧ (u.convAt k.val).seqAct = (s1.convAt k.val).seqAct)
  ∧ (∀ (k : Fin 6) (i : Fin 9) (raw : Int) (inst t : Nat) (s s1 : State), s.regionUp = true → s.hasConv k.val = true →
    inputWf k i = true → rawWf k raw = true → k.val < 4 → s.rd (Obj.pairMode (evenOf k.val)) ≠ 2 →
    (s.atT t).seqHold k.val i.val inst = some s1 →
    (∃ u : State, exec (.sampleResult k i .held raw inst t) s = .next u ∧ u = s1 ∧ (i.val, inst) ∈ (u.convAt k.val).held
      ∧ { u with conv := s.conv } = s.atT t))
  ∧ (∀ (k i inst : Nat) (s : State), (s.convAt k).held.contains (i, inst) = true ∨ (s.convAt k).gone.contains (i, inst) = true →
    ∃ u : State, s.seqResult k i inst = some u ∧ (u.convAt k).seqPos = (s.convAt k).seqPos
      ∧ (u.convAt k).seqAct = (s.convAt k).seqAct)
  ∧ (∀ (k : Fin 6) (i : Fin 9) (raw : Int) (inst t : Nat) (s : State), s.regionUp = true → inputWf k i = true →
    rawWf k raw = true → k.val = 5 →
    ∃ u : State, exec (.sampleResult k i .regular raw inst t) s = .next u.settle
      ∧ u.rd (Obj.chResult k.val i.val) = chanResult k.val (s.rd (Obj.chOffset k.val i.val)) (s.rd (Obj.chGain k.val i.val)) raw)
  ∧ (∀ (k : Fin 6) (i : Fin 9) (raw : Int) (inst t : Nat) (s : State), s.regionUp = true → inputWf k i = true →
    rawWf k raw = true → k.val = 4 →
    ∃ u : State, exec (.sampleResult k i .regular raw inst t) s = .next ((u.sampleCame 0).settle)
      ∧ u.rd (Obj.chResult k.val i.val) = chanResult k.val (s.rd (Obj.chOffset k.val i.val)) (s.rd (Obj.chGain k.val i.val)) raw
      ∧ (i.val = 0 → (u.fb.get 0).sinLast = (u.rd (Obj.chResult k.val i.val), inst, !(s.atT t).notReady k.val))
      ∧ (i.val ≠ 0 → (u.fb.get 0).cosLast = (u.rd (Obj.chResult k.val i.val), inst, !(s.atT t).notReady k.val)))
  ∧ (∀ (k : Fin 6) (i : Fin 9) (raw : Int) (inst t : Nat) (rest : List Nat) (s : State), s.regionUp = true →
    s.hasConv k.val = true → inputWf k i = true → rawWf k raw = true → k.val < 4 → s.rd (Obj.pairMode (evenOf k.val)) ≠ 2 →
    (s.conv.get k).injRun = some (i.val :: rest) →
    ∃ u : State, exec (.sampleResult k i .injected raw inst t) s = .next u.settle
      ∧ (rest = [] → (u.convAt k.val).injDone = (s.convAt k.val).injDone + 1
        ∧ (u.convAt k.val).injLast = (s.convAt k.val).injRes ++
          [(chanResult k.val (s.rd (Obj.chOffset k.val i.val)) (s.rd (Obj.chGain k.val i.val)) raw, inst)])
      ∧ (rest ≠ [] → (u.convAt k.val).injRun = some rest ∧ (u.convAt k.val).injDone = (s.convAt k.val).injDone
        ∧ u.rd (Obj.chResult k.val i.val) =
          chanResult k.val (s.rd (Obj.chOffset k.val i.val)) (s.rd (Obj.chGain k.val i.val)) raw))
  ∧ (∀ (k : Fin 6) (i : Fin 9) (raw : Int) (left inst t : Nat) (s : State), s.regionUp = true → s.hasConv k.val = true →
    inputWf k i = true → rawWf k raw = true → k.val < 4 → s.rd (Obj.pairMode (evenOf k.val)) = 1 →
    s.rdN (Obj.pairSrc (evenOf k.val)) < 18 → i.val = (s.pairInput (evenOf k.val)).2 →
    (s.convAt (evenOf k.val)).burst = some left → 2 ≤ left →
    ∃ (u : State) (o : Nat × Nat), o = s.pairInput (evenOf k.val) ∧ exec (.sampleResult k i .burst raw inst t) s = .next u.settle
      ∧ u.rd (Obj.chResult o.1 o.2) = chanResult o.1 (s.rd (Obj.chOffset o.1 o.2)) (s.rd (Obj.chGain o.1 o.2)) raw
      ∧ (u.convAt (evenOf k.val)).burst = some (left - 1)
      ∧ (u.convAt (evenOf k.val)).burstBuf = (s.convAt (evenOf k.val)).burstBuf
        ++ [chanResult o.1 (s.rd (Obj.chOffset o.1 o.2)) (s.rd (Obj.chGain o.1 o.2)) raw])
  ∧ (∀ (k : Fin 6) (i : Fin 9) (raw : Int) (inst t : Nat) (s : State), k.val < 4 →
    ((s.atT t).seqResult k.val i.val inst = none → exec (.sampleResult k i .regular raw inst t) s = .next (s.atT t))
    ∧ ((s.conv.get k).injRun = none → exec (.sampleResult k i .injected raw inst t) s = .next (s.atT t))
    ∧ (s.rd (Obj.pairMode (evenOf k.val)) = 0 → exec (.sampleResult k i .burst raw inst t) s = .next (s.atT t))
    ∧ (s.rd (Obj.pairMode (evenOf k.val)) = 2 → ∀ kind ∈ [SampleKind.held, .injected],
      exec (.sampleResult k i kind raw inst t) s = .next (s.atT t))
    ∧ (s.rd (Obj.pairMode (evenOf k.val)) = 2 → (s.convAt k.val).held.contains (i.val, inst) = false →
      (s.convAt k.val).gone.contains (i.val, inst) = false → exec (.sampleResult k i .regular raw inst t) s = .next (s.atT t)))
  ∧ (∀ (n : Fin 4) (b k i inst : Nat) (s : State), k < 4 → (i, inst) ∈ (s.convAt k).held → inst < b → s.accLoaf k i = some n →
    (s.dropHeld n b).awaits b (k, i) = false ∧ (i, inst) ∉ ((s.dropHeld n b).convAt k).held)

/-- The other events of the converters (R209, R216 to R219, R221 to R223, R237 to R239, R241, R244): a firing of a trigger line enabled
starts the work it names once; a start the work in progress forbids is
held or counted as dropped; slices, comparisons, open wires, `AUX` windows and a filled capture do what their rules say. The
estimates of R216 are free values; that the windows of R241 end at whole milliseconds is the model's choice (assumption 188).
Completes, by a clause of its own for each: `injectedSeqStart`, `pairBurstStart`, `sliceExclude`, `mismatchConverged`, `plausCompare`,
`openWireDetect`, `auxWindow`, `captureComplete`. -/
def Obligations.ConverterEvents : Prop :=
(∀ (k : Fin 4) (line : Fin 12) (t : Nat) (s w : State), w = (s.atT t).pwmTo (Fin.ofNat 4 (line.val / 3)) → s.regionUp = true →
    s.has k.val = true → s.rdBit (Obj.injTrig k.val) line.val = true →
    (s.convAt k.val).lineSeen.getD line.val 0 < w.lineCount line.val → s.rd (Obj.injLen k.val) ≠ 0 →
    s.rd (Obj.pairMode (evenOf k.val)) ≠ 2 → (s.convAt k.val).injT ≠ some w.time.now →
    ∃ u : State, u = w.modConvN k.val (fun c => { c with
        lineSeen := setAt 0 c.lineSeen line.val (w.lineCount line.val), injT := some w.time.now })
      ∧ ((s.convAt k.val).injRun = none → s.bursting k.val = false →
        (∃ t' : State, exec (.injectedSeqStart k line t) s = .next t' ∧ Quiet (u.modConvN k.val (fun c => { c with
          injRun := some (s.injEntries k.val), injRes := [] })) t'))
      ∧ ((s.convAt k.val).injRun ≠ none ∨ s.bursting k.val = true → (s.convAt k.val).injHeld = false →
        (∃ t' : State, exec (.injectedSeqStart k line t) s = .next t' ∧ Quiet (u.modConvN k.val (fun c => { c with injHeld := true })) t'))
      ∧ ((s.convAt k.val).injRun ≠ none ∨ s.bursting k.val = true → (s.convAt k.val).injHeld = true →
        (∃ t' : State, exec (.injectedSeqStart k line t) s = .next t' ∧ Quiet (u.bump (Obj.injOverrun k.val)) t')))
  ∧ (∀ (k : Fin 4) (line : Fin 12) (t : Nat) (s w : State), w = (s.atT t).pwmTo (Fin.ofNat 4 (line.val / 3)) →
    s.rdBit (Obj.injTrig k.val) line.val = false ∨ w.lineCount line.val ≤ (s.convAt k.val).lineSeen.getD line.val 0 →
    exec (.injectedSeqStart k line t) s = .next w)
  ∧ (∀ (p : Fin 2) (line : Fin 12) (t : Nat) (s w : State), w = (s.atT t).pwmTo (Fin.ofNat 4 (line.val / 3)) →
    s.regionUp = true → s.has (2 * p.val) = true → s.rd (Obj.pairMode (2 * p.val)) = 1 →
    (s.convAt (2 * p.val)).pairT ≠ some w.time.now →
    (s.rdBit (Obj.pairTrig (2 * p.val)) line.val = true →
      (s.convAt (2 * p.val)).pairSeen.getD line.val 0 < w.lineCount line.val →
      ∃ u : State, u = w.modConvN (2 * p.val) (fun c => { c with
          pairSeen := setAt 0 c.pairSeen line.val (w.lineCount line.val), pairT := some w.time.now })
        ∧ (s.bursting (2 * p.val) = false → (∃ t' : State, exec (.pairBurstStart p line t) s = .next t'
            ∧ Quiet (u.modConvN (2 * p.val) (fun c => { c with
          burst := some (s.rdN (Obj.pairBurstLen (2 * p.val))), burstLine := line.val, burstFor := none, burstBuf := [] })) t'))
        ∧ (s.bursting (2 * p.val) = true → (∃ t' : State, exec (.pairBurstStart p line t) s = .next t'
            ∧ Quiet (u.bump (Obj.injOverrun (2 * p.val))) t')))
    ∧ (∀ q, s.rdBit (Obj.pairTrig (2 * p.val)) line.val = false →
      (s.convAt (2 * p.val)).reconQ.find? (fun x => x.1 == t) = some q → s.bursting (2 * p.val) = false →
      (∃ t' : State, exec (.pairBurstStart p line t) s = .next t' ∧ Quiet (w.modConvN (2 * p.val) (fun c => { c with
        reconQ := c.reconQ.filter (fun x => decide (t < x.1)), pairT := some w.time.now
        burst := some (s.rdN (Obj.pairBurstLen (2 * p.val))), burstLine := 3 * q.2.1, burstFor := some q.2, burstBuf := [] })) t')))
  ∧ (∀ (p : Fin 2) (line : Fin 12) (t : Nat) (s w : State), w = (s.atT t).pwmTo (Fin.ofNat 4 (line.val / 3)) →
    s.rd (Obj.pairMode (2 * p.val)) ≠ 1 ∨ (s.rdBit (Obj.pairTrig (2 * p.val)) line.val = true
      ∧ w.lineCount line.val ≤ (s.convAt (2 * p.val)).pairSeen.getD line.val 0)
      ∨ (s.rdBit (Obj.pairTrig (2 * p.val)) line.val = false
        ∧ (s.convAt (2 * p.val)).reconQ.find? (fun x => x.1 == t) = none) →
    exec (.pairBurstStart p line t) s = .next w)
  ∧ (∀ (k sl : Fin 4) (s : State), s.regionUp = true → s.has k.val = true → s.rdN (Obj.sliceExcl k.val) = 0 →
    (∃ t' : State, exec (.sliceExclude k sl) s = .next t' ∧ Quiet (s.wrBit (Obj.sliceExcl k.val) sl.val true) t'
        ∧ ((s.wrBit (Obj.sliceExcl k.val) sl.val true).raisable 0x0402 (mkInst k.val sl.val) = true → ((s.wrBit (Obj.sliceExcl k.val) sl.val true).classOf 0x0402).1 ≠ .c0 → t'.isPending 0x0402 (mkInst k.val sl.val) = true)))
  ∧ (∀ (k sl : Fin 4) (s : State), s.regionUp = true → s.has k.val = true → s.rdN (Obj.sliceExcl k.val) ≠ 0 →
    (s.rdN (Obj.sliceExcl k.val)).testBit sl.val = false → (s.convAt k.val).failed = false →
    ∃ u : State, (∃ t' : State, exec (.sliceExclude k sl) s = .next t' ∧ Quiet u t'
        ∧ (u.raisable 0x4405 (mkInst k.val 0) = true → (u.classOf 0x4405).1 ≠ .c0 → t'.isPending 0x4405 (mkInst k.val 0) = true))
        ∧ (u.convAt k.val).failed = true
      ∧ u.rdBit (Obj.sliceExcl k.val) sl.val = true)
  ∧ (∀ (k : Fin 4) (s : State), s.has k.val = true → s.power.refReady.get (Fin.ofNat 6 k.val) = true →
    (∃ t : State, exec (.mismatchConverged k) s = .next t ∧ (t.convAt k.val).mmConv = true
      ∧ (s.rd (Obj.mmFreeze k.val) = 1 → t.objs = s.objs)
      ∧ (s.rd (Obj.mmFreeze k.val) ≠ 1 → ∀ sl < 4, ∀ a ∈ [Obj.sliceOfs k.val sl, Obj.sliceGain k.val sl, Obj.sliceSkew k.val sl],
        -32768 ≤ t.rd a ∧ t.rd a ≤ 32767)))
  ∧ (∀ (p : Fin 2) (t : Nat) (a b : Int) (s : State), s.regionUp = true → s.has (2 * p.val) = true →
    s.rd (Obj.plausEn (2 * p.val)) = 1 → s.plausStale (2 * p.val) = false → s.plausInput (2 * p.val) t = some a →
    s.plausInput (2 * p.val + 1) t = some b → -32768 ≤ a - b → a - b ≤ 32767 →
    (((a - b).natAbs : Int) ≤ s.rd (Obj.plausTol (2 * p.val)) →
      (∃ u : State, exec (.plausCompare p t) s = .next u ∧ u.rd (Obj.plausDiff (2 * p.val)) = a - b ∧ u.rd (Obj.plausRun (2 * p.val)) = 0
        ∧ u.flt = s.flt ∧ ObjsKept [Obj.plausDiff (2 * p.val), Obj.plausRun (2 * p.val)] s u))
    ∧ (s.rd (Obj.plausTol (2 * p.val)) < ((a - b).natAbs : Int) → s.rd (Obj.plausRun (2 * p.val)) < 65535 →
      (∃ u : State, exec (.plausCompare p t) s = .next u ∧ u.rd (Obj.plausDiff (2 * p.val)) = a - b
        ∧ u.rd (Obj.plausRun (2 * p.val)) = s.rd (Obj.plausRun (2 * p.val)) + 1
        ∧ (s.rd (Obj.plausCount (2 * p.val)) ≤ s.rd (Obj.plausRun (2 * p.val)) + 1 → (s.convAt (2 * p.val)).plausSaid = false →
          (s.classOf 0x4403).1 ≠ .c0 → u.isPending 0x4403 (mkInst p.val 0) = true))))
  ∧ (∀ (p : Fin 2) (t : Nat) (s : State), s.rd (Obj.plausEn (2 * p.val)) ≠ 1 ∨ s.plausInput (2 * p.val) t = none
    ∨ s.plausInput (2 * p.val + 1) t = none ∨ s.plausStale (2 * p.val) = true → exec (.plausCompare p t) s = .next (s.atT t))
  ∧ (∀ (k : Fin 6) (i : Fin 9) (t : Nat) (s : State), s.regionUp = true → s.hasConv k.val = true → inputWf k i = true → k ≠ 4 →
    s.owDue k.val i.val t = true → s.owLatched k.val i.val = false →
    (∃ t' : State, exec (.openWireDetect k i t) s = .next t' ∧ Quiet (s.atT t) t'
        ∧ ((s.atT t).raisable 0x0401 (mkInst k.val i.val) = true → ((s.atT t).classOf 0x0401).1 ≠ .c0 → t'.isPending 0x0401 (mkInst k.val i.val) = true)))
  ∧ (∀ (k : Fin 6) (i : Fin 9) (t : Nat) (s : State), s.owDue k.val i.val t = false ∨ s.owLatched k.val i.val = true →
    exec (.openWireDetect k i t) s = .next (s.atT t))
  ∧ (∀ (t : Nat) (s : State), s.regionUp = true → (s.loaf.get s.auxLoafN).running = false → t % msCycles = 0 →
    (s.convAt 5).auxEndT < t →
    (∃ u : State, exec (.auxWindow t) s = .next u ∧ (u.convAt 5).auxEndT = t ∧ (∀ a ∈ u.acc, a.conv ≠ 5)
      ∧ (∀ i < 8, ∀ a, s.acc.find? (fun a => a.conv == 5 && a.input == i) = some a → a.count ≠ 0 →
        u.rd (Obj.chMean 5 i) = roundAway ((a.sum : Rat) / (a.count : Rat)))
      ∧ (∀ i < 8, s.acc.find? (fun a => a.conv == 5 && a.input == i) = none →
        u.rd (Obj.chMean 5 i) = s.rd (Obj.chMean 5 i) ∧ (u.convAt 5).auxStale.testBit i = true)))
  ∧ (∀ (t : Nat) (s : State), (s.loaf.get s.auxLoafN).running = true ∨ t % msCycles ≠ 0 ∨ t ≤ (s.convAt 5).auxEndT →
    exec (.auxWindow t) s = .next (s.atT t))
  ∧ (∀ (t : Nat) (s : State), s.rd Obj.capState = 3 → s.cap.complete = true →
    (∃ u : State, exec (.captureComplete t) s = .next u ∧ u.rd Obj.capState = 4 ∧ u.rd Obj.capLen = (s.capImage.length : Int) ∧ u.cap = s.cap
      ∧ ObjsKept [Obj.capState, Obj.capLen] s u))
  ∧ (∀ (t : Nat) (s : State), s.cap.complete = false → exec (.captureComplete t) s = .next (s.atT t))

/-! ## Chapter 8: feedback -/

/-- Edges, the index, standstill and serial transfers (R253 to R260, R265 to R269, R273, R521): levels that the filter takes are counted; a legal transition moves the count by
one in its direction and times the edge, an illegal one is counted; a Hall state that is valid sets the count's sector; the index
measures, references and corrects; a serial transfer is usable, in error or failed.
Completes, by a clause of its own for each: `fbEdge`, `indexEvent`, `hallInvalid`, `standstill`, `serialTransferStart`, `serialTransferEnd`. -/
def Obligations.Feedback : Prop :=
(∀ (n : Fin 4) (a b z : Bool) (ns inst t : Nat) (s : State), s.regionUp = true → s.has n.val = true → s.rd (Obj.fbMode n.val) = 1 →
    filterTakes true (s.rdN (Obj.fbFilt n.val)) ns (Config.filterFree s.freeNo) = true →
    ∃ u d, d = (quadOf (s.dirInv n) a b + 4 - quadOf (s.dirInv n) (s.fb.get n).a (s.fb.get n).b) % 4
      ∧ exec (.fbEdge n a b z ns inst t) s = .next (State.settle u)
      ∧ (u.fb.get n).a = a ∧ (u.fb.get n).b = b ∧ (u.fb.get n).z = z
      ∧ (u.fb.get n).count = (s.fb.get n).count + (if d = 1 then 1 else if d = 3 then -1 else 0)
      ∧ (d = 1 ∨ d = 3 → u.rd (Obj.fbEdgeT n.val) = ((inst % 2 ^ 32 : Nat) : Int)
        ∧ u.rd (Obj.fbCount n.val) = signExt 32 (toBits 32 (u.fb.get n).count) ∧ (u.fb.get n).lastEdge = some inst
        ∧ u.rd (Obj.fbPos n.val) = posOfCount (u.fb.get n).count (s.cpr n) % 2 ^ 25)
      ∧ (d = 2 → (s.rd (Obj.illegalCnt n.val) < 0xFFFFFFFF → u.rd (Obj.illegalCnt n.val) = s.rd (Obj.illegalCnt n.val) + 1)
        ∧ (u.fb.get n).edges = [])
      ∧ (∀ m, m ≠ n → (u.fb.get m).still = (s.fb.get m).still))
  ∧ (∀ (n : Fin 4) (a b z : Bool) (ns inst t : Nat) (s : State), s.regionUp = true → s.has n.val = true →
    s.rd (Obj.fbMode n.val) = 5 →
    ∃ u d, d = (quadOf (s.dirInv n) a b + 4 - quadOf (s.dirInv n) (s.fb.get n).compA (s.fb.get n).compB) % 4
      ∧ exec (.fbEdge n a b z ns inst t) s = .next (State.settle u)
      ∧ (u.fb.get n).compA = a ∧ (u.fb.get n).compB = b
      ∧ (u.fb.get n).z = (if filterTakes true (s.rdN (Obj.fbFilt n.val)) ns (Config.filterFree s.freeNo) then z else (s.fb.get n).z)
      ∧ (u.fb.get n).count = (s.fb.get n).count + (if d = 1 then 1 else if d = 3 then -1 else 0))
  ∧ (∀ (n : Fin 4) (a b z : Bool) (ns inst t : Nat) (s : State), s.regionUp = true → s.has n.val = true →
    s.rd (Obj.fbMode n.val) = 2 → filterTakes true (s.rdN (Obj.fbFilt n.val)) ns (Config.filterFree s.freeNo) = true →
    ∃ u, exec (.fbEdge n a b z ns inst t) s = .next (State.settle u)
      ∧ (u.fb.get n).a = a ∧ (u.fb.get n).b = b ∧ (u.fb.get n).z = z
      ∧ (hallOf (s.dirInv n) a b z = none → (u.fb.get n).count = (s.fb.get n).count)
      ∧ (∀ k, hallOf (s.dirInv n) a b z = some k → (u.fb.get n).count % 6 = (k : Int) % 6
        ∧ ((u.fb.get n).count - (s.fb.get n).count).natAbs ≤ 3))
  ∧ (∀ (n : Fin 4) (a b z : Bool) (ns inst t : Nat) (s : State), s.regionUp = true → s.has n.val = true → filterTakes true (s.rdN (Obj.fbFilt n.val)) ns (Config.filterFree s.freeNo) = true →
    (s.rd (Obj.fbMode n.val) = 3 ∨ s.rd (Obj.fbMode n.val) = 4 →
      exec (.fbEdge n a b z ns inst t) s = .next ((s.atT t).drew.modFb n (fun f => { f with a := a, b := b, hallT := (
        if (hallSector a b f.z).isSome then none else some (f.hallT.getD t)) })))
    ∧ (s.rd (Obj.fbMode n.val) = 0 →
      exec (.fbEdge n a b z ns inst t) s = .next ((s.atT t).drew.modFb n (fun f => { f with a := a, b := b, z := z, hallT := (
        if (hallSector a b z).isSome then none else some (f.hallT.getD t)) }))))
  ∧ (∀ (n : Fin 4) (a b z : Bool) (ns inst t : Nat) (s : State), s.regionUp = true → s.has n.val = true →
    s.rd (Obj.fbMode n.val) ≠ 5 → filterTakes true (s.rdN (Obj.fbFilt n.val)) ns (Config.filterFree s.freeNo) = false →
    exec (.fbEdge n a b z ns inst t) s = .next (s.atT t).drew)
  ∧ (∀ (n : Fin 4) (t : Nat) (s : State), s.fbLive n [1, 5] = true → s.indexGate n = true → (s.fb.get n).gateWas = false →
    ∃ u d, d = indexDev (s.fb.get n).count (s.cpr n) ∧ exec (.indexEvent n t) s = .next (State.settle u)
      ∧ u.rd (Obj.idxDev n.val) = d ∧ (s.rd (Obj.idxCnt n.val) < 0xFFFFFFFF → u.rd (Obj.idxCnt n.val) = s.rd (Obj.idxCnt n.val) + 1)
      ∧ (u.fb.get n).sinceIdx = 0 ∧ (u.fb.get n).gateWas = true
      ∧ ((s.fb.get n).armed = true ∨ (s.rd (Obj.idxMode n.val) = 1 ∧ (s.fb.get n).posRef = false) →
        (u.fb.get n).count = 0 ∧ (u.fb.get n).posRef = true ∧ (u.fb.get n).armed = false)
      ∧ ((s.fb.get n).armed = false → s.rd (Obj.idxMode n.val) = 1 → (s.fb.get n).posRef = true →
        (d.natAbs : Int) ≤ s.rd (Obj.idxWindow n.val) → (u.fb.get n).count = (s.fb.get n).count - d)
      ∧ ((s.fb.get n).armed = false → s.rd (Obj.idxMode n.val) = 1 → (s.fb.get n).posRef = true →
        s.rd (Obj.idxWindow n.val) < (d.natAbs : Int) → (u.fb.get n).count = (s.fb.get n).count ∧ (u.fb.get n).slip = true
        ∧ (s.rd (Obj.slipCnt n.val) < 0xFFFFFFFF → u.rd (Obj.slipCnt n.val) = s.rd (Obj.slipCnt n.val) + 1)))
  ∧ (∀ (n : Fin 4) (t : Nat) (s : State), s.indexGate n = false ∨ (s.fb.get n).gateWas = true → exec (.indexEvent n t) s = .next (s.atT t))
  ∧ (∀ (n : Fin 4) (b t : Nat) (s : State), s.fbLive n [2] = true →
    hallSector (s.fb.get n).a (s.fb.get n).b (s.fb.get n).z = none → (s.fb.get n).hallT = some b → b + 20 * usCycles ≤ t →
    (∃ t' : State, exec (.hallInvalid n t) s = .next t' ∧ Quiet ((s.atT t).modFb n (fun f => { f with hallT := none })) t'
        ∧ (((s.atT t).modFb n (fun f => { f with hallT := none })).raisable 0x4805 (mkInst n.val 0) = true → (((s.atT t).modFb n (fun f => { f with hallT := none })).classOf 0x4805).1 ≠ .c0 → t'.isPending 0x4805 (mkInst n.val 0) = true)))
  ∧ (∀ (n : Fin 4) (t : Nat) (s : State), (∀ b, (s.fb.get n).hallT = some b → t < b + 20 * usCycles) →
    exec (.hallInvalid n t) s = .next (s.atT t))
  ∧ (∀ (n : Fin 4) (t : Nat) (s : State), s.fbLive n [1, 2, 5] = true →
    ((s.fb.get n).lastEdge.getD (s.fb.get n).startT) + s.rdN (Obj.spdStandstill n.val) * usCycles ≤ t →
    (∃ u : State, exec (.standstill n t) s = .next u ∧ u.rd (Obj.spd n.val) = 0 ∧ u.rd (Obj.spdEdge n.val) = 0 ∧ (u.fb.get n).ve = 0
      ∧ (u.fb.get n).spdValid = false ∧ (u.fb.get n).standstill = true ∧ (u.fb.get n).edges = []
      ∧ (u.fb.get n).count = (s.fb.get n).count ∧ ObjsKept [Obj.spd n.val, Obj.spdEdge n.val] s u))
  ∧ (∀ (n : Fin 4) (t : Nat) (s : State),
    t < ((s.fb.get n).lastEdge.getD (s.fb.get n).startT) + s.rdN (Obj.spdStandstill n.val) * usCycles → exec (.standstill n t) s = .next (s.atT t))
  ∧ (∀ (n : Fin 4) (t : Nat) (s : State), s.fbLive n [3, 4] = true → s.serDue n t = true →
    ((s.fb.get n).serBusy = none → (s.fb.get n).serQ = [] →
      exec (.serialTransferStart n t) s = .next ((s.atT t).modFb n (fun f => { f with
        serBusy := some (s.serFrom n t), serFor := t + s.rdN (Obj.serLead n.val), serLate := false })))
    ∧ ((s.fb.get n).serBusy ≠ none →
      exec (.serialTransferStart n t) s = .next ((s.atT t).modFb n (fun f => { f with
        serQ := f.serQ ++ [t + s.rdN (Obj.serLead n.val)] }))))
  ∧ (∀ (n : Fin 4) (t : Nat) (s : State), s.serDue n t = false → exec (.serialTransferStart n t) s = .next (s.atT t))
  ∧ (∀ (n : Fin 4) (r : SerialResult) (t t0 : Nat) (s : State) (w : Option SerialWord), s.fbLive n [3, 4] = true →
    (s.fb.get n).serBusy = some t0 → t0 ≤ t → (s.fb.get n).serLate = false →
    w = (if s.rd (Obj.fbMode n.val) = 4 then bissWord (s.rdN (Obj.serMtBits n.val) + s.rdN (Obj.serStBits n.val)) r
      else ssiWord (s.rdN (Obj.serMtBits n.val) + s.rdN (Obj.serStBits n.val)) r) →
    ∃ u, exec (.serialTransferEnd n r t) s = .next (State.settle ((State.serNext n t u).sampleCame n))
      ∧ (u.fb.get n).serBusy = none ∧ (u.fb.get n).serEndT = some t
      ∧ (w = none → (u.fb.get n).serRun = (s.fb.get n).serRun + 1 ∧ (u.fb.get n).serOkRun = 0 ∧ (u.fb.get n).spdValid = false
        ∧ (s.rd (Obj.serErrCnt n.val) < 0xFFFFFFFF → u.rd (Obj.serErrCnt n.val) = s.rd (Obj.serErrCnt n.val) + 1))
      ∧ (∀ x, w = some x → (u.fb.get n).serRun = 0 ∧ (u.fb.get n).serOkRun = (s.fb.get n).serOkRun + 1
        ∧ (x.nE = true → (u.fb.get n).posValid = true ∧ (s.fb.get n).serFor ∈ (u.fb.get n).serGot ∧ (u.fb.get n).sampT = t0
          ∧ u.rd (Obj.fbPos n.val) = (u.fb.get n).serPos % 2 ^ 25)))
  ∧ (∀ (n : Fin 4) (r : SerialResult) (t t0 : Nat) (s : State), (s.fb.get n).serBusy = some t0 → t0 ≤ t →
    (s.fb.get n).serLate = true → exec (.serialTransferEnd n r t) s = .next (State.settle ((State.serNext n t
      ((s.atT t).modFb n (fun f => { f with serBusy := none, serLate := false, serEndT := some t }))).sampleCame n)))
  ∧ (∀ (n : Fin 4) (r : SerialResult) (t : Nat) (s : State),
    (s.fb.get n).serBusy = none ∨ (∃ t0, (s.fb.get n).serBusy = some t0 ∧ t < t0) →
    exec (.serialTransferEnd n r t) s = .next (s.atT t))

/-! ## Chapter 12: safety functions -/

/-- Inputs, tests and timers (R376, R377, R379 to R383, R386, R389, R391, R392): a level that the filter takes becomes
the channel's view, and both channels evaluate: an STO input that reads low drops the channel's enable under `STO_FUNC` 0 and
starts its SS1-t under `STO_FUNC` 1, whose end drops it. Channel C raises what it finds at once, channel M in a `FAULT` packet.
Completes, by a clause of its own for each: `safetyInputChange`, `inputStageTest`, `testPulseMissing`, `channelDiscrepancy`,
`stoDiscrepancy`, `guardDiscrepancy`, `brakeTest`, `brakeMismatch`, `enableReadbackMismatch`, `ss1TimerExpiry`, `ss1BrakeExpiry`,
`sbcStoLagExpiry`. -/
def Obligations.SafetyFunctions : Prop :=
(∀ (ch : Chan) (i : SafetyInput) (level : Bool) (ns t : Nat) (s : State), s.chanUp ch = true →
    safeFilterTakes ns (Config.filterFree s.freeNo) = true →
    s.viewOf ch (inputNum i) ≠ level ∨ s.takenOf ch (inputNum i) = false →
    ∃ u : State, exec (.safetyInputChange ch i level ns t) s = .next ((u.discStep ch).safetyEval).settle
      ∧ u.viewOf ch (inputNum i) = level ∧ u.takenOf ch (inputNum i) = true
      ∧ (∀ j, j ≠ inputNum i → u.viewOf ch j = s.viewOf ch j) ∧ u.objs = s.objs ∧ u.loaf = s.loaf ∧ u.grp = s.grp)
  ∧ (∀ (ch : Chan) (i : SafetyInput) (ns t : Nat) (s : State), s.chanUp ch = true → i = .stoA ∨ i = .stoB →
    safeFilterTakes ns (Config.filterFree s.freeNo) = true →
    s.viewOf ch (inputNum i) = true ∨ s.takenOf ch (inputNum i) = false → s.safety.governs ≠ none → s.stoIn ch = false →
    (s.rd Obj.stoFunc = 0 → ∃ u, exec (.safetyInputChange ch i false ns t) s = .next (State.settle u) ∧ u.stoIn ch = true
      ∧ u.genOf ch = false ∧ AllOff u ∧ (ch = .c → u.safety.stoC = true) ∧ (ch = .m → u.safety.stoM = true))
    ∧ (s.rd Obj.stoFunc = 1 → s.rd Obj.guardReact = 0 → s.rd Obj.ss1Time ≠ 0 →
      ∃ u, exec (.safetyInputChange ch i false ns t) s = .next (State.settle u) ∧ u.stoIn ch = true ∧ u.ss1Runs ch = true))
  ∧ (∀ (ch : Chan) (i : SafetyInput) (level : Bool) (ns t : Nat) (s : State),
    safeFilterTakes ns (Config.filterFree s.freeNo) = false
      ∨ (s.viewOf ch (inputNum i) = level ∧ s.takenOf ch (inputNum i) = true) →
    exec (.safetyInputChange ch i level ns t) s = .next (s.atT t).drew)
  ∧ (∀ (ns : Nat) (free : Bool), (ns ≤ 1000000 → safeFilterTakes ns free = false)
    ∧ (1575000 < ns → safeFilterTakes ns free = true))
  ∧ (∀ (i : SafetyInput) (t : Nat) (s : State), s.regionUp = true →
    (∃ t' : State, exec (.inputStageTest .c i false) s = .next t' ∧ Quiet s t'
        ∧ (s.raisable 0xE405 (mkInst (inputSide i) 0) = true → (s.classOf 0xE405).1 ≠ .c0 → t'.isPending 0xE405 (mkInst (inputSide i) 0) = true))
    ∧ (∀ cross, s.pulseDue (inputNum i) = true → (cross = false → (s.atT t).pulseLate (inputNum i) = true) →
      (cross = true → s.pulseDue (pairMate (inputNum i)) = true) →
      (∃ t' : State, exec (.testPulseMissing i cross t) s = .next t' ∧ Quiet (s.atT t) t'
          ∧ ((s.atT t).raisable 0xE405 (mkInst (inputSide i) 0) = true → ((s.atT t).classOf 0xE405).1 ≠ .c0 → t'.isPending 0xE405 (mkInst (inputSide i) 0) = true)))
    ∧ (s.boot.stage = .askard → (inputNum i).val < 2 ∨ s.rd Obj.guardReact ≠ 0 →
      lastedOn .c (s.safety.chanDiff.get (inputNum i)) 20 t = true →
      (∃ t' : State, exec (.channelDiscrepancy i t) s = .next t' ∧ Quiet (s.atT t) t'
          ∧ ((s.atT t).raisable 0xE405 (mkInst (inputSide i) 0) = true → ((s.atT t).classOf 0xE405).1 ≠ .c0 → t'.isPending 0xE405 (mkInst (inputSide i) 0) = true)))
    ∧ (s.safety.governs ≠ none → lastedOn .c s.safety.discTC 20 t = true →
      (∃ t' : State, exec (.stoDiscrepancy .c t) s = .next t' ∧ Quiet (s.atT t) t'
          ∧ ((s.atT t).raisable 0xE404 0 = true → ((s.atT t).classOf 0xE404).1 ≠ .c0 → t'.isPending 0xE404 0 = true)))
    ∧ (s.safety.governs ≠ none → s.rd Obj.guardReact ≠ 0 →
      lastedOn .c s.safety.guardDiffC (s.rdN Obj.guardDisc) t = true →
      (∃ t' : State, exec (.guardDiscrepancy .c t) s = .next t' ∧ Quiet (s.atT t) t'
          ∧ ((s.atT t).raisable 0xE408 0 = true → ((s.atT t).classOf 0xE408).1 ≠ .c0 → t'.isPending 0xE408 0 = true)))
    ∧ (s.safety.brkA = true → (∃ t' : State, exec (.brakeTest .c false) s = .next t' ∧ Quiet s t'
        ∧ (s.raisable 0xE407 0 = true → (s.classOf 0xE407).1 ≠ .c0 → t'.isPending 0xE407 0 = true)))
    ∧ (∃ t' : State, exec (.brakeMismatch .c) s = .next t' ∧ Quiet (s.brakeShut .c) t'
        ∧ ((s.brakeShut .c).raisable 0xE407 0 = true → ((s.brakeShut .c).classOf 0xE407).1 ≠ .c0 → t'.isPending 0xE407 0 = true))
    ∧ (∃ t' : State, exec (.enableReadbackMismatch .c) s = .next t' ∧ Quiet (s.modSafety (fun f => { f with genBackC := some !f.genC })) t'
        ∧ ((s.modSafety (fun f => { f with genBackC := some !f.genC })).raisable 0xE406 (mkInst 0 0) = true → ((s.modSafety (fun f => { f with genBackC := some !f.genC })).classOf 0xE406).1 ≠ .c0 → t'.isPending 0xE406 (mkInst 0 0) = true))
    ∧ (∃ t' : State, exec (.enableReadbackMismatch .m) s = .next t' ∧ Quiet (s.modSafety (fun f => { f with genBackM := some !f.genM })) t'
        ∧ ((s.modSafety (fun f => { f with genBackM := some !f.genM })).raisable 0xE406 (mkInst 1 0) = true → ((s.modSafety (fun f => { f with genBackM := some !f.genM })).classOf 0xE406).1 ≠ .c0 → t'.isPending 0xE406 (mkInst 1 0) = true)))
  ∧ (∀ (i : SafetyInput) (t : Nat) (s : State), s.boot.stage = .askard →
    exec (.inputStageTest .m i false) s = .next (s.reportM 0xE405 (mkInst (inputSide i) 0) ((inputNum i).val : Int))
    ∧ (s.safety.governs ≠ none → lastedOn .m s.safety.discTM 20 t = true →
      exec (.stoDiscrepancy .m t) s = .next ((s.atT t).reportM 0xE404 0 0))
    ∧ (s.safety.governs ≠ none → s.rd Obj.guardReact ≠ 0 → lastedOn .m s.safety.guardDiffM (s.rdN Obj.guardDisc) t = true →
      exec (.guardDiscrepancy .m t) s = .next ((s.atT t).reportM 0xE408 0 0))
    ∧ (s.safety.brkB = true → exec (.brakeTest .m false) s = .next (s.reportM 0xE407 1 1))
    ∧ exec (.brakeMismatch .m) s = .next ((s.brakeShut .m).reportM 0xE407 1 1))
  ∧ (∀ (ch : Chan) (i : SafetyInput) (t : Nat) (s : State),
    exec (.inputStageTest ch i true) s = .next s ∧ exec (.brakeTest ch true) s = .next s
    ∧ (lastedOn .c (s.safety.chanDiff.get (inputNum i)) 20 t = false
      ∨ (2 ≤ (inputNum i).val ∧ s.rd Obj.guardReact = 0) → exec (.channelDiscrepancy i t) s = .next (s.atT t))
    ∧ (s.safety.governs = none ∨ lastedOn ch (s.stoDiffer ch) 20 t = false → exec (.stoDiscrepancy ch t) s = .next (s.atT t))
    ∧ (s.safety.governs = none ∨ s.rd Obj.guardReact = 0 ∨ lastedOn ch (s.guardDiffer ch) (s.rdN Obj.guardDisc) t = false →
      exec (.guardDiscrepancy ch t) s = .next (s.atT t)))
  ∧ (∀ (ch : Chan) (t : Nat) (s : State), s.ss1Runs ch = true →
    passedOn ch (s.ss1From ch) (s.rdN Obj.ss1Time * msCycles) (s.atT t).time.now = true →
    ∃ u, exec (.ss1TimerExpiry ch t) s = .next (State.stoEnd ch u).settle ∧ u.ss1Runs ch = false ∧ u.genOf ch = false ∧ AllOff u
      ∧ (ch = .c → u.safety.stoC = true ∧ u.safety.ss1EndC = true) ∧ (ch = .m → u.safety.stoM = true ∧ u.safety.ss1EndM = true))
  ∧ (∀ (ch : Chan) (s : State), s.ss1Runs ch = true → (s.demandSto ch).ss1Runs ch = false ∧ (s.demandSto ch).genOf ch = false
    ∧ (ch = .c → (s.demandSto ch).safety.ss1EndC = true
      ∧ (s.safety.react5 = true → s.mode = .operational → (s.demandSto ch).mode = .safe))
    ∧ (ch = .m → (s.demandSto ch).safety.ss1EndM = true))
  ∧ (∀ (ch : Chan) (t : Nat) (s : State), s.ss1Runs ch = false →
    exec (.ss1TimerExpiry ch t) s = .next (s.atT t) ∧ exec (.ss1BrakeExpiry ch t) s = .next (s.atT t))
  ∧ (∀ (ch : Chan) (t : Nat) (s : State), s.chanUp ch = true → s.rd Obj.sbcEn = 1 → s.safety.genC = false ∨ s.safety.genM = false →
    passedOn ch s.safety.genFallT (s.rdN Obj.sbcStoLag * msCycles) t = true →
    (∃ t' : State, exec (.sbcStoLagExpiry ch t) s = .next t' ∧ Quiet ((s.atT t).brakeOff ch) t') ∧ ((s.atT t).brakeOff ch).brakeOn ch = false)
  ∧ (∀ (ch : Chan) (t : Nat) (s : State), s.rd Obj.sbcEn ≠ 1 ∨ (s.safety.genC = true ∧ s.safety.genM = true)
    ∨ passedOn ch s.safety.genFallT (s.rdN Obj.sbcStoLag * msCycles) t = false → exec (.sbcStoLagExpiry ch t) s = .next (s.atT t))
  ∧ (∀ (ch : Chan) (t : Nat) (s : State), s.ss1Runs ch = true → s.rd Obj.sbcEn = 1 →
    passedOn ch (s.ss1From ch) ((s.rdN Obj.ss1Time - s.rdN Obj.sbcDelay) * msCycles) t = true →
    ∃ u, exec (.ss1BrakeExpiry ch t) s = .next (State.settle u) ∧ u.brakeOn ch = false
      ∧ (∀ g : Fin 4, g.val = s.rdN Obj.sbcGroup → (s.grp.get g).st = .stopping → s.rd (Obj.stallMode g.val) = 1 →
        (u.grp.get g).brakeDue = true))

/-! ## Chapter 13: the network -/

/-- The switch and the IPv4 endpoint (R409 to R412, R420, R421): a frame that fails its checks is only counted; a good one is
counted, its sender learned, and queued at each port it goes to unless the queue is full; a port sends a frame of its high queue
first; addresses age, ports come and go, ARP and echo requests are answered within their limits.
Completes, by a clause of its own for each: `ethFrameRx`, `ethFrameTx`, `addressAging`, `phyPoll`, `arpRx`, `icmpEcho`, `arpCacheAging`. -/
def Obligations.Switch : Prop :=
(∀ (p : Fin 2) (f : EthFrame) (t : Nat) (s : State), s.portUp p.val = true →
    f.fcsOk = false ∨ f.len < 64 ∨ 1522 < f.len → exec (.ethFrameRx p f t) s = .next ((s.atT t).bump (Obj.ethFcsErr p.val)))
  ∧ (∀ (p : Fin 2) (f : EthFrame) (t : Nat) (s w : State), w = ((s.atT t).bump (Obj.ethRx p.val)).learn f.src p.val →
    s.portUp p.val = true → f.fcsOk = true → 64 ≤ f.len → f.len ≤ 1522 →
    (∃ u : State, exec (.ethFrameRx p f t) s = .next u ∧ (s.rd (Obj.ethRx p.val) < 0xFFFFFFFF → u.rd (Obj.ethRx p.val) = s.rd (Obj.ethRx p.val) + 1)
      ∧ (s.net.macs.any (fun e => e.1 == f.src) = true ∨ s.net.macs.length < 512 →
        u.net.macs.find? (fun e => e.1 == f.src) = some (f.src, p.val, (s.atT t).time.now))
      ∧ (∀ e, w.forwardTo p.val f = [] → u.net.egress.getD e [] = s.net.egress.getD e [])
      ∧ (∀ q, w.forwardTo p.val f = [q] → q < s.net.egress.length →
        w.tcpPush.queueFull q (f.dst == bcastMac) ((s.atT t).egressFrame p.val f) = false →
        u.net.egress.getD q [] = w.tcpPush.net.egress.getD q [] ++ [(s.atT t).egressFrame p.val f])))
  ∧ (∀ (p : Fin 2) (f : EthFrame) (t : Nat) (s : State), s.portUp p.val = false → exec (.ethFrameRx p f t) s = .next (s.atT t))
  ∧ (∀ (p : Fin 3) (t : Nat) (f : EgressFrame) (s w : State), w = (s.atT t).tcpPush →
    nextFrame p.val (w.net.egress.getD p.val []) = some f →
    (p.val < 2 → (∃ x ∈ w.net.egress.getD p.val [], x.high = true) → f.high = true)
    ∧ (∃ u : State, exec (.ethFrameTx p t) s = .next u
        ∧ ((∀ h r c, f.own ≠ some (.pdelayResp h r c)) → u.net.egress.getD p.val [] = (w.net.egress.getD p.val []).erase f)
      ∧ (∃ g, u.net.txLast = some (p.val, g) ∧ g.len = f.len ∧ g.ptp = f.ptp
        ∧ (s.rd Obj.ptpTc ≠ 1 ∨ f.ptp = none ∨ p.val = 2 ∨ f.ingress = 2 ∨ f.tagged = true → g = f))
      ∧ (p.val < 2 → s.rd (Obj.ethTx p.val) < 0xFFFFFFFF → u.rd (Obj.ethTx p.val) = s.rd (Obj.ethTx p.val) + 1)
      ∧ (∀ h c, p.val < 2 → f.own = some (.delayReq h c) → h.seq = s.net.reqSeq → u.net.reqLatch = some (w.stampTx p.val))
      ∧ (∀ h c, p.val < 2 → f.own = some (.pdelayReq h c) → h.seq = s.net.pdSeq.getD p.val 0 → p.val < s.net.pdLatch.length →
        u.net.pdLatch.getD p.val none = some (w.stampTx p.val))
      ∧ (∀ h r c, p.val < 2 → f.own = some (.pdelayResp h r c) → u.net.pdSent = some (p.val, h.seq, r, w.stampTx p.val)
        ∧ u.net.egress.getD p.val [] = (w.net.egress.getD p.val []).erase f
          ++ [(OwnFrame.pdelayFollow h (w.stampTx p.val) c).frame])))
  ∧ (∀ (p : Fin 3) (t : Nat) (s : State), nextFrame p.val ((s.atT t).tcpPush.net.egress.getD p.val []) = none →
    exec (.ethFrameTx p t) s = .next (s.atT t).tcpPush)
  ∧ (∀ (mac : Nat) (e : Nat × Nat × Nat) (s : State), s.net.macs.find? (fun x => x.1 == mac) = some e →
    exec (.addressAging mac) s = .next ((s.atT (e.2.2 + 300 * secCycles)).modNet (fun n => { n with
      macs := n.macs.filter (fun x => x.1 != mac) })))
  ∧ (∀ (mac : Nat) (s : State), s.net.macs.find? (fun x => x.1 == mac) = none → exec (.addressAging mac) s = .next s)
  ∧ (∀ (p : Fin 2) (reg1 : Half) (refclk : Bool) (s : State), s.askard = true → p.val < s.net.up.length →
    (∃ t : State, exec (.phyPoll p reg1 refclk) s = .next t ∧ t.net.up.getD p.val false = (decide (reg1 ≠ 0xFFFF) && reg1.getLsbD 2 && refclk)
      ∧ (s.net.up.getD p.val false = true → t.net.up.getD p.val false = false → (∀ e ∈ t.net.macs, e.2.1 ≠ p.val)
        ∧ (∀ f ∈ t.net.foreign, f.port ≠ p.val)
        ∧ (0xE803, mkInst p.val 0, 0) ∈ t.flt.mRep)
      ∧ (s.net.up.getD p.val false = false → t.net.up.getD p.val false = true → t.net.arpSent = s.net.arpSent + 1)))
  ∧ (∀ (p : Fin 2) (reg1 : Half) (refclk : Bool) (s : State), s.askard = true →
    (∃ t : State, exec (.phyPoll p reg1 refclk) s = .next t ∧ t.net.mdio.head? = some
      { port := p.val, phy := s.rdN (if p = 0 then Obj.phyAddr0 else Obj.phyAddr1), reg := 1, value := reg1, write := false }))
  ∧ (∀ (isReq : Bool) (ip mac target : Nat) (s : State), s.askard = true →
    (∃ t : State, exec (.arpRx isReq ip mac target) s = .next t
        ∧ (isReq = true → target = s.net.ipNow → t.net.arpReplies = (ip, mac) :: s.net.arpReplies
        ∧ (∀ q ∈ t.portsTo ip, q < s.net.egress.length → s.tcpPush.queueFull q false (OwnFrame.arpReply ip mac).frame = false →
          (OwnFrame.arpReply ip mac).frame ∈ t.net.egress.getD q []))
      ∧ (isReq = false ∨ target ≠ s.net.ipNow → t.net.arpReplies = s.net.arpReplies ∧ t.net.egress = s.net.egress)
      ∧ (s.net.arp.any (fun e => e.1 == ip) = true ∨ (target = s.net.ipNow ∧ s.net.arp.length < 16) →
        t.net.arp.find? (fun e => e.1 == ip) = some (ip, mac, s.time.now))
      ∧ (s.net.arp.any (fun e => e.1 == ip) = false → target ≠ s.net.ipNow ∨ 16 ≤ s.net.arp.length → t.net.arp = s.net.arp)))
  ∧ (∀ (r : EchoRequest) (t : Nat) (s : State), s.askard = true →
    (r.fragment = false → r.payload.length ≤ 1472 → (s.nextHop r.peer).isSome = true →
      ((s.atT t).recentRate s.net.echoT).length < 100 →
      exec (.icmpEcho r t) s = .next (((s.atT t).modNet (fun n => { n with
        echoSent := n.echoSent + 1, echoT := (s.atT t).time.now :: (s.atT t).recentRate s.net.echoT })).ownSend
          (s.portsTo r.peer) (.echoReply r.peer r.payload)))
    ∧ (r.fragment = true ∨ 1472 < r.payload.length ∨ s.nextHop r.peer = none
      ∨ 100 ≤ ((s.atT t).recentRate s.net.echoT).length → exec (.icmpEcho r t) s = .next (s.atT t)))
  ∧ (∀ (ip : Nat) (s : State), (ip &&& s.net.mask = s.net.ipNow &&& s.net.mask → s.nextHop ip = some ip)
    ∧ (ip &&& s.net.mask ≠ s.net.ipNow &&& s.net.mask → s.net.gw ≠ 0 → s.nextHop ip = some s.net.gw)
    ∧ (ip &&& s.net.mask ≠ s.net.ipNow &&& s.net.mask → s.net.gw = 0 → s.nextHop ip = none ∧ s.portsTo ip = []))
  ∧ (∀ (ip : Nat) (e : Nat × Nat × Nat) (s : State), s.net.arp.find? (fun x => x.1 == ip) = some e →
    exec (.arpCacheAging ip) s = .next ((s.atT (e.2.2 + 60 * secCycles)).modNet (fun n => { n with
      arp := n.arp.filter (fun x => x.1 != ip) })))
  ∧ (∀ (ip : Nat) (s : State), s.net.arp.find? (fun x => x.1 == ip) = none → exec (.arpCacheAging ip) s = .next s)

/-- Connections and deliveries (R174 to R177, R414 to R417, R483, R499): four connections at most, a TLS handshake that gives the
user's role or closes, one command at a time and its response, the close that ends the connection's subscriptions; an open delivery
leaves on its path, and a sample joins it.
Completes, by a clause of its own for each: `tcpConnect`, `tlsHandshakeComplete`, `tlsHandshakeTimeout`, `netCommand`, `connectionClose`,
`netIdleTimeout`, `deliveryClose`, `objectSampleTick`. -/
def Obligations.Connections : Prop :=
(∀ (r : TcpRequest) (s : State), s.askard = true → (s.nextHop r.ip).isSome = true →
    (∀ c, r.dstPort = s.net.mgtPort → s.freeConn = some c →
      exec (.tcpConnect r) s = .next (s.modConn c (fun _ =>
        { ({} : Conn) with open_ := true, peer := r.ip, port := r.srcPort, since := s.time.now, cmdT := s.time.now })))
    ∧ (r.dstPort ≠ s.net.mgtPort ∨ (∀ c, (s.net.conns.get c).open_ = true) →
      exec (.tcpConnect r) s = .next (s.ownSend (s.portsTo r.ip) (.tcpReset r))))
  ∧ (∀ (r : TcpRequest) (s : State), s.nextHop r.ip = none → exec (.tcpConnect r) s = .next s)
  ∧ (∀ (c : Fin 4) (user : Option (Fin 16)) (o : TlsOffer) (exporter : List Byte) (s : State), (s.net.conns.get c).open_ = true →
    (s.net.conns.get c).tls = false →
    (∀ role u, s.certUser user (tlsOk o && o.chainOk) = some (role, u) →
      (∃ t : State, exec (.tlsHandshakeComplete c user o exporter) s = .next t
          ∧ t.net.conns.get c = { s.net.conns.get c with tls := true, role := role, user := u, keys := slice exporter 0 28 }
        ∧ t.rd (Obj.connDgrams c.val) = 0 ∧ ObjsKept [Obj.connDgrams c.val] s t
        ∧ (t.sec.unlocked = true ↔ s.sec.unlocked = true ∨ (role = 5 ∧ s.power.swReset.getLsbD 10 = true))))
    ∧ (s.certUser user (tlsOk o && o.chainOk) = none →
      (∃ t : State, exec (.tlsHandshakeComplete c user o exporter) s = .next t ∧ (t.net.conns.get c).open_ = false
        ∧ (t.net.conns.get c).job = (s.net.conns.get c).job ∧ t.sec.unlocked = s.sec.unlocked))
    ∧ (∃ t : State, exec (.tlsHandshakeTimeout c) s = .next t ∧ (t.net.conns.get c).open_ = false
      ∧ t.time.now = max s.time.now ((s.net.conns.get c).since + 10 * secCycles)))
  ∧ (∀ (o : TlsOffer), tlsOk o = true ↔ o.tls13 = true ∧ 0x1301 ∈ o.suites ∧ o.p256 = true ∧ o.cert = true)
  ∧ (∀ (c : Fin 4) (w : Word) (rest ws : List Word) (s : State), s.askard = true → (s.net.conns.get c).open_ = true →
    (s.net.conns.get c).tls = true → (s.net.conns.get c).queue = [] →
    (s.modConn c (fun x => { x with cmdT := s.time.now, queue := [w :: rest] })).nextSource = some (.net c) →
    cmdLen w ≤ 63 → ws = (List.range (cmdLen w)).map (fun i => rest.getD i 0) →
    ∃ u, exec (.netCommand c (w :: rest)) s = .next (State.settle u)
      ∧ (s.rd Obj.cmdTaken < 0xFFFFFFFF → u.rd Obj.cmdTaken = s.rd Obj.cmdTaken + 1)
      ∧ (u.net.conns.get c).cmdT = s.time.now ∧ (u.net.conns.get c).queue = []
      ∧ (cmdCode w ∈ allCodes → s.check (.net c) (s.net.conns.get c).role (cmdCode w) ws = 0 →
        u.jobOf (.net c) = some { code := cmdCode w, tag := cmdTag w, payload := ws, role := (s.net.conns.get c).role, waiting := false })
      ∧ (cmdCode w ∉ allCodes → (u.net.conns.get c).sent = [respWord 2 (cmdTag w) 0] ∧ u.jobOf (.net c) = none))
  ∧ (∀ (c : Fin 4) (words : List Word) (s : State), s.askard = true → (s.net.conns.get c).open_ = true →
    (s.net.conns.get c).tls = true → words ≠ [] → (s.net.conns.get c).job ≠ none ∨ s.takeable 0 = true →
    exec (.netCommand c words) s = .next (s.modConn c (fun x => { x with cmdT := s.time.now, queue := x.queue ++ [words] })))
  ∧ (∀ (c : Fin 4) (words : List Word) (s : State), (s.net.conns.get c).tls = false → exec (.netCommand c words) s = .next s)
  ∧ (∀ (c : Fin 4) (s : State), (s.net.conns.get c).open_ = true →
    (∃ t : State, exec (.connectionClose c) s = .next t ∧ (t.net.conns.get c).open_ = false ∧ (t.net.conns.get c).tls = false
      ∧ (t.net.conns.get c).job = (s.net.conns.get c).job
      ∧ (∀ j < 8, (t.sub j).active = true → (t.sub j).owner ≠ c.val + 1)
      ∧ (∀ x ∈ t.cmd.xfer, x.src ≠ .net c) ∧ (∀ d : Fin 4, d ≠ c → t.net.conns.get d = s.net.conns.get d))
    ∧ (s.rd Obj.netIdleS ≠ 0 → (∃ t : State, exec (.netIdleTimeout c) s = .next t ∧ (t.net.conns.get c).open_ = false
      ∧ t.time.now = max s.time.now ((s.net.conns.get c).cmdT + s.rdN Obj.netIdleS * secCycles)
      ∧ (∀ j < 8, (t.sub j).active = true → (t.sub j).owner ≠ c.val + 1)))
    ∧ (s.rd Obj.netIdleS = 0 → exec (.netIdleTimeout c) s = .next s))
  ∧ (∀ (j : Fin 8) (s w : State), w = s.atT ((s.sub j.val).firstT + ageLimit (s.sub j.val).udp) →
    (s.sub j.val).active = true → (s.sub j.val).nItems ≠ 0 →
    ((s.sub j.val).udp = false → s.cmd.mb2Queue.length < 8 → (w.recentRate s.cmd.rateMb2).length < 2000 →
      (∃ t : State, exec (.deliveryClose j) s = .next t ∧ t.cmd.mb2Queue = s.cmd.mb2Queue ++ [s.deliveryWords j.val]
        ∧ (t.sub j.val).items = [] ∧ (t.sub j.val).nItems = 0 ∧ (t.sub j.val).seqNo = ((s.sub j.val).seqNo + 1) % 2 ^ 32
        ∧ t.objs = s.objs ∧ t.time.now = max s.time.now ((s.sub j.val).firstT + 5 * msCycles)))
    ∧ ((s.sub j.val).udp = false → 8 ≤ s.cmd.mb2Queue.length →
      (∃ t : State, exec (.deliveryClose j) s = .next t ∧ t.cmd.mb2Queue = s.cmd.mb2Queue ∧ t.host.irqFlags.getLsbD 14 = true
        ∧ t.host.streamDrop = min (s.host.streamDrop + 1) 0xFFFFFFFF
        ∧ (s.rd (Obj.subDropped j.val) < 0xFFFFFFFF → t.rd (Obj.subDropped j.val) = s.rd (Obj.subDropped j.val) + 1)))
    ∧ (∀ d : Datagram, d = w.datagram (s.sub j.val).conn (s.deliveryWords j.val) → (s.sub j.val).udp = true →
      ((w.recentRate s.cmd.rateUdp).length < 20000 → w.portsTo d.dstIp = [] ∨ (∃ q ∈ w.portsTo d.dstIp,
        w.tcpPush.queueFull q false (OwnFrame.datagram d).frame = false) →
        (∃ t : State, exec (.deliveryClose j) s = .next t ∧ t.cmd.udpSent = d :: s.cmd.udpSent
          ∧ t.rd (Obj.connDgrams (s.sub j.val).conn.val) = s.rd (Obj.connDgrams (s.sub j.val).conn.val) + 1
          ∧ d.srcPort = s.net.streamPort ∧ d.dstPort = s.net.streamPort ∧ d.dstIp = (s.net.conns.get (s.sub j.val).conn).peer
          ∧ t.time.now = max s.time.now ((s.sub j.val).firstT + msCycles)))
      ∧ (20000 ≤ (w.recentRate s.cmd.rateUdp).length ∨ (w.portsTo d.dstIp ≠ [] ∧ ∀ q ∈ w.portsTo d.dstIp,
          w.tcpPush.queueFull q false (OwnFrame.datagram d).frame = true) →
        (∃ t : State, exec (.deliveryClose j) s = .next t ∧ t.cmd.udpSent = s.cmd.udpSent ∧ t.net = s.net
          ∧ (s.rd (Obj.subDropped j.val) < 0xFFFFFFFF → t.rd (Obj.subDropped j.val) = s.rd (Obj.subDropped j.val) + 1)))))
  ∧ (∀ (j : Fin 8) (s : State), (s.sub j.val).active = false ∨ (s.sub j.val).nItems = 0 → exec (.deliveryClose j) s = .next s)
  ∧ (∀ (j : Fin 8) (ws : List Word) (s w : State), (s.sub j.val).active = true → (s.sub j.val).source = 1 →
    w = (s.atT (s.sub j.val).nextT).modSub j.val (fun y => { y with nextT := y.nextT + y.period * msCycles }) →
    ws = (s.sub j.val).addrs.flatMap (fun a => (w.getWords (w.ownerRole (s.sub j.val).owner) a).take 1) →
    (s.sub j.val).items.length + ws.length ≤ deliveryRoom (s.sub j.val).udp →
    (∃ t : State, exec (.objectSampleTick j) s = .next t ∧ (t.sub j.val).items = (s.sub j.val).items ++ ws
      ∧ (t.sub j.val).nItems = (s.sub j.val).nItems + 1
      ∧ (t.sub j.val).nextT = (s.sub j.val).nextT + (s.sub j.val).period * msCycles
      ∧ { t with cmd := s.cmd } = s.atT (s.sub j.val).nextT))
  ∧ (∀ (j : Fin 8) (s : State), (s.sub j.val).active = false ∨ (s.sub j.val).source ≠ 1 →
    exec (.objectSampleTick j) s = .next s)

/-! ## Chapter 13: PTP, Leaven and the time units -/

/-- The PTP slave (R418 to R421, R427): offsets and delays from the compensated instants, the peer delay of each port, and the best
master of those heard; a change of a master that was heard brings HOLDOVER.
Completes, by a clause of its own for each: `ptpSync`, `ptpFollowUp`, `ptpDelayReqSend`, `ptpDelayResp`, `ptpAnnounce`,
`ptpAnnounceTimeout`, `pdelayReqSend`, `pdelayReq`, `pdelayResp`. -/
def Obligations.PtpSlave : Prop :=
(∀ (p : Fin 2) (h : PtpHead) (li origin corr : Int) (t : Nat) (x : Rat) (s w : State), w = s.atT t →
    w.fromMaster p.val h = true → -7 ≤ li → li ≤ 1 → x = w.stampRx p.val - s.rdR (Obj.asym p.val) - (corr : Rat) / 65536 →
    (∃ u : State, exec (.ptpSync p h false li origin corr t) s = .next u ∧ u.net.lastSync = some (x - (origin : Rat)) ∧ u.net.synced = true
        ∧ u.net.syncPend = none
      ∧ u.net.offset = some (showInt (x - (origin : Rat) - s.net.mpd), w.time.now)
      ∧ u.rd Obj.ptpOffset = clampI (-0x80000000) 0x7FFFFFFF (showInt (x - (origin : Rat) - s.net.mpd))
      ∧ ObjsKept [Obj.ptpOffset] s u)
    ∧ (∃ u : State, exec (.ptpSync p h true li origin corr t) s = .next u ∧ u.net.syncPend = some (p.val, h.seq, w.time.now, x) ∧ u.objs = s.objs))
  ∧ (∀ (p : Fin 2) (h : PtpHead) (two : Bool) (li origin corr : Int) (t : Nat) (s : State),
    (s.atT t).fromMaster p.val h = false ∨ li < -7 ∨ 1 < li →
    exec (.ptpSync p h two li origin corr t) s = .next (s.atT t))
  ∧ (∀ (p : Fin 2) (h : PtpHead) (t0 : Nat) (x : Rat) (origin corr : Int) (s : State), s.fromMaster p.val h = true →
    s.net.syncPend = some (p.val, h.seq, t0, x) →
    (∃ t : State, exec (.ptpFollowUp p h origin corr) s = .next t ∧ t.net.lastSync = some (x - (origin : Rat) - (corr : Rat) / 65536)
      ∧ t.net.syncPend = none ∧ t.net.synced = true
      ∧ t.net.offset = some (showInt (x - (origin : Rat) - (corr : Rat) / 65536 - s.net.mpd), t0)))
  ∧ (∀ (p : Fin 2) (h : PtpHead) (origin corr : Int) (s : State), s.net.syncPend = none ∨ s.fromMaster p.val h = false →
    exec (.ptpFollowUp p h origin corr) s = .next s)
  ∧ (∀ (p : Nat) (h : PtpHead) (s : State), s.fromMaster p h = true →
    (h.domain : Int) = s.rd Obj.ptpDomain ∧ (h.udp = true ↔ s.rd Obj.ptpTransport = 1) ∧ 2 ≤ h.version
      ∧ s.net.master = some h.src.1 ∧ s.ptpPort = some p)
  ∧ (∀ (p t : Nat) (s w : State), w = s.atT t → s.ptpOn = true → w.ptpPort = some p → s.rd Obj.ptpDelay = 0 →
    exec (.ptpDelayReqSend t) s = .next ((w.modNet (fun n => { n with
      reqSeq := (n.reqSeq + 1) % 65536, reqLatch := none })).ownSend [p]
        (.delayReq (w.ownHead p ((s.net.reqSeq + 1) % 65536) (0, 0)) (-65536 * s.rd (Obj.asym p)))))
  ∧ (∀ (p : Fin 2) (h : PtpHead) (receive corr : Int) (t3 x : Rat) (s : State), s.fromMaster p.val h = true →
    h.req = ownPort p.val → h.seq = s.net.reqSeq → s.rd Obj.ptpDelay = 0 → s.net.reqLatch = some t3 → s.net.lastSync = some x →
    (∃ t : State, exec (.ptpDelayResp p h receive corr) s = .next t ∧ t.net.reqLatch = none
      ∧ t.net.mpd = (x + ((receive : Rat) - t3 - (corr : Rat) / 65536)) / 2
      ∧ t.rd Obj.ptpMpd = shown32 (showInt t.net.mpd)))
  ∧ (∀ (p : Fin 2) (h : PtpHead) (receive corr : Int) (s : State), h.req ≠ ownPort p.val ∨ h.seq ≠ s.net.reqSeq →
    exec (.ptpDelayResp p h receive corr) s = .next s)
  ∧ (∀ (a : Announce) (s : State), s.ptpOn = true → s.hears a.head = true →
    (∃ t : State, exec (.ptpAnnounce a) s = .next t ∧ (∃ f ∈ t.net.foreign, f.clockId = a.head.src.1 ∧ f.port = a.port.val ∧ f.rank = announceRank a
        ∧ f.gmId = a.gmId
        ∧ f.steps = a.steps ∧ f.every = announceCycles a.logEvery ∧ f.heardT = s.time.now)
      ∧ t.net.master = bestMaster t.heardNow
      ∧ (t.net.master ≠ s.net.master → s.net.master ≠ none → t.time.lv0.st = .holdover ∧ t.net.lastSync = none)))
  ∧ (∀ (a : Announce) (s : State), s.hears a.head = false → exec (.ptpAnnounce a) s = .next s)
  ∧ (∀ (f g : Heard), (f.gmId ≠ g.gmId → f.better g = rankLt f.rank g.rank)
    ∧ (f.gmId = g.gmId → f.steps < g.steps → f.better g = true))
  ∧ (∀ (m : Nat) (s : State), s.ptpOn = true → s.net.master = some m →
    (∃ t : State, exec .ptpAnnounceTimeout s = .next t ∧ (∀ f ∈ t.net.foreign, f.clockId ≠ m)
      ∧ (∀ f ∈ s.net.foreign, f.clockId = m → s.heardUntil f < t.time.now)
      ∧ t.net.master = bestMaster t.heardNow ∧ t.net.master ≠ some m ∧ t.time.lv0.st = .holdover))
  ∧ (∀ (p : Fin 2) (t seq : Nat) (s w : State), w = s.atT t → s.peerMeasured = true → seq = (s.net.pdSeq.getD p.val 0 + 1) % 65536 →
    exec (.pdelayReqSend p t) s = .next ((w.modNet (fun n => { n with
      pdSeq := n.pdSeq.set p.val seq, pdLatch := n.pdLatch.set p.val none })).ownSend [p.val]
        (.pdelayReq (w.ownHead p.val seq (0, 0)) (-65536 * s.rd (Obj.asym p.val)))))
  ∧ (∀ (p : Fin 2) (h : PtpHead) (corr : Int) (t : Nat) (s w : State), w = s.atT t → s.peerMeasured = true →
    (s.hears h = true → exec (.pdelayReq p h corr t) s = .next (w.drew.ownSend [p.val]
      (.pdelayResp (w.ownHead p.val h.seq h.src) (w.stampRx p.val) corr)))
    ∧ (s.hears h = false → exec (.pdelayReq p h corr t) s = .next w))
  ∧ (∀ (p : Fin 2) (h : PtpHead) (t2 t3 corr : Int) (t : Nat) (t1 d : Rat) (s w : State), w = s.atT t → s.peerMeasured = true →
    s.hears h = true → h.req = ownPort p.val → h.seq = s.net.pdSeq.getD p.val 0 → s.net.pdLatch.getD p.val none = some t1 →
    p.val < s.net.peerD.length →
    d = (w.stampRx p.val - t1 - ((t3 - t2 : Int) : Rat) - s.rdR (Obj.asym p.val) - (corr : Rat) / 65536) / 2 →
    (∃ u : State, exec (.pdelayResp p h t2 t3 corr t) s = .next u ∧ u.rd (Obj.peerDelay p.val) = showU32 (Obj.peerDelay p.val) d
        ∧ u.net.peerD.getD p.val 0 = d
      ∧ u.net.pdLatch.getD p.val none = none
      ∧ (w.ptpPort = some p.val → u.net.mpd = d) ∧ (w.ptpPort ≠ some p.val → u.net.mpd = s.net.mpd)))



/-- Leaven, `PPS_OUT` and event timestamps (R422 to R429, R435): an offset beyond the jump limit is refused and shown, the servo's
rate stays within its limit, the first offset may step the clock; `PPS_OUT` rises only where it may; an event is stamped and kept
among the last 16 of its unit.
Completes, by a clause of its own for each: `leavenOffset`, `ppsRise`, `ppsFall`, `eventTimestamp`. -/
def Obligations.Timekeeping : Prop :=
(∀ (ch : Fin 2) (o : Int) (t : Nat) (s w : State), w = s.atT t → s.askard = true →
    (ch = 0 → ∃ b, s.net.offset = some (o, b) ∧ s.beforeStep b = false) → (ch = 1 → s.pair.clkDue = some o) →
    (s.lv ch).st ≠ .free →
    (s.rd (Obj.lvJump ch.val) < (o.natAbs : Int) →
      (∃ u : State, exec (.leavenOffset ch t) s = .next u ∧ (u.lv ch).st = .jump ∧ (u.lv ch).rate = (s.lv ch).integ
        ∧ (u.lv ch).jump = true ∧ (u.lv ch).jumpOfs = o ∧ u.time.station = w.time.station
        ∧ (ch = 0 → u.net.offset = none) ∧ (ch = 1 → u.pair.clkDue = none)
        ∧ (s.rd (Obj.lvRefused ch.val) < 0xFFFFFFFF → u.rd (Obj.lvRefused ch.val) = s.rd (Obj.lvRefused ch.val) + 1)
        ∧ (ch = 0 → (s.lv ch).st ≠ .jump → (0xE801, 0, clampI (-0x80000000) 0x7FFFFFFF o) ∈ u.flt.mRep)
        ∧ u.rd (Obj.lvLastOfs ch.val) = clampI (-0x80000000) 0x7FFFFFFF o))
    ∧ ((o.natAbs : Int) ≤ s.rd (Obj.lvJump ch.val) → 0 ≤ s.rd (Obj.lvMaxPpb ch.val) →
      (∃ u : State, exec (.leavenOffset ch t) s = .next u ∧ ((u.lv ch).st = .locked ∨ (u.lv ch).st = .tracking) ∧ (u.lv ch).jump = false
        ∧ -(s.rdR (Obj.lvMaxPpb ch.val)) ≤ (u.lv ch).rate ∧ (u.lv ch).rate ≤ s.rdR (Obj.lvMaxPpb ch.val)
        ∧ u.time.station = w.time.station ∧ u.flt = s.flt ∧ ObjsKept [Obj.lvLastOfs ch.val] s u)))
  ∧ (∀ (o : Int) (b t : Nat) (s w : State), w = s.atT t → s.askard = true → s.net.offset = some (o, b) → s.beforeStep b = false →
    s.time.lv0.st = .free → s.rd (Obj.lvInitStep 0) = 1 →
    (∃ u : State, exec (.leavenOffset 0 t) s = .next u ∧ u.time.station = (if w.time.station - o < 0 then 0 else w.time.station - o)
      ∧ (∀ n < 7, n < s.time.unitPending.length → s.rd (Obj.tuTrim n) = 1 → u.time.unitPending.getD n false = true)))
  ∧ (∀ (o : Int) (b t : Nat) (s : State), s.askard = true → s.net.offset = some (o, b) → s.beforeStep b = true →
    exec (.leavenOffset 0 t) s = .next ((s.atT t).modNet (fun n => { n with offset := none })))
  ∧ (∀ (ch : Fin 2) (t : Nat) (s : State), (ch = 0 → s.net.offset = none) → (ch = 1 → s.pair.clkDue = none) →
    exec (.leavenOffset ch t) s = .next (s.atT t))
  ∧ (∀ s w : State, w = s.atT (s.time.now + s.cyclesOf s.toSecond) →
    (s.askard = true → s.rd Obj.ppsEn = 1 → s.rd Obj.ppsGate = 0 ∨ s.time.lv0.st = .locked →
      exec .ppsRise s = .next (w.modTime (fun t => { t with
        ppsOut := true, ppsEnd := w.time.now + w.cyclesOf (1000 * s.rdR Obj.ppsWidth) })))
    ∧ (s.rd Obj.ppsEn ≠ 1 ∨ (s.rd Obj.ppsGate ≠ 0 ∧ s.time.lv0.st ≠ .locked) → exec .ppsRise s = .next w))
  ∧ (∀ s : State, s.time.ppsOut = true →
    exec .ppsFall s = .next ((s.atT s.time.ppsEnd).modTime (fun t => { t with ppsOut := false })))
  ∧ (∀ s : State, s.time.ppsOut = false → exec .ppsFall s = .next s)
  ∧ (∀ (u : Fin 2) (e : EtsEdge) (t : Nat) (s : State), s.regionUp = true → s.rdN (Obj.etsSrc u.val) = e.pad.val + 1 →
    (8 ≤ e.pad.val → s.has (e.pad.val - 8) = true) → s.rdBit (Obj.etsEdge u.val) (if e.rising then 0 else 1) = true →
    (∃ v : State, exec (.eventTimestamp u e t) s = .next v ∧ v.rd (Obj.etsCount u.val) = (s.rd (Obj.etsCount u.val) + 1) % 0x100000000
      ∧ (∃ x rest, (if u = 0 then v.time.ets0 else v.time.ets1) = x :: rest ∧ rest.length ≤ 15
        ∧ x.1 = (v.rd (Obj.etsCount u.val)).toNat ∧ x.2.1 = (if e.rising then 1 else 2) ∧ x.2.2.2 < 1000000000)
      ∧ ObjsKept [Obj.etsCount u.val] s v))
  ∧ (∀ (u : Fin 2) (e : EtsEdge) (t : Nat) (s : State),
    s.rdN (Obj.etsSrc u.val) ≠ e.pad.val + 1 ∨ s.rdBit (Obj.etsEdge u.val) (if e.rising then 0 else 1) = false →
    exec (.eventTimestamp u e t) s = .next (s.atT t))
  ∧ (∀ (u : Nat) (ofs : Rat) (s : State), u < 7 → 0x400000000 ≤ (s.trimRange u ofs).1 → (s.trimRange u ofs).2 ≤ 0x600000000 →
    absR (((s.trim u ofs).rd (Obj.tuInc u) : Rat) / 2 ^ 32 * msCycles + ofs
      - 5 * (1 - (if s.onPairClock u then s.time.lv1.rate else s.time.lv0.rate) / 1000000000) * msCycles) ≤ 20)

/-! ## Chapter 14: the peripheral port -/

/-- Transfers and lists (R440 to R456): list 0 goes before list 1 and both before the manual transfer; a transfer selects its
device, waits for `PRDY` where the device asks, ends complete or with its cause, and its result is shown; a list whose run is
still due or runs drops its trigger.
Completes, by a clause of its own for each: `ppTransferStart`, `pgpSelectDriven`, `prdyReady`, `prdyTimeout`, `ppTransferEnd`,
`listTrigger`. -/
def Obligations.PeripheralPort : Prop :=
(∀ (s : State) (tx : List Word), s.askard = true → s.pp.run = none → s.pp.next = none → s.pp.due0 = false → s.pp.due1 = false →
    s.pp.manual = true → tx = (List.range (s.rdN Obj.manCnt)).map (fun i => BitVec.ofInt 32 (s.rd (Obj.manTx i))) →
    (∃ t : State, exec .ppTransferStart s = .next t ∧ t.pp.manual = false
      ∧ (s.rdN (Obj.devSel (s.rdN Obj.manDev)) ≠ 0xFF → t.objs = s.objs
        ∧ t.time.now = max s.time.now (s.pp.freeT + ppCycles (max 40 (8 * s.rdN (Obj.devDiv (s.rdN Obj.manDev)))))
        ∧ ∃ r, t.pp.run = some r ∧ r.owner = 2 ∧ r.tx = tx
        ∧ r.dev = s.rdN Obj.manDev ∧ r.sel = s.rdN (Obj.devSel (s.rdN Obj.manDev)) ∧ r.nbits = s.rdN (Obj.devBits (s.rdN Obj.manDev))
        ∧ r.mode = s.rdN (Obj.devMode (s.rdN Obj.manDev)) ∧ r.prdyTo = s.rdN (Obj.devPrdyTo (s.rdN Obj.manDev)) ∧ r.cause = none
        ∧ (r.selected = true ↔ r.sel < 8) ∧ t.pp.sck = decide (2 ≤ r.mode)
        ∧ (r.sel < 8 → t.pp.psel = r.sel ∧ t.pp.pstbN = false ∧ r.begun = (if r.wait then 0 else tx.length)))
      ∧ (s.rdN (Obj.devSel (s.rdN Obj.manDev)) = 0xFF → t.pp.run = none ∧ t.rd Obj.manStat = 32773)))
  ∧ (∀ (s : State) (e : List Byte) (rest : List (List Byte)), s.askard = true → s.pp.run = none → s.pp.next = none → s.pp.due0 = true →
    ppEntries (s.blob (Obj.listDef 0) []) = e :: rest → s.rdN (Obj.devSel (leAt e 0 1)) ≠ 0xFF →
    (∃ t : State, exec .ppTransferStart s = .next t ∧ t.pp.due0 = false ∧ t.pp.due1 = s.pp.due1 ∧ t.pp.manual = s.pp.manual
      ∧ ∃ r, t.pp.run = some r ∧ r.owner = 0 ∧ r.dev = leAt e 0 1 ∧ r.rest = rest ∧ r.tx.length = leAt e 1 1))
  ∧ (∀ (s : State) (l : Nat) (e : List Byte) (rest : List (List Byte)), s.askard = true → s.pp.run = none →
    s.pp.next = some (l, e :: rest) → s.rdN (Obj.devSel (leAt e 0 1)) ≠ 0xFF →
    (∃ t : State, exec .ppTransferStart s = .next t ∧ t.pp.due0 = s.pp.due0 ∧ t.pp.due1 = s.pp.due1 ∧ t.pp.manual = s.pp.manual ∧ t.pp.next = none
      ∧ ∃ r, t.pp.run = some r ∧ r.owner = l ∧ r.dev = leAt e 0 1 ∧ r.rest = rest ∧ r.tx.length = leAt e 1 1))
  ∧ (∀ s : State, s.pp.run ≠ none → exec .ppTransferStart s = .next s)
  ∧ (∀ (r : PpRun) (s : State), s.pp.run = some r → r.selected = false → r.cause = none → r.sel = 8 ∨ r.sel = 9 →
    (s.pgpField (r.sel - 8) = 1 ∨ s.pgpField (r.sel - 8) = 2 →
      (∃ t : State, exec .pgpSelectDriven s = .next t ∧ t.pp.run = some (r.select s.time.now)
        ∧ (r.sel = 8 → t.pp.pgp0 = false) ∧ (r.sel = 9 → t.pp.pgp1 = false) ∧ { t with pp := s.pp } = s))
    ∧ (s.pgpField (r.sel - 8) = 0 → exec .pgpSelectDriven s = .next s))
  ∧ (∀ s : State, (s.pp.run = none ∨ ∃ r, s.pp.run = some r ∧ (r.selected = true ∨ r.cause ≠ none)) →
    exec .pgpSelectDriven s = .next s)
  ∧ (∀ (r : PpRun) (s : State), s.pp.run = some r → r.wait = true → r.selected = true → r.cause = none → r.begun < r.tx.length →
    s.time.now < r.expiry →
    (∃ t : State, exec .prdyReady s = .next t ∧ t.pp.prdy = true ∧ t.time.now = max s.time.now r.nextT
      ∧ t.pp.run = some { r with begun := r.begun + 1, nextT := max s.time.now r.nextT + r.wordCycles }
      ∧ { t with pp := s.pp, time := s.time } = s))
  ∧ (∀ s : State, (∀ r, s.pp.run = some r → r.wait = false ∨ r.selected = false ∨ r.cause ≠ none ∨ r.tx.length ≤ r.begun
      ∨ r.expiry ≤ s.time.now) → exec .prdyReady s = .next (s.modPp (fun p => { p with prdy := true })))
  ∧ (∀ (r : PpRun) (s : State), s.pp.run = some r → r.wait = true → r.selected = true → r.cause = none → r.begun < r.tx.length →
    (∃ t : State, exec .prdyTimeout s = .next t ∧ t.pp.prdy = false ∧ t.pp.run = some { r with cause := some 2 }
      ∧ t.time.now = max s.time.now (r.nextT + r.prdyTo * usCycles + 1)
      ∧ (0xF801, mkInst r.dev 0, 0) ∈ t.flt.mRep
      ∧ (s.rd (Obj.prdyToCnt r.dev) < 0xFFFFFFFF → t.rd (Obj.prdyToCnt r.dev) = s.rd (Obj.prdyToCnt r.dev) + 1)))
  ∧ (∀ (r : PpRun) (s : State), s.pp.run = some r → r.wait = false ∨ r.selected = false ∨ r.cause ≠ none ∨ r.tx.length ≤ r.begun →
    exec .prdyTimeout s = .next s)
  ∧ (∀ (r : PpRun) (rx : List (List Bool)) (c : Nat) (s : State), s.pp.run = some r →
    r.cause = some c ∨ (r.cause = none ∧ c = 0 ∧ r.selected = true ∧ r.begun = r.tx.length ∧ r.wordsDone rx = r.tx.length) →
    (r.owner = 2 → (∃ t : State, exec (.ppTransferEnd rx) s = .next t ∧ t.pp.run = none ∧ t.pp.pstbN = true ∧ t.pp.freeT = t.time.now
      ∧ t.pp.mosi = r.sentBits rx ∧ (r.cause = none → t.time.now = max s.time.now r.endT)
      ∧ t.rd Obj.manStat = ((c + 8 * r.lastBits t.time.now rx + 512 * r.wordsDone rx + 32768 : Nat) : Int)
      ∧ (∀ i < 8, t.rd (Obj.manRx i) = (r.rxWord rx i : Int))))
    ∧ (∀ e rest, r.owner ≠ 2 → c ≠ 1 → c ≠ 3 → r.rest = e :: rest → s.rdN (Obj.devSel (leAt e 0 1)) ≠ 0xFF →
      (∃ t : State, exec (.ppTransferEnd rx) s = .next t ∧ t.pp.run = none ∧ t.pp.pstbN = true ∧ t.pp.freeT = t.time.now
        ∧ t.pp.next = some (r.owner, e :: rest) ∧ t.objs = s.objs
        ∧ t.pp.build = s.pp.build ++ ppEntry c (r.lastBits t.time.now rx) (r.wordsDone rx) (r.rxWord rx 0) (r.rxWord rx 1))))
  ∧ (∀ (r : PpRun) (rx : List (List Bool)) (s : State), s.pp.run = some r → r.cause = none →
    r.selected = false ∨ r.begun ≠ r.tx.length ∨ r.wordsDone rx ≠ r.tx.length → exec (.ppTransferEnd rx) s = .next s)
  ∧ (∀ (order nbits i : Nat) (w : Word), i < nbits → nbits ≤ 32 → (ppBits order nbits w).length = nbits
    ∧ (ppBits order nbits w).getD i false = w.getLsbD (if order = 0 then nbits - 1 - i else i)
    ∧ ppWord order (ppBits order nbits w) = w.toNat % 2 ^ nbits)
  ∧ (∀ (l : Fin 2) (s x : State), s.askard = true → s.listDue l = some x →
    (if l = 0 then s.pp.due0 else s.pp.due1) = false → (∀ r, s.pp.run = some r → r.owner ≠ l.val) →
    (∀ y, s.pp.next = some y → y.1 ≠ l.val) →
    exec (.listTrigger l) s = .next (x.modPp (fun p => if l = 0 then { p with due0 := true } else { p with due1 := true })))
  ∧ (∀ (l : Fin 2) (s x : State), s.listDue l = some x →
    (s.rd (Obj.listTrig l.val) = 2 →
      x.time.now = max s.time.now ((if l = 0 then s.pp.trig0 else s.pp.trig1) + s.rdN (Obj.listPeriod l.val) * usCycles)
      ∧ (if l = 0 then x.pp.trig0 else x.pp.trig1) = x.time.now ∧ { x with time := s.time, pp := s.pp } = s)
    ∧ (s.rd (Obj.listTrig l.val) = 1 →
      (if l = 0 then s.pp.evt0 else s.pp.evt1) = (if l = 0 then x.pp.evt0 else x.pp.evt1) + s.rdN (Obj.listDiv l.val)
      ∧ { x with pp := s.pp } = s))
  ∧ (∀ (l : Fin 2) (s : State), s.rd (Obj.listTrig l.val) = 2 ∨ (s.rd (Obj.listTrig l.val) = 1
    ∧ s.rdN (Obj.listDiv l.val) ≤ (if l = 0 then s.pp.evt0 else s.pp.evt1)) ↔ ∃ x, s.listDue l = some x)
  ∧ (∀ (l : Fin 2) (s : State), s.listDue l = none → exec (.listTrigger l) s = .next s)

/-! ## Chapter 15: redundancy -/

/-- The mirror link (R465 to R470): a frame that is not 130 bytes with a good CRC is counted and discarded; a STATE frame is taken
where it is newer, a RELEASE frame also where it repeats the number; a HELLO that matches trains the link, and one that does not
reports 0xEC02; a link that falls silent reports 0xEC01 once; frames are repeated, and the link trains again.
Completes, by a clause of its own for each: `mirrorState`, `mirrorRelease`, `mirrorHello`, `mirrorFramesLost`, `mirrorRetrain`,
`mlPresTimeout`, `mirrorRepeat`. -/
def Obligations.MirrorLink : Prop :=
(∀ (bytes : List Byte) (t : Nat) (s : State), s.pairUp = true →
    bytes.length ≠ 130 ∨ leAt bytes 128 2 ≠ (crc16 (bytes.take 128)).toNat →
    ∀ c ∈ [Instr.mirrorState bytes t, .mirrorRelease bytes t, .mirrorHello bytes],
    ∃ u : State, (∃ t' : State, exec c s = .next t' ∧ Quiet u t') ∧ (s.rd Obj.mlCrcErr < 0xFFFFFFFF → u.rd Obj.mlCrcErr = s.rd Obj.mlCrcErr + 1)
      ∧ u.pair = { s.pair with crcRun := s.pair.crcRun + 1 })
  ∧ (∀ (bytes : List Byte) (t : Nat) (s y : State), s.pairUp = true → s.pair.trained = true → bytes.length = 130 →
    leAt bytes 128 2 = (crc16 (bytes.take 128)).toNat → y = s.atT t →
    (leAt bytes 0 1 = 0 → ∃ u : State, (∃ t' : State, exec (.mirrorState bytes t) s = .next t'
        ∧ Quiet (if s.mirrorNewer bytes && s.follows s.prGroup && (s.timingLoaf s.prGroup).isNone then u.followPartner s.prGroup else u) t')
      ∧ u.pair = { s.pair with crcRun := 0, rxT := y.time.now, rxSeq := leAt bytes 1 1, awaited := true, lost := false,
                               last := if s.mirrorNewer bytes then bytes else s.pair.last }
      ∧ ObjsKept [Obj.mlLatMax] s u)
    ∧ (leAt bytes 0 1 = 2 → s.follows s.prGroup = false ∨ (s.timingLoaf s.prGroup).isSome = true →
      ∃ u : State, (∃ t' : State, exec (.mirrorRelease bytes t) s = .next t' ∧ Quiet u t')
      ∧ u.pair = { s.pair with crcRun := 0, rxT := y.time.now, rxSeq := leAt bytes 1 1, awaited := true, lost := false,
                               last := if s.mirrorNewer bytes || decide (leAt bytes 4 4 = leAt s.pair.last 4 4) then bytes
                                 else s.pair.last }))
  ∧ (∀ (bytes : List Byte) (t : Nat) (s y : State), s.pairUp = true → s.pair.trained = false → bytes.length = 130 →
    leAt bytes 128 2 = (crc16 (bytes.take 128)).toNat → y = s.atT t →
    ∀ c ∈ [Instr.mirrorState bytes t, .mirrorRelease bytes t],
      (∃ t' : State, exec c s = .next t' ∧ Quiet (y.modPair (fun p => { p with crcRun := 0, rxT := y.time.now, rxSeq := leAt bytes 1 1 })) t'))
  ∧ (∀ (bytes : List Byte) (t : Nat) (s : State), s.pairUp = false →
    exec (.mirrorState bytes t) s = .next (s.atT t) ∧ exec (.mirrorRelease bytes t) s = .next (s.atT t)
      ∧ exec (.mirrorHello bytes) s = .next s)
  ∧ (∀ (bytes : List Byte) (s x y : State), s.pairUp = true → bytes.length = 130 →
    leAt bytes 128 2 = (crc16 (bytes.take 128)).toNat → leAt bytes 0 1 = 1 →
    x = s.modPair (fun p => { p with crcRun := 0, rxT := s.time.now, rxSeq := leAt bytes 1 1 }) →
    y = x.modPair (fun p => { p with helloSent := s.helloFrame, txSeq := (p.txSeq + 1) % 256 }) →
    (s.pair.mlPres = true → y.helloFault bytes = none → (∃ t' : State, exec (.mirrorHello bytes) s = .next t' ∧ Quiet (y.modPair (fun p => { p with
        trained := true, hello02 := [], bWait := false, awaited := true })) t'))
    ∧ (s.pair.mlPres = true → ∀ d, y.helloFault bytes = some d → d ∉ s.pair.hello02 →
      (∃ t' : State, exec (.mirrorHello bytes) s = .next t' ∧ Quiet (y.modPair (fun p => { p with hello02 := p.hello02 ++ [d] })) t'
          ∧ ((y.modPair (fun p => { p with hello02 := p.hello02 ++ [d] })).raisable 0xEC02 0 = true → ((y.modPair (fun p => { p with hello02 := p.hello02 ++ [d] })).classOf 0xEC02).1 ≠ .c0 → t'.isPending 0xEC02 0 = true)))
    ∧ (s.pair.mlPres = false → (∃ t' : State, exec (.mirrorHello bytes) s = .next t' ∧ Quiet x t')))
  ∧ (∀ (t : Nat) (s : State), s.pairUp = true → s.pair.awaited = true → s.pair.lost = false →
    (3 * s.mirrorI + 1 / 100000) * 200000000 ≤ (((s.atT t).time.now - s.pair.rxT : Nat) : Rat) →
    ∃ u : State, (∃ t' : State, exec (.mirrorFramesLost t) s = .next t' ∧ Quiet u t'
        ∧ (u.raisable 0xEC01 0 = true → (u.classOf 0xEC01).1 ≠ .c0 → t'.isPending 0xEC01 0 = true)) ∧ u.pair = { s.pair with lost := true }
        ∧ u.rd Obj.prCapPartner = 0
      ∧ (s.rd Obj.mlLost < 0xFFFFFFFF → u.rd Obj.mlLost = s.rd Obj.mlLost + 1))
  ∧ (∀ (t : Nat) (s : State), s.pair.lost = true ∨ s.pair.awaited = false → exec (.mirrorFramesLost t) s = .next (s.atT t))
  ∧ (∀ s : State, s.pairUp = true →
    ∃ u : State, (∃ t' : State, exec .mirrorRetrain s = .next t' ∧ Quiet u t') ∧ u.pair = { s.pair with trained := false, crcRun := 0 }
      ∧ (s.rd Obj.mlRetrain < 0xFFFFFFFF → u.rd Obj.mlRetrain = s.rd Obj.mlRetrain + 1))
  ∧ (∀ s w : State, w = s.atT (s.pair.presT + secCycles) → s.pairUp = true → s.pair.mlPres = false → s.pair.trained = false →
    (1 ∉ s.pair.hello02 → (∃ t' : State, exec .mlPresTimeout s = .next t' ∧ Quiet (w.modPair (fun p => { p with hello02 := p.hello02 ++ [1] })) t'
        ∧ ((w.modPair (fun p => { p with hello02 := p.hello02 ++ [1] })).raisable 0xEC02 0 = true → ((w.modPair (fun p => { p with hello02 := p.hello02 ++ [1] })).classOf 0xEC02).1 ≠ .c0 → t'.isPending 0xEC02 0 = true)))
    ∧ (1 ∈ s.pair.hello02 → (∃ t' : State, exec .mlPresTimeout s = .next t' ∧ Quiet w t')))
  ∧ (∀ s : State, s.pair.mlPres = true ∨ s.pair.trained = true → exec .mlPresTimeout s = .next s)
  ∧ (∀ (t : Nat) (s w : State), w = s.atT t → s.pairUp = true → w.repeatDue = true → s.pair.sent.length = 130 →
    (∃ u : State, exec (.mirrorRepeat t) s = .next u ∧ u.pair.txSeq = (s.pair.txSeq + 1) % 256 ∧ u.pair.sent.length = 130
      ∧ slice u.pair.sent 4 4 = slice s.pair.sent 4 4 ∧ leAt u.pair.sent 1 1 = s.pair.txSeq % 256
      ∧ leAt u.pair.sent 8 4 = w.time.now % 2 ^ 32 ∧ slice u.pair.sent 17 111 = slice s.pair.sent 17 111
      ∧ leAt u.pair.sent 128 2 = (crc16 (u.pair.sent.take 128)).toNat ∧ { u with pair := s.pair } = w))
  ∧ (∀ (t : Nat) (s : State), s.pairUp = false ∨ (s.atT t).repeatDue = false → exec (.mirrorRepeat t) s = .next (s.atT t))

/-- The interlock, takeover and the pair clock (R462 to R464, R471, R472): side B yields as soon as the partner asserts, side A
after 2 µs; `ROLE_ACT` rises only while the partner's has read low and a request stands; the pair clock follows the partner's.
Completes, by a clause of its own for each: `rolePartnerChange`, `sideAPartnerHigh2us`, `roleActGrant`, `prBWaitExpiry`, `pairClockOffset`. -/
def Obligations.Takeover : Prop :=
(∀ (b : Bool) (t : Nat) (s : State), s.pairUp = true → s.prSide = 2 → s.pair.roleAct = true → s.pair.partner = false →
    ∃ u : State, (∃ t' : State, exec (.rolePartnerChange ⟨true, b⟩ t) s = .next t' ∧ Quiet u t'
        ∧ (u.raisable 0xEC03 0 = true → (u.classOf 0xEC03).1 ≠ .c0 → t'.isPending 0xEC03 0 = true)) ∧ u.pair.roleAct = false ∧ u.pair.partner = true)
  ∧ (∀ (pads : PairPads) (t : Nat) (s w : State), w = (s.atT t).notePres pads.present → s.pair.partner ≠ pads.partner →
    (pads.partner = false ∨ s.pair.roleAct = false ∨ s.prSide ≠ 2 ∨ s.pairUp = false) →
    (∃ t' : State, exec (.rolePartnerChange pads t) s = .next t' ∧ Quiet (w.modPair (fun p => { p with
      partner := pads.partner, partnerT := w.time.now, partnerF := w.partnerFilt })) t'))
  ∧ (∀ (pads : PairPads) (t : Nat) (s : State), s.pair.partner = pads.partner →
    (s.pair.mlPres = pads.present → exec (.rolePartnerChange pads t) s = .next (s.atT t))
    ∧ (s.pair.mlPres ≠ pads.present → exec (.rolePartnerChange pads t) s = .next ((s.atT t).modPair (fun p => { p with
      mlPres := pads.present, presT := (s.atT t).time.now }))))
  ∧ (∀ (t : Nat) (s : State), s.pairUp = true → s.prSide = 1 → s.pair.roleAct = true → s.pair.partner = true →
    2 * usCycles ≤ (s.atT t).time.now - s.pair.partnerT →
    ∃ u : State, (∃ t' : State, exec (.sideAPartnerHigh2us t) s = .next t' ∧ Quiet u t'
        ∧ (u.raisable 0xEC03 0 = true → (u.classOf 0xEC03).1 ≠ .c0 → t'.isPending 0xEC03 0 = true)) ∧ u.pair.roleAct = false)
  ∧ (∀ (t : Nat) (s : State), s.pair.partner = false ∨ s.pair.roleAct = false → exec (.sideAPartnerHigh2us t) s = .next (s.atT t))
  ∧ (∀ (t d : Nat) (s : State), s.pairUp = true → (s.atT t).partnerLow = true → (s.atT t).handoverOver = true →
    s.power.ckSafeBad = false → (s.atT t).takeRequest = some d →
    ∃ u : State, (∃ t' : State, exec (.roleActGrant t) s = .next t' ∧ Quiet u t'
        ∧ (u.raisable 0xEC04 0 = true → (u.classOf 0xEC04).1 ≠ .c0 → t'.isPending 0xEC04 0 = true)) ∧ u.pair.roleAct = true ∧ u.pair.handover = false
        ∧ u.pair.bWait = false
      ∧ (s.rd Obj.failovers < 0xFFFFFFFF → u.rd Obj.failovers = s.rd Obj.failovers + 1)
      ∧ u.rd Obj.prLastT = (((s.atT t).time.now % 2 ^ 32 : Nat) : Int))
  ∧ (∀ (t : Nat) (s : State), s.pair.partner = true ∨ (s.atT t).takeRequest = none →
    exec (.roleActGrant t) s = .next (s.atT t))
  ∧ (∀ s : State, s.pairUp = true → s.prSide = 2 → s.pair.trained = false → s.mode = .ready ∨ s.mode = .operational →
    (∃ t' : State, exec .prBWaitExpiry s = .next t'
        ∧ Quiet ((s.atT (s.boot.readyT + s.rdN Obj.prBWaitMs * msCycles)).modPair (fun p => { p with bWait := true })) t'))
  ∧ (∀ (t1 t2 t3 t4 o : Int) (s : State), s.askard = true → s.pairUp = true → s.prRole = 2 → s.prSide = 1 →
    o = showInt ((((t2 - t1) - (t4 - t3) : Int) : Rat) / 2) →
    exec (.pairClockOffset t1 t2 t3 t4) s = .next (s.wr Obj.prClkOfs (clampI (-0x80000000) 0x7FFFFFFF o)))
  ∧ (∀ (t1 t2 t3 t4 o : Int) (s : State), s.askard = true → s.pairUp = true → s.prRole = 2 → s.prSide = 2 →
    o = showInt ((((t2 - t1) - (t4 - t3) : Int) : Rat) / 2) →
    exec (.pairClockOffset t1 t2 t3 t4) s = .next ((s.wr Obj.prClkOfs (clampI (-0x80000000) 0x7FFFFFFF o)).modPair (fun p => { p with
      clkDue := some o })))

/-! ## Chapter 16: sessions, scan and debug access -/

/-- Sessions that idle, lockouts, boundary scan and debug accesses (R81, R82, R490, R491, R501): a locked port accepts nothing; a scan
shifts its bits through the registers that the instructions of region M and, after it, region C select; a byte written through the debug port reads back. The cells of pads
no scan gives and bytes nothing wrote are free values.
Completes, by a clause of its own for each: `sessionIdleTimeout`, `lockoutExpiry`, `tapDataScan`, `debugMemoryAccess`. -/
def Obligations.DebugAccess : Prop :=
(∀ (s : State) (role user : Nat), s.sec.session = some (role, user) →
    ∃ u : State, (∃ t' : State, exec .sessionIdleTimeout s = .next t' ∧ Quiet u t') ∧ u.sec.session = none ∧ u.objs = s.objs ∧ u.mode = s.mode
      ∧ u.time.now = max s.time.now (s.sec.cmdT + s.rdN Obj.secIdleS * secCycles)
      ∧ (∀ j < 8, (u.sub j).active = true → (u.sub j).owner ≠ 0))
  ∧ (∀ s : State, s.sec.session = none → exec .sessionIdleTimeout s = .next s)
  ∧ (∀ (v : Fin 16) (a b t0 : Nat) (s : State), s.lockOf v.val = (a, b, some t0) →
    exec (.lockoutExpiry v) s = .next ((s.atT (t0 + b * secCycles)).setLock v.val (a, b, none)))
  ∧ (∀ (v : Fin 16) (s : State), (s.lockOf v.val).2.2 = none → exec (.lockoutExpiry v) s = .next s)
  ∧ (∀ (tap : Region) (tdi pads : List Bool) (r : Region) (w : Bool) (addr : Nat) (data : Byte) (s : State), s.sec.unlocked = false →
    exec (.tapDataScan tap tdi pads) s = .next s ∧ exec (.debugMemoryAccess r w addr data) s = .next s)
  ∧ (∀ (tap : Region) (tdi pads : List Bool) (s : State), s.sec.unlocked = true →
    (∃ t : State, exec (.tapDataScan tap tdi pads) s = .next t
        ∧ t.tapM.tdo ++ t.tapM.dr = tapCapture .m s.tapM.ins (if tap = .m then pads else []) ++ tdi
      ∧ t.tapC.tdo ++ t.tapC.dr = tapCapture .c s.tapC.ins (if tap = .c then pads else []) ++ t.tapM.tdo
      ∧ t.tapM.tdo.length = tdi.length ∧ t.tapC.tdo.length = tdi.length
      ∧ t.tapM.ins = s.tapM.ins ∧ t.tapC.ins = s.tapC.ins
      ∧ (s.tapM.ins = .extest ∨ s.tapM.ins = .samplePreload → t.tapM.upd = t.tapM.dr)
      ∧ (s.tapC.ins = .extest ∨ s.tapC.ins = .samplePreload → t.tapC.upd = t.tapC.dr)
      ∧ { t with tapM := s.tapM, tapC := s.tapC } = s))
  ∧ (∀ (r : Region) (addr : Nat) (data : Byte) (s : State), s.sec.unlocked = true →
    (∃ t : State, exec (.debugMemoryAccess r true addr data) s = .next t
        ∧ t.sec.debugMem.find? (fun p => p.1 == debugKey r addr) = some (debugKey r addr, data)
      ∧ (∀ (q : Region) (b : Nat), debugKey q b ≠ debugKey r addr →
        t.sec.debugMem.find? (fun p => p.1 == debugKey q b) = s.sec.debugMem.find? (fun p => p.1 == debugKey q b))
      ∧ { t with sec := s.sec } = s)
    ∧ (∀ v, s.sec.debugMem.find? (fun p => p.1 == debugKey r addr) = some (debugKey r addr, v) →
      (∃ t : State, exec (.debugMemoryAccess r false addr data) s = .next t ∧ t.sec.debugRead = v ∧ t.sec.debugMem = s.sec.debugMem
        ∧ { t with sec := s.sec } = s)))

/-! ## The block as a whole -/

/-- A step takes the command at the front of the queue and runs it with the queue's rest; with no command waiting the block idles
(the idling is the model's choice: assumption 3). -/
def Obligations.StepTakesTheFront : Prop :=
(∀ (c : Instr) (rest : List Instr) (s : State), s.pending = c :: rest → step s = exec c { s with pending := rest })
  ∧ (∀ s : State, s.pending = [] → step s = .next s)

/-- Every command completes: no command of the table ends in a fault or a refusal, and none touches the queue or the variant. -/
def Obligations.EveryCommandAnswers : Prop :=
∀ (c : Instr) (s : State), (∃ t : State, exec c s = .next t ∧ t.pending = s.pending ∧ t.variant = s.variant)

/-- What every step keeps: the queue loses its front and nothing else, the variant stays, the local timebase never runs back, and the
rollback counter never falls (R494). -/
def Obligations.StepsKeepTime : Prop :=
∀ s t : State, step s = .next t → t.pending = s.pending.drop 1 ∧ t.variant = s.variant ∧ s.time.now ≤ t.time.now
    ∧ s.sec.rollback ≤ t.sec.rollback

/-- The object store keeps its canonical form in every step: keys strictly rising, no entry equal to its default. -/
def Obligations.StoreStaysSound : Prop :=
∀ s t : State, StoreSound s → step s = .next t → StoreSound t

/-- An object reads as it was written, every other as before, and the store keeps its form. -/
def Obligations.ObjectsReadBack : Prop :=
∀ (a b : Nat) (v : Int) (s : State), StoreSound s →
    (s.wr a v).rd a = v ∧ (b ≠ a → (s.wr a v).rd b = s.rd b) ∧ StoreSound (s.wr a v)
    ∧ ((s.wr a v).wr a (s.rd a)).objs = s.objs

/-- The machine after reset (R8, R87, R89, R90): BOOT, every object at its default but `RESET_CAUSE` with bit 0,
`RESET_COUNT` with the model's first reset (assumption 15) and `BOOT_MS`, every power stage off, no
fault pending, no session, nothing waiting; its store has the canonical form. Defaults the rules do not state are the model's
(assumption 17). -/
def Obligations.ResetState : Prop :=
StoreSound State.reset ∧ State.reset.mode = .boot ∧ State.reset.pending = [] ∧ AllOff State.reset
  ∧ State.reset.rd Obj.resetCause = 1 ∧ State.reset.rd Obj.resetCount = 1 ∧ State.reset.rd Obj.bootMs = 0xFFFF
  ∧ (∀ a, a ≠ Obj.resetCause → a ≠ Obj.resetCount → a ≠ Obj.bootMs → State.reset.rd a = storeDefault a)
  ∧ State.reset.flt.pend = [] ∧ State.reset.sec.session = none ∧ State.reset.safety.genC = false ∧ State.reset.safety.genM = false
  ∧ State.reset.power.resetLow = true ∧ State.reset.host = {}
  ∧ (∀ n, (State.reset.loaf.get n).st = .off ∧ (State.reset.grp.get n).st = .stopped ∧ State.reset.mb.get n = {})

/-- When an enable falls every loaf applies OFF, and it keeps OFF after both enables return, whatever `SAFE_STATE` is, until its
state next changes (R197). -/
def Obligations.EnableFallHoldsOff : Prop :=
(∀ (ch : Chan) (n : Fin 4) (s : State), s.genOf ch = true →
    ((s.dropGen ch).loaf.get n).holdOff = true ∧ (s.dropGen ch).pattern n = .off
    ∧ (((s.dropGen ch).raiseGen .c).raiseGen .m).genOf ch = true
    ∧ (((s.dropGen ch).raiseGen .c).raiseGen .m).pattern n = .off)
  ∧ (∀ (n : Fin 4) (s : State), (s.loaf.get n).holdOff = true → s.pattern n = .off)
  ∧ (∀ (n : Fin 4) (st : LoafState) (s : State), (s.loaf.get n).st ≠ st → ((s.loafTo n st).loaf.get n).holdOff = false)

/-- A list's trigger that arrives while its previous run still runs or waits is dropped: `LIST_OVERRUN` increments and fault 0xF802
is raised with the list in INDEX (R454).
Completes, by a clause of its own for each: `listTrigger`. -/
def Obligations.ListTriggerDropped : Prop :=
∀ (l : Fin 2) (s x : State), s.askard = true → s.listDue l = some x →
    (if l = 0 then s.pp.due0 else s.pp.due1) = true ∨ (∃ r, s.pp.run = some r ∧ r.owner = l.val)
      ∨ (∃ y, s.pp.next = some y ∧ y.1 = l.val) →
    (∃ t : State, exec (.listTrigger l) s = .next t ∧ t.pp = x.pp
      ∧ (s.rd (Obj.listOverrun l.val) < 0xFFFFFFFF → t.rd (Obj.listOverrun l.val) = s.rd (Obj.listOverrun l.val) + 1)
      ∧ t.flt.mRep = s.flt.mRep ++ [(0xF802, mkInst l.val 0, 0)]
      ∧ (∃ q, t.peelM.waiting = s.peelM.waiting ++ [(0, q, x.time.now)] ∧ q.clsTyp = PktKind.fault.head))

end
end

