-- ==== Sys2Proof/Laws/Store.lean ====
section
/-! SUPPORT. The object store: a read after a write, and the canonical form that every write keeps. -/

namespace Sys2Proof.Machine

/-! ## Reads -/

theorem Store.find_erase_ne (m : Store) {a b : Nat} (h : b ≠ a) :
    (m.erase a).find? (fun p => p.1 == b) = m.find? (fun p => p.1 == b) := by
  unfold Store.erase
  induction m with
  | nil => rfl
  | cons p m ih =>
    by_cases hp : p.1 = a
    · subst hp
      have hb : (p.1 == b) = false := by simp only [beq_eq_false_iff_ne]; omega
      simp only [List.filter_cons, List.find?_cons, hb, bne_self_eq_false, Bool.false_eq_true, if_false]
      exact ih
    · simp only [List.filter_cons, bne_iff_ne, ne_eq, hp, not_false_eq_true, if_true, List.find?_cons, ih]

theorem Store.find_erase_same (m : Store) (a : Nat) : (m.erase a).find? (fun p => p.1 == a) = none := by
  unfold Store.erase
  rw [List.find?_eq_none]
  intro p hp
  have := (List.mem_filter.mp hp).2
  simp_all

theorem Store.find_insert_ne (m : Store) {a b : Nat} (v : Int) (h : b ≠ a) :
    (m.insert a v).find? (fun p => p.1 == b) = m.find? (fun p => p.1 == b) := by
  induction m with
  | nil => simp [Store.insert, Ne.symm h]
  | cons p m ih =>
    unfold Store.insert
    split
    · simp [List.find?_cons, Ne.symm h]
    · simp only [List.find?_cons, ih]

theorem Store.find_insert_same (m : Store) (a : Nat) (v : Int) (h : m.find? (fun p => p.1 == a) = none) :
    (m.insert a v).find? (fun p => p.1 == a) = some (a, v) := by
  induction m with
  | nil => simp [Store.insert]
  | cons p m ih =>
    rw [List.find?_cons] at h
    unfold Store.insert
    split
    · simp
    · split at h
      · cases h
      · rename_i hp
        simp only [List.find?_cons, hp]
        exact ih h

theorem Store.get_set_same (m : Store) (a : Nat) (v : Int) : (m.set a v).get a = v := by
  unfold Store.set
  by_cases hv : v = storeDefault a
  · rw [if_pos hv]; unfold Store.get; rw [Store.find_erase_same]; exact hv.symm
  · rw [if_neg hv]; unfold Store.get; rw [Store.find_insert_same _ _ _ (Store.find_erase_same m a)]

theorem Store.get_set_ne (m : Store) {a b : Nat} (v : Int) (h : b ≠ a) : (m.set a v).get b = m.get b := by
  unfold Store.set
  by_cases hv : v = storeDefault a
  · rw [if_pos hv]; unfold Store.get; rw [Store.find_erase_ne m h]
  · rw [if_neg hv]; unfold Store.get; rw [Store.find_insert_ne _ v h, Store.find_erase_ne m h]

/-! ## The canonical form -/

theorem Store.rising_iff (m : Store) : m.rising = true ↔ m.Pairwise (fun p q => p.1 < q.1) := by
  induction m with
  | nil => simp [Store.rising]
  | cons p m ih =>
    cases m with
    | nil => simp [Store.rising]
    | cons q m =>
      simp only [Store.rising, Bool.and_eq_true, decide_eq_true_eq, ih, List.pairwise_cons]
      constructor
      · rintro ⟨h, h1, h2⟩
        refine ⟨?_, h1, h2⟩
        intro r hr
        rcases List.mem_cons.mp hr with rfl | hr
        · exact h
        · exact Nat.lt_trans h (h1 r hr)
      · rintro ⟨h, h1, h2⟩
        exact ⟨h q List.mem_cons_self, h1, h2⟩

theorem Store.mem_insert {m : Store} {a : Nat} {v : Int} {p : Nat × Int} (h : p ∈ m.insert a v) : p = (a, v) ∨ p ∈ m := by
  induction m with
  | nil => exact Or.inl (List.mem_singleton.mp h)
  | cons q m ih =>
    unfold Store.insert at h
    split at h
    · exact (List.mem_cons.mp h).imp_right (fun x => x)
    · rcases List.mem_cons.mp h with rfl | h
      · exact Or.inr List.mem_cons_self
      · exact (ih h).imp_right (List.mem_cons_of_mem _)

theorem Store.insert_pairwise {m : Store} {a : Nat} {v : Int} (hm : m.Pairwise (fun p q => p.1 < q.1))
    (ha : ∀ p ∈ m, p.1 ≠ a) : (m.insert a v).Pairwise (fun p q => p.1 < q.1) := by
  induction m with
  | nil => simp [Store.insert]
  | cons p m ih =>
    have hp := List.pairwise_cons.mp hm
    unfold Store.insert
    split
    · rename_i hlt
      refine List.pairwise_cons.mpr ⟨?_, hm⟩
      intro q hq
      rcases List.mem_cons.mp hq with rfl | hq
      · exact hlt
      · exact Nat.lt_trans hlt (hp.1 q hq)
    · rename_i hlt
      refine List.pairwise_cons.mpr ⟨?_, ih hp.2 (fun q hq => ha q (List.mem_cons_of_mem _ hq))⟩
      intro q hq
      rcases Store.mem_insert hq with rfl | hq
      · have := ha p List.mem_cons_self
        simp only at hlt ⊢
        omega
      · exact hp.1 q hq

theorem Store.filter_wf {m : Store} (f : Nat × Int → Bool) (h : m.wf = true) : Store.wf (m.filter f) = true := by
  unfold Store.wf at *
  rw [Bool.and_eq_true, Store.rising_iff, List.all_eq_true] at *
  exact ⟨h.1.filter f, fun p hp => h.2 p (List.mem_filter.mp hp).1⟩

theorem Store.erase_wf {m : Store} (a : Nat) (h : m.wf = true) : (m.erase a).wf = true := Store.filter_wf _ h
theorem Store.keep_wf {m : Store} (h : m.wf = true) : m.keep.wf = true := Store.filter_wf _ h

/-- A write keeps the canonical form. -/
theorem Store.set_wf {m : Store} (a : Nat) (v : Int) (h : m.wf = true) : (m.set a v).wf = true := by
  have he := Store.erase_wf a h
  unfold Store.set
  split
  · exact he
  · unfold Store.wf at he ⊢
    rw [Bool.and_eq_true, Store.rising_iff, List.all_eq_true] at he ⊢
    refine ⟨Store.insert_pairwise he.1 ?_, ?_⟩
    · intro p hp
      have := (List.mem_filter.mp hp).2
      simp_all
    · intro p hp
      rcases Store.mem_insert hp with rfl | hp
      · simpa using ‹¬_›
      · exact he.2 p hp

end Sys2Proof.Machine
end

