-- ==== Sys2Proof/Laws/State.lean ====
section
/-! SUPPORT. What each update of the state does to each field: itself to its own, nothing to every other. -/

namespace Sys2Proof.Machine

/-! ### `modLoaf` -/

@[simp] theorem State.modLoaf_variant (s : State) (n : Fin 4) (f : LoafSt → LoafSt) : (s.modLoaf n f).variant = s.variant := rfl
@[simp] theorem State.modLoaf_mode (s : State) (n : Fin 4) (f : LoafSt → LoafSt) : (s.modLoaf n f).mode = s.mode := rfl
@[simp] theorem State.modLoaf_boot (s : State) (n : Fin 4) (f : LoafSt → LoafSt) : (s.modLoaf n f).boot = s.boot := rfl
@[simp] theorem State.modLoaf_power (s : State) (n : Fin 4) (f : LoafSt → LoafSt) : (s.modLoaf n f).power = s.power := rfl
@[simp] theorem State.modLoaf_tapM (s : State) (n : Fin 4) (f : LoafSt → LoafSt) : (s.modLoaf n f).tapM = s.tapM := rfl
@[simp] theorem State.modLoaf_tapC (s : State) (n : Fin 4) (f : LoafSt → LoafSt) : (s.modLoaf n f).tapC = s.tapC := rfl
@[simp] theorem State.modLoaf_time (s : State) (n : Fin 4) (f : LoafSt → LoafSt) : (s.modLoaf n f).time = s.time := rfl
@[simp] theorem State.modLoaf_objs (s : State) (n : Fin 4) (f : LoafSt → LoafSt) : (s.modLoaf n f).objs = s.objs := rfl
@[simp] theorem State.modLoaf_blobs (s : State) (n : Fin 4) (f : LoafSt → LoafSt) : (s.modLoaf n f).blobs = s.blobs := rfl
@[simp] theorem State.modLoaf_host (s : State) (n : Fin 4) (f : LoafSt → LoafSt) : (s.modLoaf n f).host = s.host := rfl
@[simp] theorem State.modLoaf_mb (s : State) (n : Fin 4) (f : LoafSt → LoafSt) : (s.modLoaf n f).mb = s.mb := rfl
@[simp] theorem State.modLoaf_cmd (s : State) (n : Fin 4) (f : LoafSt → LoafSt) : (s.modLoaf n f).cmd = s.cmd := rfl
@[simp] theorem State.modLoaf_peelC (s : State) (n : Fin 4) (f : LoafSt → LoafSt) : (s.modLoaf n f).peelC = s.peelC := rfl
@[simp] theorem State.modLoaf_peelM (s : State) (n : Fin 4) (f : LoafSt → LoafSt) : (s.modLoaf n f).peelM = s.peelM := rfl
@[simp] theorem State.modLoaf_flt (s : State) (n : Fin 4) (f : LoafSt → LoafSt) : (s.modLoaf n f).flt = s.flt := rfl
@[simp] theorem State.modLoaf_loaf (s : State) (n : Fin 4) (f : LoafSt → LoafSt) : (s.modLoaf n f).loaf = s.loaf.set n (f (s.loaf.get n)) := rfl
@[simp] theorem State.modLoaf_trip (s : State) (n : Fin 4) (f : LoafSt → LoafSt) : (s.modLoaf n f).trip = s.trip := rfl
@[simp] theorem State.modLoaf_tripSync (s : State) (n : Fin 4) (f : LoafSt → LoafSt) : (s.modLoaf n f).tripSync = s.tripSync := rfl
@[simp] theorem State.modLoaf_haltC (s : State) (n : Fin 4) (f : LoafSt → LoafSt) : (s.modLoaf n f).haltC = s.haltC := rfl
@[simp] theorem State.modLoaf_haltM (s : State) (n : Fin 4) (f : LoafSt → LoafSt) : (s.modLoaf n f).haltM = s.haltM := rfl
@[simp] theorem State.modLoaf_conv (s : State) (n : Fin 4) (f : LoafSt → LoafSt) : (s.modLoaf n f).conv = s.conv := rfl
@[simp] theorem State.modLoaf_acc (s : State) (n : Fin 4) (f : LoafSt → LoafSt) : (s.modLoaf n f).acc = s.acc := rfl
@[simp] theorem State.modLoaf_accOld (s : State) (n : Fin 4) (f : LoafSt → LoafSt) : (s.modLoaf n f).accOld = s.accOld := rfl
@[simp] theorem State.modLoaf_hand (s : State) (n : Fin 4) (f : LoafSt → LoafSt) : (s.modLoaf n f).hand = s.hand := rfl
@[simp] theorem State.modLoaf_fb (s : State) (n : Fin 4) (f : LoafSt → LoafSt) : (s.modLoaf n f).fb = s.fb := rfl
@[simp] theorem State.modLoaf_oven (s : State) (n : Fin 4) (f : LoafSt → LoafSt) : (s.modLoaf n f).oven = s.oven := rfl
@[simp] theorem State.modLoaf_ovenArb (s : State) (n : Fin 4) (f : LoafSt → LoafSt) : (s.modLoaf n f).ovenArb = s.ovenArb := rfl
@[simp] theorem State.modLoaf_grp (s : State) (n : Fin 4) (f : LoafSt → LoafSt) : (s.modLoaf n f).grp = s.grp := rfl
@[simp] theorem State.modLoaf_cap (s : State) (n : Fin 4) (f : LoafSt → LoafSt) : (s.modLoaf n f).cap = s.cap := rfl
@[simp] theorem State.modLoaf_safety (s : State) (n : Fin 4) (f : LoafSt → LoafSt) : (s.modLoaf n f).safety = s.safety := rfl
@[simp] theorem State.modLoaf_net (s : State) (n : Fin 4) (f : LoafSt → LoafSt) : (s.modLoaf n f).net = s.net := rfl
@[simp] theorem State.modLoaf_pp (s : State) (n : Fin 4) (f : LoafSt → LoafSt) : (s.modLoaf n f).pp = s.pp := rfl
@[simp] theorem State.modLoaf_pair (s : State) (n : Fin 4) (f : LoafSt → LoafSt) : (s.modLoaf n f).pair = s.pair := rfl
@[simp] theorem State.modLoaf_sec (s : State) (n : Fin 4) (f : LoafSt → LoafSt) : (s.modLoaf n f).sec = s.sec := rfl
@[simp] theorem State.modLoaf_freeNo (s : State) (n : Fin 4) (f : LoafSt → LoafSt) : (s.modLoaf n f).freeNo = s.freeNo := rfl
@[simp] theorem State.modLoaf_pending (s : State) (n : Fin 4) (f : LoafSt → LoafSt) : (s.modLoaf n f).pending = s.pending := rfl

/-! ### `modGrp` -/

@[simp] theorem State.modGrp_variant (s : State) (g : Fin 4) (f : GroupSt → GroupSt) : (s.modGrp g f).variant = s.variant := rfl
@[simp] theorem State.modGrp_mode (s : State) (g : Fin 4) (f : GroupSt → GroupSt) : (s.modGrp g f).mode = s.mode := rfl
@[simp] theorem State.modGrp_boot (s : State) (g : Fin 4) (f : GroupSt → GroupSt) : (s.modGrp g f).boot = s.boot := rfl
@[simp] theorem State.modGrp_power (s : State) (g : Fin 4) (f : GroupSt → GroupSt) : (s.modGrp g f).power = s.power := rfl
@[simp] theorem State.modGrp_tapM (s : State) (g : Fin 4) (f : GroupSt → GroupSt) : (s.modGrp g f).tapM = s.tapM := rfl
@[simp] theorem State.modGrp_tapC (s : State) (g : Fin 4) (f : GroupSt → GroupSt) : (s.modGrp g f).tapC = s.tapC := rfl
@[simp] theorem State.modGrp_time (s : State) (g : Fin 4) (f : GroupSt → GroupSt) : (s.modGrp g f).time = s.time := rfl
@[simp] theorem State.modGrp_objs (s : State) (g : Fin 4) (f : GroupSt → GroupSt) : (s.modGrp g f).objs = s.objs := rfl
@[simp] theorem State.modGrp_blobs (s : State) (g : Fin 4) (f : GroupSt → GroupSt) : (s.modGrp g f).blobs = s.blobs := rfl
@[simp] theorem State.modGrp_host (s : State) (g : Fin 4) (f : GroupSt → GroupSt) : (s.modGrp g f).host = s.host := rfl
@[simp] theorem State.modGrp_mb (s : State) (g : Fin 4) (f : GroupSt → GroupSt) : (s.modGrp g f).mb = s.mb := rfl
@[simp] theorem State.modGrp_cmd (s : State) (g : Fin 4) (f : GroupSt → GroupSt) : (s.modGrp g f).cmd = s.cmd := rfl
@[simp] theorem State.modGrp_peelC (s : State) (g : Fin 4) (f : GroupSt → GroupSt) : (s.modGrp g f).peelC = s.peelC := rfl
@[simp] theorem State.modGrp_peelM (s : State) (g : Fin 4) (f : GroupSt → GroupSt) : (s.modGrp g f).peelM = s.peelM := rfl
@[simp] theorem State.modGrp_flt (s : State) (g : Fin 4) (f : GroupSt → GroupSt) : (s.modGrp g f).flt = s.flt := rfl
@[simp] theorem State.modGrp_loaf (s : State) (g : Fin 4) (f : GroupSt → GroupSt) : (s.modGrp g f).loaf = s.loaf := rfl
@[simp] theorem State.modGrp_trip (s : State) (g : Fin 4) (f : GroupSt → GroupSt) : (s.modGrp g f).trip = s.trip := rfl
@[simp] theorem State.modGrp_tripSync (s : State) (g : Fin 4) (f : GroupSt → GroupSt) : (s.modGrp g f).tripSync = s.tripSync := rfl
@[simp] theorem State.modGrp_haltC (s : State) (g : Fin 4) (f : GroupSt → GroupSt) : (s.modGrp g f).haltC = s.haltC := rfl
@[simp] theorem State.modGrp_haltM (s : State) (g : Fin 4) (f : GroupSt → GroupSt) : (s.modGrp g f).haltM = s.haltM := rfl
@[simp] theorem State.modGrp_conv (s : State) (g : Fin 4) (f : GroupSt → GroupSt) : (s.modGrp g f).conv = s.conv := rfl
@[simp] theorem State.modGrp_acc (s : State) (g : Fin 4) (f : GroupSt → GroupSt) : (s.modGrp g f).acc = s.acc := rfl
@[simp] theorem State.modGrp_accOld (s : State) (g : Fin 4) (f : GroupSt → GroupSt) : (s.modGrp g f).accOld = s.accOld := rfl
@[simp] theorem State.modGrp_hand (s : State) (g : Fin 4) (f : GroupSt → GroupSt) : (s.modGrp g f).hand = s.hand := rfl
@[simp] theorem State.modGrp_fb (s : State) (g : Fin 4) (f : GroupSt → GroupSt) : (s.modGrp g f).fb = s.fb := rfl
@[simp] theorem State.modGrp_oven (s : State) (g : Fin 4) (f : GroupSt → GroupSt) : (s.modGrp g f).oven = s.oven := rfl
@[simp] theorem State.modGrp_ovenArb (s : State) (g : Fin 4) (f : GroupSt → GroupSt) : (s.modGrp g f).ovenArb = s.ovenArb := rfl
@[simp] theorem State.modGrp_grp (s : State) (g : Fin 4) (f : GroupSt → GroupSt) : (s.modGrp g f).grp = s.grp.set g (f (s.grp.get g)) := rfl
@[simp] theorem State.modGrp_cap (s : State) (g : Fin 4) (f : GroupSt → GroupSt) : (s.modGrp g f).cap = s.cap := rfl
@[simp] theorem State.modGrp_safety (s : State) (g : Fin 4) (f : GroupSt → GroupSt) : (s.modGrp g f).safety = s.safety := rfl
@[simp] theorem State.modGrp_net (s : State) (g : Fin 4) (f : GroupSt → GroupSt) : (s.modGrp g f).net = s.net := rfl
@[simp] theorem State.modGrp_pp (s : State) (g : Fin 4) (f : GroupSt → GroupSt) : (s.modGrp g f).pp = s.pp := rfl
@[simp] theorem State.modGrp_pair (s : State) (g : Fin 4) (f : GroupSt → GroupSt) : (s.modGrp g f).pair = s.pair := rfl
@[simp] theorem State.modGrp_sec (s : State) (g : Fin 4) (f : GroupSt → GroupSt) : (s.modGrp g f).sec = s.sec := rfl
@[simp] theorem State.modGrp_freeNo (s : State) (g : Fin 4) (f : GroupSt → GroupSt) : (s.modGrp g f).freeNo = s.freeNo := rfl
@[simp] theorem State.modGrp_pending (s : State) (g : Fin 4) (f : GroupSt → GroupSt) : (s.modGrp g f).pending = s.pending := rfl

/-! ### `modFb` -/

@[simp] theorem State.modFb_variant (s : State) (n : Fin 4) (f : FbSt → FbSt) : (s.modFb n f).variant = s.variant := rfl
@[simp] theorem State.modFb_mode (s : State) (n : Fin 4) (f : FbSt → FbSt) : (s.modFb n f).mode = s.mode := rfl
@[simp] theorem State.modFb_boot (s : State) (n : Fin 4) (f : FbSt → FbSt) : (s.modFb n f).boot = s.boot := rfl
@[simp] theorem State.modFb_power (s : State) (n : Fin 4) (f : FbSt → FbSt) : (s.modFb n f).power = s.power := rfl
@[simp] theorem State.modFb_tapM (s : State) (n : Fin 4) (f : FbSt → FbSt) : (s.modFb n f).tapM = s.tapM := rfl
@[simp] theorem State.modFb_tapC (s : State) (n : Fin 4) (f : FbSt → FbSt) : (s.modFb n f).tapC = s.tapC := rfl
@[simp] theorem State.modFb_time (s : State) (n : Fin 4) (f : FbSt → FbSt) : (s.modFb n f).time = s.time := rfl
@[simp] theorem State.modFb_objs (s : State) (n : Fin 4) (f : FbSt → FbSt) : (s.modFb n f).objs = s.objs := rfl
@[simp] theorem State.modFb_blobs (s : State) (n : Fin 4) (f : FbSt → FbSt) : (s.modFb n f).blobs = s.blobs := rfl
@[simp] theorem State.modFb_host (s : State) (n : Fin 4) (f : FbSt → FbSt) : (s.modFb n f).host = s.host := rfl
@[simp] theorem State.modFb_mb (s : State) (n : Fin 4) (f : FbSt → FbSt) : (s.modFb n f).mb = s.mb := rfl
@[simp] theorem State.modFb_cmd (s : State) (n : Fin 4) (f : FbSt → FbSt) : (s.modFb n f).cmd = s.cmd := rfl
@[simp] theorem State.modFb_peelC (s : State) (n : Fin 4) (f : FbSt → FbSt) : (s.modFb n f).peelC = s.peelC := rfl
@[simp] theorem State.modFb_peelM (s : State) (n : Fin 4) (f : FbSt → FbSt) : (s.modFb n f).peelM = s.peelM := rfl
@[simp] theorem State.modFb_flt (s : State) (n : Fin 4) (f : FbSt → FbSt) : (s.modFb n f).flt = s.flt := rfl
@[simp] theorem State.modFb_loaf (s : State) (n : Fin 4) (f : FbSt → FbSt) : (s.modFb n f).loaf = s.loaf := rfl
@[simp] theorem State.modFb_trip (s : State) (n : Fin 4) (f : FbSt → FbSt) : (s.modFb n f).trip = s.trip := rfl
@[simp] theorem State.modFb_tripSync (s : State) (n : Fin 4) (f : FbSt → FbSt) : (s.modFb n f).tripSync = s.tripSync := rfl
@[simp] theorem State.modFb_haltC (s : State) (n : Fin 4) (f : FbSt → FbSt) : (s.modFb n f).haltC = s.haltC := rfl
@[simp] theorem State.modFb_haltM (s : State) (n : Fin 4) (f : FbSt → FbSt) : (s.modFb n f).haltM = s.haltM := rfl
@[simp] theorem State.modFb_conv (s : State) (n : Fin 4) (f : FbSt → FbSt) : (s.modFb n f).conv = s.conv := rfl
@[simp] theorem State.modFb_acc (s : State) (n : Fin 4) (f : FbSt → FbSt) : (s.modFb n f).acc = s.acc := rfl
@[simp] theorem State.modFb_accOld (s : State) (n : Fin 4) (f : FbSt → FbSt) : (s.modFb n f).accOld = s.accOld := rfl
@[simp] theorem State.modFb_hand (s : State) (n : Fin 4) (f : FbSt → FbSt) : (s.modFb n f).hand = s.hand := rfl
@[simp] theorem State.modFb_fb (s : State) (n : Fin 4) (f : FbSt → FbSt) : (s.modFb n f).fb = s.fb.set n (f (s.fb.get n)) := rfl
@[simp] theorem State.modFb_oven (s : State) (n : Fin 4) (f : FbSt → FbSt) : (s.modFb n f).oven = s.oven := rfl
@[simp] theorem State.modFb_ovenArb (s : State) (n : Fin 4) (f : FbSt → FbSt) : (s.modFb n f).ovenArb = s.ovenArb := rfl
@[simp] theorem State.modFb_grp (s : State) (n : Fin 4) (f : FbSt → FbSt) : (s.modFb n f).grp = s.grp := rfl
@[simp] theorem State.modFb_cap (s : State) (n : Fin 4) (f : FbSt → FbSt) : (s.modFb n f).cap = s.cap := rfl
@[simp] theorem State.modFb_safety (s : State) (n : Fin 4) (f : FbSt → FbSt) : (s.modFb n f).safety = s.safety := rfl
@[simp] theorem State.modFb_net (s : State) (n : Fin 4) (f : FbSt → FbSt) : (s.modFb n f).net = s.net := rfl
@[simp] theorem State.modFb_pp (s : State) (n : Fin 4) (f : FbSt → FbSt) : (s.modFb n f).pp = s.pp := rfl
@[simp] theorem State.modFb_pair (s : State) (n : Fin 4) (f : FbSt → FbSt) : (s.modFb n f).pair = s.pair := rfl
@[simp] theorem State.modFb_sec (s : State) (n : Fin 4) (f : FbSt → FbSt) : (s.modFb n f).sec = s.sec := rfl
@[simp] theorem State.modFb_freeNo (s : State) (n : Fin 4) (f : FbSt → FbSt) : (s.modFb n f).freeNo = s.freeNo := rfl
@[simp] theorem State.modFb_pending (s : State) (n : Fin 4) (f : FbSt → FbSt) : (s.modFb n f).pending = s.pending := rfl

/-! ### `modOven` -/

@[simp] theorem State.modOven_variant (s : State) (n : Fin 4) (f : OvenSt → OvenSt) : (s.modOven n f).variant = s.variant := rfl
@[simp] theorem State.modOven_mode (s : State) (n : Fin 4) (f : OvenSt → OvenSt) : (s.modOven n f).mode = s.mode := rfl
@[simp] theorem State.modOven_boot (s : State) (n : Fin 4) (f : OvenSt → OvenSt) : (s.modOven n f).boot = s.boot := rfl
@[simp] theorem State.modOven_power (s : State) (n : Fin 4) (f : OvenSt → OvenSt) : (s.modOven n f).power = s.power := rfl
@[simp] theorem State.modOven_tapM (s : State) (n : Fin 4) (f : OvenSt → OvenSt) : (s.modOven n f).tapM = s.tapM := rfl
@[simp] theorem State.modOven_tapC (s : State) (n : Fin 4) (f : OvenSt → OvenSt) : (s.modOven n f).tapC = s.tapC := rfl
@[simp] theorem State.modOven_time (s : State) (n : Fin 4) (f : OvenSt → OvenSt) : (s.modOven n f).time = s.time := rfl
@[simp] theorem State.modOven_objs (s : State) (n : Fin 4) (f : OvenSt → OvenSt) : (s.modOven n f).objs = s.objs := rfl
@[simp] theorem State.modOven_blobs (s : State) (n : Fin 4) (f : OvenSt → OvenSt) : (s.modOven n f).blobs = s.blobs := rfl
@[simp] theorem State.modOven_host (s : State) (n : Fin 4) (f : OvenSt → OvenSt) : (s.modOven n f).host = s.host := rfl
@[simp] theorem State.modOven_mb (s : State) (n : Fin 4) (f : OvenSt → OvenSt) : (s.modOven n f).mb = s.mb := rfl
@[simp] theorem State.modOven_cmd (s : State) (n : Fin 4) (f : OvenSt → OvenSt) : (s.modOven n f).cmd = s.cmd := rfl
@[simp] theorem State.modOven_peelC (s : State) (n : Fin 4) (f : OvenSt → OvenSt) : (s.modOven n f).peelC = s.peelC := rfl
@[simp] theorem State.modOven_peelM (s : State) (n : Fin 4) (f : OvenSt → OvenSt) : (s.modOven n f).peelM = s.peelM := rfl
@[simp] theorem State.modOven_flt (s : State) (n : Fin 4) (f : OvenSt → OvenSt) : (s.modOven n f).flt = s.flt := rfl
@[simp] theorem State.modOven_loaf (s : State) (n : Fin 4) (f : OvenSt → OvenSt) : (s.modOven n f).loaf = s.loaf := rfl
@[simp] theorem State.modOven_trip (s : State) (n : Fin 4) (f : OvenSt → OvenSt) : (s.modOven n f).trip = s.trip := rfl
@[simp] theorem State.modOven_tripSync (s : State) (n : Fin 4) (f : OvenSt → OvenSt) : (s.modOven n f).tripSync = s.tripSync := rfl
@[simp] theorem State.modOven_haltC (s : State) (n : Fin 4) (f : OvenSt → OvenSt) : (s.modOven n f).haltC = s.haltC := rfl
@[simp] theorem State.modOven_haltM (s : State) (n : Fin 4) (f : OvenSt → OvenSt) : (s.modOven n f).haltM = s.haltM := rfl
@[simp] theorem State.modOven_conv (s : State) (n : Fin 4) (f : OvenSt → OvenSt) : (s.modOven n f).conv = s.conv := rfl
@[simp] theorem State.modOven_acc (s : State) (n : Fin 4) (f : OvenSt → OvenSt) : (s.modOven n f).acc = s.acc := rfl
@[simp] theorem State.modOven_accOld (s : State) (n : Fin 4) (f : OvenSt → OvenSt) : (s.modOven n f).accOld = s.accOld := rfl
@[simp] theorem State.modOven_hand (s : State) (n : Fin 4) (f : OvenSt → OvenSt) : (s.modOven n f).hand = s.hand := rfl
@[simp] theorem State.modOven_fb (s : State) (n : Fin 4) (f : OvenSt → OvenSt) : (s.modOven n f).fb = s.fb := rfl
@[simp] theorem State.modOven_oven (s : State) (n : Fin 4) (f : OvenSt → OvenSt) : (s.modOven n f).oven = s.oven.set n (f (s.oven.get n)) := rfl
@[simp] theorem State.modOven_ovenArb (s : State) (n : Fin 4) (f : OvenSt → OvenSt) : (s.modOven n f).ovenArb = s.ovenArb := rfl
@[simp] theorem State.modOven_grp (s : State) (n : Fin 4) (f : OvenSt → OvenSt) : (s.modOven n f).grp = s.grp := rfl
@[simp] theorem State.modOven_cap (s : State) (n : Fin 4) (f : OvenSt → OvenSt) : (s.modOven n f).cap = s.cap := rfl
@[simp] theorem State.modOven_safety (s : State) (n : Fin 4) (f : OvenSt → OvenSt) : (s.modOven n f).safety = s.safety := rfl
@[simp] theorem State.modOven_net (s : State) (n : Fin 4) (f : OvenSt → OvenSt) : (s.modOven n f).net = s.net := rfl
@[simp] theorem State.modOven_pp (s : State) (n : Fin 4) (f : OvenSt → OvenSt) : (s.modOven n f).pp = s.pp := rfl
@[simp] theorem State.modOven_pair (s : State) (n : Fin 4) (f : OvenSt → OvenSt) : (s.modOven n f).pair = s.pair := rfl
@[simp] theorem State.modOven_sec (s : State) (n : Fin 4) (f : OvenSt → OvenSt) : (s.modOven n f).sec = s.sec := rfl
@[simp] theorem State.modOven_freeNo (s : State) (n : Fin 4) (f : OvenSt → OvenSt) : (s.modOven n f).freeNo = s.freeNo := rfl
@[simp] theorem State.modOven_pending (s : State) (n : Fin 4) (f : OvenSt → OvenSt) : (s.modOven n f).pending = s.pending := rfl

/-! ### `modConv` -/

@[simp] theorem State.modConv_variant (s : State) (k : Fin 6) (f : ConvSt → ConvSt) : (s.modConv k f).variant = s.variant := rfl
@[simp] theorem State.modConv_mode (s : State) (k : Fin 6) (f : ConvSt → ConvSt) : (s.modConv k f).mode = s.mode := rfl
@[simp] theorem State.modConv_boot (s : State) (k : Fin 6) (f : ConvSt → ConvSt) : (s.modConv k f).boot = s.boot := rfl
@[simp] theorem State.modConv_power (s : State) (k : Fin 6) (f : ConvSt → ConvSt) : (s.modConv k f).power = s.power := rfl
@[simp] theorem State.modConv_tapM (s : State) (k : Fin 6) (f : ConvSt → ConvSt) : (s.modConv k f).tapM = s.tapM := rfl
@[simp] theorem State.modConv_tapC (s : State) (k : Fin 6) (f : ConvSt → ConvSt) : (s.modConv k f).tapC = s.tapC := rfl
@[simp] theorem State.modConv_time (s : State) (k : Fin 6) (f : ConvSt → ConvSt) : (s.modConv k f).time = s.time := rfl
@[simp] theorem State.modConv_objs (s : State) (k : Fin 6) (f : ConvSt → ConvSt) : (s.modConv k f).objs = s.objs := rfl
@[simp] theorem State.modConv_blobs (s : State) (k : Fin 6) (f : ConvSt → ConvSt) : (s.modConv k f).blobs = s.blobs := rfl
@[simp] theorem State.modConv_host (s : State) (k : Fin 6) (f : ConvSt → ConvSt) : (s.modConv k f).host = s.host := rfl
@[simp] theorem State.modConv_mb (s : State) (k : Fin 6) (f : ConvSt → ConvSt) : (s.modConv k f).mb = s.mb := rfl
@[simp] theorem State.modConv_cmd (s : State) (k : Fin 6) (f : ConvSt → ConvSt) : (s.modConv k f).cmd = s.cmd := rfl
@[simp] theorem State.modConv_peelC (s : State) (k : Fin 6) (f : ConvSt → ConvSt) : (s.modConv k f).peelC = s.peelC := rfl
@[simp] theorem State.modConv_peelM (s : State) (k : Fin 6) (f : ConvSt → ConvSt) : (s.modConv k f).peelM = s.peelM := rfl
@[simp] theorem State.modConv_flt (s : State) (k : Fin 6) (f : ConvSt → ConvSt) : (s.modConv k f).flt = s.flt := rfl
@[simp] theorem State.modConv_loaf (s : State) (k : Fin 6) (f : ConvSt → ConvSt) : (s.modConv k f).loaf = s.loaf := rfl
@[simp] theorem State.modConv_trip (s : State) (k : Fin 6) (f : ConvSt → ConvSt) : (s.modConv k f).trip = s.trip := rfl
@[simp] theorem State.modConv_tripSync (s : State) (k : Fin 6) (f : ConvSt → ConvSt) : (s.modConv k f).tripSync = s.tripSync := rfl
@[simp] theorem State.modConv_haltC (s : State) (k : Fin 6) (f : ConvSt → ConvSt) : (s.modConv k f).haltC = s.haltC := rfl
@[simp] theorem State.modConv_haltM (s : State) (k : Fin 6) (f : ConvSt → ConvSt) : (s.modConv k f).haltM = s.haltM := rfl
@[simp] theorem State.modConv_conv (s : State) (k : Fin 6) (f : ConvSt → ConvSt) : (s.modConv k f).conv = s.conv.set k (f (s.conv.get k)) := rfl
@[simp] theorem State.modConv_acc (s : State) (k : Fin 6) (f : ConvSt → ConvSt) : (s.modConv k f).acc = s.acc := rfl
@[simp] theorem State.modConv_accOld (s : State) (k : Fin 6) (f : ConvSt → ConvSt) : (s.modConv k f).accOld = s.accOld := rfl
@[simp] theorem State.modConv_hand (s : State) (k : Fin 6) (f : ConvSt → ConvSt) : (s.modConv k f).hand = s.hand := rfl
@[simp] theorem State.modConv_fb (s : State) (k : Fin 6) (f : ConvSt → ConvSt) : (s.modConv k f).fb = s.fb := rfl
@[simp] theorem State.modConv_oven (s : State) (k : Fin 6) (f : ConvSt → ConvSt) : (s.modConv k f).oven = s.oven := rfl
@[simp] theorem State.modConv_ovenArb (s : State) (k : Fin 6) (f : ConvSt → ConvSt) : (s.modConv k f).ovenArb = s.ovenArb := rfl
@[simp] theorem State.modConv_grp (s : State) (k : Fin 6) (f : ConvSt → ConvSt) : (s.modConv k f).grp = s.grp := rfl
@[simp] theorem State.modConv_cap (s : State) (k : Fin 6) (f : ConvSt → ConvSt) : (s.modConv k f).cap = s.cap := rfl
@[simp] theorem State.modConv_safety (s : State) (k : Fin 6) (f : ConvSt → ConvSt) : (s.modConv k f).safety = s.safety := rfl
@[simp] theorem State.modConv_net (s : State) (k : Fin 6) (f : ConvSt → ConvSt) : (s.modConv k f).net = s.net := rfl
@[simp] theorem State.modConv_pp (s : State) (k : Fin 6) (f : ConvSt → ConvSt) : (s.modConv k f).pp = s.pp := rfl
@[simp] theorem State.modConv_pair (s : State) (k : Fin 6) (f : ConvSt → ConvSt) : (s.modConv k f).pair = s.pair := rfl
@[simp] theorem State.modConv_sec (s : State) (k : Fin 6) (f : ConvSt → ConvSt) : (s.modConv k f).sec = s.sec := rfl
@[simp] theorem State.modConv_freeNo (s : State) (k : Fin 6) (f : ConvSt → ConvSt) : (s.modConv k f).freeNo = s.freeNo := rfl
@[simp] theorem State.modConv_pending (s : State) (k : Fin 6) (f : ConvSt → ConvSt) : (s.modConv k f).pending = s.pending := rfl

/-! ### `modMb` -/

@[simp] theorem State.modMb_variant (s : State) (n : Fin 4) (f : Mailbox → Mailbox) : (s.modMb n f).variant = s.variant := rfl
@[simp] theorem State.modMb_mode (s : State) (n : Fin 4) (f : Mailbox → Mailbox) : (s.modMb n f).mode = s.mode := rfl
@[simp] theorem State.modMb_boot (s : State) (n : Fin 4) (f : Mailbox → Mailbox) : (s.modMb n f).boot = s.boot := rfl
@[simp] theorem State.modMb_power (s : State) (n : Fin 4) (f : Mailbox → Mailbox) : (s.modMb n f).power = s.power := rfl
@[simp] theorem State.modMb_tapM (s : State) (n : Fin 4) (f : Mailbox → Mailbox) : (s.modMb n f).tapM = s.tapM := rfl
@[simp] theorem State.modMb_tapC (s : State) (n : Fin 4) (f : Mailbox → Mailbox) : (s.modMb n f).tapC = s.tapC := rfl
@[simp] theorem State.modMb_time (s : State) (n : Fin 4) (f : Mailbox → Mailbox) : (s.modMb n f).time = s.time := rfl
@[simp] theorem State.modMb_objs (s : State) (n : Fin 4) (f : Mailbox → Mailbox) : (s.modMb n f).objs = s.objs := rfl
@[simp] theorem State.modMb_blobs (s : State) (n : Fin 4) (f : Mailbox → Mailbox) : (s.modMb n f).blobs = s.blobs := rfl
@[simp] theorem State.modMb_host (s : State) (n : Fin 4) (f : Mailbox → Mailbox) : (s.modMb n f).host = s.host := rfl
@[simp] theorem State.modMb_mb (s : State) (n : Fin 4) (f : Mailbox → Mailbox) : (s.modMb n f).mb = s.mb.set n (f (s.mb.get n)) := rfl
@[simp] theorem State.modMb_cmd (s : State) (n : Fin 4) (f : Mailbox → Mailbox) : (s.modMb n f).cmd = s.cmd := rfl
@[simp] theorem State.modMb_peelC (s : State) (n : Fin 4) (f : Mailbox → Mailbox) : (s.modMb n f).peelC = s.peelC := rfl
@[simp] theorem State.modMb_peelM (s : State) (n : Fin 4) (f : Mailbox → Mailbox) : (s.modMb n f).peelM = s.peelM := rfl
@[simp] theorem State.modMb_flt (s : State) (n : Fin 4) (f : Mailbox → Mailbox) : (s.modMb n f).flt = s.flt := rfl
@[simp] theorem State.modMb_loaf (s : State) (n : Fin 4) (f : Mailbox → Mailbox) : (s.modMb n f).loaf = s.loaf := rfl
@[simp] theorem State.modMb_trip (s : State) (n : Fin 4) (f : Mailbox → Mailbox) : (s.modMb n f).trip = s.trip := rfl
@[simp] theorem State.modMb_tripSync (s : State) (n : Fin 4) (f : Mailbox → Mailbox) : (s.modMb n f).tripSync = s.tripSync := rfl
@[simp] theorem State.modMb_haltC (s : State) (n : Fin 4) (f : Mailbox → Mailbox) : (s.modMb n f).haltC = s.haltC := rfl
@[simp] theorem State.modMb_haltM (s : State) (n : Fin 4) (f : Mailbox → Mailbox) : (s.modMb n f).haltM = s.haltM := rfl
@[simp] theorem State.modMb_conv (s : State) (n : Fin 4) (f : Mailbox → Mailbox) : (s.modMb n f).conv = s.conv := rfl
@[simp] theorem State.modMb_acc (s : State) (n : Fin 4) (f : Mailbox → Mailbox) : (s.modMb n f).acc = s.acc := rfl
@[simp] theorem State.modMb_accOld (s : State) (n : Fin 4) (f : Mailbox → Mailbox) : (s.modMb n f).accOld = s.accOld := rfl
@[simp] theorem State.modMb_hand (s : State) (n : Fin 4) (f : Mailbox → Mailbox) : (s.modMb n f).hand = s.hand := rfl
@[simp] theorem State.modMb_fb (s : State) (n : Fin 4) (f : Mailbox → Mailbox) : (s.modMb n f).fb = s.fb := rfl
@[simp] theorem State.modMb_oven (s : State) (n : Fin 4) (f : Mailbox → Mailbox) : (s.modMb n f).oven = s.oven := rfl
@[simp] theorem State.modMb_ovenArb (s : State) (n : Fin 4) (f : Mailbox → Mailbox) : (s.modMb n f).ovenArb = s.ovenArb := rfl
@[simp] theorem State.modMb_grp (s : State) (n : Fin 4) (f : Mailbox → Mailbox) : (s.modMb n f).grp = s.grp := rfl
@[simp] theorem State.modMb_cap (s : State) (n : Fin 4) (f : Mailbox → Mailbox) : (s.modMb n f).cap = s.cap := rfl
@[simp] theorem State.modMb_safety (s : State) (n : Fin 4) (f : Mailbox → Mailbox) : (s.modMb n f).safety = s.safety := rfl
@[simp] theorem State.modMb_net (s : State) (n : Fin 4) (f : Mailbox → Mailbox) : (s.modMb n f).net = s.net := rfl
@[simp] theorem State.modMb_pp (s : State) (n : Fin 4) (f : Mailbox → Mailbox) : (s.modMb n f).pp = s.pp := rfl
@[simp] theorem State.modMb_pair (s : State) (n : Fin 4) (f : Mailbox → Mailbox) : (s.modMb n f).pair = s.pair := rfl
@[simp] theorem State.modMb_sec (s : State) (n : Fin 4) (f : Mailbox → Mailbox) : (s.modMb n f).sec = s.sec := rfl
@[simp] theorem State.modMb_freeNo (s : State) (n : Fin 4) (f : Mailbox → Mailbox) : (s.modMb n f).freeNo = s.freeNo := rfl
@[simp] theorem State.modMb_pending (s : State) (n : Fin 4) (f : Mailbox → Mailbox) : (s.modMb n f).pending = s.pending := rfl

/-! ### `modFlt` -/

@[simp] theorem State.modFlt_variant (s : State) (f : FaultSt → FaultSt) : (s.modFlt f).variant = s.variant := rfl
@[simp] theorem State.modFlt_mode (s : State) (f : FaultSt → FaultSt) : (s.modFlt f).mode = s.mode := rfl
@[simp] theorem State.modFlt_boot (s : State) (f : FaultSt → FaultSt) : (s.modFlt f).boot = s.boot := rfl
@[simp] theorem State.modFlt_power (s : State) (f : FaultSt → FaultSt) : (s.modFlt f).power = s.power := rfl
@[simp] theorem State.modFlt_tapM (s : State) (f : FaultSt → FaultSt) : (s.modFlt f).tapM = s.tapM := rfl
@[simp] theorem State.modFlt_tapC (s : State) (f : FaultSt → FaultSt) : (s.modFlt f).tapC = s.tapC := rfl
@[simp] theorem State.modFlt_time (s : State) (f : FaultSt → FaultSt) : (s.modFlt f).time = s.time := rfl
@[simp] theorem State.modFlt_objs (s : State) (f : FaultSt → FaultSt) : (s.modFlt f).objs = s.objs := rfl
@[simp] theorem State.modFlt_blobs (s : State) (f : FaultSt → FaultSt) : (s.modFlt f).blobs = s.blobs := rfl
@[simp] theorem State.modFlt_host (s : State) (f : FaultSt → FaultSt) : (s.modFlt f).host = s.host := rfl
@[simp] theorem State.modFlt_mb (s : State) (f : FaultSt → FaultSt) : (s.modFlt f).mb = s.mb := rfl
@[simp] theorem State.modFlt_cmd (s : State) (f : FaultSt → FaultSt) : (s.modFlt f).cmd = s.cmd := rfl
@[simp] theorem State.modFlt_peelC (s : State) (f : FaultSt → FaultSt) : (s.modFlt f).peelC = s.peelC := rfl
@[simp] theorem State.modFlt_peelM (s : State) (f : FaultSt → FaultSt) : (s.modFlt f).peelM = s.peelM := rfl
@[simp] theorem State.modFlt_flt (s : State) (f : FaultSt → FaultSt) : (s.modFlt f).flt = f s.flt := rfl
@[simp] theorem State.modFlt_loaf (s : State) (f : FaultSt → FaultSt) : (s.modFlt f).loaf = s.loaf := rfl
@[simp] theorem State.modFlt_trip (s : State) (f : FaultSt → FaultSt) : (s.modFlt f).trip = s.trip := rfl
@[simp] theorem State.modFlt_tripSync (s : State) (f : FaultSt → FaultSt) : (s.modFlt f).tripSync = s.tripSync := rfl
@[simp] theorem State.modFlt_haltC (s : State) (f : FaultSt → FaultSt) : (s.modFlt f).haltC = s.haltC := rfl
@[simp] theorem State.modFlt_haltM (s : State) (f : FaultSt → FaultSt) : (s.modFlt f).haltM = s.haltM := rfl
@[simp] theorem State.modFlt_conv (s : State) (f : FaultSt → FaultSt) : (s.modFlt f).conv = s.conv := rfl
@[simp] theorem State.modFlt_acc (s : State) (f : FaultSt → FaultSt) : (s.modFlt f).acc = s.acc := rfl
@[simp] theorem State.modFlt_accOld (s : State) (f : FaultSt → FaultSt) : (s.modFlt f).accOld = s.accOld := rfl
@[simp] theorem State.modFlt_hand (s : State) (f : FaultSt → FaultSt) : (s.modFlt f).hand = s.hand := rfl
@[simp] theorem State.modFlt_fb (s : State) (f : FaultSt → FaultSt) : (s.modFlt f).fb = s.fb := rfl
@[simp] theorem State.modFlt_oven (s : State) (f : FaultSt → FaultSt) : (s.modFlt f).oven = s.oven := rfl
@[simp] theorem State.modFlt_ovenArb (s : State) (f : FaultSt → FaultSt) : (s.modFlt f).ovenArb = s.ovenArb := rfl
@[simp] theorem State.modFlt_grp (s : State) (f : FaultSt → FaultSt) : (s.modFlt f).grp = s.grp := rfl
@[simp] theorem State.modFlt_cap (s : State) (f : FaultSt → FaultSt) : (s.modFlt f).cap = s.cap := rfl
@[simp] theorem State.modFlt_safety (s : State) (f : FaultSt → FaultSt) : (s.modFlt f).safety = s.safety := rfl
@[simp] theorem State.modFlt_net (s : State) (f : FaultSt → FaultSt) : (s.modFlt f).net = s.net := rfl
@[simp] theorem State.modFlt_pp (s : State) (f : FaultSt → FaultSt) : (s.modFlt f).pp = s.pp := rfl
@[simp] theorem State.modFlt_pair (s : State) (f : FaultSt → FaultSt) : (s.modFlt f).pair = s.pair := rfl
@[simp] theorem State.modFlt_sec (s : State) (f : FaultSt → FaultSt) : (s.modFlt f).sec = s.sec := rfl
@[simp] theorem State.modFlt_freeNo (s : State) (f : FaultSt → FaultSt) : (s.modFlt f).freeNo = s.freeNo := rfl
@[simp] theorem State.modFlt_pending (s : State) (f : FaultSt → FaultSt) : (s.modFlt f).pending = s.pending := rfl

/-! ### `modSafety` -/

@[simp] theorem State.modSafety_variant (s : State) (f : SafetySt → SafetySt) : (s.modSafety f).variant = s.variant := rfl
@[simp] theorem State.modSafety_mode (s : State) (f : SafetySt → SafetySt) : (s.modSafety f).mode = s.mode := rfl
@[simp] theorem State.modSafety_boot (s : State) (f : SafetySt → SafetySt) : (s.modSafety f).boot = s.boot := rfl
@[simp] theorem State.modSafety_power (s : State) (f : SafetySt → SafetySt) : (s.modSafety f).power = s.power := rfl
@[simp] theorem State.modSafety_tapM (s : State) (f : SafetySt → SafetySt) : (s.modSafety f).tapM = s.tapM := rfl
@[simp] theorem State.modSafety_tapC (s : State) (f : SafetySt → SafetySt) : (s.modSafety f).tapC = s.tapC := rfl
@[simp] theorem State.modSafety_time (s : State) (f : SafetySt → SafetySt) : (s.modSafety f).time = s.time := rfl
@[simp] theorem State.modSafety_objs (s : State) (f : SafetySt → SafetySt) : (s.modSafety f).objs = s.objs := rfl
@[simp] theorem State.modSafety_blobs (s : State) (f : SafetySt → SafetySt) : (s.modSafety f).blobs = s.blobs := rfl
@[simp] theorem State.modSafety_host (s : State) (f : SafetySt → SafetySt) : (s.modSafety f).host = s.host := rfl
@[simp] theorem State.modSafety_mb (s : State) (f : SafetySt → SafetySt) : (s.modSafety f).mb = s.mb := rfl
@[simp] theorem State.modSafety_cmd (s : State) (f : SafetySt → SafetySt) : (s.modSafety f).cmd = s.cmd := rfl
@[simp] theorem State.modSafety_peelC (s : State) (f : SafetySt → SafetySt) : (s.modSafety f).peelC = s.peelC := rfl
@[simp] theorem State.modSafety_peelM (s : State) (f : SafetySt → SafetySt) : (s.modSafety f).peelM = s.peelM := rfl
@[simp] theorem State.modSafety_flt (s : State) (f : SafetySt → SafetySt) : (s.modSafety f).flt = s.flt := rfl
@[simp] theorem State.modSafety_loaf (s : State) (f : SafetySt → SafetySt) : (s.modSafety f).loaf = s.loaf := rfl
@[simp] theorem State.modSafety_trip (s : State) (f : SafetySt → SafetySt) : (s.modSafety f).trip = s.trip := rfl
@[simp] theorem State.modSafety_tripSync (s : State) (f : SafetySt → SafetySt) : (s.modSafety f).tripSync = s.tripSync := rfl
@[simp] theorem State.modSafety_haltC (s : State) (f : SafetySt → SafetySt) : (s.modSafety f).haltC = s.haltC := rfl
@[simp] theorem State.modSafety_haltM (s : State) (f : SafetySt → SafetySt) : (s.modSafety f).haltM = s.haltM := rfl
@[simp] theorem State.modSafety_conv (s : State) (f : SafetySt → SafetySt) : (s.modSafety f).conv = s.conv := rfl
@[simp] theorem State.modSafety_acc (s : State) (f : SafetySt → SafetySt) : (s.modSafety f).acc = s.acc := rfl
@[simp] theorem State.modSafety_accOld (s : State) (f : SafetySt → SafetySt) : (s.modSafety f).accOld = s.accOld := rfl
@[simp] theorem State.modSafety_hand (s : State) (f : SafetySt → SafetySt) : (s.modSafety f).hand = s.hand := rfl
@[simp] theorem State.modSafety_fb (s : State) (f : SafetySt → SafetySt) : (s.modSafety f).fb = s.fb := rfl
@[simp] theorem State.modSafety_oven (s : State) (f : SafetySt → SafetySt) : (s.modSafety f).oven = s.oven := rfl
@[simp] theorem State.modSafety_ovenArb (s : State) (f : SafetySt → SafetySt) : (s.modSafety f).ovenArb = s.ovenArb := rfl
@[simp] theorem State.modSafety_grp (s : State) (f : SafetySt → SafetySt) : (s.modSafety f).grp = s.grp := rfl
@[simp] theorem State.modSafety_cap (s : State) (f : SafetySt → SafetySt) : (s.modSafety f).cap = s.cap := rfl
@[simp] theorem State.modSafety_safety (s : State) (f : SafetySt → SafetySt) : (s.modSafety f).safety = f s.safety := rfl
@[simp] theorem State.modSafety_net (s : State) (f : SafetySt → SafetySt) : (s.modSafety f).net = s.net := rfl
@[simp] theorem State.modSafety_pp (s : State) (f : SafetySt → SafetySt) : (s.modSafety f).pp = s.pp := rfl
@[simp] theorem State.modSafety_pair (s : State) (f : SafetySt → SafetySt) : (s.modSafety f).pair = s.pair := rfl
@[simp] theorem State.modSafety_sec (s : State) (f : SafetySt → SafetySt) : (s.modSafety f).sec = s.sec := rfl
@[simp] theorem State.modSafety_freeNo (s : State) (f : SafetySt → SafetySt) : (s.modSafety f).freeNo = s.freeNo := rfl
@[simp] theorem State.modSafety_pending (s : State) (f : SafetySt → SafetySt) : (s.modSafety f).pending = s.pending := rfl

/-! ### `modPower` -/

@[simp] theorem State.modPower_variant (s : State) (f : PowerSt → PowerSt) : (s.modPower f).variant = s.variant := rfl
@[simp] theorem State.modPower_mode (s : State) (f : PowerSt → PowerSt) : (s.modPower f).mode = s.mode := rfl
@[simp] theorem State.modPower_boot (s : State) (f : PowerSt → PowerSt) : (s.modPower f).boot = s.boot := rfl
@[simp] theorem State.modPower_power (s : State) (f : PowerSt → PowerSt) : (s.modPower f).power = f s.power := rfl
@[simp] theorem State.modPower_tapM (s : State) (f : PowerSt → PowerSt) : (s.modPower f).tapM = s.tapM := rfl
@[simp] theorem State.modPower_tapC (s : State) (f : PowerSt → PowerSt) : (s.modPower f).tapC = s.tapC := rfl
@[simp] theorem State.modPower_time (s : State) (f : PowerSt → PowerSt) : (s.modPower f).time = s.time := rfl
@[simp] theorem State.modPower_objs (s : State) (f : PowerSt → PowerSt) : (s.modPower f).objs = s.objs := rfl
@[simp] theorem State.modPower_blobs (s : State) (f : PowerSt → PowerSt) : (s.modPower f).blobs = s.blobs := rfl
@[simp] theorem State.modPower_host (s : State) (f : PowerSt → PowerSt) : (s.modPower f).host = s.host := rfl
@[simp] theorem State.modPower_mb (s : State) (f : PowerSt → PowerSt) : (s.modPower f).mb = s.mb := rfl
@[simp] theorem State.modPower_cmd (s : State) (f : PowerSt → PowerSt) : (s.modPower f).cmd = s.cmd := rfl
@[simp] theorem State.modPower_peelC (s : State) (f : PowerSt → PowerSt) : (s.modPower f).peelC = s.peelC := rfl
@[simp] theorem State.modPower_peelM (s : State) (f : PowerSt → PowerSt) : (s.modPower f).peelM = s.peelM := rfl
@[simp] theorem State.modPower_flt (s : State) (f : PowerSt → PowerSt) : (s.modPower f).flt = s.flt := rfl
@[simp] theorem State.modPower_loaf (s : State) (f : PowerSt → PowerSt) : (s.modPower f).loaf = s.loaf := rfl
@[simp] theorem State.modPower_trip (s : State) (f : PowerSt → PowerSt) : (s.modPower f).trip = s.trip := rfl
@[simp] theorem State.modPower_tripSync (s : State) (f : PowerSt → PowerSt) : (s.modPower f).tripSync = s.tripSync := rfl
@[simp] theorem State.modPower_haltC (s : State) (f : PowerSt → PowerSt) : (s.modPower f).haltC = s.haltC := rfl
@[simp] theorem State.modPower_haltM (s : State) (f : PowerSt → PowerSt) : (s.modPower f).haltM = s.haltM := rfl
@[simp] theorem State.modPower_conv (s : State) (f : PowerSt → PowerSt) : (s.modPower f).conv = s.conv := rfl
@[simp] theorem State.modPower_acc (s : State) (f : PowerSt → PowerSt) : (s.modPower f).acc = s.acc := rfl
@[simp] theorem State.modPower_accOld (s : State) (f : PowerSt → PowerSt) : (s.modPower f).accOld = s.accOld := rfl
@[simp] theorem State.modPower_hand (s : State) (f : PowerSt → PowerSt) : (s.modPower f).hand = s.hand := rfl
@[simp] theorem State.modPower_fb (s : State) (f : PowerSt → PowerSt) : (s.modPower f).fb = s.fb := rfl
@[simp] theorem State.modPower_oven (s : State) (f : PowerSt → PowerSt) : (s.modPower f).oven = s.oven := rfl
@[simp] theorem State.modPower_ovenArb (s : State) (f : PowerSt → PowerSt) : (s.modPower f).ovenArb = s.ovenArb := rfl
@[simp] theorem State.modPower_grp (s : State) (f : PowerSt → PowerSt) : (s.modPower f).grp = s.grp := rfl
@[simp] theorem State.modPower_cap (s : State) (f : PowerSt → PowerSt) : (s.modPower f).cap = s.cap := rfl
@[simp] theorem State.modPower_safety (s : State) (f : PowerSt → PowerSt) : (s.modPower f).safety = s.safety := rfl
@[simp] theorem State.modPower_net (s : State) (f : PowerSt → PowerSt) : (s.modPower f).net = s.net := rfl
@[simp] theorem State.modPower_pp (s : State) (f : PowerSt → PowerSt) : (s.modPower f).pp = s.pp := rfl
@[simp] theorem State.modPower_pair (s : State) (f : PowerSt → PowerSt) : (s.modPower f).pair = s.pair := rfl
@[simp] theorem State.modPower_sec (s : State) (f : PowerSt → PowerSt) : (s.modPower f).sec = s.sec := rfl
@[simp] theorem State.modPower_freeNo (s : State) (f : PowerSt → PowerSt) : (s.modPower f).freeNo = s.freeNo := rfl
@[simp] theorem State.modPower_pending (s : State) (f : PowerSt → PowerSt) : (s.modPower f).pending = s.pending := rfl

/-! ### `modBoot` -/

@[simp] theorem State.modBoot_variant (s : State) (f : BootSt → BootSt) : (s.modBoot f).variant = s.variant := rfl
@[simp] theorem State.modBoot_mode (s : State) (f : BootSt → BootSt) : (s.modBoot f).mode = s.mode := rfl
@[simp] theorem State.modBoot_boot (s : State) (f : BootSt → BootSt) : (s.modBoot f).boot = f s.boot := rfl
@[simp] theorem State.modBoot_power (s : State) (f : BootSt → BootSt) : (s.modBoot f).power = s.power := rfl
@[simp] theorem State.modBoot_tapM (s : State) (f : BootSt → BootSt) : (s.modBoot f).tapM = s.tapM := rfl
@[simp] theorem State.modBoot_tapC (s : State) (f : BootSt → BootSt) : (s.modBoot f).tapC = s.tapC := rfl
@[simp] theorem State.modBoot_time (s : State) (f : BootSt → BootSt) : (s.modBoot f).time = s.time := rfl
@[simp] theorem State.modBoot_objs (s : State) (f : BootSt → BootSt) : (s.modBoot f).objs = s.objs := rfl
@[simp] theorem State.modBoot_blobs (s : State) (f : BootSt → BootSt) : (s.modBoot f).blobs = s.blobs := rfl
@[simp] theorem State.modBoot_host (s : State) (f : BootSt → BootSt) : (s.modBoot f).host = s.host := rfl
@[simp] theorem State.modBoot_mb (s : State) (f : BootSt → BootSt) : (s.modBoot f).mb = s.mb := rfl
@[simp] theorem State.modBoot_cmd (s : State) (f : BootSt → BootSt) : (s.modBoot f).cmd = s.cmd := rfl
@[simp] theorem State.modBoot_peelC (s : State) (f : BootSt → BootSt) : (s.modBoot f).peelC = s.peelC := rfl
@[simp] theorem State.modBoot_peelM (s : State) (f : BootSt → BootSt) : (s.modBoot f).peelM = s.peelM := rfl
@[simp] theorem State.modBoot_flt (s : State) (f : BootSt → BootSt) : (s.modBoot f).flt = s.flt := rfl
@[simp] theorem State.modBoot_loaf (s : State) (f : BootSt → BootSt) : (s.modBoot f).loaf = s.loaf := rfl
@[simp] theorem State.modBoot_trip (s : State) (f : BootSt → BootSt) : (s.modBoot f).trip = s.trip := rfl
@[simp] theorem State.modBoot_tripSync (s : State) (f : BootSt → BootSt) : (s.modBoot f).tripSync = s.tripSync := rfl
@[simp] theorem State.modBoot_haltC (s : State) (f : BootSt → BootSt) : (s.modBoot f).haltC = s.haltC := rfl
@[simp] theorem State.modBoot_haltM (s : State) (f : BootSt → BootSt) : (s.modBoot f).haltM = s.haltM := rfl
@[simp] theorem State.modBoot_conv (s : State) (f : BootSt → BootSt) : (s.modBoot f).conv = s.conv := rfl
@[simp] theorem State.modBoot_acc (s : State) (f : BootSt → BootSt) : (s.modBoot f).acc = s.acc := rfl
@[simp] theorem State.modBoot_accOld (s : State) (f : BootSt → BootSt) : (s.modBoot f).accOld = s.accOld := rfl
@[simp] theorem State.modBoot_hand (s : State) (f : BootSt → BootSt) : (s.modBoot f).hand = s.hand := rfl
@[simp] theorem State.modBoot_fb (s : State) (f : BootSt → BootSt) : (s.modBoot f).fb = s.fb := rfl
@[simp] theorem State.modBoot_oven (s : State) (f : BootSt → BootSt) : (s.modBoot f).oven = s.oven := rfl
@[simp] theorem State.modBoot_ovenArb (s : State) (f : BootSt → BootSt) : (s.modBoot f).ovenArb = s.ovenArb := rfl
@[simp] theorem State.modBoot_grp (s : State) (f : BootSt → BootSt) : (s.modBoot f).grp = s.grp := rfl
@[simp] theorem State.modBoot_cap (s : State) (f : BootSt → BootSt) : (s.modBoot f).cap = s.cap := rfl
@[simp] theorem State.modBoot_safety (s : State) (f : BootSt → BootSt) : (s.modBoot f).safety = s.safety := rfl
@[simp] theorem State.modBoot_net (s : State) (f : BootSt → BootSt) : (s.modBoot f).net = s.net := rfl
@[simp] theorem State.modBoot_pp (s : State) (f : BootSt → BootSt) : (s.modBoot f).pp = s.pp := rfl
@[simp] theorem State.modBoot_pair (s : State) (f : BootSt → BootSt) : (s.modBoot f).pair = s.pair := rfl
@[simp] theorem State.modBoot_sec (s : State) (f : BootSt → BootSt) : (s.modBoot f).sec = s.sec := rfl
@[simp] theorem State.modBoot_freeNo (s : State) (f : BootSt → BootSt) : (s.modBoot f).freeNo = s.freeNo := rfl
@[simp] theorem State.modBoot_pending (s : State) (f : BootSt → BootSt) : (s.modBoot f).pending = s.pending := rfl

/-! ### `modTime` -/

@[simp] theorem State.modTime_variant (s : State) (f : TimeSt → TimeSt) : (s.modTime f).variant = s.variant := rfl
@[simp] theorem State.modTime_mode (s : State) (f : TimeSt → TimeSt) : (s.modTime f).mode = s.mode := rfl
@[simp] theorem State.modTime_boot (s : State) (f : TimeSt → TimeSt) : (s.modTime f).boot = s.boot := rfl
@[simp] theorem State.modTime_power (s : State) (f : TimeSt → TimeSt) : (s.modTime f).power = s.power := rfl
@[simp] theorem State.modTime_tapM (s : State) (f : TimeSt → TimeSt) : (s.modTime f).tapM = s.tapM := rfl
@[simp] theorem State.modTime_tapC (s : State) (f : TimeSt → TimeSt) : (s.modTime f).tapC = s.tapC := rfl
@[simp] theorem State.modTime_time (s : State) (f : TimeSt → TimeSt) : (s.modTime f).time = f s.time := rfl
@[simp] theorem State.modTime_objs (s : State) (f : TimeSt → TimeSt) : (s.modTime f).objs = s.objs := rfl
@[simp] theorem State.modTime_blobs (s : State) (f : TimeSt → TimeSt) : (s.modTime f).blobs = s.blobs := rfl
@[simp] theorem State.modTime_host (s : State) (f : TimeSt → TimeSt) : (s.modTime f).host = s.host := rfl
@[simp] theorem State.modTime_mb (s : State) (f : TimeSt → TimeSt) : (s.modTime f).mb = s.mb := rfl
@[simp] theorem State.modTime_cmd (s : State) (f : TimeSt → TimeSt) : (s.modTime f).cmd = s.cmd := rfl
@[simp] theorem State.modTime_peelC (s : State) (f : TimeSt → TimeSt) : (s.modTime f).peelC = s.peelC := rfl
@[simp] theorem State.modTime_peelM (s : State) (f : TimeSt → TimeSt) : (s.modTime f).peelM = s.peelM := rfl
@[simp] theorem State.modTime_flt (s : State) (f : TimeSt → TimeSt) : (s.modTime f).flt = s.flt := rfl
@[simp] theorem State.modTime_loaf (s : State) (f : TimeSt → TimeSt) : (s.modTime f).loaf = s.loaf := rfl
@[simp] theorem State.modTime_trip (s : State) (f : TimeSt → TimeSt) : (s.modTime f).trip = s.trip := rfl
@[simp] theorem State.modTime_tripSync (s : State) (f : TimeSt → TimeSt) : (s.modTime f).tripSync = s.tripSync := rfl
@[simp] theorem State.modTime_haltC (s : State) (f : TimeSt → TimeSt) : (s.modTime f).haltC = s.haltC := rfl
@[simp] theorem State.modTime_haltM (s : State) (f : TimeSt → TimeSt) : (s.modTime f).haltM = s.haltM := rfl
@[simp] theorem State.modTime_conv (s : State) (f : TimeSt → TimeSt) : (s.modTime f).conv = s.conv := rfl
@[simp] theorem State.modTime_acc (s : State) (f : TimeSt → TimeSt) : (s.modTime f).acc = s.acc := rfl
@[simp] theorem State.modTime_accOld (s : State) (f : TimeSt → TimeSt) : (s.modTime f).accOld = s.accOld := rfl
@[simp] theorem State.modTime_hand (s : State) (f : TimeSt → TimeSt) : (s.modTime f).hand = s.hand := rfl
@[simp] theorem State.modTime_fb (s : State) (f : TimeSt → TimeSt) : (s.modTime f).fb = s.fb := rfl
@[simp] theorem State.modTime_oven (s : State) (f : TimeSt → TimeSt) : (s.modTime f).oven = s.oven := rfl
@[simp] theorem State.modTime_ovenArb (s : State) (f : TimeSt → TimeSt) : (s.modTime f).ovenArb = s.ovenArb := rfl
@[simp] theorem State.modTime_grp (s : State) (f : TimeSt → TimeSt) : (s.modTime f).grp = s.grp := rfl
@[simp] theorem State.modTime_cap (s : State) (f : TimeSt → TimeSt) : (s.modTime f).cap = s.cap := rfl
@[simp] theorem State.modTime_safety (s : State) (f : TimeSt → TimeSt) : (s.modTime f).safety = s.safety := rfl
@[simp] theorem State.modTime_net (s : State) (f : TimeSt → TimeSt) : (s.modTime f).net = s.net := rfl
@[simp] theorem State.modTime_pp (s : State) (f : TimeSt → TimeSt) : (s.modTime f).pp = s.pp := rfl
@[simp] theorem State.modTime_pair (s : State) (f : TimeSt → TimeSt) : (s.modTime f).pair = s.pair := rfl
@[simp] theorem State.modTime_sec (s : State) (f : TimeSt → TimeSt) : (s.modTime f).sec = s.sec := rfl
@[simp] theorem State.modTime_freeNo (s : State) (f : TimeSt → TimeSt) : (s.modTime f).freeNo = s.freeNo := rfl
@[simp] theorem State.modTime_pending (s : State) (f : TimeSt → TimeSt) : (s.modTime f).pending = s.pending := rfl

/-! ### `modHost` -/

@[simp] theorem State.modHost_variant (s : State) (f : HostSt → HostSt) : (s.modHost f).variant = s.variant := rfl
@[simp] theorem State.modHost_mode (s : State) (f : HostSt → HostSt) : (s.modHost f).mode = s.mode := rfl
@[simp] theorem State.modHost_boot (s : State) (f : HostSt → HostSt) : (s.modHost f).boot = s.boot := rfl
@[simp] theorem State.modHost_power (s : State) (f : HostSt → HostSt) : (s.modHost f).power = s.power := rfl
@[simp] theorem State.modHost_tapM (s : State) (f : HostSt → HostSt) : (s.modHost f).tapM = s.tapM := rfl
@[simp] theorem State.modHost_tapC (s : State) (f : HostSt → HostSt) : (s.modHost f).tapC = s.tapC := rfl
@[simp] theorem State.modHost_time (s : State) (f : HostSt → HostSt) : (s.modHost f).time = s.time := rfl
@[simp] theorem State.modHost_objs (s : State) (f : HostSt → HostSt) : (s.modHost f).objs = s.objs := rfl
@[simp] theorem State.modHost_blobs (s : State) (f : HostSt → HostSt) : (s.modHost f).blobs = s.blobs := rfl
@[simp] theorem State.modHost_host (s : State) (f : HostSt → HostSt) : (s.modHost f).host = f s.host := rfl
@[simp] theorem State.modHost_mb (s : State) (f : HostSt → HostSt) : (s.modHost f).mb = s.mb := rfl
@[simp] theorem State.modHost_cmd (s : State) (f : HostSt → HostSt) : (s.modHost f).cmd = s.cmd := rfl
@[simp] theorem State.modHost_peelC (s : State) (f : HostSt → HostSt) : (s.modHost f).peelC = s.peelC := rfl
@[simp] theorem State.modHost_peelM (s : State) (f : HostSt → HostSt) : (s.modHost f).peelM = s.peelM := rfl
@[simp] theorem State.modHost_flt (s : State) (f : HostSt → HostSt) : (s.modHost f).flt = s.flt := rfl
@[simp] theorem State.modHost_loaf (s : State) (f : HostSt → HostSt) : (s.modHost f).loaf = s.loaf := rfl
@[simp] theorem State.modHost_trip (s : State) (f : HostSt → HostSt) : (s.modHost f).trip = s.trip := rfl
@[simp] theorem State.modHost_tripSync (s : State) (f : HostSt → HostSt) : (s.modHost f).tripSync = s.tripSync := rfl
@[simp] theorem State.modHost_haltC (s : State) (f : HostSt → HostSt) : (s.modHost f).haltC = s.haltC := rfl
@[simp] theorem State.modHost_haltM (s : State) (f : HostSt → HostSt) : (s.modHost f).haltM = s.haltM := rfl
@[simp] theorem State.modHost_conv (s : State) (f : HostSt → HostSt) : (s.modHost f).conv = s.conv := rfl
@[simp] theorem State.modHost_acc (s : State) (f : HostSt → HostSt) : (s.modHost f).acc = s.acc := rfl
@[simp] theorem State.modHost_accOld (s : State) (f : HostSt → HostSt) : (s.modHost f).accOld = s.accOld := rfl
@[simp] theorem State.modHost_hand (s : State) (f : HostSt → HostSt) : (s.modHost f).hand = s.hand := rfl
@[simp] theorem State.modHost_fb (s : State) (f : HostSt → HostSt) : (s.modHost f).fb = s.fb := rfl
@[simp] theorem State.modHost_oven (s : State) (f : HostSt → HostSt) : (s.modHost f).oven = s.oven := rfl
@[simp] theorem State.modHost_ovenArb (s : State) (f : HostSt → HostSt) : (s.modHost f).ovenArb = s.ovenArb := rfl
@[simp] theorem State.modHost_grp (s : State) (f : HostSt → HostSt) : (s.modHost f).grp = s.grp := rfl
@[simp] theorem State.modHost_cap (s : State) (f : HostSt → HostSt) : (s.modHost f).cap = s.cap := rfl
@[simp] theorem State.modHost_safety (s : State) (f : HostSt → HostSt) : (s.modHost f).safety = s.safety := rfl
@[simp] theorem State.modHost_net (s : State) (f : HostSt → HostSt) : (s.modHost f).net = s.net := rfl
@[simp] theorem State.modHost_pp (s : State) (f : HostSt → HostSt) : (s.modHost f).pp = s.pp := rfl
@[simp] theorem State.modHost_pair (s : State) (f : HostSt → HostSt) : (s.modHost f).pair = s.pair := rfl
@[simp] theorem State.modHost_sec (s : State) (f : HostSt → HostSt) : (s.modHost f).sec = s.sec := rfl
@[simp] theorem State.modHost_freeNo (s : State) (f : HostSt → HostSt) : (s.modHost f).freeNo = s.freeNo := rfl
@[simp] theorem State.modHost_pending (s : State) (f : HostSt → HostSt) : (s.modHost f).pending = s.pending := rfl

/-! ### `modCmd` -/

@[simp] theorem State.modCmd_variant (s : State) (f : CmdSt → CmdSt) : (s.modCmd f).variant = s.variant := rfl
@[simp] theorem State.modCmd_mode (s : State) (f : CmdSt → CmdSt) : (s.modCmd f).mode = s.mode := rfl
@[simp] theorem State.modCmd_boot (s : State) (f : CmdSt → CmdSt) : (s.modCmd f).boot = s.boot := rfl
@[simp] theorem State.modCmd_power (s : State) (f : CmdSt → CmdSt) : (s.modCmd f).power = s.power := rfl
@[simp] theorem State.modCmd_tapM (s : State) (f : CmdSt → CmdSt) : (s.modCmd f).tapM = s.tapM := rfl
@[simp] theorem State.modCmd_tapC (s : State) (f : CmdSt → CmdSt) : (s.modCmd f).tapC = s.tapC := rfl
@[simp] theorem State.modCmd_time (s : State) (f : CmdSt → CmdSt) : (s.modCmd f).time = s.time := rfl
@[simp] theorem State.modCmd_objs (s : State) (f : CmdSt → CmdSt) : (s.modCmd f).objs = s.objs := rfl
@[simp] theorem State.modCmd_blobs (s : State) (f : CmdSt → CmdSt) : (s.modCmd f).blobs = s.blobs := rfl
@[simp] theorem State.modCmd_host (s : State) (f : CmdSt → CmdSt) : (s.modCmd f).host = s.host := rfl
@[simp] theorem State.modCmd_mb (s : State) (f : CmdSt → CmdSt) : (s.modCmd f).mb = s.mb := rfl
@[simp] theorem State.modCmd_cmd (s : State) (f : CmdSt → CmdSt) : (s.modCmd f).cmd = f s.cmd := rfl
@[simp] theorem State.modCmd_peelC (s : State) (f : CmdSt → CmdSt) : (s.modCmd f).peelC = s.peelC := rfl
@[simp] theorem State.modCmd_peelM (s : State) (f : CmdSt → CmdSt) : (s.modCmd f).peelM = s.peelM := rfl
@[simp] theorem State.modCmd_flt (s : State) (f : CmdSt → CmdSt) : (s.modCmd f).flt = s.flt := rfl
@[simp] theorem State.modCmd_loaf (s : State) (f : CmdSt → CmdSt) : (s.modCmd f).loaf = s.loaf := rfl
@[simp] theorem State.modCmd_trip (s : State) (f : CmdSt → CmdSt) : (s.modCmd f).trip = s.trip := rfl
@[simp] theorem State.modCmd_tripSync (s : State) (f : CmdSt → CmdSt) : (s.modCmd f).tripSync = s.tripSync := rfl
@[simp] theorem State.modCmd_haltC (s : State) (f : CmdSt → CmdSt) : (s.modCmd f).haltC = s.haltC := rfl
@[simp] theorem State.modCmd_haltM (s : State) (f : CmdSt → CmdSt) : (s.modCmd f).haltM = s.haltM := rfl
@[simp] theorem State.modCmd_conv (s : State) (f : CmdSt → CmdSt) : (s.modCmd f).conv = s.conv := rfl
@[simp] theorem State.modCmd_acc (s : State) (f : CmdSt → CmdSt) : (s.modCmd f).acc = s.acc := rfl
@[simp] theorem State.modCmd_accOld (s : State) (f : CmdSt → CmdSt) : (s.modCmd f).accOld = s.accOld := rfl
@[simp] theorem State.modCmd_hand (s : State) (f : CmdSt → CmdSt) : (s.modCmd f).hand = s.hand := rfl
@[simp] theorem State.modCmd_fb (s : State) (f : CmdSt → CmdSt) : (s.modCmd f).fb = s.fb := rfl
@[simp] theorem State.modCmd_oven (s : State) (f : CmdSt → CmdSt) : (s.modCmd f).oven = s.oven := rfl
@[simp] theorem State.modCmd_ovenArb (s : State) (f : CmdSt → CmdSt) : (s.modCmd f).ovenArb = s.ovenArb := rfl
@[simp] theorem State.modCmd_grp (s : State) (f : CmdSt → CmdSt) : (s.modCmd f).grp = s.grp := rfl
@[simp] theorem State.modCmd_cap (s : State) (f : CmdSt → CmdSt) : (s.modCmd f).cap = s.cap := rfl
@[simp] theorem State.modCmd_safety (s : State) (f : CmdSt → CmdSt) : (s.modCmd f).safety = s.safety := rfl
@[simp] theorem State.modCmd_net (s : State) (f : CmdSt → CmdSt) : (s.modCmd f).net = s.net := rfl
@[simp] theorem State.modCmd_pp (s : State) (f : CmdSt → CmdSt) : (s.modCmd f).pp = s.pp := rfl
@[simp] theorem State.modCmd_pair (s : State) (f : CmdSt → CmdSt) : (s.modCmd f).pair = s.pair := rfl
@[simp] theorem State.modCmd_sec (s : State) (f : CmdSt → CmdSt) : (s.modCmd f).sec = s.sec := rfl
@[simp] theorem State.modCmd_freeNo (s : State) (f : CmdSt → CmdSt) : (s.modCmd f).freeNo = s.freeNo := rfl
@[simp] theorem State.modCmd_pending (s : State) (f : CmdSt → CmdSt) : (s.modCmd f).pending = s.pending := rfl

/-! ### `modNet` -/

@[simp] theorem State.modNet_variant (s : State) (f : NetSt → NetSt) : (s.modNet f).variant = s.variant := rfl
@[simp] theorem State.modNet_mode (s : State) (f : NetSt → NetSt) : (s.modNet f).mode = s.mode := rfl
@[simp] theorem State.modNet_boot (s : State) (f : NetSt → NetSt) : (s.modNet f).boot = s.boot := rfl
@[simp] theorem State.modNet_power (s : State) (f : NetSt → NetSt) : (s.modNet f).power = s.power := rfl
@[simp] theorem State.modNet_tapM (s : State) (f : NetSt → NetSt) : (s.modNet f).tapM = s.tapM := rfl
@[simp] theorem State.modNet_tapC (s : State) (f : NetSt → NetSt) : (s.modNet f).tapC = s.tapC := rfl
@[simp] theorem State.modNet_time (s : State) (f : NetSt → NetSt) : (s.modNet f).time = s.time := rfl
@[simp] theorem State.modNet_objs (s : State) (f : NetSt → NetSt) : (s.modNet f).objs = s.objs := rfl
@[simp] theorem State.modNet_blobs (s : State) (f : NetSt → NetSt) : (s.modNet f).blobs = s.blobs := rfl
@[simp] theorem State.modNet_host (s : State) (f : NetSt → NetSt) : (s.modNet f).host = s.host := rfl
@[simp] theorem State.modNet_mb (s : State) (f : NetSt → NetSt) : (s.modNet f).mb = s.mb := rfl
@[simp] theorem State.modNet_cmd (s : State) (f : NetSt → NetSt) : (s.modNet f).cmd = s.cmd := rfl
@[simp] theorem State.modNet_peelC (s : State) (f : NetSt → NetSt) : (s.modNet f).peelC = s.peelC := rfl
@[simp] theorem State.modNet_peelM (s : State) (f : NetSt → NetSt) : (s.modNet f).peelM = s.peelM := rfl
@[simp] theorem State.modNet_flt (s : State) (f : NetSt → NetSt) : (s.modNet f).flt = s.flt := rfl
@[simp] theorem State.modNet_loaf (s : State) (f : NetSt → NetSt) : (s.modNet f).loaf = s.loaf := rfl
@[simp] theorem State.modNet_trip (s : State) (f : NetSt → NetSt) : (s.modNet f).trip = s.trip := rfl
@[simp] theorem State.modNet_tripSync (s : State) (f : NetSt → NetSt) : (s.modNet f).tripSync = s.tripSync := rfl
@[simp] theorem State.modNet_haltC (s : State) (f : NetSt → NetSt) : (s.modNet f).haltC = s.haltC := rfl
@[simp] theorem State.modNet_haltM (s : State) (f : NetSt → NetSt) : (s.modNet f).haltM = s.haltM := rfl
@[simp] theorem State.modNet_conv (s : State) (f : NetSt → NetSt) : (s.modNet f).conv = s.conv := rfl
@[simp] theorem State.modNet_acc (s : State) (f : NetSt → NetSt) : (s.modNet f).acc = s.acc := rfl
@[simp] theorem State.modNet_accOld (s : State) (f : NetSt → NetSt) : (s.modNet f).accOld = s.accOld := rfl
@[simp] theorem State.modNet_hand (s : State) (f : NetSt → NetSt) : (s.modNet f).hand = s.hand := rfl
@[simp] theorem State.modNet_fb (s : State) (f : NetSt → NetSt) : (s.modNet f).fb = s.fb := rfl
@[simp] theorem State.modNet_oven (s : State) (f : NetSt → NetSt) : (s.modNet f).oven = s.oven := rfl
@[simp] theorem State.modNet_ovenArb (s : State) (f : NetSt → NetSt) : (s.modNet f).ovenArb = s.ovenArb := rfl
@[simp] theorem State.modNet_grp (s : State) (f : NetSt → NetSt) : (s.modNet f).grp = s.grp := rfl
@[simp] theorem State.modNet_cap (s : State) (f : NetSt → NetSt) : (s.modNet f).cap = s.cap := rfl
@[simp] theorem State.modNet_safety (s : State) (f : NetSt → NetSt) : (s.modNet f).safety = s.safety := rfl
@[simp] theorem State.modNet_net (s : State) (f : NetSt → NetSt) : (s.modNet f).net = f s.net := rfl
@[simp] theorem State.modNet_pp (s : State) (f : NetSt → NetSt) : (s.modNet f).pp = s.pp := rfl
@[simp] theorem State.modNet_pair (s : State) (f : NetSt → NetSt) : (s.modNet f).pair = s.pair := rfl
@[simp] theorem State.modNet_sec (s : State) (f : NetSt → NetSt) : (s.modNet f).sec = s.sec := rfl
@[simp] theorem State.modNet_freeNo (s : State) (f : NetSt → NetSt) : (s.modNet f).freeNo = s.freeNo := rfl
@[simp] theorem State.modNet_pending (s : State) (f : NetSt → NetSt) : (s.modNet f).pending = s.pending := rfl

/-! ### `modPp` -/

@[simp] theorem State.modPp_variant (s : State) (f : PpSt → PpSt) : (s.modPp f).variant = s.variant := rfl
@[simp] theorem State.modPp_mode (s : State) (f : PpSt → PpSt) : (s.modPp f).mode = s.mode := rfl
@[simp] theorem State.modPp_boot (s : State) (f : PpSt → PpSt) : (s.modPp f).boot = s.boot := rfl
@[simp] theorem State.modPp_power (s : State) (f : PpSt → PpSt) : (s.modPp f).power = s.power := rfl
@[simp] theorem State.modPp_tapM (s : State) (f : PpSt → PpSt) : (s.modPp f).tapM = s.tapM := rfl
@[simp] theorem State.modPp_tapC (s : State) (f : PpSt → PpSt) : (s.modPp f).tapC = s.tapC := rfl
@[simp] theorem State.modPp_time (s : State) (f : PpSt → PpSt) : (s.modPp f).time = s.time := rfl
@[simp] theorem State.modPp_objs (s : State) (f : PpSt → PpSt) : (s.modPp f).objs = s.objs := rfl
@[simp] theorem State.modPp_blobs (s : State) (f : PpSt → PpSt) : (s.modPp f).blobs = s.blobs := rfl
@[simp] theorem State.modPp_host (s : State) (f : PpSt → PpSt) : (s.modPp f).host = s.host := rfl
@[simp] theorem State.modPp_mb (s : State) (f : PpSt → PpSt) : (s.modPp f).mb = s.mb := rfl
@[simp] theorem State.modPp_cmd (s : State) (f : PpSt → PpSt) : (s.modPp f).cmd = s.cmd := rfl
@[simp] theorem State.modPp_peelC (s : State) (f : PpSt → PpSt) : (s.modPp f).peelC = s.peelC := rfl
@[simp] theorem State.modPp_peelM (s : State) (f : PpSt → PpSt) : (s.modPp f).peelM = s.peelM := rfl
@[simp] theorem State.modPp_flt (s : State) (f : PpSt → PpSt) : (s.modPp f).flt = s.flt := rfl
@[simp] theorem State.modPp_loaf (s : State) (f : PpSt → PpSt) : (s.modPp f).loaf = s.loaf := rfl
@[simp] theorem State.modPp_trip (s : State) (f : PpSt → PpSt) : (s.modPp f).trip = s.trip := rfl
@[simp] theorem State.modPp_tripSync (s : State) (f : PpSt → PpSt) : (s.modPp f).tripSync = s.tripSync := rfl
@[simp] theorem State.modPp_haltC (s : State) (f : PpSt → PpSt) : (s.modPp f).haltC = s.haltC := rfl
@[simp] theorem State.modPp_haltM (s : State) (f : PpSt → PpSt) : (s.modPp f).haltM = s.haltM := rfl
@[simp] theorem State.modPp_conv (s : State) (f : PpSt → PpSt) : (s.modPp f).conv = s.conv := rfl
@[simp] theorem State.modPp_acc (s : State) (f : PpSt → PpSt) : (s.modPp f).acc = s.acc := rfl
@[simp] theorem State.modPp_accOld (s : State) (f : PpSt → PpSt) : (s.modPp f).accOld = s.accOld := rfl
@[simp] theorem State.modPp_hand (s : State) (f : PpSt → PpSt) : (s.modPp f).hand = s.hand := rfl
@[simp] theorem State.modPp_fb (s : State) (f : PpSt → PpSt) : (s.modPp f).fb = s.fb := rfl
@[simp] theorem State.modPp_oven (s : State) (f : PpSt → PpSt) : (s.modPp f).oven = s.oven := rfl
@[simp] theorem State.modPp_ovenArb (s : State) (f : PpSt → PpSt) : (s.modPp f).ovenArb = s.ovenArb := rfl
@[simp] theorem State.modPp_grp (s : State) (f : PpSt → PpSt) : (s.modPp f).grp = s.grp := rfl
@[simp] theorem State.modPp_cap (s : State) (f : PpSt → PpSt) : (s.modPp f).cap = s.cap := rfl
@[simp] theorem State.modPp_safety (s : State) (f : PpSt → PpSt) : (s.modPp f).safety = s.safety := rfl
@[simp] theorem State.modPp_net (s : State) (f : PpSt → PpSt) : (s.modPp f).net = s.net := rfl
@[simp] theorem State.modPp_pp (s : State) (f : PpSt → PpSt) : (s.modPp f).pp = f s.pp := rfl
@[simp] theorem State.modPp_pair (s : State) (f : PpSt → PpSt) : (s.modPp f).pair = s.pair := rfl
@[simp] theorem State.modPp_sec (s : State) (f : PpSt → PpSt) : (s.modPp f).sec = s.sec := rfl
@[simp] theorem State.modPp_freeNo (s : State) (f : PpSt → PpSt) : (s.modPp f).freeNo = s.freeNo := rfl
@[simp] theorem State.modPp_pending (s : State) (f : PpSt → PpSt) : (s.modPp f).pending = s.pending := rfl

/-! ### `modPair` -/

@[simp] theorem State.modPair_variant (s : State) (f : PairSt → PairSt) : (s.modPair f).variant = s.variant := rfl
@[simp] theorem State.modPair_mode (s : State) (f : PairSt → PairSt) : (s.modPair f).mode = s.mode := rfl
@[simp] theorem State.modPair_boot (s : State) (f : PairSt → PairSt) : (s.modPair f).boot = s.boot := rfl
@[simp] theorem State.modPair_power (s : State) (f : PairSt → PairSt) : (s.modPair f).power = s.power := rfl
@[simp] theorem State.modPair_tapM (s : State) (f : PairSt → PairSt) : (s.modPair f).tapM = s.tapM := rfl
@[simp] theorem State.modPair_tapC (s : State) (f : PairSt → PairSt) : (s.modPair f).tapC = s.tapC := rfl
@[simp] theorem State.modPair_time (s : State) (f : PairSt → PairSt) : (s.modPair f).time = s.time := rfl
@[simp] theorem State.modPair_objs (s : State) (f : PairSt → PairSt) : (s.modPair f).objs = s.objs := rfl
@[simp] theorem State.modPair_blobs (s : State) (f : PairSt → PairSt) : (s.modPair f).blobs = s.blobs := rfl
@[simp] theorem State.modPair_host (s : State) (f : PairSt → PairSt) : (s.modPair f).host = s.host := rfl
@[simp] theorem State.modPair_mb (s : State) (f : PairSt → PairSt) : (s.modPair f).mb = s.mb := rfl
@[simp] theorem State.modPair_cmd (s : State) (f : PairSt → PairSt) : (s.modPair f).cmd = s.cmd := rfl
@[simp] theorem State.modPair_peelC (s : State) (f : PairSt → PairSt) : (s.modPair f).peelC = s.peelC := rfl
@[simp] theorem State.modPair_peelM (s : State) (f : PairSt → PairSt) : (s.modPair f).peelM = s.peelM := rfl
@[simp] theorem State.modPair_flt (s : State) (f : PairSt → PairSt) : (s.modPair f).flt = s.flt := rfl
@[simp] theorem State.modPair_loaf (s : State) (f : PairSt → PairSt) : (s.modPair f).loaf = s.loaf := rfl
@[simp] theorem State.modPair_trip (s : State) (f : PairSt → PairSt) : (s.modPair f).trip = s.trip := rfl
@[simp] theorem State.modPair_tripSync (s : State) (f : PairSt → PairSt) : (s.modPair f).tripSync = s.tripSync := rfl
@[simp] theorem State.modPair_haltC (s : State) (f : PairSt → PairSt) : (s.modPair f).haltC = s.haltC := rfl
@[simp] theorem State.modPair_haltM (s : State) (f : PairSt → PairSt) : (s.modPair f).haltM = s.haltM := rfl
@[simp] theorem State.modPair_conv (s : State) (f : PairSt → PairSt) : (s.modPair f).conv = s.conv := rfl
@[simp] theorem State.modPair_acc (s : State) (f : PairSt → PairSt) : (s.modPair f).acc = s.acc := rfl
@[simp] theorem State.modPair_accOld (s : State) (f : PairSt → PairSt) : (s.modPair f).accOld = s.accOld := rfl
@[simp] theorem State.modPair_hand (s : State) (f : PairSt → PairSt) : (s.modPair f).hand = s.hand := rfl
@[simp] theorem State.modPair_fb (s : State) (f : PairSt → PairSt) : (s.modPair f).fb = s.fb := rfl
@[simp] theorem State.modPair_oven (s : State) (f : PairSt → PairSt) : (s.modPair f).oven = s.oven := rfl
@[simp] theorem State.modPair_ovenArb (s : State) (f : PairSt → PairSt) : (s.modPair f).ovenArb = s.ovenArb := rfl
@[simp] theorem State.modPair_grp (s : State) (f : PairSt → PairSt) : (s.modPair f).grp = s.grp := rfl
@[simp] theorem State.modPair_cap (s : State) (f : PairSt → PairSt) : (s.modPair f).cap = s.cap := rfl
@[simp] theorem State.modPair_safety (s : State) (f : PairSt → PairSt) : (s.modPair f).safety = s.safety := rfl
@[simp] theorem State.modPair_net (s : State) (f : PairSt → PairSt) : (s.modPair f).net = s.net := rfl
@[simp] theorem State.modPair_pp (s : State) (f : PairSt → PairSt) : (s.modPair f).pp = s.pp := rfl
@[simp] theorem State.modPair_pair (s : State) (f : PairSt → PairSt) : (s.modPair f).pair = f s.pair := rfl
@[simp] theorem State.modPair_sec (s : State) (f : PairSt → PairSt) : (s.modPair f).sec = s.sec := rfl
@[simp] theorem State.modPair_freeNo (s : State) (f : PairSt → PairSt) : (s.modPair f).freeNo = s.freeNo := rfl
@[simp] theorem State.modPair_pending (s : State) (f : PairSt → PairSt) : (s.modPair f).pending = s.pending := rfl

/-! ### `modSec` -/

@[simp] theorem State.modSec_variant (s : State) (f : SecSt → SecSt) : (s.modSec f).variant = s.variant := rfl
@[simp] theorem State.modSec_mode (s : State) (f : SecSt → SecSt) : (s.modSec f).mode = s.mode := rfl
@[simp] theorem State.modSec_boot (s : State) (f : SecSt → SecSt) : (s.modSec f).boot = s.boot := rfl
@[simp] theorem State.modSec_power (s : State) (f : SecSt → SecSt) : (s.modSec f).power = s.power := rfl
@[simp] theorem State.modSec_tapM (s : State) (f : SecSt → SecSt) : (s.modSec f).tapM = s.tapM := rfl
@[simp] theorem State.modSec_tapC (s : State) (f : SecSt → SecSt) : (s.modSec f).tapC = s.tapC := rfl
@[simp] theorem State.modSec_time (s : State) (f : SecSt → SecSt) : (s.modSec f).time = s.time := rfl
@[simp] theorem State.modSec_objs (s : State) (f : SecSt → SecSt) : (s.modSec f).objs = s.objs := rfl
@[simp] theorem State.modSec_blobs (s : State) (f : SecSt → SecSt) : (s.modSec f).blobs = s.blobs := rfl
@[simp] theorem State.modSec_host (s : State) (f : SecSt → SecSt) : (s.modSec f).host = s.host := rfl
@[simp] theorem State.modSec_mb (s : State) (f : SecSt → SecSt) : (s.modSec f).mb = s.mb := rfl
@[simp] theorem State.modSec_cmd (s : State) (f : SecSt → SecSt) : (s.modSec f).cmd = s.cmd := rfl
@[simp] theorem State.modSec_peelC (s : State) (f : SecSt → SecSt) : (s.modSec f).peelC = s.peelC := rfl
@[simp] theorem State.modSec_peelM (s : State) (f : SecSt → SecSt) : (s.modSec f).peelM = s.peelM := rfl
@[simp] theorem State.modSec_flt (s : State) (f : SecSt → SecSt) : (s.modSec f).flt = s.flt := rfl
@[simp] theorem State.modSec_loaf (s : State) (f : SecSt → SecSt) : (s.modSec f).loaf = s.loaf := rfl
@[simp] theorem State.modSec_trip (s : State) (f : SecSt → SecSt) : (s.modSec f).trip = s.trip := rfl
@[simp] theorem State.modSec_tripSync (s : State) (f : SecSt → SecSt) : (s.modSec f).tripSync = s.tripSync := rfl
@[simp] theorem State.modSec_haltC (s : State) (f : SecSt → SecSt) : (s.modSec f).haltC = s.haltC := rfl
@[simp] theorem State.modSec_haltM (s : State) (f : SecSt → SecSt) : (s.modSec f).haltM = s.haltM := rfl
@[simp] theorem State.modSec_conv (s : State) (f : SecSt → SecSt) : (s.modSec f).conv = s.conv := rfl
@[simp] theorem State.modSec_acc (s : State) (f : SecSt → SecSt) : (s.modSec f).acc = s.acc := rfl
@[simp] theorem State.modSec_accOld (s : State) (f : SecSt → SecSt) : (s.modSec f).accOld = s.accOld := rfl
@[simp] theorem State.modSec_hand (s : State) (f : SecSt → SecSt) : (s.modSec f).hand = s.hand := rfl
@[simp] theorem State.modSec_fb (s : State) (f : SecSt → SecSt) : (s.modSec f).fb = s.fb := rfl
@[simp] theorem State.modSec_oven (s : State) (f : SecSt → SecSt) : (s.modSec f).oven = s.oven := rfl
@[simp] theorem State.modSec_ovenArb (s : State) (f : SecSt → SecSt) : (s.modSec f).ovenArb = s.ovenArb := rfl
@[simp] theorem State.modSec_grp (s : State) (f : SecSt → SecSt) : (s.modSec f).grp = s.grp := rfl
@[simp] theorem State.modSec_cap (s : State) (f : SecSt → SecSt) : (s.modSec f).cap = s.cap := rfl
@[simp] theorem State.modSec_safety (s : State) (f : SecSt → SecSt) : (s.modSec f).safety = s.safety := rfl
@[simp] theorem State.modSec_net (s : State) (f : SecSt → SecSt) : (s.modSec f).net = s.net := rfl
@[simp] theorem State.modSec_pp (s : State) (f : SecSt → SecSt) : (s.modSec f).pp = s.pp := rfl
@[simp] theorem State.modSec_pair (s : State) (f : SecSt → SecSt) : (s.modSec f).pair = s.pair := rfl
@[simp] theorem State.modSec_sec (s : State) (f : SecSt → SecSt) : (s.modSec f).sec = f s.sec := rfl
@[simp] theorem State.modSec_freeNo (s : State) (f : SecSt → SecSt) : (s.modSec f).freeNo = s.freeNo := rfl
@[simp] theorem State.modSec_pending (s : State) (f : SecSt → SecSt) : (s.modSec f).pending = s.pending := rfl

/-! ### `modCap` -/

@[simp] theorem State.modCap_variant (s : State) (f : CapSt → CapSt) : (s.modCap f).variant = s.variant := rfl
@[simp] theorem State.modCap_mode (s : State) (f : CapSt → CapSt) : (s.modCap f).mode = s.mode := rfl
@[simp] theorem State.modCap_boot (s : State) (f : CapSt → CapSt) : (s.modCap f).boot = s.boot := rfl
@[simp] theorem State.modCap_power (s : State) (f : CapSt → CapSt) : (s.modCap f).power = s.power := rfl
@[simp] theorem State.modCap_tapM (s : State) (f : CapSt → CapSt) : (s.modCap f).tapM = s.tapM := rfl
@[simp] theorem State.modCap_tapC (s : State) (f : CapSt → CapSt) : (s.modCap f).tapC = s.tapC := rfl
@[simp] theorem State.modCap_time (s : State) (f : CapSt → CapSt) : (s.modCap f).time = s.time := rfl
@[simp] theorem State.modCap_objs (s : State) (f : CapSt → CapSt) : (s.modCap f).objs = s.objs := rfl
@[simp] theorem State.modCap_blobs (s : State) (f : CapSt → CapSt) : (s.modCap f).blobs = s.blobs := rfl
@[simp] theorem State.modCap_host (s : State) (f : CapSt → CapSt) : (s.modCap f).host = s.host := rfl
@[simp] theorem State.modCap_mb (s : State) (f : CapSt → CapSt) : (s.modCap f).mb = s.mb := rfl
@[simp] theorem State.modCap_cmd (s : State) (f : CapSt → CapSt) : (s.modCap f).cmd = s.cmd := rfl
@[simp] theorem State.modCap_peelC (s : State) (f : CapSt → CapSt) : (s.modCap f).peelC = s.peelC := rfl
@[simp] theorem State.modCap_peelM (s : State) (f : CapSt → CapSt) : (s.modCap f).peelM = s.peelM := rfl
@[simp] theorem State.modCap_flt (s : State) (f : CapSt → CapSt) : (s.modCap f).flt = s.flt := rfl
@[simp] theorem State.modCap_loaf (s : State) (f : CapSt → CapSt) : (s.modCap f).loaf = s.loaf := rfl
@[simp] theorem State.modCap_trip (s : State) (f : CapSt → CapSt) : (s.modCap f).trip = s.trip := rfl
@[simp] theorem State.modCap_tripSync (s : State) (f : CapSt → CapSt) : (s.modCap f).tripSync = s.tripSync := rfl
@[simp] theorem State.modCap_haltC (s : State) (f : CapSt → CapSt) : (s.modCap f).haltC = s.haltC := rfl
@[simp] theorem State.modCap_haltM (s : State) (f : CapSt → CapSt) : (s.modCap f).haltM = s.haltM := rfl
@[simp] theorem State.modCap_conv (s : State) (f : CapSt → CapSt) : (s.modCap f).conv = s.conv := rfl
@[simp] theorem State.modCap_acc (s : State) (f : CapSt → CapSt) : (s.modCap f).acc = s.acc := rfl
@[simp] theorem State.modCap_accOld (s : State) (f : CapSt → CapSt) : (s.modCap f).accOld = s.accOld := rfl
@[simp] theorem State.modCap_hand (s : State) (f : CapSt → CapSt) : (s.modCap f).hand = s.hand := rfl
@[simp] theorem State.modCap_fb (s : State) (f : CapSt → CapSt) : (s.modCap f).fb = s.fb := rfl
@[simp] theorem State.modCap_oven (s : State) (f : CapSt → CapSt) : (s.modCap f).oven = s.oven := rfl
@[simp] theorem State.modCap_ovenArb (s : State) (f : CapSt → CapSt) : (s.modCap f).ovenArb = s.ovenArb := rfl
@[simp] theorem State.modCap_grp (s : State) (f : CapSt → CapSt) : (s.modCap f).grp = s.grp := rfl
@[simp] theorem State.modCap_cap (s : State) (f : CapSt → CapSt) : (s.modCap f).cap = f s.cap := rfl
@[simp] theorem State.modCap_safety (s : State) (f : CapSt → CapSt) : (s.modCap f).safety = s.safety := rfl
@[simp] theorem State.modCap_net (s : State) (f : CapSt → CapSt) : (s.modCap f).net = s.net := rfl
@[simp] theorem State.modCap_pp (s : State) (f : CapSt → CapSt) : (s.modCap f).pp = s.pp := rfl
@[simp] theorem State.modCap_pair (s : State) (f : CapSt → CapSt) : (s.modCap f).pair = s.pair := rfl
@[simp] theorem State.modCap_sec (s : State) (f : CapSt → CapSt) : (s.modCap f).sec = s.sec := rfl
@[simp] theorem State.modCap_freeNo (s : State) (f : CapSt → CapSt) : (s.modCap f).freeNo = s.freeNo := rfl
@[simp] theorem State.modCap_pending (s : State) (f : CapSt → CapSt) : (s.modCap f).pending = s.pending := rfl

/-! ### `wr` -/

@[simp] theorem State.wr_variant (s : State) (a : Nat) (v : Int) : (s.wr a v).variant = s.variant := rfl
@[simp] theorem State.wr_mode (s : State) (a : Nat) (v : Int) : (s.wr a v).mode = s.mode := rfl
@[simp] theorem State.wr_boot (s : State) (a : Nat) (v : Int) : (s.wr a v).boot = s.boot := rfl
@[simp] theorem State.wr_power (s : State) (a : Nat) (v : Int) : (s.wr a v).power = s.power := rfl
@[simp] theorem State.wr_tapM (s : State) (a : Nat) (v : Int) : (s.wr a v).tapM = s.tapM := rfl
@[simp] theorem State.wr_tapC (s : State) (a : Nat) (v : Int) : (s.wr a v).tapC = s.tapC := rfl
@[simp] theorem State.wr_time (s : State) (a : Nat) (v : Int) : (s.wr a v).time = s.time := rfl
@[simp] theorem State.wr_objs (s : State) (a : Nat) (v : Int) : (s.wr a v).objs = s.objs.set a v := rfl
@[simp] theorem State.wr_blobs (s : State) (a : Nat) (v : Int) : (s.wr a v).blobs = s.blobs := rfl
@[simp] theorem State.wr_host (s : State) (a : Nat) (v : Int) : (s.wr a v).host = s.host := rfl
@[simp] theorem State.wr_mb (s : State) (a : Nat) (v : Int) : (s.wr a v).mb = s.mb := rfl
@[simp] theorem State.wr_cmd (s : State) (a : Nat) (v : Int) : (s.wr a v).cmd = s.cmd := rfl
@[simp] theorem State.wr_peelC (s : State) (a : Nat) (v : Int) : (s.wr a v).peelC = s.peelC := rfl
@[simp] theorem State.wr_peelM (s : State) (a : Nat) (v : Int) : (s.wr a v).peelM = s.peelM := rfl
@[simp] theorem State.wr_flt (s : State) (a : Nat) (v : Int) : (s.wr a v).flt = s.flt := rfl
@[simp] theorem State.wr_loaf (s : State) (a : Nat) (v : Int) : (s.wr a v).loaf = s.loaf := rfl
@[simp] theorem State.wr_trip (s : State) (a : Nat) (v : Int) : (s.wr a v).trip = s.trip := rfl
@[simp] theorem State.wr_tripSync (s : State) (a : Nat) (v : Int) : (s.wr a v).tripSync = s.tripSync := rfl
@[simp] theorem State.wr_haltC (s : State) (a : Nat) (v : Int) : (s.wr a v).haltC = s.haltC := rfl
@[simp] theorem State.wr_haltM (s : State) (a : Nat) (v : Int) : (s.wr a v).haltM = s.haltM := rfl
@[simp] theorem State.wr_conv (s : State) (a : Nat) (v : Int) : (s.wr a v).conv = s.conv := rfl
@[simp] theorem State.wr_acc (s : State) (a : Nat) (v : Int) : (s.wr a v).acc = s.acc := rfl
@[simp] theorem State.wr_accOld (s : State) (a : Nat) (v : Int) : (s.wr a v).accOld = s.accOld := rfl
@[simp] theorem State.wr_hand (s : State) (a : Nat) (v : Int) : (s.wr a v).hand = s.hand := rfl
@[simp] theorem State.wr_fb (s : State) (a : Nat) (v : Int) : (s.wr a v).fb = s.fb := rfl
@[simp] theorem State.wr_oven (s : State) (a : Nat) (v : Int) : (s.wr a v).oven = s.oven := rfl
@[simp] theorem State.wr_ovenArb (s : State) (a : Nat) (v : Int) : (s.wr a v).ovenArb = s.ovenArb := rfl
@[simp] theorem State.wr_grp (s : State) (a : Nat) (v : Int) : (s.wr a v).grp = s.grp := rfl
@[simp] theorem State.wr_cap (s : State) (a : Nat) (v : Int) : (s.wr a v).cap = s.cap := rfl
@[simp] theorem State.wr_safety (s : State) (a : Nat) (v : Int) : (s.wr a v).safety = s.safety := rfl
@[simp] theorem State.wr_net (s : State) (a : Nat) (v : Int) : (s.wr a v).net = s.net := rfl
@[simp] theorem State.wr_pp (s : State) (a : Nat) (v : Int) : (s.wr a v).pp = s.pp := rfl
@[simp] theorem State.wr_pair (s : State) (a : Nat) (v : Int) : (s.wr a v).pair = s.pair := rfl
@[simp] theorem State.wr_sec (s : State) (a : Nat) (v : Int) : (s.wr a v).sec = s.sec := rfl
@[simp] theorem State.wr_freeNo (s : State) (a : Nat) (v : Int) : (s.wr a v).freeNo = s.freeNo := rfl
@[simp] theorem State.wr_pending (s : State) (a : Nat) (v : Int) : (s.wr a v).pending = s.pending := rfl

/-! ### `setBlob` -/

@[simp] theorem State.setBlob_variant (s : State) (a : Nat) (b : List Byte) : (s.setBlob a b).variant = s.variant := rfl
@[simp] theorem State.setBlob_mode (s : State) (a : Nat) (b : List Byte) : (s.setBlob a b).mode = s.mode := rfl
@[simp] theorem State.setBlob_boot (s : State) (a : Nat) (b : List Byte) : (s.setBlob a b).boot = s.boot := rfl
@[simp] theorem State.setBlob_power (s : State) (a : Nat) (b : List Byte) : (s.setBlob a b).power = s.power := rfl
@[simp] theorem State.setBlob_tapM (s : State) (a : Nat) (b : List Byte) : (s.setBlob a b).tapM = s.tapM := rfl
@[simp] theorem State.setBlob_tapC (s : State) (a : Nat) (b : List Byte) : (s.setBlob a b).tapC = s.tapC := rfl
@[simp] theorem State.setBlob_time (s : State) (a : Nat) (b : List Byte) : (s.setBlob a b).time = s.time := rfl
@[simp] theorem State.setBlob_objs (s : State) (a : Nat) (b : List Byte) : (s.setBlob a b).objs = s.objs := rfl
@[simp] theorem State.setBlob_blobs (s : State) (a : Nat) (b : List Byte) : (s.setBlob a b).blobs = (a, b) :: s.blobs.filter (fun p => p.1 != a) := rfl
@[simp] theorem State.setBlob_host (s : State) (a : Nat) (b : List Byte) : (s.setBlob a b).host = s.host := rfl
@[simp] theorem State.setBlob_mb (s : State) (a : Nat) (b : List Byte) : (s.setBlob a b).mb = s.mb := rfl
@[simp] theorem State.setBlob_cmd (s : State) (a : Nat) (b : List Byte) : (s.setBlob a b).cmd = s.cmd := rfl
@[simp] theorem State.setBlob_peelC (s : State) (a : Nat) (b : List Byte) : (s.setBlob a b).peelC = s.peelC := rfl
@[simp] theorem State.setBlob_peelM (s : State) (a : Nat) (b : List Byte) : (s.setBlob a b).peelM = s.peelM := rfl
@[simp] theorem State.setBlob_flt (s : State) (a : Nat) (b : List Byte) : (s.setBlob a b).flt = s.flt := rfl
@[simp] theorem State.setBlob_loaf (s : State) (a : Nat) (b : List Byte) : (s.setBlob a b).loaf = s.loaf := rfl
@[simp] theorem State.setBlob_trip (s : State) (a : Nat) (b : List Byte) : (s.setBlob a b).trip = s.trip := rfl
@[simp] theorem State.setBlob_tripSync (s : State) (a : Nat) (b : List Byte) : (s.setBlob a b).tripSync = s.tripSync := rfl
@[simp] theorem State.setBlob_haltC (s : State) (a : Nat) (b : List Byte) : (s.setBlob a b).haltC = s.haltC := rfl
@[simp] theorem State.setBlob_haltM (s : State) (a : Nat) (b : List Byte) : (s.setBlob a b).haltM = s.haltM := rfl
@[simp] theorem State.setBlob_conv (s : State) (a : Nat) (b : List Byte) : (s.setBlob a b).conv = s.conv := rfl
@[simp] theorem State.setBlob_acc (s : State) (a : Nat) (b : List Byte) : (s.setBlob a b).acc = s.acc := rfl
@[simp] theorem State.setBlob_accOld (s : State) (a : Nat) (b : List Byte) : (s.setBlob a b).accOld = s.accOld := rfl
@[simp] theorem State.setBlob_hand (s : State) (a : Nat) (b : List Byte) : (s.setBlob a b).hand = s.hand := rfl
@[simp] theorem State.setBlob_fb (s : State) (a : Nat) (b : List Byte) : (s.setBlob a b).fb = s.fb := rfl
@[simp] theorem State.setBlob_oven (s : State) (a : Nat) (b : List Byte) : (s.setBlob a b).oven = s.oven := rfl
@[simp] theorem State.setBlob_ovenArb (s : State) (a : Nat) (b : List Byte) : (s.setBlob a b).ovenArb = s.ovenArb := rfl
@[simp] theorem State.setBlob_grp (s : State) (a : Nat) (b : List Byte) : (s.setBlob a b).grp = s.grp := rfl
@[simp] theorem State.setBlob_cap (s : State) (a : Nat) (b : List Byte) : (s.setBlob a b).cap = s.cap := rfl
@[simp] theorem State.setBlob_safety (s : State) (a : Nat) (b : List Byte) : (s.setBlob a b).safety = s.safety := rfl
@[simp] theorem State.setBlob_net (s : State) (a : Nat) (b : List Byte) : (s.setBlob a b).net = s.net := rfl
@[simp] theorem State.setBlob_pp (s : State) (a : Nat) (b : List Byte) : (s.setBlob a b).pp = s.pp := rfl
@[simp] theorem State.setBlob_pair (s : State) (a : Nat) (b : List Byte) : (s.setBlob a b).pair = s.pair := rfl
@[simp] theorem State.setBlob_sec (s : State) (a : Nat) (b : List Byte) : (s.setBlob a b).sec = s.sec := rfl
@[simp] theorem State.setBlob_freeNo (s : State) (a : Nat) (b : List Byte) : (s.setBlob a b).freeNo = s.freeNo := rfl
@[simp] theorem State.setBlob_pending (s : State) (a : Nat) (b : List Byte) : (s.setBlob a b).pending = s.pending := rfl

/-! ### `setAcc` -/

@[simp] theorem State.setAcc_variant (s : State) (l : List Acc) : (s.setAcc l).variant = s.variant := rfl
@[simp] theorem State.setAcc_mode (s : State) (l : List Acc) : (s.setAcc l).mode = s.mode := rfl
@[simp] theorem State.setAcc_boot (s : State) (l : List Acc) : (s.setAcc l).boot = s.boot := rfl
@[simp] theorem State.setAcc_power (s : State) (l : List Acc) : (s.setAcc l).power = s.power := rfl
@[simp] theorem State.setAcc_tapM (s : State) (l : List Acc) : (s.setAcc l).tapM = s.tapM := rfl
@[simp] theorem State.setAcc_tapC (s : State) (l : List Acc) : (s.setAcc l).tapC = s.tapC := rfl
@[simp] theorem State.setAcc_time (s : State) (l : List Acc) : (s.setAcc l).time = s.time := rfl
@[simp] theorem State.setAcc_objs (s : State) (l : List Acc) : (s.setAcc l).objs = s.objs := rfl
@[simp] theorem State.setAcc_blobs (s : State) (l : List Acc) : (s.setAcc l).blobs = s.blobs := rfl
@[simp] theorem State.setAcc_host (s : State) (l : List Acc) : (s.setAcc l).host = s.host := rfl
@[simp] theorem State.setAcc_mb (s : State) (l : List Acc) : (s.setAcc l).mb = s.mb := rfl
@[simp] theorem State.setAcc_cmd (s : State) (l : List Acc) : (s.setAcc l).cmd = s.cmd := rfl
@[simp] theorem State.setAcc_peelC (s : State) (l : List Acc) : (s.setAcc l).peelC = s.peelC := rfl
@[simp] theorem State.setAcc_peelM (s : State) (l : List Acc) : (s.setAcc l).peelM = s.peelM := rfl
@[simp] theorem State.setAcc_flt (s : State) (l : List Acc) : (s.setAcc l).flt = s.flt := rfl
@[simp] theorem State.setAcc_loaf (s : State) (l : List Acc) : (s.setAcc l).loaf = s.loaf := rfl
@[simp] theorem State.setAcc_trip (s : State) (l : List Acc) : (s.setAcc l).trip = s.trip := rfl
@[simp] theorem State.setAcc_tripSync (s : State) (l : List Acc) : (s.setAcc l).tripSync = s.tripSync := rfl
@[simp] theorem State.setAcc_haltC (s : State) (l : List Acc) : (s.setAcc l).haltC = s.haltC := rfl
@[simp] theorem State.setAcc_haltM (s : State) (l : List Acc) : (s.setAcc l).haltM = s.haltM := rfl
@[simp] theorem State.setAcc_conv (s : State) (l : List Acc) : (s.setAcc l).conv = s.conv := rfl
@[simp] theorem State.setAcc_acc (s : State) (l : List Acc) : (s.setAcc l).acc = l := rfl
@[simp] theorem State.setAcc_accOld (s : State) (l : List Acc) : (s.setAcc l).accOld = s.accOld := rfl
@[simp] theorem State.setAcc_hand (s : State) (l : List Acc) : (s.setAcc l).hand = s.hand := rfl
@[simp] theorem State.setAcc_fb (s : State) (l : List Acc) : (s.setAcc l).fb = s.fb := rfl
@[simp] theorem State.setAcc_oven (s : State) (l : List Acc) : (s.setAcc l).oven = s.oven := rfl
@[simp] theorem State.setAcc_ovenArb (s : State) (l : List Acc) : (s.setAcc l).ovenArb = s.ovenArb := rfl
@[simp] theorem State.setAcc_grp (s : State) (l : List Acc) : (s.setAcc l).grp = s.grp := rfl
@[simp] theorem State.setAcc_cap (s : State) (l : List Acc) : (s.setAcc l).cap = s.cap := rfl
@[simp] theorem State.setAcc_safety (s : State) (l : List Acc) : (s.setAcc l).safety = s.safety := rfl
@[simp] theorem State.setAcc_net (s : State) (l : List Acc) : (s.setAcc l).net = s.net := rfl
@[simp] theorem State.setAcc_pp (s : State) (l : List Acc) : (s.setAcc l).pp = s.pp := rfl
@[simp] theorem State.setAcc_pair (s : State) (l : List Acc) : (s.setAcc l).pair = s.pair := rfl
@[simp] theorem State.setAcc_sec (s : State) (l : List Acc) : (s.setAcc l).sec = s.sec := rfl
@[simp] theorem State.setAcc_freeNo (s : State) (l : List Acc) : (s.setAcc l).freeNo = s.freeNo := rfl
@[simp] theorem State.setAcc_pending (s : State) (l : List Acc) : (s.setAcc l).pending = s.pending := rfl

/-! ### `setAccOld` -/

@[simp] theorem State.setAccOld_variant (s : State) (l : List Acc) : (s.setAccOld l).variant = s.variant := rfl
@[simp] theorem State.setAccOld_mode (s : State) (l : List Acc) : (s.setAccOld l).mode = s.mode := rfl
@[simp] theorem State.setAccOld_boot (s : State) (l : List Acc) : (s.setAccOld l).boot = s.boot := rfl
@[simp] theorem State.setAccOld_power (s : State) (l : List Acc) : (s.setAccOld l).power = s.power := rfl
@[simp] theorem State.setAccOld_tapM (s : State) (l : List Acc) : (s.setAccOld l).tapM = s.tapM := rfl
@[simp] theorem State.setAccOld_tapC (s : State) (l : List Acc) : (s.setAccOld l).tapC = s.tapC := rfl
@[simp] theorem State.setAccOld_time (s : State) (l : List Acc) : (s.setAccOld l).time = s.time := rfl
@[simp] theorem State.setAccOld_objs (s : State) (l : List Acc) : (s.setAccOld l).objs = s.objs := rfl
@[simp] theorem State.setAccOld_blobs (s : State) (l : List Acc) : (s.setAccOld l).blobs = s.blobs := rfl
@[simp] theorem State.setAccOld_host (s : State) (l : List Acc) : (s.setAccOld l).host = s.host := rfl
@[simp] theorem State.setAccOld_mb (s : State) (l : List Acc) : (s.setAccOld l).mb = s.mb := rfl
@[simp] theorem State.setAccOld_cmd (s : State) (l : List Acc) : (s.setAccOld l).cmd = s.cmd := rfl
@[simp] theorem State.setAccOld_peelC (s : State) (l : List Acc) : (s.setAccOld l).peelC = s.peelC := rfl
@[simp] theorem State.setAccOld_peelM (s : State) (l : List Acc) : (s.setAccOld l).peelM = s.peelM := rfl
@[simp] theorem State.setAccOld_flt (s : State) (l : List Acc) : (s.setAccOld l).flt = s.flt := rfl
@[simp] theorem State.setAccOld_loaf (s : State) (l : List Acc) : (s.setAccOld l).loaf = s.loaf := rfl
@[simp] theorem State.setAccOld_trip (s : State) (l : List Acc) : (s.setAccOld l).trip = s.trip := rfl
@[simp] theorem State.setAccOld_tripSync (s : State) (l : List Acc) : (s.setAccOld l).tripSync = s.tripSync := rfl
@[simp] theorem State.setAccOld_haltC (s : State) (l : List Acc) : (s.setAccOld l).haltC = s.haltC := rfl
@[simp] theorem State.setAccOld_haltM (s : State) (l : List Acc) : (s.setAccOld l).haltM = s.haltM := rfl
@[simp] theorem State.setAccOld_conv (s : State) (l : List Acc) : (s.setAccOld l).conv = s.conv := rfl
@[simp] theorem State.setAccOld_acc (s : State) (l : List Acc) : (s.setAccOld l).acc = s.acc := rfl
@[simp] theorem State.setAccOld_accOld (s : State) (l : List Acc) : (s.setAccOld l).accOld = l := rfl
@[simp] theorem State.setAccOld_hand (s : State) (l : List Acc) : (s.setAccOld l).hand = s.hand := rfl
@[simp] theorem State.setAccOld_fb (s : State) (l : List Acc) : (s.setAccOld l).fb = s.fb := rfl
@[simp] theorem State.setAccOld_oven (s : State) (l : List Acc) : (s.setAccOld l).oven = s.oven := rfl
@[simp] theorem State.setAccOld_ovenArb (s : State) (l : List Acc) : (s.setAccOld l).ovenArb = s.ovenArb := rfl
@[simp] theorem State.setAccOld_grp (s : State) (l : List Acc) : (s.setAccOld l).grp = s.grp := rfl
@[simp] theorem State.setAccOld_cap (s : State) (l : List Acc) : (s.setAccOld l).cap = s.cap := rfl
@[simp] theorem State.setAccOld_safety (s : State) (l : List Acc) : (s.setAccOld l).safety = s.safety := rfl
@[simp] theorem State.setAccOld_net (s : State) (l : List Acc) : (s.setAccOld l).net = s.net := rfl
@[simp] theorem State.setAccOld_pp (s : State) (l : List Acc) : (s.setAccOld l).pp = s.pp := rfl
@[simp] theorem State.setAccOld_pair (s : State) (l : List Acc) : (s.setAccOld l).pair = s.pair := rfl
@[simp] theorem State.setAccOld_sec (s : State) (l : List Acc) : (s.setAccOld l).sec = s.sec := rfl
@[simp] theorem State.setAccOld_freeNo (s : State) (l : List Acc) : (s.setAccOld l).freeNo = s.freeNo := rfl
@[simp] theorem State.setAccOld_pending (s : State) (l : List Acc) : (s.setAccOld l).pending = s.pending := rfl

/-! ### `setHand` -/

@[simp] theorem State.setHand_variant (s : State) (n : Fin 4) (h : Handoff) : (s.setHand n h).variant = s.variant := rfl
@[simp] theorem State.setHand_mode (s : State) (n : Fin 4) (h : Handoff) : (s.setHand n h).mode = s.mode := rfl
@[simp] theorem State.setHand_boot (s : State) (n : Fin 4) (h : Handoff) : (s.setHand n h).boot = s.boot := rfl
@[simp] theorem State.setHand_power (s : State) (n : Fin 4) (h : Handoff) : (s.setHand n h).power = s.power := rfl
@[simp] theorem State.setHand_tapM (s : State) (n : Fin 4) (h : Handoff) : (s.setHand n h).tapM = s.tapM := rfl
@[simp] theorem State.setHand_tapC (s : State) (n : Fin 4) (h : Handoff) : (s.setHand n h).tapC = s.tapC := rfl
@[simp] theorem State.setHand_time (s : State) (n : Fin 4) (h : Handoff) : (s.setHand n h).time = s.time := rfl
@[simp] theorem State.setHand_objs (s : State) (n : Fin 4) (h : Handoff) : (s.setHand n h).objs = s.objs := rfl
@[simp] theorem State.setHand_blobs (s : State) (n : Fin 4) (h : Handoff) : (s.setHand n h).blobs = s.blobs := rfl
@[simp] theorem State.setHand_host (s : State) (n : Fin 4) (h : Handoff) : (s.setHand n h).host = s.host := rfl
@[simp] theorem State.setHand_mb (s : State) (n : Fin 4) (h : Handoff) : (s.setHand n h).mb = s.mb := rfl
@[simp] theorem State.setHand_cmd (s : State) (n : Fin 4) (h : Handoff) : (s.setHand n h).cmd = s.cmd := rfl
@[simp] theorem State.setHand_peelC (s : State) (n : Fin 4) (h : Handoff) : (s.setHand n h).peelC = s.peelC := rfl
@[simp] theorem State.setHand_peelM (s : State) (n : Fin 4) (h : Handoff) : (s.setHand n h).peelM = s.peelM := rfl
@[simp] theorem State.setHand_flt (s : State) (n : Fin 4) (h : Handoff) : (s.setHand n h).flt = s.flt := rfl
@[simp] theorem State.setHand_loaf (s : State) (n : Fin 4) (h : Handoff) : (s.setHand n h).loaf = s.loaf := rfl
@[simp] theorem State.setHand_trip (s : State) (n : Fin 4) (h : Handoff) : (s.setHand n h).trip = s.trip := rfl
@[simp] theorem State.setHand_tripSync (s : State) (n : Fin 4) (h : Handoff) : (s.setHand n h).tripSync = s.tripSync := rfl
@[simp] theorem State.setHand_haltC (s : State) (n : Fin 4) (h : Handoff) : (s.setHand n h).haltC = s.haltC := rfl
@[simp] theorem State.setHand_haltM (s : State) (n : Fin 4) (h : Handoff) : (s.setHand n h).haltM = s.haltM := rfl
@[simp] theorem State.setHand_conv (s : State) (n : Fin 4) (h : Handoff) : (s.setHand n h).conv = s.conv := rfl
@[simp] theorem State.setHand_acc (s : State) (n : Fin 4) (h : Handoff) : (s.setHand n h).acc = s.acc := rfl
@[simp] theorem State.setHand_accOld (s : State) (n : Fin 4) (h : Handoff) : (s.setHand n h).accOld = s.accOld := rfl
@[simp] theorem State.setHand_hand (s : State) (n : Fin 4) (h : Handoff) : (s.setHand n h).hand = s.hand.set n h := rfl
@[simp] theorem State.setHand_fb (s : State) (n : Fin 4) (h : Handoff) : (s.setHand n h).fb = s.fb := rfl
@[simp] theorem State.setHand_oven (s : State) (n : Fin 4) (h : Handoff) : (s.setHand n h).oven = s.oven := rfl
@[simp] theorem State.setHand_ovenArb (s : State) (n : Fin 4) (h : Handoff) : (s.setHand n h).ovenArb = s.ovenArb := rfl
@[simp] theorem State.setHand_grp (s : State) (n : Fin 4) (h : Handoff) : (s.setHand n h).grp = s.grp := rfl
@[simp] theorem State.setHand_cap (s : State) (n : Fin 4) (h : Handoff) : (s.setHand n h).cap = s.cap := rfl
@[simp] theorem State.setHand_safety (s : State) (n : Fin 4) (h : Handoff) : (s.setHand n h).safety = s.safety := rfl
@[simp] theorem State.setHand_net (s : State) (n : Fin 4) (h : Handoff) : (s.setHand n h).net = s.net := rfl
@[simp] theorem State.setHand_pp (s : State) (n : Fin 4) (h : Handoff) : (s.setHand n h).pp = s.pp := rfl
@[simp] theorem State.setHand_pair (s : State) (n : Fin 4) (h : Handoff) : (s.setHand n h).pair = s.pair := rfl
@[simp] theorem State.setHand_sec (s : State) (n : Fin 4) (h : Handoff) : (s.setHand n h).sec = s.sec := rfl
@[simp] theorem State.setHand_freeNo (s : State) (n : Fin 4) (h : Handoff) : (s.setHand n h).freeNo = s.freeNo := rfl
@[simp] theorem State.setHand_pending (s : State) (n : Fin 4) (h : Handoff) : (s.setHand n h).pending = s.pending := rfl

/-! ### `drew` -/

@[simp] theorem State.drew_variant (s : State) : (s.drew).variant = s.variant := rfl
@[simp] theorem State.drew_mode (s : State) : (s.drew).mode = s.mode := rfl
@[simp] theorem State.drew_boot (s : State) : (s.drew).boot = s.boot := rfl
@[simp] theorem State.drew_power (s : State) : (s.drew).power = s.power := rfl
@[simp] theorem State.drew_tapM (s : State) : (s.drew).tapM = s.tapM := rfl
@[simp] theorem State.drew_tapC (s : State) : (s.drew).tapC = s.tapC := rfl
@[simp] theorem State.drew_time (s : State) : (s.drew).time = s.time := rfl
@[simp] theorem State.drew_objs (s : State) : (s.drew).objs = s.objs := rfl
@[simp] theorem State.drew_blobs (s : State) : (s.drew).blobs = s.blobs := rfl
@[simp] theorem State.drew_host (s : State) : (s.drew).host = s.host := rfl
@[simp] theorem State.drew_mb (s : State) : (s.drew).mb = s.mb := rfl
@[simp] theorem State.drew_cmd (s : State) : (s.drew).cmd = s.cmd := rfl
@[simp] theorem State.drew_peelC (s : State) : (s.drew).peelC = s.peelC := rfl
@[simp] theorem State.drew_peelM (s : State) : (s.drew).peelM = s.peelM := rfl
@[simp] theorem State.drew_flt (s : State) : (s.drew).flt = s.flt := rfl
@[simp] theorem State.drew_loaf (s : State) : (s.drew).loaf = s.loaf := rfl
@[simp] theorem State.drew_trip (s : State) : (s.drew).trip = s.trip := rfl
@[simp] theorem State.drew_tripSync (s : State) : (s.drew).tripSync = s.tripSync := rfl
@[simp] theorem State.drew_haltC (s : State) : (s.drew).haltC = s.haltC := rfl
@[simp] theorem State.drew_haltM (s : State) : (s.drew).haltM = s.haltM := rfl
@[simp] theorem State.drew_conv (s : State) : (s.drew).conv = s.conv := rfl
@[simp] theorem State.drew_acc (s : State) : (s.drew).acc = s.acc := rfl
@[simp] theorem State.drew_accOld (s : State) : (s.drew).accOld = s.accOld := rfl
@[simp] theorem State.drew_hand (s : State) : (s.drew).hand = s.hand := rfl
@[simp] theorem State.drew_fb (s : State) : (s.drew).fb = s.fb := rfl
@[simp] theorem State.drew_oven (s : State) : (s.drew).oven = s.oven := rfl
@[simp] theorem State.drew_ovenArb (s : State) : (s.drew).ovenArb = s.ovenArb := rfl
@[simp] theorem State.drew_grp (s : State) : (s.drew).grp = s.grp := rfl
@[simp] theorem State.drew_cap (s : State) : (s.drew).cap = s.cap := rfl
@[simp] theorem State.drew_safety (s : State) : (s.drew).safety = s.safety := rfl
@[simp] theorem State.drew_net (s : State) : (s.drew).net = s.net := rfl
@[simp] theorem State.drew_pp (s : State) : (s.drew).pp = s.pp := rfl
@[simp] theorem State.drew_pair (s : State) : (s.drew).pair = s.pair := rfl
@[simp] theorem State.drew_sec (s : State) : (s.drew).sec = s.sec := rfl
@[simp] theorem State.drew_freeNo (s : State) : (s.drew).freeNo = s.freeNo + 1 := rfl
@[simp] theorem State.drew_pending (s : State) : (s.drew).pending = s.pending := rfl

/-! ### `setIrq` -/

@[simp] theorem State.setIrq_variant (s : State) (i : Nat) : (s.setIrq i).variant = s.variant := rfl
@[simp] theorem State.setIrq_mode (s : State) (i : Nat) : (s.setIrq i).mode = s.mode := rfl
@[simp] theorem State.setIrq_boot (s : State) (i : Nat) : (s.setIrq i).boot = s.boot := rfl
@[simp] theorem State.setIrq_power (s : State) (i : Nat) : (s.setIrq i).power = s.power := rfl
@[simp] theorem State.setIrq_tapM (s : State) (i : Nat) : (s.setIrq i).tapM = s.tapM := rfl
@[simp] theorem State.setIrq_tapC (s : State) (i : Nat) : (s.setIrq i).tapC = s.tapC := rfl
@[simp] theorem State.setIrq_time (s : State) (i : Nat) : (s.setIrq i).time = s.time := rfl
@[simp] theorem State.setIrq_objs (s : State) (i : Nat) : (s.setIrq i).objs = s.objs := rfl
@[simp] theorem State.setIrq_blobs (s : State) (i : Nat) : (s.setIrq i).blobs = s.blobs := rfl
@[simp] theorem State.setIrq_mb (s : State) (i : Nat) : (s.setIrq i).mb = s.mb := rfl
@[simp] theorem State.setIrq_cmd (s : State) (i : Nat) : (s.setIrq i).cmd = s.cmd := rfl
@[simp] theorem State.setIrq_peelC (s : State) (i : Nat) : (s.setIrq i).peelC = s.peelC := rfl
@[simp] theorem State.setIrq_peelM (s : State) (i : Nat) : (s.setIrq i).peelM = s.peelM := rfl
@[simp] theorem State.setIrq_flt (s : State) (i : Nat) : (s.setIrq i).flt = s.flt := rfl
@[simp] theorem State.setIrq_loaf (s : State) (i : Nat) : (s.setIrq i).loaf = s.loaf := rfl
@[simp] theorem State.setIrq_trip (s : State) (i : Nat) : (s.setIrq i).trip = s.trip := rfl
@[simp] theorem State.setIrq_tripSync (s : State) (i : Nat) : (s.setIrq i).tripSync = s.tripSync := rfl
@[simp] theorem State.setIrq_haltC (s : State) (i : Nat) : (s.setIrq i).haltC = s.haltC := rfl
@[simp] theorem State.setIrq_haltM (s : State) (i : Nat) : (s.setIrq i).haltM = s.haltM := rfl
@[simp] theorem State.setIrq_conv (s : State) (i : Nat) : (s.setIrq i).conv = s.conv := rfl
@[simp] theorem State.setIrq_acc (s : State) (i : Nat) : (s.setIrq i).acc = s.acc := rfl
@[simp] theorem State.setIrq_accOld (s : State) (i : Nat) : (s.setIrq i).accOld = s.accOld := rfl
@[simp] theorem State.setIrq_hand (s : State) (i : Nat) : (s.setIrq i).hand = s.hand := rfl
@[simp] theorem State.setIrq_fb (s : State) (i : Nat) : (s.setIrq i).fb = s.fb := rfl
@[simp] theorem State.setIrq_oven (s : State) (i : Nat) : (s.setIrq i).oven = s.oven := rfl
@[simp] theorem State.setIrq_ovenArb (s : State) (i : Nat) : (s.setIrq i).ovenArb = s.ovenArb := rfl
@[simp] theorem State.setIrq_grp (s : State) (i : Nat) : (s.setIrq i).grp = s.grp := rfl
@[simp] theorem State.setIrq_cap (s : State) (i : Nat) : (s.setIrq i).cap = s.cap := rfl
@[simp] theorem State.setIrq_safety (s : State) (i : Nat) : (s.setIrq i).safety = s.safety := rfl
@[simp] theorem State.setIrq_net (s : State) (i : Nat) : (s.setIrq i).net = s.net := rfl
@[simp] theorem State.setIrq_pp (s : State) (i : Nat) : (s.setIrq i).pp = s.pp := rfl
@[simp] theorem State.setIrq_pair (s : State) (i : Nat) : (s.setIrq i).pair = s.pair := rfl
@[simp] theorem State.setIrq_sec (s : State) (i : Nat) : (s.setIrq i).sec = s.sec := rfl
@[simp] theorem State.setIrq_freeNo (s : State) (i : Nat) : (s.setIrq i).freeNo = s.freeNo := rfl
@[simp] theorem State.setIrq_pending (s : State) (i : Nat) : (s.setIrq i).pending = s.pending := rfl

/-! ### `clrIrq` -/

@[simp] theorem State.clrIrq_variant (s : State) (i : Nat) : (s.clrIrq i).variant = s.variant := rfl
@[simp] theorem State.clrIrq_mode (s : State) (i : Nat) : (s.clrIrq i).mode = s.mode := rfl
@[simp] theorem State.clrIrq_boot (s : State) (i : Nat) : (s.clrIrq i).boot = s.boot := rfl
@[simp] theorem State.clrIrq_power (s : State) (i : Nat) : (s.clrIrq i).power = s.power := rfl
@[simp] theorem State.clrIrq_tapM (s : State) (i : Nat) : (s.clrIrq i).tapM = s.tapM := rfl
@[simp] theorem State.clrIrq_tapC (s : State) (i : Nat) : (s.clrIrq i).tapC = s.tapC := rfl
@[simp] theorem State.clrIrq_time (s : State) (i : Nat) : (s.clrIrq i).time = s.time := rfl
@[simp] theorem State.clrIrq_objs (s : State) (i : Nat) : (s.clrIrq i).objs = s.objs := rfl
@[simp] theorem State.clrIrq_blobs (s : State) (i : Nat) : (s.clrIrq i).blobs = s.blobs := rfl
@[simp] theorem State.clrIrq_mb (s : State) (i : Nat) : (s.clrIrq i).mb = s.mb := rfl
@[simp] theorem State.clrIrq_cmd (s : State) (i : Nat) : (s.clrIrq i).cmd = s.cmd := rfl
@[simp] theorem State.clrIrq_peelC (s : State) (i : Nat) : (s.clrIrq i).peelC = s.peelC := rfl
@[simp] theorem State.clrIrq_peelM (s : State) (i : Nat) : (s.clrIrq i).peelM = s.peelM := rfl
@[simp] theorem State.clrIrq_flt (s : State) (i : Nat) : (s.clrIrq i).flt = s.flt := rfl
@[simp] theorem State.clrIrq_loaf (s : State) (i : Nat) : (s.clrIrq i).loaf = s.loaf := rfl
@[simp] theorem State.clrIrq_trip (s : State) (i : Nat) : (s.clrIrq i).trip = s.trip := rfl
@[simp] theorem State.clrIrq_tripSync (s : State) (i : Nat) : (s.clrIrq i).tripSync = s.tripSync := rfl
@[simp] theorem State.clrIrq_haltC (s : State) (i : Nat) : (s.clrIrq i).haltC = s.haltC := rfl
@[simp] theorem State.clrIrq_haltM (s : State) (i : Nat) : (s.clrIrq i).haltM = s.haltM := rfl
@[simp] theorem State.clrIrq_conv (s : State) (i : Nat) : (s.clrIrq i).conv = s.conv := rfl
@[simp] theorem State.clrIrq_acc (s : State) (i : Nat) : (s.clrIrq i).acc = s.acc := rfl
@[simp] theorem State.clrIrq_accOld (s : State) (i : Nat) : (s.clrIrq i).accOld = s.accOld := rfl
@[simp] theorem State.clrIrq_hand (s : State) (i : Nat) : (s.clrIrq i).hand = s.hand := rfl
@[simp] theorem State.clrIrq_fb (s : State) (i : Nat) : (s.clrIrq i).fb = s.fb := rfl
@[simp] theorem State.clrIrq_oven (s : State) (i : Nat) : (s.clrIrq i).oven = s.oven := rfl
@[simp] theorem State.clrIrq_ovenArb (s : State) (i : Nat) : (s.clrIrq i).ovenArb = s.ovenArb := rfl
@[simp] theorem State.clrIrq_grp (s : State) (i : Nat) : (s.clrIrq i).grp = s.grp := rfl
@[simp] theorem State.clrIrq_cap (s : State) (i : Nat) : (s.clrIrq i).cap = s.cap := rfl
@[simp] theorem State.clrIrq_safety (s : State) (i : Nat) : (s.clrIrq i).safety = s.safety := rfl
@[simp] theorem State.clrIrq_net (s : State) (i : Nat) : (s.clrIrq i).net = s.net := rfl
@[simp] theorem State.clrIrq_pp (s : State) (i : Nat) : (s.clrIrq i).pp = s.pp := rfl
@[simp] theorem State.clrIrq_pair (s : State) (i : Nat) : (s.clrIrq i).pair = s.pair := rfl
@[simp] theorem State.clrIrq_sec (s : State) (i : Nat) : (s.clrIrq i).sec = s.sec := rfl
@[simp] theorem State.clrIrq_freeNo (s : State) (i : Nat) : (s.clrIrq i).freeNo = s.freeNo := rfl
@[simp] theorem State.clrIrq_pending (s : State) (i : Nat) : (s.clrIrq i).pending = s.pending := rfl

/-! ### `atT` -/

@[simp] theorem State.atT_variant (s : State) (t : Nat) : (s.atT t).variant = s.variant := by unfold State.atT; split <;> rfl
@[simp] theorem State.atT_mode (s : State) (t : Nat) : (s.atT t).mode = s.mode := by unfold State.atT; split <;> rfl
@[simp] theorem State.atT_boot (s : State) (t : Nat) : (s.atT t).boot = s.boot := by unfold State.atT; split <;> rfl
@[simp] theorem State.atT_power (s : State) (t : Nat) : (s.atT t).power = s.power := by unfold State.atT; split <;> rfl
@[simp] theorem State.atT_tapM (s : State) (t : Nat) : (s.atT t).tapM = s.tapM := by unfold State.atT; split <;> rfl
@[simp] theorem State.atT_tapC (s : State) (t : Nat) : (s.atT t).tapC = s.tapC := by unfold State.atT; split <;> rfl
@[simp] theorem State.atT_objs (s : State) (t : Nat) : (s.atT t).objs = s.objs := by unfold State.atT; split <;> rfl
@[simp] theorem State.atT_blobs (s : State) (t : Nat) : (s.atT t).blobs = s.blobs := by unfold State.atT; split <;> rfl
@[simp] theorem State.atT_host (s : State) (t : Nat) : (s.atT t).host = s.host := by unfold State.atT; split <;> rfl
@[simp] theorem State.atT_mb (s : State) (t : Nat) : (s.atT t).mb = s.mb := by unfold State.atT; split <;> rfl
@[simp] theorem State.atT_cmd (s : State) (t : Nat) : (s.atT t).cmd = s.cmd := by unfold State.atT; split <;> rfl
@[simp] theorem State.atT_peelC (s : State) (t : Nat) : (s.atT t).peelC = s.peelC := by unfold State.atT; split <;> rfl
@[simp] theorem State.atT_peelM (s : State) (t : Nat) : (s.atT t).peelM = s.peelM := by unfold State.atT; split <;> rfl
@[simp] theorem State.atT_flt (s : State) (t : Nat) : (s.atT t).flt = s.flt := by unfold State.atT; split <;> rfl
@[simp] theorem State.atT_loaf (s : State) (t : Nat) : (s.atT t).loaf = s.loaf := by unfold State.atT; split <;> rfl
@[simp] theorem State.atT_trip (s : State) (t : Nat) : (s.atT t).trip = s.trip := by unfold State.atT; split <;> rfl
@[simp] theorem State.atT_haltC (s : State) (t : Nat) : (s.atT t).haltC = s.haltC := by unfold State.atT; split <;> rfl
@[simp] theorem State.atT_haltM (s : State) (t : Nat) : (s.atT t).haltM = s.haltM := by unfold State.atT; split <;> rfl
@[simp] theorem State.atT_conv (s : State) (t : Nat) : (s.atT t).conv = s.conv := by unfold State.atT; split <;> rfl
@[simp] theorem State.atT_acc (s : State) (t : Nat) : (s.atT t).acc = s.acc := by unfold State.atT; split <;> rfl
@[simp] theorem State.atT_accOld (s : State) (t : Nat) : (s.atT t).accOld = s.accOld := by unfold State.atT; split <;> rfl
@[simp] theorem State.atT_hand (s : State) (t : Nat) : (s.atT t).hand = s.hand := by unfold State.atT; split <;> rfl
@[simp] theorem State.atT_fb (s : State) (t : Nat) : (s.atT t).fb = s.fb := by unfold State.atT; split <;> rfl
@[simp] theorem State.atT_oven (s : State) (t : Nat) : (s.atT t).oven = s.oven := by unfold State.atT; split <;> rfl
@[simp] theorem State.atT_grp (s : State) (t : Nat) : (s.atT t).grp = s.grp := by unfold State.atT; split <;> rfl
@[simp] theorem State.atT_cap (s : State) (t : Nat) : (s.atT t).cap = s.cap := by unfold State.atT; split <;> rfl
@[simp] theorem State.atT_safety (s : State) (t : Nat) : (s.atT t).safety = s.safety := by unfold State.atT; split <;> rfl
@[simp] theorem State.atT_net (s : State) (t : Nat) : (s.atT t).net = s.net := by unfold State.atT; split <;> rfl
@[simp] theorem State.atT_pp (s : State) (t : Nat) : (s.atT t).pp = s.pp := by unfold State.atT; split <;> rfl
@[simp] theorem State.atT_pair (s : State) (t : Nat) : (s.atT t).pair = s.pair := by unfold State.atT; split <;> rfl
@[simp] theorem State.atT_sec (s : State) (t : Nat) : (s.atT t).sec = s.sec := by unfold State.atT; split <;> rfl
@[simp] theorem State.atT_freeNo (s : State) (t : Nat) : (s.atT t).freeNo = s.freeNo := by unfold State.atT; split <;> rfl
@[simp] theorem State.atT_pending (s : State) (t : Nat) : (s.atT t).pending = s.pending := by unfold State.atT; split <;> rfl
@[simp] theorem State.atT_now (s : State) (t : Nat) : (s.atT t).time.now = max s.time.now t := by
  unfold State.atT
  split
  · omega
  · simp only; omega

/-! ### Reads of objects -/

@[simp] theorem State.rd_wr_same (s : State) (a : Nat) (v : Int) : (s.wr a v).rd a = v := Store.get_set_same s.objs a v
theorem State.rd_wr_ne (s : State) {a b : Nat} (v : Int) (h : b ≠ a) : (s.wr a v).rd b = s.rd b := Store.get_set_ne s.objs v h
theorem State.rd_wr (s : State) (a b : Nat) (v : Int) : (s.wr a v).rd b = if b = a then v else s.rd b := by
  split
  · subst b; exact s.rd_wr_same a v
  · exact s.rd_wr_ne v ‹_›
/-- A read depends on the objects only. -/
theorem State.rd_congr {s t : State} (h : t.objs = s.objs) (a : Nat) : t.rd a = s.rd a := by unfold State.rd; rw [h]

@[simp] theorem State.modLoaf_rd (s : State) (n : Fin 4) (f : LoafSt → LoafSt) (a : Nat) : (s.modLoaf n f).rd a = s.rd a := rfl
@[simp] theorem State.modGrp_rd (s : State) (g : Fin 4) (f : GroupSt → GroupSt) (a : Nat) : (s.modGrp g f).rd a = s.rd a := rfl
@[simp] theorem State.modFb_rd (s : State) (n : Fin 4) (f : FbSt → FbSt) (a : Nat) : (s.modFb n f).rd a = s.rd a := rfl
@[simp] theorem State.modOven_rd (s : State) (n : Fin 4) (f : OvenSt → OvenSt) (a : Nat) : (s.modOven n f).rd a = s.rd a := rfl
@[simp] theorem State.modConv_rd (s : State) (k : Fin 6) (f : ConvSt → ConvSt) (a : Nat) : (s.modConv k f).rd a = s.rd a := rfl
@[simp] theorem State.modMb_rd (s : State) (n : Fin 4) (f : Mailbox → Mailbox) (a : Nat) : (s.modMb n f).rd a = s.rd a := rfl
@[simp] theorem State.modFlt_rd (s : State) (f : FaultSt → FaultSt) (a : Nat) : (s.modFlt f).rd a = s.rd a := rfl
@[simp] theorem State.modSafety_rd (s : State) (f : SafetySt → SafetySt) (a : Nat) : (s.modSafety f).rd a = s.rd a := rfl
@[simp] theorem State.modPower_rd (s : State) (f : PowerSt → PowerSt) (a : Nat) : (s.modPower f).rd a = s.rd a := rfl
@[simp] theorem State.modBoot_rd (s : State) (f : BootSt → BootSt) (a : Nat) : (s.modBoot f).rd a = s.rd a := rfl
@[simp] theorem State.modTime_rd (s : State) (f : TimeSt → TimeSt) (a : Nat) : (s.modTime f).rd a = s.rd a := rfl
@[simp] theorem State.modHost_rd (s : State) (f : HostSt → HostSt) (a : Nat) : (s.modHost f).rd a = s.rd a := rfl
@[simp] theorem State.modCmd_rd (s : State) (f : CmdSt → CmdSt) (a : Nat) : (s.modCmd f).rd a = s.rd a := rfl
@[simp] theorem State.modNet_rd (s : State) (f : NetSt → NetSt) (a : Nat) : (s.modNet f).rd a = s.rd a := rfl
@[simp] theorem State.modPp_rd (s : State) (f : PpSt → PpSt) (a : Nat) : (s.modPp f).rd a = s.rd a := rfl
@[simp] theorem State.modPair_rd (s : State) (f : PairSt → PairSt) (a : Nat) : (s.modPair f).rd a = s.rd a := rfl
@[simp] theorem State.modSec_rd (s : State) (f : SecSt → SecSt) (a : Nat) : (s.modSec f).rd a = s.rd a := rfl
@[simp] theorem State.modCap_rd (s : State) (f : CapSt → CapSt) (a : Nat) : (s.modCap f).rd a = s.rd a := rfl
@[simp] theorem State.setBlob_rd (s : State) (x : Nat) (b : List Byte) (a : Nat) : (s.setBlob x b).rd a = s.rd a := rfl
@[simp] theorem State.setAcc_rd (s : State) (l : List Acc) (a : Nat) : (s.setAcc l).rd a = s.rd a := rfl
@[simp] theorem State.setAccOld_rd (s : State) (l : List Acc) (a : Nat) : (s.setAccOld l).rd a = s.rd a := rfl
@[simp] theorem State.setHand_rd (s : State) (n : Fin 4) (h : Handoff) (a : Nat) : (s.setHand n h).rd a = s.rd a := rfl
@[simp] theorem State.drew_rd (s : State) (a : Nat) : (s.drew).rd a = s.rd a := rfl
@[simp] theorem State.setIrq_rd (s : State) (i a : Nat) : (s.setIrq i).rd a = s.rd a := rfl
@[simp] theorem State.atT_rd (s : State) (t a : Nat) : (s.atT t).rd a = s.rd a := State.rd_congr (s.atT_objs t) a

end Sys2Proof.Machine
end

