-- ==== Sys2Proof/Laws/Bits.lean ====
section
/-! SUPPORT. One bit written: it reads as written, every other bit as before. -/

namespace Sys2Proof

theorem testBit_putBit (v i j : Nat) (b : Bool) : (putBit v i b).testBit j = if j = i then b else v.testBit j := by
  have hv : v = 2 ^ i * (2 * (v / 2 ^ i / 2) + v / 2 ^ i % 2) + v % 2 ^ i := by
    have h1 := Nat.div_add_mod v (2 ^ i)
    have h2 := Nat.div_add_mod (v / 2 ^ i) 2
    rw [h2]; exact h1.symm
  have hlt : v % 2 ^ i < 2 ^ i := Nat.mod_lt _ (Nat.two_pow_pos i)
  generalize hq : v / 2 ^ i / 2 = q at hv
  generalize hr : v % 2 ^ i = r at hv hlt
  have key : ∀ c : Nat, c < 2 → (2 ^ i * (2 * q + c) + r).testBit j = if j < i then r.testBit j else if j = i then decide (c = 1) else q.testBit (j - i - 1) := by
    intro c hc
    rw [Nat.testBit_two_pow_mul_add _ hlt]
    split
    · rfl
    · rename_i hji
      by_cases e : j = i
      · rw [if_pos e, e, Nat.sub_self, Nat.testBit_zero]
        congr 1
        rw [show (2 * q + c) % 2 = c by omega]
      · rw [if_neg e]
        obtain ⟨k, hk⟩ : ∃ k, j - i = k + 1 := ⟨j - i - 1, by omega⟩
        rw [hk, Nat.testBit_succ, Nat.add_sub_cancel]
        congr 1
        omega
  have hbit : v.testBit i = decide (v / 2 ^ i % 2 = 1) := by rw [Nat.testBit_eq_decide_div_mod_eq]
  have hc : v / 2 ^ i % 2 = 0 ∨ v / 2 ^ i % 2 = 1 := by omega
  have e0 : v.testBit i = false → v = 2 ^ i * (2 * q + 0) + r ∧ v + 2 ^ i = 2 ^ i * (2 * q + 1) + r := by
    intro h
    rw [hbit] at h
    have : v / 2 ^ i % 2 = 0 := by simpa using h
    rw [this] at hv
    refine ⟨hv, ?_⟩
    have : 2 ^ i * (2 * q + 1) = 2 ^ i * (2 * q + 0) + 2 ^ i := by ring
    omega
  have e1 : v.testBit i = true → v = 2 ^ i * (2 * q + 1) + r ∧ v - 2 ^ i = 2 ^ i * (2 * q + 0) + r := by
    intro h
    rw [hbit] at h
    have : v / 2 ^ i % 2 = 1 := by simpa using h
    rw [this] at hv
    refine ⟨hv, ?_⟩
    have : 2 ^ i * (2 * q + 1) = 2 ^ i * (2 * q + 0) + 2 ^ i := by ring
    omega
  unfold putBit
  cases hb : v.testBit i
  · obtain ⟨h1, h2⟩ := e0 hb
    cases b
    · by_cases e : j = i
      · subst e; simp [hb]
      · simp [e]
    · simp only [if_true, Bool.false_eq_true, if_false]
      rw [h2, key 1 (by omega), h1, key 0 (by omega)]
      by_cases e : j = i
      · subst e; simp
      · simp only [if_neg e]
  · obtain ⟨h1, h2⟩ := e1 hb
    cases b
    · simp only [if_true, Bool.false_eq_true, if_false]
      rw [h2, key 0 (by omega), h1, key 1 (by omega)]
      by_cases e : j = i
      · subst e; simp
      · simp only [if_neg e]
    · by_cases e : j = i
      · subst e; simp [hb]
      · simp [e]

namespace Machine

theorem State.rdBit_wrBit (s : State) (a b i j : Nat) (v : Bool) :
    (s.wrBit a i v).rdBit b j = if b = a then (if j = i then v else s.rdBit a j) else s.rdBit b j := by
  unfold State.rdBit State.wrBit State.rdN
  rw [State.rd_wr]
  split
  · rw [Int.toNat_natCast, testBit_putBit]
  · rfl

theorem State.rd_wrBit_ne (s : State) {a b : Nat} (i : Nat) (v : Bool) (h : b ≠ a) : (s.wrBit a i v).rd b = s.rd b :=
  State.rd_wr_ne s _ h

theorem State.rd_bump_ne (s : State) {a b : Nat} (h : b ≠ a) : (s.bump a).rd b = s.rd b := by
  unfold State.bump State.bumpTo
  split <;> exact State.rd_wr_ne s _ h

/-- A counter below its top counts one more. -/
theorem State.rd_bump_same (s : State) {a : Nat} (h : s.rd a < 0xFFFFFFFF) : (s.bump a).rd a = s.rd a + 1 := by
  unfold State.bump State.bumpTo
  rw [if_pos h, State.rd_wr_same]

/-- Several counters cleared read 0, everything else as before. -/
theorem State.rd_clear (s : State) (as : List Nat) (b : Nat) : (s.clear as).rd b = if b ∈ as then 0 else s.rd b := by
  unfold State.clear
  induction as generalizing s with
  | nil => rfl
  | cons a l ih =>
    rw [List.foldl_cons, ih, State.rd_wr]
    by_cases h1 : b ∈ l
    · rw [if_pos h1, if_pos (List.mem_cons_of_mem a h1)]
    · rw [if_neg h1]
      by_cases h2 : b = a
      · rw [if_pos h2, if_pos (by rw [h2]; exact List.mem_cons_self)]
      · rw [if_neg h2, if_neg (by simp [h1, h2])]

end Machine

end Sys2Proof
end

