-- ==== Sys2Proof/Laws/Still.lean ====
section
/-! SUPPORT. What the fault collector and everything that follows from an event leave alone: each of their operations
keeps every relation that its elementary updates keep. -/

set_option linter.unreachableTactic false
set_option linter.unusedTactic false

namespace Sys2Proof.Machine

/-- A relation that the updates of the collector keep: one of its objects written, a change outside `State.still`, the
objects, the pending faults, the injections, the mailboxes and the connections, and what it does to those two: an active injection ended with its
pending state (R370), a fault pended (R354), another occurrence counted (R360). -/
structure Mild (R : State → State → Prop) : Prop where
  refl : ∀ s, R s s
  trans : ∀ {s t u}, R s t → R t u → R s u
  wr : ∀ s a v, a ∈ collectorObjs → R s (s.wr a v)
  other : ∀ {s t : State}, t.still = s.still → t.objs = s.objs → t.flt.pend = s.flt.pend → t.flt.inj = s.flt.inj →
    t.mb = s.mb → t.net = s.net → R s t
  cancel : ∀ (s : State) (j : Inj),
    (j ∈ s.flt.inj ∨ ∀ p ∈ s.flt.pend, (p.inj && p.code == j.code && p.inst == j.inst) = false) → R s { s with flt := { s.flt with
      inj := s.flt.inj.filter (fun x => !(x == j)),
      pend := s.flt.pend.filter (fun p => !(p.inj && p.code == j.code && p.inst == j.inst)) } }
  /-- A waiting command answered (R143). -/
  reply : ∀ (s : State) (src : Source), R s (State.answerOne src s)
  pended : ∀ (s : State) (p : Pend), R s (s.modFlt (fun f => { f with pend := f.pend ++ [p] }))
  again : ∀ (s : State) (code inst : Half), R s (s.modFlt (fun f => { f with pend := f.pend.map (fun p =>
        if p.code == code && p.inst == inst then { p with occ := p.occ + 1 } else p) }))

variable {R : State → State → Prop}

theorem Mild.wrStep (h : Mild R) {r0 s : State} {a : Nat} {v : Int} (ha : a ∈ collectorObjs) (hs : R r0 s) : R r0 (s.wr a v) :=
  h.trans hs (h.wr s a v ha)

theorem ite_mild {c : Prop} [Decidable c] {r0 a b : State} (ha : c → R r0 a) (hb : ¬c → R r0 b) : R r0 (if c then a else b) := by
  split
  · exact ha ‹_›
  · exact hb ‹_›

theorem forAll_mild (h : Mild R) {α : Type} {l : List α} {f : α → State → State} {r0 s : State} (hf : ∀ a x, R x (f a x))
    (hs : R r0 s) : R r0 (forAll l f s) := by
  unfold forAll
  induction l generalizing s with
  | nil => exact hs
  | cons a l ih => exact ih (h.trans hs (hf a s))

theorem rtCount_mem (g : Fin 4) : Obj.rtCount g.val ∈ collectorObjs := by revert g; decide

theorem groupObjs_sub (g : Fin 4) :
    ∀ a ∈ [Obj.capTrq g.val, Obj.capFull g.val, Obj.capPct g.val, Obj.dragTrq g.val], a ∈ collectorObjs := by
  revert g; decide

theorem Quad.mapIdx_set {α β : Type} (q : Quad α) (F : α → β) (n : Fin 4) (a : α) (ha : F a = F (q.get n)) :
    (q.set n a).mapIdx (fun _ => F) = q.mapIdx (fun _ => F) := by
  match n with
  | 0 => simp only [Quad.set, Quad.mapIdx]; exact congrArg (fun x => Quad.mk x _ _ _) ha
  | 1 => simp only [Quad.set, Quad.mapIdx]; exact congrArg (fun x => Quad.mk _ x _ _) ha
  | 2 => simp only [Quad.set, Quad.mapIdx]; exact congrArg (fun x => Quad.mk _ _ x _) ha
  | 3 => simp only [Quad.set, Quad.mapIdx]; exact congrArg (fun x => Quad.mk _ _ _ x) ha

theorem State.bumpTo_mild (h : Mild R) {r0 s : State} {a : Nat} {top : Int} (ha : a ∈ collectorObjs) (hs : R r0 s) :
    R r0 (State.bumpTo s a top) := by
  unfold State.bumpTo
  split <;> exact h.wrStep ha hs

theorem State.bump_mild (h : Mild R) {r0 s : State} {a : Nat} (ha : a ∈ collectorObjs) (hs : R r0 s) : R r0 (State.bump s a) :=
  State.bumpTo_mild h ha hs

theorem State.clear_mild (h : Mild R) {r0 s : State} {as : List Nat} (ha : ∀ a ∈ as, a ∈ collectorObjs) (hs : R r0 s) :
    R r0 (State.clear s as) := by
  unfold State.clear
  induction as generalizing s with
  | nil => exact hs
  | cons a l ih =>
    exact ih (fun b hb => ha b (List.mem_cons_of_mem a hb)) (h.wrStep (ha a List.mem_cons_self) hs)

theorem State.wrBit_mild (h : Mild R) {r0 s : State} {a i : Nat} {b : Bool} (ha : a ∈ collectorObjs) (hs : R r0 s) :
    R r0 (State.wrBit s a i b) := h.wrStep ha hs

theorem State.modLoaf_mild (h : Mild R) {r0 s : State} {n : Fin 4} {f : LoafSt → LoafSt} (hf : ∀ l, (f l).still = l.still)
    (hs : R r0 s) : R r0 (State.modLoaf s n f) := by
  refine h.trans hs (h.other ?_ rfl rfl rfl rfl rfl)
  simp only [State.still, State.modLoaf, Quad.mapIdx_set _ LoafSt.still n _ (hf _)]

theorem State.modGrp_mild (h : Mild R) {r0 s : State} {g : Fin 4} {f : GroupSt → GroupSt} (hf : ∀ x, (f x).still = x.still)
    (hs : R r0 s) : R r0 (State.modGrp s g f) := by
  refine h.trans hs (h.other ?_ rfl rfl rfl rfl rfl)
  simp only [State.still, State.modGrp, Quad.mapIdx_set _ GroupSt.still g _ (hf _)]

theorem State.modFb_mild (h : Mild R) {r0 s : State} {n : Fin 4} {f : FbSt → FbSt} (hf : ∀ x, (f x).still = x.still)
    (hs : R r0 s) : R r0 (State.modFb s n f) := by
  refine h.trans hs (h.other ?_ rfl rfl rfl rfl rfl)
  simp only [State.still, State.modFb, Quad.mapIdx_set _ FbSt.still n _ (hf _)]

theorem State.modOven_mild (h : Mild R) {r0 s : State} {n : Fin 4} {f : OvenSt → OvenSt} (hf : ∀ x, (f x).still = x.still)
    (hs : R r0 s) : R r0 (State.modOven s n f) := by
  refine h.trans hs (h.other ?_ rfl rfl rfl rfl rfl)
  simp only [State.still, State.modOven, Quad.mapIdx_set _ OvenSt.still n _ (hf _)]



theorem State.modFlt_mild (h : Mild R) {r0 s : State} {f : FaultSt → FaultSt}
    (hf : ∀ x, (f x).still = x.still ∧ (f x).pend = x.pend ∧ (f x).inj = x.inj) (hs : R r0 s) : R r0 (State.modFlt s f) := by
  refine h.trans hs (h.other ?_ rfl (hf _).2.1 (hf _).2.2 rfl rfl)
  simp only [State.still, State.modFlt, (hf _).1]

theorem State.modSafety_mild (h : Mild R) {r0 s : State} {f : SafetySt → SafetySt} (hf : ∀ x, (f x).still = x.still)
    (hs : R r0 s) : R r0 (State.modSafety s f) := by
  refine h.trans hs (h.other ?_ rfl rfl rfl rfl rfl)
  simp only [State.still, State.modSafety, hf]

theorem State.modBoot_mild (h : Mild R) {r0 s : State} {f : BootSt → BootSt}
    (hf : ∀ x, { f x with stateT := 0, readyT := 0, preSafe := ModState.boot, safeSeen := true, transT := none }
      = { x with stateT := 0, readyT := 0, preSafe := ModState.boot, safeSeen := true, transT := none }) (hs : R r0 s) : R r0 (State.modBoot s f) := by
  refine h.trans hs (h.other ?_ rfl rfl rfl rfl rfl)
  simp only [State.still, State.modBoot, hf]



theorem State.modPp_mild (h : Mild R) {r0 s : State} {f : PpSt → PpSt} (hf : ∀ x, { f x with run := none } = { x with run := none })
    (hs : R r0 s) : R r0 (State.modPp s f) := by
  refine h.trans hs (h.other ?_ rfl rfl rfl rfl rfl)
  simp only [State.still, State.modPp, hf]



theorem State.modCap_mild (h : Mild R) {r0 s : State} {f : CapSt → CapSt}
    (hf : ∀ x, { f x with trigT := 0, trigNs := 0 } = { x with trigT := 0, trigNs := 0 }) (hs : R r0 s) : R r0 (State.modCap s f) := by
  refine h.trans hs (h.other ?_ rfl rfl rfl rfl rfl)
  simp only [State.still, State.modCap, hf]

theorem State.setIrq_mild (h : Mild R) {r0 : State} {s : State} {i : Nat} (hs : R r0 s) : R r0 (State.setIrq s i) :=
    by
  unfold State.setIrq
  repeat' (first
    | with_reducible (first
        | assumption | exact h.refl _ | change R _ (ite _ _ _))
    | split | exact h.trans hs (h.other rfl rfl rfl rfl rfl rfl))

theorem State.ppEarly_mild (h : Mild R) {r0 : State} {s : State} {cause : Nat} (hs : R r0 s) : R r0 (State.ppEarly s
    cause) := by
  unfold State.ppEarly
  repeat' (first
    | with_reducible (first
        | assumption | refine ite_mild (fun _ => ?_) (fun _ => ?_) | refine State.modPp_mild h ?_ ?_ | exact h.refl _
        | change R _ (ite _ _ _))
    | exact fun _ => rfl | exact fun _ => ⟨rfl, rfl, rfl⟩ | (intro _; split <;> rfl) | split
    | exact h.trans hs (h.other rfl rfl rfl rfl rfl rfl))

theorem State.setMode_mild (h : Mild R) {r0 : State} {s : State} {m : ModState} (hs : R r0 s) : R r0 (State.setMode s
    m) := by
  unfold State.setMode
  repeat' (first
    | with_reducible (first
        | assumption | refine ite_mild (fun _ => ?_) (fun _ => ?_) | refine h.wrStep ?_ ?_
        | refine State.ppEarly_mild h ?_ | refine State.setIrq_mild h ?_ | exact h.refl _ | change R _ (ite _ _ _))
    | exact rtCount_mem _ | exact groupObjs_sub _ | decide | extract_lets | split
    | exact h.trans hs (h.other rfl rfl rfl rfl rfl rfl))

theorem State.mirrorSend_mild (h : Mild R) {r0 : State} {s : State} {frame : List Byte} (hs : R r0 s) : R r0
    (State.mirrorSend s frame) := by
  unfold State.mirrorSend
  repeat' (first
    | with_reducible (first
        | assumption | exact h.refl _ | change R _ (ite _ _ _))
    | split | exact h.trans hs (h.other rfl rfl rfl rfl rfl rfl))

theorem State.releaseRole_mild (h : Mild R) {r0 : State} {s : State} {takeover : Bool} (hs : R r0 s) : R r0
    (State.releaseRole s takeover) := by
  unfold State.releaseRole
  repeat' (first
    | with_reducible (first
        | assumption | refine ite_mild (fun _ => ?_) (fun _ => ?_) | refine State.mirrorSend_mild h ?_
        | exact h.refl _ | change R _ (ite _ _ _))
    | extract_lets | split | exact h.trans hs (h.other rfl rfl rfl rfl rfl rfl))

theorem State.enqueue_mild (h : Mild R) {r0 : State} {r : Region} {src : Nat} {p : Packet} {s : State} (hs : R r0 s) :
    R r0 (State.enqueue r src p s) := by
  unfold State.enqueue
  repeat' (first
    | with_reducible (first
        | assumption | exact h.refl _ | change R _ (ite _ _ _))
    | split | exact h.trans hs (h.other rfl rfl rfl rfl rfl rfl))







theorem State.transPlaced_mild (h : Mild R) {r0 : State} {src : Source} {s : State} (hs : R r0 s) : R r0
    (State.transPlaced src s) := by
  unfold State.transPlaced
  repeat' (first
    | with_reducible (first
        | assumption | refine ite_mild (fun _ => ?_) (fun _ => ?_) | refine State.modBoot_mild h ?_ ?_
        | exact h.refl _ | change R _ (ite _ _ _))
    | exact fun _ => rfl | exact fun _ => ⟨rfl, rfl, rfl⟩ | (intro _; split <;> rfl) | split
    | exact h.trans hs (h.other rfl rfl rfl rfl rfl rfl))











theorem State.answerWaiting_mild (h : Mild R) {r0 : State} {s : State} (hs : R r0 s) : R r0 (State.answerWaiting s) :=
  forAll_mild h (fun src x => h.reply x src) hs

theorem State.occur_mild (h : Mild R) {r0 : State} {n : Fin 4} {src k : Nat} {s : State} (hs : R r0 s) : R r0
    (State.occur n src k s) := by
  unfold State.occur
  repeat' (first
    | with_reducible (first
        | assumption | refine ite_mild (fun _ => ?_) (fun _ => ?_) | refine forAll_mild h (fun _ _ => ?_) ?_
        | refine State.modLoaf_mild h ?_ ?_ | exact h.refl _ | change R _ (ite _ _ _))
    | exact fun _ => rfl | exact fun _ => ⟨rfl, rfl, rfl⟩ | (intro _; split <;> rfl) | extract_lets | split
    | exact h.trans hs (h.other rfl rfl rfl rfl rfl rfl))

theorem State.phaseEdges_mild (h : Mild R) {r0 : State} {n : Fin 4} {p g e : Nat} {s : State} (hs : R r0 s) : R r0
    (State.phaseEdges n p g e s) := by
  unfold State.phaseEdges
  repeat' (first
    | with_reducible (first
        | assumption | refine ite_mild (fun _ => ?_) (fun _ => ?_) | refine State.modLoaf_mild h ?_ ?_
        | refine State.occur_mild h ?_ | exact h.refl _ | change R _ (ite _ _ _))
    | exact fun _ => rfl | exact fun _ => ⟨rfl, rfl, rfl⟩ | (intro _; split <;> rfl) | extract_lets | split
    | exact h.trans hs (h.other rfl rfl rfl rfl rfl rfl))

theorem State.pwmTo_mild (h : Mild R) {r0 : State} {n : Fin 4} {s : State} (hs : R r0 s) : R r0 (State.pwmTo n s) :=
    by
  unfold State.pwmTo
  repeat' (first
    | with_reducible (first
        | assumption | refine ite_mild (fun _ => ?_) (fun _ => ?_) | refine forAll_mild h (fun _ _ => ?_) ?_
        | refine State.modLoaf_mild h ?_ ?_ | refine State.phaseEdges_mild h ?_ | exact h.refl _
        | change R _ (ite _ _ _))
    | exact fun _ => rfl | exact fun _ => ⟨rfl, rfl, rfl⟩ | (intro _; split <;> rfl) | extract_lets | split
    | exact h.trans hs (h.other rfl rfl rfl rfl rfl rfl))

theorem State.patternFollow_mild (h : Mild R) {r0 : State} {s : State} (hs : R r0 s) : R r0 (State.patternFollow s) :=
    by
  unfold State.patternFollow
  repeat' (first
    | with_reducible (first
        | assumption | refine ite_mild (fun _ => ?_) (fun _ => ?_) | refine forAll_mild h (fun _ _ => ?_) ?_
        | refine State.modLoaf_mild h ?_ ?_ | refine State.pwmTo_mild h ?_ | exact h.refl _ | change R _ (ite _ _ _))
    | exact fun _ => rfl | exact fun _ => ⟨rfl, rfl, rfl⟩ | (intro _; split <;> rfl) | extract_lets | split
    | exact h.trans hs (h.other rfl rfl rfl rfl rfl rfl))

theorem State.enqueueFault_mild (h : Mild R) {r0 : State} {e : Event} {s : State} (hs : R r0 s) : R r0
    (State.enqueueFault e s) := by
  unfold State.enqueueFault
  repeat' (first
    | with_reducible (first
        | assumption | refine State.fault_mild h ?_ | exact h.refl _ | change R _ (ite _ _ _))
    | extract_lets | split | exact h.trans hs (h.other rfl rfl rfl rfl rfl rfl))

theorem State.emitAs_mild (h : Mild R) {r0 : State} {quiet : Bool} {code inst : Half} {cls : FaultClass} {react flags
    event occ : Nat} {data : Int} {s : State} (hs : R r0 s) : R r0 (State.emitAs quiet code inst cls react flags event
    occ data s) := by
  unfold State.emitAs
  repeat' (first
    | with_reducible (first
        | assumption | refine State.enqueueFault_mild h ?_ | refine State.react_mild h ?_ | exact h.refl _
        | change R _ (ite _ _ _))
    | extract_lets | split | exact h.trans hs (h.other rfl rfl rfl rfl rfl rfl))

theorem State.emit_mild (h : Mild R) {r0 : State} {code inst : Half} {cls : FaultClass} {react flags event occ : Nat}
    {data : Int} {s : State} (hs : R r0 s) : R r0 (State.emit code inst cls react flags event occ data s) := by
  unfold State.emit
  repeat' (first
    | with_reducible (first
        | assumption | refine State.emitAs_mild h ?_ | refine State.react_mild h ?_ | exact h.refl _
        | change R _ (ite _ _ _))
    | split | exact h.trans hs (h.other rfl rfl rfl rfl rfl rfl))

theorem State.reportM_mild (h : Mild R) {r0 : State} {code inst : Half} {data : Int} {s : State} (hs : R r0 s) : R r0
    (State.reportM code inst data s) := by
  unfold State.reportM
  repeat' (first
    | with_reducible (first
        | assumption | refine State.enqueue_mild h ?_ | refine State.fault_mild h ?_ | exact h.refl _
        | change R _ (ite _ _ _))
    | split | exact h.trans hs (h.other rfl rfl rfl rfl rfl rfl))

theorem State.safetyReport_mild (h : Mild R) {r0 : State} {ch : Chan} {data : Int} {s : State} (hs : R r0 s) : R r0
    (State.safetyReport ch data s) := by
  unfold State.safetyReport
  repeat' (first
    | with_reducible (first
        | assumption | refine State.emit_mild h ?_ | refine State.reportM_mild h ?_ | exact h.refl _
        | change R _ (ite _ _ _))
    | split | exact h.trans hs (h.other rfl rfl rfl rfl rfl rfl))

theorem State.brakeOff_mild (h : Mild R) {r0 : State} {ch : Chan} {s : State} (hs : R r0 s) : R r0 (State.brakeOff ch
    s) := by
  unfold State.brakeOff
  repeat' (first
    | with_reducible (first
        | assumption | refine ite_mild (fun _ => ?_) (fun _ => ?_) | refine State.modSafety_mild h ?_ ?_
        | refine State.safetyReport_mild h ?_ | exact h.refl _ | change R _ (ite _ _ _))
    | exact fun _ => rfl | exact fun _ => ⟨rfl, rfl, rfl⟩ | (intro _; split <;> rfl) | split
    | exact h.trans hs (h.other rfl rfl rfl rfl rfl rfl))

theorem State.brakesOff_mild (h : Mild R) {r0 : State} {s : State} (hs : R r0 s) : R r0 (State.brakesOff s) := by
  unfold State.brakesOff
  repeat' (first
    | with_reducible (first
        | assumption | refine State.brakeOff_mild h ?_ | exact h.refl _ | change R _ (ite _ _ _))
    | split | exact h.trans hs (h.other rfl rfl rfl rfl rfl rfl))

theorem LoafSt.enter_still (l : LoafSt) (st : LoafState) : (l.enter st).still = l.still := by
  unfold LoafSt.enter
  split
  · rfl
  · split <;> rfl

theorem State.loafTo_mild (h : Mild R) {r0 : State} {n : Fin 4} {st : LoafState} {s : State} (hs : R r0 s) :
    R r0 (State.loafTo n st s) := by
  unfold State.loafTo
  refine State.modLoaf_mild h (fun l => l.enter_still st) ?_
  exact ite_mild (fun _ => State.pwmTo_mild h hs) (fun _ => hs)

theorem State.commit_mild (h : Mild R) {r0 : State} {n : Fin 4} {cmp : Int × Int × Int} {s : State} (hs : R r0 s) : R
    r0 (State.commit n cmp s) := by
  unfold State.commit
  repeat' (first
    | with_reducible (first
        | assumption | refine State.modLoaf_mild h ?_ ?_ | exact h.refl _ | change R _ (ite _ _ _))
    | exact fun _ => rfl | exact fun _ => ⟨rfl, rfl, rfl⟩ | (intro _; split <;> rfl) | split
    | exact h.trans hs (h.other rfl rfl rfl rfl rfl rfl))

theorem State.loafOpen_mild (h : Mild R) {r0 : State} {n : Fin 4} {s : State} (hs : R r0 s) : R r0 (State.loafOpen n
    s) := by
  unfold State.loafOpen
  repeat' (first
    | with_reducible (first
        | assumption | refine State.commit_mild h ?_ | refine State.loafTo_mild h ?_ | exact h.refl _
        | change R _ (ite _ _ _))
    | split | exact h.trans hs (h.other rfl rfl rfl rfl rfl rfl))

theorem State.isoMark_mild (h : Mild R) {r0 : State} {g : Fin 4} {s : State} (hs : R r0 s) : R r0 (State.isoMark g s)
    := by
  unfold State.isoMark
  repeat' (first
    | with_reducible (first
        | assumption | refine ite_mild (fun _ => ?_) (fun _ => ?_) | refine State.modGrp_mild h ?_ ?_ | exact h.refl _
        | change R _ (ite _ _ _))
    | exact fun _ => rfl | exact fun _ => ⟨rfl, rfl, rfl⟩ | (intro _; split <;> rfl) | split
    | exact h.trans hs (h.other rfl rfl rfl rfl rfl rfl))

theorem State.isoUndo_mild (h : Mild R) {r0 : State} {n : Fin 4} {s : State} (hs : R r0 s) : R r0 (State.isoUndo n s)
    := by
  unfold State.isoUndo
  repeat' (first
    | with_reducible (first
        | assumption | refine ite_mild (fun _ => ?_) (fun _ => ?_) | refine h.wrStep ?_ ?_ | exact h.refl _
        | change R _ (ite _ _ _))
    | exact rtCount_mem _ | exact groupObjs_sub _ | decide | extract_lets | split
    | exact h.trans hs (h.other rfl rfl rfl rfl rfl rfl))

theorem State.loafSafe_mild (h : Mild R) {r0 : State} {leaving : List (Fin 4)} {n : Fin 4} {s : State} (hs : R r0 s) :
    R r0 (State.loafSafe leaving n s) := by
  unfold State.loafSafe
  repeat' (first
    | with_reducible (first
        | assumption | refine ite_mild (fun _ => ?_) (fun _ => ?_) | refine State.bump_mild h ?_ ?_
        | refine State.fault_mild h ?_ | refine State.isoMark_mild h ?_ | refine State.isoUndo_mild h ?_
        | refine State.loafTo_mild h ?_ | exact h.refl _ | change R _ (ite _ _ _))
    | exact rtCount_mem _ | exact groupObjs_sub _ | decide | extract_lets | split
    | exact h.trans hs (h.other rfl rfl rfl rfl rfl rfl))

theorem State.unpublish_mild (h : Mild R) {r0 : State} {g : Fin 4} {s : State} (hs : R r0 s) : R r0 (State.unpublish g
    s) := by
  unfold State.unpublish
  repeat' (first
    | with_reducible (first
        | assumption | refine State.clear_mild h ?_ ?_ | refine forAll_mild h (fun _ _ => ?_) ?_
        | refine State.modGrp_mild h ?_ ?_ | refine State.modOven_mild h ?_ ?_ | exact h.refl _
        | change R _ (ite _ _ _))
    | exact fun _ => rfl | exact fun _ => ⟨rfl, rfl, rfl⟩ | (intro _; split <;> rfl) | exact rtCount_mem _
    | exact groupObjs_sub _ | decide | split | exact h.trans hs (h.other rfl rfl rfl rfl rfl rfl))



theorem State.isolatedToFault_mild (h : Mild R) {r0 : State} {g : Fin 4} {s : State} (hs : R r0 s) : R r0
    (State.isolatedToFault g s) := by
  unfold State.isolatedToFault
  repeat' (first
    | with_reducible (first
        | assumption | refine ite_mild (fun _ => ?_) (fun _ => ?_) | refine State.fault_mild h ?_
        | refine forAll_mild h (fun _ _ => ?_) ?_ | refine State.loafTo_mild h ?_ | exact h.refl _
        | change R _ (ite _ _ _))
    | split | exact h.trans hs (h.other rfl rfl rfl rfl rfl rfl))

theorem State.brakeOffFor_mild (h : Mild R) {r0 : State} {g : Fin 4} {s : State} (hs : R r0 s) : R r0
    (State.brakeOffFor g s) := by
  unfold State.brakeOffFor
  repeat' (first
    | with_reducible (first
        | assumption | refine ite_mild (fun _ => ?_) (fun _ => ?_) | refine State.brakesOff_mild h ?_ | exact h.refl _
        | change R _ (ite _ _ _))
    | split | exact h.trans hs (h.other rfl rfl rfl rfl rfl rfl))

theorem State.groupSafe_mild (h : Mild R) {r0 : State} {g : Fin 4} {s : State} (hs : R r0 s) : R r0 (State.groupSafe g
    s) := by
  unfold State.groupSafe
  repeat' (first
    | with_reducible (first
        | assumption | refine ite_mild (fun _ => ?_) (fun _ => ?_) | refine State.brakeOffFor_mild h ?_
        | refine State.isolatedToFault_mild h ?_ | refine State.modGrp_mild h ?_ ?_ | refine State.unpublish_mild h ?_
        | exact h.refl _ | change R _ (ite _ _ _))
    | exact fun _ => rfl | exact fun _ => ⟨rfl, rfl, rfl⟩ | (intro _; split <;> rfl) | split
    | exact h.trans hs (h.other rfl rfl rfl rfl rfl rfl))

theorem State.groupStopped_mild (h : Mild R) {r0 : State} {g : Fin 4} {loavesOff : Bool} {s : State} (hs : R r0 s) : R
    r0 (State.groupStopped g loavesOff s) := by
  unfold State.groupStopped
  repeat' (first
    | with_reducible (first
        | assumption | refine ite_mild (fun _ => ?_) (fun _ => ?_) | refine State.brakeOffFor_mild h ?_
        | refine State.fault_mild h ?_ | refine forAll_mild h (fun _ _ => ?_) ?_
        | refine State.isolatedToFault_mild h ?_ | refine State.loafTo_mild h ?_ | refine State.modGrp_mild h ?_ ?_
        | refine State.unpublish_mild h ?_ | exact h.refl _ | change R _ (ite _ _ _))
    | exact fun _ => rfl | exact fun _ => ⟨rfl, rfl, rfl⟩ | (intro _; split <;> rfl) | extract_lets | split
    | exact h.trans hs (h.other rfl rfl rfl rfl rfl rfl))

theorem State.groupStop_mild (h : Mild R) {r0 : State} {g : Fin 4} {s : State} (hs : R r0 s) : R r0 (State.groupStop g
    s) := by
  unfold State.groupStop
  repeat' (first
    | with_reducible (first
        | assumption | refine ite_mild (fun _ => ?_) (fun _ => ?_) | refine State.modGrp_mild h ?_ ?_ | exact h.refl _
        | change R _ (ite _ _ _))
    | exact fun _ => rfl | exact fun _ => ⟨rfl, rfl, rfl⟩ | (intro _; split <;> rfl) | extract_lets | split
    | exact h.trans hs (h.other rfl rfl rfl rfl rfl rfl))

theorem State.groupDegrade_mild (h : Mild R) {r0 : State} {g : Fin 4} {s : State} (hs : R r0 s) : R r0
    (State.groupDegrade g s) := by
  unfold State.groupDegrade
  repeat' (first
    | with_reducible (first
        | assumption | refine State.modGrp_mild h ?_ ?_ | exact h.refl _ | change R _ (ite _ _ _))
    | exact fun _ => rfl | exact fun _ => ⟨rfl, rfl, rfl⟩ | (intro _; split <;> rfl) | split
    | exact h.trans hs (h.other rfl rfl rfl rfl rfl rfl))

theorem State.groupsBare_mild (h : Mild R) {r0 : State} {s : State} (hs : R r0 s) : R r0 (State.groupsBare s) := by
  unfold State.groupsBare
  repeat' (first
    | with_reducible (first
        | assumption | refine ite_mild (fun _ => ?_) (fun _ => ?_) | refine forAll_mild h (fun _ _ => ?_) ?_
        | refine State.groupSafe_mild h ?_ | exact h.refl _ | change R _ (ite _ _ _))
    | split | exact h.trans hs (h.other rfl rfl rfl rfl rfl rfl))

theorem State.setGen_mild (h : Mild R) {r0 : State} {ch : Chan} {b : Bool} {s : State} (hs : R r0 s) : R r0
    (State.setGen ch b s) := by
  unfold State.setGen
  repeat' (first
    | with_reducible (first
        | assumption | refine ite_mild (fun _ => ?_) (fun _ => ?_) | refine State.modSafety_mild h ?_ ?_
        | exact h.refl _ | change R _ (ite _ _ _))
    | exact fun _ => rfl | exact fun _ => ⟨rfl, rfl, rfl⟩ | (intro _; split <;> rfl) | extract_lets | split
    | exact h.trans hs (h.other rfl rfl rfl rfl rfl rfl))

theorem State.gateFall_mild (h : Mild R) {r0 : State} {s : State} (hs : R r0 s) : R r0 (State.gateFall s) := by
  unfold State.gateFall
  repeat' (first
    | with_reducible (first
        | assumption | refine ite_mild (fun _ => ?_) (fun _ => ?_) | refine State.brakesOff_mild h ?_
        | refine forAll_mild h (fun _ _ => ?_) ?_ | refine State.groupSafe_mild h ?_ | refine State.loafTo_mild h ?_
        | refine State.modLoaf_mild h ?_ ?_ | exact h.refl _ | change R _ (ite _ _ _))
    | exact fun _ => rfl | exact fun _ => ⟨rfl, rfl, rfl⟩ | (intro _; split <;> rfl) | extract_lets | split
    | exact h.trans hs (h.other rfl rfl rfl rfl rfl rfl))

theorem State.dropGen_mild (h : Mild R) {r0 : State} {ch : Chan} {s : State} (hs : R r0 s) : R r0 (State.dropGen ch s)
    := by
  unfold State.dropGen
  repeat' (first
    | with_reducible (first
        | assumption | refine ite_mild (fun _ => ?_) (fun _ => ?_) | refine State.gateFall_mild h ?_
        | refine State.safetyReport_mild h ?_ | refine State.setGen_mild h ?_ | exact h.refl _
        | change R _ (ite _ _ _))
    | split | exact h.trans hs (h.other rfl rfl rfl rfl rfl rfl))

theorem State.raiseGen_mild (h : Mild R) {r0 : State} {ch : Chan} {s : State} (hs : R r0 s) : R r0 (State.raiseGen ch
    s) := by
  unfold State.raiseGen
  repeat' (first
    | with_reducible (first
        | assumption | refine ite_mild (fun _ => ?_) (fun _ => ?_) | refine State.safetyReport_mild h ?_
        | refine State.setGen_mild h ?_ | exact h.refl _ | change R _ (ite _ _ _))
    | split | exact h.trans hs (h.other rfl rfl rfl rfl rfl rfl))

theorem State.updateGen_mild (h : Mild R) {r0 : State} {ch : Chan} {s : State} (hs : R r0 s) : R r0 (State.updateGen
    ch s) := by
  unfold State.updateGen
  repeat' (first
    | with_reducible (first
        | assumption | refine ite_mild (fun _ => ?_) (fun _ => ?_) | refine State.dropGen_mild h ?_
        | refine State.raiseGen_mild h ?_ | exact h.refl _ | change R _ (ite _ _ _))
    | split | exact h.trans hs (h.other rfl rfl rfl rfl rfl rfl))

theorem State.enterSafe_mild (h : Mild R) {r0 : State} {code inst : Half} {s : State} (hs : R r0 s) : R r0
    (State.enterSafe code inst s) := by
  unfold State.enterSafe
  repeat' (first
    | with_reducible (first
        | assumption | refine ite_mild (fun _ => ?_) (fun _ => ?_) | refine State.dropGen_mild h ?_
        | refine State.modBoot_mild h ?_ ?_ | refine State.releaseRole_mild h ?_ | refine State.setMode_mild h ?_
        | exact h.refl _ | change R _ (ite _ _ _))
    | exact fun _ => rfl | exact fun _ => ⟨rfl, rfl, rfl⟩ | (intro _; split <;> rfl) | extract_lets | split
    | exact h.trans hs (h.other rfl rfl rfl rfl rfl rfl))

theorem State.safeToStopped_mild (h : Mild R) {r0 : State} {s : State} (hs : R r0 s) : R r0 (State.safeToStopped s) :=
    by
  unfold State.safeToStopped
  repeat' (first
    | with_reducible (first
        | assumption | refine ite_mild (fun _ => ?_) (fun _ => ?_) | refine forAll_mild h (fun _ _ => ?_) ?_
        | refine State.groupStopped_mild h ?_ | exact h.refl _ | change R _ (ite _ _ _))
    | split | exact h.trans hs (h.other rfl rfl rfl rfl rfl rfl))

theorem State.modeFollow_mild (h : Mild R) {r0 : State} {s : State} (hs : R r0 s) : R r0 (State.modeFollow s) := by
  unfold State.modeFollow
  repeat' (first
    | with_reducible (first
        | assumption | refine ite_mild (fun _ => ?_) (fun _ => ?_) | refine State.setMode_mild h ?_ | exact h.refl _
        | change R _ (ite _ _ _))
    | split | exact h.trans hs (h.other rfl rfl rfl rfl rfl rfl))

theorem State.beatFollow_mild (h : Mild R) {r0 : State} {s : State} (hs : R r0 s) : R r0 (State.beatFollow s) := by
  unfold State.beatFollow
  repeat' (first
    | with_reducible (first
        | assumption | refine ite_mild (fun _ => ?_) (fun _ => ?_) | refine State.bump_mild h ?_ ?_
        | refine State.modFlt_mild h ?_ ?_ | exact h.refl _ | change R _ (ite _ _ _))
    | exact fun _ => rfl | exact fun _ => ⟨rfl, rfl, rfl⟩ | (intro _; split <;> rfl) | exact rtCount_mem _
    | exact groupObjs_sub _ | decide | split | exact h.trans hs (h.other rfl rfl rfl rfl rfl rfl))

theorem State.brakeFollow_mild (h : Mild R) {r0 : State} {s : State} (hs : R r0 s) : R r0 (State.brakeFollow s) := by
  unfold State.brakeFollow
  repeat' (first
    | with_reducible (first
        | assumption | refine ite_mild (fun _ => ?_) (fun _ => ?_) | refine State.brakesOff_mild h ?_
        | refine State.modSafety_mild h ?_ ?_ | exact h.refl _ | change R _ (ite _ _ _))
    | exact fun _ => rfl | exact fun _ => ⟨rfl, rfl, rfl⟩ | (intro _; split <;> rfl) | extract_lets | split
    | exact h.trans hs (h.other rfl rfl rfl rfl rfl rfl))

theorem State.follow_mild (h : Mild R) {r0 : State} {s : State} (hs : R r0 s) : R r0 (State.follow s) := by
  unfold State.follow
  repeat' (first
    | with_reducible (first
        | assumption | refine State.beatFollow_mild h ?_ | refine State.brakeFollow_mild h ?_
        | refine State.groupsBare_mild h ?_ | refine State.modeFollow_mild h ?_ | refine State.safeToStopped_mild h ?_
        | refine State.updateGen_mild h ?_ | exact h.refl _ | change R _ (ite _ _ _))
    | split | exact h.trans hs (h.other rfl rfl rfl rfl rfl rfl))

theorem State.stopAll_mild (h : Mild R) {r0 : State} {s : State} (hs : R r0 s) : R r0 (State.stopAll s) := by
  unfold State.stopAll
  repeat' (first
    | with_reducible (first
        | assumption | refine forAll_mild h (fun _ _ => ?_) ?_ | refine State.groupStop_mild h ?_ | exact h.refl _
        | change R _ (ite _ _ _))
    | split | exact h.trans hs (h.other rfl rfl rfl rfl rfl rfl))

theorem State.demandSto_mild (h : Mild R) {r0 : State} {ch : Chan} {s : State} (hs : R r0 s) : R r0 (State.demandSto
    ch s) := by
  unfold State.demandSto
  repeat' (first
    | with_reducible (first
        | assumption | refine ite_mild (fun _ => ?_) (fun _ => ?_) | refine State.bump_mild h ?_ ?_
        | refine State.dropGen_mild h ?_ | refine State.enterSafe_mild h ?_ | refine State.modSafety_mild h ?_ ?_
        | exact h.refl _ | change R _ (ite _ _ _))
    | exact fun _ => rfl | exact fun _ => ⟨rfl, rfl, rfl⟩ | (intro _; split <;> rfl) | exact rtCount_mem _
    | exact groupObjs_sub _ | decide | extract_lets | split | exact h.trans hs (h.other rfl rfl rfl rfl rfl rfl))

theorem State.ss1End_mild (h : Mild R) {r0 : State} {ch : Chan} {s : State} (hs : R r0 s) : R r0 (State.ss1End ch s)
    := by
  unfold State.ss1End
  repeat' (first
    | with_reducible (first
        | assumption | refine State.demandSto_mild h ?_ | refine State.modSafety_mild h ?_ ?_
        | refine State.safetyReport_mild h ?_ | exact h.refl _ | change R _ (ite _ _ _))
    | exact fun _ => rfl | exact fun _ => ⟨rfl, rfl, rfl⟩ | (intro _; split <;> rfl) | split
    | exact h.trans hs (h.other rfl rfl rfl rfl rfl rfl))

theorem State.ss1Start_mild (h : Mild R) {r0 : State} {ch : Chan} {s : State} (hs : R r0 s) : R r0 (State.ss1Start ch
    s) := by
  unfold State.ss1Start
  repeat' (first
    | with_reducible (first
        | assumption | refine ite_mild (fun _ => ?_) (fun _ => ?_) | refine State.modSafety_mild h ?_ ?_
        | refine State.ss1End_mild h ?_ | refine State.stopAll_mild h ?_ | exact h.refl _ | change R _ (ite _ _ _))
    | exact fun _ => rfl | exact fun _ => ⟨rfl, rfl, rfl⟩ | (intro _; split <;> rfl) | extract_lets | split
    | exact h.trans hs (h.other rfl rfl rfl rfl rfl rfl))

theorem State.ss1Ask_mild (h : Mild R) {r0 : State} {ch : Chan} {s : State} (hs : R r0 s) : R r0 (State.ss1Ask ch s)
    := by
  unfold State.ss1Ask
  repeat' (first
    | with_reducible (first
        | assumption | refine ite_mild (fun _ => ?_) (fun _ => ?_) | refine State.safetyReport_mild h ?_
        | refine State.ss1Start_mild h ?_ | exact h.refl _ | change R _ (ite _ _ _))
    | split | exact h.trans hs (h.other rfl rfl rfl rfl rfl rfl))

theorem State.reactUnit_mild (h : Mild R) {r0 : State} {code : Half} {s : State} (hs : R r0 s) : R r0 (State.reactUnit
    code s) := by
  unfold State.reactUnit
  repeat' (first
    | with_reducible (first
        | assumption | refine ite_mild (fun _ => ?_) (fun _ => ?_) | refine State.releaseRole_mild h ?_
        | exact h.refl _ | change R _ (ite _ _ _))
    | split | exact h.trans hs (h.other rfl rfl rfl rfl rfl rfl))

theorem State.react_mild (h : Mild R) {r0 : State} {r : Nat} {code inst : Half} {s : State} (hs : R r0 s) : R r0
    (State.react r code inst s) := by
  unfold State.react
  repeat' (first
    | with_reducible (first
        | assumption | refine ite_mild (fun _ => ?_) (fun _ => ?_) | refine State.enterSafe_mild h ?_
        | refine forAll_mild h (fun _ _ => ?_) ?_ | refine State.groupDegrade_mild h ?_
        | refine State.groupSafe_mild h ?_ | refine State.groupStop_mild h ?_ | refine State.groupsBare_mild h ?_
        | refine State.loafSafe_mild h ?_ | refine State.modSafety_mild h ?_ ?_ | refine State.reactUnit_mild h ?_
        | refine State.ss1Ask_mild h ?_ | exact h.refl _ | change R _ (ite _ _ _))
    | exact fun _ => rfl | exact fun _ => ⟨rfl, rfl, rfl⟩ | (intro _; split <;> rfl) | extract_lets | split
    | exact h.trans hs (h.other rfl rfl rfl rfl rfl rfl))

theorem State.captureTriggerAt_mild (h : Mild R) {r0 : State} {bit inst : Nat} {s : State} (hs : R r0 s) : R r0
    (State.captureTriggerAt bit inst s) := by
  unfold State.captureTriggerAt
  repeat' (first
    | with_reducible (first
        | assumption | refine ite_mild (fun _ => ?_) (fun _ => ?_) | refine h.wrStep ?_ ?_
        | refine State.modCap_mild h ?_ ?_ | refine State.wrBit_mild h ?_ ?_ | exact h.refl _ | change R _ (ite _ _ _))
    | exact fun _ => rfl | exact fun _ => ⟨rfl, rfl, rfl⟩ | (intro _; split <;> rfl) | exact rtCount_mem _
    | exact groupObjs_sub _ | decide | extract_lets | split | exact h.trans hs (h.other rfl rfl rfl rfl rfl rfl))

theorem State.captureTrigger_mild (h : Mild R) {r0 : State} {bit : Nat} {s : State} (hs : R r0 s) : R r0
    (State.captureTrigger bit s) := by
  unfold State.captureTrigger
  repeat' (first
    | with_reducible (first
        | assumption | refine State.captureTriggerAt_mild h ?_ | exact h.refl _ | change R _ (ite _ _ _))
    | split | exact h.trans hs (h.other rfl rfl rfl rfl rfl rfl))

theorem State.captureFault_mild (h : Mild R) {r0 : State} {code : Half} {cls : FaultClass} {s : State} (hs : R r0 s) :
    R r0 (State.captureFault code cls s) := by
  unfold State.captureFault
  repeat' (first
    | with_reducible (first
        | assumption | refine ite_mild (fun _ => ?_) (fun _ => ?_) | refine State.captureTrigger_mild h ?_
        | exact h.refl _ | change R _ (ite _ _ _))
    | extract_lets | split | exact h.trans hs (h.other rfl rfl rfl rfl rfl rfl))

/-- A pending state that an injection's cancellation ends. -/
def endsWith (p : Pend) (j : Inj) : Bool := p.inj && p.code == j.code && p.inst == j.inst

/-- An injection is active, or nothing pending ends with it. -/
def Cancels (s : State) (j : Inj) : Prop := j ∈ s.flt.inj ∨ ∀ p ∈ s.flt.pend, endsWith p j = false

theorem State.endInj_mild (h : Mild R) {r0 : State} {j : Inj} {s : State} (hj : Cancels s j) (hs : R r0 s) :
    R r0 (State.endInj j s) := h.trans hs (h.cancel s j hj)

/-- The end of one injection leaves every other one active or ended. -/
theorem Cancels.step {s : State} {j k : Inj} (h : Cancels s k) : Cancels (State.endInj j s) k := by
  rcases h with h | h
  · by_cases hk : k = j
    · subst hk
      exact Or.inr (fun p hp => (Bool.not_eq_true' _).mp (List.mem_filter.mp hp).2)
    · exact Or.inl (List.mem_filter.mpr ⟨h, by simp [hk]⟩)
  · exact Or.inr (fun p hp => h p (List.mem_filter.mp hp).1)

theorem State.endAll_mild (h : Mild R) {r0 : State} {l : List Inj} {s : State} (hl : ∀ j ∈ l, Cancels s j) (hs : R r0 s) :
    R r0 (forAll l State.endInj s) := by
  unfold forAll
  induction l generalizing s with
  | nil => exact hs
  | cons a l ih =>
    exact ih (fun j hj => (hl j (List.mem_cons_of_mem a hj)).step) (State.endInj_mild h (hl a List.mem_cons_self) hs)

theorem State.logCancel_mild (h : Mild R) {r0 : State} {j : Inj} {s : State} (hs : R r0 s) : R r0 (State.logCancel j s) :=
  State.emit_mild h (State.bump_mild h (by decide) hs)



theorem State.latchC0_mild (h : Mild R) {r0 : State} {code inst : Half} {flags : Nat} {data : Int} {s : State} (hs : R
    r0 s) : R r0 (State.latchC0 code inst flags data s) := by
  unfold State.latchC0
  repeat' (first
    | with_reducible (first
        | assumption | refine ite_mild (fun _ => ?_) (fun _ => ?_) | refine State.emit_mild h ?_
        | refine State.modFlt_mild h ?_ ?_ | exact h.refl _ | change R _ (ite _ _ _))
    | exact fun _ => rfl | exact fun _ => ⟨rfl, rfl, rfl⟩ | (intro _; split <;> rfl) | extract_lets | split
    | exact h.trans hs (h.other rfl rfl rfl rfl rfl rfl))

theorem State.enter_mild (h : Mild R) {r0 : State} {code inst : Half} {data : Int} {flags : Nat} {inj : Bool} {s : State}
    (hs : R r0 s) : R r0 (State.enter code inst data flags inj s) := by
  unfold State.enter
  extract_lets c hard p s1
  refine ite_mild (fun _ => ?_) (fun _ => ?_)
  · exact State.captureFault_mild h (State.latchC0_mild h hs)
  · have h1 : R r0 s1 := State.captureFault_mild h (State.emit_mild h (h.trans hs (h.pended s p)))
    split
    · exact State.react_mild h h1
    · exact h1



theorem State.latch_mild (h : Mild R) {r0 : State} {code inst : Half} {data : Int} {s : State} (hs : R r0 s) :
    R r0 (State.latch code inst data s) := by
  unfold State.latch
  refine ite_mild (fun _ => hs) (fun _ => ?_)
  extract_lets co s1 s2
  have h1 : R r0 s1 := State.endAll_mild h (fun j hj => Or.inl (List.mem_filter.mp hj).1) hs
  have h2 : R r0 s2 := by
    refine ite_mild (fun _ => h.trans h1 (h.again s1 code inst)) (fun _ => State.enter_mild h h1)
  exact forAll_mild h (fun _ _ => State.logCancel_mild h (h.refl _)) h2

theorem State.latchLimitedAs_mild (h : Mild R) {r0 : State} {key code inst : Half} {data : Int} {s : State} (hs : R r0
    s) : R r0 (State.latchLimitedAs key code inst data s) := by
  unfold State.latchLimitedAs
  repeat' (first
    | with_reducible (first
        | assumption | refine ite_mild (fun _ => ?_) (fun _ => ?_) | refine State.latch_mild h ?_
        | refine State.modFlt_mild h ?_ ?_ | exact h.refl _ | change R _ (ite _ _ _))
    | exact fun _ => rfl | exact fun _ => ⟨rfl, rfl, rfl⟩ | (intro _; split <;> rfl) | split
    | exact h.trans hs (h.other rfl rfl rfl rfl rfl rfl))

theorem State.latchLimited_mild (h : Mild R) {r0 : State} {code inst : Half} {data : Int} {s : State} (hs : R r0 s) :
    R r0 (State.latchLimited code inst data s) := by
  unfold State.latchLimited
  repeat' (first
    | with_reducible (first
        | assumption | refine State.latchLimitedAs_mild h ?_ | exact h.refl _ | change R _ (ite _ _ _))
    | split | exact h.trans hs (h.other rfl rfl rfl rfl rfl rfl))

theorem State.fbInvalidSets_mild (h : Mild R) {r0 : State} {c : Fin 4} {s : State} (hs : R r0 s) : R r0
    (State.fbInvalidSets c s) := by
  unfold State.fbInvalidSets
  repeat' (first
    | with_reducible (first
        | assumption | refine ite_mild (fun _ => ?_) (fun _ => ?_) | refine forAll_mild h (fun _ _ => ?_) ?_
        | refine State.latch_mild h ?_ | exact h.refl _ | change R _ (ite _ _ _))
    | split | exact h.trans hs (h.other rfl rfl rfl rfl rfl rfl))

theorem State.fbFollow_mild (h : Mild R) {r0 : State} {s : State} (hs : R r0 s) : R r0 (State.fbFollow s) := by
  unfold State.fbFollow
  repeat' (first
    | with_reducible (first
        | assumption | refine ite_mild (fun _ => ?_) (fun _ => ?_) | refine State.fbInvalidSets_mild h ?_
        | refine forAll_mild h (fun _ _ => ?_) ?_ | refine State.modFb_mild h ?_ ?_ | exact h.refl _
        | change R _ (ite _ _ _))
    | exact fun _ => rfl | exact fun _ => ⟨rfl, rfl, rfl⟩ | (intro _; split <;> rfl) | extract_lets | split
    | exact h.trans hs (h.other rfl rfl rfl rfl rfl rfl))

theorem State.settle_mild (h : Mild R) {r0 : State} {s : State} (hs : R r0 s) : R r0 (State.settle s) := by
  unfold State.settle
  repeat' (first
    | with_reducible (first
        | assumption | refine State.answerWaiting_mild h ?_ | refine State.fbFollow_mild h ?_
        | refine State.follow_mild h ?_ | refine State.patternFollow_mild h ?_ | exact h.refl _
        | change R _ (ite _ _ _))
    | split | exact h.trans hs (h.other rfl rfl rfl rfl rfl rfl))

theorem State.fault_mild (h : Mild R) {r0 : State} {code inst : Half} {data : Int} {s : State} (hs : R r0 s) : R r0
    (State.fault code inst data s) := by
  unfold State.fault
  repeat' (first
    | with_reducible (first
        | assumption | refine State.latch_mild h ?_ | refine State.settle_mild h ?_ | exact h.refl _
        | change R _ (ite _ _ _))
    | split | exact h.trans hs (h.other rfl rfl rfl rfl rfl rfl))

theorem State.faultM_mild (h : Mild R) {r0 : State} {code inst : Half} {data : Int} {s : State} (hs : R r0 s) : R r0
    (State.faultM code inst data s) := by
  unfold State.faultM
  repeat' (first
    | with_reducible (first
        | assumption | refine State.enterSafe_mild h ?_ | refine State.reportM_mild h ?_
        | refine State.settle_mild h ?_ | exact h.refl _ | change R _ (ite _ _ _))
    | split | exact h.trans hs (h.other rfl rfl rfl rfl rfl rfl))

end Sys2Proof.Machine
end

