-- ==== Sys2Proof/Laws/Word.lean ====
section
/-! SUPPORT. The four units and the six converters: reading what was written. -/

namespace Sys2Proof

@[simp] theorem Quad.get_set_same {α : Type} (q : Quad α) (n : Fin 4) (a : α) : (q.set n a).get n = a := by
  match n with
  | 0 => rfl
  | 1 => rfl
  | 2 => rfl
  | 3 => rfl

theorem Quad.get_set_ne {α : Type} (q : Quad α) {n m : Fin 4} (a : α) (h : m ≠ n) : (q.set n a).get m = q.get m := by
  match n, m with
  | 0, 0 => exact absurd rfl h
  | 0, 1 => rfl
  | 0, 2 => rfl
  | 0, 3 => rfl
  | 1, 0 => rfl
  | 1, 1 => exact absurd rfl h
  | 1, 2 => rfl
  | 1, 3 => rfl
  | 2, 0 => rfl
  | 2, 1 => rfl
  | 2, 2 => exact absurd rfl h
  | 2, 3 => rfl
  | 3, 0 => rfl
  | 3, 1 => rfl
  | 3, 2 => rfl
  | 3, 3 => exact absurd rfl h

@[simp] theorem Six.get_set_same {α : Type} (q : Six α) (n : Fin 6) (a : α) : (q.set n a).get n = a := by
  match n with
  | 0 => rfl
  | 1 => rfl
  | 2 => rfl
  | 3 => rfl
  | 4 => rfl
  | 5 => rfl

theorem Six.get_set_ne {α : Type} (q : Six α) {n m : Fin 6} (a : α) (h : m ≠ n) : (q.set n a).get m = q.get m := by
  revert h
  match n with
  | 0 => match m with | 0 => exact fun h => absurd rfl h | 1 => exact fun _ => rfl | 2 => exact fun _ => rfl | 3 => exact fun _ => rfl | 4 => exact fun _ => rfl | 5 => exact fun _ => rfl
  | 1 => match m with | 1 => exact fun h => absurd rfl h | 0 => exact fun _ => rfl | 2 => exact fun _ => rfl | 3 => exact fun _ => rfl | 4 => exact fun _ => rfl | 5 => exact fun _ => rfl
  | 2 => match m with | 2 => exact fun h => absurd rfl h | 1 => exact fun _ => rfl | 0 => exact fun _ => rfl | 3 => exact fun _ => rfl | 4 => exact fun _ => rfl | 5 => exact fun _ => rfl
  | 3 => match m with | 3 => exact fun h => absurd rfl h | 1 => exact fun _ => rfl | 2 => exact fun _ => rfl | 0 => exact fun _ => rfl | 4 => exact fun _ => rfl | 5 => exact fun _ => rfl
  | 4 => match m with | 4 => exact fun h => absurd rfl h | 1 => exact fun _ => rfl | 2 => exact fun _ => rfl | 3 => exact fun _ => rfl | 0 => exact fun _ => rfl | 5 => exact fun _ => rfl
  | 5 => match m with | 5 => exact fun h => absurd rfl h | 1 => exact fun _ => rfl | 2 => exact fun _ => rfl | 3 => exact fun _ => rfl | 4 => exact fun _ => rfl | 0 => exact fun _ => rfl

end Sys2Proof
end

