-- ==== Sys2Proof/Laws/Reply.lean ====
section
/-! SUPPORT. What answering a command changes (R140 to R143): its source's buffers, the counts of refused commands, a move's
target, and nothing else; and that an answer stands once its command is gone. -/

namespace Sys2Proof.Machine

open Sys2Proof

/-- Nothing but mailboxes, responses, targets and the counts of refused commands has changed. -/
def Posts (s t : State) : Prop :=
  t.still = s.still ∧ t.flt = s.flt ∧ ∀ a, a ≠ Obj.cmdRefused → a ≠ Obj.cmdLastRefused → t.rd a = s.rd a

theorem posts_refl (s : State) : Posts s s := ⟨rfl, rfl, fun _ _ _ => rfl⟩
theorem posts_trans {s t u : State} (h : Posts s t) (k : Posts t u) : Posts s u :=
  ⟨k.1.trans h.1, k.2.1.trans h.2.1, fun a h1 h2 => (k.2.2 a h1 h2).trans (h.2.2 a h1 h2)⟩

theorem State.wr_posts (s : State) {a : Nat} (v : Int) (ha : a = Obj.cmdRefused ∨ a = Obj.cmdLastRefused) : Posts s (s.wr a v) :=
  ⟨rfl, rfl, fun b h1 h2 => Store.get_set_ne s.objs v (by rcases ha with rfl | rfl <;> assumption)⟩

theorem State.modMb_posts (s : State) (n : Fin 4) (f : Mailbox → Mailbox) (hf : ∀ x, (f x).still = x.still) :
    Posts s (s.modMb n f) := by
  refine ⟨?_, rfl, fun _ _ _ => rfl⟩
  simp only [State.still, State.modMb, Quad.mapIdx_set _ Mailbox.still n _ (hf _)]

theorem State.modConn_posts (s : State) (c : Fin 4) (f : Conn → Conn) (hf : ∀ x, (f x).still = x.still) :
    Posts s (s.modConn c f) := by
  refine ⟨?_, rfl, fun _ _ _ => rfl⟩
  simp only [State.still, State.modConn, State.modNet, Quad.mapIdx_set _ Conn.still c _ (hf _)]

theorem State.modGrp_posts (s : State) (g : Fin 4) (f : GroupSt → GroupSt) (hf : ∀ x, (f x).still = x.still) :
    Posts s (s.modGrp g f) := by
  refine ⟨?_, rfl, fun _ _ _ => rfl⟩
  simp only [State.still, State.modGrp, Quad.mapIdx_set _ GroupSt.still g _ (hf _)]

theorem State.setJob_posts (s : State) (src : Source) (j : Option Job) : Posts s (s.setJob src j) := by
  unfold State.setJob
  split
  · exact State.modMb_posts s _ _ (fun _ => rfl)
  · exact State.modConn_posts s _ _ (fun _ => rfl)

theorem State.placeOut_posts (s : State) (n : Fin 4) (ws : List Word) : Posts s (s.placeOut n ws) :=
  posts_trans (State.modMb_posts s n (fun m => { m with outBuf := ws, outFull := true }) (fun _ => rfl))
    ⟨rfl, rfl, fun _ _ _ => rfl⟩

theorem State.transPlaced_posts (s : State) (src : Source) : Posts s (s.transPlaced src) := by
  unfold State.transPlaced
  split
  · exact ⟨rfl, rfl, fun _ _ _ => rfl⟩
  · exact posts_refl s

theorem State.connSend_posts (s : State) (c : Fin 4) (ws : List Word) : Posts s (s.connSend c ws) := by
  unfold State.connSend
  extract_lets k
  split
  · refine ⟨?_, rfl, fun _ _ _ => rfl⟩
    simp only [State.still, State.modNet,
      Quad.mapIdx_set s.net.conns Conn.still c { k with sent := ws } rfl]
  · exact posts_refl s

theorem State.deliver_posts (s : State) (src : Source) (ws : List Word) : Posts s (s.deliver src ws) := by
  unfold State.deliver
  split
  · split
    · exact State.modMb_posts s _ _ (fun _ => rfl)
    · exact posts_trans (State.placeOut_posts s _ _) (State.transPlaced_posts _ _)
  · exact posts_trans (State.connSend_posts s _ _) (State.transPlaced_posts _ _)

theorem State.answer_posts (s : State) (src : Source) (code tag status : Nat) (ws : List Word) :
    Posts s (s.answer src code tag status ws) := by
  unfold State.answer
  refine posts_trans ?_ (State.deliver_posts _ src _)
  split
  · exact posts_refl s
  · refine posts_trans ?_ (State.wr_posts _ _ (Or.inr rfl))
    unfold State.bump State.bumpTo
    split <;> exact State.wr_posts s _ (Or.inl rfl)

theorem State.respond_posts (s : State) (src : Source) (status : Nat) (ws : List Word) : Posts s (s.respond src status ws) := by
  unfold State.respond
  split
  · exact posts_refl s
  · exact posts_trans (State.setJob_posts s src none) (State.answer_posts _ src _ _ _ _)

theorem State.wait_posts (s : State) (src : Source) : Posts s (s.wait src) := by
  unfold State.wait
  split
  · exact posts_refl s
  · exact State.setJob_posts s src _

theorem State.answerOne_posts (s : State) (src : Source) : Posts s (State.answerOne src s) := by
  unfold State.answerOne
  split
  · exact posts_refl s
  · extract_lets g x
    repeat' split
    all_goals first
      | exact posts_refl s
      | exact State.respond_posts s src _ _
      | (refine posts_trans (State.modGrp_posts s g _ ?_) (State.respond_posts _ src _ _); exact fun _ => rfl)

/-! ## What stands in a source's buffers -/

/-- The executing command of a source and what stands in its buffers. -/
def State.box (s : State) : Source → Option Job × Bool × List Word × Option (List Word)
  | .mb n => ((s.mb.get n).job, (s.mb.get n).outFull, (s.mb.get n).outBuf, (s.mb.get n).respWait)
  | .net c => ((s.net.conns.get c).job, (s.net.conns.get c).open_, (s.net.conns.get c).sent, none)

theorem State.box_job (s : State) (src : Source) : (s.box src).1 = s.jobOf src := by cases src <;> rfl

theorem State.modMb_box (s : State) (n : Fin 4) (f : Mailbox → Mailbox) {src : Source} (h : src ≠ .mb n) :
    (s.modMb n f).box src = s.box src := by
  cases src with
  | mb m =>
    have hm : m ≠ n := fun e => h (by rw [e])
    simp only [State.box, State.modMb, Quad.get_set_ne _ _ hm]
  | net c => rfl

theorem State.modConn_box (s : State) (c : Fin 4) (f : Conn → Conn) {src : Source} (h : src ≠ .net c) :
    (s.modConn c f).box src = s.box src := by
  cases src with
  | mb m => rfl
  | net d =>
    have hm : d ≠ c := fun e => h (by rw [e])
    simp only [State.box, State.modConn, State.modNet, Quad.get_set_ne _ _ hm]

theorem State.setJob_box (s : State) {src src' : Source} (j : Option Job) (h : src ≠ src') : (s.setJob src' j).box src = s.box src := by
  cases src' with
  | mb n => exact State.modMb_box s n _ h
  | net c => exact State.modConn_box s c _ h

theorem State.transPlaced_box (s : State) (src' src : Source) : (s.transPlaced src').box src = s.box src := by
  unfold State.transPlaced
  split
  · cases src <;> rfl
  · rfl

theorem State.connSend_box (s : State) (c : Fin 4) (ws : List Word) {src : Source} (h : src ≠ .net c) :
    (s.connSend c ws).box src = s.box src := by
  unfold State.connSend
  extract_lets k
  split
  · exact State.modConn_box s c (fun _ => { k with sent := ws }) h
  · rfl

theorem State.placeOut_own (s : State) (n : Fin 4) (ws : List Word) :
    (s.placeOut n ws).box (.mb n) = ((s.mb.get n).job, true, ws, (s.mb.get n).respWait) := by
  simp only [State.box, State.placeOut, State.setIrq, State.modMb, Quad.get_set_same]

/-- What a response sent leaves on its connection: it is the last one sent, unless the connection is closed. -/
theorem State.connSend_own (s : State) (c : Fin 4) (ws : List Word) : (s.connSend c ws).box (.net c)
    = ((s.net.conns.get c).job, (s.net.conns.get c).open_, if (s.net.conns.get c).open_ then ws else (s.net.conns.get c).sent, none) := by
  unfold State.connSend
  extract_lets k
  split
  · simp_all [State.box, State.modNet, Quad.get_set_same, k]
  · simp_all [State.box, k]

theorem State.deliver_box (s : State) {src src' : Source} (ws : List Word) (h : src ≠ src') :
    (s.deliver src' ws).box src = s.box src := by
  cases src' with
  | mb n =>
    unfold State.deliver
    dsimp only
    split
    · exact State.modMb_box s n _ h
    · exact (State.transPlaced_box _ _ _).trans (State.modMb_box s n (fun m => { m with outBuf := ws, outFull := true }) h)
  | net c => exact (State.transPlaced_box _ _ _).trans (State.connSend_box s c ws h)

theorem State.bumpTo_box (s : State) (a : Nat) (top : Int) (src : Source) : (s.bumpTo a top).box src = s.box src := by
  unfold State.bumpTo
  split <;> (cases src <;> rfl)

theorem State.answer_box (s : State) {src src' : Source} (code tag status : Nat) (ws : List Word) (h : src ≠ src') :
    (s.answer src' code tag status ws).box src = s.box src := by
  unfold State.answer
  rw [State.deliver_box _ _ h]
  split
  · rfl
  · have : ∀ (x : State) (a : Nat) (v : Int), (x.wr a v).box src = x.box src := fun x a v => by cases src <;> rfl
    rw [this]
    exact State.bumpTo_box s _ _ src

theorem State.respond_box (s : State) {src src' : Source} (status : Nat) (ws : List Word) (h : src ≠ src') :
    (s.respond src' status ws).box src = s.box src := by
  unfold State.respond
  split
  · rfl
  · rw [State.answer_box _ _ _ _ _ h, State.setJob_box _ _ h]

theorem State.modGrp_box (s : State) (g : Fin 4) (f : GroupSt → GroupSt) (src : Source) : (s.modGrp g f).box src = s.box src := by
  cases src <;> rfl

theorem State.answerOne_box (s : State) {src : Source} (src' : Source) (h : s.jobOf src = none) :
    (State.answerOne src' s).box src = s.box src := by
  by_cases e : src = src'
  · subst e
    unfold State.answerOne
    rw [h]
  · unfold State.answerOne
    split
    · rfl
    · extract_lets g x
      repeat' split
      all_goals first
        | rfl
        | exact State.respond_box s _ _ e
        | exact (State.respond_box _ _ _ e).trans (State.modGrp_box s g _ src)

/-- A source with no command executing keeps its buffers through everything the collector does. -/
theorem box_mild (src : Source) : Mild (fun s t => s.jobOf src = none → t.box src = s.box src) where
  refl := fun _ _ => rfl
  trans := fun {s t u} h k x => by
    have h' := h x
    have : t.jobOf src = none := by rw [← State.box_job, h', State.box_job, x]
    rw [k this, h']
  wr := fun s a v _ _ => by cases src <;> rfl
  other := fun {s t} _ _ _ _ hm hn _ => by
    cases src with
    | mb n => simp only [State.box, hm]
    | net c => simp only [State.box, hn]
  cancel := fun s j _ _ => by cases src <;> rfl
  pended := fun s p _ => by cases src <;> rfl
  again := fun s c i _ => by cases src <;> rfl
  reply := fun s src' h => State.answerOne_box s src' h

/-! ## The answer itself -/

theorem State.setJob_jobOf (s : State) (src : Source) (j : Option Job) : (s.setJob src j).jobOf src = j := by
  cases src with
  | mb n => simp only [State.setJob, State.jobOf, State.modMb, Quad.get_set_same]
  | net c => simp only [State.setJob, State.jobOf, State.modConn, State.modNet, Quad.get_set_same]

/-- A response delivered stands in its source's buffers; the source's command is gone. -/
theorem State.respond_answered {s : State} {src : Source} {j : Job} (status : Nat) (ws : List Word) (hj : s.jobOf src = some j) :
    Answered src status j.tag ws s (s.respond src status ws) := by
  unfold State.respond
  rw [hj]
  dsimp only
  have key : ∀ y : State, y.box src = (s.setJob src none).box src →
      Answered src status j.tag ws s (y.deliver src (respWords status j.tag ws)) := by
    intro y hy
    cases src with
    | mb n =>
      have e1 : (y.mb.get n).job = none := by
        have := congrArg (fun b => b.1) hy
        simpa only [State.box, State.setJob, State.modMb, Quad.get_set_same] using this
      have e2 : (y.mb.get n).outFull = (s.mb.get n).outFull := by
        have := congrArg (fun b => b.2.1) hy
        simpa only [State.box, State.setJob, State.modMb, Quad.get_set_same] using this
      unfold State.deliver Answered
      dsimp only
      rw [e2]
      by_cases hf : (s.mb.get n).outFull = true
      · simp only [hf, if_true, State.jobOf, State.modMb, Quad.get_set_same, e1, and_self]
      · simp only [hf, if_false, Bool.false_eq_true]
        have hb := (State.transPlaced_box (y.placeOut n (respWords status j.tag ws)) (.mb n) (.mb n)).trans
          (State.placeOut_own y n (respWords status j.tag ws))
        simp only [State.box, Prod.mk.injEq, e1] at hb
        exact ⟨hb.1, hb.2.1, hb.2.2.1⟩
    | net c =>
      have e1 : (y.net.conns.get c).job = none := by
        have := congrArg (fun b => b.1) hy
        simpa only [State.box, State.setJob, State.modConn, State.modNet, Quad.get_set_same] using this
      have e2 : (y.net.conns.get c).open_ = (s.net.conns.get c).open_ := by
        have := congrArg (fun b => b.2.1) hy
        simpa only [State.box, State.setJob, State.modConn, State.modNet, Quad.get_set_same] using this
      have hb := (State.transPlaced_box (y.connSend c (respWords status j.tag ws)) (.net c) (.net c)).trans
        (State.connSend_own y c (respWords status j.tag ws))
      simp only [State.box, Prod.mk.injEq, e1, e2] at hb
      exact ⟨hb.1, fun ho => by have := hb.2.2.1; rwa [if_pos ho] at this⟩
  unfold State.answer
  refine key _ ?_
  split
  · rfl
  · have : ∀ (x : State) (a : Nat) (v : Int), (x.wr a v).box src = x.box src := fun x a v => by cases src <;> rfl
    rw [this]
    exact State.bumpTo_box _ _ _ src

/-- An answer stands through all that follows. -/
theorem answered_of_box {src : Source} {status tag : Nat} {ws : List Word} {s t u : State} (h : Answered src status tag ws s t)
    (hb : u.box src = t.box src) : Answered src status tag ws s u := by
  have e1 := congrArg (fun b => b.1) hb
  have e2 := congrArg (fun b => b.2.1) hb
  have e3 := congrArg (fun b => b.2.2.1) hb
  have e4 := congrArg (fun b => b.2.2.2) hb
  cases src with
  | mb n =>
    simp only [State.box] at e1 e2 e3 e4
    unfold Answered at *
    simp only [State.jobOf] at *
    rw [e1, e2, e3, e4]
    exact h
  | net c =>
    simp only [State.box] at e1 e2 e3
    unfold Answered at *
    simp only [State.jobOf] at *
    rw [e1, e3]
    exact h

theorem State.settle_answered {src : Source} {status tag : Nat} {ws : List Word} {s t : State} (h : Answered src status tag ws s t) :
    Answered src status tag ws s t.settle :=
  answered_of_box h (State.settle_mild (box_mild src) (fun _ => rfl) h.1)

end Sys2Proof.Machine
end

