-- ==== Sys2Proof/Laws/Quiet.lean ====
section
/-! SUPPORT. What a report and `settle` leave alone, in the words of Safety.lean, and that a real report stays pending. -/

namespace Sys2Proof.Machine

open Sys2Proof

/-! ## `Quiet` -/

theorem quiet_refl (s : State) : Quiet s s := ⟨rfl, fun _ _ => rfl⟩

theorem quiet_trans {s t u : State} (h : Quiet s t) (k : Quiet t u) : Quiet s u :=
  ⟨k.1.trans h.1, fun a ha => (k.2 a ha).trans (h.2 a ha)⟩

theorem State.cancelInj_still (s : State) (l : List Inj) (ps : List Pend) :
    ({ s with flt := { s.flt with inj := l, pend := ps } } : State).still = s.still := rfl

/-- Every operation of the collector is quiet. -/
theorem quiet_mild : Mild Quiet where
  refl := quiet_refl
  trans := quiet_trans
  wr := fun s a v ha => ⟨rfl, fun b hb => by
    unfold State.rd State.wr
    exact Store.get_set_ne s.objs v (fun e => hb (e ▸ ha))⟩
  other := fun {s t} h ho _ _ _ _ => ⟨h, fun a _ => by unfold State.rd; rw [ho]⟩
  cancel := fun s _ _ => ⟨rfl, fun _ _ => rfl⟩
  pended := fun s _ => ⟨rfl, fun _ _ => rfl⟩
  again := fun s _ _ => ⟨rfl, fun _ _ => rfl⟩
  reply := fun s src => by
    have h := State.answerOne_posts s src
    refine ⟨h.1, fun a ha => h.2.2 a (fun e => ha ?_) (fun e => ha ?_)⟩ <;> (subst e; decide)

theorem State.settle_quiet (s : State) : Quiet s s.settle := State.settle_mild quiet_mild (quiet_refl s)
theorem State.latch_quiet (s : State) (code inst : Half) (data : Int) : Quiet s (s.latch code inst data) :=
  State.latch_mild quiet_mild (quiet_refl s)
theorem State.fault_quiet (s : State) (code inst : Half) (data : Int) : Quiet s (s.fault code inst data) :=
  State.fault_mild quiet_mild (quiet_refl s)

/-! ## A pending fault -/

/-- A fault of the code and instance is pending, and no active injection ends it. -/
def Stands (code inst : Half) (s : State) : Prop :=
  ∃ p ∈ s.flt.pend, p.code = code ∧ p.inst = inst ∧ (p.inj = true → ∀ j ∈ s.flt.inj, ¬ (j.code = code ∧ j.inst = inst))

theorem Stands.pending {code inst : Half} {s : State} (h : Stands code inst s) : s.isPending code inst = true := by
  obtain ⟨p, hp, hc, hi, -⟩ := h
  unfold State.isPending
  exact List.any_eq_true.mpr ⟨p, hp, by simp [hc, hi]⟩

/-- No operation of the collector ends a standing fault. -/
theorem stands_mild (code inst : Half) : Mild (fun s t => Stands code inst s → Stands code inst t) where
  refl := fun _ h => h
  trans := fun h k x => k (h x)
  wr := fun _ _ _ _ h => h
  other := fun {s t} _ _ hp hj _ _ h => by unfold Stands at *; rw [hp, hj]; exact h
  cancel := fun s j hc h => by
    obtain ⟨p, hp, h1, h2, h3⟩ := h
    have hk : (p.inj && p.code == j.code && p.inst == j.inst) = false := by
      rcases hc with hc | hc
      · rcases hb : p.inj with _ | _
        · rfl
        · have := h3 hb j hc
          by_cases e1 : j.code = code
          · by_cases e2 : j.inst = inst
            · exact absurd ⟨e1, e2⟩ this
            · simp [h1, h2, Ne.symm e2]
          · simp [h1, Ne.symm e1]
      · exact hc p hp
    refine ⟨p, List.mem_filter.mpr ⟨hp, by rw [hk]; rfl⟩, h1, h2, fun hb j' hj' => h3 hb j' (List.mem_filter.mp hj').1⟩
  pended := fun s q h => by
    obtain ⟨p, hp, h1, h2, h3⟩ := h
    exact ⟨p, List.mem_append_left _ hp, h1, h2, h3⟩
  again := fun s c i h => by
    obtain ⟨p, hp, h1, h2, h3⟩ := h
    by_cases e : (p.code == c && p.inst == i) = true
    · exact ⟨{ p with occ := p.occ + 1 }, List.mem_map.mpr ⟨p, hp, by simp only [e, if_true]⟩, h1, h2, h3⟩
    · exact ⟨p, List.mem_map.mpr ⟨p, hp, by simp only [e, if_false, Bool.false_eq_true]⟩, h1, h2, h3⟩
  reply := fun s src h => by
    unfold Stands
    rw [(State.answerOne_posts s src).2.1]
    exact h

theorem State.endAll_inj {l : List Inj} {s : State} :
    ∀ j ∈ (forAll l State.endInj s).flt.inj, j ∈ s.flt.inj ∧ j ∉ l := by
  unfold forAll
  induction l generalizing s with
  | nil => exact fun j hj => ⟨hj, List.not_mem_nil⟩
  | cons a l ih =>
    intro j hj
    have h := ih j hj
    have h2 : j ∈ s.flt.inj ∧ _ := List.mem_filter.mp h.1
    refine ⟨h2.1, fun hm => ?_⟩
    rcases List.mem_cons.mp hm with rfl | hm
    · simp at h2
    · exact h.2 hm

/-- What decides a code's class: the table's row and the class table's bytes. -/
theorem State.classOf_congr {s t : State} (code : Half) (h : t.blobs = s.blobs) : t.classOf code = s.classOf code := by
  unfold State.classOf State.classTable State.blob
  rw [h]

theorem quiet_blobs {s t : State} (h : Quiet s t) : t.blobs = s.blobs := (congrArg State.blobs h.1 :)
theorem quiet_variant {s t : State} (h : Quiet s t) : t.variant = s.variant := (congrArg State.variant h.1 :)
theorem quiet_power {s t : State} (h : Quiet s t) : t.power = s.power := (congrArg State.power h.1 :)
theorem quiet_tapM {s t : State} (h : Quiet s t) : t.tapM = s.tapM := (congrArg State.tapM h.1 :)
theorem quiet_tapC {s t : State} (h : Quiet s t) : t.tapC = s.tapC := (congrArg State.tapC h.1 :)
theorem quiet_time {s t : State} (h : Quiet s t) : t.time = s.time := (congrArg State.time h.1 :)
theorem quiet_cmd {s t : State} (h : Quiet s t) : t.cmd = s.cmd := (congrArg State.cmd h.1 :)
theorem quiet_trip {s t : State} (h : Quiet s t) : t.trip = s.trip := (congrArg State.trip h.1 :)
theorem quiet_haltC {s t : State} (h : Quiet s t) : t.haltC = s.haltC := (congrArg State.haltC h.1 :)
theorem quiet_haltM {s t : State} (h : Quiet s t) : t.haltM = s.haltM := (congrArg State.haltM h.1 :)
theorem quiet_conv {s t : State} (h : Quiet s t) : t.conv = s.conv := (congrArg State.conv h.1 :)
theorem quiet_acc {s t : State} (h : Quiet s t) : t.acc = s.acc := (congrArg State.acc h.1 :)
theorem quiet_accOld {s t : State} (h : Quiet s t) : t.accOld = s.accOld := (congrArg State.accOld h.1 :)
theorem quiet_hand {s t : State} (h : Quiet s t) : t.hand = s.hand := (congrArg State.hand h.1 :)
theorem quiet_sec {s t : State} (h : Quiet s t) : t.sec = s.sec := (congrArg State.sec h.1 :)
theorem quiet_freeNo {s t : State} (h : Quiet s t) : t.freeNo = s.freeNo := (congrArg State.freeNo h.1 :)
theorem quiet_pending {s t : State} (h : Quiet s t) : t.pending = s.pending := (congrArg State.pending h.1 :)
theorem quiet_boot {s t : State} (h : Quiet s t) :
    { t.boot with stateT := 0, readyT := 0, preSafe := .boot, safeSeen := true, transT := none }
      = { s.boot with stateT := 0, readyT := 0, preSafe := .boot, safeSeen := true, transT := none } :=
  (congrArg State.boot h.1 :)
theorem quiet_host {s t : State} (h : Quiet s t) : { t.host with irqFlags := 0 } = { s.host with irqFlags := 0 } :=
  (congrArg State.host h.1 :)
theorem quiet_flt {s t : State} (h : Quiet s t) : t.flt.still = s.flt.still := (congrArg State.flt h.1 :)
theorem quiet_safety {s t : State} (h : Quiet s t) : t.safety.still = s.safety.still := (congrArg State.safety h.1 :)
theorem quiet_rd {s t : State} (h : Quiet s t) {a : Nat} (ha : a ∉ collectorObjs) : t.rd a = s.rd a := h.2 a ha

/-- A fault entered with a class other than C0 stands. -/
theorem State.enter_stands {s : State} {code inst : Half} {data : Int} {flags : Nat} (hc : (s.classOf code).1 ≠ .c0) :
    Stands code inst (s.enter code inst data flags false) := by
  unfold State.enter
  extract_lets c hard p s1
  rw [if_neg hc]
  have h0 : Stands code inst (s.modFlt (fun f => { f with pend := f.pend ++ [p] })) :=
    ⟨p, List.mem_append_right _ List.mem_cons_self, rfl, rfl, fun h => by cases h⟩
  have h1 : Stands code inst s1 :=
    State.captureFault_mild (stands_mild code inst) (State.emit_mild (stands_mild code inst) (fun h => h)) h0
  split
  · exact State.react_mild (stands_mild code inst) (fun h => h) h1
  · exact h1

/-- A real report that the module can raise, of a class other than C0, stands. -/
theorem State.latch_stands {s : State} {code inst : Half} {data : Int} (hr : s.raisable code inst = true)
    (hc : (s.classOf code).1 ≠ .c0) : Stands code inst (s.latch code inst data) := by
  unfold State.latch
  rw [if_neg (by rw [hr]; exact Bool.false_ne_true)]
  extract_lets co s1 s2
  have hq : Quiet s s1 :=
    State.endAll_mild quiet_mild (fun j hj => Or.inl (List.mem_filter.mp hj).1) (quiet_refl s)
  refine forAll_mild (stands_mild code inst) (fun _ _ => State.logCancel_mild (stands_mild code inst) (fun h => h))
    (fun h => h) (?_ : Stands code inst s2)
  have hi : ∀ j ∈ s1.flt.inj, ¬ (j.code = code ∧ j.inst = inst) := by
    intro j hj hm
    have hco : j ∈ s.flt.inj → j ∈ co := fun h => List.mem_filter.mpr ⟨h, by
      unfold State.coincides
      simp [hm.1, hm.2]⟩
    have := State.endAll_inj j hj
    exact this.2 (hco this.1)
  show Stands code inst (ite _ _ _)
  split
  · rename_i hp
    unfold State.isPending at hp
    obtain ⟨p, hp, hpc⟩ := List.any_eq_true.mp hp
    have hpc' : p.code = code ∧ p.inst = inst := by simpa using hpc
    exact ⟨{ p with occ := p.occ + 1 }, List.mem_map.mpr ⟨p, hp, by simp only [hpc, if_true]⟩, hpc'.1, hpc'.2,
      fun _ j hj => hi j hj⟩
  · exact State.enter_stands (by rw [State.classOf_congr code (quiet_blobs hq)]; exact hc)

/-- The same with all that follows from it. -/
theorem State.fault_pending {s : State} {code inst : Half} {data : Int} (hr : s.raisable code inst = true)
    (hc : (s.classOf code).1 ≠ .c0) : (s.fault code inst data).isPending code inst = true :=
  (State.settle_mild (stands_mild code inst) (fun h => h) (State.latch_stands hr hc)).pending

/-! ## Commands that end so -/

theorem settles_of {c : Instr} {s u : State} (h : exec c s = .next u.settle) : Settles c s u :=
  ⟨_, h, u.settle_quiet, trivial⟩

/-- The same with a property that what follows leaves alone. -/
theorem leads_of {c : Instr} {s u : State} {P : State → Prop} (h : exec c s = .next u.settle) (hp : ∀ t, Quiet u t → P t) :
    LeadsTo c s u P := ⟨_, h, u.settle_quiet, hp _ u.settle_quiet⟩

theorem reports_of {c : Instr} {s u : State} {code inst : Half} {data : Int} (h : exec c s = .next (u.fault code inst data)) :
    Reports c s u code inst :=
  ⟨_, h, u.fault_quiet code inst data, fun hr hc => State.fault_pending hr hc⟩

/-- A command that its source is answered for. -/
theorem answers_of {c : Instr} {s u x : State} {src : Source} {j : Job} {status : Nat} {ws : List Word}
    (h : exec c s = .next (u.respond src status ws).settle) (hj : u.jobOf src = some j)
    (ha : ∀ t, Answered src status j.tag ws u t → Answered src status j.tag ws x t) :
    LeadsTo c s u (Answered src status j.tag ws x) :=
  ⟨_, h, quiet_trans (quiet_trans (quiet_refl u) ⟨(State.respond_posts u src status ws).1, fun a ha' =>
      (State.respond_posts u src status ws).2.2 a (fun e => ha' (by subst e; decide)) (fun e => ha' (by subst e; decide))⟩)
    (State.settle_quiet _), ha _ (State.settle_answered (State.respond_answered status ws hj))⟩

end Sys2Proof.Machine
end

