-- ==== Sys2Proof/Laws/Eval.lean ====
section
/-! SUPPORT. What the evaluation of the safety functions changes (R379 to R393): its own fields, `PT_AGE`, `DISC_MAX`, and what
the collector changes. -/

namespace Sys2Proof.Machine

open Sys2Proof

/-- A relation every operation of the collector keeps, and every change of the safety functions' own fields. -/
structure Evals (R : State → State → Prop) : Prop extends Mild R where
  safety : ∀ (s : State) (f : SafetySt → SafetySt), R s (s.modSafety f)
  ptAge : ∀ (s : State) (v : Int), R s (s.wr Obj.ptAge v)
  discMax : ∀ (s : State) (v : Int), R s (s.wr Obj.discMax v)

variable {R : State → State → Prop}

theorem State.setStoIn_evals (h : Evals R) {r s : State} (ch : Chan) (b : Bool) (hs : R r s) : R r (State.setStoIn ch b s) := by
  unfold State.setStoIn
  cases ch <;> exact h.trans hs (h.safety s _)
theorem State.setGuardOpen_evals (h : Evals R) {r s : State} (ch : Chan) (b : Bool) (hs : R r s) :
    R r (State.setGuardOpen ch b s) := by
  unfold State.setGuardOpen
  cases ch <;> exact h.trans hs (h.safety s _)

theorem State.stoEval_evals (h : Evals R) {r s : State} (ch : Chan) (hs : R r s) : R r (State.stoEval ch s) := by
  unfold State.stoEval
  refine ite_mild (fun _ => ?_) (fun _ => ite_mild (fun _ => State.setStoIn_evals h ch false hs) (fun _ => hs))
  have h1 := State.setStoIn_evals h ch true hs
  exact ite_mild (fun _ => State.ss1Start_mild h.toMild (State.safetyReport_mild h.toMild h1))
    (fun _ => State.demandSto_mild h.toMild (State.safetyReport_mild h.toMild h1))

theorem State.guardEval_evals (h : Evals R) {r s : State} (ch : Chan) (hs : R r s) : R r (State.guardEval ch s) := by
  unfold State.guardEval
  refine ite_mild (fun _ => State.setGuardOpen_evals h ch false hs) (fun _ => ite_mild (fun _ => ?_) (fun _ =>
    ite_mild (fun _ => State.setGuardOpen_evals h ch false hs) (fun _ => hs)))
  have h1 : R r ((s.setGuardOpen ch true).safetyReport ch 4) :=
    State.safetyReport_mild h.toMild (State.setGuardOpen_evals h ch true hs)
  exact ite_mild (fun _ => State.ss1Start_mild h.toMild (State.safetyReport_mild h.toMild h1))
    (fun _ => State.demandSto_mild h.toMild (State.safetyReport_mild h.toMild h1))

theorem State.stoEnd_evals (h : Evals R) {r s : State} (ch : Chan) (hs : R r s) : R r (State.stoEnd ch s) := by
  unfold State.stoEnd
  extract_lets held s1
  refine ite_mild (fun _ => ?_) (fun _ => hs)
  have h1 : R r s1 := by cases ch <;> exact h.trans hs (h.safety s _)
  exact ite_mild (fun _ => h.trans (h.trans h1 (h.ptAge s1 0)) (h.safety _ _)) (fun _ => h1)

theorem State.guardTest_evals (h : Evals R) {r s : State} (hs : R r s) : R r s.guardTest := by
  unfold State.guardTest
  extract_lets f lim near pairs lows highs
  exact ite_mild (fun _ => hs) (fun _ => ite_mild (fun _ => h.trans hs (h.safety s _)) (fun _ =>
    ite_mild (fun _ => h.trans hs (h.safety s _)) (fun _ => hs)))

theorem State.safetyEval_evals (h : Evals R) {r s : State} (hs : R r s) : R r s.safetyEval := by
  unfold State.safetyEval
  exact ite_mild (fun _ => hs) (fun _ => State.guardTest_evals h (State.stoEnd_evals h _ (State.stoEnd_evals h _
    (State.guardEval_evals h _ (State.guardEval_evals h _ (State.stoEval_evals h _ (State.stoEval_evals h _ hs)))))))

theorem State.discStep_evals (h : Evals R) {r s : State} (ch : Chan) (hs : R r s) : R r (State.discStep ch s) := by
  unfold State.discStep
  extract_lets since differ s1 now
  have h1 : R r s1 := by
    show R r (match since with | some t0 => _ | none => s)
    cases since with
    | none => exact hs
    | some t0 => exact ite_mild (fun _ => h.trans hs (h.discMax s _)) (fun _ => hs)
  cases ch <;> exact h.trans h1 (h.safety s1 _)

theorem watched_evals : Evals Watched where
  refl := fun _ => ⟨rfl, fun _ _ => rfl⟩
  trans := fun h k => ⟨k.1.trans h.1, fun a ha => (k.2 a ha).trans (h.2 a ha)⟩
  wr := fun s a v ha => ⟨rfl, fun b hb => Store.get_set_ne s.objs v (fun e => hb (by
    subst e; exact List.mem_cons_of_mem _ (List.mem_cons_of_mem _ ha)))⟩
  other := fun {s t} h ho _ _ _ _ => ⟨(congrArg (fun x => { x with safety := {} }) h :), fun a _ => State.rd_congr ho a⟩
  cancel := fun _ _ _ => ⟨rfl, fun _ _ => rfl⟩
  pended := fun _ _ => ⟨rfl, fun _ _ => rfl⟩
  again := fun _ _ _ => ⟨rfl, fun _ _ => rfl⟩
  reply := fun s src => by
    have h := State.answerOne_posts s src
    refine ⟨(congrArg (fun x => { x with safety := {} }) h.1 :), fun a ha => h.2.2 a (fun e => ha ?_) (fun e => ha ?_)⟩ <;>
      (subst e; decide)
  safety := fun _ _ => ⟨rfl, fun _ _ => rfl⟩
  ptAge := fun s v => ⟨rfl, fun b hb => Store.get_set_ne s.objs v (fun e => hb (by subst e; decide))⟩
  discMax := fun s v => ⟨rfl, fun b hb => Store.get_set_ne s.objs v (fun e => hb (by subst e; decide))⟩

/-- `Quiet` says more than `Watched`. -/
theorem watched_of_quiet {s t : State} (h : Quiet s t) : Watched s t :=
  ⟨(congrArg (fun x => { x with safety := {} }) h.1 :), fun a ha => h.2 a (fun e => ha
    (List.mem_cons_of_mem _ (List.mem_cons_of_mem _ e)))⟩

end Sys2Proof.Machine
end

