-- ==== Sys2Proof/Laws/Frame.lean ====
section
/-! SUPPORT. The frame of every operation: what holds of two states across each elementary update holds across each
operation and each command. -/

namespace Sys2Proof.Machine

/-- A relation of two states that the elementary updates of the model keep: an object written, the objects a reset does
not keep dropped, or a change that leaves the objects, the variant and the queue as they are, the clock not set back and
`ROLLBACK_CTR` not lowered. -/
structure Frame (R : State → State → Prop) : Prop where
  refl : ∀ s, R s s
  trans : ∀ {s t u}, R s t → R t u → R s u
  wr : ∀ s a v, R s (s.wr a v)
  keep : ∀ s : State, R s { s with objs := s.objs.keep }
  other : ∀ {s t : State}, t.objs = s.objs → t.variant = s.variant → t.pending = s.pending → s.time.now ≤ t.time.now →
    s.sec.rollback ≤ t.sec.rollback → R s t

/-- What a command answers lands in a set of states. -/
def Lands (P : State → Prop) : Host.Outcome State Fault Refusal → Prop
  | .next t => P t
  | .fault _ => True
  | .refused _ => True

theorem lands_next {P : State → Prop} {t : State} (h : P t) : Lands P (.next t) := h

variable {R : State → State → Prop}

theorem Frame.wrStep (h : Frame R) {r0 s : State} {a : Nat} {v : Int} (hs : R r0 s) : R r0 (s.wr a v) := h.trans hs (h.wr s a v)

theorem ite_frame {c : Prop} [Decidable c] {r0 a b : State} (ha : c → R r0 a) (hb : ¬c → R r0 b) : R r0 (if c then a else b) := by
  split
  · exact ha ‹_›
  · exact hb ‹_›

theorem ite_lands {P : State → Prop} {c : Prop} [Decidable c] {a b : Host.Outcome State Fault Refusal}
    (ha : c → Lands P a) (hb : ¬c → Lands P b) : Lands P (if c then a else b) := by
  split
  · exact ha ‹_›
  · exact hb ‹_›

theorem forAll_frame (h : Frame R) {α : Type} {l : List α} {f : α → State → State} {r0 s : State} (hf : ∀ a x, R x (f a x))
    (hs : R r0 s) : R r0 (forAll l f s) := by
  unfold forAll
  induction l generalizing s with
  | nil => exact hs
  | cons a l ih => exact ih (h.trans hs (hf a s))

end Sys2Proof.Machine
end

