-- ==== Sys2Proof/Laws/FrameOps.lean ====
section
/-! SUPPORT. What every operation of Machine/Ops.lean keeps: the frame lemmas. -/

set_option linter.unreachableTactic false
set_option linter.unusedTactic false

namespace Sys2Proof.Machine

variable {R : State → State → Prop}

theorem State.wrs_frame (h : Frame R) {r0 s : State} {ws : List (Nat × Int)} (hs : R r0 s) : R r0 (State.wrs s ws) := by
  unfold State.wrs
  induction ws generalizing s with
  | nil => exact hs
  | cons a l ih => exact ih (h.wrStep hs)

theorem State.bumpTo_frame (h : Frame R) {r0 : State} {s : State} {a : Nat} {top : Int} (hs : R r0 s) : R r0
    (State.bumpTo s a top) := by
  unfold State.bumpTo
  repeat' with_reducible (first
    | assumption | refine ite_frame (fun _ => ?_) (fun _ => ?_) | refine h.wrStep ?_)

theorem State.bump_frame (h : Frame R) {r0 : State} {s : State} {a : Nat} (hs : R r0 s) : R r0 (State.bump s a) := by
  unfold State.bump
  repeat' with_reducible (first
    | assumption | refine State.bumpTo_frame h ?_)

theorem State.bumpWrap_frame (h : Frame R) {r0 : State} {s : State} {a : Nat} (hs : R r0 s) : R r0 (State.bumpWrap s
    a) := by
  unfold State.bumpWrap
  repeat' with_reducible (first
    | assumption | refine h.wrStep ?_)

theorem State.bumpOpen_frame (h : Frame R) {r0 : State} {s : State} {a : Nat} (hs : R r0 s) : R r0 (State.bumpOpen s
    a) := by
  unfold State.bumpOpen
  repeat' with_reducible (first
    | assumption | refine ite_frame (fun _ => ?_) (fun _ => ?_) | refine h.wrStep ?_)

theorem State.clear_frame (h : Frame R) {r0 s : State} {as : List Nat} (hs : R r0 s) : R r0 (State.clear s as) := by
  unfold State.clear
  induction as generalizing s with
  | nil => exact hs
  | cons a l ih => exact ih (h.wrStep hs)

theorem State.wrBit_frame (h : Frame R) {r0 : State} {s : State} {a i : Nat} {b : Bool} (hs : R r0 s) : R r0
    (State.wrBit s a i b) := by
  unfold State.wrBit
  repeat' with_reducible (first
    | assumption | refine h.wrStep ?_)

theorem State.setBlob_frame (h : Frame R) {r0 : State} {s : State} {a : Nat} {b : List Byte} (hs : R r0 s) : R r0
    (State.setBlob s a b) := by
  unfold State.setBlob
  repeat' (first
    | with_reducible (first
        | assumption | exact h.refl _)
    | exact h.trans hs (h.other rfl rfl rfl (Nat.le_refl _) (Nat.le_refl _)))

theorem State.modLoaf_frame (h : Frame R) {r0 : State} {s : State} {n : Fin 4} {f : LoafSt → LoafSt} (hs : R r0 s) : R
    r0 (State.modLoaf s n f) := by
  unfold State.modLoaf
  repeat' (first
    | with_reducible (first
        | assumption)
    | exact h.trans hs (h.other rfl rfl rfl (Nat.le_refl _) (Nat.le_refl _)))

theorem State.modGrp_frame (h : Frame R) {r0 : State} {s : State} {g : Fin 4} {f : GroupSt → GroupSt} (hs : R r0 s) :
    R r0 (State.modGrp s g f) := by
  unfold State.modGrp
  repeat' (first
    | with_reducible (first
        | assumption)
    | exact h.trans hs (h.other rfl rfl rfl (Nat.le_refl _) (Nat.le_refl _)))

theorem State.modFb_frame (h : Frame R) {r0 : State} {s : State} {n : Fin 4} {f : FbSt → FbSt} (hs : R r0 s) : R r0
    (State.modFb s n f) := by
  unfold State.modFb
  repeat' (first
    | with_reducible (first
        | assumption)
    | exact h.trans hs (h.other rfl rfl rfl (Nat.le_refl _) (Nat.le_refl _)))

theorem State.modOven_frame (h : Frame R) {r0 : State} {s : State} {n : Fin 4} {f : OvenSt → OvenSt} (hs : R r0 s) : R
    r0 (State.modOven s n f) := by
  unfold State.modOven
  repeat' (first
    | with_reducible (first
        | assumption)
    | exact h.trans hs (h.other rfl rfl rfl (Nat.le_refl _) (Nat.le_refl _)))

theorem State.modConv_frame (h : Frame R) {r0 : State} {s : State} {k : Fin 6} {f : ConvSt → ConvSt} (hs : R r0 s) : R
    r0 (State.modConv s k f) := by
  unfold State.modConv
  repeat' (first
    | with_reducible (first
        | assumption)
    | exact h.trans hs (h.other rfl rfl rfl (Nat.le_refl _) (Nat.le_refl _)))

theorem State.modMb_frame (h : Frame R) {r0 : State} {s : State} {n : Fin 4} {f : Mailbox → Mailbox} (hs : R r0 s) : R
    r0 (State.modMb s n f) := by
  unfold State.modMb
  repeat' (first
    | with_reducible (first
        | assumption)
    | exact h.trans hs (h.other rfl rfl rfl (Nat.le_refl _) (Nat.le_refl _)))

theorem State.modFlt_frame (h : Frame R) {r0 : State} {s : State} {f : FaultSt → FaultSt} (hs : R r0 s) : R r0
    (State.modFlt s f) := by
  unfold State.modFlt
  repeat' (first
    | with_reducible (first
        | assumption)
    | exact h.trans hs (h.other rfl rfl rfl (Nat.le_refl _) (Nat.le_refl _)))

theorem State.modSafety_frame (h : Frame R) {r0 : State} {s : State} {f : SafetySt → SafetySt} (hs : R r0 s) : R r0
    (State.modSafety s f) := by
  unfold State.modSafety
  repeat' (first
    | with_reducible (first
        | assumption)
    | exact h.trans hs (h.other rfl rfl rfl (Nat.le_refl _) (Nat.le_refl _)))

theorem State.modPower_frame (h : Frame R) {r0 : State} {s : State} {f : PowerSt → PowerSt} (hs : R r0 s) : R r0
    (State.modPower s f) := by
  unfold State.modPower
  repeat' (first
    | with_reducible (first
        | assumption)
    | exact h.trans hs (h.other rfl rfl rfl (Nat.le_refl _) (Nat.le_refl _)))

theorem State.modBoot_frame (h : Frame R) {r0 : State} {s : State} {f : BootSt → BootSt} (hs : R r0 s) : R r0
    (State.modBoot s f) := by
  unfold State.modBoot
  repeat' (first
    | with_reducible (first
        | assumption)
    | exact h.trans hs (h.other rfl rfl rfl (Nat.le_refl _) (Nat.le_refl _)))

theorem State.modTime_frame (h : Frame R) {r0 s : State} {f : TimeSt → TimeSt} (hf : s.time.now ≤ (f s.time).now) (hs : R r0 s) :
    R r0 (State.modTime s f) := h.trans hs (h.other rfl rfl rfl hf (Nat.le_refl _))

theorem State.modHost_frame (h : Frame R) {r0 : State} {s : State} {f : HostSt → HostSt} (hs : R r0 s) : R r0
    (State.modHost s f) := by
  unfold State.modHost
  repeat' (first
    | with_reducible (first
        | assumption)
    | exact h.trans hs (h.other rfl rfl rfl (Nat.le_refl _) (Nat.le_refl _)))

theorem State.modCmd_frame (h : Frame R) {r0 : State} {s : State} {f : CmdSt → CmdSt} (hs : R r0 s) : R r0
    (State.modCmd s f) := by
  unfold State.modCmd
  repeat' (first
    | with_reducible (first
        | assumption)
    | exact h.trans hs (h.other rfl rfl rfl (Nat.le_refl _) (Nat.le_refl _)))

theorem State.modNet_frame (h : Frame R) {r0 : State} {s : State} {f : NetSt → NetSt} (hs : R r0 s) : R r0
    (State.modNet s f) := by
  unfold State.modNet
  repeat' (first
    | with_reducible (first
        | assumption)
    | exact h.trans hs (h.other rfl rfl rfl (Nat.le_refl _) (Nat.le_refl _)))

theorem State.modPp_frame (h : Frame R) {r0 : State} {s : State} {f : PpSt → PpSt} (hs : R r0 s) : R r0 (State.modPp s
    f) := by
  unfold State.modPp
  repeat' (first
    | with_reducible (first
        | assumption)
    | exact h.trans hs (h.other rfl rfl rfl (Nat.le_refl _) (Nat.le_refl _)))

theorem State.modPair_frame (h : Frame R) {r0 : State} {s : State} {f : PairSt → PairSt} (hs : R r0 s) : R r0
    (State.modPair s f) := by
  unfold State.modPair
  repeat' (first
    | with_reducible (first
        | assumption)
    | exact h.trans hs (h.other rfl rfl rfl (Nat.le_refl _) (Nat.le_refl _)))

theorem State.modSec_frame (h : Frame R) {r0 s : State} {f : SecSt → SecSt} (hf : s.sec.rollback ≤ (f s.sec).rollback) (hs : R r0 s) :
    R r0 (State.modSec s f) := h.trans hs (h.other rfl rfl rfl (Nat.le_refl _) hf)

theorem State.modCap_frame (h : Frame R) {r0 : State} {s : State} {f : CapSt → CapSt} (hs : R r0 s) : R r0
    (State.modCap s f) := by
  unfold State.modCap
  repeat' (first
    | with_reducible (first
        | assumption)
    | exact h.trans hs (h.other rfl rfl rfl (Nat.le_refl _) (Nat.le_refl _)))

theorem State.setAcc_frame (h : Frame R) {r0 : State} {s : State} {l : List Acc} (hs : R r0 s) : R r0 (State.setAcc s
    l) := by
  unfold State.setAcc
  repeat' (first
    | with_reducible (first
        | assumption)
    | exact h.trans hs (h.other rfl rfl rfl (Nat.le_refl _) (Nat.le_refl _)))

theorem State.setAccOld_frame (h : Frame R) {r0 : State} {s : State} {l : List Acc} (hs : R r0 s) : R r0
    (State.setAccOld s l) := by
  unfold State.setAccOld
  repeat' (first
    | with_reducible (first
        | assumption)
    | exact h.trans hs (h.other rfl rfl rfl (Nat.le_refl _) (Nat.le_refl _)))

theorem State.setHand_frame (hF : Frame R) {r0 s : State} {n : Fin 4} {h : Handoff} (hs : R r0 s) : R r0 (State.setHand s n h) :=
  hF.trans hs (hF.other rfl rfl rfl (Nat.le_refl _) (Nat.le_refl _))

theorem State.drew_frame (h : Frame R) {r0 : State} {s : State} (hs : R r0 s) : R r0 (State.drew s) := by
  unfold State.drew
  repeat' (first
    | with_reducible (first
        | assumption)
    | exact h.trans hs (h.other rfl rfl rfl (Nat.le_refl _) (Nat.le_refl _)))

theorem State.setIrq_frame (h : Frame R) {r0 : State} {s : State} {i : Nat} (hs : R r0 s) : R r0 (State.setIrq s i) :=
    by
  unfold State.setIrq
  repeat' (first
    | with_reducible (first
        | assumption)
    | exact h.trans hs (h.other rfl rfl rfl (Nat.le_refl _) (Nat.le_refl _)))

theorem State.clrIrq_frame (h : Frame R) {r0 : State} {s : State} {i : Nat} (hs : R r0 s) : R r0 (State.clrIrq s i) :=
    by
  unfold State.clrIrq
  repeat' (first
    | with_reducible (first
        | assumption)
    | exact h.trans hs (h.other rfl rfl rfl (Nat.le_refl _) (Nat.le_refl _)))

theorem State.atT_frame (h : Frame R) {r0 s : State} {t : Nat} (hs : R r0 s) : R r0 (State.atT s t) := by
  unfold State.atT
  split
  · exact hs
  · exact h.trans hs (h.other rfl rfl rfl (by simp only; omega) (Nat.le_refl _))

theorem State.ppEarly_frame (h : Frame R) {r0 : State} {s : State} {cause : Nat} (hs : R r0 s) : R r0 (State.ppEarly s
    cause) := by
  unfold State.ppEarly
  repeat' with_reducible (first
    | assumption | refine ite_frame (fun _ => ?_) (fun _ => ?_) | refine State.modPp_frame h ?_ | exact h.refl _)

theorem State.setMode_frame (h : Frame R) {r0 : State} {s : State} {m : ModState} (hs : R r0 s) : R r0 (State.setMode
    s m) := by
  unfold State.setMode
  repeat' (first
    | with_reducible (first
        | assumption | refine ite_frame (fun _ => ?_) (fun _ => ?_) | refine h.wrStep ?_
        | refine State.ppEarly_frame h ?_ | refine State.setIrq_frame h ?_ | exact h.refl _)
    | extract_lets | split | exact h.trans hs (h.other rfl rfl rfl (Nat.le_refl _) (Nat.le_refl _)))

end Sys2Proof.Machine
end

