-- ==== Sys2Proof/Laws/FrameMirror.lean ====
section
/-! SUPPORT. What every operation of Machine/Mirror.lean keeps: the frame lemmas. -/

set_option linter.unreachableTactic false
set_option linter.unusedTactic false

namespace Sys2Proof.Machine

variable {R : State → State → Prop}

theorem State.mirrorSend_frame (h : Frame R) {r0 : State} {s : State} {frame : List Byte} (hs : R r0 s) : R r0
    (State.mirrorSend s frame) := by
  unfold State.mirrorSend
  repeat' (first
    | with_reducible (first
        | assumption)
    | exact h.trans hs (h.other rfl rfl rfl (Nat.le_refl _) (Nat.le_refl _)))

theorem State.releaseRole_frame (h : Frame R) {r0 : State} {s : State} {takeover : Bool} (hs : R r0 s) : R r0
    (State.releaseRole s takeover) := by
  unfold State.releaseRole
  repeat' (first
    | with_reducible (first
        | assumption | refine ite_frame (fun _ => ?_) (fun _ => ?_) | refine State.mirrorSend_frame h ?_
        | exact h.refl _)
    | extract_lets | split | exact h.trans hs (h.other rfl rfl rfl (Nat.le_refl _) (Nat.le_refl _)))

end Sys2Proof.Machine
end

