-- ==== Sys2Proof/Laws/FrameOperands.lean ====
section
/-! SUPPORT. What every operation of Machine/Operands.lean keeps: the frame lemmas. -/

set_option linter.unreachableTactic false
set_option linter.unusedTactic false

namespace Sys2Proof.Machine

variable {R : State → State → Prop}

theorem State.enqueue_frame (h : Frame R) {r0 : State} {r : Region} {src : Nat} {p : Packet} {s : State} (hs : R r0 s)
    : R r0 (State.enqueue r src p s) := by
  unfold State.enqueue
  repeat' (first
    | with_reducible (first
        | assumption)
    | split | exact h.trans hs (h.other rfl rfl rfl (Nat.le_refl _) (Nat.le_refl _)))

theorem State.carry_frame (h : Frame R) {r0 : State} {src : Nat} {p : Packet} {s : State} (hs : R r0 s) :
    R r0 (State.carry src p s) :=
  State.enqueue_frame h (h.trans hs (h.other rfl rfl rfl (Nat.le_refl _) (Nat.le_refl _)))

theorem State.unlessCarried_frame (h : Frame R) {r0 : State} {p : Packet} {f : State → State} (hf : ∀ x, R x (f x)) {s : State}
    (hs : R r0 s) : R r0 (State.unlessCarried p f s) := by
  unfold State.unlessCarried
  split
  · exact h.trans hs (h.other rfl rfl rfl (Nat.le_refl _) (Nat.le_refl _))
  · exact h.trans hs (hf s)

end Sys2Proof.Machine
end

