-- ==== Sys2Proof/Laws/FrameReply.lean ====
section
/-! SUPPORT. What every operation of Machine/Reply.lean keeps: the frame lemmas. -/

set_option linter.unreachableTactic false
set_option linter.unusedTactic false

namespace Sys2Proof.Machine

variable {R : State → State → Prop}

theorem State.modConn_frame (h : Frame R) {r0 : State} {s : State} {c : Fin 4} {f : Conn → Conn} (hs : R r0 s) : R r0
    (State.modConn s c f) := by
  unfold State.modConn
  repeat' with_reducible (first
    | assumption | refine State.modNet_frame h ?_ | exact h.refl _)

theorem State.setJob_frame (h : Frame R) {r0 : State} {src : Source} {j : Option Job} {s : State} (hs : R r0 s) : R r0
    (State.setJob src j s) := by
  unfold State.setJob
  repeat' (first
    | with_reducible (first
        | assumption | refine State.modConn_frame h ?_ | refine State.modMb_frame h ?_ | exact h.refl _)
    | split)

theorem State.placeOut_frame (h : Frame R) {r0 : State} {n : Fin 4} {ws : List Word} {s : State} (hs : R r0 s) : R r0
    (State.placeOut n ws s) := by
  unfold State.placeOut
  repeat' with_reducible (first
    | assumption | refine State.modMb_frame h ?_ | refine State.setIrq_frame h ?_ | exact h.refl _)

theorem State.transPlaced_frame (h : Frame R) {r0 : State} {src : Source} {s : State} (hs : R r0 s) : R r0
    (State.transPlaced src s) := by
  unfold State.transPlaced
  repeat' with_reducible (first
    | assumption | refine ite_frame (fun _ => ?_) (fun _ => ?_) | refine State.modBoot_frame h ?_ | exact h.refl _)

theorem State.connSend_frame (h : Frame R) {r0 : State} {c : Fin 4} {ws : List Word} {s : State} (hs : R r0 s) : R r0
    (State.connSend c ws s) := by
  unfold State.connSend
  repeat' (first
    | with_reducible (first
        | assumption | refine ite_frame (fun _ => ?_) (fun _ => ?_) | refine State.modNet_frame h ?_ | exact h.refl _)
    | extract_lets)

theorem State.deliver_frame (h : Frame R) {r0 : State} {src : Source} {ws : List Word} {s : State} (hs : R r0 s) : R
    r0 (State.deliver src ws s) := by
  unfold State.deliver
  repeat' (first
    | with_reducible (first
        | assumption | refine ite_frame (fun _ => ?_) (fun _ => ?_) | refine State.connSend_frame h ?_
        | refine State.modMb_frame h ?_ | refine State.placeOut_frame h ?_ | refine State.transPlaced_frame h ?_
        | exact h.refl _)
    | split)

theorem State.answer_frame (h : Frame R) {r0 : State} {src : Source} {code tag status : Nat} {ws : List Word} {s :
    State} (hs : R r0 s) : R r0 (State.answer src code tag status ws s) := by
  unfold State.answer
  repeat' with_reducible (first
    | assumption | refine ite_frame (fun _ => ?_) (fun _ => ?_) | refine h.wrStep ?_ | refine State.bump_frame h ?_
    | refine State.deliver_frame h ?_)

theorem State.respond_frame (h : Frame R) {r0 : State} {src : Source} {status : Nat} {ws : List Word} {s : State} (hs
    : R r0 s) : R r0 (State.respond src status ws s) := by
  unfold State.respond
  repeat' (first
    | with_reducible (first
        | assumption | refine State.answer_frame h ?_ | refine State.setJob_frame h ?_)
    | split)

theorem State.wait_frame (h : Frame R) {r0 : State} {src : Source} {s : State} (hs : R r0 s) : R r0 (State.wait src s)
    := by
  unfold State.wait
  repeat' (first
    | with_reducible (first
        | assumption | refine State.setJob_frame h ?_)
    | split)

theorem State.answerOne_frame (h : Frame R) {r0 : State} {src : Source} {s : State} (hs : R r0 s) : R r0
    (State.answerOne src s) := by
  unfold State.answerOne
  repeat' (first
    | with_reducible (first
        | assumption | refine ite_frame (fun _ => ?_) (fun _ => ?_) | refine State.modGrp_frame h ?_
        | refine State.respond_frame h ?_ | exact h.refl _)
    | extract_lets | split)

theorem State.answerWaiting_frame (h : Frame R) {r0 : State} {s : State} (hs : R r0 s) : R r0 (State.answerWaiting s)
    := by
  unfold State.answerWaiting
  repeat' with_reducible (first
    | assumption | refine State.answerOne_frame h ?_ | refine forAll_frame h (fun _ _ => ?_) ?_ | exact h.refl _)

end Sys2Proof.Machine
end

