-- ==== Sys2Proof/Laws/FrameFbCount.lean ====
section
/-! SUPPORT. What every operation of Machine/FbCount.lean keeps: the frame lemmas. -/

set_option linter.unreachableTactic false
set_option linter.unusedTactic false

namespace Sys2Proof.Machine

variable {R : State → State → Prop}

theorem State.showPos_frame (h : Frame R) {r0 : State} {n : Fin 4} {p : Int} {s : State} (hs : R r0 s) : R r0
    (State.showPos n p s) := by
  unfold State.showPos
  repeat' with_reducible (first
    | assumption | refine h.wrStep ?_)

theorem State.showCount_frame (h : Frame R) {r0 : State} {n : Fin 4} {c : Int} {s : State} (hs : R r0 s) : R r0
    (State.showCount n c s) := by
  unfold State.showCount
  repeat' with_reducible (first
    | assumption | refine h.wrStep ?_)

theorem State.fbRestart_frame (h : Frame R) {r0 : State} {n : Fin 4} {s : State} (hs : R r0 s) : R r0 (State.fbRestart
    n s) := by
  unfold State.fbRestart
  repeat' (first
    | with_reducible (first
        | assumption | refine ite_frame (fun _ => ?_) (fun _ => ?_) | refine State.clear_frame h ?_
        | refine State.latch_frame h ?_ | refine State.modFb_frame h ?_ | refine State.showCount_frame h ?_
        | refine State.showPos_frame h ?_ | exact h.refl _)
    | extract_lets)

theorem State.fbRescale_frame (h : Frame R) {r0 : State} {n : Fin 4} {s : State} (hs : R r0 s) : R r0 (State.fbRescale
    n s) := by
  unfold State.fbRescale
  repeat' (first
    | with_reducible (first
        | assumption | refine ite_frame (fun _ => ?_) (fun _ => ?_) | refine State.modFb_frame h ?_
        | refine State.showPos_frame h ?_ | exact h.refl _)
    | extract_lets)

end Sys2Proof.Machine
end

