-- ==== Sys2Proof/Laws/FrameGate.lean ====
section
/-! SUPPORT. What every operation of Machine/Gate.lean keeps: the frame lemmas. -/

set_option linter.unreachableTactic false
set_option linter.unusedTactic false

namespace Sys2Proof.Machine

variable {R : State → State → Prop}

theorem State.occur_frame (h : Frame R) {r0 : State} {n : Fin 4} {src k : Nat} {s : State} (hs : R r0 s) : R r0
    (State.occur n src k s) := by
  unfold State.occur
  repeat' (first
    | with_reducible (first
        | assumption | refine ite_frame (fun _ => ?_) (fun _ => ?_) | refine forAll_frame h (fun _ _ => ?_) ?_
        | refine State.modLoaf_frame h ?_ | exact h.refl _)
    | extract_lets)

theorem State.phaseEdges_frame (h : Frame R) {r0 : State} {n : Fin 4} {p g e : Nat} {s : State} (hs : R r0 s) : R r0
    (State.phaseEdges n p g e s) := by
  unfold State.phaseEdges
  repeat' (first
    | with_reducible (first
        | assumption | refine ite_frame (fun _ => ?_) (fun _ => ?_) | refine State.modLoaf_frame h ?_
        | refine State.occur_frame h ?_ | exact h.refl _)
    | extract_lets)

theorem State.pwmTo_frame (h : Frame R) {r0 : State} {n : Fin 4} {s : State} (hs : R r0 s) : R r0 (State.pwmTo n s) :=
    by
  unfold State.pwmTo
  repeat' (first
    | with_reducible (first
        | assumption | refine ite_frame (fun _ => ?_) (fun _ => ?_) | refine forAll_frame h (fun _ _ => ?_) ?_
        | refine State.modLoaf_frame h ?_ | refine State.phaseEdges_frame h ?_ | exact h.refl _)
    | extract_lets)

theorem State.patternFollow_frame (h : Frame R) {r0 : State} {s : State} (hs : R r0 s) : R r0 (State.patternFollow s)
    := by
  unfold State.patternFollow
  repeat' (first
    | with_reducible (first
        | assumption | refine ite_frame (fun _ => ?_) (fun _ => ?_) | refine forAll_frame h (fun _ _ => ?_) ?_
        | refine State.modLoaf_frame h ?_ | refine State.pwmTo_frame h ?_ | exact h.refl _)
    | extract_lets)

end Sys2Proof.Machine
end

