-- ==== Sys2Proof/Laws/FrameCollector.lean ====
section
/-! SUPPORT. What every operation of Machine/Collector.lean keeps: the frame lemmas. -/

set_option linter.unreachableTactic false
set_option linter.unusedTactic false

namespace Sys2Proof.Machine

variable {R : State → State → Prop}

theorem State.enqueueFault_frame (h : Frame R) {r0 : State} {e : Event} {s : State} (hs : R r0 s) : R r0
    (State.enqueueFault e s) := by
  unfold State.enqueueFault
  repeat' (first
    | with_reducible (first
        | assumption | refine State.before_frame h ?_ | refine State.fault_frame h ?_ | exact h.refl _)
    | extract_lets | split | exact h.trans hs (h.other rfl rfl rfl (Nat.le_refl _) (Nat.le_refl _)))

theorem State.emitAs_frame (h : Frame R) {r0 : State} {quiet : Bool} {code inst : Half} {cls : FaultClass} {react
    flags event occ : Nat} {data : Int} {s : State} (hs : R r0 s) : R r0 (State.emitAs quiet code inst cls react flags
    event occ data s) := by
  unfold State.emitAs
  repeat' (first
    | with_reducible (first
        | assumption | refine State.before_frame h ?_ | refine State.enqueueFault_frame h ?_
        | refine State.react_frame h ?_ | exact h.refl _)
    | extract_lets | split | exact h.trans hs (h.other rfl rfl rfl (Nat.le_refl _) (Nat.le_refl _)))

theorem State.emit_frame (h : Frame R) {r0 : State} {code inst : Half} {cls : FaultClass} {react flags event occ :
    Nat} {data : Int} {s : State} (hs : R r0 s) : R r0 (State.emit code inst cls react flags event occ data s) := by
  unfold State.emit
  repeat' with_reducible (first
    | assumption | refine State.emitAs_frame h ?_ | refine State.react_frame h ?_)

theorem State.reportM_frame (h : Frame R) {r0 : State} {code inst : Half} {data : Int} {s : State} (hs : R r0 s) : R
    r0 (State.reportM code inst data s) := by
  unfold State.reportM
  repeat' (first
    | with_reducible (first
        | assumption | refine State.enqueue_frame h ?_ | refine State.fault_frame h ?_ | exact h.refl _)
    | split | exact h.trans hs (h.other rfl rfl rfl (Nat.le_refl _) (Nat.le_refl _)))

theorem State.safetyReport_frame (h : Frame R) {r0 : State} {ch : Chan} {data : Int} {s : State} (hs : R r0 s) : R r0
    (State.safetyReport ch data s) := by
  unfold State.safetyReport
  repeat' (first
    | with_reducible (first
        | assumption | refine State.emit_frame h ?_ | refine State.reportM_frame h ?_)
    | split)

theorem State.brakeOff_frame (h : Frame R) {r0 : State} {ch : Chan} {s : State} (hs : R r0 s) : R r0 (State.brakeOff
    ch s) := by
  unfold State.brakeOff
  repeat' (first
    | with_reducible (first
        | assumption | refine ite_frame (fun _ => ?_) (fun _ => ?_) | refine State.modSafety_frame h ?_
        | refine State.safetyReport_frame h ?_ | exact h.refl _)
    | split)

theorem State.brakesOff_frame (h : Frame R) {r0 : State} {s : State} (hs : R r0 s) : R r0 (State.brakesOff s) := by
  unfold State.brakesOff
  repeat' with_reducible (first
    | assumption | refine State.brakeOff_frame h ?_)

theorem State.loafTo_frame (h : Frame R) {r0 : State} {n : Fin 4} {st : LoafState} {s : State} (hs : R r0 s) : R r0
    (State.loafTo n st s) := by
  unfold State.loafTo
  repeat' with_reducible (first
    | assumption | refine ite_frame (fun _ => ?_) (fun _ => ?_) | refine State.enter_frame h ?_
    | refine State.modLoaf_frame h ?_ | refine State.pwmTo_frame h ?_ | exact h.refl _)

theorem State.commit_frame (h : Frame R) {r0 : State} {n : Fin 4} {cmp : Int × Int × Int} {s : State} (hs : R r0 s) :
    R r0 (State.commit n cmp s) := by
  unfold State.commit
  repeat' with_reducible (first
    | assumption | refine State.modLoaf_frame h ?_ | exact h.refl _)

theorem State.loafOpen_frame (h : Frame R) {r0 : State} {n : Fin 4} {s : State} (hs : R r0 s) : R r0 (State.loafOpen n
    s) := by
  unfold State.loafOpen
  repeat' with_reducible (first
    | assumption | refine State.commit_frame h ?_ | refine State.loafTo_frame h ?_)

theorem State.isoMark_frame (h : Frame R) {r0 : State} {g : Fin 4} {s : State} (hs : R r0 s) : R r0 (State.isoMark g
    s) := by
  unfold State.isoMark
  repeat' with_reducible (first
    | assumption | refine ite_frame (fun _ => ?_) (fun _ => ?_) | refine State.modGrp_frame h ?_ | exact h.refl _)

theorem State.isoUndo_frame (h : Frame R) {r0 : State} {n : Fin 4} {s : State} (hs : R r0 s) : R r0 (State.isoUndo n
    s) := by
  unfold State.isoUndo
  repeat' (first
    | with_reducible (first
        | assumption | refine ite_frame (fun _ => ?_) (fun _ => ?_) | refine h.wrStep ?_)
    | extract_lets | split | exact h.trans hs (h.other rfl rfl rfl (Nat.le_refl _) (Nat.le_refl _)))

theorem State.loafSafe_frame (h : Frame R) {r0 : State} {leaving : List (Fin 4)} {n : Fin 4} {s : State} (hs : R r0 s)
    : R r0 (State.loafSafe leaving n s) := by
  unfold State.loafSafe
  repeat' (first
    | with_reducible (first
        | assumption | refine ite_frame (fun _ => ?_) (fun _ => ?_) | refine State.bump_frame h ?_
        | refine State.fault_frame h ?_ | refine State.isoMark_frame h ?_ | refine State.isoUndo_frame h ?_
        | refine State.loafTo_frame h ?_)
    | extract_lets | split)

theorem State.unpublish_frame (h : Frame R) {r0 : State} {g : Fin 4} {s : State} (hs : R r0 s) : R r0 (State.unpublish
    g s) := by
  unfold State.unpublish
  repeat' with_reducible (first
    | assumption | refine State.clear_frame h ?_ | refine forAll_frame h (fun _ _ => ?_) ?_
    | refine State.modGrp_frame h ?_ | refine State.modOven_frame h ?_ | exact h.refl _)

theorem State.noShares_frame (h : Frame R) {r0 : State} {g : Fin 4} {s : State} (hs : R r0 s) : R r0 (State.noShares g
    s) := by
  unfold State.noShares
  repeat' with_reducible (first
    | assumption | refine h.wrStep ?_ | refine forAll_frame h (fun _ _ => ?_) ?_ | refine State.modGrp_frame h ?_
    | exact h.refl _)

theorem State.isolatedToFault_frame (h : Frame R) {r0 : State} {g : Fin 4} {s : State} (hs : R r0 s) : R r0
    (State.isolatedToFault g s) := by
  unfold State.isolatedToFault
  repeat' with_reducible (first
    | assumption | refine ite_frame (fun _ => ?_) (fun _ => ?_) | refine State.fault_frame h ?_
    | refine forAll_frame h (fun _ _ => ?_) ?_ | refine State.loafTo_frame h ?_ | exact h.refl _)

theorem State.brakeOffFor_frame (h : Frame R) {r0 : State} {g : Fin 4} {s : State} (hs : R r0 s) : R r0
    (State.brakeOffFor g s) := by
  unfold State.brakeOffFor
  repeat' with_reducible (first
    | assumption | refine ite_frame (fun _ => ?_) (fun _ => ?_) | refine State.brakesOff_frame h ?_)

theorem State.groupSafe_frame (h : Frame R) {r0 : State} {g : Fin 4} {s : State} (hs : R r0 s) : R r0 (State.groupSafe
    g s) := by
  unfold State.groupSafe
  repeat' with_reducible (first
    | assumption | refine ite_frame (fun _ => ?_) (fun _ => ?_) | refine State.brakeOffFor_frame h ?_
    | refine State.isolatedToFault_frame h ?_ | refine State.modGrp_frame h ?_ | refine State.unpublish_frame h ?_
    | exact h.refl _)

theorem State.groupStopped_frame (h : Frame R) {r0 : State} {g : Fin 4} {loavesOff : Bool} {s : State} (hs : R r0 s) :
    R r0 (State.groupStopped g loavesOff s) := by
  unfold State.groupStopped
  repeat' (first
    | with_reducible (first
        | assumption | refine ite_frame (fun _ => ?_) (fun _ => ?_) | refine State.brakeOffFor_frame h ?_
        | refine State.fault_frame h ?_ | refine forAll_frame h (fun _ _ => ?_) ?_
        | refine State.isolatedToFault_frame h ?_ | refine State.loafTo_frame h ?_ | refine State.modGrp_frame h ?_
        | refine State.unpublish_frame h ?_ | exact h.refl _)
    | extract_lets)

theorem State.groupStop_frame (h : Frame R) {r0 : State} {g : Fin 4} {s : State} (hs : R r0 s) : R r0 (State.groupStop
    g s) := by
  unfold State.groupStop
  repeat' (first
    | with_reducible (first
        | assumption | refine ite_frame (fun _ => ?_) (fun _ => ?_) | refine State.modGrp_frame h ?_ | exact h.refl _)
    | extract_lets)

theorem State.groupDegrade_frame (h : Frame R) {r0 : State} {g : Fin 4} {s : State} (hs : R r0 s) : R r0
    (State.groupDegrade g s) := by
  unfold State.groupDegrade
  repeat' with_reducible (first
    | assumption | refine State.modGrp_frame h ?_ | exact h.refl _)

theorem State.groupsBare_frame (h : Frame R) {r0 : State} {s : State} (hs : R r0 s) : R r0 (State.groupsBare s) := by
  unfold State.groupsBare
  repeat' with_reducible (first
    | assumption | refine ite_frame (fun _ => ?_) (fun _ => ?_) | refine forAll_frame h (fun _ _ => ?_) ?_
    | refine State.groupSafe_frame h ?_ | exact h.refl _)

theorem State.setGen_frame (h : Frame R) {r0 : State} {ch : Chan} {b : Bool} {s : State} (hs : R r0 s) : R r0
    (State.setGen ch b s) := by
  unfold State.setGen
  repeat' (first
    | with_reducible (first
        | assumption | refine ite_frame (fun _ => ?_) (fun _ => ?_) | refine State.modSafety_frame h ?_
        | exact h.refl _)
    | extract_lets | split)

theorem State.gateFall_frame (h : Frame R) {r0 : State} {s : State} (hs : R r0 s) : R r0 (State.gateFall s) := by
  unfold State.gateFall
  repeat' (first
    | with_reducible (first
        | assumption | refine ite_frame (fun _ => ?_) (fun _ => ?_) | refine State.brakesOff_frame h ?_
        | refine forAll_frame h (fun _ _ => ?_) ?_ | refine State.groupSafe_frame h ?_
        | refine State.loafTo_frame h ?_ | refine State.modLoaf_frame h ?_ | exact h.refl _)
    | extract_lets)

theorem State.dropGen_frame (h : Frame R) {r0 : State} {ch : Chan} {s : State} (hs : R r0 s) : R r0 (State.dropGen ch
    s) := by
  unfold State.dropGen
  repeat' with_reducible (first
    | assumption | refine ite_frame (fun _ => ?_) (fun _ => ?_) | refine State.gateFall_frame h ?_
    | refine State.safetyReport_frame h ?_ | refine State.setGen_frame h ?_)

theorem State.raiseGen_frame (h : Frame R) {r0 : State} {ch : Chan} {s : State} (hs : R r0 s) : R r0 (State.raiseGen
    ch s) := by
  unfold State.raiseGen
  repeat' with_reducible (first
    | assumption | refine ite_frame (fun _ => ?_) (fun _ => ?_) | refine State.safetyReport_frame h ?_
    | refine State.setGen_frame h ?_)

theorem State.updateGen_frame (h : Frame R) {r0 : State} {ch : Chan} {s : State} (hs : R r0 s) : R r0 (State.updateGen
    ch s) := by
  unfold State.updateGen
  repeat' with_reducible (first
    | assumption | refine ite_frame (fun _ => ?_) (fun _ => ?_) | refine State.dropGen_frame h ?_
    | refine State.raiseGen_frame h ?_)

theorem State.enterSafe_frame (h : Frame R) {r0 : State} {code inst : Half} {s : State} (hs : R r0 s) : R r0
    (State.enterSafe code inst s) := by
  unfold State.enterSafe
  repeat' (first
    | with_reducible (first
        | assumption | refine ite_frame (fun _ => ?_) (fun _ => ?_) | refine State.dropGen_frame h ?_
        | refine State.modBoot_frame h ?_ | refine State.releaseRole_frame h ?_ | refine State.setMode_frame h ?_
        | exact h.refl _)
    | extract_lets)

theorem State.safeToStopped_frame (h : Frame R) {r0 : State} {s : State} (hs : R r0 s) : R r0 (State.safeToStopped s)
    := by
  unfold State.safeToStopped
  repeat' with_reducible (first
    | assumption | refine ite_frame (fun _ => ?_) (fun _ => ?_) | refine forAll_frame h (fun _ _ => ?_) ?_
    | refine State.groupStopped_frame h ?_ | exact h.refl _)

theorem State.modeFollow_frame (h : Frame R) {r0 : State} {s : State} (hs : R r0 s) : R r0 (State.modeFollow s) := by
  unfold State.modeFollow
  repeat' (first
    | with_reducible (first
        | assumption | refine ite_frame (fun _ => ?_) (fun _ => ?_) | refine State.setMode_frame h ?_)
    | split)

theorem State.beatFollow_frame (h : Frame R) {r0 : State} {s : State} (hs : R r0 s) : R r0 (State.beatFollow s) := by
  unfold State.beatFollow
  repeat' with_reducible (first
    | assumption | refine ite_frame (fun _ => ?_) (fun _ => ?_) | refine State.bump_frame h ?_
    | refine State.modFlt_frame h ?_ | exact h.refl _)

theorem State.brakeFollow_frame (h : Frame R) {r0 : State} {s : State} (hs : R r0 s) : R r0 (State.brakeFollow s) :=
    by
  unfold State.brakeFollow
  repeat' (first
    | with_reducible (first
        | assumption | refine ite_frame (fun _ => ?_) (fun _ => ?_) | refine State.brakesOff_frame h ?_
        | refine State.modSafety_frame h ?_ | exact h.refl _)
    | extract_lets)

theorem State.follow_frame (h : Frame R) {r0 : State} {s : State} (hs : R r0 s) : R r0 (State.follow s) := by
  unfold State.follow
  repeat' with_reducible (first
    | assumption | refine State.beatFollow_frame h ?_ | refine State.brakeFollow_frame h ?_
    | refine State.groupsBare_frame h ?_ | refine State.modeFollow_frame h ?_ | refine State.safeToStopped_frame h ?_
    | refine State.updateGen_frame h ?_)

theorem State.stopAll_frame (h : Frame R) {r0 : State} {s : State} (hs : R r0 s) : R r0 (State.stopAll s) := by
  unfold State.stopAll
  repeat' with_reducible (first
    | assumption | refine forAll_frame h (fun _ _ => ?_) ?_ | refine State.groupStop_frame h ?_ | exact h.refl _)

theorem State.demandSto_frame (h : Frame R) {r0 : State} {ch : Chan} {s : State} (hs : R r0 s) : R r0 (State.demandSto
    ch s) := by
  unfold State.demandSto
  repeat' (first
    | with_reducible (first
        | assumption | refine ite_frame (fun _ => ?_) (fun _ => ?_) | refine State.bump_frame h ?_
        | refine State.dropGen_frame h ?_ | refine State.enterSafe_frame h ?_ | refine State.modSafety_frame h ?_
        | exact h.refl _)
    | extract_lets | split)

theorem State.ss1End_frame (h : Frame R) {r0 : State} {ch : Chan} {s : State} (hs : R r0 s) : R r0 (State.ss1End ch s)
    := by
  unfold State.ss1End
  repeat' with_reducible (first
    | assumption | refine State.demandSto_frame h ?_ | refine State.modSafety_frame h ?_
    | refine State.safetyReport_frame h ?_ | exact h.refl _)

theorem State.ss1Start_frame (h : Frame R) {r0 : State} {ch : Chan} {s : State} (hs : R r0 s) : R r0 (State.ss1Start
    ch s) := by
  unfold State.ss1Start
  repeat' (first
    | with_reducible (first
        | assumption | refine ite_frame (fun _ => ?_) (fun _ => ?_) | refine State.modSafety_frame h ?_
        | refine State.ss1End_frame h ?_ | refine State.stopAll_frame h ?_ | exact h.refl _)
    | extract_lets | split)

theorem State.ss1Ask_frame (h : Frame R) {r0 : State} {ch : Chan} {s : State} (hs : R r0 s) : R r0 (State.ss1Ask ch s)
    := by
  unfold State.ss1Ask
  repeat' with_reducible (first
    | assumption | refine ite_frame (fun _ => ?_) (fun _ => ?_) | refine State.safetyReport_frame h ?_
    | refine State.ss1Start_frame h ?_)

theorem State.reactUnit_frame (h : Frame R) {r0 : State} {code : Half} {s : State} (hs : R r0 s) : R r0
    (State.reactUnit code s) := by
  unfold State.reactUnit
  repeat' with_reducible (first
    | assumption | refine ite_frame (fun _ => ?_) (fun _ => ?_) | refine State.releaseRole_frame h ?_)

theorem State.react_frame (h : Frame R) {r0 : State} {r : Nat} {code inst : Half} {s : State} (hs : R r0 s) : R r0
    (State.react r code inst s) := by
  unfold State.react
  repeat' (first
    | with_reducible (first
        | assumption | refine ite_frame (fun _ => ?_) (fun _ => ?_) | refine State.enterSafe_frame h ?_
        | refine forAll_frame h (fun _ _ => ?_) ?_ | refine State.groupDegrade_frame h ?_
        | refine State.groupSafe_frame h ?_ | refine State.groupStop_frame h ?_ | refine State.groupsBare_frame h ?_
        | refine State.loafSafe_frame h ?_ | refine State.modSafety_frame h ?_ | refine State.reactUnit_frame h ?_
        | refine State.ss1Ask_frame h ?_ | exact h.refl _)
    | extract_lets | split)

theorem State.captureTriggerAt_frame (h : Frame R) {r0 : State} {bit inst : Nat} {s : State} (hs : R r0 s) : R r0
    (State.captureTriggerAt bit inst s) := by
  unfold State.captureTriggerAt
  repeat' (first
    | with_reducible (first
        | assumption | refine ite_frame (fun _ => ?_) (fun _ => ?_) | refine h.wrStep ?_
        | refine State.modCap_frame h ?_ | refine State.wrBit_frame h ?_ | exact h.refl _)
    | extract_lets)

theorem State.captureTrigger_frame (h : Frame R) {r0 : State} {bit : Nat} {s : State} (hs : R r0 s) : R r0
    (State.captureTrigger bit s) := by
  unfold State.captureTrigger
  repeat' with_reducible (first
    | assumption | refine State.captureTriggerAt_frame h ?_)

theorem State.captureFault_frame (h : Frame R) {r0 : State} {code : Half} {cls : FaultClass} {s : State} (hs : R r0 s)
    : R r0 (State.captureFault code cls s) := by
  unfold State.captureFault
  repeat' (first
    | with_reducible (first
        | assumption | refine ite_frame (fun _ => ?_) (fun _ => ?_) | refine State.captureTrigger_frame h ?_)
    | extract_lets)

theorem State.endInj_frame (h : Frame R) {r0 : State} {j : Inj} {s : State} (hs : R r0 s) : R r0 (State.endInj j s) :=
    by
  unfold State.endInj
  repeat' (first
    | with_reducible (first
        | assumption | exact h.refl _)
    | exact h.trans hs (h.other rfl rfl rfl (Nat.le_refl _) (Nat.le_refl _)))

theorem State.logCancel_frame (h : Frame R) {r0 : State} {j : Inj} {s : State} (hs : R r0 s) : R r0 (State.logCancel j
    s) := by
  unfold State.logCancel
  repeat' (first
    | with_reducible (first
        | assumption | refine State.bump_frame h ?_ | refine State.emit_frame h ?_)
    | extract_lets)

theorem State.cancelInj_frame (h : Frame R) {r0 : State} {j : Inj} {s : State} (hs : R r0 s) : R r0 (State.cancelInj j
    s) := by
  unfold State.cancelInj
  repeat' (first
    | with_reducible (first
        | assumption | refine State.endInj_frame h ?_ | refine State.logCancel_frame h ?_ | exact h.refl _)
    | split | exact h.trans hs (h.other rfl rfl rfl (Nat.le_refl _) (Nat.le_refl _)))

theorem State.latchC0_frame (h : Frame R) {r0 : State} {code inst : Half} {flags : Nat} {data : Int} {s : State} (hs :
    R r0 s) : R r0 (State.latchC0 code inst flags data s) := by
  unfold State.latchC0
  repeat' (first
    | with_reducible (first
        | assumption | refine ite_frame (fun _ => ?_) (fun _ => ?_) | refine State.emit_frame h ?_
        | refine State.modFlt_frame h ?_ | exact h.refl _)
    | extract_lets | split)

theorem State.enter_frame (h : Frame R) {r0 : State} {code inst : Half} {data : Int} {flags : Nat} {inj : Bool} {s :
    State} (hs : R r0 s) : R r0 (State.enter code inst data flags inj s) := by
  unfold State.enter
  repeat' (first
    | with_reducible (first
        | assumption | refine ite_frame (fun _ => ?_) (fun _ => ?_) | refine State.captureFault_frame h ?_
        | refine State.emit_frame h ?_ | refine State.latchC0_frame h ?_ | refine State.modFlt_frame h ?_
        | refine State.react_frame h ?_ | exact h.refl _)
    | extract_lets)

theorem State.again_frame (h : Frame R) {r0 : State} {code inst : Half} {s : State} (hs : R r0 s) : R r0 (State.again
    code inst s) := by
  unfold State.again
  repeat' with_reducible (first
    | assumption | refine ite_frame (fun _ => ?_) (fun _ => ?_) | refine State.modFlt_frame h ?_ | exact h.refl _)

theorem State.latch_frame (h : Frame R) {r0 : State} {code inst : Half} {data : Int} {s : State} (hs : R r0 s) : R r0
    (State.latch code inst data s) := by
  unfold State.latch
  repeat' (first
    | with_reducible (first
        | assumption | refine ite_frame (fun _ => ?_) (fun _ => ?_) | refine State.again_frame h ?_
        | refine State.endInj_frame h ?_ | refine State.enter_frame h ?_ | refine forAll_frame h (fun _ _ => ?_) ?_
        | refine State.logCancel_frame h ?_ | exact h.refl _)
    | extract_lets)

theorem State.latchLimitedAs_frame (h : Frame R) {r0 : State} {key code inst : Half} {data : Int} {s : State} (hs : R
    r0 s) : R r0 (State.latchLimitedAs key code inst data s) := by
  unfold State.latchLimitedAs
  repeat' (first
    | with_reducible (first
        | assumption | refine ite_frame (fun _ => ?_) (fun _ => ?_) | refine State.latch_frame h ?_
        | refine State.modFlt_frame h ?_ | exact h.refl _)
    | split)

theorem State.latchLimited_frame (h : Frame R) {r0 : State} {code inst : Half} {data : Int} {s : State} (hs : R r0 s)
    : R r0 (State.latchLimited code inst data s) := by
  unfold State.latchLimited
  repeat' with_reducible (first
    | assumption | refine State.latchLimitedAs_frame h ?_)

theorem State.fbInvalidSets_frame (h : Frame R) {r0 : State} {c : Fin 4} {s : State} (hs : R r0 s) : R r0
    (State.fbInvalidSets c s) := by
  unfold State.fbInvalidSets
  repeat' with_reducible (first
    | assumption | refine ite_frame (fun _ => ?_) (fun _ => ?_) | refine forAll_frame h (fun _ _ => ?_) ?_
    | refine State.latch_frame h ?_ | exact h.refl _)

theorem State.fbFollow_frame (h : Frame R) {r0 : State} {s : State} (hs : R r0 s) : R r0 (State.fbFollow s) := by
  unfold State.fbFollow
  repeat' (first
    | with_reducible (first
        | assumption | refine ite_frame (fun _ => ?_) (fun _ => ?_) | refine State.fbInvalidSets_frame h ?_
        | refine forAll_frame h (fun _ _ => ?_) ?_ | refine State.modFb_frame h ?_ | exact h.refl _)
    | extract_lets)

theorem State.settle_frame (h : Frame R) {r0 : State} {s : State} (hs : R r0 s) : R r0 (State.settle s) := by
  unfold State.settle
  repeat' with_reducible (first
    | assumption | refine State.answerWaiting_frame h ?_ | refine State.fbFollow_frame h ?_
    | refine State.follow_frame h ?_ | refine State.patternFollow_frame h ?_)

theorem State.fault_frame (h : Frame R) {r0 : State} {code inst : Half} {data : Int} {s : State} (hs : R r0 s) : R r0
    (State.fault code inst data s) := by
  unfold State.fault
  repeat' with_reducible (first
    | assumption | refine State.latch_frame h ?_ | refine State.settle_frame h ?_)

theorem State.faultM_frame (h : Frame R) {r0 : State} {code inst : Half} {data : Int} {s : State} (hs : R r0 s) : R r0
    (State.faultM code inst data s) := by
  unfold State.faultM
  repeat' with_reducible (first
    | assumption | refine State.enterSafe_frame h ?_ | refine State.reportM_frame h ?_
    | refine State.settle_frame h ?_)

end Sys2Proof.Machine
end

