-- ==== Sys2Proof/Laws/FrameTrip.lean ====
section
/-! SUPPORT. What every operation of Machine/Trip.lean keeps: the frame lemmas. -/

set_option linter.unreachableTactic false
set_option linter.unusedTactic false

namespace Sys2Proof.Machine

variable {R : State → State → Prop}

theorem State.setTrip_frame (h : Frame R) {r0 : State} {i : Nat} {n : Fin 4} {b : Bool} {s : State} (hs : R r0 s) : R
    r0 (State.setTrip i n b s) := by
  unfold State.setTrip
  repeat' (first
    | with_reducible (first
        | assumption)
    | exact h.trans hs (h.other rfl rfl rfl (Nat.le_refl _) (Nat.le_refl _)))

theorem State.setSync_frame (h : Frame R) {r0 : State} {i : Nat} {n : Fin 4} {b : Bool} {s : State} (hs : R r0 s) : R
    r0 (State.setSync i n b s) := by
  unfold State.setSync
  repeat' (first
    | with_reducible (first
        | assumption)
    | exact h.trans hs (h.other rfl rfl rfl (Nat.le_refl _) (Nat.le_refl _)))

theorem State.countTrip_frame (h : Frame R) {r0 : State} {i : Nat} {n : Fin 4} {s : State} (hs : R r0 s) : R r0
    (State.countTrip i n s) := by
  unfold State.countTrip
  repeat' with_reducible (first
    | assumption | refine ite_frame (fun _ => ?_) (fun _ => ?_) | refine State.bump_frame h ?_)

theorem State.tripFault_frame (h : Frame R) {r0 : State} {i : Nat} {n : Fin 4} {cycle inj : Bool} {s : State} (hs : R
    r0 s) : R r0 (State.tripFault i n cycle inj s) := by
  unfold State.tripFault
  repeat' (first
    | with_reducible (first
        | assumption | refine ite_frame (fun _ => ?_) (fun _ => ?_) | refine h.wrStep ?_
        | refine State.enter_frame h ?_ | refine State.latch_frame h ?_ | refine State.latchLimitedAs_frame h ?_
        | refine State.modLoaf_frame h ?_ | exact h.refl _)
    | extract_lets | split)

theorem State.gapBegin_frame (h : Frame R) {r0 : State} {n : Fin 4} {s : State} (hs : R r0 s) : R r0 (State.gapBegin n
    s) := by
  unfold State.gapBegin
  repeat' (first
    | with_reducible (first
        | assumption | refine ite_frame (fun _ => ?_) (fun _ => ?_) | refine State.bump_frame h ?_
        | refine State.modLoaf_frame h ?_ | exact h.refl _)
    | extract_lets)

theorem State.tripAct_frame (h : Frame R) {r0 : State} {i : Nat} {n : Fin 4} {inj : Bool} {s : State} (hs : R r0 s) :
    R r0 (State.tripAct i n inj s) := by
  unfold State.tripAct
  repeat' (first
    | with_reducible (first
        | assumption | refine ite_frame (fun _ => ?_) (fun _ => ?_) | refine State.countTrip_frame h ?_
        | refine State.gapBegin_frame h ?_ | refine State.tripFault_frame h ?_ | refine State.wrBit_frame h ?_)
    | extract_lets)

theorem State.tripRise_frame (h : Frame R) {r0 : State} {i : Nat} {n : Fin 4} {s : State} (hs : R r0 s) : R r0
    (State.tripRise i n s) := by
  unfold State.tripRise
  repeat' (first
    | with_reducible (first
        | assumption | refine ite_frame (fun _ => ?_) (fun _ => ?_) | refine State.bump_frame h ?_
        | refine State.setTrip_frame h ?_ | refine State.settle_frame h ?_ | refine State.tripAct_frame h ?_)
    | extract_lets)

theorem State.tripFall_frame (h : Frame R) {r0 : State} {i : Nat} {n : Fin 4} {s : State} (hs : R r0 s) : R r0
    (State.tripFall i n s) := by
  unfold State.tripFall
  repeat' with_reducible (first
    | assumption | refine ite_frame (fun _ => ?_) (fun _ => ?_) | refine forAll_frame h (fun _ _ => ?_) ?_
    | refine State.setTrip_frame h ?_ | exact h.refl _)

theorem State.tripEdge_frame (h : Frame R) {r0 : State} {i : Nat} {n : Fin 4} {level : Bool} {ns : Nat} {s : State}
    (hs : R r0 s) : R r0 (State.tripEdge i n level ns s) := by
  unfold State.tripEdge
  repeat' (first
    | with_reducible (first
        | assumption | refine ite_frame (fun _ => ?_) (fun _ => ?_) | refine State.drew_frame h ?_
        | refine forAll_frame h (fun _ _ => ?_) ?_ | refine State.setSync_frame h ?_
        | refine State.tripFall_frame h ?_ | refine State.tripRise_frame h ?_ | exact h.refl _)
    | extract_lets)

theorem State.tripRemap_frame (h : Frame R) {r0 : State} {i : Nat} {old v : Int} {s : State} (hs : R r0 s) : R r0
    (State.tripRemap i old v s) := by
  unfold State.tripRemap
  repeat' (first
    | with_reducible (first
        | assumption | refine ite_frame (fun _ => ?_) (fun _ => ?_) | refine forAll_frame h (fun _ _ => ?_) ?_
        | refine State.setTrip_frame h ?_ | refine State.tripAct_frame h ?_ | exact h.refl _)
    | extract_lets)

theorem State.crustTrip_frame (h : Frame R) {r0 : State} {i : Nat} {s : State} (hs : R r0 s) : R r0 (State.crustTrip i
    s) := by
  unfold State.crustTrip
  repeat' (first
    | with_reducible (first
        | assumption | refine ite_frame (fun _ => ?_) (fun _ => ?_) | refine State.bump_frame h ?_
        | refine forAll_frame h (fun _ _ => ?_) ?_ | refine State.setSync_frame h ?_ | refine State.setTrip_frame h ?_
        | refine State.wrBit_frame h ?_ | exact h.refl _)
    | extract_lets)

end Sys2Proof.Machine
end

