-- ==== Sys2Proof/Laws/FramePort.lean ====
section
/-! SUPPORT. What every operation of Machine/Port.lean keeps: the frame lemmas. -/

set_option linter.unreachableTactic false
set_option linter.unusedTactic false

namespace Sys2Proof.Machine

variable {R : State → State → Prop}

theorem State.pgpPlain_frame (h : Frame R) {r0 : State} {s : State} (hs : R r0 s) : R r0 (State.pgpPlain s) := by
  unfold State.pgpPlain
  repeat' (first
    | with_reducible (first
        | assumption | refine ite_frame (fun _ => ?_) (fun _ => ?_) | refine State.modPp_frame h ?_ | exact h.refl _)
    | extract_lets)

theorem State.ppRunEnd_frame (h : Frame R) {r0 : State} {l : Nat} {s : State} (hs : R r0 s) : R r0 (State.ppRunEnd l
    s) := by
  unfold State.ppRunEnd
  repeat' (first
    | with_reducible (first
        | assumption | refine State.bumpWrap_frame h ?_ | refine State.modPp_frame h ?_
        | refine State.setBlob_frame h ?_ | exact h.refl _)
    | extract_lets)

theorem State.ppSelect_frame (h : Frame R) {r0 : State} {r : PpRun} {s0 : State} (hs : R r0 s0) : R r0 (State.ppSelect
    r s0) := by
  unfold State.ppSelect
  repeat' (first
    | with_reducible (first
        | assumption | refine ite_frame (fun _ => ?_) (fun _ => ?_) | refine State.atT_frame h ?_
        | refine State.modPp_frame h ?_ | exact h.refl _)
    | extract_lets)

theorem State.ppNext_frame (h : Frame R) {r0 : State} {l : Nat} {es : List (List Byte)} {s : State} (hs : R r0 s) :
    R r0 (State.ppNext l es s) := by
  induction es generalizing s with
  | nil => exact State.ppRunEnd_frame h (State.modPp_frame h hs)
  | cons e rest ih =>
    unfold State.ppNext
    split
    · exact ih (State.modPp_frame h hs)
    · exact State.modPp_frame h hs

theorem State.ppEnter_frame (h : Frame R) {r0 : State} {s : State} (hs : R r0 s) : R r0 (State.ppEnter s) := by
  unfold State.ppEnter
  repeat' (first
    | with_reducible (first
        | assumption | refine State.ppNext_frame h ?_ | refine State.ppSelect_frame h ?_ | exact h.refl _)
    | extract_lets | split)

theorem State.ppManual_frame (h : Frame R) {r0 : State} {cause bits done : Nat} {rx : List Nat} {s : State} (hs : R r0
    s) : R r0 (State.ppManual cause bits done rx s) := by
  unfold State.ppManual
  repeat' with_reducible (first
    | assumption | refine h.wrStep ?_ | refine forAll_frame h (fun _ _ => ?_) ?_ | exact h.refl _)

theorem State.ppRelease_frame (h : Frame R) {r0 : State} {s : State} (hs : R r0 s) : R r0 (State.ppRelease s) := by
  unfold State.ppRelease
  repeat' with_reducible (first
    | assumption | refine State.modPp_frame h ?_ | refine State.pgpPlain_frame h ?_ | exact h.refl _)

theorem State.ppFinish_frame (h : Frame R) {r0 : State} {r : PpRun} {cause : Nat} {rx : List (List Bool)} {s : State}
    (hs : R r0 s) : R r0 (State.ppFinish r cause rx s) := by
  unfold State.ppFinish
  repeat' (first
    | with_reducible (first
        | assumption | refine ite_frame (fun _ => ?_) (fun _ => ?_) | refine State.modPp_frame h ?_
        | refine State.ppManual_frame h ?_ | refine State.ppNext_frame h ?_ | refine State.ppRelease_frame h ?_
        | refine State.ppRunEnd_frame h ?_ | exact h.refl _)
    | extract_lets)

theorem State.ppStart_frame (h : Frame R) {r0 : State} {s : State} (hs : R r0 s) : R r0 (State.ppStart s) := by
  unfold State.ppStart
  repeat' (first
    | with_reducible (first
        | assumption | refine ite_frame (fun _ => ?_) (fun _ => ?_) | refine State.modPp_frame h ?_
        | refine State.ppEnter_frame h ?_ | refine State.ppManual_frame h ?_ | refine State.ppNext_frame h ?_
        | refine State.ppSelect_frame h ?_ | exact h.refl _)
    | extract_lets | split)

theorem State.listTrig_frame (h : Frame R) {r0 : State} {l : Fin 2} {s : State} (hs : R r0 s) : R r0 (State.listTrig l
    s) := by
  unfold State.listTrig
  repeat' (first
    | with_reducible (first
        | assumption | refine ite_frame (fun _ => ?_) (fun _ => ?_) | refine State.bump_frame h ?_
        | refine State.modPp_frame h ?_ | refine State.reportM_frame h ?_ | exact h.refl _)
    | extract_lets)

end Sys2Proof.Machine
end

