-- ==== Sys2Proof/Laws/FrameViews.lean ====
section
/-! SUPPORT. What every operation of Machine/Views.lean keeps: the frame lemmas. -/

set_option linter.unreachableTactic false
set_option linter.unusedTactic false

namespace Sys2Proof.Machine

variable {R : State → State → Prop}

theorem State.auditEvent_frame (h : Frame R) {r0 : State} {event path user role result data : Nat} {s : State} (hs : R
    r0 s) : R r0 (State.auditEvent event path user role result data s) := by
  unfold State.auditEvent
  repeat' (first
    | with_reducible (first
        | assumption | refine State.modSec_frame h (Nat.le_refl _) ?_ | exact h.refl _)
    | extract_lets)

end Sys2Proof.Machine
end

