-- ==== Sys2Proof/Laws/FrameAccess.lean ====
section
/-! SUPPORT. What every operation of Machine/Access.lean keeps: the frame lemmas. -/

set_option linter.unreachableTactic false
set_option linter.unusedTactic false

namespace Sys2Proof.Machine

variable {R : State → State → Prop}

theorem State.ignored_frame (h : Frame R) {r0 : State} {s : State} {aw : Word} {reason : Nat} (hs : R r0 s) : R r0
    (State.ignored s aw reason) := by
  unfold State.ignored
  repeat' (first
    | with_reducible (first
        | assumption | refine h.wrStep ?_ | refine State.bump_frame h ?_)
    | extract_lets | split)

theorem State.hostBeat_frame (h : Frame R) {r0 : State} {s : State} (hs : R r0 s) : R r0 (State.hostBeat s) := by
  unfold State.hostBeat
  repeat' with_reducible (first
    | assumption | refine State.modFlt_frame h ?_ | exact h.refl _)

theorem State.askAttest_frame (h : Frame R) {r0 : State} {v : Int} {s : State} (hs : R r0 s) : R r0 (State.askAttest v
    s) := by
  unfold State.askAttest
  repeat' (first
    | with_reducible (first
        | assumption | refine ite_frame (fun _ => ?_) (fun _ => ?_) | refine State.modSec_frame h (Nat.le_refl _) ?_
        | exact h.refl _)
    | refine State.modSec_frame h (by split <;> exact Nat.le_refl _) ?_ | split
    | exact h.trans hs (h.other rfl rfl rfl (Nat.le_refl _) (Nat.le_refl _)))

theorem State.bindLoaves_frame (h : Frame R) {r0 : State} {g : Fin 4} {v : Int} {s : State} (hs : R r0 s) : R r0
    (State.bindLoaves g v s) := by
  unfold State.bindLoaves
  repeat' (first
    | with_reducible (first
        | assumption | refine h.wrStep ?_ | refine forAll_frame h (fun _ _ => ?_) ?_ | refine State.modGrp_frame h ?_
        | refine State.wrs_frame h ?_ | exact h.refl _)
    | extract_lets | split)

theorem State.writeA_frame (h : Frame R) {r0 : State} {idx sub : Nat} {v : Int} {s : State} (hs : R r0 s) : R r0
    (State.writeA idx sub v s) := by
  unfold State.writeA
  repeat' (first
    | with_reducible (first
        | assumption | refine ite_frame (fun _ => ?_) (fun _ => ?_) | refine h.wrStep ?_
        | refine State.modGrp_frame h ?_ | exact h.refl _)
    | extract_lets | split)

theorem State.moduleReq_frame (h : Frame R) {r0 : State} {src : Source} {v : Int} {s : State} (hs : R r0 s) : R r0
    (State.moduleReq src v s) := by
  unfold State.moduleReq
  repeat' (first
    | with_reducible (first
        | assumption | refine ite_frame (fun _ => ?_) (fun _ => ?_) | refine h.wrStep ?_
        | refine State.modBoot_frame h ?_ | refine State.setMode_frame h ?_ | refine State.settle_frame h ?_
        | exact h.refl _)
    | extract_lets)

theorem State.writeWo_frame (h : Frame R) {r0 : State} {src : Source} {idx sub : Nat} {v : Int} {s : State} (hs : R r0
    s) : R r0 (State.writeWo src idx sub v s) := by
  unfold State.writeWo
  repeat' (first
    | with_reducible (first
        | assumption | refine ite_frame (fun _ => ?_) (fun _ => ?_) | refine h.wrStep ?_
        | refine State.clear_frame h ?_ | refine State.modFb_frame h ?_ | refine State.modFlt_frame h ?_
        | refine State.modPp_frame h ?_ | refine State.modTime_frame h (Nat.le_refl _) ?_
        | refine State.moduleReq_frame h ?_ | refine State.ppEarly_frame h ?_ | exact h.refl _)
    | extract_lets)

theorem State.ptpOff_frame (h : Frame R) {r0 : State} {s : State} (hs : R r0 s) : R r0 (State.ptpOff s) := by
  unfold State.ptpOff
  repeat' with_reducible (first
    | assumption | refine State.modNet_frame h ?_ | refine State.modTime_frame h (Nat.le_refl _) ?_ | exact h.refl _)

theorem State.wrote_frame (h : Frame R) {r0 : State} {idx sub : Nat} {old v : Int} {s : State} (hs : R r0 s) : R r0
    (State.wrote idx sub old v s) := by
  unfold State.wrote
  repeat' (first
    | with_reducible (first
        | assumption | refine ite_frame (fun _ => ?_) (fun _ => ?_) | refine State.askAttest_frame h ?_
        | refine State.bindLoaves_frame h ?_ | refine State.fbRescale_frame h ?_ | refine State.fbRestart_frame h ?_
        | refine State.hostBeat_frame h ?_ | refine State.modConv_frame h ?_ | refine State.modFb_frame h ?_
        | refine State.modFlt_frame h ?_ | refine State.modLoaf_frame h ?_ | refine State.modPp_frame h ?_
        | refine State.patternFollow_frame h ?_ | refine State.pgpPlain_frame h ?_ | refine State.ptpOff_frame h ?_
        | refine State.settle_frame h ?_ | refine State.tripRemap_frame h ?_ | exact h.refl _)
    | extract_lets)

theorem State.store_frame (h : Frame R) {r0 : State} {idx sub : Nat} {v : Int} {s : State} (hs : R r0 s) : R r0
    (State.store idx sub v s) := by
  unfold State.store
  repeat' (first
    | with_reducible (first
        | assumption | refine ite_frame (fun _ => ?_) (fun _ => ?_) | refine h.wrStep ?_
        | refine forAll_frame h (fun _ _ => ?_) ?_ | exact h.refl _)
    | extract_lets)

theorem State.before_frame (h : Frame R) {r0 : State} {idx : Nat} {s : State} (hs : R r0 s) : R r0 (State.before idx
    s) := by
  unfold State.before
  repeat' with_reducible (first
    | assumption | refine ite_frame (fun _ => ?_) (fun _ => ?_) | refine State.pwmTo_frame h ?_)

theorem State.takeWrite_frame (h : Frame R) {r0 : State} {src : Source} {r : ObjRow} {idx sub : Nat} {v : Int} {s :
    State} (hs : R r0 s) : R r0 (State.takeWrite src r idx sub v s) := by
  unfold State.takeWrite
  repeat' (first
    | with_reducible (first
        | assumption | refine ite_frame (fun _ => ?_) (fun _ => ?_) | refine h.wrStep ?_
        | refine State.before_frame h ?_ | refine State.store_frame h ?_ | refine State.writeA_frame h ?_
        | refine State.writeWo_frame h ?_ | refine State.wrote_frame h ?_)
    | extract_lets | split)

theorem State.carryWrite_frame (h : Frame R) {r0 : State} {src : Source} {aw : Word} {vals : List Word} {s : State}
    (hs : R r0 s) : R r0 (State.carryWrite src aw vals s) := by
  unfold State.carryWrite
  repeat' with_reducible (first
    | assumption | refine ite_frame (fun _ => ?_) (fun _ => ?_) | refine State.carry_frame h ?_)

theorem State.writeObj_frame (h : Frame R) {r0 : State} {src : Source} {aw : Word} {vals : List Word} {s : State} (hs
    : R r0 s) : R r0 (State.writeObj src aw vals s) := by
  unfold State.writeObj
  repeat' (first
    | with_reducible (first
        | assumption | refine ite_frame (fun _ => ?_) (fun _ => ?_) | refine State.carryWrite_frame h ?_
        | refine State.ignored_frame h ?_ | refine State.takeWrite_frame h ?_)
    | extract_lets | split)

theorem State.commitOpen_frame (h : Frame R) {r0 : State} {touched : List (Fin 4)} {s : State} (hs : R r0 s) : R r0
    (State.commitOpen touched s) := by
  unfold State.commitOpen
  repeat' with_reducible (first
    | assumption | refine ite_frame (fun _ => ?_) (fun _ => ?_) | refine State.commit_frame h ?_
    | refine forAll_frame h (fun _ _ => ?_) ?_ | exact h.refl _)

theorem State.writeFold_frame (h : Frame R) {r0 : State} {src : Source} {ws : List (Word × List Word)} {r : State × List (Fin 4)}
    (hs : R r0 r.1) : R r0 (State.writeFold src ws r).1 := by
  induction ws generalizing r with
  | nil => exact hs
  | cons w ws ih => exact ih (State.writeObj_frame h hs)

theorem State.writeAll_frame (h : Frame R) {r0 : State} {src : Source} {ws : List (Word × List Word)} {s : State} (hs : R r0 s) :
    R r0 (State.writeAll src ws s) := by
  unfold State.writeAll
  exact State.commitOpen_frame h (State.writeFold_frame h hs)

theorem State.writeBlob_frame (h : Frame R) {r0 : State} {aw : Word} {b : List Byte} {s : State} (hs : R r0 s) : R r0
    (State.writeBlob aw b s) := by
  unfold State.writeBlob
  repeat' (first
    | with_reducible (first
        | assumption | refine ite_frame (fun _ => ?_) (fun _ => ?_) | refine State.ignored_frame h ?_
        | refine State.setBlob_frame h ?_)
    | extract_lets)

end Sys2Proof.Machine
end

