-- ==== Sys2Proof/Laws/FrameStream.lean ====
section
/-! SUPPORT. What every operation of Machine/Stream.lean keeps: the frame lemmas. -/

set_option linter.unreachableTactic false
set_option linter.unusedTactic false

namespace Sys2Proof.Machine

variable {R : State → State → Prop}

theorem State.modSub_frame (h : Frame R) {r0 : State} {j : Nat} {f : Sub → Sub} {s : State} (hs : R r0 s) : R r0
    (State.modSub j f s) := by
  unfold State.modSub
  repeat' with_reducible (first
    | assumption | refine State.modCmd_frame h ?_ | exact h.refl _)

theorem State.queuePut_frame (h : Frame R) {r0 : State} {q : Nat} {bc : Bool} {f : EgressFrame} {s : State} (hs : R r0
    s) : R r0 (State.queuePut q bc f s) := by
  unfold State.queuePut
  repeat' with_reducible (first
    | assumption | refine ite_frame (fun _ => ?_) (fun _ => ?_) | refine State.bump_frame h ?_
    | refine State.modNet_frame h ?_ | exact h.refl _)

theorem State.tcpPush_frame (h : Frame R) {r0 : State} {s : State} (hs : R r0 s) : R r0 (State.tcpPush s) := by
  unfold State.tcpPush
  repeat' (first
    | with_reducible (first
        | assumption | refine forAll_frame h (fun _ _ => ?_) ?_ | refine State.modNet_frame h ?_
        | refine State.queuePut_frame h ?_ | exact h.refl _)
    | split)

theorem State.egressPut_frame (h : Frame R) {r0 : State} {q : Nat} {bc : Bool} {f : EgressFrame} {s : State} (hs : R
    r0 s) : R r0 (State.egressPut q bc f s) := by
  unfold State.egressPut
  repeat' with_reducible (first
    | assumption | refine State.queuePut_frame h ?_ | refine State.tcpPush_frame h ?_)

theorem State.ownSend_frame (h : Frame R) {r0 : State} {ports : List Nat} {f : OwnFrame} {s : State} (hs : R r0 s) : R
    r0 (State.ownSend ports f s) := by
  unfold State.ownSend
  repeat' with_reducible (first
    | assumption | refine State.egressPut_frame h ?_ | refine forAll_frame h (fun _ _ => ?_) ?_ | exact h.refl _)

theorem State.dropDelivery_frame (h : Frame R) {r0 : State} {j : Nat} {mb2Full : Bool} {s : State} (hs : R r0 s) : R
    r0 (State.dropDelivery j mb2Full s) := by
  unfold State.dropDelivery
  repeat' (first
    | with_reducible (first
        | assumption | refine ite_frame (fun _ => ?_) (fun _ => ?_) | refine State.bump_frame h ?_
        | refine State.modHost_frame h ?_ | refine State.setIrq_frame h ?_ | exact h.refl _)
    | extract_lets)

theorem State.sendDelivery_frame (h : Frame R) {r0 : State} {j : Nat} {ws : List Word} {s : State} (hs : R r0 s) : R
    r0 (State.sendDelivery j ws s) := by
  unfold State.sendDelivery
  repeat' (first
    | with_reducible (first
        | assumption | refine ite_frame (fun _ => ?_) (fun _ => ?_) | refine h.wrStep ?_
        | refine State.bump_frame h ?_ | refine State.dropDelivery_frame h ?_ | refine State.modCmd_frame h ?_
        | refine State.ownSend_frame h ?_ | refine State.tcpPush_frame h ?_ | exact h.refl _)
    | extract_lets)

theorem State.closeDelivery_frame (h : Frame R) {r0 : State} {j : Nat} {s : State} (hs : R r0 s) : R r0
    (State.closeDelivery j s) := by
  unfold State.closeDelivery
  repeat' (first
    | with_reducible (first
        | assumption | refine ite_frame (fun _ => ?_) (fun _ => ?_) | refine State.modSub_frame h ?_
        | refine State.sendDelivery_frame h ?_ | exact h.refl _)
    | extract_lets)

theorem State.streamItem_frame (h : Frame R) {r0 : State} {j ns : Nat} {ws : List Word} {s : State} (hs : R r0 s) : R
    r0 (State.streamItem j ns ws s) := by
  unfold State.streamItem
  repeat' (first
    | with_reducible (first
        | assumption | refine ite_frame (fun _ => ?_) (fun _ => ?_) | refine State.closeDelivery_frame h ?_
        | refine State.modSub_frame h ?_ | exact h.refl _)
    | extract_lets)

theorem State.streamRecord_frame (h : Frame R) {r0 : State} {n : Fin 4} {bytes : List Byte} {s : State} (hs : R r0 s)
    : R r0 (State.streamRecord n bytes s) := by
  unfold State.streamRecord
  repeat' (first
    | with_reducible (first
        | assumption | refine ite_frame (fun _ => ?_) (fun _ => ?_) | refine forAll_frame h (fun _ _ => ?_) ?_
        | refine State.modSub_frame h ?_ | refine State.streamItem_frame h ?_ | exact h.refl _)
    | extract_lets)

theorem State.streamLog_frame (h : Frame R) {r0 : State} {e : LogEntry} {s : State} (hs : R r0 s) : R r0
    (State.streamLog e s) := by
  unfold State.streamLog
  repeat' with_reducible (first
    | assumption | refine ite_frame (fun _ => ?_) (fun _ => ?_) | refine forAll_frame h (fun _ _ => ?_) ?_
    | refine State.streamItem_frame h ?_ | exact h.refl _)

theorem State.endSub_frame (h : Frame R) {r0 : State} {j : Nat} {s : State} (hs : R r0 s) : R r0 (State.endSub j s) :=
    by
  unfold State.endSub
  repeat' with_reducible (first
    | assumption | refine State.modSub_frame h ?_ | exact h.refl _)

theorem State.endSubs_frame (h : Frame R) {r0 : State} {owner : Nat} {s : State} (hs : R r0 s) : R r0 (State.endSubs
    owner s) := by
  unfold State.endSubs
  repeat' with_reducible (first
    | assumption | refine ite_frame (fun _ => ?_) (fun _ => ?_) | refine State.endSub_frame h ?_
    | refine forAll_frame h (fun _ _ => ?_) ?_ | exact h.refl _)

theorem State.logEvent_frame (h : Frame R) {r0 : State} {e : Event} {s : State} (hs : R r0 s) : R r0 (State.logEvent e
    s) := by
  unfold State.logEvent
  repeat' (first
    | with_reducible (first
        | assumption | refine ite_frame (fun _ => ?_) (fun _ => ?_) | refine State.bump_frame h ?_
        | refine State.modFlt_frame h ?_ | refine State.setIrq_frame h ?_ | refine State.streamLog_frame h ?_
        | exact h.refl _)
    | extract_lets)

theorem State.nvWrite_frame (h : Frame R) {r0 : State} {s : State} (hs : R r0 s) : R r0 (State.nvWrite s) := by
  unfold State.nvWrite
  repeat' with_reducible (first
    | assumption | refine State.modFlt_frame h ?_ | exact h.refl _)

theorem State.auditWrite_frame (h : Frame R) {r0 : State} {s : State} (hs : R r0 s) : R r0 (State.auditWrite s) := by
  unfold State.auditWrite
  repeat' with_reducible (first
    | assumption | refine State.modSec_frame h (Nat.le_refl _) ?_ | exact h.refl _)

theorem State.flushLogs_frame (h : Frame R) {r0 : State} {s : State} (hs : R r0 s) : R r0 (State.flushLogs s) := by
  unfold State.flushLogs
  repeat' with_reducible (first
    | assumption | refine State.auditWrite_frame h ?_ | refine forAll_frame h (fun _ _ => ?_) ?_
    | refine State.logEvent_frame h ?_ | refine State.modFlt_frame h ?_ | refine State.nvWrite_frame h ?_
    | exact h.refl _)

end Sys2Proof.Machine
end

