-- ==== Sys2Proof/Laws/FrameReset.lean ====
section
/-! SUPPORT. What every operation of Machine/Reset.lean keeps: the frame lemmas. -/

set_option linter.unreachableTactic false
set_option linter.unusedTactic false

namespace Sys2Proof.Machine

variable {R : State → State → Prop}

theorem State.endSessions_frame (h : Frame R) {r0 : State} {s : State} (hs : R r0 s) : R r0 (State.endSessions s) :=
    by
  unfold State.endSessions
  repeat' (first
    | with_reducible (first
        | assumption | refine ite_frame (fun _ => ?_) (fun _ => ?_) | refine State.auditEvent_frame h ?_
        | refine forAll_frame h (fun _ _ => ?_) ?_ | exact h.refl _)
    | extract_lets | split)

theorem State.cold_frame (h : Frame R) {r0 s0 : State} (hs : R r0 s0) : R r0 (State.cold s0) := by
  have h1 : R r0 ((s0.releaseRole true).endSessions) := State.endSessions_frame h (State.releaseRole_frame h hs)
  have h2 := h.wrStep (a := Obj.bootMs) (v := 0xFFFF) (h.trans h1 (h.keep _))
  exact h.trans h2 (h.other rfl rfl rfl (Nat.le_refl _) (Nat.le_refl _))

theorem State.doReset_frame (h : Frame R) {r0 : State} {causes : Nat} {s : State} (hs : R r0 s) : R r0 (State.doReset causes s) := by
  unfold State.doReset
  exact h.trans (h.wrStep (State.bumpOpen_frame h (State.cold_frame h hs))) (h.other rfl rfl rfl (Nat.le_refl _) (Nat.le_refl _))

theorem State.classify_frame (h : Frame R) {r0 : State} {s : State} (hs : R r0 s) : R r0 (State.classify s) := by
  unfold State.classify
  repeat' with_reducible (first
    | assumption | refine State.modPower_frame h ?_ | exact h.refl _)

theorem State.redetect_frame (h : Frame R) {r0 : State} {s : State} (hs : R r0 s) : R r0 (State.redetect s) := by
  unfold State.redetect
  repeat' with_reducible (first
    | assumption | refine State.classify_frame h ?_ | refine State.modBoot_frame h ?_ | exact h.refl _)

theorem State.powerDown_frame (h : Frame R) {r0 : State} {slept : Bool} {s : State} (hs : R r0 s) :
    R r0 (State.powerDown slept s) :=
  h.trans (State.cold_frame h hs) (h.other rfl rfl rfl (Nat.le_refl _) (Nat.le_refl _))

theorem State.standbyEntry_frame (h : Frame R) {r0 : State} {s : State} (hs : R r0 s) : R r0 (State.standbyEntry s) :=
    by
  unfold State.standbyEntry
  repeat' (first
    | with_reducible (first
        | assumption | refine h.wrStep ?_ | refine State.dropGen_frame h ?_ | refine State.flushLogs_frame h ?_
        | refine State.powerDown_frame h ?_ | refine State.setMode_frame h ?_)
    | extract_lets)

theorem State.beginTransition_frame (h : Frame R) {r0 : State} {s : State} (hs : R r0 s) : R r0 (State.beginTransition
    s) := by
  unfold State.beginTransition
  repeat' (first
    | with_reducible (first
        | assumption | refine State.doReset_frame h ?_ | refine State.standbyEntry_frame h ?_)
    | split)

end Sys2Proof.Machine
end

