-- ==== Sys2Proof/Laws/FrameSafetyOps.lean ====
section
/-! SUPPORT. What every operation of Machine/SafetyOps.lean keeps: the frame lemmas. -/

set_option linter.unreachableTactic false
set_option linter.unusedTactic false

namespace Sys2Proof.Machine

variable {R : State → State → Prop}

theorem State.chanFault_frame (h : Frame R) {r0 : State} {ch : Chan} {code inst : Half} {data : Int} {s : State} (hs :
    R r0 s) : R r0 (State.chanFault ch code inst data s) := by
  unfold State.chanFault
  repeat' (first
    | with_reducible (first
        | assumption | refine State.fault_frame h ?_ | refine State.reportM_frame h ?_)
    | split)

theorem State.setStoIn_frame (h : Frame R) {r0 : State} {ch : Chan} {b : Bool} {s : State} (hs : R r0 s) : R r0
    (State.setStoIn ch b s) := by
  unfold State.setStoIn
  repeat' (first
    | with_reducible (first
        | assumption | refine State.modSafety_frame h ?_ | exact h.refl _)
    | split)

theorem State.setGuardOpen_frame (h : Frame R) {r0 : State} {ch : Chan} {b : Bool} {s : State} (hs : R r0 s) : R r0
    (State.setGuardOpen ch b s) := by
  unfold State.setGuardOpen
  repeat' (first
    | with_reducible (first
        | assumption | refine State.modSafety_frame h ?_ | exact h.refl _)
    | split)

theorem State.stoEval_frame (h : Frame R) {r0 : State} {ch : Chan} {s : State} (hs : R r0 s) : R r0 (State.stoEval ch
    s) := by
  unfold State.stoEval
  repeat' (first
    | with_reducible (first
        | assumption | refine ite_frame (fun _ => ?_) (fun _ => ?_) | refine State.demandSto_frame h ?_
        | refine State.safetyReport_frame h ?_ | refine State.setStoIn_frame h ?_ | refine State.ss1Start_frame h ?_)
    | extract_lets)

theorem State.guardEval_frame (h : Frame R) {r0 : State} {ch : Chan} {s : State} (hs : R r0 s) : R r0 (State.guardEval
    ch s) := by
  unfold State.guardEval
  repeat' (first
    | with_reducible (first
        | assumption | refine ite_frame (fun _ => ?_) (fun _ => ?_) | refine State.demandSto_frame h ?_
        | refine State.safetyReport_frame h ?_ | refine State.setGuardOpen_frame h ?_
        | refine State.ss1Start_frame h ?_)
    | extract_lets)

theorem State.stoEnd_frame (h : Frame R) {r0 : State} {ch : Chan} {s : State} (hs : R r0 s) : R r0 (State.stoEnd ch s)
    := by
  unfold State.stoEnd
  repeat' (first
    | with_reducible (first
        | assumption | refine ite_frame (fun _ => ?_) (fun _ => ?_) | refine h.wrStep ?_
        | refine State.modSafety_frame h ?_ | exact h.refl _)
    | extract_lets | split)

theorem State.guardTest_frame (h : Frame R) {r0 : State} {s : State} (hs : R r0 s) : R r0 (State.guardTest s) := by
  unfold State.guardTest
  repeat' (first
    | with_reducible (first
        | assumption | refine ite_frame (fun _ => ?_) (fun _ => ?_) | refine State.modSafety_frame h ?_
        | exact h.refl _)
    | extract_lets)

theorem State.safetyEval_frame (h : Frame R) {r0 : State} {s : State} (hs : R r0 s) : R r0 (State.safetyEval s) := by
  unfold State.safetyEval
  repeat' with_reducible (first
    | assumption | refine ite_frame (fun _ => ?_) (fun _ => ?_) | refine State.guardEval_frame h ?_
    | refine State.guardTest_frame h ?_ | refine State.stoEnd_frame h ?_ | refine State.stoEval_frame h ?_)

theorem State.discStep_frame (h : Frame R) {r0 : State} {ch : Chan} {s : State} (hs : R r0 s) : R r0 (State.discStep
    ch s) := by
  unfold State.discStep
  repeat' (first
    | with_reducible (first
        | assumption | refine ite_frame (fun _ => ?_) (fun _ => ?_) | refine h.wrStep ?_
        | refine State.modSafety_frame h ?_ | exact h.refl _ | change R _ (ite _ _ _))
    | extract_lets | split | exact h.trans hs (h.other rfl rfl rfl (Nat.le_refl _) (Nat.le_refl _))
    | exact h.other rfl rfl rfl (Nat.le_refl _) (Nat.le_refl _) | dsimp +zetaDelta only)

theorem State.diffStep_frame (h : Frame R) {r0 : State} {i : Fin 4} {s : State} (hs : R r0 s) : R r0 (State.diffStep i
    s) := by
  unfold State.diffStep
  repeat' (first
    | with_reducible (first
        | assumption | refine State.modSafety_frame h ?_ | exact h.refl _)
    | extract_lets)

theorem State.takeView_frame (h : Frame R) {r0 : State} {ch : Chan} {i : Fin 4} {level : Bool} {s : State} (hs : R r0
    s) : R r0 (State.takeView ch i level s) := by
  unfold State.takeView
  repeat' (first
    | with_reducible (first
        | assumption | refine State.diffStep_frame h ?_ | refine State.modSafety_frame h ?_ | exact h.refl _)
    | extract_lets | split)

theorem State.showParams_frame (h : Frame R) {r0 : State} {b : List Byte} {s : State} (hs : R r0 s) : R r0
    (State.showParams b s) := by
  unfold State.showParams
  repeat' with_reducible (first
    | assumption | refine State.wrs_frame h ?_)

end Sys2Proof.Machine
end

