-- ==== Sys2Proof/Laws/FrameOvenOps.lean ====
section
/-! SUPPORT. What every operation of Machine/OvenOps.lean keeps: the frame lemmas. -/

set_option linter.unreachableTactic false
set_option linter.unusedTactic false

namespace Sys2Proof.Machine

variable {R : State → State → Prop}

theorem State.loafClose_frame (h : Frame R) {r0 : State} {n : Fin 4} {test : Bool} {s : State} (hs : R r0 s) : R r0
    (State.loafClose n test s) := by
  unfold State.loafClose
  repeat' with_reducible (first
    | assumption | refine State.loafTo_frame h ?_ | refine State.modLoaf_frame h ?_ | refine State.modOven_frame h ?_
    | exact h.refl _)

theorem State.runCheck_frame (h : Frame R) {r0 : State} {n : Fin 4} {i : Nat} {beyond : Bool} {count : Nat} {code :
    Half} {data : Int} {s : State} (hs : R r0 s) : R r0 (State.runCheck n i beyond count code data s) := by
  unfold State.runCheck
  repeat' (first
    | with_reducible (first
        | assumption | refine ite_frame (fun _ => ?_) (fun _ => ?_) | refine State.latch_frame h ?_
        | refine State.modOven_frame h ?_ | exact h.refl _)
    | extract_lets)

theorem State.proofFrame_frame (h : Frame R) {r0 : State} {n : Fin 4} {inc : Bool} {l : Loop} {i3 : Rat × Rat × Rat}
    {theta thetaP : Nat} {weRev : Rat} {sensor : Bool} {k : Nat} {s : State} (hs : R r0 s) : R r0 (State.proofFrame n
    inc l i3 theta thetaP weRev sensor k s) := by
  unfold State.proofFrame
  repeat' (first
    | with_reducible (first
        | assumption | refine ite_frame (fun _ => ?_) (fun _ => ?_) | refine h.wrStep ?_
        | refine State.modOven_frame h ?_ | refine State.runCheck_frame h ?_ | exact h.refl _)
    | extract_lets)

theorem State.openPhase_frame (h : Frame R) {r0 : State} {n : Fin 4} {inc : Bool} {i3 v3 : Rat × Rat × Rat} {s :
    State} (hs : R r0 s) : R r0 (State.openPhase n inc i3 v3 s) := by
  unfold State.openPhase
  repeat' (first
    | with_reducible (first
        | assumption | refine ite_frame (fun _ => ?_) (fun _ => ?_) | refine h.wrStep ?_
        | refine State.bump_frame h ?_ | refine State.latch_frame h ?_ | refine State.modOven_frame h ?_
        | exact h.refl _ | change R _ (ite _ _ _))
    | extract_lets | split | exact h.trans hs (h.other rfl rfl rfl (Nat.le_refl _) (Nat.le_refl _))
    | exact h.other rfl rfl rfl (Nat.le_refl _) (Nat.le_refl _) | dsimp +zetaDelta only)

theorem State.lostCurrents_frame (h : Frame R) {r0 : State} {n : Fin 4} {s : State} (hs : R r0 s) : R r0
    (State.lostCurrents n s) := by
  unfold State.lostCurrents
  repeat' (first
    | with_reducible (first
        | assumption | refine ite_frame (fun _ => ?_) (fun _ => ?_) | refine h.wrStep ?_
        | refine forAll_frame h (fun _ _ => ?_) ?_ | refine State.latch_frame h ?_ | refine State.modOven_frame h ?_
        | exact h.refl _)
    | extract_lets)

theorem State.attribute_frame (h : Frame R) {r0 : State} {p : Nat} {n : Fin 4} {s : State} (hs : R r0 s) : R r0
    (State.attribute p n s) := by
  unfold State.attribute
  repeat' (first
    | with_reducible (first
        | assumption | refine ite_frame (fun _ => ?_) (fun _ => ?_) | refine State.latch_frame h ?_ | exact h.refl _)
    | extract_lets | split)

theorem State.attributed_frame (h : Frame R) {r0 : State} {code inst : Half} {s : State} (hs : R r0 s) : R r0
    (State.attributed code inst s) := by
  unfold State.attributed
  repeat' with_reducible (first
    | assumption | refine ite_frame (fun _ => ?_) (fun _ => ?_) | refine State.attribute_frame h ?_
    | refine forAll_frame h (fun _ _ => ?_) ?_ | exact h.refl _)

end Sys2Proof.Machine
end

