-- ==== Sys2Proof/Laws/FrameGroupOps.lean ====
section
/-! SUPPORT. What every operation of Machine/GroupOps.lean keeps: the frame lemmas. -/

set_option linter.unreachableTactic false
set_option linter.unusedTactic false

namespace Sys2Proof.Machine

variable {R : State → State → Prop}

theorem State.joinRun_frame (h : Frame R) {r0 : State} {n : Fin 4} {s : State} (hs : R r0 s) : R r0 (State.joinRun n s) := by
  unfold State.joinRun
  repeat' (first
    | with_reducible (first
        | assumption | refine ite_frame (fun _ => ?_) (fun _ => ?_) | refine State.loafClose_frame h ?_
        | refine State.loafTo_frame h ?_ | exact h.refl _)
    | extract_lets)

theorem State.groupStart_frame (h : Frame R) {r0 : State} {g : Fin 4} {s0 : State} (hs : R r0 s0) : R r0
    (State.groupStart g s0) := by
  unfold State.groupStart
  repeat' (first
    | with_reducible (first
        | assumption | refine ite_frame (fun _ => ?_) (fun _ => ?_) | refine State.fault_frame h ?_
        | refine forAll_frame h (fun _ _ => ?_) ?_ | refine State.joinRun_frame h ?_ | refine State.modGrp_frame h ?_ | refine State.modSafety_frame h ?_
        | exact h.refl _)
    | extract_lets)

theorem State.groupBegin_frame (h : Frame R) {r0 : State} {g : Fin 4} {s : State} (hs : R r0 s) : R r0
    (State.groupBegin g s) := by
  unfold State.groupBegin
  repeat' (first
    | with_reducible (first
        | assumption | refine ite_frame (fun _ => ?_) (fun _ => ?_) | refine State.fault_frame h ?_
        | refine forAll_frame h (fun _ _ => ?_) ?_ | refine State.joinRun_frame h ?_ | refine State.modGrp_frame h ?_ | refine State.modSafety_frame h ?_
        | exact h.refl _)
    | extract_lets)

theorem State.starterDone_frame (h : Frame R) {r0 : State} {g : Fin 4} {s : State} (hs : R r0 s) : R r0
    (State.starterDone g s) := by
  unfold State.starterDone
  repeat' (first
    | with_reducible (first
        | assumption | refine ite_frame (fun _ => ?_) (fun _ => ?_) | refine State.modGrp_frame h ?_ | exact h.refl _)
    | extract_lets)

theorem State.enterStopping_frame (h : Frame R) {r0 : State} {g : Fin 4} {s : State} (hs : R r0 s) : R r0
    (State.enterStopping g s) := by
  unfold State.enterStopping
  repeat' with_reducible (first
    | assumption | refine ite_frame (fun _ => ?_) (fun _ => ?_) | refine State.modGrp_frame h ?_ | exact h.refl _)

theorem State.rotationEnd_frame (h : Frame R) {r0 : State} {g : Fin 4} {s : State} (hs : R r0 s) : R r0
    (State.rotationEnd g s) := by
  unfold State.rotationEnd
  repeat' (first
    | with_reducible (first
        | assumption | refine ite_frame (fun _ => ?_) (fun _ => ?_) | refine h.wrStep ?_
        | refine State.enterStopping_frame h ?_ | refine State.latch_frame h ?_)
    | extract_lets)

theorem State.rotationStep_frame (h : Frame R) {r0 : State} {g : Fin 4} {s : State} (hs : R r0 s) : R r0
    (State.rotationStep g s) := by
  unfold State.rotationStep
  repeat' (first
    | with_reducible (first
        | assumption | refine ite_frame (fun _ => ?_) (fun _ => ?_) | refine State.modGrp_frame h ?_
        | refine State.rotationEnd_frame h ?_ | exact h.refl _)
    | extract_lets)

theorem State.polarityTest_frame (h : Frame R) {r0 : State} {g : Fin 4} {polarity : Int} {s : State} (hs : R r0 s) : R
    r0 (State.polarityTest g polarity s) := by
  unfold State.polarityTest
  repeat' (first
    | with_reducible (first
        | assumption | refine ite_frame (fun _ => ?_) (fun _ => ?_) | refine State.latch_frame h ?_
        | refine State.modGrp_frame h ?_ | exact h.refl _)
    | extract_lets)

theorem State.starterStep_frame (h : Frame R) {r0 : State} {g : Fin 4} {s : State} (hs : R r0 s) : R r0
    (State.starterStep g s) := by
  unfold State.starterStep
  repeat' (first
    | with_reducible (first
        | assumption | refine ite_frame (fun _ => ?_) (fun _ => ?_) | refine State.modGrp_frame h ?_
        | refine State.polarityTest_frame h ?_ | refine State.rotationStep_frame h ?_
        | refine State.starterDone_frame h ?_ | exact h.refl _)
    | extract_lets | split)

theorem State.hallHandover_frame (h : Frame R) {r0 : State} {g : Fin 4} {s : State} (hs : R r0 s) : R r0
    (State.hallHandover g s) := by
  unfold State.hallHandover
  repeat' (first
    | with_reducible (first
        | assumption | refine ite_frame (fun _ => ?_) (fun _ => ?_) | refine State.modGrp_frame h ?_ | exact h.refl _)
    | split)

theorem State.brakeDemand_frame (h : Frame R) {r0 : State} {g : Fin 4} {s : State} (hs : R r0 s) : R r0
    (State.brakeDemand g s) := by
  unfold State.brakeDemand
  repeat' (first
    | with_reducible (first
        | assumption | refine ite_frame (fun _ => ?_) (fun _ => ?_) | refine State.brakesOff_frame h ?_
        | refine State.modGrp_frame h ?_ | exact h.refl _)
    | extract_lets)

theorem State.groupStates_frame (h : Frame R) {r0 : State} {g : Fin 4} {s : State} (hs : R r0 s) : R r0
    (State.groupStates g s) := by
  unfold State.groupStates
  repeat' (first
    | with_reducible (first
        | assumption | refine ite_frame (fun _ => ?_) (fun _ => ?_) | refine State.brakeDemand_frame h ?_
        | refine State.enterStopping_frame h ?_ | refine State.groupBegin_frame h ?_
        | refine State.groupStopped_frame h ?_ | refine State.hallHandover_frame h ?_ | refine State.modGrp_frame h ?_
        | refine State.starterStep_frame h ?_ | exact h.refl _)
    | extract_lets)

theorem State.bankSwap_frame (h : Frame R) {r0 : State} {g : Fin 4} {s : State} (hs : R r0 s) : R r0 (State.bankSwap g
    s) := by
  unfold State.bankSwap
  repeat' (first
    | with_reducible (first
        | assumption | refine ite_frame (fun _ => ?_) (fun _ => ?_) | refine h.wrStep ?_
        | refine State.bump_frame h ?_ | refine forAll_frame h (fun _ _ => ?_) ?_ | refine State.modGrp_frame h ?_
        | exact h.refl _)
    | extract_lets)

theorem State.renormalise_frame (h : Frame R) {r0 : State} {g : Fin 4} {s : State} (hs : R r0 s) : R r0
    (State.renormalise g s) := by
  unfold State.renormalise
  repeat' (first
    | with_reducible (first
        | assumption | refine ite_frame (fun _ => ?_) (fun _ => ?_) | refine h.wrStep ?_
        | refine State.latch_frame h ?_ | refine State.modGrp_frame h ?_ | exact h.refl _)
    | extract_lets)

theorem State.genTo_frame (h : Frame R) {r0 : State} {g : Fin 4} {target t : Rat} {s : State} (hs : R r0 s) : R r0
    (State.genTo g target t s) := by
  unfold State.genTo
  repeat' (first
    | with_reducible (first
        | assumption | refine State.modGrp_frame h ?_ | exact h.refl _)
    | extract_lets)

theorem State.generator_frame (h : Frame R) {r0 : State} {g : Fin 4} {t : Rat} {s : State} (hs : R r0 s) : R r0
    (State.generator g t s) := by
  unfold State.generator
  repeat' (first
    | with_reducible (first
        | assumption | refine ite_frame (fun _ => ?_) (fun _ => ?_) | refine State.genTo_frame h ?_
        | refine State.modGrp_frame h ?_ | exact h.refl _)
    | extract_lets | split)

theorem State.posLoop_frame (h : Frame R) {r0 : State} {g : Fin 4} {s : State} (hs : R r0 s) : R r0 (State.posLoop g
    s) := by
  unfold State.posLoop
  repeat' (first
    | with_reducible (first
        | assumption | refine ite_frame (fun _ => ?_) (fun _ => ?_) | refine State.modGrp_frame h ?_ | exact h.refl _)
    | extract_lets)

theorem State.tensionLoop_frame (h : Frame R) {r0 : State} {g : Fin 4} {t : Rat} {s : State} (hs : R r0 s) : R r0
    (State.tensionLoop g t s) := by
  unfold State.tensionLoop
  repeat' (first
    | with_reducible (first
        | assumption | refine ite_frame (fun _ => ?_) (fun _ => ?_) | refine h.wrStep ?_
        | refine State.latch_frame h ?_ | refine State.modGrp_frame h ?_ | refine State.trim_frame h ?_
        | exact h.refl _)
    | extract_lets)

theorem State.mechCheck_frame (h : Frame R) {r0 : State} {g : Fin 4} {t : Rat} {n : Fin 4} {s : State} (hs : R r0 s) :
    R r0 (State.mechCheck g t n s) := by
  unfold State.mechCheck
  repeat' (first
    | with_reducible (first
        | assumption | refine ite_frame (fun _ => ?_) (fun _ => ?_) | refine h.wrStep ?_
        | refine State.runCheck_frame h ?_ | exact h.refl _)
    | extract_lets)

theorem State.latchTarget_frame (h : Frame R) {r0 : State} {g : Fin 4} {s : State} (hs : R r0 s) : R r0
    (State.latchTarget g s) := by
  unfold State.latchTarget
  repeat' (first
    | with_reducible (first
        | assumption | refine ite_frame (fun _ => ?_) (fun _ => ?_) | refine State.modGrp_frame h ?_ | exact h.refl _)
    | split)

theorem State.speedUpdate_frame (h : Frame R) {r0 : State} {g : Fin 4} {s : State} (hs : R r0 s) : R r0
    (State.speedUpdate g s) := by
  unfold State.speedUpdate
  repeat' (first
    | with_reducible (first
        | assumption | refine ite_frame (fun _ => ?_) (fun _ => ?_) | refine forAll_frame h (fun _ _ => ?_) ?_
        | refine State.generator_frame h ?_ | refine State.latch_frame h ?_ | refine State.mechCheck_frame h ?_
        | refine State.modGrp_frame h ?_ | refine State.posLoop_frame h ?_ | refine State.tensionLoop_frame h ?_
        | exact h.refl _)
    | extract_lets)

theorem State.groupFrame_frame (h : Frame R) {r0 : State} {g : Fin 4} {s : State} (hs : R r0 s) : R r0
    (State.groupFrame g s) := by
  unfold State.groupFrame
  repeat' (first
    | with_reducible (first
        | assumption | refine ite_frame (fun _ => ?_) (fun _ => ?_) | refine State.latch_frame h ?_
        | refine State.modGrp_frame h ?_ | exact h.refl _)
    | extract_lets)

theorem State.split_frame (h : Frame R) {r0 : State} {g : Fin 4} {s : State} (hs : R r0 s) : R r0 (State.split g s) :=
    by
  unfold State.split
  repeat' (first
    | with_reducible (first
        | assumption | refine ite_frame (fun _ => ?_) (fun _ => ?_) | refine h.wrStep ?_
        | refine forAll_frame h (fun _ _ => ?_) ?_ | refine State.modGrp_frame h ?_ | refine State.modOven_frame h ?_
        | refine State.modPair_frame h ?_ | refine State.wrs_frame h ?_ | exact h.refl _)
    | extract_lets)

theorem State.mirrorStates_frame (h : Frame R) {r0 : State} {g : Fin 4} {s : State} (hs : R r0 s) : R r0
    (State.mirrorStates g s) := by
  unfold State.mirrorStates
  repeat' (first
    | with_reducible (first
        | assumption | refine ite_frame (fun _ => ?_) (fun _ => ?_) | refine forAll_frame h (fun _ _ => ?_) ?_
        | refine State.loafClose_frame h ?_ | refine State.loafTo_frame h ?_ | exact h.refl _)
    | extract_lets)

theorem State.mirrorApply_frame (h : Frame R) {r0 : State} {g : Fin 4} {s : State} (hs : R r0 s) : R r0
    (State.mirrorApply g s) := by
  unfold State.mirrorApply
  repeat' (first
    | with_reducible (first
        | assumption | refine ite_frame (fun _ => ?_) (fun _ => ?_) | refine forAll_frame h (fun _ _ => ?_) ?_
        | refine State.modGrp_frame h ?_ | refine State.modOven_frame h ?_ | exact h.refl _)
    | extract_lets)

theorem State.followPartner_frame (h : Frame R) {r0 : State} {g : Fin 4} {s : State} (hs : R r0 s) : R r0
    (State.followPartner g s) := by
  unfold State.followPartner
  repeat' (first
    | with_reducible (first
        | assumption | refine ite_frame (fun _ => ?_) (fun _ => ?_) | refine State.groupStart_frame h ?_
        | refine State.groupStopped_frame h ?_ | refine State.modGrp_frame h ?_ | exact h.refl _)
    | extract_lets)

theorem State.boundSwap_frame (h : Frame R) {r0 : State} {g : Fin 4} {s : State} (hs : R r0 s) : R r0 (State.boundSwap
    g s) := by
  unfold State.boundSwap
  repeat' with_reducible (first
    | assumption | refine ite_frame (fun _ => ?_) (fun _ => ?_) | refine State.bankSwap_frame h ?_)

theorem State.groupBoundary_frame (h : Frame R) {r0 : State} {g : Fin 4} {s : State} (hs : R r0 s) : R r0
    (State.groupBoundary g s) := by
  unfold State.groupBoundary
  repeat' (first
    | with_reducible (first
        | assumption | refine ite_frame (fun _ => ?_) (fun _ => ?_) | refine State.boundSwap_frame h ?_
        | refine State.followPartner_frame h ?_ | refine State.groupFrame_frame h ?_
        | refine State.groupStates_frame h ?_ | refine State.groupsBare_frame h ?_
        | refine State.latchTarget_frame h ?_ | refine State.mirrorApply_frame h ?_
        | refine State.mirrorStates_frame h ?_ | refine State.modGrp_frame h ?_ | refine State.noShares_frame h ?_
        | refine State.renormalise_frame h ?_ | refine State.speedUpdate_frame h ?_ | refine State.split_frame h ?_
        | refine State.wrs_frame h ?_ | exact h.refl _)
    | extract_lets | split)

theorem State.swapIfIdle_frame (h : Frame R) {r0 : State} {g : Fin 4} {s : State} (hs : R r0 s) : R r0
    (State.swapIfIdle g s) := by
  unfold State.swapIfIdle
  repeat' with_reducible (first
    | assumption | refine ite_frame (fun _ => ?_) (fun _ => ?_) | refine State.bankSwap_frame h ?_ | exact h.refl _)

end Sys2Proof.Machine
end

