-- ==== Sys2Proof/Laws/FrameConvOps.lean ====
section
/-! SUPPORT. What every operation of Machine/ConvOps.lean keeps: the frame lemmas. -/

set_option linter.unreachableTactic false
set_option linter.unusedTactic false

namespace Sys2Proof.Machine

variable {R : State → State → Prop}

theorem State.modConvN_frame (h : Frame R) {r0 : State} {k : Nat} {f : ConvSt → ConvSt} {s : State} (hs : R r0 s) : R
    r0 (State.modConvN k f s) := by
  unfold State.modConvN
  repeat' with_reducible (first
    | assumption | refine State.modConv_frame h ?_)

theorem State.accumulate_frame (h : Frame R) {r0 : State} {k i : Nat} {v : Int} {bad sat : Bool} {inst : Nat} {s :
    State} (hs : R r0 s) : R r0 (State.accumulate k i v bad sat inst s) := by
  unfold State.accumulate
  repeat' (first
    | with_reducible (first
        | assumption | refine ite_frame (fun _ => ?_) (fun _ => ?_) | refine State.bump_frame h ?_ | exact h.refl _)
    | extract_lets | split | exact h.trans hs (h.other rfl rfl rfl (Nat.le_refl _) (Nat.le_refl _)))

theorem State.auxMean_frame (h : Frame R) {r0 : State} {l : List Acc} {i : Nat} {s : State} (hs : R r0 s) : R r0
    (State.auxMean l i s) := by
  unfold State.auxMean
  repeat' (first
    | with_reducible (first
        | assumption | refine ite_frame (fun _ => ?_) (fun _ => ?_) | refine h.wrStep ?_
        | refine State.modConvN_frame h ?_ | exact h.refl _)
    | split)

theorem State.offer_frame (h : Frame R) {r0 : State} {k i : Nat} {v : Int} {sat bad : Bool} {s : State} (hs : R r0 s)
    : R r0 (State.offer k i v sat bad s) := by
  unfold State.offer
  repeat' (first
    | with_reducible (first
        | assumption | refine ite_frame (fun _ => ?_) (fun _ => ?_) | refine h.wrStep ?_
        | refine State.modConvN_frame h ?_ | exact h.refl _)
    | extract_lets)

theorem State.saturated_frame (h : Frame R) {r0 : State} {k i : Nat} {s : State} (hs : R r0 s) : R r0 (State.saturated
    k i s) := by
  unfold State.saturated
  repeat' with_reducible (first
    | assumption | refine State.latchLimited_frame h ?_ | refine State.wrBit_frame h ?_)

theorem State.calibrate_frame (h : Frame R) {r0 : State} {k i : Nat} {raw : Int} {bad sat : Bool} {s : State} (hs : R
    r0 s) : R r0 (State.calibrate k i raw bad sat s) := by
  unfold State.calibrate
  repeat' with_reducible (first
    | assumption | refine ite_frame (fun _ => ?_) (fun _ => ?_) | refine State.modCmd_frame h ?_ | exact h.refl _)

theorem State.dropHeld_frame (h : Frame R) {r0 : State} {n : Fin 4} {b : Nat} {s : State} (hs : R r0 s) : R r0
    (State.dropHeld n b s) := by
  unfold State.dropHeld
  repeat' (first
    | with_reducible (first
        | assumption | refine forAll_frame h (fun _ _ => ?_) ?_ | refine State.modConvN_frame h ?_ | exact h.refl _)
    | extract_lets)

theorem State.overrun_frame (h : Frame R) {r0 : State} {k : Nat} {s : State} (hs : R r0 s) : R r0 (State.overrun k s)
    := by
  unfold State.overrun
  repeat' with_reducible (first
    | assumption | refine State.bump_frame h ?_ | refine State.latchLimited_frame h ?_)

theorem State.injNext_frame (h : Frame R) {r0 : State} {k : Nat} {s : State} (hs : R r0 s) : R r0 (State.injNext k s)
    := by
  unfold State.injNext
  repeat' (first
    | with_reducible (first
        | assumption | refine ite_frame (fun _ => ?_) (fun _ => ?_) | refine State.modConvN_frame h ?_
        | exact h.refl _)
    | extract_lets)

theorem State.injStart_frame (h : Frame R) {r0 : State} {k : Nat} {s : State} (hs : R r0 s) : R r0 (State.injStart k
    s) := by
  unfold State.injStart
  repeat' (first
    | with_reducible (first
        | assumption | refine ite_frame (fun _ => ?_) (fun _ => ?_) | refine State.modConvN_frame h ?_
        | refine State.overrun_frame h ?_ | exact h.refl _)
    | extract_lets)

theorem State.burstStart_frame (h : Frame R) {r0 : State} {even line : Nat} {own : Option (Nat × Nat × Int)} {s :
    State} (hs : R r0 s) : R r0 (State.burstStart even line own s) := by
  unfold State.burstStart
  repeat' (first
    | with_reducible (first
        | assumption | refine ite_frame (fun _ => ?_) (fun _ => ?_) | refine State.modConvN_frame h ?_
        | refine State.overrun_frame h ?_ | exact h.refl _)
    | extract_lets)

theorem State.reconTake_frame (h : Frame R) {r0 : State} {n p : Nat} {v : Rat} {s : State} (hs : R r0 s) : R r0
    (State.reconTake n p v s) := by
  unfold State.reconTake
  repeat' with_reducible (first
    | assumption | refine State.modOven_frame h ?_ | exact h.refl _)

theorem State.burstHanded_frame (h : Frame R) {r0 : State} {even : Nat} {n : Fin 4} {s : State} (hs : R r0 s) : R r0
    (State.burstHanded even n s) := by
  unfold State.burstHanded
  repeat' with_reducible (first
    | assumption | refine State.modLoaf_frame h ?_ | exact h.refl _)

theorem State.burstEnd_frame (h : Frame R) {r0 : State} {even : Nat} {s : State} (hs : R r0 s) : R r0 (State.burstEnd
    even s) := by
  unfold State.burstEnd
  repeat' (first
    | with_reducible (first
        | assumption | refine State.burstHanded_frame h ?_ | refine State.injNext_frame h ?_
        | refine State.modConvN_frame h ?_ | refine State.reconTake_frame h ?_ | refine State.setBlob_frame h ?_
        | exact h.refl _)
    | extract_lets | split)

theorem State.burstSample_frame (h : Frame R) {r0 : State} {even : Nat} {v : Int} {inst : Nat} {s : State} (hs : R r0
    s) : R r0 (State.burstSample even v inst s) := by
  unfold State.burstSample
  repeat' (first
    | with_reducible (first
        | assumption | refine ite_frame (fun _ => ?_) (fun _ => ?_) | refine State.burstEnd_frame h ?_
        | refine State.modConvN_frame h ?_ | exact h.refl _)
    | extract_lets | split)

theorem State.injSample_frame (h : Frame R) {r0 : State} {k i : Nat} {v : Int} {inst : Nat} {s : State} (hs : R r0 s)
    : R r0 (State.injSample k i v inst s) := by
  unfold State.injSample
  repeat' (first
    | with_reducible (first
        | assumption | refine ite_frame (fun _ => ?_) (fun _ => ?_) | refine h.wrStep ?_
        | refine forAll_frame h (fun _ _ => ?_) ?_ | refine State.injNext_frame h ?_
        | refine State.modConvN_frame h ?_ | exact h.refl _)
    | extract_lets | split)

theorem State.capFollow_frame (h : Frame R) {r0 : State} {s : State} (hs : R r0 s) : R r0 (State.capFollow s) := by
  unfold State.capFollow
  repeat' with_reducible (first
    | assumption | refine ite_frame (fun _ => ?_) (fun _ => ?_) | refine h.wrStep ?_)

theorem State.capItem_frame (h : Frame R) {r0 : State} {src : Nat} {v : Int} {inst : Nat} {s : State} (hs : R r0 s) :
    R r0 (State.capItem src v inst s) := by
  unfold State.capItem
  repeat' (first
    | with_reducible (first
        | assumption | refine ite_frame (fun _ => ?_) (fun _ => ?_) | refine State.capFollow_frame h ?_
        | refine State.modCap_frame h ?_ | exact h.refl _)
    | extract_lets)

theorem State.capRecord_frame (h : Frame R) {r0 : State} {n : Nat} {bytes : List Byte} {s : State} (hs : R r0 s) : R
    r0 (State.capRecord n bytes s) := by
  unfold State.capRecord
  repeat' (first
    | with_reducible (first
        | assumption | refine ite_frame (fun _ => ?_) (fun _ => ?_) | refine State.capFollow_frame h ?_
        | refine State.modCap_frame h ?_ | exact h.refl _)
    | extract_lets)

theorem State.capThreshold_frame (h : Frame R) {r0 : State} {v : Int} {inst : Nat} {s : State} (hs : R r0 s) : R r0
    (State.capThreshold v inst s) := by
  unfold State.capThreshold
  repeat' (first
    | with_reducible (first
        | assumption | refine ite_frame (fun _ => ?_) (fun _ => ?_) | refine State.captureTriggerAt_frame h ?_
        | refine State.modCap_frame h ?_ | exact h.refl _)
    | extract_lets | split)

theorem State.capSample_frame (h : Frame R) {r0 : State} {src : Nat} {v : Int} {inst : Nat} {s : State} (hs : R r0 s)
    : R r0 (State.capSample src v inst s) := by
  unfold State.capSample
  repeat' (first
    | with_reducible (first
        | assumption | refine ite_frame (fun _ => ?_) (fun _ => ?_) | refine State.capItem_frame h ?_
        | refine State.capThreshold_frame h ?_)
    | extract_lets)

theorem State.capArm_frame (h : Frame R) {r0 : State} {s : State} (hs : R r0 s) : R r0 (State.capArm s) := by
  unfold State.capArm
  repeat' (first
    | with_reducible (first
        | assumption | refine ite_frame (fun _ => ?_) (fun _ => ?_) | refine State.capFollow_frame h ?_
        | refine State.modCap_frame h ?_ | refine State.wrs_frame h ?_ | exact h.refl _)
    | extract_lets)

theorem State.capDisarm_frame (h : Frame R) {r0 : State} {s : State} (hs : R r0 s) : R r0 (State.capDisarm s) := by
  unfold State.capDisarm
  repeat' with_reducible (first
    | assumption | refine State.modCap_frame h ?_ | refine State.wrs_frame h ?_ | exact h.refl _)

theorem State.lastResult_frame (h : Frame R) {r0 : State} {k i : Nat} {v : Int} {bad : Bool} {inst : Nat} {s : State}
    (hs : R r0 s) : R r0 (State.lastResult k i v bad inst s) := by
  unfold State.lastResult
  repeat' with_reducible (first
    | assumption | refine h.wrStep ?_ | refine State.modConvN_frame h ?_ | exact h.refl _)

theorem State.scTake_frame (h : Frame R) {r0 : State} {i : Nat} {v : Int} {bad : Bool} {inst : Nat} {s : State} (hs :
    R r0 s) : R r0 (State.scTake i v bad inst s) := by
  unfold State.scTake
  repeat' (first
    | with_reducible (first
        | assumption | refine ite_frame (fun _ => ?_) (fun _ => ?_) | refine State.modFb_frame h ?_ | exact h.refl _)
    | extract_lets)

theorem State.owStep_frame (h : Frame R) {r0 : State} {k i : Nat} {v : Int} {inst : Nat} {s : State} (hs : R r0 s) : R
    r0 (State.owStep k i v inst s) := by
  unfold State.owStep
  repeat' (first
    | with_reducible (first
        | assumption | refine ite_frame (fun _ => ?_) (fun _ => ?_) | refine State.modConvN_frame h ?_
        | exact h.refl _)
    | extract_lets)

theorem State.sampleCommon_frame (h : Frame R) {r0 : State} {own i : Nat} {v : Int} {sat bad : Bool} {inst : Nat} {s :
    State} (hs : R r0 s) : R r0 (State.sampleCommon own i v sat bad inst s) := by
  unfold State.sampleCommon
  repeat' (first
    | with_reducible (first
        | assumption | refine ite_frame (fun _ => ?_) (fun _ => ?_) | refine State.lastResult_frame h ?_
        | refine State.offer_frame h ?_ | refine State.owStep_frame h ?_ | refine State.saturated_frame h ?_)
    | extract_lets)

end Sys2Proof.Machine
end

