-- ==== Sys2Proof/Laws/FrameFbOps.lean ====
section
/-! SUPPORT. What every operation of Machine/FbOps.lean keeps: the frame lemmas. -/

set_option linter.unreachableTactic false
set_option linter.unusedTactic false

namespace Sys2Proof.Machine

variable {R : State → State → Prop}

theorem State.formSpeed_frame (h : Frame R) {r0 : State} {n : Fin 4} {t : Nat} {s : State} (hs : R r0 s) : R r0
    (State.formSpeed n t s) := by
  unfold State.formSpeed
  repeat' (first
    | with_reducible (first
        | assumption | refine ite_frame (fun _ => ?_) (fun _ => ?_) | refine State.modFb_frame h ?_
        | refine State.wrs_frame h ?_ | exact h.refl _)
    | extract_lets)

theorem State.indexMissing_frame (h : Frame R) {r0 : State} {n : Fin 4} {s : State} (hs : R r0 s) : R r0
    (State.indexMissing n s) := by
  unfold State.indexMissing
  repeat' (first
    | with_reducible (first
        | assumption | refine ite_frame (fun _ => ?_) (fun _ => ?_) | refine State.latch_frame h ?_
        | refine State.modFb_frame h ?_ | exact h.refl _)
    | extract_lets)

theorem State.illegal_frame (h : Frame R) {r0 : State} {n : Fin 4} {s : State} (hs : R r0 s) : R r0 (State.illegal n
    s) := by
  unfold State.illegal
  repeat' with_reducible (first
    | assumption | refine State.bump_frame h ?_ | refine State.latchLimited_frame h ?_ | refine State.modFb_frame h ?_
    | exact h.refl _)

theorem State.edgeT_frame (h : Frame R) {r0 : State} {n : Fin 4} {inst : Nat} {s : State} (hs : R r0 s) : R r0
    (State.edgeT n inst s) := by
  unfold State.edgeT
  repeat' with_reducible (first
    | assumption | refine h.wrStep ?_)

theorem State.setTracks_frame (h : Frame R) {r0 : State} {n : Fin 4} {a b : Bool} {s : State} (hs : R r0 s) : R r0
    (State.setTracks n a b s) := by
  unfold State.setTracks
  repeat' with_reducible (first
    | assumption | refine ite_frame (fun _ => ?_) (fun _ => ?_) | refine State.modFb_frame h ?_ | exact h.refl _)

theorem State.quadEdge_frame (h : Frame R) {r0 : State} {n : Fin 4} {a b : Bool} {inst t : Nat} {s : State} (hs : R r0
    s) : R r0 (State.quadEdge n a b inst t s) := by
  unfold State.quadEdge
  repeat' (first
    | with_reducible (first
        | assumption | refine ite_frame (fun _ => ?_) (fun _ => ?_) | refine State.edgeT_frame h ?_
        | refine State.illegal_frame h ?_ | refine State.indexMissing_frame h ?_ | refine State.modFb_frame h ?_
        | refine State.setTracks_frame h ?_ | refine State.showCount_frame h ?_ | refine State.showPos_frame h ?_
        | exact h.refl _)
    | extract_lets)

theorem State.setLevels_frame (h : Frame R) {r0 : State} {n : Fin 4} {a b z : Bool} {t : Nat} {s : State} (hs : R r0
    s) : R r0 (State.setLevels n a b z t s) := by
  unfold State.setLevels
  repeat' (first
    | with_reducible (first
        | assumption | refine State.modFb_frame h ?_ | exact h.refl _)
    | extract_lets)

theorem State.hallEdge_frame (h : Frame R) {r0 : State} {n : Fin 4} {a b z : Bool} {inst t : Nat} {s : State} (hs : R
    r0 s) : R r0 (State.hallEdge n a b z inst t s) := by
  unfold State.hallEdge
  repeat' (first
    | with_reducible (first
        | assumption | refine ite_frame (fun _ => ?_) (fun _ => ?_) | refine State.edgeT_frame h ?_
        | refine State.illegal_frame h ?_ | refine State.modFb_frame h ?_ | refine State.setLevels_frame h ?_
        | refine State.showCount_frame h ?_ | refine State.showPos_frame h ?_ | exact h.refl _)
    | extract_lets | split)

theorem State.gateFollow_frame (h : Frame R) {r0 : State} {n : Fin 4} {s : State} (hs : R r0 s) : R r0
    (State.gateFollow n s) := by
  unfold State.gateFollow
  repeat' with_reducible (first
    | assumption | refine State.modFb_frame h ?_ | exact h.refl _)

theorem State.setCount_frame (h : Frame R) {r0 : State} {n : Fin 4} {c : Int} {s : State} (hs : R r0 s) : R r0
    (State.setCount n c s) := by
  unfold State.setCount
  repeat' (first
    | with_reducible (first
        | assumption | refine ite_frame (fun _ => ?_) (fun _ => ?_) | refine State.modFb_frame h ?_
        | refine State.showCount_frame h ?_ | refine State.showPos_frame h ?_ | exact h.refl _)
    | extract_lets)

theorem State.indexTake_frame (h : Frame R) {r0 : State} {n : Fin 4} {s : State} (hs : R r0 s) : R r0 (State.indexTake
    n s) := by
  unfold State.indexTake
  repeat' (first
    | with_reducible (first
        | assumption | refine ite_frame (fun _ => ?_) (fun _ => ?_) | refine h.wrStep ?_
        | refine State.bump_frame h ?_ | refine State.latch_frame h ?_ | refine State.modFb_frame h ?_
        | refine State.setCount_frame h ?_ | exact h.refl _)
    | extract_lets)

theorem State.serFail_frame (h : Frame R) {r0 : State} {n : Fin 4} {s : State} (hs : R r0 s) : R r0 (State.serFail n
    s) := by
  unfold State.serFail
  repeat' (first
    | with_reducible (first
        | assumption | refine ite_frame (fun _ => ?_) (fun _ => ?_) | refine State.bump_frame h ?_
        | refine State.latch_frame h ?_ | refine State.modFb_frame h ?_ | exact h.refl _)
    | extract_lets)

theorem State.serTake_frame (h : Frame R) {r0 : State} {n : Fin 4} {mt st t0 : Nat} {s : State} (hs : R r0 s) : R r0
    (State.serTake n mt st t0 s) := by
  unfold State.serTake
  repeat' (first
    | with_reducible (first
        | assumption | refine ite_frame (fun _ => ?_) (fun _ => ?_) | refine h.wrStep ?_
        | refine State.modFb_frame h ?_ | refine State.showCount_frame h ?_ | refine State.showPos_frame h ?_
        | exact h.refl _)
    | extract_lets)

theorem State.scMerge_frame (h : Frame R) {r0 : State} {p : ScPair} {t : Nat} {s : State} (hs : R r0 s) : R r0
    (State.scMerge p t s) := by
  unfold State.scMerge
  repeat' (first
    | with_reducible (first
        | assumption | refine ite_frame (fun _ => ?_) (fun _ => ?_) | refine h.wrStep ?_
        | refine State.bump_frame h ?_ | refine State.latch_frame h ?_ | refine State.modFb_frame h ?_
        | refine State.showCount_frame h ?_ | refine State.showPos_frame h ?_ | exact h.refl _)
    | extract_lets | split)

theorem State.fbLatch_frame (h : Frame R) {r0 : State} {n : Fin 4} {c : Fin 4} {t : Nat} {s : State} (hs : R r0 s) : R
    r0 (State.fbLatch n c t s) := by
  unfold State.fbLatch
  repeat' (first
    | with_reducible (first
        | assumption | refine State.latch_frame h ?_ | refine State.modFb_frame h ?_ | exact h.refl _)
    | extract_lets)

theorem State.fbFinish_frame (h : Frame R) {r0 : State} {c : Fin 4} {t : Nat} {s : State} (hs : R r0 s) : R r0
    (State.fbFinish c t s) := by
  unfold State.fbFinish
  repeat' (first
    | with_reducible (first
        | assumption | refine ite_frame (fun _ => ?_) (fun _ => ?_) | refine State.fbFollow_frame h ?_
        | refine State.fbLatch_frame h ?_ | refine State.formSpeed_frame h ?_ | refine State.modFb_frame h ?_
        | refine State.scMerge_frame h ?_ | exact h.refl _)
    | extract_lets | split)

theorem State.fbBoundary_frame (h : Frame R) {r0 : State} {c : Fin 4} {t : Nat} {s : State} (hs : R r0 s) : R r0
    (State.fbBoundary c t s) := by
  unfold State.fbBoundary
  repeat' with_reducible (first
    | assumption | refine ite_frame (fun _ => ?_) (fun _ => ?_) | refine State.fbFinish_frame h ?_
    | refine State.modFb_frame h ?_ | exact h.refl _)

theorem State.fbHandoff_frame (h : Frame R) {r0 : State} {n : Fin 4} {t : Nat} {s : State} (hs : R r0 s) : R r0
    (State.fbHandoff n t s) := by
  unfold State.fbHandoff
  repeat' with_reducible (first
    | assumption | refine ite_frame (fun _ => ?_) (fun _ => ?_) | refine State.fbBoundary_frame h ?_
    | refine State.fbLatch_frame h ?_ | refine forAll_frame h (fun _ _ => ?_) ?_ | exact h.refl _)

theorem State.fbResume_frame (h : Frame R) {r0 : State} {n : Fin 4} {s : State} (hs : R r0 s) : R r0 (State.fbResume n
    s) := by
  unfold State.fbResume
  repeat' (first
    | with_reducible (first
        | assumption | refine ite_frame (fun _ => ?_) (fun _ => ?_) | refine State.fbFinish_frame h ?_)
    | split)

theorem State.serNext_frame (h : Frame R) {r0 : State} {c : Fin 4} {t : Nat} {s : State} (hs : R r0 s) : R r0
    (State.serNext c t s) := by
  unfold State.serNext
  repeat' (first
    | with_reducible (first
        | assumption | refine State.modFb_frame h ?_ | exact h.refl _)
    | split)

end Sys2Proof.Machine
end

