-- ==== Sys2Proof/Laws/FrameFrame.lean ====
section
/-! SUPPORT. What every operation of Machine/Frame.lean keeps: the frame lemmas. -/

set_option linter.unreachableTactic false
set_option linter.unusedTactic false

namespace Sys2Proof.Machine

variable {R : State → State → Prop}

theorem State.setActive_frame (h : Frame R) {r0 : State} {n : Fin 4} {c : Int × Int × Int} {s : State} (hs : R r0 s) :
    R r0 (State.setActive n c s) := by
  unfold State.setActive
  repeat' with_reducible (first
    | assumption | refine State.wrs_frame h ?_)

theorem State.reloadCommits_frame (h : Frame R) {r0 : State} {n : Fin 4} {t : Nat} {s : State} (hs : R r0 s) : R r0
    (State.reloadCommits n t s) := by
  unfold State.reloadCommits
  repeat' (first
    | with_reducible (first
        | assumption | refine State.modLoaf_frame h ?_ | refine State.setActive_frame h ?_ | exact h.refl _)
    | extract_lets | split)

theorem State.reloadTiming_frame (h : Frame R) {r0 : State} {n : Fin 4} {atStart : Bool} {s : State} (hs : R r0 s) : R
    r0 (State.reloadTiming n atStart s) := by
  unfold State.reloadTiming
  repeat' with_reducible (first
    | assumption | refine ite_frame (fun _ => ?_) (fun _ => ?_) | refine State.modLoaf_frame h ?_ | exact h.refl _)

theorem State.crustRefresh_frame (h : Frame R) {r0 : State} {n : Fin 4} {s : State} (hs : R r0 s) : R r0
    (State.crustRefresh n s) := by
  unfold State.crustRefresh
  repeat' (first
    | with_reducible (first
        | assumption | refine State.modLoaf_frame h ?_ | exact h.refl _)
    | extract_lets)

theorem State.splitAcc_frame (h : Frame R) {r0 : State} {n : Fin 4} {s : State} (hs : R r0 s) : R r0 (State.splitAcc n
    s) := by
  unfold State.splitAcc
  repeat' (first
    | with_reducible (first
        | assumption | exact h.refl _)
    | extract_lets | exact h.trans hs (h.other rfl rfl rfl (Nat.le_refl _) (Nat.le_refl _)))

theorem State.groupAt_frame (h : Frame R) {r0 : State} {n : Fin 4} {s : State} (hs : R r0 s) : R r0 (State.groupAt n
    s) := by
  unfold State.groupAt
  repeat' (first
    | with_reducible (first
        | assumption | refine ite_frame (fun _ => ?_) (fun _ => ?_) | refine State.drew_frame h ?_
        | refine forAll_frame h (fun _ _ => ?_) ?_ | refine State.groupBoundary_frame h ?_
        | refine State.modLoaf_frame h ?_ | refine State.modPair_frame h ?_ | refine State.releaseRole_frame h ?_
        | exact h.refl _)
    | extract_lets | split)

theorem State.asCut_frame (h : Frame R) {r0 : State} {g : Fin 4} {c : GroupCut} {s : State} (hs : R r0 s) : R r0
    (State.asCut g c s) := by
  unfold State.asCut
  repeat' with_reducible (first
    | assumption | refine forAll_frame h (fun _ _ => ?_) ?_ | refine State.modGrp_frame h ?_
    | refine State.modLoaf_frame h ?_ | exact h.refl _)

theorem State.afterCut_frame (h : Frame R) {r0 : State} {g : Fin 4} {c : GroupCut} {r s : State} (hs : R r0 s) :
    R r0 (State.afterCut g c r s) := by
  unfold State.afterCut
  extract_lets y
  exact forAll_frame h (fun m x => ite_frame (fun _ => h.refl _) (fun _ => State.modLoaf_frame h (h.refl _))) (State.modGrp_frame h hs)

theorem State.handover_frame (h : Frame R) {r0 : State} {n : Fin 4} {t : Nat} {s : State} (hs : R r0 s) : R r0
    (State.handover n t s) := by
  unfold State.handover
  repeat' (first
    | with_reducible (first
        | assumption | refine ite_frame (fun _ => ?_) (fun _ => ?_) | refine State.fbHandoff_frame h ?_
        | refine State.groupAt_frame h ?_ | refine State.modGrp_frame h ?_ | refine State.modLoaf_frame h ?_
        | exact h.refl _)
    | extract_lets | split)

theorem State.groupResume_frame (h : Frame R) {r0 : State} {n : Fin 4} {s : State} (hs : R r0 s) : R r0
    (State.groupResume n s) := by
  unfold State.groupResume
  repeat' (first
    | with_reducible (first
        | assumption | refine ite_frame (fun _ => ?_) (fun _ => ?_) | refine State.afterCut_frame h ?_
        | refine State.asCut_frame h ?_ | refine State.groupAt_frame h ?_ | refine State.modLoaf_frame h ?_
        | exact h.refl _)
    | extract_lets | split)

theorem State.sampleCame_frame (h : Frame R) {r0 : State} {c : Fin 4} {s : State} (hs : R r0 s) : R r0
    (State.sampleCame c s) := by
  unfold State.sampleCame
  repeat' with_reducible (first
    | assumption | refine State.fbResume_frame h ?_ | refine State.groupResume_frame h ?_)

theorem State.reconAsk_frame (h : Frame R) {r0 : State} {n : Fin 4} {s : State} (hs : R r0 s) : R r0 (State.reconAsk n
    s) := by
  unfold State.reconAsk
  repeat' (first
    | with_reducible (first
        | assumption | refine ite_frame (fun _ => ?_) (fun _ => ?_) | refine State.modConvN_frame h ?_
        | refine State.modOven_frame h ?_ | exact h.refl _)
    | extract_lets | split)

theorem State.layPeriod_frame (h : Frame R) {r0 : State} {n : Fin 4} {t : Nat} {corr : Int} {s : State} (hs : R r0 s)
    : R r0 (State.layPeriod n t corr s) := by
  unfold State.layPeriod
  repeat' (first
    | with_reducible (first
        | assumption | refine State.modLoaf_frame h ?_ | exact h.refl _)
    | extract_lets)

theorem State.periodBegin_frame (h : Frame R) {r0 : State} {n : Fin 4} {s : State} (hs : R r0 s) : R r0
    (State.periodBegin n s) := by
  unfold State.periodBegin
  repeat' (first
    | with_reducible (first
        | assumption | refine ite_frame (fun _ => ?_) (fun _ => ?_) | refine State.gapBegin_frame h ?_
        | refine State.modLoaf_frame h ?_ | refine State.occur_frame h ?_ | exact h.refl _)
    | extract_lets)

theorem State.epochStep_frame (h : Frame R) {r0 : State} {n : Fin 4} {t : Nat} {s : State} (hs : R r0 s) : R r0
    (State.epochStep n t s) := by
  unfold State.epochStep
  repeat' (first
    | with_reducible (first
        | assumption | refine ite_frame (fun _ => ?_) (fun _ => ?_) | refine h.wrStep ?_
        | refine State.modTime_frame h (Nat.le_refl _) ?_ | refine State.wrBit_frame h ?_ | exact h.refl _)
    | extract_lets)

theorem State.counterStart_frame (h : Frame R) {r0 : State} {n : Fin 4} {t : Nat} {s00 : State} (hs : R r0 s00) : R r0
    (State.counterStart n t s00) := by
  unfold State.counterStart
  repeat' (first
    | with_reducible (first
        | assumption | refine ite_frame (fun _ => ?_) (fun _ => ?_) | refine h.wrStep ?_
        | refine State.crustRefresh_frame h ?_ | refine State.dropHeld_frame h ?_ | refine State.epochStep_frame h ?_
        | refine State.handover_frame h ?_ | refine State.layPeriod_frame h ?_ | refine State.modLoaf_frame h ?_
        | refine State.modOven_frame h ?_ | refine State.periodBegin_frame h ?_ | refine State.pwmTo_frame h ?_
        | refine State.reconAsk_frame h ?_ | refine State.reloadCommits_frame h ?_
        | refine State.reloadTiming_frame h ?_ | exact h.refl _ | change R _ (ite _ _ _))
    | extract_lets | split | exact h.trans hs (h.other rfl rfl rfl (Nat.le_refl _) (Nat.le_refl _))
    | exact h.trans (State.pwmTo_frame h hs) (h.other rfl rfl rfl (Nat.le_refl _) (Nat.le_refl _))
    | exact h.other rfl rfl rfl (Nat.le_refl _) (Nat.le_refl _) | dsimp +zetaDelta only)

theorem State.eventPacket_frame (h : Frame R) {r0 : State} {n : Fin 4} {s : State} (hs : R r0 s) : R r0
    (State.eventPacket n s) := by
  unfold State.eventPacket
  repeat' (first
    | with_reducible (first
        | assumption | refine State.enqueue_frame h ?_ | exact h.refl _)
    | extract_lets)

theorem State.lateCheck_frame (h : Frame R) {r0 : State} {n : Fin 4} {took : Bool} {s : State} (hs : R r0 s) : R r0
    (State.lateCheck n took s) := by
  unfold State.lateCheck
  repeat' (first
    | with_reducible (first
        | assumption | refine ite_frame (fun _ => ?_) (fun _ => ?_) | refine h.wrStep ?_
        | refine State.bump_frame h ?_ | refine State.bumpTo_frame h ?_ | refine State.latch_frame h ?_
        | refine State.modLoaf_frame h ?_ | exact h.refl _)
    | extract_lets)

theorem State.frameExtras_frame (h : Frame R) {r0 : State} {n : Fin 4} {s : State} (hs : R r0 s) : R r0
    (State.frameExtras n s) := by
  unfold State.frameExtras
  repeat' (first
    | with_reducible (first
        | assumption | refine ite_frame (fun _ => ?_) (fun _ => ?_) | refine State.modLoaf_frame h ?_ | exact h.refl _)
    | extract_lets)

theorem State.ovenBoundary_frame (h : Frame R) {r0 : State} {n : Fin 4} {s : State} (hs : R r0 s) : R r0
    (State.ovenBoundary n s) := by
  unfold State.ovenBoundary
  repeat' (first
    | with_reducible (first
        | assumption | refine State.modOven_frame h ?_ | exact h.refl _)
    | extract_lets)

theorem State.boundary_frame (h : Frame R) {r0 : State} {n : Fin 4} {t : Nat} {s0 : State} (hs : R r0 s0) : R r0
    (State.boundary n t s0) := by
  unfold State.boundary
  repeat' (first
    | with_reducible (first
        | assumption | refine ite_frame (fun _ => ?_) (fun _ => ?_) | refine State.bumpWrap_frame h ?_
        | refine State.crustRefresh_frame h ?_ | refine State.eventPacket_frame h ?_
        | refine State.frameExtras_frame h ?_ | refine State.handover_frame h ?_ | refine State.lateCheck_frame h ?_
        | refine State.modLoaf_frame h ?_ | refine State.ovenBoundary_frame h ?_ | refine State.pwmTo_frame h ?_
        | refine State.reloadCommits_frame h ?_ | refine State.reloadTiming_frame h ?_
        | refine State.splitAcc_frame h ?_ | exact h.refl _)
    | extract_lets)

theorem State.serialLate_frame (h : Frame R) {r0 : State} {n : Fin 4} {s : State} (hs : R r0 s) : R r0
    (State.serialLate n s) := by
  unfold State.serialLate
  repeat' (first
    | with_reducible (first
        | assumption | refine ite_frame (fun _ => ?_) (fun _ => ?_) | refine forAll_frame h (fun _ _ => ?_) ?_
        | refine State.modFb_frame h ?_ | refine State.sampleCame_frame h ?_ | refine State.serFail_frame h ?_
        | exact h.refl _)
    | extract_lets)

theorem State.scMissed_frame (h : Frame R) {r0 : State} {n : Fin 4} {s : State} (hs : R r0 s) : R r0 (State.scMissed n
    s) := by
  unfold State.scMissed
  repeat' (first
    | with_reducible (first
        | assumption | refine ite_frame (fun _ => ?_) (fun _ => ?_) | refine State.fbFinish_frame h ?_
        | refine forAll_frame h (fun _ _ => ?_) ?_ | refine State.groupResume_frame h ?_ | exact h.refl _)
    | split)

theorem State.closeFrame_frame (h : Frame R) {r0 : State} {n : Fin 4} {s : State} (hs : R r0 s) : R r0
    (State.closeFrame n s) := by
  unfold State.closeFrame
  repeat' (first
    | with_reducible (first
        | assumption | refine ite_frame (fun _ => ?_) (fun _ => ?_) | refine h.wrStep ?_
        | refine State.auxMean_frame h ?_ | refine State.bump_frame h ?_ | refine State.dropHeld_frame h ?_
        | refine forAll_frame h (fun _ _ => ?_) ?_ | refine State.modLoaf_frame h ?_
        | refine State.serialLate_frame h ?_ | refine State.setAccOld_frame h ?_ | refine State.setHand_frame h ?_
        | exact h.refl _)
    | extract_lets)

theorem State.reconThirds_frame (h : Frame R) {r0 : State} {n : Fin 4} {s : State} (hs : R r0 s) : R r0
    (State.reconThirds n s) := by
  unfold State.reconThirds
  repeat' (first
    | with_reducible (first
        | assumption | refine ite_frame (fun _ => ?_) (fun _ => ?_) | refine State.modOven_frame h ?_ | exact h.refl _)
    | extract_lets)

theorem State.reconMark_frame (h : Frame R) {r0 : State} {n : Fin 4} {s : State} (hs : R r0 s) : R r0 (State.reconMark
    n s) := by
  unfold State.reconMark
  repeat' (first
    | with_reducible (first
        | assumption | refine ite_frame (fun _ => ?_) (fun _ => ?_) | refine State.bump_frame h ?_
        | refine State.setHand_frame h ?_)
    | extract_lets | split)

theorem State.autoChoice_frame (h : Frame R) {r0 : State} {n : Fin 4} {we : Rat} {s : State} (hs : R r0 s) : R r0
    (State.autoChoice n we s) := by
  unfold State.autoChoice
  repeat' (first
    | with_reducible (first
        | assumption | refine ite_frame (fun _ => ?_) (fun _ => ?_) | refine State.latch_frame h ?_
        | refine State.modLoaf_frame h ?_ | exact h.refl _)
    | extract_lets | split)

theorem State.frameStore_frame (h : Frame R) {r0 : State} {n : Fin 4} {f : FrameOut} {fromPos : Bool} {s : State} (hs
    : R r0 s) : R r0 (State.frameStore n f fromPos s) := by
  unfold State.frameStore
  repeat' (first
    | with_reducible (first
        | assumption | refine ite_frame (fun _ => ?_) (fun _ => ?_) | refine State.bump_frame h ?_
        | refine State.modOven_frame h ?_ | refine State.wrs_frame h ?_ | exact h.refl _)
    | extract_lets)

theorem State.frameCommit_frame (h : Frame R) {r0 : State} {n : Fin 4} {f : FrameOut} {s : State} (hs : R r0 s) : R r0
    (State.frameCommit n f s) := by
  unfold State.frameCommit
  repeat' (first
    | with_reducible (first
        | assumption | refine ite_frame (fun _ => ?_) (fun _ => ?_) | refine State.commit_frame h ?_)
    | extract_lets)

theorem State.frameFaults_frame (h : Frame R) {r0 : State} {n : Fin 4} {s : State} (hs : R r0 s) : R r0
    (State.frameFaults n s) := by
  unfold State.frameFaults
  repeat' (first
    | with_reducible (first
        | assumption | refine ite_frame (fun _ => ?_) (fun _ => ?_) | refine State.latch_frame h ?_
        | refine State.modOven_frame h ?_ | exact h.refl _)
    | extract_lets)

theorem State.voltHistory_frame (h : Frame R) {r0 : State} {n : Fin 4} {s : State} (hs : R r0 s) : R r0
    (State.voltHistory n s) := by
  unfold State.voltHistory
  repeat' (first
    | with_reducible (first
        | assumption | refine ite_frame (fun _ => ?_) (fun _ => ?_) | refine State.modOven_frame h ?_ | exact h.refl _)
    | extract_lets)

theorem State.pushRecord_frame (h : Frame R) {r0 : State} {n : Fin 4} {bytes : List Byte} {s : State} (hs : R r0 s) :
    R r0 (State.pushRecord n bytes s) := by
  unfold State.pushRecord
  repeat' (first
    | with_reducible (first
        | assumption | refine ite_frame (fun _ => ?_) (fun _ => ?_) | refine State.bumpOpen_frame h ?_
        | refine State.bumpWrap_frame h ?_ | refine State.capRecord_frame h ?_ | refine State.modOven_frame h ?_
        | refine State.setBlob_frame h ?_ | exact h.refl _)
    | extract_lets)

theorem State.mirrorAfter_frame (h : Frame R) {r0 : State} {n : Fin 4} {s : State} (hs : R r0 s) : R r0
    (State.mirrorAfter n s) := by
  unfold State.mirrorAfter
  repeat' (first
    | with_reducible (first
        | assumption | refine ite_frame (fun _ => ?_) (fun _ => ?_) | refine State.mirrorSend_frame h ?_
        | refine State.modLoaf_frame h ?_ | exact h.refl _)
    | extract_lets)

theorem State.computeFrame_frame (h : Frame R) {r0 : State} {n : Fin 4} {s0 : State} (hs : R r0 s0) : R r0
    (State.computeFrame n s0) := by
  unfold State.computeFrame
  repeat' (first
    | with_reducible (first
        | assumption | refine ite_frame (fun _ => ?_) (fun _ => ?_) | refine h.wrStep ?_
        | refine State.autoChoice_frame h ?_ | refine State.drew_frame h ?_ | refine State.frameCommit_frame h ?_
        | refine State.frameFaults_frame h ?_ | refine State.frameStore_frame h ?_
        | refine State.lostCurrents_frame h ?_ | refine State.mirrorAfter_frame h ?_ | refine State.modLoaf_frame h ?_
        | refine State.openPhase_frame h ?_ | refine State.proofFrame_frame h ?_ | refine State.pushRecord_frame h ?_
        | refine State.reconMark_frame h ?_ | refine State.reconThirds_frame h ?_ | refine State.scMissed_frame h ?_
        | refine State.settle_frame h ?_ | refine State.voltHistory_frame h ?_ | exact h.refl _)
    | extract_lets)

end Sys2Proof.Machine
end

