-- ==== Sys2Proof/Laws/FrameConverter.lean ====
section
/-! SUPPORT. What every operation of Machine/Converter.lean keeps: the frame lemmas. -/

set_option linter.unreachableTactic false
set_option linter.unusedTactic false

namespace Sys2Proof.Machine

variable {R : State → State → Prop}

theorem State.regularSample_frame (h : Frame R) {r0 : State} {k i : Nat} {raw : Int} {inst : Nat} {s : State} (hs : R
    r0 s) : R r0 (State.regularSample k i raw inst s) := by
  unfold State.regularSample
  repeat' (first
    | with_reducible (first
        | assumption | refine ite_frame (fun _ => ?_) (fun _ => ?_) | refine State.accumulate_frame h ?_
        | refine State.calibrate_frame h ?_ | refine State.capSample_frame h ?_ | refine State.sampleCame_frame h ?_
        | refine State.sampleCommon_frame h ?_ | refine State.scTake_frame h ?_)
    | extract_lets)

theorem State.injectedSample_frame (h : Frame R) {r0 : State} {k i : Nat} {raw : Int} {inst : Nat} {s : State} (hs : R
    r0 s) : R r0 (State.injectedSample k i raw inst s) := by
  unfold State.injectedSample
  repeat' (first
    | with_reducible (first
        | assumption | refine State.calibrate_frame h ?_ | refine State.injSample_frame h ?_
        | refine State.sampleCommon_frame h ?_)
    | extract_lets)

theorem State.pairSample_frame (h : Frame R) {r0 : State} {k : Nat} {raw : Int} {inst : Nat} {s : State} (hs : R r0 s)
    : R r0 (State.pairSample k raw inst s) := by
  unfold State.pairSample
  repeat' (first
    | with_reducible (first
        | assumption | refine ite_frame (fun _ => ?_) (fun _ => ?_) | refine State.burstSample_frame h ?_
        | refine State.capSample_frame h ?_ | refine State.sampleCommon_frame h ?_)
    | extract_lets)

theorem State.seqStep_frame (h : Frame R) {r0 : State} {k i : Nat} {s t : State} (e : s.seqStep k i = some t) (hs : R r0 s) :
    R r0 t := by
  unfold State.seqStep at e
  extract_lets at e
  split at e
  · cases e
  · split at e <;> cases e <;> exact State.modConvN_frame h hs

theorem State.seqResult_frame (h : Frame R) {r0 : State} {k i inst : Nat} {s t : State} (e : s.seqResult k i inst = some t)
    (hs : R r0 s) : R r0 t := by
  unfold State.seqResult at e
  extract_lets c at e
  split at e
  · rw [← Option.some.inj e]; exact State.modConvN_frame h hs
  · split at e
    · cases e
    · exact State.seqStep_frame h e hs

theorem State.seqHold_frame (h : Frame R) {r0 : State} {k i inst : Nat} {s t : State} (e : s.seqHold k i inst = some t)
    (hs : R r0 s) : R r0 t := by
  unfold State.seqHold at e
  obtain ⟨x, hx, rfl⟩ := Option.map_eq_some_iff.mp e
  exact State.modConvN_frame h (State.seqStep_frame h hx hs)

theorem execSampleResult_frame (h : Frame R) {k : Fin 6} {input : Fin 9} {kind : SampleKind} {raw : Int} {inst t : Nat} {s0 : State} :
    Lands (R s0) (execSampleResult k input kind raw inst t s0) := by
  unfold execSampleResult
  have hs := State.atT_frame h (t := t) (h.refl s0)
  extract_lets
  repeat' (first
    | with_reducible apply lands_next
    | with_reducible refine ite_lands (fun _ => ?_) (fun _ => ?_)
    | with_reducible assumption
    | with_reducible refine State.settle_frame h ?_
    | with_reducible refine State.regularSample_frame h ?_
    | with_reducible refine State.injectedSample_frame h ?_
    | with_reducible refine State.pairSample_frame h ?_
    | exact State.seqResult_frame h ‹_› hs
    | exact State.seqHold_frame h ‹_› hs
    | split)

theorem execInjectedSeqStart_frame (h : Frame R) {k : Fin 4} {line : Fin 12} {t : Nat} {s0 : State} : Lands (R s0)
    (execInjectedSeqStart k line t s0) := by
  unfold execInjectedSeqStart
  have hs := h.refl s0
  repeat' (first
    | with_reducible (first
        | apply lands_next | assumption | refine ite_lands (fun _ => ?_) (fun _ => ?_)
        | refine ite_frame (fun _ => ?_) (fun _ => ?_) | refine State.atT_frame h ?_
        | refine State.injStart_frame h ?_ | refine State.modConvN_frame h ?_ | refine State.pwmTo_frame h ?_
        | refine State.settle_frame h ?_ | exact h.refl _)
    | extract_lets)

theorem execPairBurstStart_frame (h : Frame R) {p : Fin 2} {line : Fin 12} {t : Nat} {s0 : State} : Lands (R s0)
    (execPairBurstStart p line t s0) := by
  unfold execPairBurstStart
  have hs := h.refl s0
  repeat' (first
    | with_reducible (first
        | apply lands_next | assumption | refine ite_lands (fun _ => ?_) (fun _ => ?_)
        | refine ite_frame (fun _ => ?_) (fun _ => ?_) | refine State.atT_frame h ?_
        | refine State.burstStart_frame h ?_ | refine State.modConvN_frame h ?_ | refine State.pwmTo_frame h ?_
        | refine State.settle_frame h ?_ | exact h.refl _)
    | extract_lets | split)

theorem execSliceExclude_frame (h : Frame R) {k : Fin 4} {sl : Fin 4} {s : State} : Lands (R s) (execSliceExclude k sl
    s) := by
  unfold execSliceExclude
  have hs := h.refl s
  repeat' (first
    | with_reducible (first
        | apply lands_next | assumption | refine ite_lands (fun _ => ?_) (fun _ => ?_)
        | refine ite_frame (fun _ => ?_) (fun _ => ?_) | refine State.fault_frame h ?_ | refine State.latch_frame h ?_
        | refine State.modConvN_frame h ?_ | refine State.settle_frame h ?_ | refine State.wrBit_frame h ?_
        | exact h.refl _)
    | extract_lets)

theorem execMismatchConverged_frame (h : Frame R) {k : Fin 4} {s : State} : Lands (R s) (execMismatchConverged k s) :=
    by
  unfold execMismatchConverged
  have hs := h.refl s
  repeat' (first
    | with_reducible (first
        | apply lands_next | assumption | refine ite_lands (fun _ => ?_) (fun _ => ?_)
        | refine ite_frame (fun _ => ?_) (fun _ => ?_) | refine h.wrStep ?_ | refine State.drew_frame h ?_
        | refine forAll_frame h (fun _ _ => ?_) ?_ | refine State.modConvN_frame h ?_ | exact h.refl _)
    | extract_lets)

theorem execPlausCompare_frame (h : Frame R) {p : Fin 2} {t : Nat} {s0 : State} : Lands (R s0) (execPlausCompare p t
    s0) := by
  unfold execPlausCompare
  have hs := h.refl s0
  repeat' (first
    | with_reducible (first
        | apply lands_next | assumption | refine ite_lands (fun _ => ?_) (fun _ => ?_)
        | refine ite_frame (fun _ => ?_) (fun _ => ?_) | refine h.wrStep ?_ | refine State.atT_frame h ?_
        | refine State.attributed_frame h ?_ | refine State.bumpTo_frame h ?_ | refine State.latch_frame h ?_
        | refine State.modConvN_frame h ?_ | refine State.settle_frame h ?_ | exact h.refl _)
    | extract_lets | split)

theorem execOpenWireDetect_frame (h : Frame R) {k : Fin 6} {input : Fin 9} {t : Nat} {s0 : State} : Lands (R s0)
    (execOpenWireDetect k input t s0) := by
  unfold execOpenWireDetect
  have hs := h.refl s0
  repeat' (first
    | with_reducible (first
        | apply lands_next | assumption | refine ite_lands (fun _ => ?_) (fun _ => ?_)
        | refine ite_frame (fun _ => ?_) (fun _ => ?_) | refine State.atT_frame h ?_ | refine State.fault_frame h ?_)
    | extract_lets)

theorem execAuxWindow_frame (h : Frame R) {t : Nat} {s0 : State} : Lands (R s0) (execAuxWindow t s0) := by
  unfold execAuxWindow
  have hs := h.refl s0
  repeat' (first
    | with_reducible (first
        | apply lands_next | assumption | refine ite_lands (fun _ => ?_) (fun _ => ?_)
        | refine ite_frame (fun _ => ?_) (fun _ => ?_) | refine State.atT_frame h ?_ | refine State.auxMean_frame h ?_
        | refine forAll_frame h (fun _ _ => ?_) ?_ | refine State.modConvN_frame h ?_ | refine State.setAcc_frame h ?_
        | exact h.refl _)
    | extract_lets)

theorem execCaptureComplete_frame (h : Frame R) {t : Nat} {s0 : State} : Lands (R s0) (execCaptureComplete t s0) := by
  unfold execCaptureComplete
  have hs := h.refl s0
  repeat' (first
    | with_reducible (first
        | apply lands_next | assumption | refine ite_lands (fun _ => ?_) (fun _ => ?_)
        | refine ite_frame (fun _ => ?_) (fun _ => ?_) | refine h.wrStep ?_ | refine State.atT_frame h ?_)
    | extract_lets)

end Sys2Proof.Machine
end

