-- ==== Sys2Proof/Laws/FrameFeedback.lean ====
section
/-! SUPPORT. What every operation of Machine/Feedback.lean keeps: the frame lemmas. -/

set_option linter.unreachableTactic false
set_option linter.unusedTactic false

namespace Sys2Proof.Machine

variable {R : State → State → Prop}

theorem execFbEdge_frame (h : Frame R) {n : Fin 4} {a b z : Bool} {ns inst t : Nat} {s00 : State} : Lands (R s00)
    (execFbEdge n a b z ns inst t s00) := by
  unfold execFbEdge
  have hs := h.refl s00
  repeat' (first
    | with_reducible (first
        | apply lands_next | assumption | refine ite_lands (fun _ => ?_) (fun _ => ?_)
        | refine ite_frame (fun _ => ?_) (fun _ => ?_) | refine State.atT_frame h ?_ | refine State.drew_frame h ?_
        | refine State.gateFollow_frame h ?_ | refine State.hallEdge_frame h ?_ | refine State.quadEdge_frame h ?_
        | refine State.setLevels_frame h ?_ | refine State.settle_frame h ?_ | exact h.refl _)
    | extract_lets)

theorem execIndexEvent_frame (h : Frame R) {n : Fin 4} {t : Nat} {s0 : State} : Lands (R s0) (execIndexEvent n t s0)
    := by
  unfold execIndexEvent
  have hs := h.refl s0
  repeat' (first
    | with_reducible (first
        | apply lands_next | assumption | refine ite_lands (fun _ => ?_) (fun _ => ?_)
        | refine ite_frame (fun _ => ?_) (fun _ => ?_) | refine State.atT_frame h ?_
        | refine State.indexTake_frame h ?_ | refine State.modFb_frame h ?_ | refine State.settle_frame h ?_
        | exact h.refl _)
    | extract_lets)

theorem execHallInvalid_frame (h : Frame R) {n : Fin 4} {t : Nat} {s0 : State} : Lands (R s0) (execHallInvalid n t s0)
    := by
  unfold execHallInvalid
  have hs := h.refl s0
  repeat' (first
    | with_reducible (first
        | apply lands_next | assumption | refine ite_lands (fun _ => ?_) (fun _ => ?_)
        | refine ite_frame (fun _ => ?_) (fun _ => ?_) | refine State.atT_frame h ?_ | refine State.fault_frame h ?_
        | refine State.modFb_frame h ?_ | exact h.refl _)
    | extract_lets | split)

theorem execStandstill_frame (h : Frame R) {n : Fin 4} {t : Nat} {s0 : State} : Lands (R s0) (execStandstill n t s0)
    := by
  unfold execStandstill
  have hs := h.refl s0
  repeat' (first
    | with_reducible (first
        | apply lands_next | assumption | refine ite_lands (fun _ => ?_) (fun _ => ?_)
        | refine ite_frame (fun _ => ?_) (fun _ => ?_) | refine State.atT_frame h ?_ | refine State.modFb_frame h ?_
        | refine State.wrs_frame h ?_ | exact h.refl _)
    | extract_lets | split)

theorem execSerialTransferStart_frame (h : Frame R) {n : Fin 4} {t : Nat} {s0 : State} : Lands (R s0)
    (execSerialTransferStart n t s0) := by
  unfold execSerialTransferStart
  have hs := h.refl s0
  repeat' (first
    | with_reducible (first
        | apply lands_next | assumption | refine ite_lands (fun _ => ?_) (fun _ => ?_)
        | refine ite_frame (fun _ => ?_) (fun _ => ?_) | refine State.atT_frame h ?_ | refine State.modFb_frame h ?_
        | refine State.serNext_frame h ?_ | exact h.refl _)
    | extract_lets)

theorem State.serResult_frame (h : Frame R) {r0 : State} {n : Fin 4} {r : SerialResult} {t0 : Nat} {s : State} (hs : R
    r0 s) : R r0 (State.serResult n r t0 s) := by
  unfold State.serResult
  repeat' (first
    | with_reducible (first
        | assumption | refine ite_frame (fun _ => ?_) (fun _ => ?_) | refine h.wrStep ?_
        | refine State.latch_frame h ?_ | refine State.latchLimited_frame h ?_ | refine State.modFb_frame h ?_
        | refine State.serFail_frame h ?_ | refine State.serTake_frame h ?_)
    | extract_lets | split)

theorem execSerialTransferEnd_frame (h : Frame R) {n : Fin 4} {r : SerialResult} {t : Nat} {s0 : State} : Lands (R s0)
    (execSerialTransferEnd n r t s0) := by
  unfold execSerialTransferEnd
  have hs := h.refl s0
  repeat' (first
    | with_reducible (first
        | apply lands_next | assumption | refine ite_lands (fun _ => ?_) (fun _ => ?_)
        | refine ite_frame (fun _ => ?_) (fun _ => ?_) | refine State.atT_frame h ?_ | refine State.modFb_frame h ?_
        | refine State.sampleCame_frame h ?_ | refine State.serNext_frame h ?_ | refine State.serResult_frame h ?_
        | refine State.settle_frame h ?_ | exact h.refl _)
    | extract_lets | split)

end Sys2Proof.Machine
end

