-- ==== Sys2Proof/Laws/FramePwm.lean ====
section
/-! SUPPORT. What every operation of Machine/Pwm.lean keeps: the frame lemmas. -/

set_option linter.unreachableTactic false
set_option linter.unusedTactic false

namespace Sys2Proof.Machine

variable {R : State → State → Prop}

theorem State.tickWaits_frame (h : Frame R) {r0 : State} {e : Fin 4} {t : Nat} {s : State} (hs : R r0 s) : R r0
    (State.tickWaits e t s) := by
  unfold State.tickWaits
  repeat' (first
    | with_reducible (first
        | assumption | refine ite_frame (fun _ => ?_) (fun _ => ?_) | refine forAll_frame h (fun _ _ => ?_) ?_
        | refine State.modLoaf_frame h ?_ | exact h.refl _)
    | extract_lets)

theorem execEpochStartTick_frame (h : Frame R) {n : Fin 4} {t : Nat} {s0 : State} : Lands (R s0) (execEpochStartTick n
    t s0) := by
  unfold execEpochStartTick
  have hs := h.refl s0
  repeat' (first
    | with_reducible (first
        | apply lands_next | assumption | refine ite_lands (fun _ => ?_) (fun _ => ?_)
        | refine ite_frame (fun _ => ?_) (fun _ => ?_) | refine State.atT_frame h ?_
        | refine State.modTime_frame h (Nat.le_refl _) ?_ | refine State.tickWaits_frame h ?_ | exact h.refl _)
    | extract_lets)

theorem execCounterStart_frame (h : Frame R) {n : Fin 4} {t : Nat} {s0 : State} : Lands (R s0) (execCounterStart n t
    s0) := by
  unfold execCounterStart
  have hs := h.refl s0
  repeat' (first
    | with_reducible (first
        | apply lands_next | assumption | refine ite_lands (fun _ => ?_) (fun _ => ?_)
        | refine ite_frame (fun _ => ?_) (fun _ => ?_) | refine State.atT_frame h ?_
        | refine State.counterStart_frame h ?_ | refine State.settle_frame h ?_)
    | extract_lets)

theorem execPeriodStart_frame (h : Frame R) {n : Fin 4} {t : Nat} {s0 : State} : Lands (R s0) (execPeriodStart n t s0)
    := by
  unfold execPeriodStart
  have hs := h.refl s0
  repeat' (first
    | with_reducible (first
        | apply lands_next | assumption | refine ite_lands (fun _ => ?_) (fun _ => ?_)
        | refine ite_frame (fun _ => ?_) (fun _ => ?_) | refine State.atT_frame h ?_
        | refine State.epochStep_frame h ?_ | refine State.layPeriod_frame h ?_ | refine State.modLoaf_frame h ?_
        | refine State.periodBegin_frame h ?_ | refine State.pwmTo_frame h ?_ | refine State.reconAsk_frame h ?_
        | refine State.settle_frame h ?_ | exact h.refl _)
    | extract_lets)

theorem execPwmPeak_frame (h : Frame R) {n : Fin 4} {t : Nat} {s0 : State} : Lands (R s0) (execPwmPeak n t s0) := by
  unfold execPwmPeak
  have hs := h.refl s0
  repeat' (first
    | with_reducible (first
        | apply lands_next | assumption | refine ite_lands (fun _ => ?_) (fun _ => ?_)
        | refine ite_frame (fun _ => ?_) (fun _ => ?_) | refine State.atT_frame h ?_ | refine State.modLoaf_frame h ?_
        | refine State.occur_frame h ?_ | exact h.refl _)
    | extract_lets)

theorem execFrameBoundary_frame (h : Frame R) {n : Fin 4} {t : Nat} {s0 : State} : Lands (R s0) (execFrameBoundary n t
    s0) := by
  unfold execFrameBoundary
  have hs := h.refl s0
  repeat' (first
    | with_reducible (first
        | apply lands_next | assumption | refine ite_lands (fun _ => ?_) (fun _ => ?_)
        | refine ite_frame (fun _ => ?_) (fun _ => ?_) | refine State.atT_frame h ?_
        | refine State.boundary_frame h ?_ | refine State.settle_frame h ?_)
    | extract_lets)

theorem execFrameClose_frame (h : Frame R) {n : Fin 4} {t : Nat} {s0 : State} : Lands (R s0) (execFrameClose n t s0)
    := by
  unfold execFrameClose
  have hs := h.refl s0
  repeat' (first
    | with_reducible (first
        | apply lands_next | assumption | refine ite_lands (fun _ => ?_) (fun _ => ?_)
        | refine ite_frame (fun _ => ?_) (fun _ => ?_) | refine State.atT_frame h ?_
        | refine State.closeFrame_frame h ?_ | refine State.settle_frame h ?_)
    | extract_lets)

theorem execLoafFrameCompute_frame (h : Frame R) {n : Fin 4} {t : Nat} {s0 : State} : Lands (R s0)
    (execLoafFrameCompute n t s0) := by
  unfold execLoafFrameCompute
  have hs := State.atT_frame h (t := t) (h.refl s0)
  extract_lets s
  split
  · refine ite_lands (fun _ => lands_next (State.computeFrame_frame h ?_)) (fun _ => lands_next hs)
    exact h.trans hs (h.other rfl rfl rfl (Nat.le_refl _) (Nat.le_refl _))
  · exact lands_next hs

theorem execTripLatch_frame (h : Frame R) {i : Fin 16} {n : Fin 4} {ns t : Nat} {s0 : State} : Lands (R s0)
    (execTripLatch i n ns t s0) := by
  unfold execTripLatch
  have hs := h.refl s0
  repeat' with_reducible (first
    | apply lands_next | assumption | refine State.atT_frame h ?_ | refine State.tripEdge_frame h ?_)

theorem execTripCycleGap_frame (h : Frame R) {i : Fin 16} {n : Fin 4} {ns t : Nat} {s0 : State} : Lands (R s0)
    (execTripCycleGap i n ns t s0) := by
  unfold execTripCycleGap
  have hs := h.refl s0
  repeat' with_reducible (first
    | apply lands_next | assumption | refine State.atT_frame h ?_ | refine State.tripEdge_frame h ?_)

theorem execTripFilterDeassert_frame (h : Frame R) {i : Fin 16} {n : Fin 4} {ns t : Nat} {s0 : State} : Lands (R s0)
    (execTripFilterDeassert i n ns t s0) := by
  unfold execTripFilterDeassert
  have hs := h.refl s0
  repeat' with_reducible (first
    | apply lands_next | assumption | refine State.atT_frame h ?_ | refine State.tripEdge_frame h ?_)

theorem execReadbackMismatch_frame (h : Frame R) {n : Fin 4} {pad : Fin 7} {t : Nat} {s0 : State} : Lands (R s0)
    (execReadbackMismatch n pad t s0) := by
  unfold execReadbackMismatch
  have hs := h.refl s0
  repeat' (first
    | with_reducible (first
        | apply lands_next | assumption | refine ite_lands (fun _ => ?_) (fun _ => ?_)
        | refine ite_frame (fun _ => ?_) (fun _ => ?_) | refine State.atT_frame h ?_ | refine State.fault_frame h ?_
        | refine State.modLoaf_frame h ?_ | refine State.wrBit_frame h ?_ | exact h.refl _)
    | extract_lets)

end Sys2Proof.Machine
end

