-- ==== Sys2Proof/Laws/FramePower.lean ====
section
/-! SUPPORT. What every operation of Machine/Power.lean keeps: the frame lemmas. -/

set_option linter.unreachableTactic false
set_option linter.unusedTactic false

namespace Sys2Proof.Machine

variable {R : State → State → Prop}

theorem State.standbyOpen_frame (h : Frame R) {r0 : State} {a : Nat} {top : Int} {s : State} (hs : R r0 s) : R r0
    (State.standbyOpen a top s) := by
  unfold State.standbyOpen
  repeat' with_reducible (first
    | assumption | refine h.wrStep ?_ | refine State.drew_frame h ?_)

theorem execPowerOn_frame (h : Frame R) {vin vioG vioH vbat : Int} {s : State} : Lands (R s) (execPowerOn vin vioG
    vioH vbat s) := by
  unfold execPowerOn
  have hs := h.refl s
  repeat' (first
    | with_reducible (first
        | apply lands_next | assumption | refine ite_lands (fun _ => ?_) (fun _ => ?_)
        | refine ite_frame (fun _ => ?_) (fun _ => ?_) | refine h.wrStep ?_ | refine State.doReset_frame h ?_
        | refine State.modBoot_frame h ?_ | refine State.modPower_frame h ?_ | refine State.redetect_frame h ?_
        | refine State.wrBit_frame h ?_ | exact h.refl _)
    | extract_lets)

theorem execExternalReset_frame (h : Frame R) {lowNs : Nat} {s : State} : Lands (R s) (execExternalReset lowNs s) :=
    by
  unfold execExternalReset
  have hs := h.refl s
  repeat' (first
    | with_reducible (first
        | apply lands_next | assumption | refine ite_lands (fun _ => ?_) (fun _ => ?_)
        | refine ite_frame (fun _ => ?_) (fun _ => ?_) | refine State.doReset_frame h ?_)
    | extract_lets)

theorem execResetEnd_frame (h : Frame R) {s : State} : Lands (R s) (execResetEnd s) := by
  unfold execResetEnd
  have hs := h.refl s
  repeat' (first
    | with_reducible (first
        | apply lands_next | assumption | refine ite_lands (fun _ => ?_) (fun _ => ?_)
        | refine ite_frame (fun _ => ?_) (fun _ => ?_) | refine State.classify_frame h ?_
        | refine State.fault_frame h ?_ | refine State.modBoot_frame h ?_ | refine State.modPower_frame h ?_
        | exact h.refl _)
    | extract_lets)

theorem execSwResetRead_frame (h : Frame R) {pole1 pole2 : BitVec 12} {s : State} : Lands (R s) (execSwResetRead pole1
    pole2 s) := by
  unfold execSwResetRead
  have hs := h.refl s
  repeat' (first
    | with_reducible (first
        | apply lands_next | assumption | refine ite_lands (fun _ => ?_) (fun _ => ?_)
        | refine ite_frame (fun _ => ?_) (fun _ => ?_) | refine forAll_frame h (fun _ _ => ?_) ?_
        | refine State.latch_frame h ?_ | refine State.modBoot_frame h ?_ | refine State.modPower_frame h ?_
        | refine State.settle_frame h ?_ | exact h.refl _)
    | extract_lets)

theorem execSecureBoot_frame (h : Frame R) {vendorKeyOk slotAOk slotBOk : Bool} {s : State} : Lands (R s)
    (execSecureBoot vendorKeyOk slotAOk slotBOk s) := by
  unfold execSecureBoot
  have hs := h.refl s
  repeat' (first
    | with_reducible (first
        | apply lands_next | assumption | refine ite_lands (fun _ => ?_) (fun _ => ?_)
        | refine ite_frame (fun _ => ?_) (fun _ => ?_) | refine h.wrStep ?_ | refine State.auditEvent_frame h ?_
        | refine State.modBoot_frame h ?_ | refine State.modSec_frame h (Nat.le_refl _) ?_
        | refine State.reportM_frame h ?_ | exact h.refl _)
    | extract_lets)

theorem State.afterLoss_frame (h : Frame R) {r0 : State} {s : State} (hs : R r0 s) : R r0 (State.afterLoss s) := by
  unfold State.afterLoss
  repeat' (first
    | with_reducible (first
        | assumption | refine ite_frame (fun _ => ?_) (fun _ => ?_) | refine State.modPower_frame h ?_
        | refine State.modSafety_frame h ?_ | refine State.modTime_frame h (Nat.le_refl _) ?_
        | refine State.standbyOpen_frame h ?_ | refine State.wrBit_frame h ?_ | refine State.wrs_frame h ?_
        | exact h.refl _)
    | extract_lets)

theorem execAskardStart_frame (h : Frame R) {s : State} : Lands (R s) (execAskardStart s) := by
  unfold execAskardStart
  have hs := h.refl s
  repeat' (first
    | with_reducible (first
        | apply lands_next | assumption | refine ite_lands (fun _ => ?_) (fun _ => ?_)
        | refine ite_frame (fun _ => ?_) (fun _ => ?_) | refine h.wrStep ?_ | refine State.afterLoss_frame h ?_
        | refine State.modBoot_frame h ?_ | refine State.modPower_frame h ?_
        | refine State.modTime_frame h (Nat.le_refl _) ?_ | exact h.refl _)
    | extract_lets)

theorem execPllLock_frame (h : Frame R) {s : State} : Lands (R s) (execPllLock s) := by
  unfold execPllLock
  have hs := h.refl s
  repeat' with_reducible (first
    | apply lands_next | assumption | refine ite_lands (fun _ => ?_) (fun _ => ?_)
    | refine ite_frame (fun _ => ?_) (fun _ => ?_) | refine State.modBoot_frame h ?_
    | refine State.modPower_frame h ?_ | refine State.modTime_frame h (Nat.le_refl _) ?_ | exact h.refl _)

theorem execPeelTrainingComplete_frame (h : Frame R) {s : State} : Lands (R s) (execPeelTrainingComplete s) := by
  unfold execPeelTrainingComplete
  have hs := h.refl s
  repeat' with_reducible (first
    | apply lands_next | assumption | refine ite_lands (fun _ => ?_) (fun _ => ?_)
    | refine ite_frame (fun _ => ?_) (fun _ => ?_) | refine State.modBoot_frame h ?_ | refine State.settle_frame h ?_
    | exact h.refl _)

theorem execPeelTrainTimeout_frame (h : Frame R) {s : State} : Lands (R s) (execPeelTrainTimeout s) := by
  unfold execPeelTrainTimeout
  have hs := h.refl s
  repeat' with_reducible (first
    | apply lands_next | assumption | refine ite_lands (fun _ => ?_) (fun _ => ?_)
    | refine ite_frame (fun _ => ?_) (fun _ => ?_) | refine h.wrStep ?_ | refine State.atT_frame h ?_
    | refine State.fault_frame h ?_ | refine State.modBoot_frame h ?_ | exact h.refl _)

theorem State.raiseRollback_frame (h : Frame R) {r0 s : State} (hs : R r0 s) : R r0 (State.raiseRollback s) := by
  unfold State.raiseRollback
  extract_lets
  split
  · rename_i hv
    exact State.auditEvent_frame h (State.modSec_frame h (Nat.le_of_lt hv.1) hs)
  · exact hs

theorem State.ownAddress_frame (h : Frame R) {r0 : State} {s : State} (hs : R r0 s) : R r0 (State.ownAddress s) := by
  unfold State.ownAddress
  repeat' (first
    | with_reducible (first
        | assumption | refine ite_frame (fun _ => ?_) (fun _ => ?_) | refine State.modNet_frame h ?_ | exact h.refl _)
    | extract_lets)

theorem State.phySetup_frame (h : Frame R) {r0 : State} {s : State} (hs : R r0 s) : R r0 (State.phySetup s) := by
  unfold State.phySetup
  repeat' with_reducible (first
    | assumption | refine State.modNet_frame h ?_ | exact h.refl _)

theorem execConfigEntry_frame (h : Frame R) {s : State} : Lands (R s) (execConfigEntry s) := by
  unfold execConfigEntry
  have hs := h.refl s
  repeat' (first
    | with_reducible (first
        | apply lands_next | assumption | refine ite_lands (fun _ => ?_) (fun _ => ?_)
        | refine ite_frame (fun _ => ?_) (fun _ => ?_) | refine State.modBoot_frame h ?_
        | refine State.ownAddress_frame h ?_ | refine State.phySetup_frame h ?_
        | refine State.raiseRollback_frame h ?_ | refine State.setMode_frame h ?_ | refine State.settle_frame h ?_
        | exact h.refl _)
    | extract_lets)

theorem execConfigImageApplied_frame (h : Frame R) {s : State} : Lands (R s) (execConfigImageApplied s) := by
  unfold execConfigImageApplied
  have hs := h.refl s
  repeat' (first
    | with_reducible (first
        | apply lands_next | assumption | refine ite_lands (fun _ => ?_) (fun _ => ?_)
        | refine ite_frame (fun _ => ?_) (fun _ => ?_) | refine State.modBoot_frame h ?_
        | refine State.ownAddress_frame h ?_ | refine State.phySetup_frame h ?_ | refine State.settle_frame h ?_
        | refine State.writeAll_frame h ?_ | refine State.wrs_frame h ?_ | exact h.refl _)
    | extract_lets | split)

theorem execSafetyBindingCheck_frame (h : Frame R) {s : State} : Lands (R s) (execSafetyBindingCheck s) := by
  unfold execSafetyBindingCheck
  have hs := h.refl s
  repeat' (first
    | with_reducible (first
        | apply lands_next | assumption | refine ite_lands (fun _ => ?_) (fun _ => ?_)
        | refine ite_frame (fun _ => ?_) (fun _ => ?_) | refine h.wrStep ?_ | refine State.modBoot_frame h ?_
        | refine State.modSafety_frame h ?_ | refine State.safetyEval_frame h ?_ | refine State.settle_frame h ?_
        | refine State.showParams_frame h ?_ | exact h.refl _)
    | extract_lets)

theorem execSafetyParamReadback_frame (h : Frame R) {crustCrc : Word} {s : State} : Lands (R s)
    (execSafetyParamReadback crustCrc s) := by
  unfold execSafetyParamReadback
  have hs := h.refl s
  repeat' (first
    | with_reducible (first
        | apply lands_next | assumption | refine ite_lands (fun _ => ?_) (fun _ => ?_)
        | refine ite_frame (fun _ => ?_) (fun _ => ?_) | refine State.modBoot_frame h ?_
        | refine State.settle_frame h ?_ | exact h.refl _)
    | extract_lets | split)

theorem execRefReadySet_frame (h : Frame R) {k : Fin 6} {s : State} : Lands (R s) (execRefReadySet k s) := by
  unfold execRefReadySet
  have hs := h.refl s
  repeat' with_reducible (first
    | apply lands_next | assumption | refine ite_lands (fun _ => ?_) (fun _ => ?_)
    | refine ite_frame (fun _ => ?_) (fun _ => ?_) | refine State.atT_frame h ?_ | refine State.modPower_frame h ?_
    | refine State.settle_frame h ?_ | exact h.refl _)

theorem execRefSettleTimeout_frame (h : Frame R) {k : Fin 6} {s : State} : Lands (R s) (execRefSettleTimeout k s) :=
    by
  unfold execRefSettleTimeout
  have hs := h.refl s
  repeat' with_reducible (first
    | apply lands_next | assumption | refine ite_lands (fun _ => ?_) (fun _ => ?_)
    | refine ite_frame (fun _ => ?_) (fun _ => ?_) | refine State.atT_frame h ?_ | refine State.fault_frame h ?_
    | refine State.modPower_frame h ?_ | exact h.refl _)

theorem execRefLost_frame (h : Frame R) {k : Fin 6} {s : State} : Lands (R s) (execRefLost k s) := by
  unfold execRefLost
  have hs := h.refl s
  repeat' with_reducible (first
    | apply lands_next | assumption | refine ite_lands (fun _ => ?_) (fun _ => ?_)
    | refine ite_frame (fun _ => ?_) (fun _ => ?_) | refine State.fault_frame h ?_ | refine State.modConv_frame h ?_
    | refine State.modPower_frame h ?_ | exact h.refl _)

theorem State.noteVinLoss_frame (h : Frame R) {r0 : State} {s : State} (hs : R r0 s) : R r0 (State.noteVinLoss s) :=
    by
  unfold State.noteVinLoss
  repeat' with_reducible (first
    | assumption | refine State.wrs_frame h ?_)

theorem execVinUnder_frame (h : Frame R) {mv : Int} {s : State} : Lands (R s) (execVinUnder mv s) := by
  unfold execVinUnder
  have hs := h.refl s
  repeat' (first
    | with_reducible (first
        | apply lands_next | assumption | refine ite_lands (fun _ => ?_) (fun _ => ?_)
        | refine ite_frame (fun _ => ?_) (fun _ => ?_) | refine State.fault_frame h ?_
        | refine State.flushLogs_frame h ?_ | refine State.modBoot_frame h ?_ | refine State.modPower_frame h ?_
        | refine State.noteVinLoss_frame h ?_ | refine State.wrBit_frame h ?_ | exact h.refl _)
    | extract_lets)

theorem execVinHoldupEnd_frame (h : Frame R) {vin : Int} {s : State} : Lands (R s) (execVinHoldupEnd vin s) := by
  unfold execVinHoldupEnd
  have hs := h.refl s
  repeat' (first
    | with_reducible (first
        | apply lands_next | assumption | refine ite_lands (fun _ => ?_) (fun _ => ?_)
        | refine ite_frame (fun _ => ?_) (fun _ => ?_) | refine State.doReset_frame h ?_
        | refine State.modPower_frame h ?_ | refine State.noteVinLoss_frame h ?_ | refine State.powerDown_frame h ?_
        | refine State.redetect_frame h ?_ | exact h.refl _)
    | extract_lets)

theorem State.pwrgoodFollow_frame (h : Frame R) {r0 : State} {s : State} (hs : R r0 s) : R r0 (State.pwrgoodFollow s)
    := by
  unfold State.pwrgoodFollow
  repeat' with_reducible (first
    | assumption | refine State.modPower_frame h ?_ | exact h.refl _)

theorem State.supplyReport_frame (h : Frame R) {r0 : State} {m : Monitor} {value : Int} {s : State} (hs : R r0 s) : R
    r0 (State.supplyReport m value s) := by
  unfold State.supplyReport
  repeat' (first
    | with_reducible (first
        | assumption | refine State.fault_frame h ?_ | refine State.faultM_frame h ?_
        | refine State.reportM_frame h ?_)
    | extract_lets | split)

theorem execSupplyMonitorFault_frame (h : Frame R) {m : Monitor} {value : Int} {s : State} : Lands (R s)
    (execSupplyMonitorFault m value s) := by
  unfold execSupplyMonitorFault
  have hs := h.refl s
  repeat' (first
    | with_reducible (first
        | apply lands_next | assumption | refine ite_lands (fun _ => ?_) (fun _ => ?_)
        | refine ite_frame (fun _ => ?_) (fun _ => ?_) | refine State.modPower_frame h ?_
        | refine State.pwrgoodFollow_frame h ?_ | refine State.supplyReport_frame h ?_ | refine State.wrBit_frame h ?_
        | exact h.refl _)
    | extract_lets)

theorem execSupplyMonitorClear_frame (h : Frame R) {m : Monitor} {value : Int} {s : State} : Lands (R s)
    (execSupplyMonitorClear m value s) := by
  unfold execSupplyMonitorClear
  have hs := h.refl s
  repeat' (first
    | with_reducible (first
        | apply lands_next | assumption | refine ite_lands (fun _ => ?_) (fun _ => ?_)
        | refine ite_frame (fun _ => ?_) (fun _ => ?_) | refine State.modPower_frame h ?_
        | refine State.pwrgoodFollow_frame h ?_ | exact h.refl _)
    | extract_lets)

theorem execTempMonitor_frame (h : Frame R) {r : Region} {tenths : Int} {s : State} : Lands (R s) (execTempMonitor r
    tenths s) := by
  unfold execTempMonitor
  have hs := h.refl s
  repeat' (first
    | with_reducible (first
        | apply lands_next | assumption | refine ite_lands (fun _ => ?_) (fun _ => ?_)
        | refine ite_frame (fun _ => ?_) (fun _ => ?_) | refine State.latch_frame h ?_
        | refine State.modPower_frame h ?_ | refine State.reportM_frame h ?_ | refine State.settle_frame h ?_
        | refine State.wrs_frame h ?_ | exact h.refl _)
    | extract_lets | split)

theorem State.pollSwitch_frame (h : Frame R) {r0 : State} {p1 p2 : BitVec 12} {i : Nat} {s : State} (hs : R r0 s) : R
    r0 (State.pollSwitch p1 p2 i s) := by
  unfold State.pollSwitch
  repeat' (first
    | with_reducible (first
        | assumption | refine ite_frame (fun _ => ?_) (fun _ => ?_) | refine State.auditEvent_frame h ?_
        | refine State.modPower_frame h ?_ | refine State.reportM_frame h ?_ | exact h.refl _)
    | extract_lets)

theorem execSwitchPoll_frame (h : Frame R) {pole1 pole2 : BitVec 12} {s : State} : Lands (R s) (execSwitchPoll pole1
    pole2 s) := by
  unfold execSwitchPoll
  have hs := h.refl s
  repeat' with_reducible (first
    | apply lands_next | assumption | refine ite_lands (fun _ => ?_) (fun _ => ?_)
    | refine ite_frame (fun _ => ?_) (fun _ => ?_) | refine forAll_frame h (fun _ _ => ?_) ?_
    | refine State.pollSwitch_frame h ?_ | exact h.refl _)

theorem execCoverSample_frame (h : Frame R) {isOpen : Bool} {s : State} : Lands (R s) (execCoverSample isOpen s) := by
  unfold execCoverSample
  have hs := h.refl s
  repeat' (first
    | with_reducible (first
        | apply lands_next | assumption | refine ite_lands (fun _ => ?_) (fun _ => ?_)
        | refine ite_frame (fun _ => ?_) (fun _ => ?_) | refine h.wrStep ?_ | refine State.auditEvent_frame h ?_
        | refine State.bumpTo_frame h ?_ | refine State.modPower_frame h ?_ | refine State.modSafety_frame h ?_
        | exact h.refl _)
    | extract_lets)

theorem execTapInstructionLoad_frame (h : Frame R) {tap : Region} {ins : TapIns} {s : State} : Lands (R s)
    (execTapInstructionLoad tap ins s) := by
  unfold execTapInstructionLoad
  have hs := h.refl s
  repeat' (first
    | with_reducible (first
        | apply lands_next | assumption | refine ite_lands (fun _ => ?_) (fun _ => ?_)
        | refine ite_frame (fun _ => ?_) (fun _ => ?_) | refine State.auditEvent_frame h ?_
        | refine State.crustTrip_frame h ?_ | refine State.dropGen_frame h ?_ | refine State.fault_frame h ?_
        | refine State.modBoot_frame h ?_ | refine State.modSafety_frame h ?_ | exact h.refl _)
    | extract_lets | split | exact h.trans hs (h.other rfl rfl rfl (Nat.le_refl _) (Nat.le_refl _)))

theorem State.relock_frame (h : Frame R) {r0 : State} {s : State} (hs : R r0 s) : R r0 (State.relock s) := by
  unfold State.relock
  repeat' (first
    | with_reducible (first
        | assumption | refine State.auditEvent_frame h ?_ | refine State.modSec_frame h (Nat.le_refl _) ?_
        | exact h.refl _)
    | refine State.modSec_frame h (by split <;> exact Nat.le_refl _) ?_ | split
    | exact h.trans hs (h.other rfl rfl rfl (Nat.le_refl _) (Nat.le_refl _)))

theorem execTapRelock_frame (h : Frame R) {s : State} : Lands (R s) (execTapRelock s) := by
  unfold execTapRelock
  have hs := h.refl s
  repeat' with_reducible (first
    | apply lands_next | assumption | refine ite_lands (fun _ => ?_) (fun _ => ?_)
    | refine ite_frame (fun _ => ?_) (fun _ => ?_) | refine State.relock_frame h ?_ | refine State.settle_frame h ?_)

theorem execCkCtlLoss_frame (h : Frame R) {s : State} : Lands (R s) (execCkCtlLoss s) := by
  unfold execCkCtlLoss
  have hs := h.refl s
  repeat' with_reducible (first
    | apply lands_next | assumption | refine ite_lands (fun _ => ?_) (fun _ => ?_)
    | refine ite_frame (fun _ => ?_) (fun _ => ?_) | refine State.crustTrip_frame h ?_ | refine State.fault_frame h ?_
    | refine State.modBoot_frame h ?_ | refine State.modPower_frame h ?_ | refine State.wrBit_frame h ?_
    | exact h.refl _)

theorem execCkSafeStop_frame (h : Frame R) {s : State} : Lands (R s) (execCkSafeStop s) := by
  unfold execCkSafeStop
  have hs := h.refl s
  repeat' with_reducible (first
    | apply lands_next | assumption | refine ite_lands (fun _ => ?_) (fun _ => ?_)
    | refine ite_frame (fun _ => ?_) (fun _ => ?_) | refine State.dropGen_frame h ?_ | refine State.fault_frame h ?_
    | refine State.modBoot_frame h ?_ | refine State.modPower_frame h ?_ | exact h.refl _)

theorem execCkSafeDeviation_frame (h : Frame R) {hz : Nat} {s : State} : Lands (R s) (execCkSafeDeviation hz s) := by
  unfold execCkSafeDeviation
  have hs := h.refl s
  repeat' (first
    | with_reducible (first
        | apply lands_next | assumption | refine ite_lands (fun _ => ?_) (fun _ => ?_)
        | refine ite_frame (fun _ => ?_) (fun _ => ?_) | refine h.wrStep ?_ | refine State.fault_frame h ?_
        | refine State.modPower_frame h ?_ | exact h.refl _)
    | extract_lets)

theorem execCkAdcFault_frame (h : Frame R) {s : State} : Lands (R s) (execCkAdcFault s) := by
  unfold execCkAdcFault
  have hs := h.refl s
  repeat' (first
    | with_reducible (first
        | apply lands_next | assumption | refine ite_lands (fun _ => ?_) (fun _ => ?_)
        | refine ite_frame (fun _ => ?_) (fun _ => ?_) | refine State.fault_frame h ?_
        | refine forAll_frame h (fun _ _ => ?_) ?_ | refine State.modConv_frame h ?_
        | refine State.modPower_frame h ?_ | exact h.refl _)
    | extract_lets)

theorem execCkAdcRecovered_frame (h : Frame R) {s : State} : Lands (R s) (execCkAdcRecovered s) := by
  unfold execCkAdcRecovered
  have hs := h.refl s
  repeat' with_reducible (first
    | apply lands_next | assumption | refine ite_lands (fun _ => ?_) (fun _ => ?_)
    | refine ite_frame (fun _ => ?_) (fun _ => ?_) | refine State.modPower_frame h ?_ | exact h.refl _)

theorem execCkMgtDeviation_frame (h : Frame R) {s : State} : Lands (R s) (execCkMgtDeviation s) := by
  unfold execCkMgtDeviation
  have hs := h.refl s
  repeat' with_reducible (first
    | apply lands_next | assumption | refine ite_lands (fun _ => ?_) (fun _ => ?_)
    | refine ite_frame (fun _ => ?_) (fun _ => ?_) | refine State.dropGen_frame h ?_ | refine State.faultM_frame h ?_
    | refine State.modBoot_frame h ?_ | refine State.modPower_frame h ?_ | exact h.refl _)

theorem execWatchdogExpiry_frame (h : Frame R) {s : State} : Lands (R s) (execWatchdogExpiry s) := by
  unfold execWatchdogExpiry
  have hs := h.refl s
  repeat' with_reducible (first
    | apply lands_next | assumption | refine ite_lands (fun _ => ?_) (fun _ => ?_)
    | refine ite_frame (fun _ => ?_) (fun _ => ?_) | refine State.bumpOpen_frame h ?_
    | refine State.dropGen_frame h ?_ | refine State.faultM_frame h ?_ | refine State.modBoot_frame h ?_
    | refine State.modPower_frame h ?_ | exact h.refl _)

theorem execWatchdogReset_frame (h : Frame R) {s : State} : Lands (R s) (execWatchdogReset s) := by
  unfold execWatchdogReset
  have hs := h.refl s
  repeat' with_reducible (first
    | apply lands_next | assumption | refine ite_lands (fun _ => ?_) (fun _ => ?_)
    | refine ite_frame (fun _ => ?_) (fun _ => ?_) | refine State.atT_frame h ?_ | refine State.doReset_frame h ?_)

theorem execStandbyClockFault_frame (h : Frame R) {s : State} : Lands (R s) (execStandbyClockFault s) := by
  unfold execStandbyClockFault
  have hs := h.refl s
  repeat' with_reducible (first
    | apply lands_next | assumption | refine ite_lands (fun _ => ?_) (fun _ => ?_)
    | refine ite_frame (fun _ => ?_) (fun _ => ?_) | refine h.wrStep ?_ | refine State.modPower_frame h ?_
    | refine State.reportM_frame h ?_ | exact h.refl _)

theorem execStandbyClockRecovered_frame (h : Frame R) {s : State} : Lands (R s) (execStandbyClockRecovered s) := by
  unfold execStandbyClockRecovered
  have hs := h.refl s
  repeat' with_reducible (first
    | apply lands_next | assumption | refine ite_lands (fun _ => ?_) (fun _ => ?_)
    | refine ite_frame (fun _ => ?_) (fun _ => ?_) | refine State.modPower_frame h ?_ | exact h.refl _)

theorem execTimeCounterReload_frame (h : Frame R) {s : State} : Lands (R s) (execTimeCounterReload s) := by
  unfold execTimeCounterReload
  have hs := h.refl s
  repeat' (first
    | with_reducible (first
        | apply lands_next | assumption | refine ite_lands (fun _ => ?_) (fun _ => ?_)
        | refine ite_frame (fun _ => ?_) (fun _ => ?_) | refine h.wrStep ?_ | refine State.modPower_frame h ?_
        | refine State.modTime_frame h (Nat.le_refl _) ?_ | exact h.refl _)
    | extract_lets)

theorem execWakeAlarmCompare_frame (h : Frame R) {s : State} : Lands (R s) (execWakeAlarmCompare s) := by
  unfold execWakeAlarmCompare
  have hs := h.refl s
  repeat' (first
    | with_reducible (first
        | apply lands_next | assumption | refine ite_lands (fun _ => ?_) (fun _ => ?_)
        | refine ite_frame (fun _ => ?_) (fun _ => ?_) | refine h.wrStep ?_ | refine State.doReset_frame h ?_
        | refine State.modPower_frame h ?_ | refine State.modTime_frame h (Nat.le_refl _) ?_ | exact h.refl _)
    | extract_lets)

theorem execStandbySupplyLoss_frame (h : Frame R) {s : State} : Lands (R s) (execStandbySupplyLoss s) := by
  unfold execStandbySupplyLoss
  have hs := h.refl s
  repeat' with_reducible (first
    | apply lands_next | assumption | refine ite_lands (fun _ => ?_) (fun _ => ?_)
    | refine ite_frame (fun _ => ?_) (fun _ => ?_) | refine State.modPower_frame h ?_ | exact h.refl _)

theorem execTransitionBegin_frame (h : Frame R) {s : State} : Lands (R s) (execTransitionBegin s) := by
  unfold execTransitionBegin
  have hs := h.refl s
  repeat' (first
    | with_reducible (first
        | apply lands_next | assumption | refine ite_lands (fun _ => ?_) (fun _ => ?_)
        | refine ite_frame (fun _ => ?_) (fun _ => ?_) | refine State.atT_frame h ?_
        | refine State.beginTransition_frame h ?_)
    | split)

end Sys2Proof.Machine
end

