-- ==== Sys2Proof/Laws/FrameHostOps.lean ====
section
/-! SUPPORT. What every operation of Machine/HostOps.lean keeps: the frame lemmas. -/

set_option linter.unreachableTactic false
set_option linter.unusedTactic false

namespace Sys2Proof.Machine

variable {R : State → State → Prop}

theorem State.snapshot_frame (h : Frame R) {r0 : State} {s : State} {addr count : Nat} (hs : R r0 s) : R r0
    (State.snapshot s addr count) := by
  unfold State.snapshot
  repeat' (first
    | with_reducible (first
        | assumption | refine ite_frame (fun _ => ?_) (fun _ => ?_) | refine State.modHost_frame h ?_ | exact h.refl _)
    | extract_lets)

theorem State.winIgnore_frame (h : Frame R) {r0 : State} {s : State} (hs : R r0 s) : R r0 (State.winIgnore s) := by
  unfold State.winIgnore
  repeat' with_reducible (first
    | assumption | refine State.modHost_frame h ?_ | exact h.refl _)

theorem State.releaseOut_frame (h : Frame R) {r0 : State} {n : Fin 4} {s : State} (hs : R r0 s) : R r0
    (State.releaseOut n s) := by
  unfold State.releaseOut
  repeat' (first
    | with_reducible (first
        | assumption | refine ite_frame (fun _ => ?_) (fun _ => ?_) | refine State.beginTransition_frame h ?_
        | refine State.clrIrq_frame h ?_ | refine State.modMb_frame h ?_ | refine State.placeOut_frame h ?_
        | refine State.transPlaced_frame h ?_ | exact h.refl _)
    | extract_lets | split)

theorem State.passIn_frame (h : Frame R) {r0 : State} {n : Fin 4} {s : State} (hs : R r0 s) : R r0 (State.passIn n s)
    := by
  unfold State.passIn
  repeat' with_reducible (first
    | assumption | refine ite_frame (fun _ => ?_) (fun _ => ?_) | refine State.clrIrq_frame h ?_
    | refine State.modHost_frame h ?_ | refine State.modMb_frame h ?_ | refine State.reportM_frame h ?_
    | refine State.setIrq_frame h ?_ | exact h.refl _)

theorem State.writeDbIn_frame (h : Frame R) {r0 : State} {w : Word} {s : State} (hs : R r0 s) : R r0 (State.writeDbIn
    w s) := by
  unfold State.writeDbIn
  repeat' with_reducible (first
    | assumption | refine ite_frame (fun _ => ?_) (fun _ => ?_) | refine forAll_frame h (fun _ _ => ?_) ?_
    | refine State.passIn_frame h ?_ | exact h.refl _)

theorem State.writeDbOut_frame (h : Frame R) {r0 : State} {w : Word} {s : State} (hs : R r0 s) : R r0
    (State.writeDbOut w s) := by
  unfold State.writeDbOut
  repeat' with_reducible (first
    | assumption | refine ite_frame (fun _ => ?_) (fun _ => ?_) | refine forAll_frame h (fun _ _ => ?_) ?_
    | refine State.releaseOut_frame h ?_ | exact h.refl _)

theorem State.writeTsCtrl_frame (h : Frame R) {r0 : State} {w : Word} {s : State} (hs : R r0 s) : R r0
    (State.writeTsCtrl w s) := by
  unfold State.writeTsCtrl
  repeat' (first
    | with_reducible (first
        | assumption | refine ite_frame (fun _ => ?_) (fun _ => ?_) | refine State.drew_frame h ?_
        | refine State.modTime_frame h (Nat.le_refl _) ?_ | refine State.winIgnore_frame h ?_ | exact h.refl _)
    | extract_lets)

theorem State.writeHbHost_frame (h : Frame R) {r0 : State} {w : Word} {s : State} (hs : R r0 s) : R r0
    (State.writeHbHost w s) := by
  unfold State.writeHbHost
  repeat' (first
    | with_reducible (first
        | assumption | refine ite_frame (fun _ => ?_) (fun _ => ?_) | refine State.hostBeat_frame h ?_
        | refine State.modHost_frame h ?_ | exact h.refl _)
    | extract_lets)

theorem State.writeIrqFlags_frame (h : Frame R) {r0 : State} {w : Word} {s : State} (hs : R r0 s) : R r0
    (State.writeIrqFlags w s) := by
  unfold State.writeIrqFlags
  repeat' with_reducible (first
    | assumption | refine State.modHost_frame h ?_ | exact h.refl _)

theorem State.writeHostCntClr_frame (h : Frame R) {r0 : State} {w : Word} {s : State} (hs : R r0 s) : R r0
    (State.writeHostCntClr w s) := by
  unfold State.writeHostCntClr
  repeat' with_reducible (first
    | assumption | refine ite_frame (fun _ => ?_) (fun _ => ?_) | refine State.modHost_frame h ?_ | exact h.refl _)

theorem State.writeIn_frame (h : Frame R) {r0 : State} {n : Fin 4} {i : Nat} {w : Word} {s : State} (hs : R r0 s) : R
    r0 (State.writeIn n i w s) := by
  unfold State.writeIn
  repeat' with_reducible (first
    | assumption | refine ite_frame (fun _ => ?_) (fun _ => ?_) | refine State.modMb_frame h ?_ | exact h.refl _)

theorem State.windowWrite_frame (h : Frame R) {r0 : State} {a : Nat} {w : Word} {s : State} (hs : R r0 s) : R r0
    (State.windowWrite a w s) := by
  unfold State.windowWrite
  repeat' (first
    | with_reducible (first
        | assumption | refine ite_frame (fun _ => ?_) (fun _ => ?_) | refine State.modHost_frame h ?_
        | refine State.winIgnore_frame h ?_ | refine State.writeDbIn_frame h ?_ | refine State.writeDbOut_frame h ?_
        | refine State.writeHbHost_frame h ?_ | refine State.writeHostCntClr_frame h ?_
        | refine State.writeIn_frame h ?_ | refine State.writeIrqFlags_frame h ?_
        | refine State.writeTsCtrl_frame h ?_ | exact h.refl _)
    | split)

theorem State.windowWrites_frame (h : Frame R) {r0 : State} {a : Nat} {ws : List Word} {s : State} (hs : R r0 s) :
    R r0 (State.windowWrites a ws s) := by
  induction ws generalizing a s with
  | nil => exact hs
  | cons w ws ih => exact ih (State.windowWrite_frame h hs)

end Sys2Proof.Machine
end

