-- ==== Sys2Proof/Laws/FrameHostPort.lean ====
section
/-! SUPPORT. What every operation of Machine/HostPort.lean keeps: the frame lemmas. -/

set_option linter.unreachableTactic false
set_option linter.unusedTactic false

namespace Sys2Proof.Machine

variable {R : State → State → Prop}

theorem State.frameErr_frame (h : Frame R) {r0 : State} {result : Nat} {s : State} (hs : R r0 s) : R r0
    (State.frameErr result s) := by
  unfold State.frameErr
  repeat' (first
    | with_reducible (first
        | assumption | refine ite_frame (fun _ => ?_) (fun _ => ?_) | refine State.modHost_frame h ?_
        | refine State.setIrq_frame h ?_ | exact h.refl _)
    | extract_lets)

theorem State.hostFrame_frame (h : Frame R) {r0 : State} {bytes : List Byte} {bits gapNs : Nat} {s : State} (hs : R r0
    s) : R r0 (State.hostFrame bytes bits gapNs s) := by
  unfold State.hostFrame
  repeat' (first
    | with_reducible (first
        | assumption | refine ite_frame (fun _ => ?_) (fun _ => ?_) | refine State.frameErr_frame h ?_
        | refine State.lastResult_frame h ?_ | refine State.modHost_frame h ?_ | refine State.snapshot_frame h ?_
        | refine State.windowWrites_frame h ?_ | exact h.refl _)
    | extract_lets)

theorem execHostWriteFrame_frame (h : Frame R) {bytes : List Byte} {bits gapNs : Nat} {s : State} : Lands (R s)
    (execHostWriteFrame bytes bits gapNs s) := by
  unfold execHostWriteFrame
  have hs := h.refl s
  repeat' with_reducible (first
    | apply lands_next | assumption | refine State.hostFrame_frame h ?_ | refine State.settle_frame h ?_)

theorem execHostReadFrame_frame (h : Frame R) {bytes : List Byte} {bits gapNs : Nat} {s : State} : Lands (R s)
    (execHostReadFrame bytes bits gapNs s) := by
  unfold execHostReadFrame
  have hs := h.refl s
  repeat' with_reducible (first
    | apply lands_next | assumption | refine State.hostFrame_frame h ?_ | refine State.settle_frame h ?_)

theorem execDbIn_frame (h : Frame R) {w : Word} {s : State} : Lands (R s) (execDbIn w s) := by
  unfold execDbIn
  have hs := h.refl s
  repeat' with_reducible (first
    | apply lands_next | assumption | refine State.windowWrite_frame h ?_)

theorem execDbOut_frame (h : Frame R) {w : Word} {s : State} : Lands (R s) (execDbOut w s) := by
  unfold execDbOut
  have hs := h.refl s
  repeat' with_reducible (first
    | apply lands_next | assumption | refine State.windowWrite_frame h ?_)

theorem execTsCtrl_frame (h : Frame R) {w : Word} {s : State} : Lands (R s) (execTsCtrl w s) := by
  unfold execTsCtrl
  have hs := h.refl s
  repeat' with_reducible (first
    | apply lands_next | assumption | refine State.windowWrite_frame h ?_)

theorem execHbHost_frame (h : Frame R) {w : Word} {s : State} : Lands (R s) (execHbHost w s) := by
  unfold execHbHost
  have hs := h.refl s
  repeat' with_reducible (first
    | apply lands_next | assumption | refine State.windowWrite_frame h ?_)

theorem execIrqFlags_frame (h : Frame R) {w : Word} {s : State} : Lands (R s) (execIrqFlags w s) := by
  unfold execIrqFlags
  have hs := h.refl s
  repeat' with_reducible (first
    | apply lands_next | assumption | refine State.windowWrite_frame h ?_)

theorem execHostCntClr_frame (h : Frame R) {w : Word} {s : State} : Lands (R s) (execHostCntClr w s) := by
  unfold execHostCntClr
  have hs := h.refl s
  repeat' with_reducible (first
    | apply lands_next | assumption | refine State.windowWrite_frame h ?_)

theorem execWindowRegisterWrite_frame (h : Frame R) {addr : Nat} {w : Word} {s : State} : Lands (R s)
    (execWindowRegisterWrite addr w s) := by
  unfold execWindowRegisterWrite
  have hs := h.refl s
  repeat' with_reducible (first
    | apply lands_next | assumption | refine State.windowWrite_frame h ?_)

theorem execTsLatchComplete_frame (h : Frame R) {s : State} : Lands (R s) (execTsLatchComplete s) := by
  unfold execTsLatchComplete
  have hs := h.refl s
  repeat' (first
    | with_reducible (first
        | apply lands_next | assumption | refine State.modHost_frame h ?_
        | refine State.modTime_frame h (Nat.le_refl _) ?_ | refine State.setIrq_frame h ?_ | exact h.refl _)
    | extract_lets | split)

theorem State.supplyRefresh_frame (h : Frame R) {r0 : State} {s : State} (hs : R r0 s) : R r0 (State.supplyRefresh s)
    := by
  unfold State.supplyRefresh
  repeat' (first
    | with_reducible (first
        | assumption | refine ite_frame (fun _ => ?_) (fun _ => ?_) | refine forAll_frame h (fun _ _ => ?_) ?_
        | refine State.wrBit_frame h ?_ | exact h.refl _)
    | extract_lets)

theorem State.ptTick_frame (h : Frame R) {r0 : State} {s : State} (hs : R r0 s) : R r0 (State.ptTick s) := by
  unfold State.ptTick
  repeat' with_reducible (first
    | assumption | refine ite_frame (fun _ => ?_) (fun _ => ?_) | refine State.bump_frame h ?_
    | refine State.modSafety_frame h ?_ | exact h.refl _)

theorem execHbModuleTick_frame (h : Frame R) {t : Nat} {s0 : State} : Lands (R s0) (execHbModuleTick t s0) := by
  unfold execHbModuleTick
  have hs := h.refl s0
  repeat' (first
    | with_reducible (first
        | apply lands_next | assumption | refine ite_lands (fun _ => ?_) (fun _ => ?_)
        | refine ite_frame (fun _ => ?_) (fun _ => ?_) | refine State.atT_frame h ?_
        | refine State.discStep_frame h ?_ | refine State.modHost_frame h ?_ | refine State.ptTick_frame h ?_
        | refine State.safetyEval_frame h ?_ | refine State.settle_frame h ?_ | refine State.supplyRefresh_frame h ?_
        | exact h.refl _)
    | extract_lets)

end Sys2Proof.Machine
end

