-- ==== Sys2Proof/Laws/FrameCmdOps.lean ====
section
/-! SUPPORT. What every operation of Machine/CmdOps.lean keeps: the frame lemmas. -/

set_option linter.unreachableTactic false
set_option linter.unusedTactic false

namespace Sys2Proof.Machine

variable {R : State → State → Prop}

theorem State.putSet_frame (h : Frame R) {r0 : State} {x : Transfer} {s : State} (hs : R r0 s) : R r0 (State.putSet x s) := by
  unfold State.putSet
  repeat' with_reducible (first
    | assumption | refine State.modCmd_frame h ?_ | exact h.refl _)

theorem State.dropSet_frame (h : Frame R) {r0 : State} {src : Source} {n : Nat} {s : State} (hs : R r0 s) : R r0
    (State.dropSet src n s) := by
  unfold State.dropSet
  repeat' with_reducible (first
    | assumption | refine State.modCmd_frame h ?_ | exact h.refl _)

theorem State.refusedEffects_frame (h : Frame R) {r0 : State} {src : Source} {code status : Nat} {ws : List Word} {s :
    State} (hs : R r0 s) : R r0 (State.refusedEffects src code status ws s) := by
  unfold State.refusedEffects
  repeat' with_reducible (first
    | assumption | refine ite_frame (fun _ => ?_) (fun _ => ?_) | refine State.dropSet_frame h ?_
    | refine State.modCmd_frame h ?_ | refine State.modSec_frame h (Nat.le_refl _) ?_ | exact h.refl _)

theorem State.deny_frame (h : Frame R) {r0 : State} {src : Source} {j : Job} {status : Nat} {s : State} (hs : R r0 s)
    : R r0 (State.deny src j status s) := by
  unfold State.deny
  repeat' with_reducible (first
    | assumption | refine State.refusedEffects_frame h ?_ | refine State.respond_frame h ?_)

theorem State.takeCommand_frame (h : Frame R) {r0 : State} {src : Source} {w0 : Word} {rest : List Word} {s : State}
    (hs : R r0 s) : R r0 (State.takeCommand src w0 rest s) := by
  unfold State.takeCommand
  repeat' (first
    | with_reducible (first
        | assumption | refine ite_frame (fun _ => ?_) (fun _ => ?_) | refine State.answer_frame h ?_
        | refine State.bump_frame h ?_ | refine State.refusedEffects_frame h ?_ | refine State.setJob_frame h ?_
        | exact h.refl _)
    | extract_lets)

theorem State.takeMailbox_frame (h : Frame R) {r0 : State} {n : Fin 4} {s : State} (hs : R r0 s) : R r0
    (State.takeMailbox n s) := by
  unfold State.takeMailbox
  repeat' (first
    | with_reducible (first
        | assumption | refine ite_frame (fun _ => ?_) (fun _ => ?_) | refine State.modCmd_frame h ?_
        | refine State.modMb_frame h ?_ | refine State.modSec_frame h (Nat.le_refl _) ?_
        | refine State.setIrq_frame h ?_ | refine State.takeCommand_frame h ?_ | exact h.refl _)
    | extract_lets)

theorem State.takeConn_frame (h : Frame R) {r0 : State} {c : Fin 4} {s : State} (hs : R r0 s) : R r0 (State.takeConn c
    s) := by
  unfold State.takeConn
  repeat' (first
    | with_reducible (first
        | assumption | refine State.modCmd_frame h ?_ | refine State.modConn_frame h ?_
        | refine State.takeCommand_frame h ?_ | exact h.refl _)
    | split)

theorem State.run_frame (h : Frame R) {r0 : State} {src : Source} {code : Nat} {p : Job → Bool} {f : Job → State →
    State} {s : State} (hf : ∀ j x, R x (f j x)) (hs : R r0 s) : R r0 (State.run src code p f s) := by
  unfold State.run
  repeat' (first
    | with_reducible (first
        | assumption | refine ite_frame (fun _ => ?_) (fun _ => ?_) | refine State.deny_frame h ?_
        | refine State.settle_frame h ?_ | refine h.trans ?_ (hf _) | refine h.trans ?_ (hf _ _))
    | extract_lets | split)

theorem State.clearLatches_frame (h : Frame R) {r0 : State} {p : Pend} {s : State} (hs : R r0 s) : R r0
    (State.clearLatches p s) := by
  unfold State.clearLatches
  repeat' (first
    | with_reducible (first
        | assumption | refine ite_frame (fun _ => ?_) (fun _ => ?_) | refine h.wrStep ?_
        | refine forAll_frame h (fun _ _ => ?_) ?_ | refine State.modFb_frame h ?_ | refine State.modLoaf_frame h ?_
        | refine State.modPower_frame h ?_ | refine State.modSafety_frame h ?_ | refine State.wrBit_frame h ?_
        | exact h.refl _)
    | extract_lets)

theorem State.clearOne_frame (h : Frame R) {r0 : State} {p : Pend} {s : State} (hs : R r0 s) : R r0 (State.clearOne p
    s) := by
  unfold State.clearOne
  repeat' with_reducible (first
    | assumption | refine State.clearLatches_frame h ?_ | refine State.emit_frame h ?_
    | refine State.modFlt_frame h ?_ | refine State.react_frame h ?_ | exact h.refl _)

theorem State.faultToOff_frame (h : Frame R) {r0 : State} {s : State} (hs : R r0 s) : R r0 (State.faultToOff s) := by
  unfold State.faultToOff
  repeat' with_reducible (first
    | assumption | refine ite_frame (fun _ => ?_) (fun _ => ?_) | refine State.fault_frame h ?_
    | refine forAll_frame h (fun _ _ => ?_) ?_ | refine State.loafTo_frame h ?_ | exact h.refl _)

theorem State.leaveSafe_frame (h : Frame R) {r0 : State} {s : State} (hs : R r0 s) : R r0 (State.leaveSafe s) := by
  unfold State.leaveSafe
  repeat' (first
    | with_reducible (first
        | assumption | refine ite_frame (fun _ => ?_) (fun _ => ?_) | refine State.modSafety_frame h ?_
        | refine State.safetyEval_frame h ?_ | refine State.setMode_frame h ?_ | refine State.stoEnd_frame h ?_
        | exact h.refl _)
    | extract_lets)

theorem State.auditCmd_frame (h : Frame R) {r0 : State} {src : Source} {role event status data : Nat} {s : State} (hs
    : R r0 s) : R r0 (State.auditCmd src role event status data s) := by
  unfold State.auditCmd
  repeat' with_reducible (first
    | assumption | refine State.auditEvent_frame h ?_)

theorem State.endHostSession_frame (h : Frame R) {r0 : State} {why : Nat} {s : State} (hs : R r0 s) : R r0
    (State.endHostSession why s) := by
  unfold State.endHostSession
  repeat' (first
    | with_reducible (first
        | assumption | refine State.auditEvent_frame h ?_ | refine State.endSubs_frame h ?_
        | refine State.modCmd_frame h ?_ | refine State.modSec_frame h (Nat.le_refl _) ?_ | exact h.refl _)
    | split)

theorem State.setLock_frame (h : Frame R) {r0 : State} {user : Nat} {v : Nat × Nat × Option Nat} {s : State} (hs : R
    r0 s) : R r0 (State.setLock user v s) := by
  unfold State.setLock
  repeat' with_reducible (first
    | assumption | refine State.modSec_frame h (Nat.le_refl _) ?_ | exact h.refl _)

theorem State.authFailed_frame (h : Frame R) {r0 : State} {role user : Nat} {s : State} (hs : R r0 s) : R r0
    (State.authFailed role user s) := by
  unfold State.authFailed
  repeat' (first
    | with_reducible (first
        | assumption | refine ite_frame (fun _ => ?_) (fun _ => ?_) | refine State.auditEvent_frame h ?_
        | refine State.reportM_frame h ?_ | refine State.setLock_frame h ?_)
    | extract_lets)

theorem State.stepStation_frame (h : Frame R) {r0 : State} {d : Int} {s : State} (hs : R r0 s) : R r0
    (State.stepStation d s) := by
  unfold State.stepStation
  repeat' with_reducible (first
    | assumption | refine ite_frame (fun _ => ?_) (fun _ => ?_) | refine State.modNet_frame h ?_
    | refine State.modTime_frame h (Nat.le_refl _) ?_ | exact h.refl _)

end Sys2Proof.Machine
end

