-- ==== Sys2Proof/Laws/FramePeelOps.lean ====
section
/-! SUPPORT. What every operation of Machine/PeelOps.lean keeps: the frame lemmas. -/

set_option linter.unreachableTactic false
set_option linter.unusedTactic false

namespace Sys2Proof.Machine

variable {R : State → State → Prop}

theorem State.modPeel_frame (h : Frame R) {r0 : State} {r : Region} {f : PeelEnd → PeelEnd} {s : State} (hs : R r0 s)
    : R r0 (State.modPeel r f s) := by
  unfold State.modPeel
  repeat' (first
    | with_reducible (first
        | assumption)
    | split | exact h.trans hs (h.other rfl rfl rfl (Nat.le_refl _) (Nat.le_refl _)))

theorem State.peelPut_frame (h : Frame R) {r0 : State} {r : Region} {p : Packet} {s : State} (hs : R r0 s) : R r0
    (State.peelPut r p s) := by
  unfold State.peelPut
  repeat' with_reducible (first
    | assumption | refine State.modPeel_frame h ?_ | exact h.refl _)

theorem State.peelResend_frame (h : Frame R) {r0 : State} {r : Region} {p : Packet} {s : State} (hs : R r0 s) : R r0
    (State.peelResend r p s) := by
  unfold State.peelResend
  repeat' (first
    | with_reducible (first
        | assumption | refine ite_frame (fun _ => ?_) (fun _ => ?_) | refine State.bumpOpen_frame h ?_
        | refine State.modPeel_frame h ?_ | refine State.peelPut_frame h ?_ | exact h.refl _)
    | extract_lets)

theorem State.peelFirst_frame (h : Frame R) {r0 : State} {r : Region} {w : Nat × Packet × Nat} {s : State} (hs : R r0
    s) : R r0 (State.peelFirst r w s) := by
  unfold State.peelFirst
  repeat' (first
    | with_reducible (first
        | assumption | refine ite_frame (fun _ => ?_) (fun _ => ?_) | refine State.modOven_frame h ?_
        | refine State.modPeel_frame h ?_ | refine State.peelPut_frame h ?_ | exact h.refl _)
    | extract_lets)

theorem State.peelIdle_frame (h : Frame R) {r0 : State} {r : Region} {s : State} (hs : R r0 s) : R r0 (State.peelIdle
    r s) := by
  unfold State.peelIdle
  repeat' with_reducible (first
    | assumption | refine ite_frame (fun _ => ?_) (fun _ => ?_) | refine State.peelPut_frame h ?_)

theorem State.peelGrant_frame (h : Frame R) {r0 : State} {r : Region} {s : State} (hs : R r0 s) : R r0
    (State.peelGrant r s) := by
  unfold State.peelGrant
  repeat' (first
    | with_reducible (first
        | assumption | refine ite_frame (fun _ => ?_) (fun _ => ?_) | refine State.modPeel_frame h ?_
        | refine State.peelFirst_frame h ?_ | refine State.peelIdle_frame h ?_ | refine State.peelPut_frame h ?_
        | refine State.peelResend_frame h ?_ | exact h.refl _)
    | extract_lets | split)

theorem State.peelBack_frame (h : Frame R) {r0 : State} {r : Region} {s : State} (hs : R r0 s) : R r0 (State.peelBack
    r s) := by
  unfold State.peelBack
  repeat' with_reducible (first
    | assumption | refine State.modPeel_frame h ?_ | exact h.refl _)

theorem State.ctlLatency_frame (h : Frame R) {r0 : State} {r : Region} {p : Packet} {s : State} (hs : R r0 s) : R r0
    (State.ctlLatency r p s) := by
  unfold State.ctlLatency
  repeat' (first
    | with_reducible (first
        | assumption | refine ite_frame (fun _ => ?_) (fun _ => ?_) | refine h.wrStep ?_
        | refine State.modPeel_frame h ?_ | exact h.refl _)
    | extract_lets | split)

theorem State.peelRx_frame (h : Frame R) {r0 : State} {r : Region} {k : PktKind} {p : Packet} {s : State} (hs : R r0 s) :
    R r0 (State.peelRx r k p s).2 := by
  unfold State.peelRx
  split
  · exact hs
  split
  · dsimp only
    exact State.modPeel_frame h (State.bumpOpen_frame h hs)
  split
  · exact hs
  extract_lets s1
  have h1 : R r0 s1 := State.modPeel_frame h hs
  split
  · dsimp only
    exact State.ctlLatency_frame h h1
  split
  · dsimp only
    exact State.ctlLatency_frame h (State.modPeel_frame h h1)
  · dsimp only
    exact State.modPeel_frame h h1

theorem State.peelTake_frame (h : Frame R) {r0 : State} {r : Region} {k : PktKind} {p : Packet} {f : State → State} {s : State}
    (hf : ∀ x, R x (f x)) (hs : R r0 s) : R r0 (State.peelTake r k p f s) := by
  unfold State.peelTake
  extract_lets x
  have h1 : R r0 x.2 := State.peelRx_frame h hs
  split
  · exact h.trans h1 (hf _)
  · exact h1

theorem State.peelWrite_frame (h : Frame R) {r0 : State} {p : Packet} {s : State} (hs : R r0 s) : R r0
    (State.peelWrite p s) := by
  unfold State.peelWrite
  repeat' (first
    | with_reducible (first
        | assumption | refine ite_frame (fun _ => ?_) (fun _ => ?_) | refine State.takeWrite_frame h ?_)
    | extract_lets | split)

theorem State.peelRead_frame (h : Frame R) {r0 : State} {p : Packet} {s : State} (hs : R r0 s) : R r0 (State.peelRead
    p s) := by
  unfold State.peelRead
  repeat' (first
    | with_reducible (first
        | assumption | refine State.enqueue_frame h ?_)
    | split)

theorem State.capReadStart_frame (h : Frame R) {r0 : State} {src : Source} {off n : Nat} {s : State} (hs : R r0 s) : R
    r0 (State.capReadStart src off n s) := by
  unfold State.capReadStart
  repeat' with_reducible (first
    | assumption | refine State.enqueue_frame h ?_ | refine forAll_frame h (fun _ _ => ?_) ?_
    | refine State.modCmd_frame h ?_ | exact h.refl _)

theorem State.capForget_frame (h : Frame R) {r0 : State} {src : Source} {s : State} (hs : R r0 s) : R r0
    (State.capForget src s) := by
  unfold State.capForget
  repeat' with_reducible (first
    | assumption | refine ite_frame (fun _ => ?_) (fun _ => ?_) | refine State.modCmd_frame h ?_ | exact h.refl _)

theorem State.capData_frame (h : Frame R) {r0 : State} {bytes : List Byte} {s : State} (hs : R r0 s) : R r0
    (State.capData bytes s) := by
  unfold State.capData
  repeat' (first
    | with_reducible (first
        | assumption | refine ite_frame (fun _ => ?_) (fun _ => ?_) | refine State.modCmd_frame h ?_
        | refine State.respond_frame h ?_ | exact h.refl _)
    | extract_lets | split)

end Sys2Proof.Machine
end

