-- ==== Sys2Proof/Laws/FrameCommands.lean ====
section
/-! SUPPORT. What every operation of Machine/Commands.lean keeps: the frame lemmas. -/

set_option linter.unreachableTactic false
set_option linter.unusedTactic false

namespace Sys2Proof.Machine

variable {R : State → State → Prop}

theorem execMailboxTake_frame (h : Frame R) {s : State} : Lands (R s) (execMailboxTake s) := by
  unfold execMailboxTake
  have hs := h.refl s
  repeat' (first
    | with_reducible (first
        | apply lands_next | assumption | refine ite_lands (fun _ => ?_) (fun _ => ?_)
        | refine ite_frame (fun _ => ?_) (fun _ => ?_) | refine State.settle_frame h ?_
        | refine State.takeConn_frame h ?_ | refine State.takeMailbox_frame h ?_)
    | split)

theorem execMb2DeliveryOut_frame (h : Frame R) {s : State} : Lands (R s) (execMb2DeliveryOut s) := by
  unfold execMb2DeliveryOut
  have hs := h.refl s
  repeat' (first
    | with_reducible (first
        | apply lands_next | assumption | refine ite_lands (fun _ => ?_) (fun _ => ?_)
        | refine ite_frame (fun _ => ?_) (fun _ => ?_) | refine State.bump_frame h ?_ | refine State.modCmd_frame h ?_
        | refine State.placeOut_frame h ?_ | exact h.refl _)
    | extract_lets | split)

theorem execEcho_frame (h : Frame R) {src : Source} {s : State} : Lands (R s) (execEcho src s) := by
  unfold execEcho
  have hs := h.refl s
  repeat' with_reducible (first
    | apply lands_next | assumption | refine State.respond_frame h ?_ | refine State.run_frame h (fun _ _ => ?_) ?_
    | exact h.refl _)

theorem State.readOver_frame (h : Frame R) {r0 : State} {src : Source} {ws : List Word} {s : State} (hs : R r0 s) : R
    r0 (State.readOver src ws s) := by
  unfold State.readOver
  repeat' with_reducible (first
    | assumption | refine State.enqueue_frame h ?_ | refine forAll_frame h (fun _ _ => ?_) ?_ | exact h.refl _)

theorem execGet_frame (h : Frame R) {src : Source} {s : State} : Lands (R s) (execGet src s) := by
  unfold execGet
  have hs := h.refl s
  repeat' with_reducible (first
    | apply lands_next | assumption | refine State.readOver_frame h ?_ | refine State.respond_frame h ?_
    | refine State.run_frame h (fun _ _ => ?_) ?_ | exact h.refl _)

theorem execSet_frame (h : Frame R) {src : Source} {s : State} : Lands (R s) (execSet src s) := by
  unfold execSet
  have hs := h.refl s
  repeat' with_reducible (first
    | apply lands_next | assumption | refine State.respond_frame h ?_ | refine State.run_frame h (fun _ _ => ?_) ?_
    | refine State.writeAll_frame h ?_ | exact h.refl _)

theorem State.getBlock_frame (h : Frame R) {r0 : State} {src : Source} {j : Job} {s : State} (hs : R r0 s) : R r0
    (State.getBlock src j s) := by
  unfold State.getBlock
  repeat' (first
    | with_reducible (first
        | assumption | refine ite_frame (fun _ => ?_) (fun _ => ?_) | refine State.modCmd_frame h ?_
        | refine State.respond_frame h ?_ | exact h.refl _)
    | extract_lets | split)

theorem execGetBlock_frame (h : Frame R) {src : Source} {s : State} : Lands (R s) (execGetBlock src s) := by
  unfold execGetBlock
  have hs := h.refl s
  repeat' with_reducible (first
    | apply lands_next | assumption | refine State.getBlock_frame h ?_ | refine State.run_frame h (fun _ _ => ?_) ?_
    | exact h.refl _)

theorem State.dropStaging_frame (h : Frame R) {r0 : State} {src : Source} {s : State} (hs : R r0 s) : R r0
    (State.dropStaging src s) := by
  unfold State.dropStaging
  repeat' with_reducible (first
    | assumption | refine State.modCmd_frame h ?_ | exact h.refl _)

theorem State.setBlock_frame (h : Frame R) {r0 : State} {src : Source} {j : Job} {s : State} (hs : R r0 s) : R r0
    (State.setBlock src j s) := by
  unfold State.setBlock
  repeat' (first
    | with_reducible (first
        | assumption | refine ite_frame (fun _ => ?_) (fun _ => ?_) | refine State.dropStaging_frame h ?_
        | refine State.ignored_frame h ?_ | refine State.modCmd_frame h ?_ | refine State.writeBlob_frame h ?_
        | exact h.refl _)
    | extract_lets | split)

theorem execSetBlock_frame (h : Frame R) {src : Source} {s : State} : Lands (R s) (execSetBlock src s) := by
  unfold execSetBlock
  have hs := h.refl s
  repeat' with_reducible (first
    | apply lands_next | assumption | refine State.respond_frame h ?_ | refine State.run_frame h (fun _ _ => ?_) ?_
    | refine State.setBlock_frame h ?_ | exact h.refl _)

theorem State.askSwaps_frame (h : Frame R) {r0 : State} {mask : Nat} {s : State} (hs : R r0 s) : R r0 (State.askSwaps
    mask s) := by
  unfold State.askSwaps
  repeat' with_reducible (first
    | assumption | refine ite_frame (fun _ => ?_) (fun _ => ?_) | refine forAll_frame h (fun _ _ => ?_) ?_
    | refine State.modGrp_frame h ?_ | refine State.swapIfIdle_frame h ?_ | exact h.refl _)

theorem execSwapBank_frame (h : Frame R) {src : Source} {s : State} : Lands (R s) (execSwapBank src s) := by
  unfold execSwapBank
  have hs := h.refl s
  repeat' with_reducible (first
    | apply lands_next | assumption | refine State.askSwaps_frame h ?_ | refine State.carry_frame h ?_
    | refine State.run_frame h (fun _ _ => ?_) ?_ | refine State.wait_frame h ?_ | exact h.refl _)

theorem execSwapBankTimeout_frame (h : Frame R) {src : Source} {s : State} : Lands (R s) (execSwapBankTimeout src s)
    := by
  unfold execSwapBankTimeout
  have hs := h.refl s
  repeat' (first
    | with_reducible (first
        | apply lands_next | assumption | refine State.atT_frame h ?_ | refine State.respond_frame h ?_)
    | split)

theorem State.loafState_frame (h : Frame R) {r0 : State} {src : Source} {j : Job} {want : LoafState} {ok : Bool} {go :
    State → State} {s : State} (hf : ∀ x, R x (go x)) (hs : R r0 s) : R r0 (State.loafState src j want ok go s) := by
  unfold State.loafState
  repeat' (first
    | with_reducible (first
        | assumption | refine ite_frame (fun _ => ?_) (fun _ => ?_) | refine State.deny_frame h ?_
        | refine State.respond_frame h ?_ | refine h.trans ?_ (hf _) | refine h.trans ?_ (hf _ _))
    | extract_lets | split)

theorem execLoafStateOff_frame (h : Frame R) {src : Source} {s : State} : Lands (R s) (execLoafStateOff src s) := by
  unfold execLoafStateOff
  have hs := h.refl s
  repeat' (first
    | with_reducible (first
        | apply lands_next | assumption | refine State.loafState_frame h (fun _ => ?_) ?_
        | refine State.loafTo_frame h ?_ | refine State.run_frame h (fun _ _ => ?_) ?_ | exact h.refl _)
    | extract_lets)

theorem execLoafStateOpen_frame (h : Frame R) {src : Source} {s : State} : Lands (R s) (execLoafStateOpen src s) := by
  unfold execLoafStateOpen
  have hs := h.refl s
  repeat' (first
    | with_reducible (first
        | apply lands_next | assumption | refine State.loafOpen_frame h ?_
        | refine State.loafState_frame h (fun _ => ?_) ?_ | refine State.run_frame h (fun _ _ => ?_) ?_
        | exact h.refl _)
    | extract_lets)

theorem execLoafStateClosed_frame (h : Frame R) {src : Source} {s : State} : Lands (R s) (execLoafStateClosed src s)
    := by
  unfold execLoafStateClosed
  have hs := h.refl s
  repeat' (first
    | with_reducible (first
        | apply lands_next | assumption | refine State.loafClose_frame h ?_
        | refine State.loafState_frame h (fun _ => ?_) ?_ | refine State.run_frame h (fun _ _ => ?_) ?_
        | exact h.refl _)
    | extract_lets)

theorem execGroupStateStart_frame (h : Frame R) {src : Source} {s : State} : Lands (R s) (execGroupStateStart src s)
    := by
  unfold execGroupStateStart
  have hs := h.refl s
  repeat' (first
    | with_reducible (first
        | apply lands_next | assumption | refine ite_lands (fun _ => ?_) (fun _ => ?_)
        | refine ite_frame (fun _ => ?_) (fun _ => ?_) | refine State.deny_frame h ?_
        | refine State.groupStart_frame h ?_ | refine State.respond_frame h ?_
        | refine State.run_frame h (fun _ _ => ?_) ?_ | exact h.refl _)
    | extract_lets)

theorem execGroupStateStop_frame (h : Frame R) {src : Source} {s : State} : Lands (R s) (execGroupStateStop src s) :=
    by
  unfold execGroupStateStop
  have hs := h.refl s
  repeat' (first
    | with_reducible (first
        | apply lands_next | assumption | refine ite_lands (fun _ => ?_) (fun _ => ?_)
        | refine ite_frame (fun _ => ?_) (fun _ => ?_) | refine State.deny_frame h ?_
        | refine State.groupStop_frame h ?_ | refine State.respond_frame h ?_
        | refine State.run_frame h (fun _ _ => ?_) ?_ | refine State.wait_frame h ?_ | exact h.refl _)
    | extract_lets)

theorem execMove_frame (h : Frame R) {src : Source} {s : State} : Lands (R s) (execMove src s) := by
  unfold execMove
  have hs := h.refl s
  repeat' (first
    | with_reducible (first
        | apply lands_next | assumption | refine ite_lands (fun _ => ?_) (fun _ => ?_)
        | refine ite_frame (fun _ => ?_) (fun _ => ?_) | refine State.deny_frame h ?_ | refine State.modGrp_frame h ?_
        | refine State.respond_frame h ?_ | refine State.run_frame h (fun _ _ => ?_) ?_ | refine State.wait_frame h ?_
        | exact h.refl _)
    | extract_lets)

theorem execFaultAck_frame (h : Frame R) {src : Source} {s : State} : Lands (R s) (execFaultAck src s) := by
  unfold execFaultAck
  have hs := h.refl s
  repeat' with_reducible (first
    | apply lands_next | assumption | refine ite_lands (fun _ => ?_) (fun _ => ?_)
    | refine ite_frame (fun _ => ?_) (fun _ => ?_) | refine State.deny_frame h ?_ | refine State.enqueue_frame h ?_
    | refine State.fault_frame h ?_ | refine State.modFlt_frame h ?_ | refine State.respond_frame h ?_
    | refine State.run_frame h (fun _ _ => ?_) ?_ | exact h.refl _)

theorem State.clearFaults_frame (h : Frame R) {r0 : State} {code inst : Half} {s : State} {r : Nat × State}
    (e : s.clearFaults code inst = some r) (hs : R r0 s) : R r0 r.2 := by
  unfold State.clearFaults at e
  extract_lets at e
  split at e
  · cases e
  · rw [← Option.some.inj e]
    dsimp only
    exact State.leaveSafe_frame h (State.faultToOff_frame h (State.fbFollow_frame h (State.modFlt_frame h
      (forAll_frame h (fun _ _ => State.clearOne_frame h (h.refl _)) hs))))

theorem execFaultClear_frame (h : Frame R) {src : Source} {s : State} : Lands (R s) (execFaultClear src s) := by
  unfold execFaultClear
  apply lands_next
  refine State.run_frame h (fun j x => ?_) (h.refl s)
  split
  · exact State.deny_frame h (h.refl x)
  · rename_i r e
    exact State.respond_frame h (State.carry_frame h (State.clearFaults_frame h e (h.refl x)))

theorem State.addInj_frame (h : Frame R) {r0 : State} {j : Inj} {s : State} (hs : R r0 s) : R r0 (State.addInj j s) :=
    by
  unfold State.addInj
  repeat' with_reducible (first
    | assumption | refine State.bump_frame h ?_ | refine State.modFlt_frame h ?_ | exact h.refl _)

theorem State.raiseDry_frame (h : Frame R) {r0 : State} {code inst : Half} {s : State} (hs : R r0 s) : R r0
    (State.raiseDry code inst s) := by
  unfold State.raiseDry
  repeat' (first
    | with_reducible (first
        | assumption | refine ite_frame (fun _ => ?_) (fun _ => ?_) | refine State.addInj_frame h ?_
        | refine State.cancelInj_frame h ?_ | refine State.emitAs_frame h ?_)
    | extract_lets)

theorem State.raiseLive_frame (h : Frame R) {r0 : State} {code inst : Half} {s : State} (hs : R r0 s) : R r0
    (State.raiseLive code inst s) := by
  unfold State.raiseLive
  repeat' (first
    | with_reducible (first
        | assumption | refine ite_frame (fun _ => ?_) (fun _ => ?_) | refine State.addInj_frame h ?_
        | refine State.again_frame h ?_ | refine State.attributed_frame h ?_ | refine State.bump_frame h ?_
        | refine State.cancelInj_frame h ?_ | refine State.enter_frame h ?_ | refine State.tripAct_frame h ?_)
    | extract_lets | split)

theorem State.inject_frame (h : Frame R) {r0 : State} {src : Source} {j : Job} {live : Bool} {s : State} (hs : R r0 s)
    : R r0 (State.inject src j live s) := by
  unfold State.inject
  repeat' (first
    | with_reducible (first
        | assumption | refine ite_frame (fun _ => ?_) (fun _ => ?_) | refine State.carry_frame h ?_
        | refine State.deny_frame h ?_ | refine State.fault_frame h ?_ | refine State.raiseDry_frame h ?_
        | refine State.raiseLive_frame h ?_ | refine State.respond_frame h ?_)
    | extract_lets | split)

theorem execInjectDry_frame (h : Frame R) {src : Source} {s : State} : Lands (R s) (execInjectDry src s) := by
  unfold execInjectDry
  have hs := h.refl s
  repeat' with_reducible (first
    | apply lands_next | assumption | refine State.inject_frame h ?_ | refine State.run_frame h (fun _ _ => ?_) ?_
    | exact h.refl _)

theorem execInjectLive_frame (h : Frame R) {src : Source} {s : State} : Lands (R s) (execInjectLive src s) := by
  unfold execInjectLive
  have hs := h.refl s
  repeat' with_reducible (first
    | apply lands_next | assumption | refine State.inject_frame h ?_ | refine State.run_frame h (fun _ _ => ?_) ?_
    | exact h.refl _)

theorem execInjHoldExpiry_frame (h : Frame R) {code inst : Half} {s : State} : Lands (R s) (execInjHoldExpiry code
    inst s) := by
  unfold execInjHoldExpiry
  have hs := h.refl s
  repeat' (first
    | with_reducible (first
        | apply lands_next | assumption | refine State.atT_frame h ?_ | refine State.modFlt_frame h ?_
        | exact h.refl _)
    | split)

theorem State.calStart_frame (h : Frame R) {r0 : State} {src : Source} {j : Job} {full : Bool} {s : State} (hs : R r0
    s) : R r0 (State.calStart src j full s) := by
  unfold State.calStart
  repeat' (first
    | with_reducible (first
        | assumption | refine ite_frame (fun _ => ?_) (fun _ => ?_) | refine State.deny_frame h ?_
        | refine State.modCmd_frame h ?_ | refine State.wait_frame h ?_ | exact h.refl _)
    | extract_lets)

theorem execCalZero_frame (h : Frame R) {src : Source} {s : State} : Lands (R s) (execCalZero src s) := by
  unfold execCalZero
  have hs := h.refl s
  repeat' with_reducible (first
    | apply lands_next | assumption | refine State.calStart_frame h ?_ | refine State.run_frame h (fun _ _ => ?_) ?_
    | exact h.refl _)

theorem execCalFull_frame (h : Frame R) {src : Source} {s : State} : Lands (R s) (execCalFull src s) := by
  unfold execCalFull
  have hs := h.refl s
  repeat' with_reducible (first
    | apply lands_next | assumption | refine State.calStart_frame h ?_ | refine State.run_frame h (fun _ _ => ?_) ?_
    | exact h.refl _)

theorem State.calGone_frame (h : Frame R) {r0 : State} {src : Source} {s : State} (hs : R r0 s) : R r0 (State.calGone
    src s) := by
  unfold State.calGone
  repeat' with_reducible (first
    | assumption | refine State.modCmd_frame h ?_ | exact h.refl _)

theorem execCalComplete_frame (h : Frame R) {src : Source} {s : State} : Lands (R s) (execCalComplete src s) := by
  unfold execCalComplete
  have hs := h.refl s
  repeat' (first
    | with_reducible (first
        | apply lands_next | assumption | refine ite_lands (fun _ => ?_) (fun _ => ?_)
        | refine ite_frame (fun _ => ?_) (fun _ => ?_) | refine h.wrStep ?_ | refine State.calGone_frame h ?_
        | refine State.modCmd_frame h ?_ | refine State.respond_frame h ?_ | exact h.refl _)
    | extract_lets | split)

theorem execCalTimeout_frame (h : Frame R) {src : Source} {s : State} : Lands (R s) (execCalTimeout src s) := by
  unfold execCalTimeout
  have hs := h.refl s
  repeat' (first
    | with_reducible (first
        | apply lands_next | assumption | refine ite_lands (fun _ => ?_) (fun _ => ?_)
        | refine ite_frame (fun _ => ?_) (fun _ => ?_) | refine State.atT_frame h ?_ | refine State.calGone_frame h ?_
        | refine State.respond_frame h ?_)
    | split)

theorem State.capReply_frame (h : Frame R) {r0 : State} {src : Source} {s : State} (hs : R r0 s) : R r0
    (State.capReply src s) := by
  unfold State.capReply
  repeat' with_reducible (first
    | assumption | refine State.respond_frame h ?_)

theorem execCaptureArm_frame (h : Frame R) {src : Source} {s : State} : Lands (R s) (execCaptureArm src s) := by
  unfold execCaptureArm
  have hs := h.refl s
  repeat' with_reducible (first
    | apply lands_next | assumption | refine State.capArm_frame h ?_ | refine State.capReply_frame h ?_
    | refine State.run_frame h (fun _ _ => ?_) ?_ | exact h.refl _)

theorem execCaptureDisarm_frame (h : Frame R) {src : Source} {s : State} : Lands (R s) (execCaptureDisarm src s) := by
  unfold execCaptureDisarm
  have hs := h.refl s
  repeat' with_reducible (first
    | apply lands_next | assumption | refine State.capDisarm_frame h ?_ | refine State.capReply_frame h ?_
    | refine State.run_frame h (fun _ _ => ?_) ?_ | exact h.refl _)

theorem execCaptureTriggerNow_frame (h : Frame R) {src : Source} {t : Nat} {s0 : State} : Lands (R s0)
    (execCaptureTriggerNow src t s0) := by
  unfold execCaptureTriggerNow
  have hs := h.refl s0
  repeat' (first
    | with_reducible (first
        | apply lands_next | assumption | refine ite_lands (fun _ => ?_) (fun _ => ?_)
        | refine ite_frame (fun _ => ?_) (fun _ => ?_) | refine State.atT_frame h ?_
        | refine State.capReply_frame h ?_ | refine State.captureTriggerAt_frame h ?_ | refine State.deny_frame h ?_
        | refine State.run_frame h (fun _ _ => ?_) ?_ | exact h.refl _)
    | extract_lets)

theorem execCaptureRead_frame (h : Frame R) {src : Source} {s : State} : Lands (R s) (execCaptureRead src s) := by
  unfold execCaptureRead
  have hs := h.refl s
  repeat' with_reducible (first
    | apply lands_next | assumption | refine ite_lands (fun _ => ?_) (fun _ => ?_)
    | refine ite_frame (fun _ => ?_) (fun _ => ?_) | refine State.capReadStart_frame h ?_
    | refine State.deny_frame h ?_ | refine State.run_frame h (fun _ _ => ?_) ?_ | refine State.wait_frame h ?_
    | exact h.refl _)

theorem execCaptureReadTimeout_frame (h : Frame R) {src : Source} {s : State} : Lands (R s) (execCaptureReadTimeout
    src s) := by
  unfold execCaptureReadTimeout
  have hs := h.refl s
  repeat' (first
    | with_reducible (first
        | apply lands_next | assumption | refine State.atT_frame h ?_ | refine State.capForget_frame h ?_
        | refine State.respond_frame h ?_)
    | split)

theorem State.subscribe_frame (h : Frame R) {r0 : State} {src : Source} {j : Job} {s : State} (hs : R r0 s) : R r0
    (State.subscribe src j s) := by
  unfold State.subscribe
  repeat' (first
    | with_reducible (first
        | assumption | refine ite_frame (fun _ => ?_) (fun _ => ?_) | refine State.deny_frame h ?_
        | refine State.modSub_frame h ?_ | refine State.respond_frame h ?_ | exact h.refl _)
    | extract_lets)

theorem execSubscribeStart_frame (h : Frame R) {src : Source} {s : State} : Lands (R s) (execSubscribeStart src s) :=
    by
  unfold execSubscribeStart
  have hs := h.refl s
  repeat' with_reducible (first
    | apply lands_next | assumption | refine State.run_frame h (fun _ _ => ?_) ?_ | refine State.subscribe_frame h ?_
    | exact h.refl _)

theorem execSubscribeCancel_frame (h : Frame R) {src : Source} {s : State} : Lands (R s) (execSubscribeCancel src s)
    := by
  unfold execSubscribeCancel
  have hs := h.refl s
  repeat' (first
    | with_reducible (first
        | apply lands_next | assumption | refine ite_lands (fun _ => ?_) (fun _ => ?_)
        | refine ite_frame (fun _ => ?_) (fun _ => ?_) | refine State.deny_frame h ?_ | refine State.endSub_frame h ?_
        | refine State.respond_frame h ?_ | refine State.run_frame h (fun _ _ => ?_) ?_ | exact h.refl _)
    | extract_lets)

theorem execSessionOpen_frame (h : Frame R) {src : Source} {s : State} : Lands (R s) (execSessionOpen src s) := by
  unfold execSessionOpen
  have hs := h.refl s
  repeat' (first
    | with_reducible (first
        | apply lands_next | assumption | refine State.endHostSession_frame h ?_
        | refine State.modSec_frame h (Nat.le_refl _) ?_ | refine State.respond_frame h ?_
        | refine State.run_frame h (fun _ _ => ?_) ?_ | exact h.refl _)
    | extract_lets)

theorem State.openSession_frame (h : Frame R) {r0 : State} {role user : Nat} {s : State} (hs : R r0 s) : R r0
    (State.openSession role user s) := by
  unfold State.openSession
  repeat' (first
    | with_reducible (first
        | assumption | refine ite_frame (fun _ => ?_) (fun _ => ?_) | refine State.auditEvent_frame h ?_
        | refine State.modSec_frame h (Nat.le_refl _) ?_ | refine State.setLock_frame h ?_ | exact h.refl _)
    | extract_lets)

theorem execSessionAuth_frame (h : Frame R) {src : Source} {s : State} : Lands (R s) (execSessionAuth src s) := by
  unfold execSessionAuth
  have hs := h.refl s
  repeat' (first
    | with_reducible (first
        | apply lands_next | assumption | refine ite_lands (fun _ => ?_) (fun _ => ?_)
        | refine ite_frame (fun _ => ?_) (fun _ => ?_) | refine State.authFailed_frame h ?_
        | refine State.deny_frame h ?_ | refine State.openSession_frame h ?_ | refine State.respond_frame h ?_
        | refine State.run_frame h (fun _ _ => ?_) ?_ | exact h.refl _)
    | extract_lets | split)

theorem execSessionClose_frame (h : Frame R) {src : Source} {s : State} : Lands (R s) (execSessionClose src s) := by
  unfold execSessionClose
  have hs := h.refl s
  repeat' with_reducible (first
    | apply lands_next | assumption | refine State.endHostSession_frame h ?_ | refine State.respond_frame h ?_
    | refine State.run_frame h (fun _ _ => ?_) ?_ | exact h.refl _)

theorem execUpdateBegin_frame (h : Frame R) {src : Source} {s : State} : Lands (R s) (execUpdateBegin src s) := by
  unfold execUpdateBegin
  have hs := h.refl s
  repeat' with_reducible (first
    | apply lands_next | assumption | refine ite_lands (fun _ => ?_) (fun _ => ?_)
    | refine ite_frame (fun _ => ?_) (fun _ => ?_) | refine State.deny_frame h ?_ | refine State.modCmd_frame h ?_
    | refine State.respond_frame h ?_ | refine State.run_frame h (fun _ _ => ?_) ?_ | exact h.refl _)

theorem execUpdateChunk_frame (h : Frame R) {src : Source} {s : State} : Lands (R s) (execUpdateChunk src s) := by
  unfold execUpdateChunk
  have hs := h.refl s
  repeat' (first
    | with_reducible (first
        | apply lands_next | assumption | refine ite_lands (fun _ => ?_) (fun _ => ?_)
        | refine ite_frame (fun _ => ?_) (fun _ => ?_) | refine State.deny_frame h ?_ | refine State.modCmd_frame h ?_
        | refine State.respond_frame h ?_ | refine State.run_frame h (fun _ _ => ?_) ?_ | exact h.refl _)
    | extract_lets | split)

theorem State.imageRefused_frame (h : Frame R) {r0 : State} {src : Source} {j : Job} {status : Nat} {s : State} (hs :
    R r0 s) : R r0 (State.imageRefused src j status s) := by
  unfold State.imageRefused
  repeat' (first
    | with_reducible (first
        | assumption | refine ite_frame (fun _ => ?_) (fun _ => ?_) | refine State.auditCmd_frame h ?_
        | refine State.deny_frame h ?_ | refine State.reportM_frame h ?_)
    | extract_lets)

theorem State.commitFirmware_frame (h : Frame R) {r0 : State} {src : Source} {j : Job} {t : Transfer} {s : State} (hs
    : R r0 s) : R r0 (State.commitFirmware src j t s) := by
  unfold State.commitFirmware
  repeat' (first
    | with_reducible (first
        | assumption | refine ite_frame (fun _ => ?_) (fun _ => ?_) | refine State.auditCmd_frame h ?_
        | refine State.modBoot_frame h ?_ | refine State.modCmd_frame h ?_
        | refine State.modSec_frame h (Nat.le_refl _) ?_ | refine State.respond_frame h ?_ | exact h.refl _)
    | refine State.modSec_frame h (by split <;> exact Nat.le_refl _) ?_ | extract_lets | split
    | exact h.trans hs (h.other rfl rfl rfl (Nat.le_refl _) (Nat.le_refl _)))

theorem execUpdateCommitFirmware_frame (h : Frame R) {src : Source} {verifies : Bool} {s : State} : Lands (R s)
    (execUpdateCommitFirmware src verifies s) := by
  unfold execUpdateCommitFirmware
  have hs := h.refl s
  repeat' (first
    | with_reducible (first
        | apply lands_next | assumption | refine ite_lands (fun _ => ?_) (fun _ => ?_)
        | refine ite_frame (fun _ => ?_) (fun _ => ?_) | refine State.commitFirmware_frame h ?_
        | refine State.deny_frame h ?_ | refine State.imageRefused_frame h ?_
        | refine State.run_frame h (fun _ _ => ?_) ?_ | exact h.refl _)
    | split)

theorem State.commitConfig_frame (h : Frame R) {r0 : State} {src : Source} {j : Job} {img : ConfigImage} {s : State}
    (hs : R r0 s) : R r0 (State.commitConfig src j img s) := by
  unfold State.commitConfig
  repeat' (first
    | with_reducible (first
        | assumption | refine State.auditCmd_frame h ?_ | refine State.modBoot_frame h ?_
        | refine State.modCmd_frame h ?_ | refine State.modSec_frame h (Nat.le_refl _) ?_
        | refine State.respond_frame h ?_ | refine State.writeAll_frame h ?_ | refine State.wrs_frame h ?_
        | exact h.refl _)
    | extract_lets | split)

theorem execUpdateCommitConfig_frame (h : Frame R) {src : Source} {verifies : Bool} {img : ConfigImage} {s : State} :
    Lands (R s) (execUpdateCommitConfig src verifies img s) := by
  unfold execUpdateCommitConfig
  have hs := h.refl s
  repeat' (first
    | with_reducible (first
        | apply lands_next | assumption | refine ite_lands (fun _ => ?_) (fun _ => ?_)
        | refine ite_frame (fun _ => ?_) (fun _ => ?_) | refine State.commitConfig_frame h ?_
        | refine State.deny_frame h ?_ | refine State.imageRefused_frame h ?_
        | refine State.run_frame h (fun _ _ => ?_) ?_ | exact h.refl _)
    | split)

theorem State.storeSet_frame (h : Frame R) {r0 : State} {src : Source} {j : Job} {verifies : Bool} {image : List Byte}
    {s : State} (hs : R r0 s) : R r0 (State.storeSet src j verifies image s) := by
  unfold State.storeSet
  repeat' (first
    | with_reducible (first
        | assumption | refine ite_frame (fun _ => ?_) (fun _ => ?_) | refine State.auditCmd_frame h ?_
        | refine State.deny_frame h ?_ | refine State.dropSet_frame h ?_ | refine State.modSafety_frame h ?_
        | refine State.respond_frame h ?_ | exact h.refl _)
    | extract_lets)

theorem execSafetyLoad_frame (h : Frame R) {src : Source} {verifies : Bool} {s : State} : Lands (R s) (execSafetyLoad
    src verifies s) := by
  unfold execSafetyLoad
  have hs := h.refl s
  repeat' (first
    | with_reducible (first
        | apply lands_next | assumption | refine ite_lands (fun _ => ?_) (fun _ => ?_)
        | refine ite_frame (fun _ => ?_) (fun _ => ?_) | refine State.deny_frame h ?_ | refine State.putSet_frame h ?_
        | refine State.respond_frame h ?_ | refine State.run_frame h (fun _ _ => ?_) ?_
        | refine State.storeSet_frame h ?_ | exact h.refl _)
    | extract_lets | split)

theorem execSafetyAccept_frame (h : Frame R) {src : Source} {s : State} : Lands (R s) (execSafetyAccept src s) := by
  unfold execSafetyAccept
  have hs := h.refl s
  repeat' (first
    | with_reducible (first
        | apply lands_next | assumption | refine ite_lands (fun _ => ?_) (fun _ => ?_)
        | refine ite_frame (fun _ => ?_) (fun _ => ?_) | refine State.auditCmd_frame h ?_
        | refine State.deny_frame h ?_ | refine State.modSafety_frame h ?_ | refine State.respond_frame h ?_
        | refine State.run_frame h (fun _ _ => ?_) ?_ | exact h.refl _)
    | extract_lets)

theorem execPairHandover_frame (h : Frame R) {src : Source} {s : State} : Lands (R s) (execPairHandover src s) := by
  unfold execPairHandover
  have hs := h.refl s
  repeat' with_reducible (first
    | apply lands_next | assumption | refine ite_lands (fun _ => ?_) (fun _ => ?_)
    | refine ite_frame (fun _ => ?_) (fun _ => ?_) | refine State.deny_frame h ?_ | refine State.handover_frame h ?_
    | refine State.modPair_frame h ?_ | refine State.run_frame h (fun _ _ => ?_) ?_ | refine State.wait_frame h ?_
    | exact h.refl _)

theorem execPairHandoverComplete_frame (h : Frame R) {src : Source} {s : State} : Lands (R s)
    (execPairHandoverComplete src s) := by
  unfold execPairHandoverComplete
  have hs := h.refl s
  repeat' (first
    | with_reducible (first
        | apply lands_next | assumption | refine ite_lands (fun _ => ?_) (fun _ => ?_)
        | refine ite_frame (fun _ => ?_) (fun _ => ?_) | refine State.handover_frame h ?_
        | refine State.modPair_frame h ?_ | refine State.respond_frame h ?_ | refine State.settle_frame h ?_
        | exact h.refl _)
    | split)

theorem execPairHandoverTimeout_frame (h : Frame R) {src : Source} {s : State} : Lands (R s) (execPairHandoverTimeout
    src s) := by
  unfold execPairHandoverTimeout
  have hs := h.refl s
  repeat' (first
    | with_reducible (first
        | apply lands_next | assumption | refine State.atT_frame h ?_ | refine State.handover_frame h ?_
        | refine State.modPair_frame h ?_ | refine State.respond_frame h ?_ | refine State.settle_frame h ?_
        | exact h.refl _)
    | split)

theorem State.timeStep_frame (h : Frame R) {r0 : State} {src : Source} {j : Job} {d : Int} {s : State} (hs : R r0 s) :
    R r0 (State.timeStep src j d s) := by
  unfold State.timeStep
  repeat' with_reducible (first
    | assumption | refine State.auditCmd_frame h ?_ | refine State.respond_frame h ?_
    | refine State.stepStation_frame h ?_)

theorem execTimeStepMeasured_frame (h : Frame R) {src : Source} {s : State} : Lands (R s) (execTimeStepMeasured src s)
    := by
  unfold execTimeStepMeasured
  have hs := h.refl s
  repeat' with_reducible (first
    | apply lands_next | assumption | refine ite_lands (fun _ => ?_) (fun _ => ?_)
    | refine ite_frame (fun _ => ?_) (fun _ => ?_) | refine State.deny_frame h ?_
    | refine State.run_frame h (fun _ _ => ?_) ?_ | refine State.timeStep_frame h ?_ | exact h.refl _)

theorem execTimeStepGiven_frame (h : Frame R) {src : Source} {s : State} : Lands (R s) (execTimeStepGiven src s) := by
  unfold execTimeStepGiven
  have hs := h.refl s
  repeat' with_reducible (first
    | apply lands_next | assumption | refine State.run_frame h (fun _ _ => ?_) ?_ | refine State.timeStep_frame h ?_
    | exact h.refl _)

end Sys2Proof.Machine
end

