-- ==== Sys2Proof/Laws/FrameObjWrite.lean ====
section
/-! SUPPORT. What every operation of Machine/ObjWrite.lean keeps: the frame lemmas. -/

set_option linter.unreachableTactic false
set_option linter.unusedTactic false

namespace Sys2Proof.Machine

variable {R : State → State → Prop}

theorem State.hostWrites_frame (h : Frame R) {r0 : State} {src : Source} {ws : List (Word × List Word)} {s : State}
    (hs : R r0 s) : R r0 (State.hostWrites src ws s) := by
  unfold State.hostWrites
  repeat' with_reducible (first
    | assumption | refine ite_frame (fun _ => ?_) (fun _ => ?_) | refine State.settle_frame h ?_
    | refine State.writeAll_frame h ?_)

theorem State.hostWrite_frame (h : Frame R) {r0 : State} {src : Source} {a : Nat} {v : Int} {s : State} (hs : R r0 s)
    : R r0 (State.hostWrite src a v s) := by
  unfold State.hostWrite
  repeat' with_reducible (first
    | assumption | refine State.hostWrites_frame h ?_)

theorem execModuleReqReady_frame (h : Frame R) {src : Source} {s : State} : Lands (R s) (execModuleReqReady src s) :=
    by
  unfold execModuleReqReady
  have hs := h.refl s
  repeat' with_reducible (first
    | apply lands_next | assumption | refine State.hostWrite_frame h ?_ | refine State.moduleReq_frame h ?_)

theorem execModuleReqConfig_frame (h : Frame R) {src : Source} {s : State} : Lands (R s) (execModuleReqConfig src s)
    := by
  unfold execModuleReqConfig
  have hs := h.refl s
  repeat' with_reducible (first
    | apply lands_next | assumption | refine State.hostWrite_frame h ?_ | refine State.moduleReq_frame h ?_)

theorem execModuleReqStandby_frame (h : Frame R) {src : Source} {s : State} : Lands (R s) (execModuleReqStandby src s)
    := by
  unfold execModuleReqStandby
  have hs := h.refl s
  repeat' with_reducible (first
    | apply lands_next | assumption | refine State.hostWrite_frame h ?_ | refine State.moduleReq_frame h ?_)

theorem execModuleReqReset_frame (h : Frame R) {src : Source} {s : State} : Lands (R s) (execModuleReqReset src s) :=
    by
  unfold execModuleReqReset
  have hs := h.refl s
  repeat' with_reducible (first
    | apply lands_next | assumption | refine State.hostWrite_frame h ?_ | refine State.moduleReq_frame h ?_)

theorem execPeelStatsClr_frame (h : Frame R) {v : Int} {s : State} : Lands (R s) (execPeelStatsClr v s) := by
  unfold execPeelStatsClr
  have hs := h.refl s
  repeat' with_reducible (first
    | apply lands_next | assumption | refine State.hostWrite_frame h ?_)

theorem execIgnClr_frame (h : Frame R) {v : Int} {s : State} : Lands (R s) (execIgnClr v s) := by
  unfold execIgnClr
  have hs := h.refl s
  repeat' with_reducible (first
    | apply lands_next | assumption | refine State.hostWrite_frame h ?_)

theorem execCmdCntClr_frame (h : Frame R) {v : Int} {s : State} : Lands (R s) (execCmdCntClr v s) := by
  unfold execCmdCntClr
  have hs := h.refl s
  repeat' with_reducible (first
    | apply lands_next | assumption | refine State.hostWrite_frame h ?_)

theorem execStreamCntClr_frame (h : Frame R) {v : Int} {s : State} : Lands (R s) (execStreamCntClr v s) := by
  unfold execStreamCntClr
  have hs := h.refl s
  repeat' with_reducible (first
    | apply lands_next | assumption | refine State.hostWrite_frame h ?_)

theorem execPwmCntClr_frame (h : Frame R) {n : Fin 4} {v : Int} {s : State} : Lands (R s) (execPwmCntClr n v s) := by
  unfold execPwmCntClr
  have hs := h.refl s
  repeat' with_reducible (first
    | apply lands_next | assumption | refine State.hostWrite_frame h ?_)

theorem execTripCntClr_frame (h : Frame R) {v : Int} {s : State} : Lands (R s) (execTripCntClr v s) := by
  unfold execTripCntClr
  have hs := h.refl s
  repeat' with_reducible (first
    | apply lands_next | assumption | refine State.hostWrite_frame h ?_)

theorem execConvCntClr_frame (h : Frame R) {k : Fin 6} {v : Int} {s : State} : Lands (R s) (execConvCntClr k v s) :=
    by
  unfold execConvCntClr
  have hs := h.refl s
  repeat' with_reducible (first
    | apply lands_next | assumption | refine State.hostWrite_frame h ?_)

theorem execFbCntClr_frame (h : Frame R) {n : Fin 4} {v : Int} {s : State} : Lands (R s) (execFbCntClr n v s) := by
  unfold execFbCntClr
  have hs := h.refl s
  repeat' with_reducible (first
    | apply lands_next | assumption | refine State.hostWrite_frame h ?_)

theorem execOvenCntClr_frame (h : Frame R) {n : Fin 4} {v : Int} {s : State} : Lands (R s) (execOvenCntClr n v s) :=
    by
  unfold execOvenCntClr
  have hs := h.refl s
  repeat' with_reducible (first
    | apply lands_next | assumption | refine State.hostWrite_frame h ?_)

theorem execProtCntClr_frame (h : Frame R) {n : Fin 4} {v : Int} {s : State} : Lands (R s) (execProtCntClr n v s) :=
    by
  unfold execProtCntClr
  have hs := h.refl s
  repeat' with_reducible (first
    | apply lands_next | assumption | refine State.hostWrite_frame h ?_)

theorem execLogClr_frame (h : Frame R) {v : Int} {s : State} : Lands (R s) (execLogClr v s) := by
  unfold execLogClr
  have hs := h.refl s
  repeat' with_reducible (first
    | apply lands_next | assumption | refine State.hostWrite_frame h ?_)

theorem execInjCntClr_frame (h : Frame R) {v : Int} {s : State} : Lands (R s) (execInjCntClr v s) := by
  unfold execInjCntClr
  have hs := h.refl s
  repeat' with_reducible (first
    | apply lands_next | assumption | refine State.hostWrite_frame h ?_)

theorem execEthCntClr_frame (h : Frame R) {v : Int} {s : State} : Lands (R s) (execEthCntClr v s) := by
  unfold execEthCntClr
  have hs := h.refl s
  repeat' with_reducible (first
    | apply lands_next | assumption | refine State.hostWrite_frame h ?_)

theorem execPpCntClr_frame (h : Frame R) {v : Int} {s : State} : Lands (R s) (execPpCntClr v s) := by
  unfold execPpCntClr
  have hs := h.refl s
  repeat' with_reducible (first
    | apply lands_next | assumption | refine State.hostWrite_frame h ?_)

theorem execMlCntClr_frame (h : Frame R) {v : Int} {s : State} : Lands (R s) (execMlCntClr v s) := by
  unfold execMlCntClr
  have hs := h.refl s
  repeat' with_reducible (first
    | apply lands_next | assumption | refine State.hostWrite_frame h ?_)

theorem execSupplyFlagsClear_frame (h : Frame R) {v : Int} {s : State} : Lands (R s) (execSupplyFlagsClear v s) := by
  unfold execSupplyFlagsClear
  have hs := h.refl s
  repeat' with_reducible (first
    | apply lands_next | assumption | refine State.hostWrite_frame h ?_)

theorem execSatFlagsClear_frame (h : Frame R) {k : Fin 6} {v : Int} {s : State} : Lands (R s) (execSatFlagsClear k v
    s) := by
  unfold execSatFlagsClear
  have hs := h.refl s
  repeat' with_reducible (first
    | apply lands_next | assumption | refine State.hostWrite_frame h ?_)

theorem execIdxArm_frame (h : Frame R) {n : Fin 4} {v : Int} {s : State} : Lands (R s) (execIdxArm n v s) := by
  unfold execIdxArm
  have hs := h.refl s
  repeat' with_reducible (first
    | apply lands_next | assumption | refine State.hostWrite_frame h ?_)

theorem execIdxModeWrite_frame (h : Frame R) {n : Fin 4} {v : Int} {s : State} : Lands (R s) (execIdxModeWrite n v s)
    := by
  unfold execIdxModeWrite
  have hs := h.refl s
  repeat' with_reducible (first
    | apply lands_next | assumption | refine State.hostWrite_frame h ?_)

theorem execFbModeWrite_frame (h : Frame R) {n : Fin 4} {dirInv : Bool} {v : Int} {s : State} : Lands (R s)
    (execFbModeWrite n dirInv v s) := by
  unfold execFbModeWrite
  have hs := h.refl s
  repeat' with_reducible (first
    | apply lands_next | assumption | refine ite_lands (fun _ => ?_) (fun _ => ?_)
    | refine ite_frame (fun _ => ?_) (fun _ => ?_) | refine State.hostWrite_frame h ?_)

theorem execEvtConfigWrite_frame (h : Frame R) {n : Fin 4} {x : Fin 3} {presc : Bool} {v : Int} {s : State} : Lands (R
    s) (execEvtConfigWrite n x presc v s) := by
  unfold execEvtConfigWrite
  have hs := h.refl s
  repeat' with_reducible (first
    | apply lands_next | assumption | refine ite_lands (fun _ => ?_) (fun _ => ?_)
    | refine ite_frame (fun _ => ?_) (fun _ => ?_) | refine State.hostWrite_frame h ?_)

theorem execOpenCmpWrite_frame (h : Frame R) {n : Fin 4} {u v w : Option Int} {s : State} : Lands (R s)
    (execOpenCmpWrite n u v w s) := by
  unfold execOpenCmpWrite
  have hs := h.refl s
  repeat' with_reducible (first
    | apply lands_next | assumption | refine State.hostWrites_frame h ?_ | exact h.refl _)

theorem execGrpLoavesWrite_frame (h : Frame R) {g : Fin 4} {v : Int} {s : State} : Lands (R s) (execGrpLoavesWrite g v
    s) := by
  unfold execGrpLoavesWrite
  have hs := h.refl s
  repeat' with_reducible (first
    | apply lands_next | assumption | refine State.hostWrite_frame h ?_)

theorem execTuIncWrite_frame (h : Frame R) {u : Fin 7} {v : Int} {s : State} : Lands (R s) (execTuIncWrite u v s) :=
    by
  unfold execTuIncWrite
  have hs := h.refl s
  repeat' with_reducible (first
    | apply lands_next | assumption | refine State.hostWrite_frame h ?_)

theorem execTuLoad_frame (h : Frame R) {u : Fin 7} {v : Int} {s : State} : Lands (R s) (execTuLoad u v s) := by
  unfold execTuLoad
  have hs := h.refl s
  repeat' with_reducible (first
    | apply lands_next | assumption | refine State.hostWrite_frame h ?_)

theorem execHbNet_frame (h : Frame R) {v : Int} {s : State} : Lands (R s) (execHbNet v s) := by
  unfold execHbNet
  have hs := h.refl s
  repeat' with_reducible (first
    | apply lands_next | assumption | refine State.hostWrite_frame h ?_)

theorem execListTrigWrite_frame (h : Frame R) {l : Fin 2} {v : Int} {s : State} : Lands (R s) (execListTrigWrite l v
    s) := by
  unfold execListTrigWrite
  have hs := h.refl s
  repeat' with_reducible (first
    | apply lands_next | assumption | refine State.hostWrite_frame h ?_ | refine State.listTrig_frame h ?_)

theorem execManGo_frame (h : Frame R) {v : Int} {s : State} : Lands (R s) (execManGo v s) := by
  unfold execManGo
  have hs := h.refl s
  repeat' with_reducible (first
    | apply lands_next | assumption | refine State.hostWrite_frame h ?_)

theorem execPpAbort_frame (h : Frame R) {v : Int} {s : State} : Lands (R s) (execPpAbort v s) := by
  unfold execPpAbort
  have hs := h.refl s
  repeat' with_reducible (first
    | apply lands_next | assumption | refine State.hostWrite_frame h ?_)

theorem execAttestNonce_frame (h : Frame R) {v : Int} {s : State} : Lands (R s) (execAttestNonce v s) := by
  unfold execAttestNonce
  have hs := h.refl s
  repeat' with_reducible (first
    | apply lands_next | assumption | refine State.hostWrite_frame h ?_)

theorem execAttestationFormed_frame (h : Frame R) {signature : List Byte} {s : State} : Lands (R s)
    (execAttestationFormed signature s) := by
  unfold execAttestationFormed
  have hs := h.refl s
  repeat' (first
    | with_reducible (first
        | apply lands_next | assumption | refine ite_lands (fun _ => ?_) (fun _ => ?_)
        | refine ite_frame (fun _ => ?_) (fun _ => ?_) | refine State.modSec_frame h (Nat.le_refl _) ?_
        | refine State.setBlob_frame h ?_ | exact h.refl _)
    | split)

theorem execObjectWrite_frame (h : Frame R) {addrWord : Word} {vals : List Word} {s : State} : Lands (R s)
    (execObjectWrite addrWord vals s) := by
  unfold execObjectWrite
  have hs := h.refl s
  repeat' with_reducible (first
    | apply lands_next | assumption | refine State.hostWrites_frame h ?_)

end Sys2Proof.Machine
end

