-- ==== Sys2Proof/Laws/FramePeel.lean ====
section
/-! SUPPORT. What every operation of Machine/Peel.lean keeps: the frame lemmas. -/

set_option linter.unreachableTactic false
set_option linter.unusedTactic false

namespace Sys2Proof.Machine

variable {R : State → State → Prop}

theorem execPeelTxGrant_frame (h : Frame R) {r : Region} {s : State} : Lands (R s) (execPeelTxGrant r s) := by
  unfold execPeelTxGrant
  have hs := h.refl s
  repeat' with_reducible (first
    | apply lands_next | assumption | refine ite_lands (fun _ => ?_) (fun _ => ?_)
    | refine ite_frame (fun _ => ?_) (fun _ => ?_) | refine State.peelGrant_frame h ?_)

theorem execPeelAck_frame (h : Frame R) {r : Region} {p : Packet} {s : State} : Lands (R s) (execPeelAck r p s) := by
  unfold execPeelAck
  have hs := h.refl s
  repeat' with_reducible (first
    | apply lands_next | assumption | refine State.peelTake_frame h (fun _ => ?_) ?_ | exact h.refl _)

theorem execPeelNak_frame (h : Frame R) {r : Region} {p : Packet} {s : State} : Lands (R s) (execPeelNak r p s) := by
  unfold execPeelNak
  have hs := h.refl s
  repeat' (first
    | with_reducible (first
        | apply lands_next | assumption | refine State.peelBack_frame h ?_
        | refine State.peelTake_frame h (fun _ => ?_) ?_ | exact h.refl _)
    | split | exact h.trans hs (h.other rfl rfl rfl (Nat.le_refl _) (Nat.le_refl _)))

theorem execPeelTrain_frame (h : Frame R) {r : Region} {p : Packet} {s : State} : Lands (R s) (execPeelTrain r p s) :=
    by
  unfold execPeelTrain
  have hs := h.refl s
  repeat' with_reducible (first
    | apply lands_next | assumption | refine State.peelTake_frame h (fun _ => ?_) ?_ | exact h.refl _)

theorem execPeelRetxTimeout_frame (h : Frame R) {r : Region} {s : State} : Lands (R s) (execPeelRetxTimeout r s) := by
  unfold execPeelRetxTimeout
  have hs := h.refl s
  repeat' with_reducible (first
    | apply lands_next | assumption | refine ite_lands (fun _ => ?_) (fun _ => ?_)
    | refine ite_frame (fun _ => ?_) (fun _ => ?_) | refine State.atT_frame h ?_ | refine State.peelBack_frame h ?_)

theorem execPeelRetrain_frame (h : Frame R) {s : State} : Lands (R s) (execPeelRetrain s) := by
  unfold execPeelRetrain
  have hs := h.refl s
  repeat' with_reducible (first
    | apply lands_next | assumption | refine ite_lands (fun _ => ?_) (fun _ => ?_)
    | refine ite_frame (fun _ => ?_) (fun _ => ?_) | refine State.bumpOpen_frame h ?_
    | refine State.modPeel_frame h ?_ | refine State.peelBack_frame h ?_ | exact h.refl _)

theorem execPeelTimeout_frame (h : Frame R) {r : Region} {s0 : State} : Lands (R s0) (execPeelTimeout r s0) := by
  unfold execPeelTimeout
  have hs := h.refl s0
  repeat' (first
    | with_reducible (first
        | apply lands_next | assumption | refine ite_lands (fun _ => ?_) (fun _ => ?_)
        | refine ite_frame (fun _ => ?_) (fun _ => ?_) | refine State.atT_frame h ?_
        | refine State.crustTrip_frame h ?_ | refine State.dropGen_frame h ?_ | refine State.fault_frame h ?_
        | refine State.faultM_frame h ?_ | refine State.modBoot_frame h ?_ | refine State.modPeel_frame h ?_
        | exact h.refl _)
    | extract_lets | split)

theorem execHeartbeatSend_frame (h : Frame R) {s : State} : Lands (R s) (execHeartbeatSend s) := by
  unfold execHeartbeatSend
  have hs := h.refl s
  repeat' with_reducible (first
    | apply lands_next | assumption | refine ite_lands (fun _ => ?_) (fun _ => ?_)
    | refine ite_frame (fun _ => ?_) (fun _ => ?_) | refine State.enqueue_frame h ?_)

theorem State.mgtGap_frame (h : Frame R) {r0 : State} {s : State} (hs : R r0 s) : R r0 (State.mgtGap s) := by
  unfold State.mgtGap
  repeat' (first
    | with_reducible (first
        | assumption | refine ite_frame (fun _ => ?_) (fun _ => ?_) | refine h.wrStep ?_
        | refine State.modFlt_frame h ?_ | exact h.refl _)
    | extract_lets | split)

theorem execHeartbeat_frame (h : Frame R) {p : Packet} {t : Nat} {s0 : State} : Lands (R s0) (execHeartbeat p t s0) :=
    by
  unfold execHeartbeat
  have hs := h.refl s0
  repeat' (first
    | with_reducible (first
        | apply lands_next | assumption | refine State.atT_frame h ?_ | refine State.mgtGap_frame h ?_
        | refine State.modBoot_frame h ?_ | refine State.modPeel_frame h ?_
        | refine State.peelTake_frame h (fun _ => ?_) ?_ | refine State.settle_frame h ?_ | exact h.refl _)
    | extract_lets)

theorem execSyncSend_frame (h : Frame R) {s : State} : Lands (R s) (execSyncSend s) := by
  unfold execSyncSend
  have hs := h.refl s
  repeat' with_reducible (first
    | apply lands_next | assumption | refine ite_lands (fun _ => ?_) (fun _ => ?_)
    | refine ite_frame (fun _ => ?_) (fun _ => ?_) | refine State.enqueue_frame h ?_)

theorem State.listEvent_frame (h : Frame R) {r0 : State} {n : Nat} {l : Fin 2} {s : State} (hs : R r0 s) : R r0
    (State.listEvent n l s) := by
  unfold State.listEvent
  repeat' with_reducible (first
    | assumption | refine ite_frame (fun _ => ?_) (fun _ => ?_) | refine State.listTrig_frame h ?_
    | refine State.modPp_frame h ?_ | exact h.refl _)

theorem execEvent_frame (h : Frame R) {p : Packet} {s : State} : Lands (R s) (execEvent p s) := by
  unfold execEvent
  have hs := h.refl s
  repeat' with_reducible (first
    | apply lands_next | assumption | refine forAll_frame h (fun _ _ => ?_) ?_ | refine State.listEvent_frame h ?_
    | refine State.peelTake_frame h (fun _ => ?_) ?_ | exact h.refl _)

theorem execPeelRecord_frame (h : Frame R) {p : Packet} {s : State} : Lands (R s) (execPeelRecord p s) := by
  unfold execPeelRecord
  have hs := h.refl s
  repeat' (first
    | with_reducible (first
        | apply lands_next | assumption | refine ite_lands (fun _ => ?_) (fun _ => ?_)
        | refine ite_frame (fun _ => ?_) (fun _ => ?_) | refine State.modOven_frame h ?_
        | refine State.peelTake_frame h (fun _ => ?_) ?_ | refine State.streamRecord_frame h ?_ | exact h.refl _)
    | extract_lets)

theorem execPeelCapture_frame (h : Frame R) {p : Packet} {s : State} : Lands (R s) (execPeelCapture p s) := by
  unfold execPeelCapture
  have hs := h.refl s
  repeat' (first
    | with_reducible (first
        | apply lands_next | assumption | refine State.capData_frame h ?_
        | refine State.peelTake_frame h (fun _ => ?_) ?_ | exact h.refl _)
    | split | exact h.trans hs (h.other rfl rfl rfl (Nat.le_refl _) (Nat.le_refl _)))

theorem execObjWr_frame (h : Frame R) {p : Packet} {s : State} : Lands (R s) (execObjWr p s) := by
  unfold execObjWr
  have hs := h.refl s
  repeat' with_reducible (first
    | apply lands_next | assumption | refine State.peelTake_frame h (fun _ => ?_) ?_
    | refine State.peelWrite_frame h ?_ | refine State.settle_frame h ?_
    | refine State.unlessCarried_frame h (fun _ => ?_) ?_ | exact h.refl _)

theorem execObjRd_frame (h : Frame R) {p : Packet} {s : State} : Lands (R s) (execObjRd p s) := by
  unfold execObjRd
  have hs := h.refl s
  repeat' (first
    | with_reducible (first
        | apply lands_next | assumption | refine State.peelRead_frame h ?_
        | refine State.peelTake_frame h (fun _ => ?_) ?_ | exact h.refl _)
    | split | exact h.trans hs (h.other rfl rfl rfl (Nat.le_refl _) (Nat.le_refl _)))

theorem execCmd_frame (h : Frame R) {p : Packet} {s : State} : Lands (R s) (execCmd p s) := by
  unfold execCmd
  have hs := h.refl s
  repeat' (first
    | with_reducible (first
        | apply lands_next | assumption | refine ite_lands (fun _ => ?_) (fun _ => ?_)
        | refine ite_frame (fun _ => ?_) (fun _ => ?_) | refine State.askSwaps_frame h ?_
        | refine State.enqueue_frame h ?_ | refine State.peelTake_frame h (fun _ => ?_) ?_
        | refine State.settle_frame h ?_ | refine State.unlessCarried_frame h (fun _ => ?_) ?_ | exact h.refl _)
    | extract_lets | split)

theorem execObjRsp_frame (h : Frame R) {p : Packet} {s : State} : Lands (R s) (execObjRsp p s) := by
  unfold execObjRsp
  have hs := h.refl s
  repeat' with_reducible (first
    | apply lands_next | assumption | refine State.peelTake_frame h (fun _ => ?_) ?_ | exact h.refl _)

theorem execCmdRsp_frame (h : Frame R) {p : Packet} {s : State} : Lands (R s) (execCmdRsp p s) := by
  unfold execCmdRsp
  have hs := h.refl s
  repeat' (first
    | with_reducible (first
        | apply lands_next | assumption | refine State.peelTake_frame h (fun _ => ?_) ?_
        | refine State.settle_frame h ?_ | exact h.refl _)
    | split | exact h.trans hs (h.other rfl rfl rfl (Nat.le_refl _) (Nat.le_refl _)))

end Sys2Proof.Machine
end

