-- ==== Sys2Proof/Laws/FrameFaults.lean ====
section
/-! SUPPORT. What every operation of Machine/Faults.lean keeps: the frame lemmas. -/

set_option linter.unreachableTactic false
set_option linter.unusedTactic false

namespace Sys2Proof.Machine

variable {R : State → State → Prop}

theorem State.learnEvent_frame (h : Frame R) {r0 : State} {e : Event} {s : State} (hs : R r0 s) : R r0
    (State.learnEvent e s) := by
  unfold State.learnEvent
  repeat' (first
    | with_reducible (first
        | assumption | refine ite_frame (fun _ => ?_) (fun _ => ?_) | refine State.modBoot_frame h ?_
        | refine State.modFlt_frame h ?_ | refine State.react_frame h ?_ | exact h.refl _)
    | extract_lets)

theorem execFaultPacketEvent_frame (h : Frame R) {p : Packet} {s : State} : Lands (R s) (execFaultPacketEvent p s) :=
    by
  unfold execFaultPacketEvent
  have hs := h.refl s
  repeat' (first
    | with_reducible (first
        | apply lands_next | assumption | refine State.fault_frame h ?_ | refine State.learnEvent_frame h ?_
        | refine State.logEvent_frame h ?_ | refine State.modFlt_frame h ?_
        | refine State.peelTake_frame h (fun _ => ?_) ?_ | exact h.refl _)
    | split)

theorem State.faultTake_frame (h : Frame R) {r0 : State} {p : Packet} {ok : Nat → Bool} {f : State → State} {s :
    State} (hf : ∀ x, R x (f x)) (hs : R r0 s) : R r0 (State.faultTake p ok f s) := by
  unfold State.faultTake
  repeat' with_reducible (first
    | assumption | refine ite_frame (fun _ => ?_) (fun _ => ?_) | refine State.fault_frame h ?_
    | refine State.peelTake_frame h (fun _ => ?_) ?_ | refine h.trans ?_ (hf _) | refine h.trans ?_ (hf _ _)
    | exact h.refl _)

theorem execFaultPacketReport_frame (h : Frame R) {p : Packet} {t : Nat} {s0 : State} : Lands (R s0)
    (execFaultPacketReport p t s0) := by
  unfold execFaultPacketReport
  have hs := h.refl s0
  repeat' (first
    | with_reducible (first
        | apply lands_next | assumption | refine State.atT_frame h ?_ | refine State.fault_frame h ?_
        | refine State.faultTake_frame h (fun _ => ?_) ?_ | refine State.modFlt_frame h ?_ | exact h.refl _)
    | extract_lets | split)

theorem State.ackLands_frame (h : Frame R) {r0 : State} {code inst : Half} {s : State} (hs : R r0 s) : R r0
    (State.ackLands code inst s) := by
  unfold State.ackLands
  repeat' (first
    | with_reducible (first
        | assumption | refine ite_frame (fun _ => ?_) (fun _ => ?_) | refine State.emit_frame h ?_
        | refine State.modFlt_frame h ?_ | refine State.react_frame h ?_ | exact h.refl _)
    | extract_lets | split)

theorem execFaultPacketAck_frame (h : Frame R) {p : Packet} {t : Nat} {s0 : State} : Lands (R s0) (execFaultPacketAck
    p t s0) := by
  unfold execFaultPacketAck
  have hs := h.refl s0
  repeat' (first
    | with_reducible (first
        | apply lands_next | assumption | refine State.ackLands_frame h ?_ | refine State.atT_frame h ?_
        | refine State.faultTake_frame h (fun _ => ?_) ?_ | refine State.modFlt_frame h ?_
        | refine State.settle_frame h ?_ | exact h.refl _)
    | extract_lets)

theorem execFaultPacketClear_frame (h : Frame R) {p : Packet} {t : Nat} {s0 : State} : Lands (R s0) (execFaultPacketClear p t s0) := by
  unfold execFaultPacketClear
  refine lands_next (State.faultTake_frame h (fun x => State.unlessCarried_frame h (fun x => ?_) (h.refl x))
    (State.atT_frame h (h.refl s0)))
  split
  · rename_i r e
    exact State.settle_frame h (State.clearFaults_frame h e (h.refl x))
  · exact h.refl x

theorem execFaultPacketInject_frame (h : Frame R) {p : Packet} {t : Nat} {s0 : State} : Lands (R s0)
    (execFaultPacketInject p t s0) := by
  unfold execFaultPacketInject
  have hs := h.refl s0
  repeat' (first
    | with_reducible (first
        | apply lands_next | assumption | refine ite_lands (fun _ => ?_) (fun _ => ?_)
        | refine ite_frame (fun _ => ?_) (fun _ => ?_) | refine State.atT_frame h ?_
        | refine State.faultTake_frame h (fun _ => ?_) ?_ | refine State.raiseDry_frame h ?_
        | refine State.raiseLive_frame h ?_ | refine State.settle_frame h ?_
        | refine State.unlessCarried_frame h (fun _ => ?_) ?_ | exact h.refl _)
    | extract_lets)

theorem State.halt_frame (h : Frame R) {r0 : State} {r : Region} {s : State} (hs : R r0 s) : R r0 (State.halt r s) :=
    by
  unfold State.halt
  repeat' (first
    | with_reducible (first
        | assumption | refine State.fault_frame h ?_ | refine forAll_frame h (fun _ _ => ?_) ?_
        | refine State.modLoaf_frame h ?_ | refine State.pwmTo_frame h ?_ | refine State.wrBit_frame h ?_
        | exact h.refl _)
    | extract_lets | split | exact h.trans hs (h.other rfl rfl rfl (Nat.le_refl _) (Nat.le_refl _)))

theorem execHaltNotification_frame (h : Frame R) {p : Packet} {t : Nat} {s0 : State} : Lands (R s0)
    (execHaltNotification p t s0) := by
  unfold execHaltNotification
  have hs := h.refl s0
  repeat' (first
    | with_reducible (first
        | apply lands_next | assumption | refine ite_lands (fun _ => ?_) (fun _ => ?_)
        | refine ite_frame (fun _ => ?_) (fun _ => ?_) | refine State.atT_frame h ?_
        | refine State.faultTake_frame h (fun _ => ?_) ?_ | refine State.halt_frame h ?_ | exact h.refl _)
    | extract_lets)

theorem execDebugHalt_frame (h : Frame R) {t : Nat} {s0 : State} : Lands (R s0) (execDebugHalt t s0) := by
  unfold execDebugHalt
  have hs := h.refl s0
  repeat' (first
    | with_reducible (first
        | apply lands_next | assumption | refine ite_lands (fun _ => ?_) (fun _ => ?_)
        | refine ite_frame (fun _ => ?_) (fun _ => ?_) | refine State.atT_frame h ?_ | refine State.halt_frame h ?_)
    | extract_lets)

theorem execHaltEnd_frame (h : Frame R) {s : State} : Lands (R s) (execHaltEnd s) := by
  unfold execHaltEnd
  have hs := h.refl s
  repeat' (first
    | with_reducible (first
        | apply lands_next | assumption)
    | exact h.trans hs (h.other rfl rfl rfl (Nat.le_refl _) (Nat.le_refl _)))

theorem execFaultLatch_frame (h : Frame R) {code inst : Half} {data : Int} {t : Nat} {s0 : State} : Lands (R s0)
    (execFaultLatch code inst data t s0) := by
  unfold execFaultLatch
  have hs := h.refl s0
  repeat' (first
    | with_reducible (first
        | apply lands_next | assumption | refine ite_lands (fun _ => ?_) (fun _ => ?_)
        | refine ite_frame (fun _ => ?_) (fun _ => ?_) | refine State.atT_frame h ?_
        | refine State.attributed_frame h ?_ | refine State.latch_frame h ?_ | refine State.settle_frame h ?_)
    | extract_lets)

theorem State.escalate_frame (h : Frame R) {r0 : State} {q : Pend} {s : State} (hs : R r0 s) : R r0 (State.escalate q
    s) := by
  unfold State.escalate
  repeat' with_reducible (first
    | assumption | refine ite_frame (fun _ => ?_) (fun _ => ?_) | refine State.emit_frame h ?_
    | refine State.modFlt_frame h ?_ | refine State.react_frame h ?_ | exact h.refl _)

theorem execGraceExpiry_frame (h : Frame R) {code inst : Half} {t : Nat} {s0 : State} : Lands (R s0) (execGraceExpiry
    code inst t s0) := by
  unfold execGraceExpiry
  have hs := h.refl s0
  repeat' (first
    | with_reducible (first
        | apply lands_next | assumption | refine ite_lands (fun _ => ?_) (fun _ => ?_)
        | refine ite_frame (fun _ => ?_) (fun _ => ?_) | refine State.atT_frame h ?_
        | refine State.escalate_frame h ?_ | refine State.settle_frame h ?_ | exact h.refl _)
    | extract_lets | split)

theorem execNvLogWrite_frame (h : Frame R) {s : State} : Lands (R s) (execNvLogWrite s) := by
  unfold execNvLogWrite
  have hs := h.refl s
  repeat' (first
    | with_reducible (first
        | apply lands_next | assumption | refine ite_lands (fun _ => ?_) (fun _ => ?_)
        | refine ite_frame (fun _ => ?_) (fun _ => ?_) | refine State.modFlt_frame h ?_ | exact h.refl _)
    | split)

theorem execAuditLogWrite_frame (h : Frame R) {s : State} : Lands (R s) (execAuditLogWrite s) := by
  unfold execAuditLogWrite
  have hs := h.refl s
  repeat' (first
    | with_reducible (first
        | apply lands_next | assumption | refine ite_lands (fun _ => ?_) (fun _ => ?_)
        | refine ite_frame (fun _ => ?_) (fun _ => ?_) | refine State.modSec_frame h (Nat.le_refl _) ?_
        | exact h.refl _)
    | split)

theorem execHostHbTimeout_frame (h : Frame R) {s0 : State} : Lands (R s0) (execHostHbTimeout s0) := by
  unfold execHostHbTimeout
  have hs := h.refl s0
  repeat' (first
    | with_reducible (first
        | apply lands_next | assumption | refine ite_lands (fun _ => ?_) (fun _ => ?_)
        | refine ite_frame (fun _ => ?_) (fun _ => ?_) | refine State.atT_frame h ?_ | refine State.bump_frame h ?_
        | refine State.modFlt_frame h ?_ | refine State.reportM_frame h ?_ | refine State.setIrq_frame h ?_
        | exact h.refl _)
    | extract_lets | split)

theorem execBeatToggle_frame (h : Frame R) {t : Nat} {s0 : State} : Lands (R s0) (execBeatToggle t s0) := by
  unfold execBeatToggle
  have hs := h.refl s0
  repeat' (first
    | with_reducible (first
        | apply lands_next | assumption | refine ite_lands (fun _ => ?_) (fun _ => ?_)
        | refine ite_frame (fun _ => ?_) (fun _ => ?_) | refine State.atT_frame h ?_ | refine State.modFlt_frame h ?_
        | exact h.refl _)
    | extract_lets)

end Sys2Proof.Machine
end

