-- ==== Sys2Proof/Laws/FrameOvenTimers.lean ====
section
/-! SUPPORT. What every operation of Machine/OvenTimers.lean keeps: the frame lemmas. -/

set_option linter.unreachableTactic false
set_option linter.unusedTactic false

namespace Sys2Proof.Machine

variable {R : State → State → Prop}

theorem execStarterAlignEnd_frame (h : Frame R) {g : Fin 4} {polarity : Int} {t : Nat} {s0 : State} : Lands (R s0)
    (execStarterAlignEnd g polarity t s0) := by
  unfold execStarterAlignEnd
  have hs := h.refl s0
  repeat' (first
    | with_reducible (first
        | apply lands_next | assumption | refine ite_lands (fun _ => ?_) (fun _ => ?_)
        | refine ite_frame (fun _ => ?_) (fun _ => ?_) | refine State.atT_frame h ?_ | refine State.modGrp_frame h ?_
        | refine State.settle_frame h ?_ | exact h.refl _)
    | extract_lets)

theorem execStarterTimeout_frame (h : Frame R) {g : Fin 4} {t : Nat} {s0 : State} : Lands (R s0) (execStarterTimeout g
    t s0) := by
  unfold execStarterTimeout
  have hs := h.refl s0
  repeat' (first
    | with_reducible (first
        | apply lands_next | assumption | refine ite_lands (fun _ => ?_) (fun _ => ?_)
        | refine ite_frame (fun _ => ?_) (fun _ => ?_) | refine State.atT_frame h ?_ | refine State.fault_frame h ?_)
    | extract_lets)

theorem execStallDetect_frame (h : Frame R) {g : Fin 4} {t : Nat} {s0 : State} : Lands (R s0) (execStallDetect g t s0)
    := by
  unfold execStallDetect
  have hs := h.refl s0
  repeat' (first
    | with_reducible (first
        | apply lands_next | assumption | refine ite_lands (fun _ => ?_) (fun _ => ?_)
        | refine ite_frame (fun _ => ?_) (fun _ => ?_) | refine State.atT_frame h ?_ | refine State.fault_frame h ?_
        | refine State.modGrp_frame h ?_ | exact h.refl _)
    | extract_lets | split)

theorem execStallHoldExpiry_frame (h : Frame R) {g : Fin 4} {t : Nat} {s0 : State} : Lands (R s0) (execStallHoldExpiry
    g t s0) := by
  unfold execStallHoldExpiry
  have hs := h.refl s0
  repeat' (first
    | with_reducible (first
        | apply lands_next | assumption | refine ite_lands (fun _ => ?_) (fun _ => ?_)
        | refine ite_frame (fun _ => ?_) (fun _ => ?_) | refine State.atT_frame h ?_
        | refine State.brakeDemand_frame h ?_ | refine State.settle_frame h ?_)
    | extract_lets)

theorem execSbcDelayExpiry_frame (h : Frame R) {g : Fin 4} {t : Nat} {s0 : State} : Lands (R s0) (execSbcDelayExpiry g
    t s0) := by
  unfold execSbcDelayExpiry
  have hs := h.refl s0
  repeat' (first
    | with_reducible (first
        | apply lands_next | assumption | refine ite_lands (fun _ => ?_) (fun _ => ?_)
        | refine ite_frame (fun _ => ?_) (fun _ => ?_) | refine State.atT_frame h ?_
        | refine State.groupStopped_frame h ?_ | refine State.settle_frame h ?_)
    | extract_lets)

theorem execStopTimeout_frame (h : Frame R) {g : Fin 4} {t : Nat} {s0 : State} : Lands (R s0) (execStopTimeout g t s0)
    := by
  unfold execStopTimeout
  have hs := h.refl s0
  repeat' (first
    | with_reducible (first
        | apply lands_next | assumption | refine ite_lands (fun _ => ?_) (fun _ => ?_)
        | refine ite_frame (fun _ => ?_) (fun _ => ?_) | refine State.atT_frame h ?_ | refine State.fault_frame h ?_)
    | extract_lets)

theorem execSpdInvalidTimeout_frame (h : Frame R) {g : Fin 4} {t : Nat} {s0 : State} : Lands (R s0)
    (execSpdInvalidTimeout g t s0) := by
  unfold execSpdInvalidTimeout
  have hs := h.refl s0
  repeat' (first
    | with_reducible (first
        | apply lands_next | assumption | refine ite_lands (fun _ => ?_) (fun _ => ?_)
        | refine ite_frame (fun _ => ?_) (fun _ => ?_) | refine State.atT_frame h ?_ | refine State.fault_frame h ?_
        | refine State.modGrp_frame h ?_ | exact h.refl _)
    | extract_lets | split)

end Sys2Proof.Machine
end

