-- ==== Sys2Proof/Laws/FrameSafetyFn.lean ====
section
/-! SUPPORT. What every operation of Machine/SafetyFn.lean keeps: the frame lemmas. -/

set_option linter.unreachableTactic false
set_option linter.unusedTactic false

namespace Sys2Proof.Machine

variable {R : State → State → Prop}

theorem execSafetyInputChange_frame (h : Frame R) {ch : Chan} {i : SafetyInput} {level : Bool} {ns t : Nat} {s0 :
    State} : Lands (R s0) (execSafetyInputChange ch i level ns t s0) := by
  unfold execSafetyInputChange
  have hs := h.refl s0
  repeat' (first
    | with_reducible (first
        | apply lands_next | assumption | refine ite_lands (fun _ => ?_) (fun _ => ?_)
        | refine ite_frame (fun _ => ?_) (fun _ => ?_) | refine State.atT_frame h ?_
        | refine State.discStep_frame h ?_ | refine State.drew_frame h ?_ | refine State.safetyEval_frame h ?_
        | refine State.settle_frame h ?_ | refine State.takeView_frame h ?_)
    | extract_lets)

theorem execInputStageTest_frame (h : Frame R) {ch : Chan} {i : SafetyInput} {readsLow : Bool} {s : State} : Lands (R
    s) (execInputStageTest ch i readsLow s) := by
  unfold execInputStageTest
  have hs := h.refl s
  repeat' with_reducible (first
    | apply lands_next | assumption | refine ite_lands (fun _ => ?_) (fun _ => ?_)
    | refine ite_frame (fun _ => ?_) (fun _ => ?_) | refine State.chanFault_frame h ?_)

theorem execTestPulseMissing_frame (h : Frame R) {i : SafetyInput} {cross : Bool} {t : Nat} {s0 : State} : Lands (R
    s0) (execTestPulseMissing i cross t s0) := by
  unfold execTestPulseMissing
  have hs := h.refl s0
  repeat' (first
    | with_reducible (first
        | apply lands_next | assumption | refine ite_lands (fun _ => ?_) (fun _ => ?_)
        | refine ite_frame (fun _ => ?_) (fun _ => ?_) | refine State.atT_frame h ?_ | refine State.fault_frame h ?_)
    | extract_lets)

theorem execStoDiscrepancy_frame (h : Frame R) {ch : Chan} {t : Nat} {s0 : State} : Lands (R s0) (execStoDiscrepancy
    ch t s0) := by
  unfold execStoDiscrepancy
  have hs := h.refl s0
  repeat' (first
    | with_reducible (first
        | apply lands_next | assumption | refine ite_lands (fun _ => ?_) (fun _ => ?_)
        | refine ite_frame (fun _ => ?_) (fun _ => ?_) | refine State.atT_frame h ?_
        | refine State.chanFault_frame h ?_)
    | extract_lets)

theorem execGuardDiscrepancy_frame (h : Frame R) {ch : Chan} {t : Nat} {s0 : State} : Lands (R s0)
    (execGuardDiscrepancy ch t s0) := by
  unfold execGuardDiscrepancy
  have hs := h.refl s0
  repeat' (first
    | with_reducible (first
        | apply lands_next | assumption | refine ite_lands (fun _ => ?_) (fun _ => ?_)
        | refine ite_frame (fun _ => ?_) (fun _ => ?_) | refine State.atT_frame h ?_
        | refine State.chanFault_frame h ?_)
    | extract_lets)

theorem execChannelDiscrepancy_frame (h : Frame R) {i : SafetyInput} {t : Nat} {s0 : State} : Lands (R s0)
    (execChannelDiscrepancy i t s0) := by
  unfold execChannelDiscrepancy
  have hs := h.refl s0
  repeat' (first
    | with_reducible (first
        | apply lands_next | assumption | refine ite_lands (fun _ => ?_) (fun _ => ?_)
        | refine ite_frame (fun _ => ?_) (fun _ => ?_) | refine State.atT_frame h ?_ | refine State.fault_frame h ?_)
    | extract_lets)

theorem execEnableReadbackMismatch_frame (h : Frame R) {ch : Chan} {s : State} : Lands (R s)
    (execEnableReadbackMismatch ch s) := by
  unfold execEnableReadbackMismatch
  have hs := h.refl s
  repeat' (first
    | with_reducible (first
        | apply lands_next | assumption | refine ite_lands (fun _ => ?_) (fun _ => ?_)
        | refine ite_frame (fun _ => ?_) (fun _ => ?_) | refine State.fault_frame h ?_
        | refine State.modSafety_frame h ?_ | exact h.refl _)
    | extract_lets | split)

theorem State.brakeFault_frame (h : Frame R) {r0 : State} {ch : Chan} {s : State} (hs : R r0 s) : R r0
    (State.brakeFault ch s) := by
  unfold State.brakeFault
  repeat' with_reducible (first
    | assumption | refine State.chanFault_frame h ?_)

theorem execBrakeTest_frame (h : Frame R) {ch : Chan} {fell : Bool} {s : State} : Lands (R s) (execBrakeTest ch fell
    s) := by
  unfold execBrakeTest
  have hs := h.refl s
  repeat' with_reducible (first
    | apply lands_next | assumption | refine ite_lands (fun _ => ?_) (fun _ => ?_)
    | refine ite_frame (fun _ => ?_) (fun _ => ?_) | refine State.brakeFault_frame h ?_)

theorem State.brakeShut_frame (h : Frame R) {r0 : State} {ch : Chan} {s : State} (hs : R r0 s) : R r0 (State.brakeShut
    ch s) := by
  unfold State.brakeShut
  repeat' (first
    | with_reducible (first
        | assumption | refine State.modSafety_frame h ?_ | exact h.refl _)
    | split)

theorem execBrakeMismatch_frame (h : Frame R) {ch : Chan} {s : State} : Lands (R s) (execBrakeMismatch ch s) := by
  unfold execBrakeMismatch
  have hs := h.refl s
  repeat' with_reducible (first
    | apply lands_next | assumption | refine ite_lands (fun _ => ?_) (fun _ => ?_)
    | refine ite_frame (fun _ => ?_) (fun _ => ?_) | refine State.brakeFault_frame h ?_
    | refine State.brakeShut_frame h ?_)

theorem execSs1TimerExpiry_frame (h : Frame R) {ch : Chan} {t : Nat} {s0 : State} : Lands (R s0) (execSs1TimerExpiry
    ch t s0) := by
  unfold execSs1TimerExpiry
  have hs := h.refl s0
  repeat' (first
    | with_reducible (first
        | apply lands_next | assumption | refine ite_lands (fun _ => ?_) (fun _ => ?_)
        | refine ite_frame (fun _ => ?_) (fun _ => ?_) | refine State.atT_frame h ?_ | refine State.settle_frame h ?_
        | refine State.ss1End_frame h ?_ | refine State.stoEnd_frame h ?_)
    | extract_lets)

theorem execSbcStoLagExpiry_frame (h : Frame R) {ch : Chan} {t : Nat} {s0 : State} : Lands (R s0) (execSbcStoLagExpiry
    ch t s0) := by
  unfold execSbcStoLagExpiry
  have hs := h.refl s0
  repeat' (first
    | with_reducible (first
        | apply lands_next | assumption | refine ite_lands (fun _ => ?_) (fun _ => ?_)
        | refine ite_frame (fun _ => ?_) (fun _ => ?_) | refine State.atT_frame h ?_
        | refine State.brakeOff_frame h ?_ | refine State.settle_frame h ?_)
    | extract_lets)

theorem State.brakeDueFor_frame (h : Frame R) {r0 : State} {s : State} (hs : R r0 s) : R r0 (State.brakeDueFor s) :=
    by
  unfold State.brakeDueFor
  repeat' (first
    | with_reducible (first
        | assumption | refine ite_frame (fun _ => ?_) (fun _ => ?_) | refine State.modGrp_frame h ?_ | exact h.refl _)
    | extract_lets)

theorem execSs1BrakeExpiry_frame (h : Frame R) {ch : Chan} {t : Nat} {s0 : State} : Lands (R s0) (execSs1BrakeExpiry
    ch t s0) := by
  unfold execSs1BrakeExpiry
  have hs := h.refl s0
  repeat' (first
    | with_reducible (first
        | apply lands_next | assumption | refine ite_lands (fun _ => ?_) (fun _ => ?_)
        | refine ite_frame (fun _ => ?_) (fun _ => ?_) | refine State.atT_frame h ?_
        | refine State.brakeDueFor_frame h ?_ | refine State.brakeOff_frame h ?_ | refine State.settle_frame h ?_)
    | extract_lets)

end Sys2Proof.Machine
end

