-- ==== Sys2Proof/Laws/FrameNetOps.lean ====
section
/-! SUPPORT. What every operation of Machine/NetOps.lean keeps: the frame lemmas. -/

set_option linter.unreachableTactic false
set_option linter.unusedTactic false

namespace Sys2Proof.Machine

variable {R : State → State → Prop}

theorem State.learn_frame (h : Frame R) {r0 : State} {mac port : Nat} {s : State} (hs : R r0 s) : R r0 (State.learn
    mac port s) := by
  unfold State.learn
  repeat' with_reducible (first
    | assumption | refine ite_frame (fun _ => ?_) (fun _ => ?_) | refine State.modNet_frame h ?_ | exact h.refl _)

theorem State.closeConn_frame (h : Frame R) {r0 : State} {c : Fin 4} {why : Nat} {s : State} (hs : R r0 s) : R r0
    (State.closeConn c why s) := by
  unfold State.closeConn
  repeat' (first
    | with_reducible (first
        | assumption | refine ite_frame (fun _ => ?_) (fun _ => ?_) | refine State.auditEvent_frame h ?_
        | refine State.capForget_frame h ?_ | refine State.endSubs_frame h ?_ | refine State.modCmd_frame h ?_
        | refine State.modConn_frame h ?_ | exact h.refl _)
    | extract_lets)

theorem State.setLv_frame (h : Frame R) {r0 : State} {ch : Fin 2} {l : Leaven} {s : State} (hs : R r0 s) : R r0
    (State.setLv ch l s) := by
  unfold State.setLv
  repeat' (first
    | with_reducible (first
        | assumption | refine ite_frame (fun _ => ?_) (fun _ => ?_) | refine State.modTime_frame h (Nat.le_refl _) ?_
        | exact h.refl _)
    | split | exact h.trans hs (h.other rfl rfl rfl (Nat.le_refl _) (Nat.le_refl _)))

theorem State.leavenRefuse_frame (h : Frame R) {r0 : State} {ch : Fin 2} {o : Int} {s : State} (hs : R r0 s) : R r0
    (State.leavenRefuse ch o s) := by
  unfold State.leavenRefuse
  repeat' (first
    | with_reducible (first
        | assumption | refine ite_frame (fun _ => ?_) (fun _ => ?_) | refine State.bump_frame h ?_
        | refine State.reportM_frame h ?_ | refine State.setLv_frame h ?_ | refine State.wrs_frame h ?_)
    | extract_lets)

theorem State.leavenAccept_frame (h : Frame R) {r0 : State} {ch : Fin 2} {o : Int} {s : State} (hs : R r0 s) : R r0
    (State.leavenAccept ch o s) := by
  unfold State.leavenAccept
  repeat' (first
    | with_reducible (first
        | assumption | refine ite_frame (fun _ => ?_) (fun _ => ?_) | refine State.setLv_frame h ?_)
    | extract_lets)

theorem State.leavenStep_frame (h : Frame R) {r0 : State} {ch : Fin 2} {o : Int} {s : State} (hs : R r0 s) : R r0
    (State.leavenStep ch o s) := by
  unfold State.leavenStep
  repeat' (first
    | with_reducible (first
        | assumption | refine ite_frame (fun _ => ?_) (fun _ => ?_) | refine State.modTime_frame h (Nat.le_refl _) ?_
        | exact h.refl _)
    | split | exact h.trans hs (h.other rfl rfl rfl (Nat.le_refl _) (Nat.le_refl _)))

theorem State.leaven_frame (h : Frame R) {r0 : State} {ch : Fin 2} {o : Int} {s0 : State} (hs : R r0 s0) : R r0
    (State.leaven ch o s0) := by
  unfold State.leaven
  repeat' (first
    | with_reducible (first
        | assumption | refine ite_frame (fun _ => ?_) (fun _ => ?_) | refine h.wrStep ?_
        | refine State.leavenAccept_frame h ?_ | refine State.leavenRefuse_frame h ?_
        | refine State.leavenStep_frame h ?_)
    | extract_lets)

theorem State.holdover_frame (h : Frame R) {r0 : State} {s : State} (hs : R r0 s) : R r0 (State.holdover s) := by
  unfold State.holdover
  repeat' (first
    | with_reducible (first
        | assumption | refine ite_frame (fun _ => ?_) (fun _ => ?_) | refine State.reportM_frame h ?_
        | refine State.setLv_frame h ?_)
    | extract_lets)

theorem State.selectMaster_frame (h : Frame R) {r0 : State} {s : State} (hs : R r0 s) : R r0 (State.selectMaster s) :=
    by
  unfold State.selectMaster
  repeat' (first
    | with_reducible (first
        | assumption | refine ite_frame (fun _ => ?_) (fun _ => ?_) | refine State.holdover_frame h ?_
        | refine State.modNet_frame h ?_ | exact h.refl _)
    | extract_lets)

theorem State.ownLeft_frame (h : Frame R) {r0 : State} {p : Nat} {out : Rat} {f : OwnFrame} {s : State} (hs : R r0 s)
    : R r0 (State.ownLeft p out f s) := by
  unfold State.ownLeft
  repeat' (first
    | with_reducible (first
        | assumption | refine ite_frame (fun _ => ?_) (fun _ => ?_) | refine State.modNet_frame h ?_
        | refine State.ownSend_frame h ?_ | exact h.refl _)
    | split)

theorem State.offsetFormed_frame (h : Frame R) {r0 : State} {x : Rat} {t : Nat} {s : State} (hs : R r0 s) : R r0
    (State.offsetFormed x t s) := by
  unfold State.offsetFormed
  repeat' (first
    | with_reducible (first
        | assumption | refine h.wrStep ?_ | refine State.modNet_frame h ?_ | exact h.refl _)
    | extract_lets)

theorem State.setMpd_frame (h : Frame R) {r0 : State} {x : Rat} {s : State} (hs : R r0 s) : R r0 (State.setMpd x s) :=
    by
  unfold State.setMpd
  repeat' with_reducible (first
    | assumption | refine h.wrStep ?_ | refine State.modNet_frame h ?_ | exact h.refl _)

end Sys2Proof.Machine
end

