-- ==== Sys2Proof/Laws/FrameNetwork.lean ====
section
/-! SUPPORT. What every operation of Machine/Network.lean keeps: the frame lemmas. -/

set_option linter.unreachableTactic false
set_option linter.unusedTactic false

namespace Sys2Proof.Machine

variable {R : State → State → Prop}

theorem execEthFrameRx_frame (h : Frame R) {port : Fin 2} {f : EthFrame} {t : Nat} {s0 : State} : Lands (R s0)
    (execEthFrameRx port f t s0) := by
  unfold execEthFrameRx
  have hs := h.refl s0
  repeat' (first
    | with_reducible (first
        | apply lands_next | assumption | refine ite_lands (fun _ => ?_) (fun _ => ?_)
        | refine ite_frame (fun _ => ?_) (fun _ => ?_) | refine State.atT_frame h ?_ | refine State.bump_frame h ?_
        | refine State.drew_frame h ?_ | refine State.egressPut_frame h ?_ | refine forAll_frame h (fun _ _ => ?_) ?_
        | refine State.learn_frame h ?_ | exact h.refl _)
    | extract_lets)

theorem State.transparent_frame (h : Frame R) {r0 : State} {q : Nat} {out : Rat} {f : EgressFrame} {s : State} (hs : R r0 s) :
    R r0 (State.transparent q out f s).1 := by
  unfold State.transparent
  extract_lets
  split
  · exact hs
  split
  · split
    · dsimp only
      exact State.modNet_frame h hs
    · exact hs
  · split <;> exact hs
  · split
    · extract_lets s1
      have h1 : R r0 s1 := State.modNet_frame h hs
      split
      · dsimp only
        exact State.bump_frame h h1
      · exact h1
    · dsimp only
      exact State.bump_frame h hs
  · exact hs

theorem execEthFrameTx_frame (h : Frame R) {port : Fin 3} {t : Nat} {s0 : State} :
    Lands (R s0) (execEthFrameTx port t s0) := by
  unfold execEthFrameTx
  extract_lets s l out
  have hs : R s0 s := State.tcpPush_frame h (State.atT_frame h (h.refl s0))
  split
  · exact lands_next hs
  · extract_lets r s1 s2
    have h1 : R s0 s1 := State.modNet_frame h (State.transparent_frame h (State.drew_frame h (State.modNet_frame h hs)))
    refine ite_lands (fun _ => lands_next h1) (fun _ => ?_)
    have h2 : R s0 s2 := State.bump_frame h h1
    split
    · exact lands_next h2
    · exact lands_next (State.ownLeft_frame h h2)

theorem execAddressAging_frame (h : Frame R) {mac : Nat} {s : State} : Lands (R s) (execAddressAging mac s) := by
  unfold execAddressAging
  have hs := h.refl s
  repeat' (first
    | with_reducible (first
        | apply lands_next | assumption | refine State.atT_frame h ?_ | refine State.modNet_frame h ?_
        | exact h.refl _)
    | split)

theorem execPhyPoll_frame (h : Frame R) {port : Fin 2} {reg1 : Half} {refclk : Bool} {s : State} : Lands (R s)
    (execPhyPoll port reg1 refclk s) := by
  unfold execPhyPoll
  have hs := h.refl s
  repeat' (first
    | with_reducible (first
        | apply lands_next | assumption | refine ite_lands (fun _ => ?_) (fun _ => ?_)
        | refine ite_frame (fun _ => ?_) (fun _ => ?_) | refine State.modNet_frame h ?_
        | refine State.ownSend_frame h ?_ | refine State.reportM_frame h ?_ | refine State.selectMaster_frame h ?_
        | exact h.refl _)
    | extract_lets)

theorem execArpRx_frame (h : Frame R) {isRequest : Bool} {senderIp senderMac targetIp : Nat} {s : State} : Lands (R s)
    (execArpRx isRequest senderIp senderMac targetIp s) := by
  unfold execArpRx
  have hs := h.refl s
  repeat' (first
    | with_reducible (first
        | apply lands_next | assumption | refine ite_lands (fun _ => ?_) (fun _ => ?_)
        | refine ite_frame (fun _ => ?_) (fun _ => ?_) | refine State.modNet_frame h ?_
        | refine State.ownSend_frame h ?_ | exact h.refl _)
    | extract_lets)

theorem execIcmpEcho_frame (h : Frame R) {r : EchoRequest} {t : Nat} {s0 : State} : Lands (R s0) (execIcmpEcho r t s0)
    := by
  unfold execIcmpEcho
  have hs := h.refl s0
  repeat' (first
    | with_reducible (first
        | apply lands_next | assumption | refine ite_lands (fun _ => ?_) (fun _ => ?_)
        | refine ite_frame (fun _ => ?_) (fun _ => ?_) | refine State.atT_frame h ?_ | refine State.modNet_frame h ?_
        | refine State.ownSend_frame h ?_ | exact h.refl _)
    | extract_lets)

theorem execArpCacheAging_frame (h : Frame R) {ip : Nat} {s : State} : Lands (R s) (execArpCacheAging ip s) := by
  unfold execArpCacheAging
  have hs := h.refl s
  repeat' (first
    | with_reducible (first
        | apply lands_next | assumption | refine State.atT_frame h ?_ | refine State.modNet_frame h ?_
        | exact h.refl _)
    | split)

theorem execTcpConnect_frame (h : Frame R) {r : TcpRequest} {s : State} : Lands (R s) (execTcpConnect r s) := by
  unfold execTcpConnect
  have hs := h.refl s
  repeat' (first
    | with_reducible (first
        | apply lands_next | assumption | refine ite_lands (fun _ => ?_) (fun _ => ?_)
        | refine ite_frame (fun _ => ?_) (fun _ => ?_) | refine State.modConn_frame h ?_
        | refine State.ownSend_frame h ?_ | exact h.refl _)
    | split)

theorem execTlsHandshakeComplete_frame (h : Frame R) {c : Fin 4} {user : Option (Fin 16)} {offer : TlsOffer} {exporter
    : List Byte} {s : State} : Lands (R s) (execTlsHandshakeComplete c user offer exporter s) := by
  unfold execTlsHandshakeComplete
  have hs := h.refl s
  repeat' (first
    | with_reducible (first
        | apply lands_next | assumption | refine ite_lands (fun _ => ?_) (fun _ => ?_)
        | refine ite_frame (fun _ => ?_) (fun _ => ?_) | refine h.wrStep ?_ | refine State.auditEvent_frame h ?_
        | refine State.closeConn_frame h ?_ | refine State.modConn_frame h ?_
        | refine State.modSec_frame h (Nat.le_refl _) ?_ | refine State.offer_frame h ?_ | exact h.refl _)
    | extract_lets | split)

theorem execTlsHandshakeTimeout_frame (h : Frame R) {c : Fin 4} {s : State} : Lands (R s) (execTlsHandshakeTimeout c
    s) := by
  unfold execTlsHandshakeTimeout
  have hs := h.refl s
  repeat' (first
    | with_reducible (first
        | apply lands_next | assumption | refine ite_lands (fun _ => ?_) (fun _ => ?_)
        | refine ite_frame (fun _ => ?_) (fun _ => ?_) | refine State.atT_frame h ?_
        | refine State.closeConn_frame h ?_)
    | extract_lets)

theorem execNetCommand_frame (h : Frame R) {c : Fin 4} {words : List Word} {s : State} : Lands (R s) (execNetCommand c
    words s) := by
  unfold execNetCommand
  have hs := h.refl s
  repeat' (first
    | with_reducible (first
        | apply lands_next | assumption | refine ite_lands (fun _ => ?_) (fun _ => ?_)
        | refine ite_frame (fun _ => ?_) (fun _ => ?_) | refine State.modConn_frame h ?_
        | refine State.settle_frame h ?_ | refine State.takeConn_frame h ?_ | exact h.refl _)
    | extract_lets)

theorem execConnectionClose_frame (h : Frame R) {c : Fin 4} {s : State} : Lands (R s) (execConnectionClose c s) := by
  unfold execConnectionClose
  have hs := h.refl s
  repeat' with_reducible (first
    | apply lands_next | assumption | refine State.closeConn_frame h ?_)

theorem execNetIdleTimeout_frame (h : Frame R) {c : Fin 4} {s : State} : Lands (R s) (execNetIdleTimeout c s) := by
  unfold execNetIdleTimeout
  have hs := h.refl s
  repeat' (first
    | with_reducible (first
        | apply lands_next | assumption | refine ite_lands (fun _ => ?_) (fun _ => ?_)
        | refine ite_frame (fun _ => ?_) (fun _ => ?_) | refine State.atT_frame h ?_
        | refine State.closeConn_frame h ?_)
    | extract_lets)

theorem execDeliveryClose_frame (h : Frame R) {sub : Fin 8} {s : State} : Lands (R s) (execDeliveryClose sub s) := by
  unfold execDeliveryClose
  have hs := h.refl s
  repeat' (first
    | with_reducible (first
        | apply lands_next | assumption | refine ite_lands (fun _ => ?_) (fun _ => ?_)
        | refine ite_frame (fun _ => ?_) (fun _ => ?_) | refine State.atT_frame h ?_
        | refine State.closeDelivery_frame h ?_)
    | extract_lets)

theorem execObjectSampleTick_frame (h : Frame R) {sub : Fin 8} {s0 : State} : Lands (R s0) (execObjectSampleTick sub
    s0) := by
  unfold execObjectSampleTick
  have hs := h.refl s0
  repeat' (first
    | with_reducible (first
        | apply lands_next | assumption | refine ite_lands (fun _ => ?_) (fun _ => ?_)
        | refine ite_frame (fun _ => ?_) (fun _ => ?_) | refine State.atT_frame h ?_ | refine State.modSub_frame h ?_
        | refine State.streamItem_frame h ?_ | exact h.refl _)
    | extract_lets)

theorem execPtpSync_frame (hF : Frame R) {port : Fin 2} {h : PtpHead} {twoStep : Bool} {logInterval : Int} {origin
    corr : Int} {t : Nat} {s0 : State} : Lands (R s0) (execPtpSync port h twoStep logInterval origin corr t s0) := by
  unfold execPtpSync
  have hs := hF.refl s0
  repeat' (first
    | with_reducible (first
        | apply lands_next | assumption | refine ite_lands (fun _ => ?_) (fun _ => ?_)
        | refine ite_frame (fun _ => ?_) (fun _ => ?_) | refine State.atT_frame hF ?_ | refine State.drew_frame hF ?_
        | refine State.modNet_frame hF ?_ | refine State.offsetFormed_frame hF ?_ | exact hF.refl _)
    | extract_lets)

theorem execPtpFollowUp_frame (hF : Frame R) {port : Fin 2} {h : PtpHead} {origin corr : Int} {s : State} : Lands (R
    s) (execPtpFollowUp port h origin corr s) := by
  unfold execPtpFollowUp
  have hs := hF.refl s
  repeat' (first
    | with_reducible (first
        | apply lands_next | assumption | refine ite_lands (fun _ => ?_) (fun _ => ?_)
        | refine ite_frame (fun _ => ?_) (fun _ => ?_) | refine State.offsetFormed_frame hF ?_)
    | split)

theorem execPtpDelayReqSend_frame (h : Frame R) {t : Nat} {s0 : State} : Lands (R s0) (execPtpDelayReqSend t s0) := by
  unfold execPtpDelayReqSend
  have hs := h.refl s0
  repeat' (first
    | with_reducible (first
        | apply lands_next | assumption | refine ite_lands (fun _ => ?_) (fun _ => ?_)
        | refine ite_frame (fun _ => ?_) (fun _ => ?_) | refine State.atT_frame h ?_ | refine State.modNet_frame h ?_
        | refine State.ownSend_frame h ?_ | exact h.refl _)
    | extract_lets | split)

theorem execPtpDelayResp_frame (hF : Frame R) {port : Fin 2} {h : PtpHead} {receive corr : Int} {s : State} : Lands (R
    s) (execPtpDelayResp port h receive corr s) := by
  unfold execPtpDelayResp
  have hs := hF.refl s
  repeat' (first
    | with_reducible (first
        | apply lands_next | assumption | refine ite_lands (fun _ => ?_) (fun _ => ?_)
        | refine ite_frame (fun _ => ?_) (fun _ => ?_) | refine State.modNet_frame hF ?_
        | refine State.setMpd_frame hF ?_ | exact hF.refl _)
    | split)

theorem execPtpAnnounce_frame (h : Frame R) {a : Announce} {s : State} : Lands (R s) (execPtpAnnounce a s) := by
  unfold execPtpAnnounce
  have hs := h.refl s
  repeat' with_reducible (first
    | apply lands_next | assumption | refine ite_lands (fun _ => ?_) (fun _ => ?_)
    | refine ite_frame (fun _ => ?_) (fun _ => ?_) | refine State.modNet_frame h ?_
    | refine State.selectMaster_frame h ?_ | exact h.refl _)

theorem execPtpAnnounceTimeout_frame (h : Frame R) {s0 : State} : Lands (R s0) (execPtpAnnounceTimeout s0) := by
  unfold execPtpAnnounceTimeout
  have hs := h.refl s0
  repeat' (first
    | with_reducible (first
        | apply lands_next | assumption | refine ite_lands (fun _ => ?_) (fun _ => ?_)
        | refine ite_frame (fun _ => ?_) (fun _ => ?_) | refine State.atT_frame h ?_ | refine State.modNet_frame h ?_
        | refine State.selectMaster_frame h ?_ | exact h.refl _)
    | extract_lets | split)

theorem execPdelayReqSend_frame (h : Frame R) {port : Fin 2} {t : Nat} {s0 : State} : Lands (R s0) (execPdelayReqSend
    port t s0) := by
  unfold execPdelayReqSend
  have hs := h.refl s0
  repeat' (first
    | with_reducible (first
        | apply lands_next | assumption | refine ite_lands (fun _ => ?_) (fun _ => ?_)
        | refine ite_frame (fun _ => ?_) (fun _ => ?_) | refine State.atT_frame h ?_ | refine State.modNet_frame h ?_
        | refine State.ownSend_frame h ?_ | exact h.refl _)
    | extract_lets)

theorem execPdelayReq_frame (hF : Frame R) {port : Fin 2} {h : PtpHead} {corr : Int} {t : Nat} {s0 : State} : Lands (R
    s0) (execPdelayReq port h corr t s0) := by
  unfold execPdelayReq
  have hs := hF.refl s0
  repeat' (first
    | with_reducible (first
        | apply lands_next | assumption | refine ite_lands (fun _ => ?_) (fun _ => ?_)
        | refine ite_frame (fun _ => ?_) (fun _ => ?_) | refine State.atT_frame hF ?_ | refine State.drew_frame hF ?_
        | refine State.ownSend_frame hF ?_)
    | extract_lets)

theorem execPdelayResp_frame (hF : Frame R) {port : Fin 2} {h : PtpHead} {t2 t3 corr : Int} {t : Nat} {s0 : State} :
    Lands (R s0) (execPdelayResp port h t2 t3 corr t s0) := by
  unfold execPdelayResp
  have hs := hF.refl s0
  repeat' (first
    | with_reducible (first
        | apply lands_next | assumption | refine ite_lands (fun _ => ?_) (fun _ => ?_)
        | refine ite_frame (fun _ => ?_) (fun _ => ?_) | refine hF.wrStep ?_ | refine State.atT_frame hF ?_
        | refine State.drew_frame hF ?_ | refine State.modNet_frame hF ?_ | refine State.setMpd_frame hF ?_
        | exact hF.refl _)
    | extract_lets | split)

end Sys2Proof.Machine
end

