-- ==== Sys2Proof/Laws/FrameTimeUnits.lean ====
section
/-! SUPPORT. What every operation of Machine/TimeUnits.lean keeps: the frame lemmas. -/

set_option linter.unreachableTactic false
set_option linter.unusedTactic false

namespace Sys2Proof.Machine

variable {R : State → State → Prop}

theorem execLeavenOffset_frame (h : Frame R) {channel : Fin 2} {t : Nat} {s0 : State} : Lands (R s0) (execLeavenOffset
    channel t s0) := by
  unfold execLeavenOffset
  have hs := h.refl s0
  repeat' (first
    | with_reducible (first
        | apply lands_next | assumption | refine ite_lands (fun _ => ?_) (fun _ => ?_)
        | refine ite_frame (fun _ => ?_) (fun _ => ?_) | refine State.atT_frame h ?_ | refine State.leaven_frame h ?_
        | refine State.modNet_frame h ?_ | refine State.modPair_frame h ?_ | exact h.refl _)
    | extract_lets | split)

theorem execPpsRise_frame (h : Frame R) {s0 : State} : Lands (R s0) (execPpsRise s0) := by
  unfold execPpsRise
  have hs := h.refl s0
  repeat' (first
    | with_reducible (first
        | apply lands_next | assumption | refine ite_lands (fun _ => ?_) (fun _ => ?_)
        | refine ite_frame (fun _ => ?_) (fun _ => ?_) | refine State.atT_frame h ?_
        | refine State.modTime_frame h (Nat.le_refl _) ?_ | exact h.refl _)
    | extract_lets)

theorem execPpsFall_frame (h : Frame R) {s : State} : Lands (R s) (execPpsFall s) := by
  unfold execPpsFall
  have hs := h.refl s
  repeat' with_reducible (first
    | apply lands_next | assumption | refine ite_lands (fun _ => ?_) (fun _ => ?_)
    | refine ite_frame (fun _ => ?_) (fun _ => ?_) | refine State.atT_frame h ?_
    | refine State.modTime_frame h (Nat.le_refl _) ?_ | exact h.refl _)

theorem State.trim_frame (h : Frame R) {r0 : State} {u : Nat} {ofs : Rat} {s : State} (hs : R r0 s) : R r0 (State.trim
    u ofs s) := by
  unfold State.trim
  repeat' (first
    | with_reducible (first
        | assumption | refine h.wrStep ?_)
    | extract_lets)

theorem State.unitSync_frame (h : Frame R) {r0 : State} {station : Rat} {u : Nat} {s : State} (hs : R r0 s) : R r0
    (State.unitSync station u s) := by
  unfold State.unitSync
  repeat' (first
    | with_reducible (first
        | assumption | refine ite_frame (fun _ => ?_) (fun _ => ?_) | refine h.wrStep ?_
        | refine State.modTime_frame h (Nat.le_refl _) ?_ | refine State.trim_frame h ?_
        | refine State.wrBit_frame h ?_ | exact h.refl _)
    | extract_lets)

theorem execSync_frame (h : Frame R) {p : Packet} {t : Nat} {s0 : State} : Lands (R s0) (execSync p t s0) := by
  unfold execSync
  have hs := h.refl s0
  repeat' (first
    | with_reducible (first
        | apply lands_next | assumption | refine State.atT_frame h ?_ | refine forAll_frame h (fun _ _ => ?_) ?_
        | refine State.peelTake_frame h (fun _ => ?_) ?_ | refine State.unitSync_frame h ?_ | exact h.refl _)
    | extract_lets)

theorem execEventTimestamp_frame (h : Frame R) {u : Fin 2} {e : EtsEdge} {t : Nat} {s0 : State} : Lands (R s0)
    (execEventTimestamp u e t s0) := by
  unfold execEventTimestamp
  have hs := h.refl s0
  repeat' (first
    | with_reducible (first
        | apply lands_next | assumption | refine ite_lands (fun _ => ?_) (fun _ => ?_)
        | refine ite_frame (fun _ => ?_) (fun _ => ?_) | refine State.atT_frame h ?_
        | refine State.bumpWrap_frame h ?_ | refine State.modTime_frame h (Nat.le_refl _) ?_ | exact h.refl _)
    | extract_lets | split | exact h.trans hs (h.other rfl rfl rfl (Nat.le_refl _) (Nat.le_refl _)))

end Sys2Proof.Machine
end

