-- ==== Sys2Proof/Laws/FramePeriph.lean ====
section
/-! SUPPORT. What every operation of Machine/Periph.lean keeps: the frame lemmas. -/

set_option linter.unreachableTactic false
set_option linter.unusedTactic false

namespace Sys2Proof.Machine

variable {R : State → State → Prop}

theorem execPpTransferStart_frame (h : Frame R) {s : State} : Lands (R s) (execPpTransferStart s) := by
  unfold execPpTransferStart
  have hs := h.refl s
  repeat' with_reducible (first
    | apply lands_next | assumption | refine ite_lands (fun _ => ?_) (fun _ => ?_)
    | refine ite_frame (fun _ => ?_) (fun _ => ?_) | refine State.ppStart_frame h ?_)

theorem execPgpSelectDriven_frame (h : Frame R) {s : State} : Lands (R s) (execPgpSelectDriven s) := by
  unfold execPgpSelectDriven
  have hs := h.refl s
  repeat' (first
    | with_reducible (first
        | apply lands_next | assumption | refine ite_lands (fun _ => ?_) (fun _ => ?_)
        | refine ite_frame (fun _ => ?_) (fun _ => ?_) | refine State.modPp_frame h ?_
        | refine State.pgpPlain_frame h ?_ | exact h.refl _)
    | split)

theorem execPrdyReady_frame (h : Frame R) {s0 : State} : Lands (R s0) (execPrdyReady s0) := by
  unfold execPrdyReady
  have hs := h.refl s0
  repeat' (first
    | with_reducible (first
        | apply lands_next | assumption | refine ite_lands (fun _ => ?_) (fun _ => ?_)
        | refine ite_frame (fun _ => ?_) (fun _ => ?_) | refine State.atT_frame h ?_ | refine State.modPp_frame h ?_
        | refine State.wait_frame h ?_ | exact h.refl _)
    | extract_lets | split)

theorem execPrdyTimeout_frame (h : Frame R) {s : State} : Lands (R s) (execPrdyTimeout s) := by
  unfold execPrdyTimeout
  have hs := h.refl s
  repeat' (first
    | with_reducible (first
        | apply lands_next | assumption | refine ite_lands (fun _ => ?_) (fun _ => ?_)
        | refine ite_frame (fun _ => ?_) (fun _ => ?_) | refine State.atT_frame h ?_ | refine State.bump_frame h ?_
        | refine State.modPp_frame h ?_ | refine State.ppEarly_frame h ?_ | refine State.reportM_frame h ?_
        | refine State.wait_frame h ?_ | exact h.refl _)
    | split)

theorem execPpTransferEnd_frame (h : Frame R) {rx : List (List Bool)} {s : State} : Lands (R s) (execPpTransferEnd rx
    s) := by
  unfold execPpTransferEnd
  have hs := h.refl s
  repeat' (first
    | with_reducible (first
        | apply lands_next | assumption | refine ite_lands (fun _ => ?_) (fun _ => ?_)
        | refine ite_frame (fun _ => ?_) (fun _ => ?_) | refine State.atT_frame h ?_
        | refine State.ppFinish_frame h ?_)
    | split)

theorem State.listDue_frame (h : Frame R) {r0 : State} {l : Fin 2} {s t : State} (e : s.listDue l = some t) (hs : R r0 s) : R r0 t := by
  unfold State.listDue at e
  extract_lets at e
  split at e
  · cases e; exact State.modPp_frame h (State.atT_frame h hs)
  split at e
  · cases e; exact State.modPp_frame h hs
  · cases e

theorem execListTrigger_frame (h : Frame R) {l : Fin 2} {s : State} : Lands (R s) (execListTrigger l s) := by
  unfold execListTrigger
  split
  · split
    · exact lands_next (State.listTrig_frame h (State.listDue_frame h ‹_› (h.refl s)))
    · exact lands_next (h.refl s)
  · exact lands_next (h.refl s)

end Sys2Proof.Machine
end

