-- ==== Sys2Proof/Laws/FramePair.lean ====
section
/-! SUPPORT. What every operation of Machine/Pair.lean keeps: the frame lemmas. -/

set_option linter.unreachableTactic false
set_option linter.unusedTactic false

namespace Sys2Proof.Machine

variable {R : State → State → Prop}

theorem State.mirrorIn_frame (h : Frame R) {r0 : State} {bytes : List Byte} {good : State → State} {s : State} (hf : ∀
    x, R x (good x)) (hs : R r0 s) : R r0 (State.mirrorIn bytes good s) := by
  unfold State.mirrorIn
  repeat' with_reducible (first
    | assumption | refine ite_frame (fun _ => ?_) (fun _ => ?_) | refine State.bump_frame h ?_
    | refine State.modPair_frame h ?_ | refine h.trans ?_ (hf _) | refine h.trans ?_ (hf _ _) | exact h.refl _)

theorem State.mirrorTake_frame (h : Frame R) {r0 : State} {bytes : List Byte} {newer : Bool} {s : State} (hs : R r0 s)
    : R r0 (State.mirrorTake bytes newer s) := by
  unfold State.mirrorTake
  repeat' (first
    | with_reducible (first
        | assumption | refine ite_frame (fun _ => ?_) (fun _ => ?_) | refine h.wrStep ?_
        | refine State.followPartner_frame h ?_ | refine State.modPair_frame h ?_ | exact h.refl _)
    | extract_lets)

theorem execMirrorState_frame (h : Frame R) {bytes : List Byte} {t : Nat} {s0 : State} : Lands (R s0) (execMirrorState
    bytes t s0) := by
  unfold execMirrorState
  have hs := h.refl s0
  repeat' (first
    | with_reducible (first
        | apply lands_next | assumption | refine ite_lands (fun _ => ?_) (fun _ => ?_)
        | refine ite_frame (fun _ => ?_) (fun _ => ?_) | refine State.atT_frame h ?_
        | refine State.mirrorIn_frame h (fun _ => ?_) ?_ | refine State.mirrorTake_frame h ?_
        | refine State.settle_frame h ?_ | exact h.refl _)
    | extract_lets)

theorem execMirrorRelease_frame (h : Frame R) {bytes : List Byte} {t : Nat} {s0 : State} : Lands (R s0)
    (execMirrorRelease bytes t s0) := by
  unfold execMirrorRelease
  have hs := h.refl s0
  repeat' (first
    | with_reducible (first
        | apply lands_next | assumption | refine ite_lands (fun _ => ?_) (fun _ => ?_)
        | refine ite_frame (fun _ => ?_) (fun _ => ?_) | refine State.atT_frame h ?_
        | refine State.mirrorIn_frame h (fun _ => ?_) ?_ | refine State.mirrorTake_frame h ?_
        | refine State.settle_frame h ?_ | exact h.refl _)
    | extract_lets)

theorem State.linkFault_frame (h : Frame R) {r0 : State} {data : Nat} {s : State} (hs : R r0 s) : R r0
    (State.linkFault data s) := by
  unfold State.linkFault
  repeat' with_reducible (first
    | assumption | refine ite_frame (fun _ => ?_) (fun _ => ?_) | refine State.latch_frame h ?_
    | refine State.modPair_frame h ?_ | exact h.refl _)

theorem execMirrorHello_frame (h : Frame R) {bytes : List Byte} {s : State} : Lands (R s) (execMirrorHello bytes s) :=
    by
  unfold execMirrorHello
  have hs := h.refl s
  repeat' (first
    | with_reducible (first
        | apply lands_next | assumption | refine ite_lands (fun _ => ?_) (fun _ => ?_)
        | refine ite_frame (fun _ => ?_) (fun _ => ?_) | refine State.linkFault_frame h ?_
        | refine State.mirrorIn_frame h (fun _ => ?_) ?_ | refine State.modPair_frame h ?_
        | refine State.settle_frame h ?_ | exact h.refl _)
    | extract_lets | split)

theorem execMirrorFramesLost_frame (h : Frame R) {t : Nat} {s0 : State} : Lands (R s0) (execMirrorFramesLost t s0) :=
    by
  unfold execMirrorFramesLost
  have hs := h.refl s0
  repeat' (first
    | with_reducible (first
        | apply lands_next | assumption | refine ite_lands (fun _ => ?_) (fun _ => ?_)
        | refine ite_frame (fun _ => ?_) (fun _ => ?_) | refine h.wrStep ?_ | refine State.atT_frame h ?_
        | refine State.bump_frame h ?_ | refine State.fault_frame h ?_ | refine State.modPair_frame h ?_
        | exact h.refl _)
    | extract_lets)

theorem execMirrorRetrain_frame (h : Frame R) {s : State} : Lands (R s) (execMirrorRetrain s) := by
  unfold execMirrorRetrain
  have hs := h.refl s
  repeat' with_reducible (first
    | apply lands_next | assumption | refine ite_lands (fun _ => ?_) (fun _ => ?_)
    | refine ite_frame (fun _ => ?_) (fun _ => ?_) | refine State.bump_frame h ?_ | refine State.modPair_frame h ?_
    | refine State.settle_frame h ?_ | exact h.refl _)

theorem execMlPresTimeout_frame (h : Frame R) {s : State} : Lands (R s) (execMlPresTimeout s) := by
  unfold execMlPresTimeout
  have hs := h.refl s
  repeat' with_reducible (first
    | apply lands_next | assumption | refine ite_lands (fun _ => ?_) (fun _ => ?_)
    | refine ite_frame (fun _ => ?_) (fun _ => ?_) | refine State.atT_frame h ?_ | refine State.linkFault_frame h ?_
    | refine State.settle_frame h ?_)

theorem execMirrorRepeat_frame (h : Frame R) {t : Nat} {s0 : State} : Lands (R s0) (execMirrorRepeat t s0) := by
  unfold execMirrorRepeat
  have hs := h.refl s0
  repeat' (first
    | with_reducible (first
        | apply lands_next | assumption | refine ite_lands (fun _ => ?_) (fun _ => ?_)
        | refine ite_frame (fun _ => ?_) (fun _ => ?_) | refine State.atT_frame h ?_
        | refine State.mirrorSend_frame h ?_)
    | extract_lets)

theorem State.yieldRole_frame (h : Frame R) {r0 : State} {data : Int} {s : State} (hs : R r0 s) : R r0
    (State.yieldRole data s) := by
  unfold State.yieldRole
  repeat' with_reducible (first
    | assumption | refine State.fault_frame h ?_ | refine State.releaseRole_frame h ?_)

theorem State.notePres_frame (h : Frame R) {r0 : State} {level : Bool} {s : State} (hs : R r0 s) : R r0
    (State.notePres level s) := by
  unfold State.notePres
  repeat' with_reducible (first
    | assumption | refine ite_frame (fun _ => ?_) (fun _ => ?_) | refine State.modPair_frame h ?_ | exact h.refl _)

theorem execRolePartnerChange_frame (h : Frame R) {pads : PairPads} {t : Nat} {s0 : State} : Lands (R s0)
    (execRolePartnerChange pads t s0) := by
  unfold execRolePartnerChange
  have hs := h.refl s0
  repeat' (first
    | with_reducible (first
        | apply lands_next | assumption | refine ite_lands (fun _ => ?_) (fun _ => ?_)
        | refine ite_frame (fun _ => ?_) (fun _ => ?_) | refine State.atT_frame h ?_ | refine State.modPair_frame h ?_
        | refine State.notePres_frame h ?_ | refine State.settle_frame h ?_ | refine State.yieldRole_frame h ?_
        | exact h.refl _)
    | extract_lets)

theorem execSideAPartnerHigh2us_frame (h : Frame R) {t : Nat} {s0 : State} : Lands (R s0) (execSideAPartnerHigh2us t
    s0) := by
  unfold execSideAPartnerHigh2us
  have hs := h.refl s0
  repeat' (first
    | with_reducible (first
        | apply lands_next | assumption | refine ite_lands (fun _ => ?_) (fun _ => ?_)
        | refine ite_frame (fun _ => ?_) (fun _ => ?_) | refine State.atT_frame h ?_
        | refine State.yieldRole_frame h ?_)
    | extract_lets)

theorem execRoleActGrant_frame (h : Frame R) {t : Nat} {s0 : State} : Lands (R s0) (execRoleActGrant t s0) := by
  unfold execRoleActGrant
  have hs := h.refl s0
  repeat' (first
    | with_reducible (first
        | apply lands_next | assumption | refine ite_lands (fun _ => ?_) (fun _ => ?_)
        | refine ite_frame (fun _ => ?_) (fun _ => ?_) | refine h.wrStep ?_ | refine State.atT_frame h ?_
        | refine State.bump_frame h ?_ | refine State.drew_frame h ?_ | refine State.fault_frame h ?_
        | refine State.handover_frame h ?_ | refine State.modPair_frame h ?_ | exact h.refl _)
    | extract_lets | split)

theorem execPrBWaitExpiry_frame (h : Frame R) {s : State} : Lands (R s) (execPrBWaitExpiry s) := by
  unfold execPrBWaitExpiry
  have hs := h.refl s
  repeat' with_reducible (first
    | apply lands_next | assumption | refine ite_lands (fun _ => ?_) (fun _ => ?_)
    | refine ite_frame (fun _ => ?_) (fun _ => ?_) | refine State.atT_frame h ?_ | refine State.modPair_frame h ?_
    | refine State.settle_frame h ?_ | exact h.refl _)

theorem execPairClockOffset_frame (h : Frame R) {t1 t2 t3 t4 : Int} {s : State} : Lands (R s) (execPairClockOffset t1
    t2 t3 t4 s) := by
  unfold execPairClockOffset
  have hs := h.refl s
  repeat' (first
    | with_reducible (first
        | apply lands_next | assumption | refine ite_lands (fun _ => ?_) (fun _ => ?_)
        | refine ite_frame (fun _ => ?_) (fun _ => ?_) | refine h.wrStep ?_ | refine State.modPair_frame h ?_
        | exact h.refl _)
    | extract_lets)

end Sys2Proof.Machine
end

