-- ==== Sys2Proof/Laws/FrameSecurity.lean ====
section
/-! SUPPORT. What every operation of Machine/Security.lean keeps: the frame lemmas. -/

set_option linter.unreachableTactic false
set_option linter.unusedTactic false

namespace Sys2Proof.Machine

variable {R : State → State → Prop}

theorem execSessionIdleTimeout_frame (h : Frame R) {s : State} : Lands (R s) (execSessionIdleTimeout s) := by
  unfold execSessionIdleTimeout
  have hs := h.refl s
  repeat' (first
    | with_reducible (first
        | apply lands_next | assumption | refine State.atT_frame h ?_ | refine State.endHostSession_frame h ?_
        | refine State.settle_frame h ?_)
    | split)

theorem execLockoutExpiry_frame (h : Frame R) {u : Fin 16} {s : State} : Lands (R s) (execLockoutExpiry u s) := by
  unfold execLockoutExpiry
  have hs := h.refl s
  repeat' (first
    | with_reducible (first
        | apply lands_next | assumption | refine State.atT_frame h ?_ | refine State.setLock_frame h ?_)
    | extract_lets | split)

theorem execTapDataScan_frame (h : Frame R) {tap : Region} {tdi capture : List Bool} {s : State} : Lands (R s)
    (execTapDataScan tap tdi capture s) := by
  unfold execTapDataScan
  have hs := h.refl s
  repeat' (first
    | with_reducible (first
        | apply lands_next | assumption | refine ite_lands (fun _ => ?_) (fun _ => ?_)
        | refine ite_frame (fun _ => ?_) (fun _ => ?_))
    | extract_lets | exact h.trans hs (h.other rfl rfl rfl (Nat.le_refl _) (Nat.le_refl _)))

theorem execDebugMemoryAccess_frame (h : Frame R) {r : Region} {write : Bool} {addr : Nat} {data : Byte} {s : State} :
    Lands (R s) (execDebugMemoryAccess r write addr data s) := by
  unfold execDebugMemoryAccess
  have hs := h.refl s
  repeat' (first
    | with_reducible (first
        | apply lands_next | assumption | refine ite_lands (fun _ => ?_) (fun _ => ?_)
        | refine ite_frame (fun _ => ?_) (fun _ => ?_) | refine State.modSec_frame h (Nat.le_refl _) ?_
        | exact h.refl _)
    | extract_lets | split)

end Sys2Proof.Machine
end

