-- ==== Sys2Proof/Laws/Link.lean ====
section
/-! SUPPORT. A packet that is accepted does what its kind does; what the link level of reception changes (R30, R35, R38). -/

namespace Sys2Proof.Machine

open Sys2Proof

theorem State.peelTake_arrives {r : Region} {k : PktKind} {p : Packet} {s : State} (f : State → State) (h : Arrives r k p s) :
    s.peelTake r k p f = f (s.linked r k p) := by
  obtain ⟨h1, h2, h3, h4, h5, h6⟩ := h
  have e : (s.peelRx r k p).1 = true := by
    unfold State.peelRx
    simp only [h1, h2, Bool.not_true, Bool.or_self, Nat.not_lt.mpr h3, decide_false, Bool.false_eq_true, if_false,
      h4, ne_eq, not_true, h5]
    cases hq : pktSequenced p
    · rfl
    · simp only [Bool.not_true, Bool.false_eq_true, if_false, h6 hq, if_true]
  unfold State.peelTake State.linked
  dsimp only
  rw [if_pos e]

end Sys2Proof.Machine
end

