-- ==== Sys2Proof/Laws/Ready.lean ====
section
/-! SUPPORT. A command that a source has executing and that passes the checks now runs; one that fails a check is refused (R145). -/

namespace Sys2Proof.Machine

open Sys2Proof

theorem State.run_ready {src : Source} {code : Nat} {j : Job} {s : State} (p : Job → Bool) (f : Job → State → State)
    (h : Ready src code j s) (hp : p j = true) : s.run src code p f = (f j s).settle := by
  obtain ⟨h1, h2, h3, h4⟩ := h
  unfold State.run
  rw [h1]
  simp only [h2, h3, hp, Bool.not_true, ne_eq, not_true, Bool.false_eq_true, or_self, if_false]
  rw [h2] at h4
  rw [h4, if_pos rfl]

theorem State.run_refused {src : Source} {code : Nat} {j : Job} {s : State} (p : Job → Bool) (f : Job → State → State)
    (h1 : s.jobOf src = some j) (h2 : j.code = code) (h3 : j.waiting = false) (hp : p j = true)
    (h4 : s.check src j.role j.code j.payload ≠ 0) :
    s.run src code p f = (s.deny src j (s.check src j.role j.code j.payload)).settle := by
  subst h2
  unfold State.run
  rw [h1]
  simp only [h3, hp, Bool.not_true, ne_eq, not_true, Bool.false_eq_true, or_self, if_false, if_neg h4]

end Sys2Proof.Machine
end

