-- ==== Sys2Proof/Laws/Reset.lean ====
section
/-! SUPPORT. What a reset leaves: every register at its default but those kept (R87, R89). -/

namespace Sys2Proof.Machine
open Sys2Proof

/-- The kept objects read as before, every other one at its default. -/
theorem Store.get_keep (m : Store) (a : Nat) :
    m.keep.get a = if a ∈ keptKeys then m.get a else storeDefault a := by
  have : m.keep.find? (fun p => p.1 == a) = if a ∈ keptKeys then m.find? (fun p => p.1 == a) else none := by
    unfold Store.keep
    induction m with
    | nil => simp
    | cons p m ih =>
      by_cases hk : keptKeys.contains p.1 = true
      · rw [List.filter_cons, if_pos hk, List.find?_cons, List.find?_cons, ih]
        by_cases hp : (p.1 == a) = true
        · have : a ∈ keptKeys := by
            have e : p.1 = a := by simpa using hp
            rw [← e]; simpa using hk
          simp only [hp, this, if_true]
        · simp only [hp]
      · rw [List.filter_cons, if_neg hk, ih, List.find?_cons]
        by_cases hp : (p.1 == a) = true
        · have : a ∉ keptKeys := by
            have e : p.1 = a := by simpa using hp
            rw [← e]; simpa using hk
          simp only [this, if_false]
        · simp only [hp]
  unfold Store.get
  rw [this]
  split <;> rename_i h
  · split at h
    · rename_i hm; simp only [hm, if_true, h]
    · cases h
  · split at h
    · rename_i hm; simp only [hm, if_true, h]
    · rename_i hm; simp only [hm, if_false]

theorem State.auditEvent_only (s : State) (a b c d e f : Nat) :
    ∃ q n, s.auditEvent a b c d e f = { s with sec := { s.sec with auditQ := q, auditSeq := n } } := ⟨_, _, rfl⟩

/-- With an enable low every power stage is off (R194). -/
theorem allOff_of_gen {s : State} (h : s.safety.genC = false) : AllOff s := by
  intro n
  unfold State.genN State.pattern State.rank
  simp [h]

/-- Where sessions end only the audit log grows. -/
theorem State.endSessions_only (s : State) :
    ∃ q n, s.endSessions = { s with sec := { s.sec with auditQ := q, auditSeq := n } } := by
  unfold State.endSessions
  have h1 : ∀ x : State, (∃ q n, x = { s with sec := { s.sec with auditQ := q, auditSeq := n } }) → ∀ a b c d e f,
      ∃ q n, x.auditEvent a b c d e f = { s with sec := { s.sec with auditQ := q, auditSeq := n } } := by
    rintro x ⟨q, n, rfl⟩ a b c d e f
    exact ⟨_, _, rfl⟩
  extract_lets s1
  have hs1 : ∃ q n, s1 = { s with sec := { s.sec with auditQ := q, auditSeq := n } } := by
    show ∃ q n, (match s.sec.session with | some x => s.auditEvent 0x0003 0 x.2 x.1 0 3 | none => s) = _
    split
    · exact h1 s ⟨s.sec.auditQ, s.sec.auditSeq, rfl⟩ _ _ _ _ _ _
    · exact ⟨s.sec.auditQ, s.sec.auditSeq, rfl⟩
  have key : ∀ (l : List (Fin 4)) (x : State), (∃ q n, x = { s with sec := { s.sec with auditQ := q, auditSeq := n } }) →
      ∃ q n, forAll l (fun c x =>
        let k := x.net.conns.get c
        if k.open_ && k.tls then x.auditEvent 0x0003 (2 * c.val + 1) k.user k.role 0 3 else x) x
        = { s with sec := { s.sec with auditQ := q, auditSeq := n } } := by
    intro l
    induction l with
    | nil => exact fun x h => h
    | cons a l ih =>
      intro x h
      refine ih _ ?_
      dsimp only
      split
      · exact h1 x h _ _ _ _ _ _
      · exact h
  refine key _ _ ?_
  split
  · exact h1 s1 hs1 _ _ _ _ _ _
  · exact hs1

theorem State.releaseRole_only (s : State) (b : Bool) : ∃ p, s.releaseRole b = { s with pair := p } := by
  unfold State.releaseRole
  split
  · exact ⟨_, rfl⟩
  · exact ⟨s.pair, rfl⟩

/-- After a reset everything but the objects and the boot sequence is as `cold` gives it. -/
theorem State.doReset_cold {β : Type} (f : State → β) (s : State) (c : Nat) (h1 : ∀ x a v, f (State.wr x a v) = f x)
    (h2 : ∀ x g, f (State.modBoot x g) = f x) : f (s.doReset c) = f s.cold := by
  unfold State.doReset
  rw [h2, h1]
  unfold State.bumpOpen
  split <;> rw [h1]

/-- The measured supplies outlive a reset. -/
theorem State.doReset_supplies (s : State) (c : Nat) : (s.doReset c).power.vin = s.power.vin ∧ (s.doReset c).power.vioG = s.power.vioG
    ∧ (s.doReset c).power.vioH = s.power.vioH ∧ (s.doReset c).power.vbat = s.power.vbat := by
  obtain ⟨p, hp⟩ := s.releaseRole_only true
  obtain ⟨q, n, hq⟩ := State.endSessions_only (s.releaseRole true)
  rw [hp] at hq
  have h : (s.doReset c).power = s.cold.power := s.doReset_cold State.power c (fun _ _ _ => rfl) (fun _ _ => rfl)
  rw [h]
  unfold State.cold
  rw [hp]
  dsimp only
  rw [hq]
  exact ⟨rfl, rfl, rfl, rfl⟩

/-- So does the time counter. -/
theorem State.doReset_counter (s : State) (c : Nat) : (s.doReset c).time.counter = s.time.counter := by
  obtain ⟨p, hp⟩ := s.releaseRole_only true
  obtain ⟨q, n, hq⟩ := State.endSessions_only (s.releaseRole true)
  rw [hp] at hq
  have h : (s.doReset c).time = s.cold.time := s.doReset_cold State.time c (fun _ _ _ => rfl) (fun _ _ => rfl)
  rw [h]
  unfold State.cold
  rw [hp]
  dsimp only
  rw [hq]

/-- What a reset leaves. -/
theorem doReset_done (s : State) (c : Nat) : ResetDone c s (s.doReset c) := by
  obtain ⟨p, hp⟩ := s.releaseRole_only true
  have hE := State.endSessions_only (s.releaseRole true)
  obtain ⟨q, n, hq⟩ := hE
  rw [hp] at hq
  have hobjs : s.cold.objs = s.objs.keep.set Obj.bootMs 0xFFFF := by
    unfold State.cold; rw [hp]; dsimp only; rw [hq]
  have hrd : ∀ a, (s.doReset c).rd a = if a = Obj.resetCause then (c : Int) else if a = Obj.resetCount then
      (if s.rd Obj.resetCount < 0xFFFFFFFF then s.rd Obj.resetCount + 1 else Config.counterPast Obj.resetCount)
      else if a = Obj.bootMs then 0xFFFF else if a ∈ keptKeys then s.rd a else storeDefault a := by
    intro a
    have hc : ∀ b, s.cold.rd b = if b = Obj.bootMs then 0xFFFF else if b ∈ keptKeys then s.rd b else storeDefault b := by
      intro b
      unfold State.rd
      rw [hobjs]
      by_cases hb : b = Obj.bootMs
      · subst hb; rw [Store.get_set_same, if_pos rfl]
      · rw [Store.get_set_ne _ _ hb, if_neg hb, Store.get_keep]
    have h2 : s.cold.rd Obj.resetCount = s.rd Obj.resetCount := by
      rw [hc, if_neg (by decide), if_pos (by decide)]
    show ((s.cold.bumpOpen Obj.resetCount).wr Obj.resetCause (c : Int)).rd a = _
    rw [State.rd_wr]
    split
    · rfl
    · unfold State.bumpOpen
      rw [h2]
      split
      · rw [State.rd_wr]
        split
        · rfl
        · exact hc a
      · rw [State.rd_wr]
        split
        · rfl
        · exact hc a
  refine ⟨?_, ?_, ?_, ?_, ?_, ?_, ?_, ?_, ?_, ?_, ?_, ?_, ?_, ?_, ?_, ?_, ?_, ?_, ?_, ?_, ?_, ?_, ?_⟩
  · rw [s.doReset_cold State.mode c (fun _ _ _ => rfl) (fun _ _ => rfl)]; rfl
  · rfl
  · rw [s.doReset_cold (fun x => x.power.resetLow) c (fun _ _ _ => rfl) (fun _ _ => rfl)]; rfl
  · rw [s.doReset_cold (fun x => x.power.pwrgoodLow) c (fun _ _ _ => rfl) (fun _ _ => rfl)]; rfl
  · apply allOff_of_gen
    rw [s.doReset_cold (fun x => x.safety.genC) c (fun _ _ _ => rfl) (fun _ _ => rfl)]; rfl
  · rw [hrd]; rfl
  · intro h; rw [hrd, if_neg (by decide), if_pos rfl, if_pos h]
  · rw [hrd, if_neg (by decide), if_neg (by decide), if_pos rfl]
  · intro a ha h1 h2
    rw [hrd, if_neg h1, if_neg h2, if_neg (fun e => by subst e; revert ha; decide), if_pos ha]
  · intro a ha hb
    rw [hrd, if_neg (fun e => ha (by subst e; decide)), if_neg (fun e => ha (by subst e; decide)), if_neg hb, if_neg ha]
  · rw [s.doReset_cold State.blobs c (fun _ _ _ => rfl) (fun _ _ => rfl)]; rfl
  · rw [s.doReset_cold State.host c (fun _ _ _ => rfl) (fun _ _ => rfl)]; rfl
  · rw [s.doReset_cold State.mb c (fun _ _ _ => rfl) (fun _ _ => rfl)]; rfl
  · rw [s.doReset_cold State.loaf c (fun _ _ _ => rfl) (fun _ _ => rfl)]; rfl
  · rw [s.doReset_cold (fun x => x.flt.pend) c (fun _ _ _ => rfl) (fun _ _ => rfl)]; rfl
  · rw [s.doReset_cold (fun x => x.flt.nvlog) c (fun _ _ _ => rfl) (fun _ _ => rfl)]; unfold State.cold; rw [hp]; dsimp only; rw [hq]
  · rw [s.doReset_cold (fun x => x.safety.sets) c (fun _ _ _ => rfl) (fun _ _ => rfl)]; unfold State.cold; rw [hp]; dsimp only; rw [hq]
  · rw [s.doReset_cold (fun x => x.sec.users) c (fun _ _ _ => rfl) (fun _ _ => rfl)]; unfold State.cold; rw [hp]; dsimp only; rw [hq]
  · rw [s.doReset_cold (fun x => x.sec.image) c (fun _ _ _ => rfl) (fun _ _ => rfl)]; unfold State.cold; rw [hp]; dsimp only; rw [hq]
  · rw [s.doReset_cold (fun x => x.sec.session) c (fun _ _ _ => rfl) (fun _ _ => rfl)]; rfl
  · rw [s.doReset_cold (fun x => x.sec.rollback) c (fun _ _ _ => rfl) (fun _ _ => rfl)]; unfold State.cold; rw [hp]; dsimp only; rw [hq]
  · rw [s.doReset_cold State.pending c (fun _ _ _ => rfl) (fun _ _ => rfl)]; unfold State.cold; rw [hp]; dsimp only; rw [hq]
  · rw [s.doReset_cold State.variant c (fun _ _ _ => rfl) (fun _ _ => rfl)]; unfold State.cold; rw [hp]; dsimp only; rw [hq]

/-- Detecting the class of VIO_G again changes nothing of it. -/
theorem resetDone_redetect {c : Nat} {s t : State} (h : ResetDone c s t) : ResetDone c s t.redetect := by
  unfold ResetDone at h ⊢
  exact h

end Sys2Proof.Machine
end

