-- ==== Sys2Proof/Laws/Writes.lean ====
section
/-! SUPPORT. One object written by a row of its own: the address word and the value words name the object and the value, so
the write is judged and taken as R170 says of them. -/

namespace Sys2Proof.Machine

open Sys2Proof

/-- The values a type holds (R4). -/
def ObjTy.fits : ObjTy → Int → Prop
  | .u8, v => 0 ≤ v ∧ v < 256
  | .i16, v => -32768 ≤ v ∧ v < 32768
  | .u16, v => 0 ≤ v ∧ v < 65536
  | .i32, v => -2147483648 ≤ v ∧ v < 2147483648
  | .u32, v => 0 ≤ v ∧ v < 4294967296
  | .u64, v => 0 ≤ v ∧ v < 18446744073709551616
  | .q16, v => -2147483648 ≤ v ∧ v < 2147483648
  | .blob, _ => False

theorem toNat_ofInt_fit {v : Int} : ((BitVec.ofInt 32 v).toNat : Int) = v % 4294967296 := by
  rw [BitVec.toNat_ofInt]
  have : 0 ≤ v % ((2 ^ 32 : Nat) : Int) := Int.emod_nonneg _ (by decide)
  rw [Int.toNat_of_nonneg this]
  rfl

theorem signExt32 {v : Int} (h : -2147483648 ≤ v ∧ v < 2147483648) : signExt 32 (BitVec.ofInt 32 v).toNat = v := by
  have e := @toNat_ofInt_fit v
  have l := (BitVec.ofInt 32 v).isLt
  generalize (BitVec.ofInt 32 v).toNat = n at e l
  unfold signExt
  dsimp only
  split <;> omega

/-- A value read back from the words it travels in (R147, R148). -/
theorem decode_encode {ty : ObjTy} {v : Int} (h : ty.fits v) : decodeValue ty.code (encodeValue ty.code v) = some v := by
  have e := @toNat_ofInt_fit v
  cases ty <;> unfold ObjTy.fits at h
  · show (if (BitVec.ofInt 32 v).toNat < 2 ^ 8 then some ((BitVec.ofInt 32 v).toNat : Int) else none) = _
    rw [if_pos (by omega), e]
    congr 1
    omega
  · have e1 : signExt 16 (BitVec.ofInt 32 v).toNat = v := by
      generalize (BitVec.ofInt 32 v).toNat = n at e
      unfold signExt
      dsimp only
      split <;> omega
    show (if signExt 32 (BitVec.ofInt 32 v).toNat = signExt 16 (BitVec.ofInt 32 v).toNat then
      some (signExt 16 (BitVec.ofInt 32 v).toNat) else none) = _
    rw [e1, signExt32 (by omega), if_pos rfl]
  · show (if (BitVec.ofInt 32 v).toNat < 2 ^ 16 then some ((BitVec.ofInt 32 v).toNat : Int) else none) = _
    rw [if_pos (by omega), e]
    congr 1
    omega
  · exact congrArg some (signExt32 h)
  · show some ((BitVec.ofInt 32 v).toNat : Int) = _
    rw [e]
    congr 1
    omega
  · show some (((BitVec.ofNat 32 (toBits 32 v)).toNat + 2 ^ 32 * (BitVec.ofNat 32 (toBits 64 v / 2 ^ 32)).toNat : Nat) : Int) = _
    simp only [toBits, BitVec.toNat_ofNat]
    congr 1
    omega
  · exact congrArg some (signExt32 h)
  · exact h.elim

theorem ObjTy.code_lt (ty : ObjTy) : ty.code < 16 := by cases ty <;> decide

/-- Writing `v` to the object at `a`: the words of the write. -/
theorem writeWords_row {a : Nat} {v : Int} {r : ObjRow} (hr : objRow (a / 0x100) (a % 0x100) = some r) :
    writeWords a v = (BitVec.ofNat 32 (a * 256 + r.ty.code), encodeValue r.ty.code v) := by
  unfold writeWords
  rw [hr]

theorem writeWord_fields {a : Nat} {ty : ObjTy} (ha : a < 2 ^ 24) :
    awAddr (BitVec.ofNat 32 (a * 256 + ty.code)) = a ∧ awType (BitVec.ofNat 32 (a * 256 + ty.code)) = ty.code
      ∧ awReserved (BitVec.ofNat 32 (a * 256 + ty.code)) = false ∧ awActive (BitVec.ofNat 32 (a * 256 + ty.code)) = false := by
  have hc := ty.code_lt
  have hn : (BitVec.ofNat 32 (a * 256 + ty.code)).toNat = a * 256 + ty.code := by
    rw [BitVec.toNat_ofNat, Nat.mod_eq_of_lt]
    omega
  refine ⟨?_, ?_, ?_, ?_⟩
  · unfold awAddr; rw [hn]; omega
  · unfold awType; rw [hn]; omega
  · unfold awReserved; rw [hn]
    have : (a * 256 + ty.code) / 32 % 8 = 0 := by omega
    rw [this]; rfl
  · unfold awActive
    rw [BitVec.getLsbD, hn, Nat.testBit_eq_decide_div_mod_eq]
    have : (a * 256 + ty.code) / 2 ^ 4 % 2 = 0 := by omega
    rw [this]; rfl

/-- The reason of a write of `v` to the object at `a` is that of its row (R170). -/
theorem judge_row (s : State) {a : Nat} {v : Int} {r : ObjRow} (ha : a < 2 ^ 24) (hs : a % 0x100 ≠ 0)
    (hr : objRow (a / 0x100) (a % 0x100) = some r) (hv : r.ty.fits v) :
    s.judge (writeWords a v).1 (writeWords a v).2 = s.reasonFor r (a / 0x100) (a % 0x100) false (some v) := by
  have hw := @writeWord_fields a r.ty ha
  have hb : r.ty ≠ .blob := by intro e; rw [e] at hv; exact hv
  rw [writeWords_row hr]
  unfold State.judge
  simp only [hw.1, hw.2.1, hw.2.2.1, hw.2.2.2, hr, decode_encode hv]
  simp [hs, hb]

/-- A write of `v` to the object at `a` that R170 lets pass is taken as its row says. -/
theorem writeObj_row (s : State) (src : Source) {a : Nat} {v : Int} {r : ObjRow} (ha : a < 2 ^ 24) (hs : a % 0x100 ≠ 0)
    (hr : objRow (a / 0x100) (a % 0x100) = some r) (hv : r.ty.fits v)
    (hj : s.reasonFor r (a / 0x100) (a % 0x100) false (some v) = 0) :
    s.writeObj src (writeWords a v).1 (writeWords a v).2 = (s.takeWrite src r (a / 0x100) (a % 0x100) v).sends src a v := by
  have hw := @writeWord_fields a r.ty ha
  have hj' := (judge_row s ha hs hr hv).trans hj
  unfold State.writeObj State.sends
  simp only [hj', ne_eq, not_true, if_false]
  rw [writeWords_row hr]
  simp only [hw.1, hw.2.1, hr, decode_encode hv]

/-- One write of a command, where the object is no `OPEN_CMP`. -/
theorem writeAll_one (s : State) (src : Source) (w : Word × List Word)
    (ho : ∀ n : Fin 4, awAddr w.1 / 0x100 ≠ 0x2003 + 0x100 * n.val) : s.writeAll src [w] = s.writeObj src w.1 w.2 := by
  unfold State.writeAll State.writeFold State.writeFold State.writeFold.s4
  have : s.loaves.filter (fun n => s.touchesOpen n w.1 w.2) = [] := by
    refine List.filter_eq_nil_iff.mpr (fun n _ => ?_)
    unfold State.touchesOpen
    simp [ho n]
  simp only [this, List.append_nil, List.dedup_nil]
  rfl

/-- A write of an object of region M sends no packet. -/
theorem State.sends_m {src : Source} {a : Nat} {v : Int} {s : State} {r : ObjRow} (ha : a < 2 ^ 24)
    (hr : objRow (a / 0x100) (a % 0x100) = some r) (hc : regionC (a / 0x100) = false) : s.sends src a v = s := by
  unfold State.sends State.carryWrite
  rw [writeWords_row hr]
  dsimp only
  rw [(@writeWord_fields a r.ty ha).1, hc]
  rfl

/-- What a write's packet leaves alone: the packets on their way are all it changes. -/
theorem State.sends_eq (src : Source) (a : Nat) (v : Int) (s : State) :
    ∃ (l : List (Byte × List Byte)) (w : List (Nat × Packet × Nat)),
      s.sends src a v = { s with cmd := { s.cmd with carried := l }, peelM := { s.peelM with waiting := w } } := by
  unfold State.sends State.carryWrite State.carry State.enqueue
  split
  · exact ⟨_, _, rfl⟩
  · exact ⟨_, _, rfl⟩

/-- A row's write that is taken, with what follows. -/
theorem hostWrite_row {s : State} (src : Source) {a : Nat} {v : Int} {r : ObjRow} (hk : s.askard = true) (hm : s.mode ≠ .boot)
    (ha : a < 2 ^ 24) (hs : a % 0x100 ≠ 0) (hr : objRow (a / 0x100) (a % 0x100) = some r) (hv : r.ty.fits v)
    (ho : ∀ n : Fin 4, a / 0x100 ≠ 0x2003 + 0x100 * n.val)
    (hj : s.reasonFor r (a / 0x100) (a % 0x100) false (some v) = 0) :
    s.hostWrite src a v = ((s.takeWrite src r (a / 0x100) (a % 0x100) v).sends src a v).settle := by
  unfold State.hostWrite State.hostWrites
  rw [if_pos ⟨hk, hm⟩, writeAll_one, writeObj_row s src ha hs hr hv hj]
  rw [writeWords_row hr]
  dsimp only
  rw [(@writeWord_fields a r.ty ha).1]
  exact ho

/-- The same in the words of Safety.lean, for a row whose limits its type holds. -/
theorem hostWrite_taken {s : State} (src : Source) {a : Nat} {v : Int} {r : ObjRow} (h : Taken a v s) (ha : a < 2 ^ 24)
    (hs : a % 0x100 ≠ 0) (hr : objRow (a / 0x100) (a % 0x100) = some r) (hv : r.min ≤ v → v ≤ r.max → r.ty.fits v)
    (ho : ∀ n : Fin 4, a / 0x100 ≠ 0x2003 + 0x100 * n.val) :
    s.hostWrite src a v = ((s.takeWrite src r (a / 0x100) (a % 0x100) v).sends src a v).settle := by
  obtain ⟨hk, hm, ⟨r', hr', h1, h2⟩, hj⟩ := h
  have e : r' = r := Option.some.inj (hr'.symm.trans hr)
  subst e
  have hf := hv h1 h2
  exact hostWrite_row src hk hm ha hs hr hf ho ((judge_row s ha hs hr hf).symm.trans hj)

end Sys2Proof.Machine
end

