-- ==== Sys2Proof/Tests/Slice0.lean ====
section
/-! SUPPORT. The model's own tests: ill-formed commands refused, a state and operands that meet the hypotheses of every
clause of every statement, and a few single steps whose results the rules give. -/

namespace Sys2Proof.Tests

-- One theorem after the other: each holds a large evaluation.
set_option Elab.async false

open Sys2Proof Sys2Proof.Machine

/-! ## States and operands -/

/-- A module in READY: booted, both dies up, Peel trained, references ready. -/
def on : State := (State.reset.modBoot (fun b => { b with
  stage := .askard, pllLocked := true, peelTrained := true, hbSeen := true, loading := true, imageDone := true, bindDone := true,
  readDone := true, readOk := true })).modPower (fun p => { p with refReady := Six.all true }) |> fun s => { s with mode := .ready }
/-- A state with its module state, and one with its boot stage, replaced. -/
def inMode (m : ModState) (s : State) : State := { s with mode := m }
def atStage (b : BootStage) : State := on.modBoot (fun x => { x with stage := b })
/-- A job, and a state that has it executing. -/
def jb (code : Nat) (ws : List Word) : Job := ⟨code, 7, ws, 5, false, 0⟩
def jbAs (role code : Nat) (ws : List Word) : Job := ⟨code, 7, ws, role, false, 0⟩
def jbWaits (code : Nat) : Job := ⟨code, 7, [], 5, true, 0⟩
def having (src : Source) (j : Job) (s : State) : State := s.setJob src (some j)
/-- Loaf 0 with its currents, voltage and angle assigned, bound to group 0, its gate enables high. -/
def drive : State := (on.wrs [(Obj.chRole 0 0, 1), (Obj.chRole 0 1, 2), (Obj.chRole 0 2, 7), (Obj.udcLoaf 0, 0), (Obj.grpLoaves 0, 1),
  (Obj.posCh 0, 0), (Obj.fbMode 0, 3), (Obj.starter 0, 0)]).modSafety (fun f => { f with genC := true, genM := true })
/-- A loaf, a group in a state. -/
def loafIn (st : LoafState) (s : State) : State := s.modLoaf 0 (fun l => { l with st := st })
def grpIn (st : GroupState) (s : State) : State := s.modGrp 0 (fun g => { g with st := st })
/-- A pending fault. -/
def pd (code inst : Half) : Pend := ⟨code, inst, .c3, 2, true, none, false, 1, 0, 0⟩
def pdOpen (code inst : Half) (e : Nat) : Pend := { pd code inst with window := some e }
def pending (l : List Pend) (s : State) : State := s.modFlt (fun f => { f with pend := l })
def full (s : State) : State := s.modFlt (fun f => { f with inj := [⟨1, 0, false, 0⟩, ⟨1, 1, false, 0⟩, ⟨1, 2, false, 0⟩, ⟨1, 3, false, 0⟩] })
/-- A sealed packet, one of the fault exchange, one whose CRC is wrong. -/
def pk (k : PktKind) (payload : List Byte) : Packet := pktSeal (pkt k payload)
def pkFault (code inst action : Nat) : Packet := pk .fault (leBytes 2 code ++ leBytes 2 inst ++ leBytes 1 action)
def pkBad : Packet := { pk .event [1] with crc := (pk .event [1]).crc + 1 }
/-- The row of an object. -/
def row (a : Nat) : ObjRow := (objRow (a / 0x100) (a % 0x100)).getD ⟨0, 0, 0, .u8, .ro, .none, 0, 0, 0⟩
/-- Frames of the host port: a write of one word, a read of one word. -/
def wrHead : List Byte := [0x02, 0, 0, 1, 1, 2, 3, 4]
def wrFrame : List Byte := wrHead ++ [crc8 wrHead]
def rdHead : List Byte := [0x0B, 0, 0, 1]
def rdFrame : List Byte := rdHead ++ [crc8 rdHead]
/-- A mirror frame of a type, all else 0, with its CRC. -/
def mf (typ : Byte) : List Byte :=
  let b : List Byte := typ :: List.replicate 127 0
  b ++ leBytes 2 (crc16 b).toNat
/-- A module of side A, or side B, whose pair link is trained. -/
def sideS (w : BitVec 12) : State := (on.modPower (fun p => { p with swReset := w })).modPair (fun p => { p with trained := true })
def sideA : State := sideS 4
def sideB : State := sideS 8
/-- A safety parameter image of set 0. -/
def setImage : List Byte := (List.range 128).map (fun i => if i = 0 then 1 else if i = 24 then 20 else if i = 32 then 10 else 0)
/-- A configuration image that holds no write. -/
def img (version : Nat) : ConfigImage := ⟨version, none, [], [], [], 0⟩
def jobCmd (s : State) (f : CmdSt → CmdSt) : State := s.modCmd f
def frame64 : EthFrame := ⟨1, 2, 64, true, 0, none, false, false, false, 0, 0, 0⟩
def eg (high : Bool) : EgressFrame :=
  { len := 64, high := high, corr := 0, ptp := none, stampIn := 0, ingress := 0, twoStep := false, ptpId := 0, ptpSeq := 0,
    udp := false, noSum := false }
def ports : State := on.modNet (fun n => { n with up := [true, true] })
/-- A selected master heard on port 0. -/
def ptp : State := (on.wr Obj.ptpEn 1).modNet (fun n => { n with master := some 1, foreign := [⟨1, 0, [], 0, 0, 0, 0⟩] })
/-- The head of a message of that master in the module's domain and transport. -/
def hd (version seq : Nat) : PtpHead :=
  { domain := on.rdN Obj.ptpDomain, udp := decide (on.rd Obj.ptpTransport = 1), version := version, src := (1, 0), seq := seq,
    req := ownPort 0 }
def run (owner : Nat) (wait : Bool) : PpRun :=
  { owner := owner, dev := 0, sel := 0, mode := 0, nbits := 8, order := 0, div := 1, lead := 0, lag := 0, wait := wait,
    prdyTo := 1, tx := [], rest := [] }
def running (r : PpRun) : State := on.modPp (fun p => { p with run := some r })
def ann (version : Nat) : Announce := ⟨0, hd version 0, 0, 1, 1, 1, 1, 1, 5, 0⟩
/-- A HELLO frame that matches a module's own, from the other side. -/
def helloTo (side : Byte) (s : State) : List Byte :=
  let b : List Byte := [1, 0, side] ++ (s.helloFrame.drop 3).take 125
  b ++ leBytes 2 (crc16 b).toNat
/-- A connection with its session open and a command waiting on it. -/
def talking (s : State) : State := s.modConn 3 (fun k => { k with open_ := true, tls := true, role := 5, queue := [[0x00010000]] })
def calJob (full : Bool) (expected : Int) (count : Nat) (sum : Int) : CalJob := ⟨.mb 1, 0, 0, full, expected, 0, count, sum, 0⟩
def calOn (c : CalJob) : State := on.modCmd (fun x => { x with cals := [c] })

/-- The write of a value is taken, as a check that can be evaluated. -/
def takenOk (a : Nat) (v : Int) (s : State) : Bool :=
  s.askard && decide (s.mode ≠ .boot) && (match objRow (a / 0x100) (a % 0x100) with
    | some r => decide (r.min ≤ v ∧ v ≤ r.max)
    | none => false) && s.judge (writeWords a v).1 (writeWords a v).2 == 0
theorem taken_of {a : Nat} {v : Int} {s : State} (h : takenOk a v s = true) : Taken a v s := by
  simp only [takenOk, Bool.and_eq_true, decide_eq_true_eq, beq_iff_eq] at h
  obtain ⟨⟨⟨h1, h2⟩, h3⟩, h4⟩ := h
  refine ⟨h1, h2, ?_, h4⟩
  split at h3
  · next r hr => exact ⟨r, hr, by simpa using h3⟩
  · cases h3
theorem ready_of {src : Source} {code : Nat} {j : Job} {s : State}
    (h : (decide (s.jobOf src = some j ∧ j.code = code ∧ j.waiting = false) && s.check src j.role j.code j.payload == 0) = true) :
    Ready src code j s := by
  simp only [Bool.and_eq_true, decide_eq_true_eq, beq_iff_eq] at h
  exact ⟨h.1.1, h.1.2.1, h.1.2.2, h.2⟩
theorem sealed_sound {b : List Byte} (hb : b.length = 128) :
    (b ++ leBytes 2 (crc16 b).toNat).length = 130 ∧
      leAt (b ++ leBytes 2 (crc16 b).toNat) 128 2 = (crc16 ((b ++ leBytes 2 (crc16 b).toNat).take 128)).toNat := by
  have hc := (crc16 b).isLt
  refine ⟨by simp [hb, leBytes], ?_⟩
  rw [List.take_append_of_le_length (by omega), List.take_of_length_le (by omega)]
  simp [leAt, slice, leBytes, leNat, List.range_succ, hb]
  omega
theorem mf_sound (typ : Byte) : (mf typ).length = 130 ∧ leAt (mf typ) 128 2 = (crc16 ((mf typ).take 128)).toNat :=
  sealed_sound (by simp)
theorem hello_length (s : State) : s.helloFrame.length = 130 := by simp [State.helloFrame, leBytes]
theorem crc_pair (s : State) (f : PairSt → PairSt) : (s.modPair f).prCfgCrc = s.prCfgCrc := by
  have h1 : (s.modPair f).prGroup = s.prGroup := rfl
  have h2 : ∀ g, (s.modPair f).bound g = s.bound g := fun _ => rfl
  have h3 : ∀ t lo n b, (s.modPair f).cfgBytes t lo n b = s.cfgBytes t lo n b := fun _ _ _ _ => rfl
  have h4 : ∀ g, (s.modPair f).bankOfGroup g = s.bankOfGroup g := fun _ => rfl
  simp only [State.prCfgCrc, h1, h2, h3, h4, State.modPair_rd]
theorem hello_pair (s : State) (f : PairSt → PairSt) :
    ((s.modPair f).helloFrame.drop 3).take 125 = (s.helloFrame.drop 3).take 125 := by
  have h1 : (s.modPair f).prGroup = s.prGroup := rfl
  have h2 : ∀ g, (s.modPair f).bound g = s.bound g := fun _ => rfl
  have h3 : ∀ a, (s.modPair f).rdN a = s.rdN a := fun _ => rfl
  simp [State.helloFrame, leBytes, h1, h2, h3, crc_pair]
theorem helloTo_sound (side : Byte) (s : State) :
    (helloTo side s).length = 130 ∧ leAt (helloTo side s) 128 2 = (crc16 ((helloTo side s).take 128)).toNat :=
  sealed_sound (by simp [hello_length])
theorem helloTo_matches {s y : State} (h : (y.helloFrame.drop 3).take 125 = (s.helloFrame.drop 3).take 125) (hs : y.prSide = 2) :
    y.helloFault (helloTo 1 s) = none := by
  have h2 : leAt (helloTo 1 s) 2 1 = 1 := by simp [helloTo, leAt, slice, leNat]
  have h3 : ((List.range 128).drop 3).find? (fun i => (helloTo 1 s).getD i 0 != y.helloFrame.getD i 0) = none := by
    rw [List.find?_eq_none]
    intro i hi
    simp only [List.mem_iff_getElem, List.length_drop, List.length_range, List.getElem_drop, List.getElem_range] at hi
    obtain ⟨k, hk, rfl⟩ := hi
    have hk' : k < 125 := by omega
    have e1 : y.helloFrame.getD (3 + k) 0 = ((y.helloFrame.drop 3).take 125).getD k 0 := by
      simp [List.getD_eq_getElem?_getD, hk']
    have e2 : (helloTo 1 s).getD (3 + k) 0 = ((s.helloFrame.drop 3).take 125).getD k 0 := by
      have hl := hello_length s
      simp only [helloTo, List.getD_eq_getElem?_getD]
      rw [List.getElem?_append_left (by simp [hl]; omega), List.getElem?_append_right (by simp)]
      simp
    rw [e1, e2, h]; simp
  unfold State.helloFault
  simp only [h2, hs, h3]
  decide
/-- A module whose every set is accepted and bound to it. -/
def boundTo (s : State) : State := s.modSafety (fun f => { f with
  sets := Quad.all { state := 2, bind := (s.bindingCrc [] s.setSel.val).toNat } })
theorem boundTo_bound (s : State) : ((boundTo s).safety.sets.get (boundTo s).setSel).state = 2 ∧
    ((boundTo s).safety.sets.get (boundTo s).setSel).bind
      = ((boundTo s).bindingCrc ((boundTo s).safety.sets.get (boundTo s).setSel).image (boundTo s).setSel.val).toNat := by
  have hg : ∀ i, (boundTo s).safety.sets.get i = { state := 2, bind := (s.bindingCrc [] s.setSel.val).toNat } := by
    intro i; fin_cases i <;> rfl
  rw [hg]; exact ⟨rfl, rfl⟩

/-- Operands and states that meet the hypotheses of `ResetsReturnToDefaults`, clause by clause. -/
theorem witness_ResetsReturnToDefaults :
    (∃ vin : Int, ∃ vioG : Int, ∃ vioH : Int, ∃ s : State, s.power.inRange = false ∧ 9500 < vin ∧ vin < 33000 ∧ 3000 < vioG ∧
      vioG < 5700 ∧ 3000 < vioH ∧ vioH < 3700 ∧ s.boot.holdup = false ∧ s.boot.stage ≠ .inReset) ∧
    (∃ vin : Int, ∃ vioG : Int, ∃ vioH : Int, ∃ s : State, s.power.inRange = false ∧ 9500 < vin ∧ vin < 33000 ∧ 3000 < vioG ∧
      vioG < 5700 ∧ 3000 < vioH ∧ vioH < 3700 ∧ s.boot.holdup = false ∧ s.boot.stage = .inReset) ∧
    (∃ s : State, s.boot.holdup = true) ∧
    (∃ s : State, s.boot.holdup = true) ∧
    (∃ lowNs : Nat, ∃ s : State, 10000 ≤ lowNs ∧ s.boot.holdup = false ∧ (s.boot.stage ≠ .off ∨ (9500 < s.power.vin ∧
      s.power.vin < 33000))) ∧
    (∃ lowNs : Nat, lowNs < 1000) ∧
    (∃ s : State, s.boot.holdup = true) ∧
    (∃ s : State, (s.boot.wdtHit = true ∨ s.boot.mgtHit = true) ∧ s.boot.holdup = false) ∧
    (∃ vin : Int, ∃ s : State, s.boot.holdup = true ∧ 9500 < vin ∧ vin < 33000) ∧
    (∃ s : State, s.boot.stage = .off ∧ s.power.standbyLost = false ∧ s.rd Obj.wakeAlarmS ≠ 0 ∧ 9500 < s.power.vin ∧
      s.power.vin < 33000 ∧ s.rdN Obj.wakeAlarmS = (s.time.counter + 1).floor.toNat % 2 ^ 32) ∧
    (∃ s : State, s.boot.stage = .off ∧ s.power.standbyLost = false ∧
      (s.rd Obj.wakeAlarmS = 0 ∨ s.rdN Obj.wakeAlarmS ≠ (s.time.counter + 1).floor.toNat % 2 ^ 32)) :=
  ⟨⟨9501, 3001, 3001, on.modPower (fun p => { p with vin := 0 }), by decide +kernel⟩,
   ⟨32999, 5699, 3699, State.reset.modPower (fun p => { p with vin := 0 }), by decide +kernel⟩,
   ⟨on.modBoot (fun b => { b with holdup := true }), by decide +kernel⟩,
   ⟨on.modBoot (fun b => { b with holdup := true }), by decide +kernel⟩,
   ⟨10000, on, by decide +kernel⟩,
   ⟨999, by decide +kernel⟩,
   ⟨on.modBoot (fun b => { b with holdup := true }), by decide +kernel⟩,
   ⟨on.modBoot (fun b => { b with wdtHit := true }), by decide +kernel⟩,
   ⟨9501, on.modBoot (fun b => { b with holdup := true }), by decide +kernel⟩,
   ⟨(atStage .off).wr Obj.wakeAlarmS 1, by decide +kernel⟩,
   ⟨atStage .off, by decide +kernel⟩⟩

/-- Operands and states that meet the hypotheses of `BootStepsInOrder`, clause by clause. -/
theorem witness_BootStepsInOrder :
    (∃ s : State, ∃ c : Nat, s.boot.stage = .inReset ∧ s.power.inRange = true ∧
      c = (if s.boot.classDue then vioClass s.power.vioG else s.power.vioGClass) ∧ c ≠ 2) ∧
    (∃ s : State, ∃ c : Nat, s.boot.stage = .inReset ∧ s.power.inRange = true ∧
      c = (if s.boot.classDue then vioClass s.power.vioG else s.power.vioGClass) ∧ c = 2) ∧
    (∃ s : State, s.boot.stage = .released) ∧
    (∃ a : Bool, ∃ b : Bool, ∃ s : State, s.boot.stage = .switchesRead ∧
      (if s.sec.preferB then s.slotBoots s.sec.slotB b else s.slotBoots s.sec.slotA a) = true) ∧
    (∃ k : Bool, ∃ a : Bool, ∃ b : Bool, ∃ s : State, s.boot.stage = .switchesRead ∧ (k = false ∨ (a = false ∧ b = false))) ∧
    (∃ s : State, s.boot.stage = .secured ∧ s.power.standbyLost = false) ∧
    (∃ s : State, s.boot.stage = .askard ∧ s.boot.pllLocked = false) ∧
    (∃ s : State, s.boot.pllLocked = true ∧ s.boot.peelTrained = false) ∧
    (∃ s : State, s.boot.stage = .askard ∧ s.boot.peelTrained = false) :=
  ⟨⟨State.reset.modPower (fun p => { p with vioG := 3300 }) |>.modBoot (fun b => { b with classDue := true }), vioClass 3300,
    by decide +kernel⟩,
   ⟨(State.reset.modPower (fun p => { p with vioGClass := 2 })).modBoot (fun b => { b with classDue := false }), 2,
    by decide +kernel⟩,
   ⟨atStage .released, by decide +kernel⟩,
   ⟨true, true, atStage .switchesRead, by decide +kernel⟩,
   ⟨false, true, true, atStage .switchesRead, by decide +kernel⟩,
   ⟨atStage .secured, by decide +kernel⟩,
   ⟨on.modBoot (fun b => { b with pllLocked := false }), by decide +kernel⟩,
   ⟨on.modBoot (fun b => { b with peelTrained := false }), by decide +kernel⟩,
   ⟨on.modBoot (fun b => { b with peelTrained := false }), by decide +kernel⟩⟩

/-- Operands and states that meet the hypotheses of `ConfigurationLoads`, clause by clause. -/
theorem witness_ConfigurationLoads :
    (∃ s : State, s.boot.stage = .askard ∧ s.boot.loading = false ∧ s.mode = .boot ∧ s.sec.image ≠ none) ∧
    (∃ s : State, s.boot.stage = .askard ∧ s.boot.loading = false ∧ s.mode = .boot ∧ s.sec.image = none) ∧
    (∃ s : State, s.boot.stage = .askard ∧ s.boot.loading = false) ∧
    (∃ img : ConfigImage, ∃ s : State, s.sec.image = some img ∧ s.boot.stage = .askard ∧ s.boot.loading = true ∧
      s.boot.imageDone = false) ∧
    (∃ s : State, s.boot.stage = .askard ∧ s.boot.loading = true ∧ s.boot.bindDone = false ∧
      (s.safety.sets.get s.setSel).state = 2 ∧
      (s.safety.sets.get s.setSel).bind = (s.bindingCrc (s.safety.sets.get s.setSel).image s.setSel.val).toNat) ∧
    (∃ s : State, s.boot.stage = .askard ∧ s.boot.loading = true ∧ s.boot.bindDone = false ∧
      ((s.safety.sets.get s.setSel).state ≠ 2 ∨ (s.safety.sets.get s.setSel).bind ≠ (s.bindingCrc (s.safety.sets.get s.setSel).image s.setSel.val).toNat)) ∧
    (∃ n : Fin 4, ∃ s : State, s.safety.governs = some n ∧ s.boot.peelTrained = true ∧ s.boot.readDone = false) :=
  ⟨⟨inMode .boot ((on.modBoot (fun b => { b with loading := false })).modSec (fun x => { x with image := some (img 1) })),
    by decide +kernel⟩,
   ⟨inMode .boot (on.modBoot (fun b => { b with loading := false })), by decide +kernel⟩,
   ⟨on.modBoot (fun b => { b with loading := false }), by decide +kernel⟩,
   ⟨img 1, (on.modBoot (fun b => { b with imageDone := false })).modSec (fun x => { x with image := some (img 1) }),
    by decide +kernel⟩,
   ⟨boundTo (on.modBoot (fun b => { b with bindDone := false })), ⟨by decide +kernel, by decide +kernel, by decide +kernel,
    boundTo_bound _⟩⟩,
   ⟨on.modBoot (fun b => { b with bindDone := false }), by decide +kernel⟩,
   ⟨0, (on.modBoot (fun b => { b with readDone := false })).modSafety (fun f => { f with governs := some 0 }), by decide +kernel⟩⟩

/-- Operands and states that meet the hypotheses of `ReferencesAndClocks`, clause by clause. -/
theorem witness_ReferencesAndClocks :
    (∃ k : Fin 6, ∃ s : State, s.boot.pllLocked = true ∧ s.hasConv k.val = true ∧ s.power.ckAdcBad = false ∧
      s.power.refFailed.get k = false) ∧
    (∃ k : Fin 6, ∃ s : State, s.boot.pllLocked = true ∧ s.hasConv k.val = true ∧ s.power.ckAdcBad = false ∧
      s.power.refFailed.get k = true) ∧
    (∃ k : Fin 6, ∃ s : State, s.boot.pllLocked = true ∧ s.hasConv k.val = true ∧ s.power.refReady.get k = false ∧
      s.power.refLostT.get k = none) ∧
    (∃ k : Fin 6, ∃ s : State, s.boot.pllLocked = true ∧ s.hasConv k.val = true ∧ s.power.refReady.get k = true) ∧
    (∃ s : State, s.boot.pllLocked = true ∧ (s.power.ckAdcBad = false ∨ s.power.ckAdcBack = true)) ∧
    (∃ s : State, s.power.ckAdcBad = true) ∧
    (∃ s : State, s.boot.pllLocked = true ∧ s.power.ckCtlBad = false) ∧
    (∃ s : State, s.boot.pllLocked = true) ∧
    (∃ hz : Nat, ∃ s : State, s.boot.pllLocked = true ∧ 15200000 ≤ hz ∧ hz ≤ 16800000) ∧
    (∃ hz : Nat, ∃ s : State, s.boot.pllLocked = true ∧ (hz < 15200000 ∨ 16800000 < hz) ∧ s.power.ckSafeBad = false) ∧
    (∃ s : State, s.boot.stage ≠ .off ∧ s.boot.stage ≠ .inReset ∧ s.boot.mgtHit = false) ∧
    (∃ s : State, s.boot.stage = .askard ∧ s.boot.wdtHit = false ∧ s.rd Obj.wdtCount < 0xFFFFFFFF) ∧
    (∃ s : State, s.boot.stage ≠ .off ∧ s.boot.stage ≠ .inReset ∧
      (s.power.standbyClkBad = false ∨ s.isPending 0xDC01 0 = false)) ∧
    (∃ s : State, s.power.standbyClkBad = true) ∧
    (∃ s : State, s.boot.stage = .askard ∧ s.time.lv0.st = .locked ∧ (∀ t0,
      s.time.reloadT = some t0 → t0 + 60000 * msCycles ≤ s.time.now)) ∧
    (∃ s : State, ∃ t0 : Nat, s.time.reloadT = some t0 ∧ s.time.now < t0 + 60000 * msCycles) :=
  ⟨⟨5, on, by decide +kernel⟩,
   ⟨5, on.modPower (fun p => { p with refFailed := Six.all true }), by decide +kernel⟩,
   ⟨5, on.modPower (fun p => { p with refReady := Six.all false }), by decide +kernel⟩,
   ⟨5, on, by decide +kernel⟩,
   ⟨on.modPower (fun p => { p with ckAdcBad := true, ckAdcBack := true }), by decide +kernel⟩,
   ⟨on.modPower (fun p => { p with ckAdcBad := true }), by decide +kernel⟩,
   ⟨on, by decide +kernel⟩,
   ⟨on, by decide +kernel⟩,
   ⟨15200000, on, by decide +kernel⟩,
   ⟨15199999, on, by decide +kernel⟩,
   ⟨on, by decide +kernel⟩,
   ⟨on, by decide +kernel⟩,
   ⟨on.modPower (fun p => { p with standbyClkBad := true }), by decide +kernel⟩,
   ⟨on.modPower (fun p => { p with standbyClkBad := true }), by decide +kernel⟩,
   ⟨on.modTime (fun t => { t with lv0 := { st := .locked } }), ⟨by decide +kernel, by decide +kernel, fun t0 h => nomatch h⟩⟩,
   ⟨on.modTime (fun t => { t with reloadT := some 1, now := 12000000000 }), 1, by decide +kernel⟩⟩

/-- Operands and states that meet the hypotheses of `SuppliesAndInputs`, clause by clause. -/
theorem witness_SuppliesAndInputs :
    (∃ mv : Int, ∃ s : State, mv < 9000 ∧ s.boot.stage ≠ .off ∧ s.boot.stage ≠ .inReset ∧ s.boot.holdup = false) ∧
    (∃ mv : Int, 9000 ≤ mv) ∧
    (∃ mv : Int, ∃ s : State, mv < 9000 ∧ s.boot.stage = .off) ∧
    (∃ m : Monitor, ∃ v : Int, ∃ s : State, s.boot.stage ≠ .off ∧ s.boot.stage ≠ .inReset ∧
      monBeyond m s.power.vioGClass v = true ∧ m ∉ s.power.asserted) ∧
    (∃ m : Monitor, ∃ v : Int, ∃ s : State, s.boot.stage ≠ .off ∧ s.boot.stage ≠ .inReset ∧ m ∈ s.power.asserted ∧
      monInside m s.power.vioGClass v = true) ∧
    (∃ p : PowerSt, p.vinUnderNow = false ∧ (∀ m ∈ p.asserted, m = .vbatLow) ∧ p.allInside = true) ∧
    (∃ p : PowerSt, p.vinUnderNow = false ∧ (∀ m ∈ p.asserted, m = .vbatLow) ∧ p.allInside = false) ∧
    (∃ v : Int, ∃ s : State, s.boot.pllLocked = true ∧ -32768 ≤ v ∧ v ≤ 32767) ∧
    (∃ v : Int, ∃ s : State, s.boot.stage ≠ .off ∧ s.boot.stage ≠ .inReset ∧ -32768 ≤ v ∧ v ≤ 32767) ∧
    (∃ s : State, s.boot.stage = .off ∧ (¬ (9500 < s.power.vin ∧ s.power.vin < 33000))) ∧
    (∃ s : State, s.boot.stage = .askard) ∧
    (∃ s : State, (s.power.standbyLost = false ∨ (9500 < s.power.vin ∧ s.power.vin < 33000)) ∧ s.power.coverOpen = false) ∧
    (∃ s : State, s.power.standbyLost = false ∨ (9500 < s.power.vin ∧ s.power.vin < 33000)) ∧
    (∃ ins : TapIns, ∃ s : State, s.sec.unlocked = true ∧ (ins = .bypass ∨ ins = .idcode ∨ ins = .samplePreload)) ∧
    (∃ ins : TapIns, ∃ s : State, s.sec.unlocked = true ∧ (ins = .extest ∨ ins = .clamp ∨ ins = .highz)) ∧
    (∃ s : State, s.sec.unlocked = true ∧ s.serviceOpen = false) :=
  ⟨⟨8999, on, by decide +kernel⟩,
   ⟨9000, by decide +kernel⟩,
   ⟨8999, atStage .off, by decide +kernel⟩,
   ⟨.vinOver, 34001, on, by decide +kernel⟩,
   ⟨.vinOver, 32999, on.modPower (fun p => { p with asserted := [.vinOver] }), by decide +kernel⟩,
   ⟨{ on.power with vin := 24000, vioG := 3300, vioH := 3300 }, by decide +kernel⟩,
   ⟨{ on.power with vin := 24000, vioG := 3300, vioH := 3300, agnd := 90 }, by decide +kernel⟩,
   ⟨(-32768), on, by decide +kernel⟩,
   ⟨0, on, by decide +kernel⟩,
   ⟨(atStage .off).modPower (fun p => { p with vin := 9500 }), by decide +kernel⟩,
   ⟨on, by decide +kernel⟩,
   ⟨on, by decide +kernel⟩,
   ⟨on.modPower (fun p => { p with standbyLost := true, vin := 9501 }), by decide +kernel⟩,
   ⟨.bypass, on.modSec (fun x => { x with unlocked := true }), by decide +kernel⟩,
   ⟨.highz, on.modSec (fun x => { x with unlocked := true }), by decide +kernel⟩,
   ⟨on.modSec (fun x => { x with unlocked := true }), by decide +kernel⟩⟩

/-- Operands and states that meet the hypotheses of `HostFrames`, clause by clause. -/
theorem witness_HostFrames :
    (∃ bytes : List Byte, ∃ bits : Nat, ∃ gapNs : Nat, ∃ s : State, s.resetOver = true ∧ 1000 ≤ gapNs ∧ frOp bytes = 0x02 ∧
      frAddr bytes % 4 = 0 ∧ 1 ≤ frCount bytes ∧ frCount bytes ≤ 64 ∧ 8 * (4 * frCount bytes + 5) ≤ bits ∧
      bytes.getD (4 + 4 * frCount bytes) 0 = crc8 (slice bytes 0 (4 + 4 * frCount bytes))) ∧
    (∃ bytes : List Byte, ∃ bits : Nat, ∃ gapNs : Nat, ∃ s : State, s.resetOver = true ∧ 1000 ≤ gapNs ∧ frOp bytes = 0x0B ∧
      frAddr bytes % 4 = 0 ∧ 1 ≤ frCount bytes ∧ frCount bytes ≤ 64 ∧ 8 * (4 * frCount bytes + 7) ≤ bits ∧
      bytes.getD 4 0 = crc8 (slice bytes 0 4)) ∧
    (∃ bytes : List Byte, ∃ bits : Nat, ∃ gapNs : Nat, ∃ s : State, ∃ c ∈ [Instr.hostWriteFrame bytes bits gapNs,
      Instr.hostReadFrame bytes bits gapNs], s.resetOver = true ∧ frameResult bytes bits gapNs ≠ 0) :=
  ⟨⟨wrFrame, 72, 1000, on, by decide +kernel⟩,
   ⟨rdFrame, 88, 1000, on, by decide +kernel⟩,
   ⟨[], 0, 999, on, Instr.hostWriteFrame [] 0 999, by decide +kernel, by decide +kernel⟩⟩

/-- Operands and states that meet the hypotheses of `FrameResultOrder`, clause by clause. -/
theorem witness_FrameResultOrder :
    (∃ gapNs : Nat, gapNs < 1000) ∧
    (∃ bits : Nat, ∃ gapNs : Nat, 1000 ≤ gapNs ∧ bits < 32) ∧
    (∃ bytes : List Byte, ∃ bits : Nat, ∃ gapNs : Nat, 1000 ≤ gapNs ∧ 32 ≤ bits ∧ frFormat bytes = false) ∧
    (∃ bytes : List Byte, ∃ bits : Nat, ∃ gapNs : Nat, 1000 ≤ gapNs ∧ 32 ≤ bits ∧ frFormat bytes = true ∧ bits < frBits bytes) ∧
    (∃ bytes : List Byte, ∃ bits : Nat, ∃ gapNs : Nat, 1000 ≤ gapNs ∧ frFormat bytes = true ∧ frBits bytes ≤ bits ∧
      frCrcOk bytes = false) ∧
    (∃ bytes : List Byte, ∃ bits : Nat, ∃ gapNs : Nat, 1000 ≤ gapNs ∧ frFormat bytes = true ∧ frBits bytes ≤ bits ∧
      frCrcOk bytes = true) :=
  ⟨⟨999, by decide +kernel⟩,
   ⟨31, 1000, by decide +kernel⟩,
   ⟨[], 32, 1000, by decide +kernel⟩,
   ⟨wrFrame, 71, 1000, by decide +kernel⟩,
   ⟨wrHead ++ [crc8 wrHead + 1], 72, 1000, by decide +kernel⟩,
   ⟨wrFrame, 72, 1000, by decide +kernel⟩⟩

/-- Operands and states that meet the hypotheses of `Doorbells`, clause by clause. -/
theorem witness_Doorbells :
    (∃ s : State, s.resetOver = true) ∧
    (∃ s : State, s.resetOver = true ∧ s.boot.transition = none) :=
  ⟨⟨on, by decide +kernel⟩,
   ⟨on, by decide +kernel⟩⟩

/-- Operands and states that meet the hypotheses of `WindowRegisters`, clause by clause. -/
theorem witness_WindowRegisters :
    (∃ s : State, s.resetOver = true ∧ s.time.tsPending = none) ∧
    (∃ s : State, s.resetOver = true ∧ s.time.tsPending ≠ none) ∧
    (∃ v : Rat, ∃ s : State, s.time.tsPending = some v ∧ 0 ≤ v) ∧
    (∃ w : Word, ∃ s : State, s.resetOver = true ∧ s.host.hbHost ≠ w ∧ s.rdBit Obj.hbSrc 0 = true) ∧
    (∃ s : State, s.resetOver = true) ∧
    (∃ s : State, s.resetOver = true) ∧
    (∃ s : State, s.resetOver = true) ∧
    (∃ s : State, s.resetOver = true) ∧
    (∃ a : Nat, ∃ s : State, s.resetOver = true ∧ a % 4 = 0 ∧ (a ∈ [0x000, 0x004, 0x008, 0x00C, 0x010, 0x014, 0x020, 0x024,
      0x028, 0x038, 0x040, 0x054, 0x058, 0x05C, 0x060, 0x078, 0x080, 0x084, 0x088, 0x08C, 0x090] ∨ 0x1000 ≤ a)) ∧
    (∃ n : Fin 4, ∃ s : State, s.resetOver = true ∧ (s.mb.get n).inBusy = false) :=
  ⟨⟨on, by decide +kernel⟩,
   ⟨on.modTime (fun t => { t with tsPending := some 0 }), by decide +kernel⟩,
   ⟨0, on.modTime (fun t => { t with tsPending := some 0 }), by decide +kernel⟩,
   ⟨1, on.wr Obj.hbSrc 1, by decide +kernel⟩,
   ⟨on, by decide +kernel⟩,
   ⟨on, by decide +kernel⟩,
   ⟨on, by decide +kernel⟩,
   ⟨on, by decide +kernel⟩,
   ⟨0x1000, on, by decide +kernel⟩,
   ⟨0, on, by decide +kernel⟩⟩

/-- Operands and states that meet the hypotheses of `ModuleHeartbeat`, clause by clause. -/
theorem witness_ModuleHeartbeat :
    (∃ s : State, s.askard = true) :=
  ⟨on, by decide +kernel⟩

/-- Operands and states that meet the hypotheses of `MailboxService`, clause by clause. -/
theorem witness_MailboxService :
    (∃ n : Fin 4, ∃ s : State, s.askard = true ∧ s.nextSource = some (.mb n)) ∧
    (∃ s : State, s.takeable 0 = true) ∧
    (∃ c : Fin 4, ∃ w : Word, ∃ rest : List Word, ∃ more : List (List Word), ∃ s : State, s.askard = true ∧
      s.nextSource = some (.net c) ∧ (s.net.conns.get c).queue = (w :: rest) :: more) ∧
    (∃ src : Source, ∃ s : State, ∃ x ∈ [Source.mb 1, .mb 2, .mb 3, .net 0, .net 1, .net 2, .net 3], s.takeable 0 = false ∧
      s.nextSource = some src ∧ s.takeableSrc x = true) ∧
    (∃ src : Source, ∃ s : State, s.takeable 0 = false ∧ s.nextSource = some src) ∧
    (∃ ws : List Word, ∃ rest : List (List Word), ∃ s : State, s.cmd.mb2Queue = ws :: rest ∧ s.askard = true ∧
      (s.mb.get 2).outFull = false ∧ (s.mb.get 2).respWait = none ∧ (s.mb.get 2).job = none) :=
  ⟨⟨3, on.modMb 3 (fun m => { m with inBusy := true }), by decide +kernel⟩,
   ⟨on.modMb 0 (fun m => { m with inBusy := true }), by decide +kernel⟩,
   ⟨3, 0x00010000, [], [], talking on, by decide +kernel⟩,
   ⟨.mb 3, on.modMb 3 (fun m => { m with inBusy := true }), Source.mb 3, by decide +kernel, by decide +kernel⟩,
   ⟨.mb 3, on.modMb 3 (fun m => { m with inBusy := true }), by decide +kernel⟩,
   ⟨[], [], on.modCmd (fun c => { c with mb2Queue := [[]] }), by decide +kernel⟩⟩

/-- Operands and states that meet the hypotheses of `ModuleRequests`, clause by clause. -/
theorem witness_ModuleRequests :
    (∃ s : State, s.askard = true ∧ s.mode = .config ∧ s.readyBlock = 0) ∧
    (∃ s : State, s.askard = true ∧ s.mode = .ready) ∧
    (∃ s : State, s.askard = true ∧ (s.mode = .config ∨ s.mode = .ready)) ∧
    (∃ s : State, s.askard = true ∧ (s.mode = .config ∨ s.mode = .ready ∨ s.mode = .safe) ∧ s.modeM ≠ .operational) ∧
    (∃ src : Source, ∃ t0 : Nat, ∃ s : State, s.boot.transition = some (4, src) ∧ s.boot.transT = some t0 ∧
      s.boot.holdup = false) ∧
    (∃ src : Source, ∃ t0 : Nat, ∃ s : State, s.boot.transition = some (5, src) ∧ s.boot.transT = some t0 ∧
      s.boot.holdup = false) ∧
    (∃ s : State, s.boot.transT = none ∨ s.boot.holdup = true) ∧
    (∃ n : Fin 4, ∃ v : Nat, ∃ s : State, s.boot.transition = some (v, .mb n) ∧ s.boot.transT = none ∧
      (s.mb.get n).outFull = false) ∧
    (∃ src : Source, ∃ t0 : Nat, ∃ s : State, s.boot.transition = some (3, src) ∧ s.boot.transT = some t0 ∧
      s.boot.holdup = false) :=
  ⟨⟨inMode .config on, by decide +kernel⟩,
   ⟨on, by decide +kernel⟩,
   ⟨inMode .config on, by decide +kernel⟩,
   ⟨inMode .safe on, by decide +kernel⟩,
   ⟨.mb 0, 0, on.modBoot (fun b => { b with transition := some (4, .mb 0), transT := some 0 }), by decide +kernel⟩,
   ⟨.mb 0, 0, on.modBoot (fun b => { b with transition := some (5, .mb 0), transT := some 0 }), by decide +kernel⟩,
   ⟨on, by decide +kernel⟩,
   ⟨0, 3, on.modBoot (fun b => { b with transition := some (3, .mb 0) }), by decide +kernel⟩,
   ⟨.mb 0, 0, on.modBoot (fun b => { b with transition := some (3, .mb 0), transT := some 0 }), by decide +kernel⟩⟩

/-- Operands and states that meet the hypotheses of `ResponsesAndRefusals`, clause by clause. -/
theorem witness_ResponsesAndRefusals :
    (∃ src : Source, ∃ j : Job, ∃ s : State, s.jobOf src = some j) ∧
    (∃ src : Source, ∃ j : Job, ∃ s : State, ∃ p ∈ [(Instr.echo src, cEcho), (.get src, cGet), (.set src, cSet), (.getBlock src,
      cGetBlock), (.setBlock src, cSetBlock), (.swapBank src, cSwapBank), (.move src, cMove), (.faultAck src, cFaultAck),
      (.faultClear src, cFaultClear), (.calZero src, cCalZero), (.calFull src, cCalFull), (.captureRead src, cCaptureRead),
      (.sessionOpen src, cSessionOpen), (.sessionAuth src, cSessionAuth), (.sessionClose src, cSessionClose), (.updateBegin src,
      cUpdateBegin), (.updateChunk src, cUpdateChunk), (.safetyAccept src, cSafetyAccept), (.pairHandover src, cPairHandover)],
      s.jobOf src = some j ∧ j.waiting = false ∧ s.check src j.role j.code j.payload ≠ 0 ∧ j.code = p.2) :=
  ⟨⟨.mb 0, jb cEcho [], having (.mb 0) (jb cEcho []) (on), by decide +kernel⟩,
   ⟨.mb 0, jb cSet [], having (.mb 0) (jb cSet []) (on), (.set (.mb 0), cSet), by decide +kernel, by decide +kernel⟩⟩

/-- Operands and states that meet the hypotheses of `ObjectAccessCommands`, clause by clause. -/
theorem witness_ObjectAccessCommands :
    (∃ src : Source, ∃ j : Job, ∃ s : State, Ready src cEcho j s) ∧
    (∃ src : Source, ∃ j : Job, ∃ s : State, Ready src cGet j s) ∧
    (∃ src : Source, ∃ j : Job, ∃ s : State, Ready src cSet j s) ∧
    (∃ src : Source, ∃ j : Job, ∃ s : State, ∃ aw : Word, ∃ bytes : List Byte, Ready src cGetBlock j s ∧
      j.payload.getD 0 0 = aw ∧ bytes = s.blockOf j.role aw ∧ bytes ≠ [] ∧ j.arg 1 = 0) ∧
    (∃ src : Source, ∃ j : Job, ∃ s : State, ∃ aw : Word, ∃ bytes : List Byte, Ready src cGetBlock j s ∧
      j.payload.getD 0 0 = aw ∧ s.blockOf j.role aw ≠ [] ∧ j.arg 1 ≠ 0 ∧
      s.cmd.snaps.find? (fun p => decide (p.1 = src) && p.2.1 == awAddr aw) = some (src, awAddr aw, bytes)) ∧
    (∃ src : Source, ∃ j : Job, ∃ s : State, Ready src cGetBlock j s ∧ objRow (j.arg 0 / 65536) (j.arg 0 / 256 % 256) = none) ∧
    (∃ src : Source, ∃ j : Job, ∃ s : State, ∃ r : ObjRow, ∃ old : List Byte, ∃ len : Nat, Ready src cSetBlock j s ∧
      awType (j.payload.getD 0 0) = 8 ∧
      objRow (awAddr (j.payload.getD 0 0) / 0x100) (awAddr (j.payload.getD 0 0) % 0x100) = some r ∧ r.ty = .blob ∧
      j.arg 1 + j.arg 2 % 256 ≤ (blobSize (awAddr (j.payload.getD 0 0))).1 ∧
      s.cmd.staging.find? (fun p => decide (p.1 = src) && p.2.1 == awAddr (j.payload.getD 0 0)) = some (src,
      awAddr (j.payload.getD 0 0), old, len)) :=
  ⟨⟨.mb 0, jb cEcho [], having (.mb 0) (jb cEcho []) (on), ready_of (by decide +kernel)⟩,
   ⟨.mb 0, jb cGet [0x10010101], having (.mb 0) (jb cGet [0x10010101]) (on), ready_of (by decide +kernel)⟩,
   ⟨.mb 1, jb cSet [0x10010201, 1], having (.mb 1) (jb cSet [0x10010201, 1]) (on), ready_of (by decide +kernel)⟩,
   ⟨.mb 1, jb cGetBlock [BitVec.ofNat 32 (Obj.listDef 0 * 256 + 8), 0, 248],
    having (.mb 1) (jb cGetBlock [BitVec.ofNat 32 (Obj.listDef 0 * 256 + 8), 0,
    248]) ({ on with blobs := [(Obj.listDef 0, [1, 2, 3])] }), BitVec.ofNat 32 (Obj.listDef 0 * 256 + 8), [1, 2, 3],
    ⟨ready_of (by decide +kernel), by decide +kernel⟩⟩,
   ⟨.mb 1, jb cGetBlock [BitVec.ofNat 32 (Obj.listDef 0 * 256 + 8), 1, 248],
    having (.mb 1) (jb cGetBlock [BitVec.ofNat 32 (Obj.listDef 0 * 256 + 8), 1,
    248]) (({ on with blobs := [(Obj.listDef 0, [1, 2, 3])] } : State).modCmd (fun c => { c with snaps := [(.mb 1, Obj.listDef 0, [1, 2, 3])] })),
    BitVec.ofNat 32 (Obj.listDef 0 * 256 + 8), [1, 2, 3], ⟨ready_of (by decide +kernel), by decide +kernel⟩⟩,
   ⟨.mb 1, jb cGetBlock [0x7F7F0108, 0, 1], having (.mb 1) (jb cGetBlock [0x7F7F0108, 0, 1]) (on), ⟨ready_of (by decide +kernel),
    by decide +kernel⟩⟩,
   ⟨.mb 1, jb cSetBlock [BitVec.ofNat 32 (Obj.listDef 0 * 256 + 8), 188, 4, 0],
    having (.mb 1) (jb cSetBlock [BitVec.ofNat 32 (Obj.listDef 0 * 256 + 8), 188, 4,
    0]) (on.modCmd (fun c => { c with staging := [(.mb 1, Obj.listDef 0, [1], 1)] })), row (Obj.listDef 0), [1], 1,
    ⟨ready_of (by decide +kernel), by decide +kernel⟩⟩⟩

/-- Operands and states that meet the hypotheses of `LoafStateCommands`, clause by clause. -/
theorem witness_LoafStateCommands :
    (∃ src : Source, ∃ j : Job, ∃ s : State, Ready src cLoafState j s ∧ j.req = 0 ∧ s.has j.loafArg.val = true ∧
      s.groupOf j.loafArg = none ∧ ((s.loaf.get j.loafArg).st = .open_ ∨ (s.loaf.get j.loafArg).st = .closed)) ∧
    (∃ src : Source, ∃ j : Job, ∃ s : State, Ready src cLoafState j s ∧ j.req = 1 ∧ s.has j.loafArg.val = true ∧
      s.groupOf j.loafArg = none ∧ ((s.loaf.get j.loafArg).st = .off ∨ ((s.loaf.get j.loafArg).st = .closed ∧
      (s.loaf.get j.loafArg).test = true))) ∧
    (∃ src : Source, ∃ j : Job, ∃ s : State, ∃ g : Fin 4, Ready src cLoafState j s ∧ j.req = 2 ∧ s.groupOf j.loafArg = some g ∧
      (s.grp.get g).st = .stopped ∧ s.canClose j.loafArg = true ∧ s.interleaved j.loafArg = false ∧
      ((s.loaf.get j.loafArg).st = .off ∨ (s.loaf.get j.loafArg).st = .open_)) ∧
    (∃ src : Source, ∃ j : Job, ∃ s : State, Ready src cLoafState j s ∧ s.has j.loafArg.val = true ∧
      s.groupOf j.loafArg = none ∧ j.req = 0 ∧ (s.loaf.get j.loafArg).st = .off) ∧
    (∃ src : Source, ∃ j : Job, ∃ s : State, Ready src cLoafState j s ∧ s.has j.loafArg.val = true ∧
      s.groupOf j.loafArg = none ∧ j.req = 1 ∧ (s.loaf.get j.loafArg).st = .open_) ∧
    (∃ src : Source, ∃ j : Job, ∃ s : State, Ready src cLoafState j s ∧ s.has j.loafArg.val = true ∧
      s.groupOf j.loafArg = none ∧ j.req = 0 ∧ ((s.loaf.get j.loafArg).st = .isolated ∨ (s.loaf.get j.loafArg).st = .fault)) ∧
    (∃ src : Source, ∃ j : Job, ∃ s : State, Ready src cLoafState j s ∧ s.has j.loafArg.val = true ∧
      s.groupOf j.loafArg = none ∧ j.req = 2) :=
  ⟨⟨.mb 0, jb cLoafState [0x000], having (.mb 0) (jb cLoafState [0x000]) (loafIn .open_ (on.wrs [(Obj.grpLoaves 0, 0),
    (Obj.grpLoaves 1, 0), (Obj.grpLoaves 2, 0), (Obj.grpLoaves 3, 0)])), ⟨ready_of (by decide +kernel), by decide +kernel⟩⟩,
   ⟨.mb 0, jb cLoafState [0x100], having (.mb 0) (jb cLoafState [0x100]) (on.wrs [(Obj.grpLoaves 0, 0), (Obj.grpLoaves 1, 0),
    (Obj.grpLoaves 2, 0), (Obj.grpLoaves 3, 0)]), ⟨ready_of (by decide +kernel), by decide +kernel⟩⟩,
   ⟨.mb 0, jb cLoafState [0x200], having (.mb 0) (jb cLoafState [0x200]) (drive), 0, ⟨ready_of (by decide +kernel),
    by decide +kernel⟩⟩,
   ⟨.mb 0, jb cLoafState [0x000], having (.mb 0) (jb cLoafState [0x000]) (on.wrs [(Obj.grpLoaves 0, 0), (Obj.grpLoaves 1, 0),
    (Obj.grpLoaves 2, 0), (Obj.grpLoaves 3, 0)]), ⟨ready_of (by decide +kernel), by decide +kernel⟩⟩,
   ⟨.mb 0, jb cLoafState [0x100], having (.mb 0) (jb cLoafState [0x100]) (loafIn .open_ (on.wrs [(Obj.grpLoaves 0, 0),
    (Obj.grpLoaves 1, 0), (Obj.grpLoaves 2, 0), (Obj.grpLoaves 3, 0)])), ⟨ready_of (by decide +kernel), by decide +kernel⟩⟩,
   ⟨.mb 0, jb cLoafState [0x000], having (.mb 0) (jb cLoafState [0x000]) (loafIn .fault (on.wrs [(Obj.grpLoaves 0, 0),
    (Obj.grpLoaves 1, 0), (Obj.grpLoaves 2, 0), (Obj.grpLoaves 3, 0)])), ⟨ready_of (by decide +kernel), by decide +kernel⟩⟩,
   ⟨.mb 0, jb cLoafState [0x200], having (.mb 0) (jb cLoafState [0x200]) (on.wrs [(Obj.grpLoaves 0, 0), (Obj.grpLoaves 1, 0),
    (Obj.grpLoaves 2, 0), (Obj.grpLoaves 3, 0)]), ⟨ready_of (by decide +kernel), by decide +kernel⟩⟩⟩

/-- Operands and states that meet the hypotheses of `GroupAndBankCommands`, clause by clause. -/
theorem witness_GroupAndBankCommands :
    (∃ src : Source, ∃ j : Job, ∃ s : State, Ready src cGroupState j s ∧ j.req = 1 ∧ s.startOk j.grpArg = true) ∧
    (∃ src : Source, ∃ j : Job, ∃ s : State, Ready src cGroupState j s ∧ j.req = 1 ∧ s.startOk j.grpArg = false) ∧
    (∃ src : Source, ∃ j : Job, ∃ s : State, Ready src cGroupState j s ∧ j.req = 0 ∧ s.follows j.grpArg = false ∧
      ((s.grp.get j.grpArg).st = .starting ∨ (s.grp.get j.grpArg).st = .running ∨ (s.grp.get j.grpArg).st = .degraded)) ∧
    (∃ src : Source, ∃ j : Job, ∃ s : State, Ready src cGroupState j s ∧ j.req = 0 ∧ s.follows j.grpArg = false ∧
      ((s.grp.get j.grpArg).st = .stopped ∨ (s.grp.get j.grpArg).st = .stopping ∨ (s.grp.get j.grpArg).st = .safe)) ∧
    (∃ src : Source, ∃ j : Job, ∃ s : State, Ready src cMove j s ∧ s.follows j.grpArg = false ∧
      s.rd (Obj.ctrlMode j.grpArg.val) = (j.arg 0 / 256 % 256 : Nat) ∧
      ((s.grp.get j.grpArg).st = .stopped ∨ (s.grp.get j.grpArg).st = .stopping)) ∧
    (∃ src : Source, ∃ j : Job, ∃ s : State, Ready src cMove j s ∧ s.follows j.grpArg = false ∧
      s.rd (Obj.ctrlMode j.grpArg.val) = (j.arg 0 / 256 % 256 : Nat) ∧
      ((s.grp.get j.grpArg).st = .starting ∨ (s.grp.get j.grpArg).st = .running ∨ (s.grp.get j.grpArg).st = .degraded)) ∧
    (∃ src : Source, ∃ j : Job, ∃ s : State, Ready src cMove j s ∧
      (s.follows j.grpArg = true ∨ (s.grp.get j.grpArg).st = .safe ∨ s.rd (Obj.ctrlMode j.grpArg.val) ≠ (j.arg 0 / 256 % 256 : Nat))) ∧
    (∃ src : Source, ∃ j : Job, ∃ s : State, ∃ g : Fin 4, Ready src cSwapBank j s ∧ j.arg 0 = 2 ^ g.val ∧
      (s.bound g).any (fun n => (s.loaf.get n).running) = true) ∧
    (∃ src : Source, ∃ j : Job, ∃ s : State, ∃ g : Fin 4, Ready src cSwapBank j s ∧ j.arg 0 = 2 ^ g.val ∧
      (s.bound g).any (fun n => (s.loaf.get n).running) = false) ∧
    (∃ src : Source, ∃ s : State, ∃ j : Job, s.waitingJob src cSwapBank = some j) ∧
    (∃ src : Source, ∃ s : State, s.waitingJob src cSwapBank = none) :=
  ⟨⟨.mb 0, jb cGroupState [0x100], having (.mb 0) (jb cGroupState [0x100]) (drive), ⟨ready_of (by decide +kernel),
    by decide +kernel⟩⟩,
   ⟨.mb 0, jb cGroupState [0x100], having (.mb 0) (jb cGroupState [0x100]) (on), ⟨ready_of (by decide +kernel),
    by decide +kernel⟩⟩,
   ⟨.mb 0, jb cGroupState [0], having (.mb 0) (jb cGroupState [0]) (grpIn .running drive), ⟨ready_of (by decide +kernel),
    by decide +kernel⟩⟩,
   ⟨.mb 0, jb cGroupState [0], having (.mb 0) (jb cGroupState [0]) (on), ⟨ready_of (by decide +kernel), by decide +kernel⟩⟩,
   ⟨.mb 0, jb cMove [0x100, 5, 0], having (.mb 0) (jb cMove [0x100, 5, 0]) (on.wr (Obj.ctrlMode 0) 1),
    ⟨ready_of (by decide +kernel), by decide +kernel⟩⟩,
   ⟨.mb 0, jb cMove [0x100, 5, 0], having (.mb 0) (jb cMove [0x100, 5, 0]) (grpIn .running (on.wr (Obj.ctrlMode 0) 1)),
    ⟨ready_of (by decide +kernel), by decide +kernel⟩⟩,
   ⟨.mb 0, jb cMove [0x100, 5, 0], having (.mb 0) (jb cMove [0x100, 5, 0]) (grpIn .safe (on.wr (Obj.ctrlMode 0) 1)),
    ⟨ready_of (by decide +kernel), by decide +kernel⟩⟩,
   ⟨.mb 0, jb cSwapBank [1], having (.mb 0) (jb cSwapBank [1]) (drive.modLoaf 0 (fun l => { l with running := true })), 0,
    ⟨ready_of (by decide +kernel), by decide +kernel⟩⟩,
   ⟨.mb 0, jb cSwapBank [8], having (.mb 0) (jb cSwapBank [8]) (on), 3, ⟨ready_of (by decide +kernel), by decide +kernel⟩⟩,
   ⟨.mb 0, having (.mb 0) (jbWaits cSwapBank) (on), jbWaits cSwapBank, by decide +kernel⟩,
   ⟨.mb 0, on, by decide +kernel⟩⟩

/-- Operands and states that meet the hypotheses of `FaultCommands`, clause by clause. -/
theorem witness_FaultCommands :
    (∃ src : Source, ∃ j : Job, ∃ s : State, Ready src cFaultAck j s ∧ (j.faultCode, j.faultInst) ∈ s.flt.windows) ∧
    (∃ src : Source, ∃ j : Job, ∃ s : State, Ready src cFaultAck j s ∧ (j.faultCode, j.faultInst) ∉ s.flt.windows) ∧
    (∃ src : Source, ∃ j : Job, ∃ s : State, ∃ p : Pend, Ready src cFaultClear j s ∧ p ∈ s.flt.pend ∧
      (j.faultCode = 0xFFFF ∨ j.faultCode = p.code) ∧ (j.faultInst = 0xFFFF ∨ j.faultInst = p.inst) ∧
      (s.resetOnlyCode p.code = true ∨ s.persists p = true)) ∧
    (∃ src : Source, ∃ j : Job, ∃ s : State, Ready src cFaultClear j s ∧ (∀ p ∈ s.flt.pend,
      clearNames j.faultCode j.faultInst p.code p.inst = true → s.resetOnlyCode p.code = false ∧ s.persists p = false)) ∧
    (∃ src : Source, ∃ j : Job, ∃ s : State, Ready src cInject j s ∧ j.arg 1 ≠ 1 ∧ s.flt.inj.length < 4 ∧
      injectable j.faultCode false = true ∧ s.raisable j.faultCode j.faultInst = true ∧
      s.realPending j.faultCode j.faultInst = false) ∧
    (∃ src : Source, ∃ j : Job, ∃ s : State, Ready src cInject j s ∧ j.arg 1 = 1 ∧ s.flt.inj.length < 4 ∧
      injectable j.faultCode true = true ∧ injSource j.faultCode.toNat (instIndex j.faultInst % 4) = none ∧
      s.raisable j.faultCode j.faultInst = true ∧ s.isPending j.faultCode j.faultInst = false) ∧
    (∃ src : Source, ∃ j : Job, ∃ s : State, Ready src cInject j s ∧ s.flt.inj.length < 4 ∧
      s.raisable j.faultCode j.faultInst = false ∧ j.arg 1 ≠ 1) ∧
    (∃ src : Source, ∃ j : Job, ∃ s : State, Ready src cInject j s ∧ s.flt.inj.length < 4 ∧
      s.raisable j.faultCode j.faultInst = false ∧ j.arg 1 = 1) ∧
    (∃ src : Source, ∃ j : Job, ∃ s : State, Ready src cInject j s ∧ 4 ≤ s.flt.inj.length ∧ j.arg 1 ≠ 1) ∧
    (∃ src : Source, ∃ j : Job, ∃ s : State, Ready src cInject j s ∧ 4 ≤ s.flt.inj.length ∧ j.arg 1 = 1) ∧
    (∃ code : Half, ∃ inst : Half, ∃ d : Inj, ∃ s : State,
      s.flt.inj.find? (fun x => !x.live && x.code == code && x.inst == inst) = some d) ∧
    (∃ code : Half, ∃ inst : Half, ∃ s : State, (∀ x ∈ s.flt.inj, x.code = code → x.inst = inst → x.live = true)) :=
  ⟨⟨.mb 0, jb cFaultAck [0x00010002],
    having (.mb 0) (jb cFaultAck [0x00010002]) (on.modFlt (fun f => { f with windows := [(2, 1)] })),
    ⟨ready_of (by decide +kernel), by decide +kernel⟩⟩,
   ⟨.mb 0, jb cFaultAck [0x00010002], having (.mb 0) (jb cFaultAck [0x00010002]) (on), ⟨ready_of (by decide +kernel),
    by decide +kernel⟩⟩,
   ⟨.mb 0, jb cFaultClear [0x0000E401], having (.mb 0) (jb cFaultClear [0x0000E401]) (pending [pd 0xE401 0] on), pd 0xE401 0,
    ⟨ready_of (by decide +kernel), by decide +kernel⟩⟩,
   ⟨.mb 0, jb cFaultClear [0xFFFFFFFF], having (.mb 0) (jb cFaultClear [0xFFFFFFFF]) (pending [pd 0x5001 0] on),
    ⟨ready_of (by decide +kernel), by decide +kernel⟩⟩,
   ⟨.mb 1, jb cInject [0x4001, 0], having (.mb 1) (jb cInject [0x4001, 0]) (on), ⟨ready_of (by decide +kernel),
    by decide +kernel⟩⟩,
   ⟨.mb 1, jb cInject [0x4001, 1], having (.mb 1) (jb cInject [0x4001, 1]) (on), ⟨ready_of (by decide +kernel),
    by decide +kernel⟩⟩,
   ⟨.mb 1, jb cInject [0x00094001, 0], having (.mb 1) (jb cInject [0x00094001, 0]) (on), ⟨ready_of (by decide +kernel),
    by decide +kernel⟩⟩,
   ⟨.mb 1, jb cInject [0x00094001, 1], having (.mb 1) (jb cInject [0x00094001, 1]) (on), ⟨ready_of (by decide +kernel),
    by decide +kernel⟩⟩,
   ⟨.mb 1, jb cInject [0x4001, 0], having (.mb 1) (jb cInject [0x4001, 0]) (full on), ⟨ready_of (by decide +kernel),
    by decide +kernel⟩⟩,
   ⟨.mb 1, jb cInject [0x4001, 1], having (.mb 1) (jb cInject [0x4001, 1]) (full on), ⟨ready_of (by decide +kernel),
    by decide +kernel⟩⟩,
   ⟨1, 3, ⟨1, 3, false, 0⟩, full on, by decide +kernel⟩,
   ⟨0, 0, on, by decide +kernel⟩⟩

/-- Operands and states that meet the hypotheses of `CalibrationAndCapture`, clause by clause. -/
theorem witness_CalibrationAndCapture :
    (∃ src : Source, ∃ j : Job, ∃ s : State, Ready src cCalZero j s ∧ s.hasConv (j.arg 0 % 256) = true ∧
      s.power.refReady.get (Fin.ofNat 6 (j.arg 0 % 256)) = true) ∧
    (∃ src : Source, ∃ j : Job, ∃ s : State, Ready src cCalFull j s ∧ s.hasConv (j.arg 0 % 256) = true ∧
      s.power.refReady.get (Fin.ofNat 6 (j.arg 0 % 256)) = true ∧ (j.arg 0 % 256, j.arg 0 / 256 % 256) ∈ s.cmd.zeroed ∧
      (signExt 32 (j.arg 1) < -8192 ∨ 8192 < signExt 32 (j.arg 1))) ∧
    (∃ src : Source, ∃ j : Job, ∃ s : State, Ready src cCalFull j s ∧ s.hasConv (j.arg 0 % 256) = true ∧ ((j.arg 0 % 256,
      j.arg 0 / 256 % 256) ∉ s.cmd.zeroed ∨ (-8192 ≤ signExt 32 (j.arg 1) ∧ signExt 32 (j.arg 1) ≤ 8192))) ∧
    (∃ src : Source, ∃ c : CalJob, ∃ s : State, s.calOf src = some c ∧ 4096 ≤ c.count ∧ c.full = false) ∧
    (∃ src : Source, ∃ c : CalJob, ∃ g : Int, ∃ s : State, s.calOf src = some c ∧ 4096 ≤ c.count ∧ c.full = true ∧
      gainCode c.conv c.expected c.sum = some g) ∧
    (∃ src : Source, ∃ c : CalJob, ∃ s : State, s.calOf src = some c ∧ 4096 ≤ c.count ∧ c.full = true ∧
      gainCode c.conv c.expected c.sum = none) ∧
    (∃ src : Source, ∃ c : CalJob, ∃ s : State, s.calOf src = some c ∧ c.count < 4096) ∧
    (∃ src : Source, ∃ j : Job, ∃ s : State, ∃ a : Nat, Ready src cCaptureArm j s ∧ j.arg 0 = 1 ∧ a ∉ [Obj.capState, Obj.capSeq,
      Obj.capCause, Obj.capLen]) ∧
    (∃ src : Source, ∃ j : Job, ∃ s : State, Ready src cCaptureArm j s ∧ j.arg 0 = 1) ∧
    (∃ src : Source, ∃ j : Job, ∃ s : State, Ready src cCaptureArm j s ∧ j.arg 0 = 2) ∧
    (∃ src : Source, ∃ j : Job, ∃ t : Nat, ∃ s : State, s.time.now ≤ t ∧ Ready src cCaptureArm j (s.atT t) ∧ j.arg 0 = 3 ∧
      (s.rd Obj.capState = 1 ∨ s.rd Obj.capState = 2)) ∧
    (∃ src : Source, ∃ j : Job, ∃ t : Nat, ∃ s : State, s.time.now ≤ t ∧ Ready src cCaptureArm j (s.atT t) ∧ j.arg 0 = 3 ∧
      s.rd Obj.capState = 3 ∧ s.cap.trigT = t) ∧
    (∃ src : Source, ∃ j : Job, ∃ s : State, Ready src cCaptureRead j s ∧ s.rd Obj.capSeq = (j.arg 0 : Int) ∧
      s.rd Obj.capState = 4) ∧
    (∃ src : Source, ∃ j : Job, ∃ s : State, Ready src cCaptureRead j s ∧
      (s.rd Obj.capSeq ≠ (j.arg 0 : Int) ∨ s.rd Obj.capState ≠ 4)) ∧
    (∃ src : Source, ∃ j : Job, ∃ s : State, s.waitingJob src cCaptureRead = some j) :=
  ⟨⟨.mb 1, jb cCalZero [0x0705], having (.mb 1) (jb cCalZero [0x0705]) (on), ⟨ready_of (by decide +kernel), by decide +kernel⟩⟩,
   ⟨.mb 1, jb cCalFull [0x0800, 8193], having (.mb 1) (jb cCalFull [0x0800,
    8193]) (on.modCmd (fun c => { c with zeroed := [(0, 8)] })), ⟨ready_of (by decide +kernel), by decide +kernel⟩⟩,
   ⟨.mb 1, jb cCalFull [0x0800, 8192], having (.mb 1) (jb cCalFull [0x0800,
    8192]) (on.modCmd (fun c => { c with zeroed := [(0, 8)] })), ⟨ready_of (by decide +kernel), by decide +kernel⟩⟩,
   ⟨.mb 1, calJob false 0 4096 0, calOn (calJob false 0 4096 0), by decide +kernel⟩,
   ⟨.mb 1, calJob true 8193 4096 (8193 * 4096), 4096, calOn (calJob true 8193 4096 (8193 * 4096)), by decide +kernel⟩,
   ⟨.mb 1, calJob true 8193 4096 0, calOn (calJob true 8193 4096 0), by decide +kernel⟩,
   ⟨.mb 1, calJob false 0 4095 0, calOn (calJob false 0 4095 0), by decide +kernel⟩,
   ⟨.mb 1, jb cCaptureArm [1], having (.mb 1) (jb cCaptureArm [1]) (on), 0, ⟨ready_of (by decide +kernel), by decide +kernel⟩⟩,
   ⟨.mb 1, jb cCaptureArm [1], having (.mb 1) (jb cCaptureArm [1]) (on), ⟨ready_of (by decide +kernel), by decide +kernel⟩⟩,
   ⟨.mb 1, jb cCaptureArm [2], having (.mb 1) (jb cCaptureArm [2]) (on), ⟨ready_of (by decide +kernel), by decide +kernel⟩⟩,
   ⟨.mb 1, jb cCaptureArm [3], 7, having (.mb 1) (jb cCaptureArm [3]) (on.wr Obj.capState 1), ⟨by decide +kernel,
    ready_of (by decide +kernel), by decide +kernel⟩⟩,
   ⟨.mb 1, jb cCaptureArm [3], 7,
    having (.mb 1) (jb cCaptureArm [3]) ((on.wr Obj.capState 3).modCap (fun c => { c with trigT := 7 })), ⟨by decide +kernel,
    ready_of (by decide +kernel), by decide +kernel⟩⟩,
   ⟨.mb 2, jb cCaptureRead [9, 0, 240], having (.mb 2) (jb cCaptureRead [9, 0, 240]) (on.wrs [(Obj.capState, 4), (Obj.capSeq,
    9)]), ⟨ready_of (by decide +kernel), by decide +kernel⟩⟩,
   ⟨.mb 2, jb cCaptureRead [9, 0, 4], having (.mb 2) (jb cCaptureRead [9, 0, 4]) (on), ⟨ready_of (by decide +kernel),
    by decide +kernel⟩⟩,
   ⟨.mb 2, jbWaits cCaptureRead, having (.mb 2) (jbWaits cCaptureRead) (on), by decide +kernel⟩⟩

/-- Operands and states that meet the hypotheses of `SubscribeCommands`, clause by clause. -/
theorem witness_SubscribeCommands :
    (∃ src : Source, ∃ j : Job, ∃ s : State, Ready src cSubscribe j s ∧ j.arg 0 / 256 % 256 = 1 ∧
      (s.sub (j.arg 0 % 256)).active = false ∧
      s.rateUsed (decide (j.arg 0 / 65536 % 256 = 1)) + s.itemRate (j.arg 0 / 2 ^ 24) (j.arg 1) ≤ (if j.arg 0 / 65536 % 256 = 1 then 8000000 else 200000)) ∧
    (∃ src : Source, ∃ j : Job, ∃ s : State, Ready src cSubscribe j s ∧ j.arg 0 / 256 % 256 = 1 ∧
      (s.sub (j.arg 0 % 256)).active = false ∧
      (if j.arg 0 / 65536 % 256 = 1 then (8000000 : Rat) else 200000) < s.rateUsed (decide (j.arg 0 / 65536 % 256 = 1)) + s.itemRate (j.arg 0 / 2 ^ 24) (j.arg 1)) ∧
    (∃ src : Source, ∃ j : Job, ∃ s : State, Ready src cSubscribe j s ∧ j.arg 0 / 256 % 256 ≠ 1 ∧
      ((s.sub (j.arg 0 % 256)).active = false ∨ (s.sub (j.arg 0 % 256)).owner = subOwner src)) ∧
    (∃ src : Source, ∃ j : Job, ∃ s : State, Ready src cSubscribe j s ∧ j.arg 0 / 256 % 256 ≠ 1 ∧
      (s.sub (j.arg 0 % 256)).active = true ∧ (s.sub (j.arg 0 % 256)).owner ≠ subOwner src) :=
  ⟨⟨.mb 2, jb cSubscribe [0x01000107, 0x000103E8, 0x10010101], having (.mb 2) (jb cSubscribe [0x01000107, 0x000103E8,
    0x10010101]) (on.modSub 0 (fun x => { x with active := true, rate := 199996 })), ⟨ready_of (by decide +kernel),
    by decide +kernel⟩⟩,
   ⟨.mb 2, jb cSubscribe [0x01000107, 0x000103E8, 0x10010101], having (.mb 2) (jb cSubscribe [0x01000107, 0x000103E8,
    0x10010101]) (on.modSub 0 (fun x => { x with active := true, rate := 199997 })), ⟨ready_of (by decide +kernel),
    by decide +kernel⟩⟩,
   ⟨.mb 2, jb cSubscribe [0], having (.mb 2) (jb cSubscribe [0]) (on), ⟨ready_of (by decide +kernel), by decide +kernel⟩⟩,
   ⟨.mb 2, jb cSubscribe [0], having (.mb 2) (jb cSubscribe [0]) (on.modSub 0 (fun x => { x with active := true, owner := 1 })),
    ⟨ready_of (by decide +kernel), by decide +kernel⟩⟩⟩

/-- Operands and states that meet the hypotheses of `SessionCommands`, clause by clause. -/
theorem witness_SessionCommands :
    (∃ src : Source, ∃ j : Job, ∃ s : State, Ready src cSessionOpen j s ∧ s.sec.session = none) ∧
    (∃ src : Source, ∃ j : Job, ∃ s : State, ∃ role : Nat, ∃ user : Nat, ∃ bytes : List Byte, ∃ key : List Byte, ∃ t : Nat,
      Ready src cSessionAuth j s ∧ s.sec.challenge = some (role, user, bytes, t) ∧ s.time.now ≤ t + 2000000000 ∧
      (s.lockOf user).2.2 = none ∧ s.sessionKey role user = some key ∧
      hmac key (sessionMsg role user bytes) = wordsToBytes j.payload) ∧
    (∃ src : Source, ∃ j : Job, ∃ s : State, Ready src cSessionAuth j s ∧ s.sec.challenge = none) ∧
    (∃ src : Source, ∃ j : Job, ∃ s : State, ∃ role : Nat, ∃ user : Nat, ∃ bytes : List Byte, ∃ t : Nat,
      Ready src cSessionAuth j s ∧ s.sec.challenge = some (role, user, bytes, t) ∧
      (t + 2000000000 < s.time.now ∨ (s.lockOf user).2.2.isSome = true)) ∧
    (∃ src : Source, ∃ j : Job, ∃ s : State, ∃ role : Nat, ∃ user : Nat, ∃ bytes : List Byte, ∃ t : Nat,
      Ready src cSessionAuth j s ∧ s.sec.challenge = some (role, user, bytes, t) ∧ s.time.now ≤ t + 2000000000 ∧
      (s.lockOf user).2.2 = none ∧ (∀ key,
      s.sessionKey role user = some key → hmac key (sessionMsg role user bytes) ≠ wordsToBytes j.payload)) ∧
    (∃ src : Source, ∃ j : Job, ∃ s : State, Ready src cSessionClose j s) :=
  ⟨⟨.mb 3, jb cSessionOpen [0x0F05], having (.mb 3) (jb cSessionOpen [0x0F05]) (on), ⟨ready_of (by decide +kernel),
    by decide +kernel⟩⟩,
   ⟨.mb 3, jb cSessionAuth (bytesToWords (hmac [] (sessionMsg 5 0 []))),
    having (.mb 3) (jb cSessionAuth (bytesToWords (hmac [] (sessionMsg 5 0 [])))) ((on.modSec (fun x => { x with challenge := some (5, 0, [], 0), owner := some [], users := [⟨5, [], []⟩] })).modTime (fun t => { t with now := 2000000000 })),
    5, 0, [], [], 0, ⟨ready_of (by decide +kernel), by decide +kernel⟩⟩,
   ⟨.mb 3, jb cSessionAuth (List.replicate 8 0), having (.mb 3) (jb cSessionAuth (List.replicate 8 0)) (on),
    ⟨ready_of (by decide +kernel), by decide +kernel⟩⟩,
   ⟨.mb 3, jb cSessionAuth (List.replicate 8 0),
    having (.mb 3) (jb cSessionAuth (List.replicate 8 0)) ((on.modSec (fun x => { x with challenge := some (5, 0, [], 0) })).modTime (fun t => { t with now := 2000000001 })),
    5, 0, [], 0, ⟨ready_of (by decide +kernel), by decide +kernel⟩⟩,
   ⟨.mb 3, jb cSessionAuth (List.replicate 8 0),
    having (.mb 3) (jb cSessionAuth (List.replicate 8 0)) ((on.modSec (fun x => { x with challenge := some (5, 0, [], 0), owner := some [] })).modTime (fun t => { t with now := 2000000000 })),
    5, 0, [], 0, ⟨ready_of (by decide +kernel), by decide +kernel, by decide +kernel, by decide +kernel, fun k h => nomatch h⟩⟩,
   ⟨.mb 3, jb cSessionClose [], having (.mb 3) (jb cSessionClose []) (on), ready_of (by decide +kernel)⟩⟩

/-- Operands and states that meet the hypotheses of `UpdateCommands`, clause by clause. -/
theorem witness_UpdateCommands :
    (∃ src : Source, ∃ j : Job, ∃ s : State, Ready src cUpdateBegin j s ∧ (∀ t, s.cmd.xfer = some t → t.src = src)) ∧
    (∃ src : Source, ∃ j : Job, ∃ t : Transfer, ∃ s : State, Ready src cUpdateBegin j s ∧ s.cmd.xfer = some t ∧ t.src ≠ src) ∧
    (∃ src : Source, ∃ j : Job, ∃ t : Transfer, ∃ s : State, Ready src cUpdateChunk j s ∧ s.cmd.xfer = some t ∧ t.src = src ∧
      j.arg 0 = t.data.length) ∧
    (∃ src : Source, ∃ j : Job, ∃ t : Transfer, ∃ s : State, Ready src cUpdateChunk j s ∧ s.cmd.xfer = some t ∧ t.src ≠ src) ∧
    (∃ src : Source, ∃ j : Job, ∃ t : Transfer, ∃ s : State, Ready src cUpdateChunk j s ∧ s.cmd.xfer = some t ∧ t.src = src ∧
      j.arg 0 ≠ t.data.length) ∧
    (∃ src : Source, ∃ j : Job, ∃ t : Transfer, ∃ s : State, Ready src cUpdateCommit j s ∧ s.cmd.xfer = some t ∧ t.kind = 0 ∧
      t.src = src ∧ t.data.length = t.size ∧ s.sec.rollback ≤ leAt t.data 8 2) ∧
    (∃ src : Source, ∃ j : Job, ∃ t : Transfer, ∃ s : State, Ready src cUpdateCommit j s ∧ s.cmd.xfer = some t ∧ t.kind = 0 ∧
      t.src = src ∧ t.data.length = t.size ∧ leAt t.data 8 2 < s.sec.rollback) ∧
    (∃ src : Source, ∃ j : Job, ∃ t : Transfer, ∃ img : ConfigImage, ∃ s : State, Ready src cUpdateCommit j s ∧
      s.cmd.xfer = some t ∧ t.kind = 1 ∧ t.src = src ∧ t.data.length = t.size ∧ s.sec.owner ≠ none ∧
      s.rdN Obj.cfgVersion < img.version ∧ (∀ w ∈ img.writes, imageWriteBad w = false)) ∧
    (∃ src : Source, ∃ j : Job, ∃ t : Transfer, ∃ img : ConfigImage, ∃ s : State, Ready src cUpdateCommit j s ∧
      s.cmd.xfer = some t ∧ t.kind = 1 ∧ t.src = src ∧ t.data.length = t.size ∧ img.version ≤ s.rdN Obj.cfgVersion ∧
      s.sec.owner ≠ none) :=
  ⟨⟨.mb 1, jb cUpdateBegin [0, 458752], having (.mb 1) (jb cUpdateBegin [0, 458752]) (on), ⟨ready_of (by decide +kernel),
    fun t h => nomatch h⟩⟩,
   ⟨.mb 1, jb cUpdateBegin [1, 0], ⟨.net 0, 0, 0, []⟩, having (.mb 1) (jb cUpdateBegin [1,
    0]) (on.modCmd (fun c => { c with xfer := some ⟨.net 0, 0, 0, []⟩ })), ⟨ready_of (by decide +kernel), by decide +kernel⟩⟩,
   ⟨.mb 1, jb cUpdateChunk [0, 1, 0], ⟨.mb 1, 1, 0, []⟩, having (.mb 1) (jb cUpdateChunk [0, 1,
    0]) (on.modCmd (fun c => { c with xfer := some ⟨.mb 1, 1, 0, []⟩ })), ⟨ready_of (by decide +kernel), by decide +kernel⟩⟩,
   ⟨.mb 1, jb cUpdateChunk [0, 1, 0], ⟨.net 0, 1, 0, []⟩, having (.mb 1) (jb cUpdateChunk [0, 1,
    0]) (on.modCmd (fun c => { c with xfer := some ⟨.net 0, 1, 0, []⟩ })), ⟨ready_of (by decide +kernel), by decide +kernel⟩⟩,
   ⟨.mb 1, jb cUpdateChunk [1, 1, 0], ⟨.mb 1, 1, 0, []⟩, having (.mb 1) (jb cUpdateChunk [1, 1,
    0]) (on.modCmd (fun c => { c with xfer := some ⟨.mb 1, 1, 0, []⟩ })), ⟨ready_of (by decide +kernel), by decide +kernel⟩⟩,
   ⟨.mb 1, jb cUpdateCommit [], ⟨.mb 1, 0, 0, []⟩,
    having (.mb 1) (jb cUpdateCommit []) (on.modCmd (fun c => { c with xfer := some ⟨.mb 1, 0, 0, []⟩ })),
    ⟨ready_of (by decide +kernel), by decide +kernel⟩⟩,
   ⟨.mb 1, jb cUpdateCommit [], ⟨.mb 1, 0, 0, []⟩,
    having (.mb 1) (jb cUpdateCommit []) ((on.modCmd (fun c => { c with xfer := some ⟨.mb 1, 0, 0, []⟩ })).modSec (fun x => { x with rollback := 1 })),
    ⟨ready_of (by decide +kernel), by decide +kernel⟩⟩,
   ⟨.mb 1, jb cUpdateCommit [], ⟨.mb 1, 1, 0, []⟩, img 1,
    having (.mb 1) (jb cUpdateCommit []) (inMode .config ((on.modCmd (fun c => { c with xfer := some ⟨.mb 1, 1, 0, []⟩ })).modSec (fun x => { x with owner := some [] }))),
    ⟨ready_of (by decide +kernel), by decide +kernel⟩⟩,
   ⟨.mb 1, jb cUpdateCommit [], ⟨.mb 1, 1, 0, []⟩, img 0,
    having (.mb 1) (jb cUpdateCommit []) (inMode .config ((on.modCmd (fun c => { c with xfer := some ⟨.mb 1, 1, 0, []⟩ })).modSec (fun x => { x with owner := some [] }))),
    ⟨ready_of (by decide +kernel), by decide +kernel⟩⟩⟩

/-- Operands and states that meet the hypotheses of `SafetySetCommands`, clause by clause. -/
theorem witness_SafetySetCommands :
    (∃ src : Source, ∃ j : Job, ∃ s : State, Ready src cSafetyLoad j s ∧ s.setXfer (j.arg 0) = none ∧ j.arg 1 = 0 ∧
      (j.arg 2).testBit 31 = false) ∧
    (∃ src : Source, ∃ j : Job, ∃ t : Transfer, ∃ data : List Byte, ∃ s : State, Ready src cSafetyLoad j s ∧
      s.setXfer (j.arg 0) = some t ∧ t.src = src ∧ j.arg 1 = t.data.length ∧ (j.arg 2).testBit 31 = true ∧
      j.arg 0 < 4 ∧ data = t.data ++ slice (wordsToBytes (j.payload.drop 3)) 0 (j.arg 2 % 256) ∧
      paramsOk data (j.arg 0) = true ∧ s.sealed = false) ∧
    (∃ src : Source, ∃ j : Job, ∃ t : Transfer, ∃ s : State, Ready src cSafetyLoad j s ∧ s.setXfer (j.arg 0) = some t ∧ t.src ≠ src) ∧
    (∃ src : Source, ∃ j : Job, ∃ n : Fin 4, ∃ s : State, Ready src cSafetyAccept j s ∧ n.val = j.arg 0 ∧
      (s.safety.sets.get n).state ≠ 0 ∧ j.arg 1 = (crc32 (s.safety.sets.get n).image).toNat ∧
      (s.power.swNow ^^^ s.power.swReset) &&& 0xBFF = 0 ∧ s.sealed = false) ∧
    (∃ src : Source, ∃ j : Job, ∃ n : Fin 4, ∃ s : State, Ready src cSafetyAccept j s ∧ n.val = j.arg 0 ∧
      (s.safety.sets.get n).state = 0) ∧
    (∃ src : Source, ∃ j : Job, ∃ n : Fin 4, ∃ s : State, Ready src cSafetyAccept j s ∧ n.val = j.arg 0 ∧
      (s.safety.sets.get n).state ≠ 0 ∧ j.arg 1 ≠ (crc32 (s.safety.sets.get n).image).toNat) :=
  ⟨⟨.mb 1, jbAs 4 cSafetyLoad [0, 0, 1, 0], having (.mb 1) (jbAs 4 cSafetyLoad [0, 0, 1, 0]) (on), ⟨ready_of (by decide +kernel),
    by decide +kernel⟩⟩,
   ⟨.mb 1, jbAs 4 cSafetyLoad [0, 124, 0x80000004, 0], ⟨.mb 1, 2, 128, setImage.take 124⟩, setImage,
    having (.mb 1) (jbAs 4 cSafetyLoad [0, 124, 0x80000004,
    0]) (on.putSet ⟨.mb 1, 2, 128, setImage.take 124⟩), ⟨ready_of (by decide +kernel),
    by decide +kernel⟩⟩,
   ⟨.mb 1, jbAs 4 cSafetyLoad [0, 0, 1, 0], ⟨.mb 0, 2, 128, []⟩, having (.mb 1) (jbAs 4 cSafetyLoad [0, 0, 1,
    0]) (on.putSet ⟨.mb 0, 2, 128, []⟩), ⟨ready_of (by decide +kernel),
    by decide +kernel⟩⟩,
   ⟨.mb 1, jbAs 4 cSafetyAccept [3, crc32 [1, 2, 3]], 3, having (.mb 1) (jbAs 4 cSafetyAccept [3, crc32 [1, 2,
    3]]) (on.modSafety (fun f => { f with sets := f.sets.set 3 { state := 1, image := [1, 2, 3] } })),
    ⟨ready_of (by decide +kernel), by decide +kernel⟩⟩,
   ⟨.mb 1, jbAs 4 cSafetyAccept [3, 0], 3, having (.mb 1) (jbAs 4 cSafetyAccept [3, 0]) (on), ⟨ready_of (by decide +kernel),
    by decide +kernel⟩⟩,
   ⟨.mb 1, jbAs 4 cSafetyAccept [3, crc32 [1, 2, 3] + 1], 3, having (.mb 1) (jbAs 4 cSafetyAccept [3, crc32 [1, 2,
    3] + 1]) (on.modSafety (fun f => { f with sets := f.sets.set 3 { state := 1, image := [1, 2, 3] } })),
    ⟨ready_of (by decide +kernel), by decide +kernel⟩⟩⟩

/-- Operands and states that meet the hypotheses of `HandoverAndTimeStep`, clause by clause. -/
theorem witness_HandoverAndTimeStep :
    (∃ src : Source, ∃ j : Job, ∃ s : State, Ready src cPairHandover j s ∧ s.paired = true ∧ (s.prRole = 1 ∨ s.prRole = 3) ∧
      s.lastFlag 3 = true) ∧
    (∃ src : Source, ∃ j : Job, ∃ s : State, Ready src cPairHandover j s ∧
      (s.paired = false ∨ s.lastFlag 3 = false ∨ (s.prRole ≠ 1 ∧ s.prRole ≠ 3))) ∧
    (∃ src : Source, ∃ j : Job, ∃ s : State, s.waitingJob src cPairHandover = some j ∧ s.pair.partner = true ∧
      s.pair.roleAct = false) ∧
    (∃ src : Source, ∃ j : Job, ∃ s : State, s.waitingJob src cPairHandover = some j) ∧
    (∃ src : Source, ∃ j : Job, ∃ s : State, Ready src cTimeStep j s ∧ j.arg 0 ≠ 0) ∧
    (∃ src : Source, ∃ j : Job, ∃ s : State, Ready src cTimeStep j s ∧ j.arg 0 = 0 ∧ s.time.lv0.jump = true) ∧
    (∃ src : Source, ∃ j : Job, ∃ s : State, Ready src cTimeStep j s ∧ j.arg 0 = 0 ∧ s.time.lv0.jump = false) :=
  ⟨⟨.mb 0, jb cPairHandover [],
    having (.mb 0) (jb cPairHandover []) (sideA.modPair (fun p => { p with roleAct := true, last := 0 :: 0 :: 8 :: List.replicate 127 0 })),
    ⟨ready_of (by decide +kernel), by decide +kernel⟩⟩,
   ⟨.mb 0, jb cPairHandover [], having (.mb 0) (jb cPairHandover []) (on), ⟨ready_of (by decide +kernel), by decide +kernel⟩⟩,
   ⟨.mb 0, jbWaits cPairHandover, having (.mb 0) (jbWaits cPairHandover) (on.modPair (fun p => { p with partner := true })),
    by decide +kernel⟩,
   ⟨.mb 0, jbWaits cPairHandover, having (.mb 0) (jbWaits cPairHandover) (on), by decide +kernel⟩,
   ⟨.mb 1, jb cTimeStep [1, 0, 0], having (.mb 1) (jb cTimeStep [1, 0, 0]) (on), ⟨ready_of (by decide +kernel),
    by decide +kernel⟩⟩,
   ⟨.mb 1, jb cTimeStep [0], having (.mb 1) (jb cTimeStep [0]) (on.modTime (fun t => { t with lv0 := { jump := true } })),
    ⟨ready_of (by decide +kernel), by decide +kernel⟩⟩,
   ⟨.mb 1, jb cTimeStep [0], having (.mb 1) (jb cTimeStep [0]) (on), ⟨ready_of (by decide +kernel), by decide +kernel⟩⟩⟩

/-- Operands and states that meet the hypotheses of `IgnoredWrites`, clause by clause. -/
theorem witness_IgnoredWrites :
    (∃ aw : Word, ∃ vals : List Word, ∃ s : State, s.askard = true ∧ s.mode ≠ .boot ∧ s.judge aw vals ≠ 0) ∧
    (∃ n : Fin 4, ∃ k : Fin 6, ∃ u : Fin 7, ∃ l : Fin 2, ∃ d : Bool, ∃ x : Fin 3, ∃ v : Int, ∃ s : State,
      ∃ p ∈ [(Instr.peelStatsClr v, Obj.peelStatsClr), (.ignClr v, Obj.ignClr), (.cmdCntClr v, Obj.cmdCntClr), (.streamCntClr v,
      Obj.streamCntClr), (.pwmCntClr n v, Obj.pwmCntClr n.val), (.tripCntClr v, Obj.tripCntClr), (.convCntClr k v,
      Obj.convCntClr k.val), (.fbCntClr n v, Obj.fbCntClr n.val), (.ovenCntClr n v, Obj.ovenCntClr n.val), (.protCntClr n v,
      Obj.protCntClr n.val), (.logClr v, Obj.logClr), (.injCntClr v, Obj.injCntClr), (.ethCntClr v, Obj.ethCntClr),
      (.ppCntClr v, Obj.ppCntClr), (.mlCntClr v, Obj.mlCntClr), (.supplyFlagsClear v, Obj.supplyFlags), (.satFlagsClear k v,
      Obj.satFlags k.val), (.idxArm n v, Obj.idxArm n.val), (.idxModeWrite n v, Obj.idxMode n.val), (.fbModeWrite n d v,
      if d then Obj.fbDirInv n.val else Obj.fbMode n.val), (.evtConfigWrite n x d v,
      if d then Obj.evtPresc n.val x.val else Obj.evtSrc n.val x.val), (.grpLoavesWrite n v, Obj.grpLoaves n.val),
      (.tuIncWrite u v, Obj.tuInc u.val), (.tuLoad u v, Obj.tuLoad u.val), (.hbNet v, Obj.hbNet), (.listTrigWrite l v,
      Obj.listTrig l.val), (.manGo v, Obj.manGo), (.ppAbort v, Obj.ppAbort), (.attestNonce v, Obj.attestNonce)],
      s.askard = true ∧ s.mode ≠ .boot ∧ s.judge (writeWords p.2 v).1 (writeWords p.2 v).2 ≠ 0) ∧
    (∃ reason : Nat, ∃ s : State, (reason = 1 ∨ reason = 2 ∨ reason = 3 ∨ reason = 4 ∨ reason = 5 ∨ reason = 6) ∧
      s.rd Obj.ignoredWrites < 0xFFFFFFFF) ∧
    (∃ reason : Nat, ∃ a : Nat, (reason = 1 ∨ reason = 2 ∨ reason = 3 ∨ reason = 4 ∨ reason = 5 ∨ reason = 6) ∧
      a ∉ [Obj.ignLast, Obj.ignLastReason, Obj.ignoredWrites, Obj.ignNoobj, Obj.ignRo, Obj.ignRange, Obj.ignClassB,
      Obj.ignAbsent, Obj.ignState]) ∧
    (∃ reason : Nat, reason = 1 ∨ reason = 2 ∨ reason = 3 ∨ reason = 4 ∨ reason = 5 ∨ reason = 6) ∧
    (∃ s : State, s.askard = false ∨ s.mode = .boot) ∧
    (∃ idx : Nat, ∃ sub : Nat, ∃ s : State, s.absent idx sub = true) ∧
    (∃ r : ObjRow, ∃ idx : Nat, ∃ sub : Nat, ∃ active : Bool, ∃ v : Int, ∃ s : State, s.absent idx sub = false ∧
      s.namesAbsent idx sub v = false ∧ readOnly r idx sub active = true) ∧
    (∃ r : ObjRow, ∃ idx : Nat, ∃ sub : Nat, ∃ active : Bool, ∃ v : Int, ∃ s : State, s.absent idx sub = false ∧
      s.namesAbsent idx sub v = false ∧ readOnly r idx sub active = false ∧ s.refusedState idx sub v = true) ∧
    (∃ r : ObjRow, ∃ idx : Nat, ∃ sub : Nat, ∃ active : Bool, ∃ v : Int, ∃ s : State, ∃ n : Fin 4, s.absent idx sub = false ∧
      s.namesAbsent idx sub v = false ∧ readOnly r idx sub active = false ∧ s.refusedState idx sub v = false ∧ r.cls = .b ∧
      n ∈ s.classBLoaves idx sub v ∧ s.isOffOpen n = false) ∧
    (∃ r : ObjRow, ∃ idx : Nat, ∃ sub : Nat, ∃ active : Bool, ∃ v : Int, ∃ s : State, s.absent idx sub = false ∧
      s.namesAbsent idx sub v = false ∧ readOnly r idx sub active = false ∧ s.refusedState idx sub v = false ∧ r.cls ≠ .b ∧
      (v < r.min ∨ r.max < v)) :=
  ⟨⟨0, [], on, by decide +kernel⟩,
   ⟨0, 0, 0, 0, true, 0, 2, on, (.peelStatsClr 2, Obj.peelStatsClr), by decide +kernel, by decide +kernel⟩,
   ⟨6, on, by decide +kernel⟩,
   ⟨1, 0, by decide +kernel⟩,
   ⟨6, by decide +kernel⟩,
   ⟨inMode .boot on, by decide +kernel⟩,
   ⟨0x2200, 1, { on with variant := .f2 }, by decide +kernel⟩,
   ⟨row Obj.peelCrcC, 0x1011, 1, true, 0, on, by decide +kernel⟩,
   ⟨row (Obj.cntMode 0), 0x2000, 1, false, 0, inMode .safe on, by decide +kernel⟩,
   ⟨row (Obj.fbMode 0), 0x4000, 1, false, 1, loafIn .closed drive, 0, by decide +kernel⟩,
   ⟨row Obj.ignClr, 0x1010, 9, false, 0, on, by decide +kernel⟩⟩

/-- Operands and states that meet the hypotheses of `ClearObjects`, clause by clause. -/
theorem witness_ClearObjects :
    (∃ s : State, Taken Obj.peelStatsClr 1 s) ∧
    (∃ s : State, Taken Obj.ignClr 1 s) ∧
    (∃ s : State, Taken Obj.cmdCntClr 1 s) ∧
    (∃ s : State, Taken Obj.streamCntClr 1 s) ∧
    (∃ n : Fin 4, ∃ s : State, Taken (Obj.pwmCntClr n.val) 1 s) ∧
    (∃ s : State, Taken Obj.tripCntClr 1 s) ∧
    (∃ k : Fin 6, ∃ s : State, Taken (Obj.convCntClr k.val) 1 s) ∧
    (∃ n : Fin 4, ∃ s : State, Taken (Obj.fbCntClr n.val) 1 s) ∧
    (∃ n : Fin 4, ∃ s : State, Taken (Obj.ovenCntClr n.val) 1 s) ∧
    (∃ n : Fin 4, ∃ s : State, Taken (Obj.protCntClr n.val) 1 s) ∧
    (∃ s : State, Taken Obj.logClr 1 s) ∧
    (∃ s : State, Taken Obj.injCntClr 1 s) ∧
    (∃ s : State, Taken Obj.ethCntClr 1 s) ∧
    (∃ s : State, Taken Obj.ppCntClr 1 s) ∧
    (∃ s : State, Taken Obj.mlCntClr 1 s) ∧
    (∃ n : Fin 4, ∃ k : Fin 6, ∃ s : State, ∃ a ∈ [Obj.peelStatsClr, Obj.ignClr, Obj.cmdCntClr, Obj.streamCntClr,
      Obj.pwmCntClr n.val, Obj.tripCntClr, Obj.convCntClr k.val, Obj.fbCntClr n.val, Obj.ovenCntClr n.val, Obj.protCntClr n.val,
      Obj.logClr, Obj.injCntClr, Obj.ethCntClr, Obj.ppCntClr, Obj.mlCntClr], s.askard = true ∧ s.mode ≠ .boot ∧
      s.has n.val = true ∧ s.hasConv k.val = true) :=
  ⟨⟨on, taken_of (by decide +kernel)⟩,
   ⟨on, taken_of (by decide +kernel)⟩,
   ⟨on, taken_of (by decide +kernel)⟩,
   ⟨on, taken_of (by decide +kernel)⟩,
   ⟨3, on, taken_of (by decide +kernel)⟩,
   ⟨on, taken_of (by decide +kernel)⟩,
   ⟨3, on, taken_of (by decide +kernel)⟩,
   ⟨3, on, taken_of (by decide +kernel)⟩,
   ⟨3, on, taken_of (by decide +kernel)⟩,
   ⟨3, on, taken_of (by decide +kernel)⟩,
   ⟨on, taken_of (by decide +kernel)⟩,
   ⟨on, taken_of (by decide +kernel)⟩,
   ⟨on, taken_of (by decide +kernel)⟩,
   ⟨on, taken_of (by decide +kernel)⟩,
   ⟨on, taken_of (by decide +kernel)⟩,
   ⟨3, 5, on, Obj.mlCntClr, by decide +kernel, by decide +kernel⟩⟩

/-- Operands and states that meet the hypotheses of `ActingWrites`, clause by clause. -/
theorem witness_ActingWrites :
    (∃ v : Int, ∃ s : State, Taken Obj.supplyFlags v s) ∧
    (∃ k : Fin 6, ∃ v : Int, ∃ s : State, Taken (Obj.satFlags k.val) v s) ∧
    (∃ n : Fin 4, ∃ s : State, Taken (Obj.idxArm n.val) 1 s) ∧
    (∃ n : Fin 4, ∃ v : Int, ∃ s : State, Taken (Obj.idxMode n.val) v s) ∧
    (∃ n : Fin 4, ∃ v : Int, ∃ s : State, Taken (Obj.fbMode n.val) v s) ∧
    (∃ n : Fin 4, ∃ v : Int, ∃ s : State, Taken (Obj.fbDirInv n.val) v s) ∧
    (∃ n : Fin 4, ∃ x : Fin 3, ∃ v : Int, ∃ s : State, Taken (Obj.evtSrc n.val x.val) v s) ∧
    (∃ n : Fin 4, ∃ x : Fin 3, ∃ v : Int, ∃ s : State, Taken (Obj.evtPresc n.val x.val) v s) ∧
    (∃ g : Fin 4, ∃ v : Int, ∃ s : State, Taken (Obj.grpLoaves g.val) v s) ∧
    (∃ u : Fin 7, ∃ v : Int, ∃ s : State, Taken (Obj.tuInc u.val) v s) ∧
    (∃ u : Fin 7, ∃ s : State, Taken (Obj.tuLoad u.val) 1 s) ∧
    (∃ v : Int, ∃ s : State, Taken Obj.hbNet v s ∧ s.rd Obj.hbNet ≠ v ∧ s.rdBit Obj.hbSrc 1 = true) ∧
    (∃ v : Int, ∃ s : State, Taken Obj.hbNet v s ∧ (s.rd Obj.hbNet = v ∨ s.rdBit Obj.hbSrc 1 = false)) ∧
    (∃ l : Fin 2, ∃ v : Int, ∃ s : State, Taken (Obj.listTrig l.val) v s) ∧
    (∃ s : State, Taken Obj.manGo 1 s) ∧
    (∃ s : State, Taken Obj.ppAbort 1 s) ∧
    (∃ v : Int, ∃ s : State, Taken Obj.attestNonce v s) ∧
    (∃ n : Nat, ∃ s : State, s.askard = true ∧ s.sec.attest = some n) :=
  ⟨⟨1, on, taken_of (by decide +kernel)⟩,
   ⟨0, 1, on, taken_of (by decide +kernel)⟩,
   ⟨0, on, taken_of (by decide +kernel)⟩,
   ⟨0, 0, on, taken_of (by decide +kernel)⟩,
   ⟨0, 1, on, taken_of (by decide +kernel)⟩,
   ⟨0, 1, on, taken_of (by decide +kernel)⟩,
   ⟨0, 0, 0, on, taken_of (by decide +kernel)⟩,
   ⟨0, 0, 1, on, taken_of (by decide +kernel)⟩,
   ⟨0, 0, on, taken_of (by decide +kernel)⟩,
   ⟨0, 0x400000000, on.wr (Obj.tuTrim 0) 0, taken_of (by decide +kernel)⟩,
   ⟨0, on, taken_of (by decide +kernel)⟩,
   ⟨1, on.wr Obj.hbSrc 2, ⟨taken_of (by decide +kernel), by decide +kernel⟩⟩,
   ⟨0, on, ⟨taken_of (by decide +kernel), by decide +kernel⟩⟩,
   ⟨0, 0, on, taken_of (by decide +kernel)⟩,
   ⟨on, taken_of (by decide +kernel)⟩,
   ⟨on, taken_of (by decide +kernel)⟩,
   ⟨0, on, taken_of (by decide +kernel)⟩,
   ⟨7, on.modSec (fun x => { x with attest := some 7 }), by decide +kernel⟩⟩

/-- Operands and states that meet the hypotheses of `OpenCompareWrites`, clause by clause. -/
theorem witness_OpenCompareWrites :
    (∃ n : Fin 4, ∃ u : Option Int, ∃ v : Option Int, ∃ w : Option Int, ∃ a : Int, ∃ b : Int, ∃ c : Int, ∃ s : State,
      s.askard = true ∧ s.mode ≠ .boot ∧ s.mode ≠ .safe ∧ s.has n.val = true ∧ (u ≠ none ∨ v ≠ none ∨ w ≠ none) ∧ (∀ x,
      u = some x ∨ v = some x ∨ w = some x → 0 ≤ x ∧ x ≤ 0x7FFFFF) ∧ a = u.getD (s.rd (Obj.openCmp n.val 0)) ∧
      b = v.getD (s.rd (Obj.openCmp n.val 1)) ∧ c = w.getD (s.rd (Obj.openCmp n.val 2))) :=
  ⟨0, some 0, some 0x7FFFFF, none, 0, 0x7FFFFF, on.rd (Obj.openCmp 0 2), on, ⟨by decide +kernel, by decide +kernel,
    by decide +kernel, by decide +kernel, by decide +kernel, fun x h => by rcases h with h | h | h <;> cases h <;> decide,
    by decide +kernel, by decide +kernel, by decide +kernel⟩⟩

/-- Operands and states that meet the hypotheses of `ObjectWrites`, clause by clause. -/
theorem witness_ObjectWrites :
    (∃ aw : Word, ∃ vals : List Word, ∃ r : ObjRow, ∃ v : Int, ∃ s : State, s.askard = true ∧ s.mode ≠ .boot ∧
      s.judge aw vals = 0 ∧ objRow (awAddr aw / 0x100) (awAddr aw % 0x100) = some r ∧ r.acc = .rw ∧ r.cls = .none ∧
      decodeValue (awType aw) vals = some v ∧ 0x8000 ≤ awAddr aw / 0x100 ∧ awAddr aw / 0x100 ∉ [0x8100, 0x9000, 0x9030, 0xB005]) :=
  ⟨(writeWords (Obj.phyTxLat 0) 5).1, (writeWords (Obj.phyTxLat 0) 5).2, row (Obj.phyTxLat 0), 5, on, by decide +kernel⟩

/-- Operands and states that meet the hypotheses of `PacketsReceived`, clause by clause. -/
theorem witness_PacketsReceived :
    (∃ r : Region, ∃ k : PktKind, ∃ p : Packet, ∃ s : State, Arrives r k p s ∧ r = .m) ∧
    (∃ r : Region, ∃ k : PktKind, ∃ p : Packet, ∃ s : State, Arrives r k p s ∧ r = .c) ∧
    (∃ r : Region, ∃ k : PktKind, ∃ p : Packet, ∃ s : State, Arrives r k p s) ∧
    (∃ r : Region, ∃ k : PktKind, ∃ p : Packet, ∃ s : State, s.boot.peelTrained = true ∧ s.endUp r = true ∧
      p.payload.length ≤ 64 ∧ p.crc = crc16 (pktBody p) ∧ p.clsTyp = k.head ∧ pktSequenced p = true ∧
      p.seq.toNat ≠ (s.peel r).expect) ∧
    (∃ r : Region, ∃ p : Packet, ∃ s : State, Arrives r .ack p s) ∧
    (∃ r : Region, ∃ p : Packet, ∃ s : State, Arrives r .train p s) ∧
    (∃ p : Packet, ∃ s : State, Arrives .m .objRsp p s) ∧
    (∃ p : Packet, ∃ s : State, Arrives .m .cmdRsp p s) ∧
    (∃ r : Region, ∃ p : Packet, ∃ s : State, ∃ c ∈ [Instr.peelAck r p, .peelNak r p, .peelTrain r p],
      s.boot.peelTrained = false ∨ s.endUp r = false ∨ 64 < p.payload.length) ∧
    (∃ p : Packet, ∃ s : State, ∃ c ∈ [Instr.event p, .peelRecord p, .peelCapture p, .objRsp p, .cmdRsp p, .faultPacketEvent p],
      s.boot.peelTrained = false ∨ s.endUp .m = false ∨ 64 < p.payload.length) ∧
    (∃ p : Packet, ∃ s : State, ∃ c ∈ [Instr.objWr p, .objRd p, .cmd p],
      s.boot.peelTrained = false ∨ s.endUp .c = false ∨ 64 < p.payload.length) ∧
    (∃ p : Packet, ∃ s : State, ∃ c ∈ [Instr.peelAck .c p, .peelNak .c p, .peelTrain .c p, .objWr p, .objRd p, .cmd p],
      s.boot.peelTrained = true ∧ s.endUp .c = true ∧ p.payload.length ≤ 64 ∧ p.crc ≠ crc16 (pktBody p)) ∧
    (∃ p : Packet, ∃ s : State, ∃ c ∈ [Instr.peelAck .m p, .peelNak .m p, .peelTrain .m p, .event p, .peelRecord p,
      .peelCapture p, .objRsp p, .cmdRsp p, .faultPacketEvent p], s.boot.peelTrained = true ∧ s.endUp .m = true ∧
      p.payload.length ≤ 64 ∧ p.crc ≠ crc16 (pktBody p)) :=
  ⟨⟨.m, .event, pk .event (List.replicate 64 1), on, ⟨by unfold Arrives; decide +kernel, by decide +kernel⟩⟩,
   ⟨.c, .objRd, pk .objRd [1, 2, 3, 4], on, ⟨by unfold Arrives; decide +kernel, by decide +kernel⟩⟩,
   ⟨.c, .objRd, pk .objRd [1, 2, 3, 4], on, by unfold Arrives; decide +kernel⟩,
   ⟨.m, .event, { pk .event [1] with seq := 9, crc := crc16 (pktBody { pk .event [1] with seq := 9 }) }, on, by decide +kernel⟩,
   ⟨.m, pk .ack [], on, by unfold Arrives; decide +kernel⟩,
   ⟨.m, pk .train [], on, by unfold Arrives; decide +kernel⟩,
   ⟨pk .objRsp [1, 2, 3, 4], on, by unfold Arrives; decide +kernel⟩,
   ⟨pk .cmdRsp [1, 2, 3, 4], on, by unfold Arrives; decide +kernel⟩,
   ⟨.m, pk .event (List.replicate 65 1), on, .peelAck .m (pk .event (List.replicate 65 1)), by decide +kernel, by decide +kernel⟩,
   ⟨pk .event (List.replicate 65 1), on, .event (pk .event (List.replicate 65 1)), by decide +kernel, by decide +kernel⟩,
   ⟨pk .event (List.replicate 65 1), on, .objWr (pk .event (List.replicate 65 1)), by decide +kernel, by decide +kernel⟩,
   ⟨pkBad, on, .objWr pkBad, by decide +kernel, by decide +kernel⟩,
   ⟨pkBad, on, .event pkBad, by decide +kernel, by decide +kernel⟩⟩

/-- Operands and states that meet the hypotheses of `GrantOrder`, clause by clause. -/
theorem witness_GrantOrder :
    (∃ r : Region, ∃ s : State, s.boot.peelTrained = true ∧ s.endUp r = true) :=
  ⟨.c, on, by decide +kernel⟩

/-- Operands and states that meet the hypotheses of `LinkTimersAndControl`, clause by clause. -/
theorem witness_LinkTimersAndControl :
    (∃ r : Region, ∃ p : Packet, ∃ s : State, Arrives r .nak p s) ∧
    (∃ r : Region, ∃ s : State, s.boot.peelTrained = true ∧ (s.peel r).unacked ≠ []) ∧
    (∃ s : State, 16 ≤ s.peelC.retxRun ∨ 16 ≤ s.peelM.retxRun) ∧
    (∃ t0 : Nat, ∃ s : State, s.peelC.timer = some t0 ∧ s.regionUp = true) ∧
    (∃ t0 : Nat, ∃ s : State, s.peelM.timer = some t0 ∧ s.askard = true) ∧
    (∃ r : Region, ∃ s : State, (s.peel r).timer = none) ∧
    (∃ s : State, s.askard = true ∧ s.boot.wdtHit = false ∧ s.boot.mgtHit = false) ∧
    (∃ s : State, s.boot.wdtHit = true ∨ s.boot.mgtHit = true) ∧
    (∃ s : State, s.askard = true) ∧
    (∃ p : Packet, ∃ t : Nat, ∃ s : State, Arrives .c .heartbeat p (s.atT t)) ∧
    (∃ p : Packet, ∃ t : Nat, ∃ s : State, Arrives .c .sync p (s.atT t)) ∧
    (∃ p : Packet, ∃ s : State, Arrives .m .event p s) :=
  ⟨⟨.m, pk .nak [], on, by unfold Arrives; decide +kernel⟩,
   ⟨.c, on.modPeel .c (fun e => { e with unacked := [pk .event []] }), by decide +kernel⟩,
   ⟨on.modPeel .c (fun e => { e with retxRun := 16 }), by decide +kernel⟩,
   ⟨3, on.modPeel .c (fun e => { e with timer := some 3 }), by decide +kernel⟩,
   ⟨3, on.modPeel .m (fun e => { e with timer := some 3 }), by decide +kernel⟩,
   ⟨.c, on, by decide +kernel⟩,
   ⟨on, by decide +kernel⟩,
   ⟨on.modBoot (fun b => { b with wdtHit := true }), by decide +kernel⟩,
   ⟨on, by decide +kernel⟩,
   ⟨pk .heartbeat [], 5, on, by unfold Arrives; decide +kernel⟩,
   ⟨pk .sync [], 5, on, by unfold Arrives; decide +kernel⟩,
   ⟨pk .event [1, 2], on, by unfold Arrives; decide +kernel⟩⟩

/-- Operands and states that meet the hypotheses of `DataPackets`, clause by clause. -/
theorem witness_DataPackets :
    (∃ p : Packet, ∃ s : State, Arrives .m .record p s) ∧
    (∃ p : Packet, ∃ s : State, ∃ src : Source, ∃ n : Nat, ∃ live : Bool, ∃ rest : List (Source × Nat × Bool),
      Arrives .m .capture p s ∧ s.cmd.capReads = (src, n, live) :: rest) ∧
    (∃ p : Packet, ∃ s : State, ∃ aw : Word, ∃ vals : List Word, Arrives .c .objWr p s ∧ pktWords p = aw :: vals ∧ (p.clsTyp,
      p.payload) ∈ s.cmd.carried) ∧
    (∃ p : Packet, ∃ s : State, ∃ aw : Word, ∃ vals : List Word, Arrives .c .objWr p s ∧ pktWords p = aw :: vals ∧ (p.clsTyp,
      p.payload) ∉ s.cmd.carried ∧ ((s.linked .c .objWr p).judge aw vals ≠ 0 ∨ regionC (awAddr aw / 0x100) = false)) ∧
    (∃ p : Packet, ∃ s : State, ∃ aw : Word, ∃ vals : List Word, ∃ r : ObjRow, ∃ v : Int, Arrives .c .objWr p s ∧
      pktWords p = aw :: vals ∧ (p.clsTyp, p.payload) ∉ s.cmd.carried ∧ (s.linked .c .objWr p).judge aw vals = 0 ∧
      regionC (awAddr aw / 0x100) = true ∧ objRow (awAddr aw / 0x100) (awAddr aw % 0x100) = some r ∧
      decodeValue (awType aw) vals = some v) ∧
    (∃ p : Packet, ∃ s : State, ∃ aw : Word, ∃ rest : List Word, Arrives .c .objRd p s ∧ pktWords p = aw :: rest) ∧
    (∃ p : Packet, ∃ s : State, ∃ w : Word, ∃ rest : List Word, Arrives .c .cmd p s ∧ pktWords p = w :: rest) :=
  ⟨⟨pk .record (List.replicate 64 0), on, by unfold Arrives; decide +kernel⟩,
   ⟨pk .capture [1, 2], on.modCmd (fun c => { c with capReads := [(.mb 2, 4, true)] }), .mb 2, 4, true, [],
    ⟨by unfold Arrives; decide +kernel, by decide +kernel⟩⟩,
   ⟨pk .objWr [0, 0, 0, 0], on.modCmd (fun c => { c with carried := [((pk .objWr [0, 0, 0, 0]).clsTyp, [0, 0, 0, 0])] }), 0, [],
    ⟨by unfold Arrives; decide +kernel, by decide +kernel⟩⟩,
   ⟨pk .objWr [0, 0, 0, 0], on, 0, [], ⟨by unfold Arrives; decide +kernel, by decide +kernel⟩⟩,
   ⟨pk .objWr (wordsToBytes ((writeWords (Obj.evtPresc 0 0) 3).1 :: (writeWords (Obj.evtPresc 0 0) 3).2)), on,
    (writeWords (Obj.evtPresc 0 0) 3).1, (writeWords (Obj.evtPresc 0 0) 3).2, row (Obj.evtPresc 0 0), 3,
    ⟨by unfold Arrives; decide +kernel, by decide +kernel⟩⟩,
   ⟨pk .objRd [0, 0, 0, 0], on, 0, [], ⟨by unfold Arrives; decide +kernel, by decide +kernel⟩⟩,
   ⟨pk .cmd [0, 0, 0, 0], on, 0, [], ⟨by unfold Arrives; decide +kernel, by decide +kernel⟩⟩⟩

/-- Operands and states that meet the hypotheses of `FaultCollector`, clause by clause. -/
theorem witness_FaultCollector :
    (∃ p : Packet, ∃ e : Event, ∃ s : State, Arrives .m .fault p s ∧
      s.flt.evtQ.find? (fun x => eventPayload x == p.payload) = some e) ∧
    (∃ p : Packet, ∃ s : State, Arrives .m .fault p s ∧ (∀ e ∈ s.flt.evtQ, eventPayload e ≠ p.payload)) ∧
    (∃ e : LogEntry, ∃ rest : List LogEntry, ∃ s : State, s.askard = true ∧ s.flt.nvQ = e :: rest) ∧
    (∃ e : AuditEntry, ∃ init : List AuditEntry, ∃ s : State, s.askard = true ∧ s.sec.auditQ = init ++ [e]) ∧
    (∃ s : State, s.resetOver = true) ∧
    (∃ code : Half, ∃ inst : Half, ∃ s : State, s.resetOver = true ∧ s.raisable code inst = true ∧ code ≠ 0x4403 ∧
      s.flt.inj = [] ∧ s.isPending code inst = true) ∧
    (∃ code : Half, ∃ inst : Half, ∃ s : State, s.raisable code inst = false) ∧
    (∃ code : Half, ∃ inst : Half, codeRow code = none ∨ 256 ≤ inst.toNat) ∧
    (∃ s : State, s.resetOver = false) :=
  ⟨⟨pk .fault (eventPayload ⟨1, 0, .c3, 2, 0, 1, 1, 0, 0, false⟩), ⟨1, 0, .c3, 2, 0, 1, 1, 0, 0, false⟩,
    on.modFlt (fun f => { f with evtQ := [⟨1, 0, .c3, 2, 0, 1, 1, 0, 0, false⟩] }), ⟨by unfold Arrives; decide +kernel,
    by decide +kernel⟩⟩,
   ⟨pkFault 1 0 0, on, ⟨by unfold Arrives; decide +kernel, by decide +kernel⟩⟩,
   ⟨⟨0, 1, ⟨1, 0, .c3, 2, 0, 1, 1, 0, 0, false⟩⟩, [],
    on.modFlt (fun f => { f with nvQ := [⟨0, 1, ⟨1, 0, .c3, 2, 0, 1, 1, 0, 0, false⟩⟩] }), by decide +kernel⟩,
   ⟨⟨0, 1, 2, 3, 4, 5, 6, 7, []⟩, [], on.modSec (fun x => { x with auditQ := [⟨0, 1, 2, 3, 4, 5, 6, 7, []⟩] }), by decide +kernel⟩,
   ⟨on, by decide +kernel⟩,
   ⟨1, 0, pending [pd 1 0] on, by decide +kernel⟩,
   ⟨0xFFFF, 0, on, by decide +kernel⟩,
   ⟨0xFFFF, 0, by decide +kernel⟩,
   ⟨State.reset, by decide +kernel⟩⟩

/-- Operands and states that meet the hypotheses of `GraceAndFaultPackets`, clause by clause. -/
theorem witness_GraceAndFaultPackets :
    (∃ code : Half, ∃ inst : Half, ∃ q : Pend, ∃ e : Nat, ∃ t : Nat, ∃ s : State,
      s.flt.pend.find? (fun p => p.code == code && p.inst == inst) = some q ∧ q.window = some e ∧ e ≤ (s.atT t).time.now) ∧
    (∃ code : Half, ∃ inst : Half, ∃ q : Pend, ∃ e : Nat, ∃ t : Nat, ∃ s : State,
      s.flt.pend.find? (fun p => p.code == code && p.inst == inst) = some q ∧ q.window = some e ∧ (s.atT t).time.now < e) ∧
    (∃ p : Packet, ∃ q : Pend, ∃ e : Nat, ∃ t : Nat, ∃ s : State, Arrives .c .fault p (s.atT t) ∧ pktAction p = 1 ∧
      s.flt.pend.find? (fun x => x.code == pktCode p && x.inst == pktInst p) = some q ∧ q.window = some e ∧
      (s.atT t).time.now < e) ∧
    (∃ p : Packet, ∃ t : Nat, ∃ s : State, Arrives .c .fault p (s.atT t) ∧ pktAction p = 1 ∧ (∀ x ∈ s.flt.pend,
      x.code = pktCode p → x.inst ≠ pktInst p)) ∧
    (∃ p : Packet, ∃ t : Nat, ∃ s : State, Arrives .c .fault p (s.atT t) ∧ pktAction p = 0) ∧
    (∃ p : Packet, ∃ t : Nat, ∃ s : State, Arrives .c .fault p (s.atT t) ∧
      (pktAction p = 2 ∨ pktAction p = 3 ∨ pktAction p = 4) ∧ (p.clsTyp, p.payload) ∈ s.cmd.carried) ∧
    (∃ p : Packet, ∃ t : Nat, ∃ s : State, Arrives .c .fault p (s.atT t) ∧ pktAction p = 2 ∧ (p.clsTyp,
      p.payload) ∉ s.cmd.carried ∧ (∀ x ∈ s.flt.pend,
      clearNames (pktCode p) (pktInst p) x.code x.inst = true → ((s.atT t).linked .c .fault p).resetOnlyCode x.code = false ∧
      ((s.atT t).linked .c .fault p).persists x = false)) ∧
    (∃ p : Packet, ∃ t : Nat, ∃ x : Pend, ∃ s : State, Arrives .c .fault p (s.atT t) ∧ pktAction p = 2 ∧ (p.clsTyp,
      p.payload) ∉ s.cmd.carried ∧ x ∈ s.flt.pend ∧ clearNames (pktCode p) (pktInst p) x.code x.inst = true ∧
      (((s.atT t).linked .c .fault p).resetOnlyCode x.code = true ∨ ((s.atT t).linked .c .fault p).persists x = true)) ∧
    (∃ p : Packet, ∃ t : Nat, ∃ s : State, Arrives .c .fault p (s.atT t) ∧ pktAction p = 3 ∧ s.flt.inj.length < 4 ∧ (p.clsTyp,
      p.payload) ∉ s.cmd.carried ∧ s.raisable (pktCode p) (pktInst p) = true ∧ injectable (pktCode p) false = true) ∧
    (∃ p : Packet, ∃ t : Nat, ∃ s : State, Arrives .c .fault p (s.atT t) ∧ pktAction p = 4 ∧ s.flt.inj.length < 4 ∧ (p.clsTyp,
      p.payload) ∉ s.cmd.carried ∧ s.raisable (pktCode p) (pktInst p) = true ∧ injectable (pktCode p) true = true) ∧
    (∃ p : Packet, ∃ t : Nat, ∃ s : State, Arrives .c .fault p (s.atT t) ∧ (pktAction p = 3 ∨ pktAction p = 4) ∧ (p.clsTyp,
      p.payload) ∉ s.cmd.carried ∧ 4 ≤ s.flt.inj.length) :=
  ⟨⟨2, 1, pdOpen 2 1 5, 5, 5, pending [pdOpen 2 1 5] on, by decide +kernel⟩,
   ⟨2, 1, pdOpen 2 1 5, 5, 4, pending [pdOpen 2 1 5] on, by decide +kernel⟩,
   ⟨pkFault 2 1 1, pdOpen 2 1 5, 5, 4, pending [pdOpen 2 1 5] on, ⟨by unfold Arrives; decide +kernel, by decide +kernel⟩⟩,
   ⟨pkFault 2 1 1, 4, pending [pd 2 0] on, ⟨by unfold Arrives; decide +kernel, by decide +kernel⟩⟩,
   ⟨pkFault 1 0 0, 4, on, ⟨by unfold Arrives; decide +kernel, by decide +kernel⟩⟩,
   ⟨pkFault 1 0 2, 4, on.modCmd (fun c => { c with carried := [((pkFault 1 0 2).clsTyp, (pkFault 1 0 2).payload)] }),
    ⟨by unfold Arrives; decide +kernel, by decide +kernel⟩⟩,
   ⟨pkFault 0xFFFF 0xFFFF 2, 4, pending [pd 0x5001 0] on, ⟨by unfold Arrives; decide +kernel, by decide +kernel⟩⟩,
   ⟨pkFault 0xFFFF 0xFFFF 2, 4, pd 0xE401 0, pending [pd 0xE401 0] on, ⟨by unfold Arrives; decide +kernel, by decide +kernel⟩⟩,
   ⟨pkFault 0x4001 0 3, 0, on, ⟨by unfold Arrives; decide +kernel, by decide +kernel⟩⟩,
   ⟨pkFault 0x4001 0 4, 0, on, ⟨by unfold Arrives; decide +kernel, by decide +kernel⟩⟩,
   ⟨pkFault 0x4001 0 4, 0, full on, ⟨by unfold Arrives; decide +kernel, by decide +kernel⟩⟩⟩

/-- Operands and states that meet the hypotheses of `HaltsAndBeats`, clause by clause. -/
theorem witness_HaltsAndBeats :
    (∃ s : State, s.sec.unlocked = true ∧ s.regionUp = true) ∧
    (∃ s : State, s.sec.unlocked = false ∨ s.regionUp = false) ∧
    (∃ p : Packet, ∃ t : Nat, ∃ s : State, Arrives .c .fault p (s.atT t) ∧ pktAction p = 5 ∧ s.sec.unlocked = true) ∧
    (∃ t0 : Nat, ∃ s : State, s.askard = true ∧ s.flt.hbArmed = true ∧ s.rd Obj.hbTimeout ≠ 0 ∧ s.flt.hbSaid = false ∧
      s.flt.lastBeat = some t0) ∧
    (∃ s : State,
      s.flt.hbSaid = true ∨ s.flt.hbArmed = false ∨ s.rd Obj.hbTimeout = 0 ∨ s.askard = false ∨ s.flt.lastBeat = none) ∧
    (∃ t : Nat, ∃ s : State, s.regionUp = true ∧ (s.atT t).beatOk = true ∧ (s.atT t).beatDue = true) ∧
    (∃ t : Nat, ∃ s : State, s.regionUp = false ∨ (s.atT t).beatOk = false ∨ (s.atT t).beatDue = false) :=
  ⟨⟨on.modSec (fun x => { x with unlocked := true }), by decide +kernel⟩,
   ⟨on, by decide +kernel⟩,
   ⟨pkFault 0 0 5, 0, on.modSec (fun x => { x with unlocked := true }), ⟨by unfold Arrives; decide +kernel, by decide +kernel⟩⟩,
   ⟨0, (on.wr Obj.hbTimeout 10).modFlt (fun f => { f with hbArmed := true, lastBeat := some 0 }), by decide +kernel⟩,
   ⟨on, by decide +kernel⟩,
   ⟨95000, on, by decide +kernel⟩,
   ⟨94999, on, by decide +kernel⟩⟩

/-- Operands and states that meet the hypotheses of `GroupTimers`, clause by clause. -/
theorem witness_GroupTimers :
    (∃ g : Fin 4, ∃ t : Nat, ∃ s : State, (s.atT t).aligning g = true ∧
      (s.atT t).elapsed g (s.grp.get g).startT (Obj.startAlign g.val) = true ∧ s.rdN (Obj.starter g.val) ≠ 3) ∧
    (∃ g : Fin 4, ∃ t : Nat, ∃ s : State, (s.atT t).aligning g = true ∧
      (s.atT t).elapsed g (s.grp.get g).startT (Obj.startAlign g.val) = true ∧ s.rdN (Obj.starter g.val) = 3) ∧
    (∃ g : Fin 4, ∃ s : State, (s.grp.get g).startPhase = 5 ∧ s.pulsesDone g = true ∧
      0 < s.rd (Obj.polMin g.val + s.bankOfGroup g) ∧ s.rd (Obj.polMin g.val + s.bankOfGroup g) ≤ (s.grp.get g).polResp) ∧
    (∃ g : Fin 4, ∃ s : State, (s.grp.get g).startPhase = 5 ∧ s.pulsesDone g = true ∧
      0 < s.rd (Obj.polMin g.val + s.bankOfGroup g) ∧ (s.grp.get g).polResp ≤ -s.rd (Obj.polMin g.val + s.bankOfGroup g)) ∧
    (∃ g : Fin 4, ∃ s : State, (s.grp.get g).startPhase = 5 ∧ s.pulsesDone g = true ∧
      0 < s.rd (Obj.polMin g.val + s.bankOfGroup g) ∧ -s.rd (Obj.polMin g.val + s.bankOfGroup g) < (s.grp.get g).polResp ∧
      (s.grp.get g).polResp < s.rd (Obj.polMin g.val + s.bankOfGroup g)) ∧
    (∃ g : Fin 4, ∃ t : Nat, ∃ s : State, (s.atT t).aligning g = true ∧ s.rdN (Obj.starter g.val) = 3 ∧
      (s.atT t).elapsed g (s.grp.get g).startT (Obj.startTimeout g.val) = true) ∧
    (∃ g : Fin 4, ∃ pol : Int, ∃ t : Nat, ∃ s : State, ∃ c ∈ [Instr.starterAlignEnd g pol t, .starterTimeout g t],
      (s.atT t).aligning g = false) ∧
    (∃ g : Fin 4, ∃ b : Nat, ∃ t : Nat, ∃ s : State, s.regionUp = true ∧ (s.grp.get g).stallT = some b ∧
      (s.atT t).elapsed g b (Obj.stallTime g.val) = true) ∧
    (∃ g : Fin 4, ∃ s : State, (s.grp.get g).stallT = none) ∧
    (∃ g : Fin 4, ∃ t : Nat, ∃ s : State, s.regionUp = true ∧ (s.grp.get g).st = .stopping ∧ (s.grp.get g).stallHold = true ∧
      (s.grp.get g).brakeDue = false ∧ (s.atT t).elapsed g (s.grp.get g).startT (Obj.stallHold g.val) = true) ∧
    (∃ g : Fin 4, ∃ t : Nat, ∃ s : State, s.regionUp = true ∧ (s.grp.get g).st = .stopping ∧ (s.grp.get g).brakeDue = true ∧
      s.rd (Obj.stallMode g.val) = 1 ∧ (s.grp.get g).brakeT + s.rdN Obj.sbcDelay * msCycles ≤ (s.atT t).time.now) ∧
    (∃ g : Fin 4, ∃ t : Nat, ∃ s : State, ∃ c ∈ [Instr.stallHoldExpiry g t, .sbcDelayExpiry g t, .stopTimeout g t],
      (s.grp.get g).st ≠ .stopping) ∧
    (∃ g : Fin 4, ∃ t : Nat, ∃ s : State, s.regionUp = true ∧ (s.grp.get g).st = .stopping ∧
      (s.atT t).elapsed g (s.grp.get g).startT (Obj.stopTimeout g.val) = true) ∧
    (∃ g : Fin 4, ∃ b : Nat, ∃ t : Nat, ∃ s : State, s.regionUp = true ∧ (s.grp.get g).invT = some b ∧
      (s.atT t).elapsed g b (Obj.spdInvMs g.val) = true) :=
  ⟨⟨0, 200000000000, on.modGrp 0 (fun g => { g with st := .starting, startPhase := 1 }), by decide +kernel⟩,
   ⟨0, 200000000000, (on.modGrp 0 (fun g => { g with st := .starting, startPhase := 1 })).wrs [(Obj.starter 0, 3), (Obj.polMin 0,
    5)], by decide +kernel⟩,
   ⟨0, ((on.modGrp 0 (fun g => { g with st := .starting, startPhase := 5, polResp := 5 })).wrs [(Obj.starter 0, 3), (Obj.polMin 0,
    5)]).atT 200000000000, by decide +kernel⟩,
   ⟨0, ((on.modGrp 0 (fun g => { g with st := .starting, startPhase := 5, polResp := -5 })).wrs [(Obj.starter 0, 3),
    (Obj.polMin 0, 5)]).atT 200000000000, by decide +kernel⟩,
   ⟨0, ((on.modGrp 0 (fun g => { g with st := .starting, startPhase := 5, polResp := 4 })).wrs [(Obj.starter 0, 3), (Obj.polMin 0,
    5)]).atT 200000000000, by decide +kernel⟩,
   ⟨0, 200000000000, (on.modGrp 0 (fun g => { g with st := .starting, startPhase := 1 })).wrs [(Obj.starter 0, 3), (Obj.polMin 0,
    5)], by decide +kernel⟩,
   ⟨0, 0, 0, on, .starterTimeout 0 0, by decide +kernel, by decide +kernel⟩,
   ⟨0, 0, 200000000000, on.modGrp 0 (fun g => { g with stallT := some 0 }), by decide +kernel⟩,
   ⟨0, on, by decide +kernel⟩,
   ⟨0, 200000000000, on.modGrp 0 (fun g => { g with st := .stopping, stallHold := true }), by decide +kernel⟩,
   ⟨0, 200000000000, (on.wr (Obj.stallMode 0) 1).modGrp 0 (fun g => { g with st := .stopping, brakeDue := true }),
    by decide +kernel⟩,
   ⟨0, 0, on, .stopTimeout 0 0, by decide +kernel, by decide +kernel⟩,
   ⟨0, 200000000000, grpIn .stopping on, by decide +kernel⟩,
   ⟨0, 0, 200000000000, on.modGrp 0 (fun g => { g with invT := some 0 }), by decide +kernel⟩⟩

/-- Operands and states that meet the hypotheses of `PeriodsAndFrames`, clause by clause. -/
theorem witness_PeriodsAndFrames :
    (∃ n : Fin 4, ∃ t : Nat, ∃ s : State, s.regionUp = true ∧ s.has n.val = true ∧ s.startsAt n t = true ∧ s.haltC = false ∧
      s.haltM = false) ∧
    (∃ n : Fin 4, ∃ t : Nat, ∃ s : State, s.startsAt n t = false ∨ s.haltC = true ∨ s.haltM = true) ∧
    (∃ n : Fin 4, ∃ t : Nat, ∃ s : State, s.regionUp = true ∧ s.has n.val = true ∧ (s.atT t).tickNow n = true) ∧
    (∃ n : Fin 4, ∃ t : Nat, ∃ s : State, (s.atT t).tickNow n = false) ∧
    (∃ n : Fin 4, ∃ t : Nat, ∃ s : State, s.periodEnds n t = true) ∧
    (∃ n : Fin 4, ∃ t : Nat, ∃ s : State, s.counterRuns n = true ∧ (s.loaf.get n).peakDue = some t ∧ s.atPeak n t = false) ∧
    (∃ n : Fin 4, ∃ t : Nat, ∃ s : State, ∃ c ∈ [Instr.periodStart n t, .pwmPeak n t, .frameBoundary n t, .frameClose n t,
      .loafFrameCompute n t], s.counterRuns n = false) ∧
    (∃ n : Fin 4, ∃ t : Nat, ∃ c : Commit, ∃ s : State, s.counterRuns n = true ∧ s.boundaryDue n t = true ∧
      takenCommit (s.loaf.get n).commits t = some c) ∧
    (∃ n : Fin 4, ∃ t : Nat, ∃ s : State, s.counterRuns n = true ∧ s.boundaryDue n t = true ∧ (s.loaf.get n).st = .closed ∧
      takenCommit (s.loaf.get n).commits t = none) ∧
    (∃ n : Fin 4, ∃ t : Nat, ∃ s : State, s.counterRuns n = true ∧ s.boundaryDue n t = false) ∧
    (∃ n : Fin 4, ∃ t : Nat, ∃ u : State, ∃ x : State, u.fbHandoff n t = x ∧ x.groupOf n = none) ∧
    (∃ n : Fin 4, ∃ t : Nat, ∃ u : State, ∃ x : State, ∃ g : Fin 4, u.fbHandoff n t = x ∧ x.groupOf n = some g ∧
      x.fbWaits n = true ∧ (x.grp.get g).st.active = true) ∧
    (∃ n : Fin 4, ∃ t : Nat, ∃ u : State, ∃ x : State, ∃ g : Fin 4, u.fbHandoff n t = x ∧ x.groupOf n = some g ∧
      (x.fbWaits n = false ∨ (x.grp.get g).st.active = false)) ∧
    (∃ n : Fin 4, ∃ t : Nat, ∃ s : State, s.counterRuns n = true ∧ s.closeDue n t = true) ∧
    (∃ n : Fin 4, ∃ t : Nat, ∃ s : State, s.closeDue n t = false) :=
  ⟨⟨0, 9, (loafIn .open_ on).modLoaf 0 (fun l => { l with firstTick := some 9 }), by decide +kernel⟩,
   ⟨0, 0, on, by decide +kernel⟩,
   ⟨0, 0, on.wrs [(Obj.epochInterval 0, 1), (Obj.epochPhase 0, 0)], by decide +kernel⟩,
   ⟨0, 0, on.modTime (fun t => { t with units := List.replicate 7 (2 ^ 32 * 500) }), by decide +kernel⟩,
   ⟨0, 100, on.modLoaf 0 (fun l => { l with running := true, st := .closed, nextStart := 100, actLen := 5 }), by decide +kernel⟩,
   ⟨0, 50, (on.wr (Obj.peakReload 0) 0).modLoaf 0 (fun l => { l with running := true, st := .closed, peakDue := some 50 }),
    by decide +kernel⟩,
   ⟨0, 0, on, .periodStart 0 0, by decide +kernel, by decide +kernel⟩,
   ⟨0, 20, ⟨(1, 1, 1), 0⟩,
    on.modLoaf 0 (fun l => { l with running := true, st := .closed, nextStart := 20, commits := [⟨(1, 1, 1), 0⟩] }),
    by decide +kernel⟩,
   ⟨0, 0, on.modLoaf 0 (fun l => { l with running := true, st := .closed }), by decide +kernel⟩,
   ⟨0, 0, (on.modLoaf 0 (fun l => { l with running := true, st := .closed })).modLoaf 0 (fun l => { l with actLen := 1 }),
    by decide +kernel⟩,
   ⟨0, 0, (on.wrs [(Obj.grpLoaves 0, 0), (Obj.grpLoaves 1, 0), (Obj.grpLoaves 2, 0), (Obj.grpLoaves 3, 0)]),
    (on.wrs [(Obj.grpLoaves 0, 0), (Obj.grpLoaves 1, 0), (Obj.grpLoaves 2, 0), (Obj.grpLoaves 3, 0)]).fbHandoff 0 0, ⟨rfl,
    by decide +kernel⟩⟩,
   ⟨0, 0, (((grpIn .running on).wr (Obj.grpLoaves 0) 1).modFb 0 (fun f => { f with mergeDue := some 0 })),
    (((grpIn .running on).wr (Obj.grpLoaves 0) 1).modFb 0 (fun f => { f with mergeDue := some 0 })).fbHandoff 0 0, 0, ⟨rfl,
    by decide +kernel⟩⟩,
   ⟨0, 0, (on.wr (Obj.grpLoaves 0) 1), (on.wr (Obj.grpLoaves 0) 1).fbHandoff 0 0, 0, ⟨rfl, by decide +kernel⟩⟩,
   ⟨0, 60, (on.modLoaf 0 (fun l => { l with running := true, st := .closed })).modLoaf 0 (fun l => { l with closing := true }),
    by decide +kernel⟩,
   ⟨0, 0, on, by decide +kernel⟩⟩

/-- Operands and states that meet the hypotheses of `FrameComputation`, clause by clause. -/
theorem witness_FrameComputation :
    (∃ n : Fin 4, ∃ t : Nat, ∃ a : Arb, ∃ s : State, ∃ w : State, s.ovenArb.grant 4 (s.atT t).frameDue = some (n.val, a) ∧
      w = ({ s.atT t with ovenArb := a }).scMissed n) ∧
    (∃ n : Fin 4, ∃ s : State, s.fbWaits n = false ∧ (s.loaf.get n).grpDue = false) ∧
    (∃ n : Fin 4, ∃ t : Nat, ∃ s : State, s.ovenArb.grant 4 (s.atT t).frameDue = none ∨ (∃ m a,
      s.ovenArb.grant 4 (s.atT t).frameDue = some (m, a) ∧ m ≠ n.val)) ∧
    (∃ n : Fin 4, ∃ s : State, (∀ m : Fin 4, s.frameDue m.val = true ↔ m = n)) :=
  ⟨⟨0, 0,
    (((on.modLoaf 0 (fun l => { l with running := true, st := .closed })).modLoaf 0 (fun l => { l with due := true })).ovenArb.grant 4 (((on.modLoaf 0 (fun l => { l with running := true, st := .closed })).modLoaf 0 (fun l => { l with due := true })).atT 0).frameDue).get!.2,
    (on.modLoaf 0 (fun l => { l with running := true, st := .closed })).modLoaf 0 (fun l => { l with due := true }),
    ({ ((on.modLoaf 0 (fun l => { l with running := true, st := .closed })).modLoaf 0 (fun l => { l with due := true })).atT 0 with ovenArb := (((on.modLoaf 0 (fun l => { l with running := true, st := .closed })).modLoaf 0 (fun l => { l with due := true })).ovenArb.grant 4 (((on.modLoaf 0 (fun l => { l with running := true, st := .closed })).modLoaf 0 (fun l => { l with due := true })).atT 0).frameDue).get!.2 }).scMissed 0,
    ⟨by decide +kernel, rfl⟩⟩,
   ⟨0, on, by decide +kernel⟩,
   ⟨0, 0, on, .inl (by decide +kernel)⟩,
   ⟨0, (on.modLoaf 0 (fun l => { l with running := true, st := .closed })).modLoaf 0 (fun l => { l with due := true }),
    by decide +kernel⟩⟩

/-- Operands and states that meet the hypotheses of `Trips`, clause by clause. -/
theorem witness_Trips :
    (∃ i : Fin 16, ∃ n : Fin 4, ∃ ns : Nat, ∃ s : State, s.tripLive i.val n = true ∧
      (i.val = 12 ∨ i.val = 13 → s.detects i.val n = true) ∧
      filterTakes (decide (i.val < 12)) (s.tripFilt i.val) ns (Config.filterFree s.freeNo) = true ∧
      (s.trip.get n).getLsbD i.val = false ∧ (s.mapNibble i.val n).testBit 0 = true ∧ (s.mapNibble i.val n).testBit 1 = false) ∧
    (∃ i : Fin 16, ∃ n : Fin 4, ∃ ns : Nat, ∃ s : State, s.tripLive i.val n = true ∧
      (i.val = 12 ∨ i.val = 13 → s.detects i.val n = true) ∧
      filterTakes (decide (i.val < 12)) (s.tripFilt i.val) ns (Config.filterFree s.freeNo) = true ∧
      (s.trip.get n).getLsbD i.val = false ∧ (s.mapNibble i.val n).testBit 0 = true ∧ (s.mapNibble i.val n).testBit 1 = true) ∧
    (∃ i : Fin 16, ∃ n : Fin 4, ∃ ns : Nat, ∃ t : Nat, ∃ s : State, ∃ c ∈ [Instr.tripLatch i n ns t, .tripCycleGap i n ns t],
      s.tripLive i.val n = true ∧ (i.val = 12 ∨ i.val = 13 → s.detects i.val n = true) ∧
      filterTakes (decide (i.val < 12)) (s.tripFilt i.val) ns (Config.filterFree s.freeNo) = true ∧
      (s.trip.get n).getLsbD i.val = false ∧ (s.mapNibble i.val n).testBit 0 = false) ∧
    (∃ i : Fin 16, ∃ n : Fin 4, ∃ ns : Nat, ∃ t : Nat, ∃ s : State, ∃ c ∈ [Instr.tripLatch i n ns t, .tripCycleGap i n ns t],
      (s.trip.get n).getLsbD i.val = true ∨ filterTakes (decide (i.val < 12)) (s.tripFilt i.val) ns (Config.filterFree s.freeNo) = false) ∧
    (∃ i : Fin 16, ∃ n : Fin 4, ∃ ns : Nat, ∃ t : Nat, ∃ s : State, ∃ c ∈ [Instr.tripLatch i n ns t, .tripCycleGap i n ns t],
      s.tripLive i.val n = false ∨ ((i.val = 12 ∨ i.val = 13) ∧ s.detects i.val n = false)) ∧
    (∃ f : Nat, ∃ ns : Nat, (f + 2) * 5 ≤ ns) ∧
    (∃ f : Nat, ∃ ns : Nat, 2 ≤ f ∧ ns < (f - 1) * 5) ∧
    (∃ i : Fin 16, ∃ n : Fin 4, ∃ ns : Nat, ∃ s : State, s.tripLive i.val n = true ∧
      (i.val = 12 ∨ i.val = 13 → s.detects i.val n = false) ∧
      filterTakes (decide (i.val < 12)) (s.tripFilt i.val) ns (Config.filterFree s.freeNo) = true) ∧
    (∃ i : Fin 16, ∃ n : Fin 4, ∃ s : State, s.tripLive i.val n = false ∨ ((i.val = 12 ∨ i.val = 13) ∧
      s.detects i.val n = true)) ∧
    (∃ n : Fin 4, ∃ s : State, s.regionUp = true ∧ s.has n.val = true) :=
  ⟨⟨0, 0, 1000, on.wrs [(Obj.tripMap 0, 1), (Obj.tripFilt 0, 1)], by decide +kernel⟩,
   ⟨0, 0, 1000, on.wrs [(Obj.tripMap 0, 3), (Obj.tripFilt 0, 1)], by decide +kernel⟩,
   ⟨0, 0, 1000, 0, on.wrs [(Obj.tripMap 0, 0), (Obj.tripFilt 0, 1)], .tripLatch 0 0 1000 0, by decide +kernel, by decide +kernel⟩,
   ⟨0, 0, 1000, 0, { on with trip := Quad.all 1 }, .tripCycleGap 0 0 1000 0, by decide +kernel, by decide +kernel⟩,
   ⟨12, 0, 0, 0, on, .tripLatch 12 0 0 0, by decide +kernel, by decide +kernel⟩,
   ⟨1, 15, by decide +kernel⟩,
   ⟨2, 4, by decide +kernel⟩,
   ⟨0, 0, 1000, on.wrs [(Obj.tripMap 0, 1), (Obj.tripFilt 0, 1)], by decide +kernel⟩,
   ⟨0, 0, State.reset, by decide +kernel⟩,
   ⟨0, on, by decide +kernel⟩⟩

/-- Operands and states that meet the hypotheses of `Samples`, clause by clause. -/
theorem witness_Samples :
    (∃ k : Fin 6, ∃ i : Fin 9, ∃ raw : Int, ∃ inst : Nat, ∃ t : Nat, ∃ s : State, ∃ s1 : State, s.regionUp = true ∧
      s.hasConv k.val = true ∧ inputWf k i = true ∧ rawWf k raw = true ∧ k.val < 4 ∧
      (s.atT t).seqResult k.val i.val inst = some s1) ∧
    (∃ k : Fin 6, ∃ i : Fin 9, ∃ raw : Int, ∃ inst : Nat, ∃ t : Nat, ∃ s : State, ∃ s1 : State, s.regionUp = true ∧
      s.hasConv k.val = true ∧ inputWf k i = true ∧ rawWf k raw = true ∧ k.val < 4 ∧ s.rd (Obj.pairMode (evenOf k.val)) ≠ 2 ∧
      (s.atT t).seqHold k.val i.val inst = some s1) ∧
    (∃ k : Nat, ∃ i : Nat, ∃ inst : Nat, ∃ s : State, (s.convAt k).held.contains (i,
      inst) = true ∨ (s.convAt k).gone.contains (i, inst) = true) ∧
    (∃ k : Fin 6, ∃ i : Fin 9, ∃ raw : Int, ∃ s : State, s.regionUp = true ∧ inputWf k i = true ∧ rawWf k raw = true ∧
      k.val = 5) ∧
    (∃ k : Fin 6, ∃ i : Fin 9, ∃ raw : Int, ∃ s : State, s.regionUp = true ∧ inputWf k i = true ∧ rawWf k raw = true ∧
      k.val = 4) ∧
    (∃ k : Fin 6, ∃ i : Fin 9, ∃ raw : Int, ∃ rest : List Nat, ∃ s : State, s.regionUp = true ∧ s.hasConv k.val = true ∧
      inputWf k i = true ∧ rawWf k raw = true ∧ k.val < 4 ∧ s.rd (Obj.pairMode (evenOf k.val)) ≠ 2 ∧
      (s.conv.get k).injRun = some (i.val :: rest)) ∧
    (∃ k : Fin 6, ∃ i : Fin 9, ∃ raw : Int, ∃ left : Nat, ∃ s : State, s.regionUp = true ∧ s.hasConv k.val = true ∧
      inputWf k i = true ∧ rawWf k raw = true ∧ k.val < 4 ∧ s.rd (Obj.pairMode (evenOf k.val)) = 1 ∧
      s.rdN (Obj.pairSrc (evenOf k.val)) < 18 ∧ i.val = (s.pairInput (evenOf k.val)).2 ∧
      (s.convAt (evenOf k.val)).burst = some left ∧ 2 ≤ left) ∧
    (∃ k : Fin 6, ∃ i : Fin 9, ∃ inst : Nat, ∃ t : Nat, ∃ s : State, k.val < 4 ∧ (s.atT t).seqResult k.val i.val inst = none) ∧
    (∃ k : Fin 6, ∃ s : State, k.val < 4 ∧ (s.conv.get k).injRun = none) ∧
    (∃ k : Fin 6, ∃ s : State, k.val < 4 ∧ s.rd (Obj.pairMode (evenOf k.val)) = 0) ∧
    (∃ k : Fin 6, ∃ s : State, ∃ kind ∈ [SampleKind.held, .injected], k.val < 4 ∧ s.rd (Obj.pairMode (evenOf k.val)) = 2) ∧
    (∃ k : Fin 6, ∃ i : Fin 9, ∃ inst : Nat, ∃ s : State, k.val < 4 ∧ s.rd (Obj.pairMode (evenOf k.val)) = 2 ∧
      (s.convAt k.val).held.contains (i.val, inst) = false ∧ (s.convAt k.val).gone.contains (i.val, inst) = false) ∧
    (∃ n : Fin 4, ∃ b : Nat, ∃ k : Nat, ∃ i : Nat, ∃ inst : Nat, ∃ s : State, k < 4 ∧ (i, inst) ∈ (s.convAt k).held ∧ inst < b ∧
      s.accLoaf k i = some n) :=
  ⟨⟨0, 0, 8191, 0, 0, on.modConv 0 (fun c => { c with seqAct := [0], seqPos := 0 }),
    (((on.modConv 0 (fun c => { c with seqAct := [0], seqPos := 0 })).atT 0).seqResult 0 0 0).getD on, ⟨by decide +kernel,
    by decide +kernel, by decide +kernel, by decide +kernel, by decide +kernel, rfl⟩⟩,
   ⟨0, 0, 8191, 0, 0, on.modConv 0 (fun c => { c with seqAct := [0], seqPos := 0 }),
    (((on.modConv 0 (fun c => { c with seqAct := [0], seqPos := 0 })).atT 0).seqHold 0 0 0).getD on, ⟨by decide +kernel,
    by decide +kernel, by decide +kernel, by decide +kernel, by decide +kernel, by decide +kernel, rfl⟩⟩,
   ⟨0, 3, 4, on.modConvN 0 (fun c => { c with held := [(3, 4)] }), by decide +kernel⟩,
   ⟨5, 7, (-2048), on, by decide +kernel⟩,
   ⟨4, 1, 0, on, by decide +kernel⟩,
   ⟨0, 0, (-8192), [], on.modConv 0 (fun c => { c with injRun := some [0] }), by decide +kernel⟩,
   ⟨0, 8, 8191, 2, (on.wrs [(Obj.pairMode 0, 1), (Obj.pairSrc 0, 17)]).modConv 0 (fun c => { c with burst := some 2 }),
    by decide +kernel⟩,
   ⟨3, 8, 0, 0, on.modConv 3 (fun c => { c with seqAct := [0] }), ⟨by decide, rfl⟩⟩,
   ⟨3, on, by decide +kernel⟩,
   ⟨3, on, by decide +kernel⟩,
   ⟨3, on.wr (Obj.pairMode 2) 2, .held, by decide +kernel, by decide +kernel⟩,
   ⟨3, 0, 0, on.wr (Obj.pairMode 2) 2, by decide +kernel⟩,
   ⟨0, 5, 0, 3, 4, (on.wr (Obj.chRole 0 3) 1).modConvN 0 (fun c => { c with held := [(3, 4)] }), by decide +kernel⟩⟩

/-- Operands and states that meet the hypotheses of `ConverterEvents`, clause by clause. -/
theorem witness_ConverterEvents :
    (∃ k : Fin 4, ∃ line : Fin 12, ∃ t : Nat, ∃ s : State, ∃ w : State, w = (s.atT t).pwmTo (Fin.ofNat 4 (line.val / 3)) ∧
      s.regionUp = true ∧ s.has k.val = true ∧ s.rdBit (Obj.injTrig k.val) line.val = true ∧
      (s.convAt k.val).lineSeen.getD line.val 0 < w.lineCount line.val ∧ s.rd (Obj.injLen k.val) ≠ 0 ∧
      s.rd (Obj.pairMode (evenOf k.val)) ≠ 2 ∧ (s.convAt k.val).injT ≠ some w.time.now) ∧
    (∃ k : Fin 4, ∃ line : Fin 12, ∃ t : Nat, ∃ s : State, ∃ w : State, w = (s.atT t).pwmTo (Fin.ofNat 4 (line.val / 3)) ∧
      (s.rdBit (Obj.injTrig k.val) line.val = false ∨ w.lineCount line.val ≤ (s.convAt k.val).lineSeen.getD line.val 0)) ∧
    (∃ p : Fin 2, ∃ line : Fin 12, ∃ t : Nat, ∃ s : State, ∃ w : State, w = (s.atT t).pwmTo (Fin.ofNat 4 (line.val / 3)) ∧
      s.regionUp = true ∧ s.has (2 * p.val) = true ∧ s.rd (Obj.pairMode (2 * p.val)) = 1 ∧
      (s.convAt (2 * p.val)).pairT ≠ some w.time.now ∧ s.rdBit (Obj.pairTrig (2 * p.val)) line.val = true ∧
      (s.convAt (2 * p.val)).pairSeen.getD line.val 0 < w.lineCount line.val) ∧
    (∃ p : Fin 2, ∃ line : Fin 12, ∃ t : Nat, ∃ s : State, ∃ w : State, ∃ q : Nat × Nat × Nat × Int,
      w = (s.atT t).pwmTo (Fin.ofNat 4 (line.val / 3)) ∧ s.regionUp = true ∧ s.has (2 * p.val) = true ∧
      s.rd (Obj.pairMode (2 * p.val)) = 1 ∧ (s.convAt (2 * p.val)).pairT ≠ some w.time.now ∧
      s.rdBit (Obj.pairTrig (2 * p.val)) line.val = false ∧ (s.convAt (2 * p.val)).reconQ.find? (fun x => x.1 == t) = some q ∧
      s.bursting (2 * p.val) = false) ∧
    (∃ p : Fin 2, ∃ line : Fin 12, ∃ t : Nat, ∃ s : State, ∃ w : State, w = (s.atT t).pwmTo (Fin.ofNat 4 (line.val / 3)) ∧
      (s.rd (Obj.pairMode (2 * p.val)) ≠ 1 ∨ (s.rdBit (Obj.pairTrig (2 * p.val)) line.val = true ∧
      w.lineCount line.val ≤ (s.convAt (2 * p.val)).pairSeen.getD line.val 0) ∨ (s.rdBit (Obj.pairTrig (2 * p.val)) line.val = false ∧
      (s.convAt (2 * p.val)).reconQ.find? (fun x => x.1 == t) = none))) ∧
    (∃ k : Fin 4, ∃ s : State, s.regionUp = true ∧ s.has k.val = true ∧ s.rdN (Obj.sliceExcl k.val) = 0) ∧
    (∃ k : Fin 4, ∃ sl : Fin 4, ∃ s : State, s.regionUp = true ∧ s.has k.val = true ∧ s.rdN (Obj.sliceExcl k.val) ≠ 0 ∧
      (s.rdN (Obj.sliceExcl k.val)).testBit sl.val = false ∧ (s.convAt k.val).failed = false) ∧
    (∃ k : Fin 4, ∃ s : State, s.has k.val = true ∧ s.power.refReady.get (Fin.ofNat 6 k.val) = true) ∧
    (∃ p : Fin 2, ∃ t : Nat, ∃ a : Int, ∃ b : Int, ∃ s : State, s.regionUp = true ∧ s.has (2 * p.val) = true ∧
      s.rd (Obj.plausEn (2 * p.val)) = 1 ∧ s.plausStale (2 * p.val) = false ∧ s.plausInput (2 * p.val) t = some a ∧
      s.plausInput (2 * p.val + 1) t = some b ∧ -32768 ≤ a - b ∧ a - b ≤ 32767 ∧
      ((a - b).natAbs : Int) ≤ s.rd (Obj.plausTol (2 * p.val))) ∧
    (∃ p : Fin 2, ∃ t : Nat, ∃ a : Int, ∃ b : Int, ∃ s : State, s.regionUp = true ∧ s.has (2 * p.val) = true ∧
      s.rd (Obj.plausEn (2 * p.val)) = 1 ∧ s.plausStale (2 * p.val) = false ∧ s.plausInput (2 * p.val) t = some a ∧
      s.plausInput (2 * p.val + 1) t = some b ∧ -32768 ≤ a - b ∧ a - b ≤ 32767 ∧
      s.rd (Obj.plausTol (2 * p.val)) < ((a - b).natAbs : Int) ∧ s.rd (Obj.plausRun (2 * p.val)) < 65535) ∧
    (∃ p : Fin 2, ∃ t : Nat, ∃ s : State,
      s.rd (Obj.plausEn (2 * p.val)) ≠ 1 ∨ s.plausInput (2 * p.val) t = none ∨ s.plausInput (2 * p.val + 1) t = none ∨ s.plausStale (2 * p.val) = true) ∧
    (∃ k : Fin 6, ∃ i : Fin 9, ∃ t : Nat, ∃ s : State, s.regionUp = true ∧ s.hasConv k.val = true ∧ inputWf k i = true ∧ k ≠ 4 ∧
      s.owDue k.val i.val t = true ∧ s.owLatched k.val i.val = false) ∧
    (∃ k : Fin 6, ∃ i : Fin 9, ∃ t : Nat, ∃ s : State, s.owDue k.val i.val t = false ∨ s.owLatched k.val i.val = true) ∧
    (∃ t : Nat, ∃ s : State, s.regionUp = true ∧ (s.loaf.get s.auxLoafN).running = false ∧ t % msCycles = 0 ∧
      (s.convAt 5).auxEndT < t) ∧
    (∃ t : Nat, ∃ s : State, (s.loaf.get s.auxLoafN).running = true ∨ t % msCycles ≠ 0 ∨ t ≤ (s.convAt 5).auxEndT) ∧
    (∃ s : State, s.rd Obj.capState = 3 ∧ s.cap.complete = true) ∧
    (∃ s : State, s.cap.complete = false) :=
  ⟨⟨0, 0, 0, (on.wrs [(Obj.injTrig 0, 1), (Obj.injLen 0, 1), (Obj.pairMode 0, 1), (Obj.pairTrig 0,
    0)]).modLoaf 0 (fun l => { l with lines := [1, 1, 1] }), (((on.wrs [(Obj.injTrig 0, 1), (Obj.injLen 0, 1), (Obj.pairMode 0,
    1), (Obj.pairTrig 0,
    0)]).modLoaf 0 (fun l => { l with lines := [1, 1, 1] })).atT 0).pwmTo (Fin.ofNat 4 ((0 : Fin 12).val / 3)), ⟨rfl,
    by decide +kernel⟩⟩,
   ⟨0, 11, 0, (on.wrs [(Obj.injTrig 0, 1), (Obj.injLen 0, 1), (Obj.pairMode 0, 1), (Obj.pairTrig 0,
    0)]).modLoaf 0 (fun l => { l with lines := [1, 1, 1] }), (((on.wrs [(Obj.injTrig 0, 1), (Obj.injLen 0, 1), (Obj.pairMode 0,
    1), (Obj.pairTrig 0,
    0)]).modLoaf 0 (fun l => { l with lines := [1, 1, 1] })).atT 0).pwmTo (Fin.ofNat 4 ((11 : Fin 12).val / 3)), ⟨rfl,
    by decide +kernel⟩⟩,
   ⟨0, 0, 0, (on.wrs [(Obj.injTrig 0, 1), (Obj.injLen 0, 1), (Obj.pairMode 0, 1), (Obj.pairTrig 0,
    1)]).modLoaf 0 (fun l => { l with lines := [1, 1, 1] }), (((on.wrs [(Obj.injTrig 0, 1), (Obj.injLen 0, 1), (Obj.pairMode 0,
    1), (Obj.pairTrig 0,
    1)]).modLoaf 0 (fun l => { l with lines := [1, 1, 1] })).atT 0).pwmTo (Fin.ofNat 4 ((0 : Fin 12).val / 3)), ⟨rfl,
    by decide +kernel⟩⟩,
   ⟨0, 0, 0, ((on.wrs [(Obj.injTrig 0, 1), (Obj.injLen 0, 1), (Obj.pairMode 0, 1), (Obj.pairTrig 0,
    0)]).modLoaf 0 (fun l => { l with lines := [1, 1, 1] })).modConv 0 (fun c => { c with reconQ := [(0, 0, 0, 1)] }),
    ((((on.wrs [(Obj.injTrig 0, 1), (Obj.injLen 0, 1), (Obj.pairMode 0, 1), (Obj.pairTrig 0,
    0)]).modLoaf 0 (fun l => { l with lines := [1, 1, 1] })).modConv 0 (fun c => { c with reconQ := [(0, 0, 0, 1)] })).atT 0).pwmTo (Fin.ofNat 4 ((0 : Fin 12).val / 3)),
    (0, 0, 0, 1), ⟨rfl, by decide +kernel⟩⟩,
   ⟨0, 0, 0, on, ((on).atT 0).pwmTo (Fin.ofNat 4 ((0 : Fin 12).val / 3)), ⟨rfl, by decide +kernel⟩⟩,
   ⟨3, on.wr (Obj.sliceExcl 3) 0, by decide +kernel⟩,
   ⟨3, 1, on.wr (Obj.sliceExcl 3) 1, by decide +kernel⟩,
   ⟨3, on, by decide +kernel⟩,
   ⟨0, 200, 0, 0, (((on.wrs [(Obj.plausEn 0, 1), (Obj.plausTol 0, 0), (Obj.chResult 0 8,
    0)]).modConv 0 (fun c => { c with seqAct := [8], lastT := [(8, 0, false)] })).modConv 1 (fun c => { c with lastT := [(8, 0, false)] })),
    by decide +kernel⟩,
   ⟨0, 200, 32767, 0, (((on.wrs [(Obj.plausEn 0, 1), (Obj.plausTol 0, 0), (Obj.chResult 0 8,
    32767)]).modConv 0 (fun c => { c with seqAct := [8], lastT := [(8, 0, false)] })).modConv 1 (fun c => { c with lastT := [(8, 0, false)] })),
    by decide +kernel⟩,
   ⟨0, 0, on, by decide +kernel⟩,
   ⟨5, 7, 0, (on.wrs [(Obj.chOw 5 7, 1), (Obj.owLevel 5, 0), (Obj.owTime 5, 0), (Obj.chResult 5 7,
    30000)]).modConv 5 (fun c => { c with owSince := [(7, 0)] }), by decide +kernel⟩,
   ⟨5, 7, 0, on, by decide +kernel⟩,
   ⟨200000, on, by decide +kernel⟩,
   ⟨1, on, by decide +kernel⟩,
   ⟨(on.wr Obj.capState 3).modCap (fun c => { c with sources := [] }), by decide +kernel⟩,
   ⟨on.modCap (fun c => { c with sources := [1], pre := 5, post := 5 }), by decide +kernel⟩⟩

/-- Operands and states that meet the hypotheses of `Feedback`, clause by clause. -/
theorem witness_Feedback :
    (∃ n : Fin 4, ∃ ns : Nat, ∃ s : State, s.regionUp = true ∧ s.has n.val = true ∧ s.rd (Obj.fbMode n.val) = 1 ∧
      filterTakes true (s.rdN (Obj.fbFilt n.val)) ns (Config.filterFree s.freeNo) = true) ∧
    (∃ n : Fin 4, ∃ s : State, s.regionUp = true ∧ s.has n.val = true ∧ s.rd (Obj.fbMode n.val) = 5) ∧
    (∃ n : Fin 4, ∃ ns : Nat, ∃ s : State, s.regionUp = true ∧ s.has n.val = true ∧ s.rd (Obj.fbMode n.val) = 2 ∧
      filterTakes true (s.rdN (Obj.fbFilt n.val)) ns (Config.filterFree s.freeNo) = true) ∧
    (∃ n : Fin 4, ∃ ns : Nat, ∃ s : State, s.regionUp = true ∧ s.has n.val = true ∧
      filterTakes true (s.rdN (Obj.fbFilt n.val)) ns (Config.filterFree s.freeNo) = true ∧
      (s.rd (Obj.fbMode n.val) = 3 ∨ s.rd (Obj.fbMode n.val) = 4)) ∧
    (∃ n : Fin 4, ∃ ns : Nat, ∃ s : State, s.regionUp = true ∧ s.has n.val = true ∧
      filterTakes true (s.rdN (Obj.fbFilt n.val)) ns (Config.filterFree s.freeNo) = true ∧ s.rd (Obj.fbMode n.val) = 0) ∧
    (∃ n : Fin 4, ∃ ns : Nat, ∃ s : State, s.regionUp = true ∧ s.has n.val = true ∧ s.rd (Obj.fbMode n.val) ≠ 5 ∧
      filterTakes true (s.rdN (Obj.fbFilt n.val)) ns (Config.filterFree s.freeNo) = false) ∧
    (∃ n : Fin 4, ∃ s : State, s.fbLive n [1, 5] = true ∧ s.indexGate n = true ∧ (s.fb.get n).gateWas = false) ∧
    (∃ n : Fin 4, ∃ s : State, s.indexGate n = false ∨ (s.fb.get n).gateWas = true) ∧
    (∃ n : Fin 4, ∃ b : Nat, ∃ t : Nat, ∃ s : State, s.fbLive n [2] = true ∧
      hallSector (s.fb.get n).a (s.fb.get n).b (s.fb.get n).z = none ∧ (s.fb.get n).hallT = some b ∧ b + 20 * usCycles ≤ t) ∧
    (∃ n : Fin 4, ∃ t : Nat, ∃ s : State, (∀ b, (s.fb.get n).hallT = some b → t < b + 20 * usCycles)) ∧
    (∃ n : Fin 4, ∃ t : Nat, ∃ s : State, s.fbLive n [1, 2, 5] = true ∧
      ((s.fb.get n).lastEdge.getD (s.fb.get n).startT) + s.rdN (Obj.spdStandstill n.val) * usCycles ≤ t) ∧
    (∃ n : Fin 4, ∃ t : Nat, ∃ s : State,
      t < ((s.fb.get n).lastEdge.getD (s.fb.get n).startT) + s.rdN (Obj.spdStandstill n.val) * usCycles) ∧
    (∃ n : Fin 4, ∃ t : Nat, ∃ s : State, s.fbLive n [3, 4] = true ∧ s.serDue n t = true ∧ (s.fb.get n).serBusy = none ∧
      (s.fb.get n).serQ = []) ∧
    (∃ n : Fin 4, ∃ t : Nat, ∃ s : State, s.fbLive n [3, 4] = true ∧ s.serDue n t = true ∧ (s.fb.get n).serBusy ≠ none) ∧
    (∃ n : Fin 4, ∃ t : Nat, ∃ s : State, s.serDue n t = false) ∧
    (∃ n : Fin 4, ∃ r : SerialResult, ∃ t : Nat, ∃ t0 : Nat, ∃ s : State, ∃ w : Option SerialWord, s.fbLive n [3, 4] = true ∧
      (s.fb.get n).serBusy = some t0 ∧ t0 ≤ t ∧ (s.fb.get n).serLate = false ∧
      w = (if s.rd (Obj.fbMode n.val) = 4 then bissWord (s.rdN (Obj.serMtBits n.val) + s.rdN (Obj.serStBits n.val)) r else ssiWord (s.rdN (Obj.serMtBits n.val) + s.rdN (Obj.serStBits n.val)) r)) ∧
    (∃ n : Fin 4, ∃ t : Nat, ∃ t0 : Nat, ∃ s : State, (s.fb.get n).serBusy = some t0 ∧ t0 ≤ t ∧ (s.fb.get n).serLate = true) ∧
    (∃ n : Fin 4, ∃ t : Nat, ∃ s : State, (s.fb.get n).serBusy = none ∨ (∃ t0, (s.fb.get n).serBusy = some t0 ∧ t < t0)) :=
  ⟨⟨0, 1000, on.wrs [(Obj.fbMode 0, 1), (Obj.fbFilt 0, 1)], by decide +kernel⟩,
   ⟨0, on.wrs [(Obj.fbMode 0, 5), (Obj.fbFilt 0, 1)], by decide +kernel⟩,
   ⟨0, 1000, on.wrs [(Obj.fbMode 0, 2), (Obj.fbFilt 0, 1)], by decide +kernel⟩,
   ⟨0, 1000, on.wrs [(Obj.fbMode 0, 3), (Obj.fbFilt 0, 1)], by decide +kernel⟩,
   ⟨0, 1000, on.wrs [(Obj.fbMode 0, 0), (Obj.fbFilt 0, 1)], by decide +kernel⟩,
   ⟨0, 4, on.wrs [(Obj.fbMode 0, 1), (Obj.fbFilt 0, 2)], by decide +kernel⟩,
   ⟨0, (on.wrs [(Obj.fbMode 0, 1), (Obj.idxGate 0, 0)]).modFb 0 (fun f => { f with z := true, gateWas := false }),
    by decide +kernel⟩,
   ⟨0, on.modFb 0 (fun f => { f with z := false }), by decide +kernel⟩,
   ⟨0, 3, 4003, (on.wr (Obj.fbMode 0) 2).modFb 0 (fun f => { f with hallT := some 3 }), by decide +kernel⟩,
   ⟨0, 0, on, fun b h => nomatch h⟩,
   ⟨0, 200000000000, on.wr (Obj.fbMode 0) 2, by decide +kernel⟩,
   ⟨0, 99, (on.wr (Obj.spdStandstill 0) 0).modFb 0 (fun f => { f with lastEdge := some 100 }), by decide +kernel⟩,
   ⟨0, 100, ((on.wrs [(Obj.fbMode 0, 3), (Obj.fbLoaf 0, 0), (Obj.serLead 0,
    0)]).modLoaf 0 (fun l => { l with running := true, st := .closed, nextStart := 100, actLen := 0 })), by decide +kernel⟩,
   ⟨0, 100, ((on.wrs [(Obj.fbMode 0, 3), (Obj.fbLoaf 0, 0), (Obj.serLead 0,
    0)]).modLoaf 0 (fun l => { l with running := true, st := .closed, nextStart := 100, actLen := 0 })).modFb 0 (fun f => { f with serBusy := some 5 }),
    by decide +kernel⟩,
   ⟨0, 0, on, by decide +kernel⟩,
   ⟨0, ⟨List.replicate 64 true, false, 0⟩, 5, 5, ((on.wr (Obj.fbMode 0) 4).modFb 0 (fun f => { f with serBusy := some 5 })),
    bissWord ((((on.wr (Obj.fbMode 0) 4).modFb 0 (fun f => { f with serBusy := some 5 }))).rdN (Obj.serMtBits 0) + (((on.wr (Obj.fbMode 0) 4).modFb 0 (fun f => { f with serBusy := some 5 }))).rdN (Obj.serStBits 0)) ⟨List.replicate 64 true,
    false, 0⟩, ⟨by decide +kernel, by decide +kernel, by decide +kernel, by decide +kernel, rfl⟩⟩,
   ⟨0, 5, 5, ((on.wr (Obj.fbMode 0) 4).modFb 0 (fun f => { f with serBusy := some 5, serLate := true })), by decide +kernel⟩,
   ⟨0, 0, on, .inl (by decide +kernel)⟩⟩

/-- Operands and states that meet the hypotheses of `SafetyFunctions`, clause by clause. -/
theorem witness_SafetyFunctions :
    (∃ ch : Chan, ∃ i : SafetyInput, ∃ level : Bool, ∃ ns : Nat, ∃ s : State, s.chanUp ch = true ∧
      safeFilterTakes ns (Config.filterFree s.freeNo) = true ∧
      (s.viewOf ch (inputNum i) ≠ level ∨ s.takenOf ch (inputNum i) = false)) ∧
    (∃ ch : Chan, ∃ i : SafetyInput, ∃ ns : Nat, ∃ s : State, s.chanUp ch = true ∧ (i = .stoA ∨ i = .stoB) ∧
      safeFilterTakes ns (Config.filterFree s.freeNo) = true ∧
      (s.viewOf ch (inputNum i) = true ∨ s.takenOf ch (inputNum i) = false) ∧ s.safety.governs ≠ none ∧ s.stoIn ch = false ∧
      s.rd Obj.stoFunc = 0) ∧
    (∃ ch : Chan, ∃ i : SafetyInput, ∃ ns : Nat, ∃ s : State, s.chanUp ch = true ∧ (i = .stoA ∨ i = .stoB) ∧
      safeFilterTakes ns (Config.filterFree s.freeNo) = true ∧
      (s.viewOf ch (inputNum i) = true ∨ s.takenOf ch (inputNum i) = false) ∧ s.safety.governs ≠ none ∧ s.stoIn ch = false ∧
      s.rd Obj.stoFunc = 1 ∧ s.rd Obj.guardReact = 0 ∧ s.rd Obj.ss1Time ≠ 0) ∧
    (∃ ch : Chan, ∃ i : SafetyInput, ∃ level : Bool, ∃ ns : Nat, ∃ s : State,
      safeFilterTakes ns (Config.filterFree s.freeNo) = false ∨ (s.viewOf ch (inputNum i) = level ∧
      s.takenOf ch (inputNum i) = true)) ∧
    (∃ ns : Nat, ns ≤ 1000000) ∧
    (∃ ns : Nat, 1575000 < ns) ∧
    (∃ i : SafetyInput, ∃ t : Nat, ∃ s : State, ∃ cross : Bool, s.regionUp = true ∧ s.pulseDue (inputNum i) = true ∧
      (cross = false → (s.atT t).pulseLate (inputNum i) = true) ∧ (cross = true → s.pulseDue (pairMate (inputNum i)) = true)) ∧
    (∃ i : SafetyInput, ∃ t : Nat, ∃ s : State, s.regionUp = true ∧ s.boot.stage = .askard ∧
      ((inputNum i).val < 2 ∨ s.rd Obj.guardReact ≠ 0) ∧ lastedOn .c (s.safety.chanDiff.get (inputNum i)) 20 t = true) ∧
    (∃ t : Nat, ∃ s : State, s.regionUp = true ∧ s.safety.governs ≠ none ∧ lastedOn .c s.safety.discTC 20 t = true) ∧
    (∃ t : Nat, ∃ s : State, s.regionUp = true ∧ s.safety.governs ≠ none ∧ s.rd Obj.guardReact ≠ 0 ∧
      lastedOn .c s.safety.guardDiffC (s.rdN Obj.guardDisc) t = true) ∧
    (∃ s : State, s.regionUp = true ∧ s.safety.brkA = true) ∧
    (∃ s : State, s.regionUp = true) ∧
    (∃ t : Nat, ∃ s : State, s.boot.stage = .askard ∧ s.safety.governs ≠ none ∧ lastedOn .m s.safety.discTM 20 t = true) ∧
    (∃ t : Nat, ∃ s : State, s.boot.stage = .askard ∧ s.safety.governs ≠ none ∧ s.rd Obj.guardReact ≠ 0 ∧
      lastedOn .m s.safety.guardDiffM (s.rdN Obj.guardDisc) t = true) ∧
    (∃ s : State, s.boot.stage = .askard ∧ s.safety.brkB = true) ∧
    (∃ s : State, s.boot.stage = .askard) ∧
    (∃ i : SafetyInput, ∃ t : Nat, ∃ s : State,
      lastedOn .c (s.safety.chanDiff.get (inputNum i)) 20 t = false ∨ (2 ≤ (inputNum i).val ∧ s.rd Obj.guardReact = 0)) ∧
    (∃ ch : Chan, ∃ t : Nat, ∃ s : State, s.safety.governs = none ∨ lastedOn ch (s.stoDiffer ch) 20 t = false) ∧
    (∃ ch : Chan, ∃ t : Nat, ∃ s : State,
      s.safety.governs = none ∨ s.rd Obj.guardReact = 0 ∨ lastedOn ch (s.guardDiffer ch) (s.rdN Obj.guardDisc) t = false) ∧
    (∃ ch : Chan, ∃ t : Nat, ∃ s : State, s.ss1Runs ch = true ∧
      passedOn ch (s.ss1From ch) (s.rdN Obj.ss1Time * msCycles) (s.atT t).time.now = true) ∧
    (∃ ch : Chan, ∃ s : State, s.ss1Runs ch = true ∧ ch = .c ∧ s.safety.react5 = true ∧ s.mode = .operational) ∧
    (∃ ch : Chan, ∃ s : State, s.ss1Runs ch = true ∧ ch = .c) ∧
    (∃ ch : Chan, ∃ s : State, s.ss1Runs ch = true ∧ ch = .m) ∧
    (∃ ch : Chan, ∃ s : State, s.ss1Runs ch = true) ∧
    (∃ ch : Chan, ∃ s : State, s.ss1Runs ch = false) ∧
    (∃ ch : Chan, ∃ t : Nat, ∃ s : State, s.chanUp ch = true ∧ s.rd Obj.sbcEn = 1 ∧
      (s.safety.genC = false ∨ s.safety.genM = false) ∧ passedOn ch s.safety.genFallT (s.rdN Obj.sbcStoLag * msCycles) t = true) ∧
    (∃ ch : Chan, ∃ t : Nat, ∃ s : State, s.rd Obj.sbcEn ≠ 1 ∨ (s.safety.genC = true ∧
      s.safety.genM = true) ∨ passedOn ch s.safety.genFallT (s.rdN Obj.sbcStoLag * msCycles) t = false) ∧
    (∃ ch : Chan, ∃ t : Nat, ∃ s : State, s.ss1Runs ch = true ∧ s.rd Obj.sbcEn = 1 ∧
      passedOn ch (s.ss1From ch) ((s.rdN Obj.ss1Time - s.rdN Obj.sbcDelay) * msCycles) t = true) :=
  ⟨⟨.c, .guardB, true, 1575001, on, by decide +kernel⟩,
   ⟨.m, .stoB, 1575001, (on.modSafety (fun f => { f with governs := some 3 })).wrs [(Obj.stoFunc, 0)], by decide +kernel⟩,
   ⟨.c, .stoA, 1575001, (on.modSafety (fun f => { f with governs := some 3 })).wrs [(Obj.stoFunc, 1), (Obj.guardReact, 0),
    (Obj.ss1Time, 1)], by decide +kernel⟩,
   ⟨.c, .stoA, false, 1000000, on, by decide +kernel⟩,
   ⟨1000000, by decide +kernel⟩,
   ⟨1575001, by decide +kernel⟩,
   ⟨.stoA, 0, (on.modSafety (fun f => { f with governs := some 3 })).wr Obj.tpExpect 3, true, by decide +kernel⟩,
   ⟨.stoA, 100000000000, on.modSafety (fun f => { f with chanDiff := Quad.all (some 0) }), by decide +kernel⟩,
   ⟨100000000000, (on.modSafety (fun f => { f with governs := some 3, discTC := some 0 })), by decide +kernel⟩,
   ⟨100000000000, (on.modSafety (fun f => { f with governs := some 3, guardDiffC := some 0 })).wr Obj.guardReact 1,
    by decide +kernel⟩,
   ⟨on.modSafety (fun f => { f with brkA := true }), by decide +kernel⟩,
   ⟨on, by decide +kernel⟩,
   ⟨100000000000, (on.modSafety (fun f => { f with governs := some 3, discTM := some 0 })), by decide +kernel⟩,
   ⟨100000000000, (on.modSafety (fun f => { f with governs := some 3, guardDiffM := some 0 })).wr Obj.guardReact 2,
    by decide +kernel⟩,
   ⟨on.modSafety (fun f => { f with brkB := true }), by decide +kernel⟩,
   ⟨on, by decide +kernel⟩,
   ⟨.guardB, 0, on, by decide +kernel⟩,
   ⟨.m, 0, on, by decide +kernel⟩,
   ⟨.m, 0, on, by decide +kernel⟩,
   ⟨.c, 190000, (on.wr Obj.ss1Time 1).modSafety (fun f => { f with ss1C := true }), by decide +kernel⟩,
   ⟨.c, inMode .operational (on.modSafety (fun f => { f with ss1C := true, react5 := true })), by decide +kernel⟩,
   ⟨.c, on.modSafety (fun f => { f with ss1C := true }), by decide +kernel⟩,
   ⟨.m, on.modSafety (fun f => { f with ss1M := true }), by decide +kernel⟩,
   ⟨.m, on.modSafety (fun f => { f with ss1M := true }), by decide +kernel⟩,
   ⟨.m, on, by decide +kernel⟩,
   ⟨.m, 100000000000, on.wr Obj.sbcEn 1, by decide +kernel⟩,
   ⟨.m, 0, on, by decide +kernel⟩,
   ⟨.m, 100000000000, (on.wr Obj.sbcEn 1).modSafety (fun f => { f with ss1M := true }), by decide +kernel⟩⟩

/-- Operands and states that meet the hypotheses of `Switch`, clause by clause. -/
theorem witness_Switch :
    (∃ p : Fin 2, ∃ f : EthFrame, ∃ s : State, s.portUp p.val = true ∧ (f.fcsOk = false ∨ f.len < 64 ∨ 1522 < f.len)) ∧
    (∃ p : Fin 2, ∃ f : EthFrame, ∃ t : Nat, ∃ s : State, ∃ w : State,
      w = ((s.atT t).bump (Obj.ethRx p.val)).learn f.src p.val ∧ s.portUp p.val = true ∧ f.fcsOk = true ∧ 64 ≤ f.len ∧
      f.len ≤ 1522) ∧
    (∃ p : Fin 2, ∃ s : State, s.portUp p.val = false) ∧
    (∃ p : Fin 3, ∃ t : Nat, ∃ f : EgressFrame, ∃ s : State, ∃ w : State, w = (s.atT t).tcpPush ∧
      nextFrame p.val (w.net.egress.getD p.val []) = some f ∧ p.val < 2 ∧ (∃ x ∈ w.net.egress.getD p.val [], x.high = true)) ∧
    (∃ p : Fin 3, ∃ t : Nat, ∃ f : EgressFrame, ∃ s : State, ∃ w : State, w = (s.atT t).tcpPush ∧
      nextFrame p.val (w.net.egress.getD p.val []) = some f) ∧
    (∃ p : Fin 3, ∃ t : Nat, ∃ s : State, nextFrame p.val ((s.atT t).tcpPush.net.egress.getD p.val []) = none) ∧
    (∃ mac : Nat, ∃ e : Nat × Nat × Nat, ∃ s : State, s.net.macs.find? (fun x => x.1 == mac) = some e) ∧
    (∃ mac : Nat, ∃ s : State, s.net.macs.find? (fun x => x.1 == mac) = none) ∧
    (∃ p : Fin 2, ∃ s : State, s.askard = true ∧ p.val < s.net.up.length) ∧
    (∃ s : State, s.askard = true) ∧
    (∃ s : State, s.askard = true) ∧
    (∃ r : EchoRequest, ∃ t : Nat, ∃ s : State, s.askard = true ∧ r.fragment = false ∧ r.payload.length ≤ 1472 ∧
      (s.nextHop r.peer).isSome = true ∧ ((s.atT t).recentRate s.net.echoT).length < 100) ∧
    (∃ r : EchoRequest, ∃ t : Nat, ∃ s : State, s.askard = true ∧
      (r.fragment = true ∨ 1472 < r.payload.length ∨ s.nextHop r.peer = none ∨ 100 ≤ ((s.atT t).recentRate s.net.echoT).length)) ∧
    (∃ ip : Nat, ∃ s : State, ip &&& s.net.mask = s.net.ipNow &&& s.net.mask) ∧
    (∃ ip : Nat, ∃ s : State, ip &&& s.net.mask ≠ s.net.ipNow &&& s.net.mask ∧ s.net.gw ≠ 0) ∧
    (∃ ip : Nat, ∃ s : State, ip &&& s.net.mask ≠ s.net.ipNow &&& s.net.mask ∧ s.net.gw = 0) ∧
    (∃ ip : Nat, ∃ e : Nat × Nat × Nat, ∃ s : State, s.net.arp.find? (fun x => x.1 == ip) = some e) ∧
    (∃ ip : Nat, ∃ s : State, s.net.arp.find? (fun x => x.1 == ip) = none) :=
  ⟨⟨1, { frame64 with len := 63 }, ports, by decide +kernel⟩,
   ⟨1, { frame64 with len := 1522 }, 0, ports,
    ((ports.atT 0).bump (Obj.ethRx (1 : Fin 2).val)).learn ({ frame64 with len := 1522 } : EthFrame).src (1 : Fin 2).val, ⟨rfl,
    by decide +kernel⟩⟩,
   ⟨0, on, by decide +kernel⟩,
   ⟨1, 0, eg true, (on.modNet (fun n => { n with egress := [[], [eg false, eg true], []] })),
    ((on.modNet (fun n => { n with egress := [[], [eg false, eg true], []] })).atT 0).tcpPush, ⟨rfl, by decide +kernel⟩⟩,
   ⟨0, 0, eg false, (on.modNet (fun n => { n with egress := [[eg false], [], []] })),
    ((on.modNet (fun n => { n with egress := [[eg false], [], []] })).atT 0).tcpPush, ⟨rfl, by decide +kernel⟩⟩,
   ⟨1, 0, on, by decide +kernel⟩,
   ⟨7, (7, 1, 0), on.modNet (fun n => { n with macs := [(7, 1, 0)] }), by decide +kernel⟩,
   ⟨7, on, by decide +kernel⟩,
   ⟨1, on, by decide +kernel⟩,
   ⟨on, by decide +kernel⟩,
   ⟨on, by decide +kernel⟩,
   ⟨⟨0, [], false⟩, 0, on, by decide +kernel⟩,
   ⟨⟨0, [], true⟩, 0, on, by decide +kernel⟩,
   ⟨0, on, by decide +kernel⟩,
   ⟨7, on.modNet (fun n => { n with mask := 0xFF, gw := 1 }), by decide +kernel⟩,
   ⟨7, on.modNet (fun n => { n with mask := 0xFF, gw := 0 }), by decide +kernel⟩,
   ⟨7, (7, 1, 0), on.modNet (fun n => { n with arp := [(7, 1, 0)] }), by decide +kernel⟩,
   ⟨7, on, by decide +kernel⟩⟩

/-- Operands and states that meet the hypotheses of `Connections`, clause by clause. -/
theorem witness_Connections :
    (∃ r : TcpRequest, ∃ s : State, ∃ c : Fin 4, s.askard = true ∧ (s.nextHop r.ip).isSome = true ∧ r.dstPort = s.net.mgtPort ∧
      s.freeConn = some c) ∧
    (∃ r : TcpRequest, ∃ s : State, s.askard = true ∧ (s.nextHop r.ip).isSome = true ∧ (r.dstPort ≠ s.net.mgtPort ∨ (∀ c,
      (s.net.conns.get c).open_ = true))) ∧
    (∃ r : TcpRequest, ∃ s : State, s.nextHop r.ip = none) ∧
    (∃ c : Fin 4, ∃ user : Option (Fin 16), ∃ o : TlsOffer, ∃ s : State, ∃ role : Nat, ∃ u : Nat,
      (s.net.conns.get c).open_ = true ∧ (s.net.conns.get c).tls = false ∧ s.certUser user (tlsOk o && o.chainOk) = some (role,
      u)) ∧
    (∃ c : Fin 4, ∃ user : Option (Fin 16), ∃ o : TlsOffer, ∃ s : State, (s.net.conns.get c).open_ = true ∧
      (s.net.conns.get c).tls = false ∧ s.certUser user (tlsOk o && o.chainOk) = none) ∧
    (∃ c : Fin 4, ∃ s : State, (s.net.conns.get c).open_ = true ∧ (s.net.conns.get c).tls = false) ∧
    (∃ c : Fin 4, ∃ w : Word, ∃ rest : List Word, ∃ ws : List Word, ∃ s : State, s.askard = true ∧
      (s.net.conns.get c).open_ = true ∧ (s.net.conns.get c).tls = true ∧ (s.net.conns.get c).queue = [] ∧
      (s.modConn c (fun x => { x with cmdT := s.time.now, queue := [w :: rest] })).nextSource = some (.net c) ∧ cmdLen w ≤ 63 ∧
      ws = (List.range (cmdLen w)).map (fun i => rest.getD i 0)) ∧
    (∃ c : Fin 4, ∃ words : List Word, ∃ s : State, s.askard = true ∧ (s.net.conns.get c).open_ = true ∧
      (s.net.conns.get c).tls = true ∧ words ≠ [] ∧ ((s.net.conns.get c).job ≠ none ∨ s.takeable 0 = true)) ∧
    (∃ c : Fin 4, ∃ s : State, (s.net.conns.get c).tls = false) ∧
    (∃ c : Fin 4, ∃ s : State, (s.net.conns.get c).open_ = true ∧ s.rd Obj.netIdleS ≠ 0) ∧
    (∃ c : Fin 4, ∃ s : State, (s.net.conns.get c).open_ = true ∧ s.rd Obj.netIdleS = 0) ∧
    (∃ c : Fin 4, ∃ s : State, (s.net.conns.get c).open_ = true) ∧
    (∃ j : Fin 8, ∃ s : State, ∃ w : State, w = s.atT ((s.sub j.val).firstT + ageLimit (s.sub j.val).udp) ∧
      (s.sub j.val).active = true ∧ (s.sub j.val).nItems ≠ 0 ∧ (s.sub j.val).udp = false ∧ s.cmd.mb2Queue.length < 8 ∧
      (w.recentRate s.cmd.rateMb2).length < 2000) ∧
    (∃ j : Fin 8, ∃ s : State, ∃ w : State, w = s.atT ((s.sub j.val).firstT + ageLimit (s.sub j.val).udp) ∧
      (s.sub j.val).active = true ∧ (s.sub j.val).nItems ≠ 0 ∧ (s.sub j.val).udp = false ∧ 8 ≤ s.cmd.mb2Queue.length) ∧
    (∃ j : Fin 8, ∃ s : State, ∃ w : State, ∃ d : Datagram, w = s.atT ((s.sub j.val).firstT + ageLimit (s.sub j.val).udp) ∧
      (s.sub j.val).active = true ∧ (s.sub j.val).nItems ≠ 0 ∧ d = w.datagram (s.sub j.val).conn (s.deliveryWords j.val) ∧
      (s.sub j.val).udp = true ∧ (w.recentRate s.cmd.rateUdp).length < 20000 ∧
      (w.portsTo d.dstIp = [] ∨ (∃ q ∈ w.portsTo d.dstIp, w.tcpPush.queueFull q false (OwnFrame.datagram d).frame = false))) ∧
    (∃ j : Fin 8, ∃ s : State, ∃ w : State, ∃ d : Datagram, w = s.atT ((s.sub j.val).firstT + ageLimit (s.sub j.val).udp) ∧
      (s.sub j.val).active = true ∧ (s.sub j.val).nItems ≠ 0 ∧ d = w.datagram (s.sub j.val).conn (s.deliveryWords j.val) ∧
      (s.sub j.val).udp = true ∧ (20000 ≤ (w.recentRate s.cmd.rateUdp).length ∨ (w.portsTo d.dstIp ≠ [] ∧
      ∀ q ∈ w.portsTo d.dstIp, w.tcpPush.queueFull q false (OwnFrame.datagram d).frame = true))) ∧
    (∃ j : Fin 8, ∃ s : State, (s.sub j.val).active = false ∨ (s.sub j.val).nItems = 0) ∧
    (∃ j : Fin 8, ∃ ws : List Word, ∃ s : State, ∃ w : State, (s.sub j.val).active = true ∧ (s.sub j.val).source = 1 ∧
      w = (s.atT (s.sub j.val).nextT).modSub j.val (fun y => { y with nextT := y.nextT + y.period * msCycles }) ∧
      ws = (s.sub j.val).addrs.flatMap (fun a => (w.getWords (w.ownerRole (s.sub j.val).owner) a).take 1) ∧
      (s.sub j.val).items.length + ws.length ≤ deliveryRoom (s.sub j.val).udp) ∧
    (∃ j : Fin 8, ∃ s : State, (s.sub j.val).active = false ∨ (s.sub j.val).source ≠ 1) :=
  ⟨⟨⟨0, 1, 7412⟩, on, 0, by decide +kernel⟩,
   ⟨⟨0, 1, 7413⟩, on, by decide +kernel⟩,
   ⟨⟨7, 1, 7412⟩, on.modNet (fun n => { n with mask := 0xFF, gw := 0 }), by decide +kernel⟩,
   ⟨3, (some 0), ⟨true, [0x1301], true, true, true⟩,
    (on.modConn 3 (fun k => { k with open_ := true })).modSec (fun x => { x with users := [⟨5, [], []⟩] }), 5, 0,
    by decide +kernel⟩,
   ⟨3, none, ⟨true, [0x1301], true, true, true⟩, on.modConn 3 (fun k => { k with open_ := true }), by decide +kernel⟩,
   ⟨3, on.modConn 3 (fun k => { k with open_ := true }), by decide +kernel⟩,
   ⟨3, 0x0001003F, [1], (List.range 63).map (fun i => ([1] : List Word).getD i 0),
    on.modConn 3 (fun k => { k with open_ := true, tls := true }), ⟨by decide +kernel, by decide +kernel, by decide +kernel,
    by decide +kernel, by decide +kernel, by decide +kernel, rfl⟩⟩,
   ⟨3, [0], on.modConn 3 (fun k => { k with open_ := true, tls := true, job := some (jb cEcho []) }), by decide +kernel⟩,
   ⟨3, on, by decide +kernel⟩,
   ⟨3, (on.modConn 3 (fun k => { k with open_ := true })).wr Obj.netIdleS 10, by decide +kernel⟩,
   ⟨3, (on.modConn 3 (fun k => { k with open_ := true })).wr Obj.netIdleS 0, by decide +kernel⟩,
   ⟨3, on.modConn 3 (fun k => { k with open_ := true }), by decide +kernel⟩,
   ⟨7,
    (on.modSub 7 (fun x => { x with active := true, nItems := 1 })).modCmd (fun c => { c with mb2Queue := List.replicate 7 [] }),
    ((on.modSub 7 (fun x => { x with active := true, nItems := 1 })).modCmd (fun c => { c with mb2Queue := List.replicate 7 [] })).atT ((((on.modSub 7 (fun x => { x with active := true, nItems := 1 })).modCmd (fun c => { c with mb2Queue := List.replicate 7 [] })).sub 7).firstT + ageLimit (((on.modSub 7 (fun x => { x with active := true, nItems := 1 })).modCmd (fun c => { c with mb2Queue := List.replicate 7 [] })).sub 7).udp),
    ⟨rfl, by decide +kernel⟩⟩,
   ⟨7,
    (on.modSub 7 (fun x => { x with active := true, nItems := 1 })).modCmd (fun c => { c with mb2Queue := List.replicate 8 [] }),
    ((on.modSub 7 (fun x => { x with active := true, nItems := 1 })).modCmd (fun c => { c with mb2Queue := List.replicate 8 [] })).atT ((((on.modSub 7 (fun x => { x with active := true, nItems := 1 })).modCmd (fun c => { c with mb2Queue := List.replicate 8 [] })).sub 7).firstT + ageLimit (((on.modSub 7 (fun x => { x with active := true, nItems := 1 })).modCmd (fun c => { c with mb2Queue := List.replicate 8 [] })).sub 7).udp),
    ⟨rfl, by decide +kernel⟩⟩,
   ⟨7, on.modSub 7 (fun x => { x with active := true, nItems := 1, udp := true }),
    (on.modSub 7 (fun x => { x with active := true, nItems := 1, udp := true })).atT (((on.modSub 7 (fun x => { x with active := true, nItems := 1, udp := true })).sub 7).firstT + ageLimit ((on.modSub 7 (fun x => { x with active := true, nItems := 1, udp := true })).sub 7).udp),
    ((on.modSub 7 (fun x => { x with active := true, nItems := 1, udp := true })).atT (((on.modSub 7 (fun x => { x with active := true, nItems := 1, udp := true })).sub 7).firstT + ageLimit ((on.modSub 7 (fun x => { x with active := true, nItems := 1, udp := true })).sub 7).udp)).datagram ((on.modSub 7 (fun x => { x with active := true, nItems := 1, udp := true })).sub 7).conn ((on.modSub 7 (fun x => { x with active := true, nItems := 1, udp := true })).deliveryWords 7),
    ⟨rfl, by decide +kernel, by decide +kernel, rfl, by decide +kernel⟩⟩,
   ⟨7,
    (on.modSub 7 (fun x => { x with active := true, nItems := 1, udp := true })).modNet (fun n => { n with up := [true, false], egress := [[{ eg false with len := 24576 }], [], []] }),
    ((on.modSub 7 (fun x => { x with active := true, nItems := 1, udp := true })).modNet (fun n => { n with up := [true, false], egress := [[{ eg false with len := 24576 }], [], []] })).atT ((((on.modSub 7 (fun x => { x with active := true, nItems := 1, udp := true })).modNet (fun n => { n with up := [true, false], egress := [[{ eg false with len := 24576 }], [], []] })).sub 7).firstT + ageLimit (((on.modSub 7 (fun x => { x with active := true, nItems := 1, udp := true })).modNet (fun n => { n with up := [true, false], egress := [[{ eg false with len := 24576 }], [], []] })).sub 7).udp),
    (((on.modSub 7 (fun x => { x with active := true, nItems := 1, udp := true })).modNet (fun n => { n with up := [true, false], egress := [[{ eg false with len := 24576 }], [], []] })).atT ((((on.modSub 7 (fun x => { x with active := true, nItems := 1, udp := true })).modNet (fun n => { n with up := [true, false], egress := [[{ eg false with len := 24576 }], [], []] })).sub 7).firstT + ageLimit (((on.modSub 7 (fun x => { x with active := true, nItems := 1, udp := true })).modNet (fun n => { n with up := [true, false], egress := [[{ eg false with len := 24576 }], [], []] })).sub 7).udp)).datagram (((on.modSub 7 (fun x => { x with active := true, nItems := 1, udp := true })).modNet (fun n => { n with up := [true, false], egress := [[{ eg false with len := 24576 }], [], []] })).sub 7).conn (((on.modSub 7 (fun x => { x with active := true, nItems := 1, udp := true })).modNet (fun n => { n with up := [true, false], egress := [[{ eg false with len := 24576 }], [], []] })).deliveryWords 7),
    ⟨rfl, by decide +kernel, by decide +kernel, rfl, by decide +kernel⟩⟩,
   ⟨7, on, by decide +kernel⟩,
   ⟨7,
    (((on.modSub 7 (fun x => { x with active := true, nItems := 1, source := 1, addrs := [0x10010101] })).sub 7).addrs.flatMap (fun a => ((((on.modSub 7 (fun x => { x with active := true, nItems := 1, source := 1, addrs := [0x10010101] })).atT ((on.modSub 7 (fun x => { x with active := true, nItems := 1, source := 1, addrs := [0x10010101] })).sub 7).nextT).modSub 7 (fun y => { y with nextT := y.nextT + y.period * msCycles })).getWords ((((on.modSub 7 (fun x => { x with active := true, nItems := 1, source := 1, addrs := [0x10010101] })).atT ((on.modSub 7 (fun x => { x with active := true, nItems := 1, source := 1, addrs := [0x10010101] })).sub 7).nextT).modSub 7 (fun y => { y with nextT := y.nextT + y.period * msCycles })).ownerRole ((on.modSub 7 (fun x => { x with active := true, nItems := 1, source := 1, addrs := [0x10010101] })).sub 7).owner) a).take 1)),
    on.modSub 7 (fun x => { x with active := true, nItems := 1, source := 1, addrs := [0x10010101] }),
    ((on.modSub 7 (fun x => { x with active := true, nItems := 1, source := 1, addrs := [0x10010101] })).atT ((on.modSub 7 (fun x => { x with active := true, nItems := 1, source := 1, addrs := [0x10010101] })).sub 7).nextT).modSub 7 (fun y => { y with nextT := y.nextT + y.period * msCycles }),
    ⟨by decide +kernel, by decide +kernel, rfl, rfl, by decide +kernel⟩⟩,
   ⟨7, on, by decide +kernel⟩⟩

/-- Operands and states that meet the hypotheses of `PtpSlave`, clause by clause. -/
theorem witness_PtpSlave :
    (∃ p : Fin 2, ∃ h : PtpHead, ∃ li : Int, ∃ corr : Int, ∃ t : Nat, ∃ x : Rat, ∃ s : State, ∃ w : State, w = s.atT t ∧
      w.fromMaster p.val h = true ∧ -7 ≤ li ∧ li ≤ 1 ∧ x = w.stampRx p.val - s.rdR (Obj.asym p.val) - (corr : Rat) / 65536) ∧
    (∃ p : Fin 2, ∃ h : PtpHead, ∃ li : Int, ∃ t : Nat, ∃ s : State, (s.atT t).fromMaster p.val h = false ∨ li < -7 ∨ 1 < li) ∧
    (∃ p : Fin 2, ∃ h : PtpHead, ∃ t0 : Nat, ∃ x : Rat, ∃ s : State, s.fromMaster p.val h = true ∧ s.net.syncPend = some (p.val,
      h.seq, t0, x)) ∧
    (∃ p : Fin 2, ∃ h : PtpHead, ∃ s : State, s.net.syncPend = none ∨ s.fromMaster p.val h = false) ∧
    (∃ p : Nat, ∃ h : PtpHead, ∃ s : State, s.fromMaster p h = true) ∧
    (∃ p : Nat, ∃ t : Nat, ∃ s : State, ∃ w : State, w = s.atT t ∧ s.ptpOn = true ∧ w.ptpPort = some p ∧ s.rd Obj.ptpDelay = 0) ∧
    (∃ p : Fin 2, ∃ h : PtpHead, ∃ t3 : Rat, ∃ x : Rat, ∃ s : State, s.fromMaster p.val h = true ∧ h.req = ownPort p.val ∧
      h.seq = s.net.reqSeq ∧ s.rd Obj.ptpDelay = 0 ∧ s.net.reqLatch = some t3 ∧ s.net.lastSync = some x) ∧
    (∃ p : Fin 2, ∃ h : PtpHead, ∃ s : State, h.req ≠ ownPort p.val ∨ h.seq ≠ s.net.reqSeq) ∧
    (∃ a : Announce, ∃ s : State, s.ptpOn = true ∧ s.hears a.head = true) ∧
    (∃ a : Announce, ∃ s : State, s.hears a.head = false) ∧
    (∃ f : Heard, ∃ g : Heard, f.gmId ≠ g.gmId) ∧
    (∃ f : Heard, ∃ g : Heard, f.gmId = g.gmId ∧ f.steps < g.steps) ∧
    (∃ m : Nat, ∃ s : State, s.ptpOn = true ∧ s.net.master = some m) ∧
    (∃ p : Fin 2, ∃ t : Nat, ∃ seq : Nat, ∃ s : State, ∃ w : State, w = s.atT t ∧ s.peerMeasured = true ∧
      seq = (s.net.pdSeq.getD p.val 0 + 1) % 65536) ∧
    (∃ h : PtpHead, ∃ t : Nat, ∃ s : State, ∃ w : State, w = s.atT t ∧ s.peerMeasured = true ∧ s.hears h = true) ∧
    (∃ h : PtpHead, ∃ t : Nat, ∃ s : State, ∃ w : State, w = s.atT t ∧ s.peerMeasured = true ∧ s.hears h = false) ∧
    (∃ p : Fin 2, ∃ h : PtpHead, ∃ t2 : Int, ∃ t3 : Int, ∃ corr : Int, ∃ t : Nat, ∃ t1 : Rat, ∃ d : Rat, ∃ s : State,
      ∃ w : State, w = s.atT t ∧ s.peerMeasured = true ∧ s.hears h = true ∧ h.req = ownPort p.val ∧
      h.seq = s.net.pdSeq.getD p.val 0 ∧ s.net.pdLatch.getD p.val none = some t1 ∧ p.val < s.net.peerD.length ∧
      d = (w.stampRx p.val - t1 - ((t3 - t2 : Int) : Rat) - s.rdR (Obj.asym p.val) - (corr : Rat) / 65536) / 2) :=
  ⟨⟨0, hd 2 5, (-7), 0, 0, (ptp.atT 0).stampRx (0 : Fin 2).val - ptp.rdR (Obj.asym (0 : Fin 2).val) - ((0 : Int) : Rat) / 65536,
    ptp, ptp.atT 0, ⟨rfl, by decide +kernel, by decide +kernel, by decide +kernel, rfl⟩⟩,
   ⟨0, hd 2 0, 2, 0, ptp, by decide +kernel⟩,
   ⟨0, hd 2 5, 0, 1, ptp.modNet (fun n => { n with syncPend := some (0, 5, 0, 1) }), by decide +kernel⟩,
   ⟨0, hd 2 0, on, by decide +kernel⟩,
   ⟨0, hd 2 0, ptp, by decide +kernel⟩,
   ⟨0, 0, ptp.wr Obj.ptpDelay 0, (ptp.wr Obj.ptpDelay 0).atT 0, ⟨rfl, by decide +kernel⟩⟩,
   ⟨0, hd 2 0, 7, 1, (ptp.wr Obj.ptpDelay 0).modNet (fun n => { n with reqLatch := some 7, lastSync := some 1 }),
    ⟨by decide +kernel, rfl, by decide +kernel, by decide +kernel, by decide +kernel, rfl⟩⟩,
   ⟨0, hd 2 1, on, .inr (by decide +kernel)⟩,
   ⟨ann 2, ptp, by decide +kernel⟩,
   ⟨ann 1, on, by decide +kernel⟩,
   ⟨⟨1, 0, [], 0, 0, 0, 0⟩, ⟨2, 0, [], 1, 0, 0, 0⟩, by decide +kernel⟩,
   ⟨⟨1, 0, [], 0, 0, 0, 0⟩, ⟨2, 0, [], 0, 1, 0, 0⟩, by decide +kernel⟩,
   ⟨1, ptp, by decide +kernel⟩,
   ⟨0, 0, ((ptp.wr Obj.ptpDelay 1).net.pdSeq.getD (0 : Fin 2).val 0 + 1) % 65536, (ptp.wr Obj.ptpDelay 1),
    (ptp.wr Obj.ptpDelay 1).atT 0, ⟨rfl, by decide +kernel, rfl⟩⟩,
   ⟨hd 2 5, 0, (ptp.wr Obj.ptpDelay 1), (ptp.wr Obj.ptpDelay 1).atT 0, ⟨rfl, by decide +kernel⟩⟩,
   ⟨hd 1 5, 0, (ptp.wr Obj.ptpDelay 1), (ptp.wr Obj.ptpDelay 1).atT 0, ⟨rfl, by decide +kernel⟩⟩,
   ⟨0, hd 2 0, 0, 0, 0, 0, 3,
    ((((ptp.wr Obj.ptpDelay 1).modNet (fun n => { n with pdLatch := [some 3, none] })).atT 0).stampRx (0 : Fin 2).val - 3 - (((0 : Int) - (0 : Int) : Int) : Rat) - ((ptp.wr Obj.ptpDelay 1).modNet (fun n => { n with pdLatch := [some 3, none] })).rdR (Obj.asym (0 : Fin 2).val) - ((0 : Int) : Rat) / 65536) / 2,
    ((ptp.wr Obj.ptpDelay 1).modNet (fun n => { n with pdLatch := [some 3, none] })),
    ((ptp.wr Obj.ptpDelay 1).modNet (fun n => { n with pdLatch := [some 3, none] })).atT 0, ⟨rfl, by decide +kernel,
    by decide +kernel, rfl, by decide +kernel, by decide +kernel, by decide +kernel, rfl⟩⟩⟩

/-- Operands and states that meet the hypotheses of `Timekeeping`, clause by clause. -/
theorem witness_Timekeeping :
    (∃ ch : Fin 2, ∃ o : Int, ∃ t : Nat, ∃ s : State, ∃ w : State, w = s.atT t ∧ s.askard = true ∧ (ch = 0 → ∃ b,
      s.net.offset = some (o, b) ∧ s.beforeStep b = false) ∧ (ch = 1 → s.pair.clkDue = some o) ∧ (s.lv ch).st ≠ .free ∧
      s.rd (Obj.lvJump ch.val) < (o.natAbs : Int)) ∧
    (∃ ch : Fin 2, ∃ o : Int, ∃ t : Nat, ∃ s : State, ∃ w : State, w = s.atT t ∧ s.askard = true ∧ (ch = 0 → ∃ b,
      s.net.offset = some (o, b) ∧ s.beforeStep b = false) ∧ (ch = 1 → s.pair.clkDue = some o) ∧ (s.lv ch).st ≠ .free ∧
      (o.natAbs : Int) ≤ s.rd (Obj.lvJump ch.val) ∧ 0 ≤ s.rd (Obj.lvMaxPpb ch.val)) ∧
    (∃ o : Int, ∃ b : Nat, ∃ t : Nat, ∃ s : State, ∃ w : State, w = s.atT t ∧ s.askard = true ∧ s.net.offset = some (o, b) ∧
      s.beforeStep b = false ∧ s.time.lv0.st = .free ∧ s.rd (Obj.lvInitStep 0) = 1) ∧
    (∃ o : Int, ∃ b : Nat, ∃ s : State, s.askard = true ∧ s.net.offset = some (o, b) ∧ s.beforeStep b = true) ∧
    (∃ ch : Fin 2, ∃ s : State, (ch = 0 → s.net.offset = none) ∧ (ch = 1 → s.pair.clkDue = none)) ∧
    (∃ s : State, ∃ w : State, w = s.atT (s.time.now + s.cyclesOf s.toSecond) ∧ s.askard = true ∧ s.rd Obj.ppsEn = 1 ∧
      (s.rd Obj.ppsGate = 0 ∨ s.time.lv0.st = .locked)) ∧
    (∃ s : State, ∃ w : State, w = s.atT (s.time.now + s.cyclesOf s.toSecond) ∧ (s.rd Obj.ppsEn ≠ 1 ∨ (s.rd Obj.ppsGate ≠ 0 ∧
      s.time.lv0.st ≠ .locked))) ∧
    (∃ s : State, s.time.ppsOut = true) ∧
    (∃ s : State, s.time.ppsOut = false) ∧
    (∃ u : Fin 2, ∃ e : EtsEdge, ∃ s : State, s.regionUp = true ∧ s.rdN (Obj.etsSrc u.val) = e.pad.val + 1 ∧
      (8 ≤ e.pad.val → s.has (e.pad.val - 8) = true) ∧ s.rdBit (Obj.etsEdge u.val) (if e.rising then 0 else 1) = true) ∧
    (∃ u : Fin 2, ∃ e : EtsEdge, ∃ s : State,
      s.rdN (Obj.etsSrc u.val) ≠ e.pad.val + 1 ∨ s.rdBit (Obj.etsEdge u.val) (if e.rising then 0 else 1) = false) ∧
    (∃ u : Nat, ∃ ofs : Rat, ∃ s : State, u < 7 ∧ 0x400000000 ≤ (s.trimRange u ofs).1 ∧ (s.trimRange u ofs).2 ≤ 0x600000000) :=
  ⟨⟨0, 6, 0,
    ((on.wr (Obj.lvJump 0) 5).modTime (fun t => { t with lv0 := { st := .tracking } })).modNet (fun n => { n with offset := some (6, 0) }),
    (((on.wr (Obj.lvJump 0) 5).modTime (fun t => { t with lv0 := { st := .tracking } })).modNet (fun n => { n with offset := some (6, 0) })).atT 0,
    ⟨rfl, by decide +kernel, fun _ => ⟨0, by decide +kernel⟩, fun h => absurd h (by decide), by decide +kernel⟩⟩,
   ⟨0, (-5), 0,
    ((on.wr (Obj.lvJump 0) 5).modTime (fun t => { t with lv0 := { st := .tracking } })).modNet (fun n => { n with offset := some (-5, 0) }),
    (((on.wr (Obj.lvJump 0) 5).modTime (fun t => { t with lv0 := { st := .tracking } })).modNet (fun n => { n with offset := some (-5, 0) })).atT 0,
    ⟨rfl, by decide +kernel, fun _ => ⟨0, by decide +kernel⟩, fun h => absurd h (by decide), by decide +kernel⟩⟩,
   ⟨0, 0, 0, (on.wr (Obj.lvInitStep 0) 1).modNet (fun n => { n with offset := some (0, 0) }),
    ((on.wr (Obj.lvInitStep 0) 1).modNet (fun n => { n with offset := some (0, 0) })).atT 0, ⟨rfl, by decide +kernel⟩⟩,
   ⟨0, 0, (on.modTime (fun t => { t with stepT := some 0 })).modNet (fun n => { n with offset := some (0, 0) }),
    by decide +kernel⟩,
   ⟨1, on, by decide +kernel⟩,
   ⟨on.wrs [(Obj.ppsEn, 1), (Obj.ppsGate, 0)], (on.wrs [(Obj.ppsEn, 1), (Obj.ppsGate, 0)]).atT ((on.wrs [(Obj.ppsEn, 1),
    (Obj.ppsGate, 0)]).time.now + (on.wrs [(Obj.ppsEn, 1), (Obj.ppsGate, 0)]).cyclesOf (on.wrs [(Obj.ppsEn, 1), (Obj.ppsGate,
    0)]).toSecond), ⟨rfl, by decide +kernel⟩⟩,
   ⟨on.wr Obj.ppsEn 0,
    (on.wr Obj.ppsEn 0).atT ((on.wr Obj.ppsEn 0).time.now + (on.wr Obj.ppsEn 0).cyclesOf (on.wr Obj.ppsEn 0).toSecond), ⟨rfl,
    by decide +kernel⟩⟩,
   ⟨on.modTime (fun t => { t with ppsOut := true }), by decide +kernel⟩,
   ⟨on, by decide +kernel⟩,
   ⟨1, ⟨0, true⟩, on.wrs [(Obj.etsSrc 1, 1), (Obj.etsEdge 1, 1)], by decide +kernel⟩,
   ⟨1, ⟨0, true⟩, on, by decide +kernel⟩,
   ⟨0, 0, on, by decide +kernel⟩⟩

/-- Operands and states that meet the hypotheses of `PeripheralPort`, clause by clause. -/
theorem witness_PeripheralPort :
    (∃ s : State, ∃ tx : List Word, s.askard = true ∧ s.pp.run = none ∧ s.pp.next = none ∧ s.pp.due0 = false ∧
      s.pp.due1 = false ∧ s.pp.manual = true ∧
      tx = (List.range (s.rdN Obj.manCnt)).map (fun i => BitVec.ofInt 32 (s.rd (Obj.manTx i)))) ∧
    (∃ s : State, ∃ e : List Byte, ∃ rest : List (List Byte), s.askard = true ∧ s.pp.run = none ∧ s.pp.next = none ∧
      s.pp.due0 = true ∧ ppEntries (s.blob (Obj.listDef 0) []) = e :: rest ∧ s.rdN (Obj.devSel (leAt e 0 1)) ≠ 0xFF) ∧
    (∃ s : State, ∃ l : Nat, ∃ e : List Byte, ∃ rest : List (List Byte), s.askard = true ∧ s.pp.run = none ∧
      s.pp.next = some (l, e :: rest) ∧ s.rdN (Obj.devSel (leAt e 0 1)) ≠ 0xFF) ∧
    (∃ s : State, s.pp.run ≠ none) ∧
    (∃ r : PpRun, ∃ s : State, s.pp.run = some r ∧ r.selected = false ∧ r.cause = none ∧ (r.sel = 8 ∨ r.sel = 9) ∧
      (s.pgpField (r.sel - 8) = 1 ∨ s.pgpField (r.sel - 8) = 2)) ∧
    (∃ r : PpRun, ∃ s : State, s.pp.run = some r ∧ r.selected = false ∧ r.cause = none ∧ (r.sel = 8 ∨ r.sel = 9) ∧
      s.pgpField (r.sel - 8) = 0) ∧
    (∃ s : State, (s.pp.run = none ∨ ∃ r, s.pp.run = some r ∧ (r.selected = true ∨ r.cause ≠ none))) ∧
    (∃ r : PpRun, ∃ s : State, s.pp.run = some r ∧ r.wait = true ∧ r.selected = true ∧ r.cause = none ∧ r.begun < r.tx.length ∧
      s.time.now < r.expiry) ∧
    (∃ s : State, (∀ r,
      s.pp.run = some r → r.wait = false ∨ r.selected = false ∨ r.cause ≠ none ∨ r.tx.length ≤ r.begun ∨ r.expiry ≤ s.time.now)) ∧
    (∃ r : PpRun, ∃ s : State, s.pp.run = some r ∧ r.wait = true ∧ r.selected = true ∧ r.cause = none ∧ r.begun < r.tx.length) ∧
    (∃ r : PpRun, ∃ s : State, s.pp.run = some r ∧
      (r.wait = false ∨ r.selected = false ∨ r.cause ≠ none ∨ r.tx.length ≤ r.begun)) ∧
    (∃ r : PpRun, ∃ rx : List (List Bool), ∃ c : Nat, ∃ s : State, s.pp.run = some r ∧ (r.cause = some c ∨ (r.cause = none ∧
      c = 0 ∧ r.selected = true ∧ r.begun = r.tx.length ∧ r.wordsDone rx = r.tx.length)) ∧ r.owner = 2) ∧
    (∃ r : PpRun, ∃ rx : List (List Bool), ∃ c : Nat, ∃ s : State, ∃ e : List Byte, ∃ rest : List (List Byte),
      s.pp.run = some r ∧ (r.cause = some c ∨ (r.cause = none ∧ c = 0 ∧ r.selected = true ∧ r.begun = r.tx.length ∧
      r.wordsDone rx = r.tx.length)) ∧ r.owner ≠ 2 ∧ c ≠ 1 ∧ c ≠ 3 ∧ r.rest = e :: rest ∧
      s.rdN (Obj.devSel (leAt e 0 1)) ≠ 0xFF) ∧
    (∃ r : PpRun, ∃ rx : List (List Bool), ∃ s : State, s.pp.run = some r ∧ r.cause = none ∧
      (r.selected = false ∨ r.begun ≠ r.tx.length ∨ r.wordsDone rx ≠ r.tx.length)) ∧
    (∃ nbits : Nat, ∃ i : Nat, i < nbits ∧ nbits ≤ 32) ∧
    (∃ l : Fin 2, ∃ s : State, ∃ x : State, s.askard = true ∧ s.listDue l = some x ∧
      (if l = 0 then s.pp.due0 else s.pp.due1) = false ∧ (∀ r, s.pp.run = some r → r.owner ≠ l.val) ∧ (∀ y,
      s.pp.next = some y → y.1 ≠ l.val)) ∧
    (∃ l : Fin 2, ∃ s : State, ∃ x : State, s.listDue l = some x ∧ s.rd (Obj.listTrig l.val) = 2) ∧
    (∃ l : Fin 2, ∃ s : State, ∃ x : State, s.listDue l = some x ∧ s.rd (Obj.listTrig l.val) = 1) ∧
    (∃ l : Fin 2, ∃ s : State, s.listDue l = none) :=
  ⟨⟨(on.modPp (fun p => { p with manual := true })),
    (List.range ((on.modPp (fun p => { p with manual := true })).rdN Obj.manCnt)).map (fun i => BitVec.ofInt 32 ((on.modPp (fun p => { p with manual := true })).rd (Obj.manTx i))),
    ⟨by decide +kernel, by decide +kernel, by decide +kernel, by decide +kernel, by decide +kernel, by decide +kernel, rfl⟩⟩,
   ⟨({ on with blobs := [(Obj.listDef 0, List.replicate 12 0)] }).modPp (fun p => { p with due0 := true }) |>.wr (Obj.devSel 0) 0,
    List.replicate 12 0, [], by decide +kernel⟩,
   ⟨(on.modPp (fun p => { p with next := some (1, [List.replicate 12 0]) })).wr (Obj.devSel 0) 0, 1, List.replicate 12 0, [],
    by decide +kernel⟩,
   ⟨running (run 2 false), by decide +kernel⟩,
   ⟨{ run 2 false with sel := 8 }, (running ({ run 2 false with sel := 8 })).wr Obj.pgpCfg 2, by decide +kernel⟩,
   ⟨{ run 2 false with sel := 8 }, (running ({ run 2 false with sel := 8 })).wr Obj.pgpCfg 0, by decide +kernel⟩,
   ⟨on, .inl rfl⟩,
   ⟨{ run 2 true with selected := true, tx := [0] }, running ({ run 2 true with selected := true, tx := [0] }), by decide +kernel⟩,
   ⟨on, fun r h => nomatch h⟩,
   ⟨{ run 2 true with selected := true, tx := [0] }, running ({ run 2 true with selected := true, tx := [0] }), by decide +kernel⟩,
   ⟨run 2 false, running (run 2 false), by decide +kernel⟩,
   ⟨{ run 2 false with selected := true }, [], 0, running ({ run 2 false with selected := true }), by decide +kernel⟩,
   ⟨{ run 0 false with cause := some 2, rest := [List.replicate 12 0] }, [], 2,
    (running ({ run 0 false with cause := some 2, rest := [List.replicate 12 0] })).wr (Obj.devSel 0) 0, List.replicate 12 0,
    [], by decide +kernel⟩,
   ⟨run 2 false, [], running (run 2 false), by decide +kernel⟩,
   ⟨8, 0, by decide +kernel⟩,
   ⟨1, (on.wr (Obj.listTrig 1) 2), ((State.listDue 1 (on.wr (Obj.listTrig 1) 2)).getD on), ⟨by decide +kernel, rfl,
    by decide +kernel, (fun r h => nomatch h), (fun y h => nomatch h)⟩⟩,
   ⟨1, (on.wr (Obj.listTrig 1) 2), ((State.listDue 1 (on.wr (Obj.listTrig 1) 2)).getD on), ⟨rfl, by decide +kernel⟩⟩,
   ⟨1, ((on.wrs [(Obj.listTrig 1, 1), (Obj.listDiv 1, 1)]).modPp (fun p => { p with evt1 := 1 })),
    ((State.listDue 1 ((on.wrs [(Obj.listTrig 1, 1), (Obj.listDiv 1, 1)]).modPp (fun p => { p with evt1 := 1 }))).getD on),
    ⟨rfl, by decide +kernel⟩⟩,
   ⟨1, on, rfl⟩⟩

/-- Operands and states that meet the hypotheses of `MirrorLink`, clause by clause. -/
theorem witness_MirrorLink :
    (∃ bytes : List Byte, ∃ t : Nat, ∃ s : State, ∃ c ∈ [Instr.mirrorState bytes t, .mirrorRelease bytes t, .mirrorHello bytes],
      s.pairUp = true ∧ (bytes.length ≠ 130 ∨ leAt bytes 128 2 ≠ (crc16 (bytes.take 128)).toNat)) ∧
    (∃ bytes : List Byte, ∃ t : Nat, ∃ s : State, ∃ y : State, s.pairUp = true ∧ s.pair.trained = true ∧ bytes.length = 130 ∧
      leAt bytes 128 2 = (crc16 (bytes.take 128)).toNat ∧ y = s.atT t ∧ leAt bytes 0 1 = 0) ∧
    (∃ bytes : List Byte, ∃ t : Nat, ∃ s : State, ∃ y : State, s.pairUp = true ∧ s.pair.trained = true ∧ bytes.length = 130 ∧
      leAt bytes 128 2 = (crc16 (bytes.take 128)).toNat ∧ y = s.atT t ∧ leAt bytes 0 1 = 2 ∧
      (s.follows s.prGroup = false ∨ (s.timingLoaf s.prGroup).isSome = true)) ∧
    (∃ bytes : List Byte, ∃ t : Nat, ∃ s : State, ∃ y : State, ∃ c ∈ [Instr.mirrorState bytes t, .mirrorRelease bytes t],
      s.pairUp = true ∧ s.pair.trained = false ∧ bytes.length = 130 ∧ leAt bytes 128 2 = (crc16 (bytes.take 128)).toNat ∧
      y = s.atT t) ∧
    (∃ s : State, s.pairUp = false) ∧
    (∃ bytes : List Byte, ∃ s : State, ∃ x : State, ∃ y : State, s.pairUp = true ∧ bytes.length = 130 ∧
      leAt bytes 128 2 = (crc16 (bytes.take 128)).toNat ∧ leAt bytes 0 1 = 1 ∧
      x = s.modPair (fun p => { p with crcRun := 0, rxT := s.time.now, rxSeq := leAt bytes 1 1 }) ∧
      y = x.modPair (fun p => { p with helloSent := s.helloFrame, txSeq := (p.txSeq + 1) % 256 }) ∧ s.pair.mlPres = true ∧
      y.helloFault bytes = none) ∧
    (∃ bytes : List Byte, ∃ s : State, ∃ x : State, ∃ y : State, ∃ d : Nat, s.pairUp = true ∧ bytes.length = 130 ∧
      leAt bytes 128 2 = (crc16 (bytes.take 128)).toNat ∧ leAt bytes 0 1 = 1 ∧
      x = s.modPair (fun p => { p with crcRun := 0, rxT := s.time.now, rxSeq := leAt bytes 1 1 }) ∧
      y = x.modPair (fun p => { p with helloSent := s.helloFrame, txSeq := (p.txSeq + 1) % 256 }) ∧ s.pair.mlPres = true ∧
      y.helloFault bytes = some d ∧ d ∉ s.pair.hello02) ∧
    (∃ bytes : List Byte, ∃ s : State, ∃ x : State, ∃ y : State, s.pairUp = true ∧ bytes.length = 130 ∧
      leAt bytes 128 2 = (crc16 (bytes.take 128)).toNat ∧ leAt bytes 0 1 = 1 ∧
      x = s.modPair (fun p => { p with crcRun := 0, rxT := s.time.now, rxSeq := leAt bytes 1 1 }) ∧
      y = x.modPair (fun p => { p with helloSent := s.helloFrame, txSeq := (p.txSeq + 1) % 256 }) ∧ s.pair.mlPres = false) ∧
    (∃ t : Nat, ∃ s : State, s.pairUp = true ∧ s.pair.awaited = true ∧ s.pair.lost = false ∧
      (3 * s.mirrorI + 1 / 100000) * 200000000 ≤ (((s.atT t).time.now - s.pair.rxT : Nat) : Rat)) ∧
    (∃ s : State, s.pair.lost = true ∨ s.pair.awaited = false) ∧
    (∃ s : State, s.pairUp = true) ∧
    (∃ s : State, ∃ w : State, w = s.atT (s.pair.presT + secCycles) ∧ s.pairUp = true ∧ s.pair.mlPres = false ∧
      s.pair.trained = false ∧ 1 ∉ s.pair.hello02) ∧
    (∃ s : State, ∃ w : State, w = s.atT (s.pair.presT + secCycles) ∧ s.pairUp = true ∧ s.pair.mlPres = false ∧
      s.pair.trained = false ∧ 1 ∈ s.pair.hello02) ∧
    (∃ s : State, s.pair.mlPres = true ∨ s.pair.trained = true) ∧
    (∃ t : Nat, ∃ s : State, ∃ w : State, w = s.atT t ∧ s.pairUp = true ∧ w.repeatDue = true ∧ s.pair.sent.length = 130) ∧
    (∃ t : Nat, ∃ s : State, s.pairUp = false ∨ (s.atT t).repeatDue = false) :=
  ⟨⟨[], 0, sideA, .mirrorHello [], by decide +kernel, by decide +kernel⟩,
   ⟨mf 0, 0, sideA, sideA.atT 0, ⟨by decide +kernel, by decide +kernel, (mf_sound _).1, (mf_sound _).2, rfl, by decide +kernel⟩⟩,
   ⟨mf 2, 0, sideB, sideB.atT 0, ⟨by decide +kernel, by decide +kernel, (mf_sound _).1, (mf_sound _).2, rfl, by decide +kernel⟩⟩,
   ⟨mf 0, 0, (sideA.modPair (fun p => { p with trained := false })), (sideA.modPair (fun p => { p with trained := false })).atT 0,
    .mirrorState (mf 0) 0, by simp, ⟨by decide +kernel, by decide +kernel, (mf_sound _).1, (mf_sound _).2, rfl⟩⟩,
   ⟨on, by decide +kernel⟩,
   ⟨helloTo 1 sideB, (sideB.modPair (fun p => { p with mlPres := true })),
    ((sideB.modPair (fun p => { p with mlPres := true }))).modPair (fun p => { p with crcRun := 0, rxT := ((sideB.modPair (fun p => { p with mlPres := true }))).time.now, rxSeq := leAt (helloTo 1 sideB) 1 1 }),
    (((sideB.modPair (fun p => { p with mlPres := true }))).modPair (fun p => { p with crcRun := 0, rxT := ((sideB.modPair (fun p => { p with mlPres := true }))).time.now, rxSeq := leAt (helloTo 1 sideB) 1 1 })).modPair (fun p => { p with helloSent := ((sideB.modPair (fun p => { p with mlPres := true }))).helloFrame, txSeq := (p.txSeq + 1) % 256 }),
    ⟨by decide +kernel, (helloTo_sound _ _).1, (helloTo_sound _ _).2, by simp [helloTo, leAt, slice, leNat], rfl, rfl, rfl,
    helloTo_matches (by simp only [hello_pair]) rfl⟩⟩,
   ⟨mf 1, (sideB.modPair (fun p => { p with mlPres := true })),
    ((sideB.modPair (fun p => { p with mlPres := true }))).modPair (fun p => { p with crcRun := 0, rxT := ((sideB.modPair (fun p => { p with mlPres := true }))).time.now, rxSeq := leAt (mf 1) 1 1 }),
    (((sideB.modPair (fun p => { p with mlPres := true }))).modPair (fun p => { p with crcRun := 0, rxT := ((sideB.modPair (fun p => { p with mlPres := true }))).time.now, rxSeq := leAt (mf 1) 1 1 })).modPair (fun p => { p with helloSent := ((sideB.modPair (fun p => { p with mlPres := true }))).helloFrame, txSeq := (p.txSeq + 1) % 256 }),
    18, ⟨by decide +kernel, (mf_sound _).1, (mf_sound _).2, by decide +kernel, rfl, rfl, by decide +kernel⟩⟩,
   ⟨mf 1, (sideB.modPair (fun p => { p with mlPres := false })),
    ((sideB.modPair (fun p => { p with mlPres := false }))).modPair (fun p => { p with crcRun := 0, rxT := ((sideB.modPair (fun p => { p with mlPres := false }))).time.now, rxSeq := leAt (mf 1) 1 1 }),
    (((sideB.modPair (fun p => { p with mlPres := false }))).modPair (fun p => { p with crcRun := 0, rxT := ((sideB.modPair (fun p => { p with mlPres := false }))).time.now, rxSeq := leAt (mf 1) 1 1 })).modPair (fun p => { p with helloSent := ((sideB.modPair (fun p => { p with mlPres := false }))).helloFrame, txSeq := (p.txSeq + 1) % 256 }),
    ⟨by decide +kernel, (mf_sound _).1, (mf_sound _).2, by decide +kernel, rfl, rfl, by decide +kernel⟩⟩,
   ⟨302000, sideA.modPair (fun p => { p with awaited := true }), by decide +kernel⟩,
   ⟨on, by decide +kernel⟩,
   ⟨sideA, by decide +kernel⟩,
   ⟨sideA.modPair (fun p => { p with trained := false, mlPres := false }),
    (sideA.modPair (fun p => { p with trained := false, mlPres := false })).atT ((sideA.modPair (fun p => { p with trained := false, mlPres := false })).pair.presT + secCycles),
    ⟨rfl, by decide +kernel⟩⟩,
   ⟨sideA.modPair (fun p => { p with trained := false, mlPres := false, hello02 := [1] }),
    (sideA.modPair (fun p => { p with trained := false, mlPres := false, hello02 := [1] })).atT ((sideA.modPair (fun p => { p with trained := false, mlPres := false, hello02 := [1] })).pair.presT + secCycles),
    ⟨rfl, by decide +kernel⟩⟩,
   ⟨sideA, by decide +kernel⟩,
   ⟨100000, (sideA.modPair (fun p => { p with sent := mf 0 })), (sideA.modPair (fun p => { p with sent := mf 0 })).atT 100000,
    ⟨rfl, by decide +kernel⟩⟩,
   ⟨0, on, by decide +kernel⟩⟩

/-- Operands and states that meet the hypotheses of `Takeover`, clause by clause. -/
theorem witness_Takeover :
    (∃ s : State, s.pairUp = true ∧ s.prSide = 2 ∧ s.pair.roleAct = true ∧ s.pair.partner = false) ∧
    (∃ pads : PairPads, ∃ t : Nat, ∃ s : State, ∃ w : State, w = (s.atT t).notePres pads.present ∧
      s.pair.partner ≠ pads.partner ∧ (pads.partner = false ∨ s.pair.roleAct = false ∨ s.prSide ≠ 2 ∨ s.pairUp = false)) ∧
    (∃ pads : PairPads, ∃ s : State, s.pair.partner = pads.partner ∧ s.pair.mlPres = pads.present) ∧
    (∃ pads : PairPads, ∃ s : State, s.pair.partner = pads.partner ∧ s.pair.mlPres ≠ pads.present) ∧
    (∃ t : Nat, ∃ s : State, s.pairUp = true ∧ s.prSide = 1 ∧ s.pair.roleAct = true ∧ s.pair.partner = true ∧
      2 * usCycles ≤ (s.atT t).time.now - s.pair.partnerT) ∧
    (∃ s : State, s.pair.partner = false ∨ s.pair.roleAct = false) ∧
    (∃ t : Nat, ∃ d : Nat, ∃ s : State, s.pairUp = true ∧ (s.atT t).partnerLow = true ∧ (s.atT t).handoverOver = true ∧
      s.power.ckSafeBad = false ∧ (s.atT t).takeRequest = some d) ∧
    (∃ t : Nat, ∃ s : State, s.pair.partner = true ∨ (s.atT t).takeRequest = none) ∧
    (∃ s : State, s.pairUp = true ∧ s.prSide = 2 ∧ s.pair.trained = false ∧ (s.mode = .ready ∨ s.mode = .operational)) ∧
    (∃ t1 : Int, ∃ t2 : Int, ∃ t3 : Int, ∃ t4 : Int, ∃ o : Int, ∃ s : State, s.askard = true ∧ s.pairUp = true ∧ s.prRole = 2 ∧
      s.prSide = 1 ∧ o = showInt ((((t2 - t1) - (t4 - t3) : Int) : Rat) / 2)) ∧
    (∃ t1 : Int, ∃ t2 : Int, ∃ t3 : Int, ∃ t4 : Int, ∃ o : Int, ∃ s : State, s.askard = true ∧ s.pairUp = true ∧ s.prRole = 2 ∧
      s.prSide = 2 ∧ o = showInt ((((t2 - t1) - (t4 - t3) : Int) : Rat) / 2)) :=
  ⟨⟨sideB.modPair (fun p => { p with roleAct := true, partner := false }), by decide +kernel⟩,
   ⟨⟨false, true⟩, 0, on, (on.atT 0).notePres true, ⟨rfl, by decide +kernel⟩⟩,
   ⟨⟨on.pair.partner, on.pair.mlPres⟩, on, by decide +kernel⟩,
   ⟨⟨on.pair.partner, !on.pair.mlPres⟩, on, by decide +kernel⟩,
   ⟨400, sideA.modPair (fun p => { p with roleAct := true }), by decide +kernel⟩,
   ⟨sideA, by decide +kernel⟩,
   ⟨200000000, 0, sideA.modPair (fun p => { p with partner := false, partnerF := false }), by decide +kernel⟩,
   ⟨0, on, by decide +kernel⟩,
   ⟨sideB.modPair (fun p => { p with trained := false }), by decide +kernel⟩,
   ⟨0, 3, 0, 1, 1, (sideA.modPair (fun p => { p with last := 0 :: 0 :: 1 :: List.replicate 127 0 })).wr Obj.prMode 0,
    by decide +kernel⟩,
   ⟨0, 3, 0, 1, 1, (sideB.modPair (fun p => { p with last := 0 :: 0 :: 1 :: List.replicate 127 0 })).wr Obj.prMode 0,
    by decide +kernel⟩⟩

/-- Operands and states that meet the hypotheses of `DebugAccess`, clause by clause. -/
theorem witness_DebugAccess :
    (∃ s : State, ∃ role : Nat, ∃ user : Nat, s.sec.session = some (role, user)) ∧
    (∃ s : State, s.sec.session = none) ∧
    (∃ v : Fin 16, ∃ a : Nat, ∃ b : Nat, ∃ t0 : Nat, ∃ s : State, s.lockOf v.val = (a, b, some t0)) ∧
    (∃ v : Fin 16, ∃ s : State, (s.lockOf v.val).2.2 = none) ∧
    (∃ s : State, s.sec.unlocked = false) ∧
    (∃ s : State, s.sec.unlocked = true) ∧
    (∃ r : Region, ∃ addr : Nat, ∃ s : State, ∃ v : Byte, s.sec.unlocked = true ∧
      s.sec.debugMem.find? (fun p => p.1 == debugKey r addr) = some (debugKey r addr, v)) ∧
    (∃ s : State, s.sec.unlocked = true) :=
  ⟨⟨on.modSec (fun x => { x with session := some (5, 0) }), 5, 0, by decide +kernel⟩,
   ⟨on, by decide +kernel⟩,
   ⟨0, 1, 2, 3, on.modSec (fun x => { x with lockouts := [(1, 2, some 3)] }), by decide +kernel⟩,
   ⟨15, on, by decide +kernel⟩,
   ⟨on, by decide +kernel⟩,
   ⟨on.modSec (fun x => { x with unlocked := true }), by decide +kernel⟩,
   ⟨.c, 0, on.modSec (fun x => { x with unlocked := true, debugMem := [(0, 5)] }), 5, by decide +kernel⟩,
   ⟨on.modSec (fun x => { x with unlocked := true }), by decide +kernel⟩⟩

/-- Operands and states that meet the hypotheses of `StepTakesTheFront`, clause by clause. -/
theorem witness_StepTakesTheFront :
    (∃ c : Instr, ∃ rest : List Instr, ∃ s : State, s.pending = c :: rest) ∧
    (∃ s : State, s.pending = []) :=
  ⟨⟨.askardStart, [], { on with pending := [.askardStart] }, by decide +kernel⟩,
   ⟨on, by decide +kernel⟩⟩

/-- Operands and states that meet the hypotheses of `StepsKeepTime`, clause by clause. -/
theorem witness_StepsKeepTime :
    (∃ s : State, ∃ t : State, step s = .next t) :=
  ⟨on, on, rfl⟩

/-- Operands and states that meet the hypotheses of `StoreStaysSound`, clause by clause. -/
theorem witness_StoreStaysSound :
    (∃ s : State, ∃ t : State, StoreSound s ∧ step s = .next t) :=
  ⟨on, on, ⟨by unfold StoreSound; decide +kernel, rfl⟩⟩

/-- Operands and states that meet the hypotheses of `ObjectsReadBack`, clause by clause. -/
theorem witness_ObjectsReadBack :
    (∃ a : Nat, ∃ b : Nat, ∃ s : State, StoreSound s ∧ b ≠ a) ∧
    (∃ s : State, StoreSound s) :=
  ⟨⟨0, 1, on, ⟨by unfold StoreSound; decide +kernel, by decide⟩⟩,
   ⟨on, by unfold StoreSound; decide +kernel⟩⟩

/-- Operands and states that meet the hypotheses of `ResetState`, clause by clause. -/
theorem witness_ResetState :
    (∃ a : Nat, a ≠ Obj.resetCause ∧ a ≠ Obj.resetCount ∧ a ≠ Obj.bootMs) :=
  ⟨0, by decide +kernel⟩

/-- Operands and states that meet the hypotheses of `EnableFallHoldsOff`, clause by clause. -/
theorem witness_EnableFallHoldsOff :
    (∃ ch : Chan, ∃ s : State, s.genOf ch = true) ∧
    (∃ n : Fin 4, ∃ s : State, (s.loaf.get n).holdOff = true) ∧
    (∃ n : Fin 4, ∃ st : LoafState, ∃ s : State, (s.loaf.get n).st ≠ st) :=
  ⟨⟨.m, drive, by decide +kernel⟩,
   ⟨0, on.modLoaf 0 (fun l => { l with holdOff := true }), by decide +kernel⟩,
   ⟨0, .open_, on, by decide +kernel⟩⟩

/-- Operands and states that meet the hypotheses of `ListTriggerDropped`, clause by clause. -/
theorem witness_ListTriggerDropped :
    (∃ l : Fin 2, ∃ s : State, ∃ x : State, s.askard = true ∧ s.listDue l = some x ∧
      ((if l = 0 then s.pp.due0 else s.pp.due1) = true ∨ (∃ r, s.pp.run = some r ∧ r.owner = l.val) ∨ (∃ y, s.pp.next = some y ∧
      y.1 = l.val))) :=
  ⟨0, ((on.wr (Obj.listTrig 0) 2).modPp (fun p => { p with due0 := true })),
    ((State.listDue 0 ((on.wr (Obj.listTrig 0) 2).modPp (fun p => { p with due0 := true }))).getD on), ⟨by decide +kernel, rfl,
    .inl (by decide +kernel)⟩⟩

/-! ## Ill-formed commands -/

/-- A packet of 65 payload bytes (R30), a register write beside a word or beyond the window (R119), frames whose bits and
bytes disagree (R118), a mirror frame of 129 bytes (R466), and a command of no word (R140) are ill-formed. -/
theorem test_illformed_links :
    WellFormed (.objWr (pk .objWr (List.replicate 65 0))) = false ∧ WellFormed (.event (pk .event (List.replicate 65 0))) = false ∧
    WellFormed (.windowRegisterWrite 0x002 0) = false ∧ WellFormed (.windowRegisterWrite 0x10000 0) = false ∧
    WellFormed (.hostWriteFrame wrFrame 80 1000) = false ∧ WellFormed (.hostReadFrame rdFrame 24 1000) = false ∧
    WellFormed (.mirrorState (List.replicate 129 0) 0) = false ∧ WellFormed (.mirrorHello []) = false ∧
    WellFormed (.netCommand 0 []) = false ∧ WellFormed (.netCommand 0 (List.replicate 257 0)) = false := by decide +kernel

/-- Inputs a converter does not have (R213), counts beyond its range (R228), the open-wire detector of CV4, and instants after
their event are ill-formed. -/
theorem test_illformed_samples :
    WellFormed (.sampleResult 4 2 .regular 0 0 0) = false ∧ WellFormed (.sampleResult 5 8 .regular 0 0 0) = false ∧
    WellFormed (.sampleResult 0 0 .regular 8192 0 0) = false ∧ WellFormed (.sampleResult 5 0 .regular 2048 0 0) = false ∧
    WellFormed (.sampleResult 0 0 .regular 0 1 0) = false ∧ WellFormed (.openWireDetect 4 0 0) = false ∧
    WellFormed (.openWireDetect 5 8 0) = false ∧ WellFormed (.fbEdge 0 true true true 0 1 0) = false := by decide +kernel

/-- Well-formed commands at the ends of their ranges. -/
theorem test_wellformed :
    WellFormed (.objWr (pk .objWr (List.replicate 64 0))) = true ∧ WellFormed (.windowRegisterWrite 0xFFFC 0) = true ∧
    WellFormed (.hostWriteFrame wrFrame 72 1000) = true ∧ WellFormed (.mirrorState (mf 0) 0) = true ∧
    WellFormed (.sampleResult 0 8 .regular 8191 7 7) = true ∧ WellFormed (.netCommand 3 (List.replicate 256 0)) = true := by
  decide +kernel

/-! ## Checks of the text `123456789`: R119 and R398 print them; that of R30's CRC follows from its polynomial and start value -/

def digits : List Byte := [0x31, 0x32, 0x33, 0x34, 0x35, 0x36, 0x37, 0x38, 0x39]
theorem test_crc8 : crc8 digits = 0xF4 := by decide +kernel
theorem test_crc16 : crc16 digits = 0x29B1 := by decide +kernel
theorem test_crc32 : crc32 digits = 0xCBF43926 := by decide +kernel
/-- SHA-256 of `abc`, as FIPS 180 prints it. -/
theorem test_sha256 : (sha256 [0x61, 0x62, 0x63]).take 4 = [0xBA, 0x78, 0x16, 0xBF] := by decide +kernel

/-- AES-128 of the example in FIPS 197. -/
theorem test_aes : aes128 ((List.range 16).map (fun i => BitVec.ofNat 8 i)) ((List.range 16).map (fun i => BitVec.ofNat 8 (17 * i)))
    = [0x69, 0xC4, 0xE0, 0xD8, 0x6A, 0x7B, 0x04, 0x30, 0xD8, 0xCD, 0xB7, 0x80, 0x70, 0xB4, 0xC5, 0x5A] := by decide +kernel
/-- The tag of an enciphered zero block under a zero key and nonce, as NIST's GCM test vectors print it (R417). -/
theorem test_gcm : (gcmSeal (List.replicate 16 0) (List.replicate 12 0) [] (List.replicate 16 0)).drop 16
    = [0xAB, 0x6E, 0x47, 0xD4, 0x2C, 0xEC, 0x13, 0xBD, 0xF5, 0x3A, 0x67, 0xB2, 0x12, 0x57, 0xBD, 0xDF] := by decide +kernel

/-! ## Single steps -/

/-- An empty queue idles. -/
theorem test_step_idle : step on = .next on := rfl
/-- A table word spells no command. -/
theorem test_no_word : decodeTableWord 8 1 = none := rfl

/-- The state a command leads to. -/
def after (c : Instr) (s : State) : State := match exec c s with
  | .next t => t
  | _ => s

/-- A good frame that writes a word to `HB_HOST` (0x044) writes it there and leaves result 0 (R115, R118, R120). -/
theorem test_host_write :
    let h : List Byte := [0x02, 0, 0x44, 1, 0, 0, 0, 5]
    let t := after (.hostWriteFrame (h ++ [crc8 h]) 72 1000) on
    t.host.hbHost = 5 ∧ t.host.lastResult = 0 := by decide +kernel
/-- The same frame 999 ns after the last has result 4 and no effect (R123). -/
theorem test_host_gap :
    let h : List Byte := [0x02, 0, 0x44, 1, 0, 0, 0, 5]
    let t := after (.hostWriteFrame (h ++ [crc8 h]) 72 999) on
    t.host.hbHost = 0 ∧ t.host.lastResult = 4 := by decide +kernel
/-- `ECHO` answers its payload under its tag with status `OK` (R140, R149). -/
theorem test_echo :
    ((after (.echo (.mb 0)) (having (.mb 0) (jb cEcho [0xA, 0xB]) on)).mb.get 0).outBuf = [0x00000702, 0xA, 0xB] := by
  decide +kernel
/-- A write beyond its range is ignored with reason 3 and counted (R170). -/
theorem test_ignored :
    let t := after (.peelStatsClr 2) on
    t.rd Obj.ignoredWrites = 1 ∧ t.rd Obj.ignRange = 1 ∧ t.rd Obj.ignLastReason = 3 := by decide +kernel
/-- A pad pulse of 15 ns passes a filter of one sample, and a filter of two samples passes no pulse under 5 ns (R521). -/
theorem test_filter : filterTakes true 1 15 false = true ∧ filterTakes true 2 4 true = false := by decide +kernel
/-- A low on a safety input for 1 ms is not taken, one beyond 1.575 ms is (R379, R521). -/
theorem test_safety_filter : safeFilterTakes 1000000 true = false ∧ safeFilterTakes 1575001 false = true := by decide +kernel
/-- `PEEL_TIMEOUT` of region C acts 2 ms after the endpoint's timer started, and raises 0x9801 (R38, R39). -/
theorem test_peel_timeout :
    let t := after (.peelTimeout .c) (on.modPeel .c (fun e => { e with timer := some 3 }))
    t.isPending 0x9801 0 = true ∧ 400003 ≤ t.time.now := by decide +kernel
/-- A gate enable that falls holds a loaf at OFF (R197). -/
theorem test_gen_falls : ((drive.modLoaf 0 (fun l => { l with st := .open_ })).setGen .c false).genN 0 = false := by decide +kernel
/-- A queue gives its front. -/
theorem test_front : step { on with pending := [.resetEnd, .askardStart] } = exec .resetEnd { on with pending := [.askardStart] } := rfl

end Sys2Proof.Tests
end

section
/-! What holds of every step: the rules for single commands, carried to `exec` and `step` (O55). -/

namespace Sys2Proof.Machine

variable {R : State → State → Prop}

/-- The rules for the single commands, brought together along the constructors of `Instr`. -/
theorem exec_frame (h : Frame R) {s : State} : ∀ c : Instr, Lands (R s) (exec c s)
  | .powerOn .. => execPowerOn_frame h
  | .externalReset .. => execExternalReset_frame h
  | .resetEnd => execResetEnd_frame h
  | .swResetRead .. => execSwResetRead_frame h
  | .secureBoot .. => execSecureBoot_frame h
  | .askardStart => execAskardStart_frame h
  | .pllLock => execPllLock_frame h
  | .peelTrainingComplete => execPeelTrainingComplete_frame h
  | .peelTrainTimeout => execPeelTrainTimeout_frame h
  | .configEntry => execConfigEntry_frame h
  | .configImageApplied => execConfigImageApplied_frame h
  | .safetyBindingCheck => execSafetyBindingCheck_frame h
  | .safetyParamReadback .. => execSafetyParamReadback_frame h
  | .refReadySet .. => execRefReadySet_frame h
  | .refSettleTimeout .. => execRefSettleTimeout_frame h
  | .refLost .. => execRefLost_frame h
  | .vinUnder .. => execVinUnder_frame h
  | .vinHoldupEnd .. => execVinHoldupEnd_frame h
  | .supplyMonitorFault .. => execSupplyMonitorFault_frame h
  | .supplyMonitorClear .. => execSupplyMonitorClear_frame h
  | .tempMonitor .. => execTempMonitor_frame h
  | .switchPoll .. => execSwitchPoll_frame h
  | .coverSample .. => execCoverSample_frame h
  | .tapInstructionLoad .. => execTapInstructionLoad_frame h
  | .tapRelock => execTapRelock_frame h
  | .ckCtlLoss => execCkCtlLoss_frame h
  | .ckSafeStop => execCkSafeStop_frame h
  | .ckSafeDeviation .. => execCkSafeDeviation_frame h
  | .ckAdcFault => execCkAdcFault_frame h
  | .ckAdcRecovered => execCkAdcRecovered_frame h
  | .ckMgtDeviation => execCkMgtDeviation_frame h
  | .watchdogExpiry => execWatchdogExpiry_frame h
  | .watchdogReset => execWatchdogReset_frame h
  | .standbyClockFault => execStandbyClockFault_frame h
  | .standbyClockRecovered => execStandbyClockRecovered_frame h
  | .timeCounterReload => execTimeCounterReload_frame h
  | .wakeAlarmCompare => execWakeAlarmCompare_frame h
  | .standbySupplyLoss => execStandbySupplyLoss_frame h
  | .transitionBegin => execTransitionBegin_frame h
  | .hostWriteFrame .. => execHostWriteFrame_frame h
  | .hostReadFrame .. => execHostReadFrame_frame h
  | .dbIn .. => execDbIn_frame h
  | .dbOut .. => execDbOut_frame h
  | .tsCtrl .. => execTsCtrl_frame h
  | .tsLatchComplete => execTsLatchComplete_frame h
  | .hbHost .. => execHbHost_frame h
  | .irqFlags .. => execIrqFlags_frame h
  | .hostCntClr .. => execHostCntClr_frame h
  | .windowRegisterWrite .. => execWindowRegisterWrite_frame h
  | .hbModuleTick .. => execHbModuleTick_frame h
  | .mailboxTake => execMailboxTake_frame h
  | .mb2DeliveryOut => execMb2DeliveryOut_frame h
  | .echo .. => execEcho_frame h
  | .get .. => execGet_frame h
  | .set .. => execSet_frame h
  | .getBlock .. => execGetBlock_frame h
  | .setBlock .. => execSetBlock_frame h
  | .swapBank .. => execSwapBank_frame h
  | .swapBankTimeout .. => execSwapBankTimeout_frame h
  | .loafStateOff .. => execLoafStateOff_frame h
  | .loafStateOpen .. => execLoafStateOpen_frame h
  | .loafStateClosed .. => execLoafStateClosed_frame h
  | .groupStateStart .. => execGroupStateStart_frame h
  | .groupStateStop .. => execGroupStateStop_frame h
  | .move .. => execMove_frame h
  | .faultAck .. => execFaultAck_frame h
  | .faultClear .. => execFaultClear_frame h
  | .calZero .. => execCalZero_frame h
  | .calFull .. => execCalFull_frame h
  | .calComplete .. => execCalComplete_frame h
  | .calTimeout .. => execCalTimeout_frame h
  | .captureArm .. => execCaptureArm_frame h
  | .captureDisarm .. => execCaptureDisarm_frame h
  | .captureTriggerNow .. => execCaptureTriggerNow_frame h
  | .captureRead .. => execCaptureRead_frame h
  | .captureReadTimeout .. => execCaptureReadTimeout_frame h
  | .subscribeStart .. => execSubscribeStart_frame h
  | .subscribeCancel .. => execSubscribeCancel_frame h
  | .sessionOpen .. => execSessionOpen_frame h
  | .sessionAuth .. => execSessionAuth_frame h
  | .sessionClose .. => execSessionClose_frame h
  | .updateBegin .. => execUpdateBegin_frame h
  | .updateChunk .. => execUpdateChunk_frame h
  | .updateCommitFirmware .. => execUpdateCommitFirmware_frame h
  | .updateCommitConfig .. => execUpdateCommitConfig_frame h
  | .safetyLoad .. => execSafetyLoad_frame h
  | .safetyAccept .. => execSafetyAccept_frame h
  | .injectDry .. => execInjectDry_frame h
  | .injectLive .. => execInjectLive_frame h
  | .injHoldExpiry .. => execInjHoldExpiry_frame h
  | .pairHandover .. => execPairHandover_frame h
  | .pairHandoverComplete .. => execPairHandoverComplete_frame h
  | .pairHandoverTimeout .. => execPairHandoverTimeout_frame h
  | .timeStepMeasured .. => execTimeStepMeasured_frame h
  | .timeStepGiven .. => execTimeStepGiven_frame h
  | .moduleReqReady .. => execModuleReqReady_frame h
  | .moduleReqConfig .. => execModuleReqConfig_frame h
  | .moduleReqStandby .. => execModuleReqStandby_frame h
  | .moduleReqReset .. => execModuleReqReset_frame h
  | .peelStatsClr .. => execPeelStatsClr_frame h
  | .ignClr .. => execIgnClr_frame h
  | .cmdCntClr .. => execCmdCntClr_frame h
  | .streamCntClr .. => execStreamCntClr_frame h
  | .pwmCntClr .. => execPwmCntClr_frame h
  | .tripCntClr .. => execTripCntClr_frame h
  | .convCntClr .. => execConvCntClr_frame h
  | .fbCntClr .. => execFbCntClr_frame h
  | .ovenCntClr .. => execOvenCntClr_frame h
  | .protCntClr .. => execProtCntClr_frame h
  | .logClr .. => execLogClr_frame h
  | .injCntClr .. => execInjCntClr_frame h
  | .ethCntClr .. => execEthCntClr_frame h
  | .ppCntClr .. => execPpCntClr_frame h
  | .mlCntClr .. => execMlCntClr_frame h
  | .supplyFlagsClear .. => execSupplyFlagsClear_frame h
  | .satFlagsClear .. => execSatFlagsClear_frame h
  | .idxArm .. => execIdxArm_frame h
  | .idxModeWrite .. => execIdxModeWrite_frame h
  | .fbModeWrite .. => execFbModeWrite_frame h
  | .evtConfigWrite .. => execEvtConfigWrite_frame h
  | .openCmpWrite .. => execOpenCmpWrite_frame h
  | .grpLoavesWrite .. => execGrpLoavesWrite_frame h
  | .tuIncWrite .. => execTuIncWrite_frame h
  | .tuLoad .. => execTuLoad_frame h
  | .hbNet .. => execHbNet_frame h
  | .listTrigWrite .. => execListTrigWrite_frame h
  | .manGo .. => execManGo_frame h
  | .ppAbort .. => execPpAbort_frame h
  | .attestNonce .. => execAttestNonce_frame h
  | .attestationFormed .. => execAttestationFormed_frame h
  | .objectWrite .. => execObjectWrite_frame h
  | .peelTxGrant .. => execPeelTxGrant_frame h
  | .peelAck .. => execPeelAck_frame h
  | .peelNak .. => execPeelNak_frame h
  | .peelTrain .. => execPeelTrain_frame h
  | .peelRetxTimeout .. => execPeelRetxTimeout_frame h
  | .peelRetrain => execPeelRetrain_frame h
  | .peelTimeout .. => execPeelTimeout_frame h
  | .heartbeatSend => execHeartbeatSend_frame h
  | .heartbeat .. => execHeartbeat_frame h
  | .syncSend => execSyncSend_frame h
  | .sync .. => execSync_frame h
  | .event .. => execEvent_frame h
  | .peelRecord .. => execPeelRecord_frame h
  | .peelCapture .. => execPeelCapture_frame h
  | .objWr .. => execObjWr_frame h
  | .objRd .. => execObjRd_frame h
  | .cmd .. => execCmd_frame h
  | .objRsp .. => execObjRsp_frame h
  | .cmdRsp .. => execCmdRsp_frame h
  | .faultPacketEvent .. => execFaultPacketEvent_frame h
  | .faultPacketReport .. => execFaultPacketReport_frame h
  | .faultPacketAck .. => execFaultPacketAck_frame h
  | .faultPacketClear .. => execFaultPacketClear_frame h
  | .faultPacketInject .. => execFaultPacketInject_frame h
  | .haltNotification .. => execHaltNotification_frame h
  | .debugHalt .. => execDebugHalt_frame h
  | .faultLatch .. => execFaultLatch_frame h
  | .graceExpiry .. => execGraceExpiry_frame h
  | .nvLogWrite => execNvLogWrite_frame h
  | .auditLogWrite => execAuditLogWrite_frame h
  | .hostHbTimeout => execHostHbTimeout_frame h
  | .beatToggle .. => execBeatToggle_frame h
  | .counterStart .. => execCounterStart_frame h
  | .epochStartTick .. => execEpochStartTick_frame h
  | .periodStart .. => execPeriodStart_frame h
  | .pwmPeak .. => execPwmPeak_frame h
  | .frameBoundary .. => execFrameBoundary_frame h
  | .frameClose .. => execFrameClose_frame h
  | .loafFrameCompute .. => execLoafFrameCompute_frame h
  | .tripLatch .. => execTripLatch_frame h
  | .tripCycleGap .. => execTripCycleGap_frame h
  | .tripFilterDeassert .. => execTripFilterDeassert_frame h
  | .readbackMismatch .. => execReadbackMismatch_frame h
  | .sampleResult .. => execSampleResult_frame h
  | .injectedSeqStart .. => execInjectedSeqStart_frame h
  | .pairBurstStart .. => execPairBurstStart_frame h
  | .sliceExclude .. => execSliceExclude_frame h
  | .mismatchConverged .. => execMismatchConverged_frame h
  | .plausCompare .. => execPlausCompare_frame h
  | .openWireDetect .. => execOpenWireDetect_frame h
  | .auxWindow .. => execAuxWindow_frame h
  | .captureComplete .. => execCaptureComplete_frame h
  | .fbEdge .. => execFbEdge_frame h
  | .indexEvent .. => execIndexEvent_frame h
  | .hallInvalid .. => execHallInvalid_frame h
  | .standstill .. => execStandstill_frame h
  | .serialTransferStart .. => execSerialTransferStart_frame h
  | .serialTransferEnd .. => execSerialTransferEnd_frame h
  | .starterAlignEnd .. => execStarterAlignEnd_frame h
  | .starterTimeout .. => execStarterTimeout_frame h
  | .stallDetect .. => execStallDetect_frame h
  | .stallHoldExpiry .. => execStallHoldExpiry_frame h
  | .sbcDelayExpiry .. => execSbcDelayExpiry_frame h
  | .stopTimeout .. => execStopTimeout_frame h
  | .spdInvalidTimeout .. => execSpdInvalidTimeout_frame h
  | .safetyInputChange .. => execSafetyInputChange_frame h
  | .inputStageTest .. => execInputStageTest_frame h
  | .testPulseMissing .. => execTestPulseMissing_frame h
  | .stoDiscrepancy .. => execStoDiscrepancy_frame h
  | .guardDiscrepancy .. => execGuardDiscrepancy_frame h
  | .channelDiscrepancy .. => execChannelDiscrepancy_frame h
  | .enableReadbackMismatch .. => execEnableReadbackMismatch_frame h
  | .ss1TimerExpiry .. => execSs1TimerExpiry_frame h
  | .sbcStoLagExpiry .. => execSbcStoLagExpiry_frame h
  | .ss1BrakeExpiry .. => execSs1BrakeExpiry_frame h
  | .brakeTest .. => execBrakeTest_frame h
  | .brakeMismatch .. => execBrakeMismatch_frame h
  | .ethFrameRx .. => execEthFrameRx_frame h
  | .ethFrameTx .. => execEthFrameTx_frame h
  | .addressAging .. => execAddressAging_frame h
  | .phyPoll .. => execPhyPoll_frame h
  | .arpRx .. => execArpRx_frame h
  | .icmpEcho .. => execIcmpEcho_frame h
  | .tcpConnect .. => execTcpConnect_frame h
  | .tlsHandshakeComplete .. => execTlsHandshakeComplete_frame h
  | .tlsHandshakeTimeout .. => execTlsHandshakeTimeout_frame h
  | .netCommand .. => execNetCommand_frame h
  | .connectionClose .. => execConnectionClose_frame h
  | .netIdleTimeout .. => execNetIdleTimeout_frame h
  | .deliveryClose .. => execDeliveryClose_frame h
  | .objectSampleTick .. => execObjectSampleTick_frame h
  | .ptpSync .. => execPtpSync_frame h
  | .ptpFollowUp .. => execPtpFollowUp_frame h
  | .ptpDelayReqSend .. => execPtpDelayReqSend_frame h
  | .ptpDelayResp .. => execPtpDelayResp_frame h
  | .ptpAnnounce .. => execPtpAnnounce_frame h
  | .ptpAnnounceTimeout => execPtpAnnounceTimeout_frame h
  | .pdelayReqSend .. => execPdelayReqSend_frame h
  | .pdelayReq .. => execPdelayReq_frame h
  | .pdelayResp .. => execPdelayResp_frame h
  | .leavenOffset .. => execLeavenOffset_frame h
  | .ppsRise => execPpsRise_frame h
  | .ppsFall => execPpsFall_frame h
  | .eventTimestamp .. => execEventTimestamp_frame h
  | .ppTransferStart => execPpTransferStart_frame h
  | .pgpSelectDriven => execPgpSelectDriven_frame h
  | .prdyReady => execPrdyReady_frame h
  | .prdyTimeout => execPrdyTimeout_frame h
  | .ppTransferEnd .. => execPpTransferEnd_frame h
  | .listTrigger .. => execListTrigger_frame h
  | .mirrorState .. => execMirrorState_frame h
  | .mirrorHello .. => execMirrorHello_frame h
  | .mirrorRelease .. => execMirrorRelease_frame h
  | .mirrorRepeat .. => execMirrorRepeat_frame h
  | .mirrorFramesLost .. => execMirrorFramesLost_frame h
  | .mirrorRetrain => execMirrorRetrain_frame h
  | .mlPresTimeout => execMlPresTimeout_frame h
  | .rolePartnerChange .. => execRolePartnerChange_frame h
  | .roleActGrant .. => execRoleActGrant_frame h
  | .prBWaitExpiry => execPrBWaitExpiry_frame h
  | .pairClockOffset .. => execPairClockOffset_frame h
  | .sessionIdleTimeout => execSessionIdleTimeout_frame h
  | .lockoutExpiry .. => execLockoutExpiry_frame h
  | .arpCacheAging .. => execArpCacheAging_frame h
  | .sideAPartnerHigh2us .. => execSideAPartnerHigh2us_frame h
  | .tapDataScan .. => execTapDataScan_frame h
  | .debugMemoryAccess .. => execDebugMemoryAccess_frame h
  | .haltEnd => execHaltEnd_frame h

/-- A step that takes no command changes nothing; any other starts from the state without the front of its queue. -/
theorem step_frame (h : Frame R) (s : State) : Lands (R { s with pending := s.pending.tail }) (step s) := by
  unfold step
  cases hp : s.pending with
  | nil =>
    have idle : { s with pending := [] } = s := by rw [← hp]
    exact lands_next (idle.symm ▸ h.refl s)
  | cons c rest => exact exec_frame h c

/-- The canonical form of the object store survives every elementary update. -/
theorem storeSound_frame : Frame (fun s t => StoreSound s → StoreSound t) where
  refl _ := id
  trans hst htu := htu ∘ hst
  wr _ a v := Store.set_wf a v
  keep _ := Store.keep_wf
  other hobjs _ _ _ _ hs := by unfold StoreSound; rwa [hobjs]

end Sys2Proof.Machine

namespace Sys2Proof

open Sys2Proof.Machine

/-- Settles O55: every command is made of updates that keep the store's form, and the queue is no part of the store. -/
theorem storeStaysSound : Obligations.StoreStaysSound := by
  intro s t hs hstep
  have hl := step_frame storeSound_frame s
  rw [hstep] at hl
  exact hl hs

end Sys2Proof
end

section
/-! The machine after reset (R8, R87, R89, R90; O57). -/

namespace Sys2Proof

open Sys2Proof.Machine

@[simp] theorem Quad.get_all {α : Type} (a : α) (n : Fin 4) : (Quad.all a).get n = a := by
  match n with
  | 0 => rfl
  | 1 => rfl
  | 2 => rfl
  | 3 => rfl

theorem reset_storeSound : StoreSound State.reset := by
  unfold StoreSound
  decide

theorem reset_rd_default {a : Nat} (hcause : a ≠ Obj.resetCause) (hcount : a ≠ Obj.resetCount) (hms : a ≠ Obj.bootMs) :
    State.reset.rd a = storeDefault a := by
  have hnone : State.reset.objs.find? (fun p => p.1 == a) = none := by
    show List.find? _ [(Obj.resetCause, 1), (Obj.resetCount, 1), (Obj.bootMs, 0xFFFF)] = none
    simp [hcause.symm, hcount.symm, hms.symm]
  unfold State.rd Store.get
  rw [hnone]

theorem reset_units (n : Fin 4) : (State.reset.loaf.get n).st = .off ∧ (State.reset.grp.get n).st = .stopped
    ∧ State.reset.mb.get n = {} := by
  simp [State.reset]

/-- Settles O57: the reset state's store holds the three named objects only, and no unit is on. -/
theorem resetState : Obligations.ResetState :=
  ⟨reset_storeSound, rfl, rfl, allOff_of_gen rfl, rfl, rfl, rfl, fun _ => reset_rd_default, rfl, rfl, rfl, rfl, rfl, rfl, reset_units⟩

end Sys2Proof
end

section
/-! The store's canonical form is unique: equal readings are equal data, so that a value written and written back leaves no trace
(O56). -/

namespace Sys2Proof.Machine

/-- In a canonical store the entries are the keys that do not read as their default, with what they read. -/
theorem Store.mem_iff_get {m : Store} (h : m.wf = true) (p : Nat × Int) :
    p ∈ m ↔ m.get p.1 = p.2 ∧ p.2 ≠ storeDefault p.1 := by
  unfold Store.wf at h
  rw [Bool.and_eq_true, Store.rising_iff, List.all_eq_true] at h
  obtain ⟨hrise, hnon⟩ := h
  have hkeys : (m.map Prod.fst).Nodup := List.pairwise_map.mpr (hrise.imp Nat.ne_of_lt)
  unfold Store.get
  cases hf : m.find? (fun q => q.1 == p.1) with
  | none =>
    have hno : p ∉ m := fun hp => by simpa using List.find?_eq_none.mp hf p hp
    exact iff_of_false hno (fun hc => hc.2 hc.1.symm)
  | some q =>
    have hq := List.mem_of_find?_eq_some hf
    have hk : q.1 = p.1 := by simpa using List.find?_some hf
    constructor
    · intro hp
      exact ⟨congrArg Prod.snd (List.inj_on_of_nodup_map hkeys hq hp hk), by simpa using hnon p hp⟩
    · rintro ⟨hv, -⟩
      rwa [← Prod.ext hk hv]

/-- Canonical stores that read alike are the same. -/
theorem Store.eq_of_get {m n : Store} (hm : m.wf = true) (hn : n.wf = true) (h : ∀ a, m.get a = n.get a) : m = n := by
  have hmem : ∀ p, p ∈ m ↔ p ∈ n := fun p => by rw [Store.mem_iff_get hm, Store.mem_iff_get hn, h]
  unfold Store.wf at hm hn
  rw [Bool.and_eq_true, Store.rising_iff] at hm hn
  have nodup : ∀ {l : Store}, l.Pairwise (fun p q => p.1 < q.1) → l.Nodup := fun hl =>
    hl.imp (fun hpq e => Nat.ne_of_lt hpq (congrArg Prod.fst e))
  have hperm := (List.perm_ext_iff_of_nodup (nodup hm.1) (nodup hn.1)).mpr hmem
  exact hperm.eq_of_pairwise (fun _ _ _ _ hpq hqp => (Nat.lt_asymm hpq hqp).elim) hm.1 hn.1

/-- A value written over, and the old one written back, leave the store as it was. -/
theorem Store.set_restore {m : Store} (hm : m.wf = true) (a : Nat) (v : Int) : (m.set a v).set a (m.get a) = m := by
  refine Store.eq_of_get (Store.set_wf _ _ (Store.set_wf _ _ hm)) hm (fun b => ?_)
  by_cases hb : b = a
  · rw [hb, Store.get_set_same]
  · rw [Store.get_set_ne _ _ hb, Store.get_set_ne _ _ hb]

end Sys2Proof.Machine

namespace Sys2Proof

open Sys2Proof.Machine

/-- Settles O56: the reads are the store's, and the value written back gives the store its canonical form again, which is the same. -/
theorem objectsReadBack : Obligations.ObjectsReadBack := fun a _ v s hs =>
  ⟨s.rd_wr_same a v, fun hb => s.rd_wr_ne v hb, Store.set_wf a v hs, Store.set_restore hs a v⟩

end Sys2Proof
end

section
/-! The link level of reception (R30, R35, R38): what becomes of a packet by its length, its CRC and its place in the sequence, and
what of the state an accepted one changes (O29). -/

namespace Sys2Proof.Machine

open Sys2Proof

/-! ## Endpoints -/

@[simp] theorem State.peel_modPeel_same (s : State) (r : Region) (f : PeelEnd → PeelEnd) : (s.modPeel r f).peel r = f (s.peel r) := by
  cases r <;> rfl
@[simp] theorem State.peel_modPeel_otherEnd (s : State) (r : Region) (f : PeelEnd → PeelEnd) :
    (s.modPeel (otherEnd r) f).peel r = s.peel r := by cases r <;> rfl
@[simp] theorem State.modPeel_objs (s : State) (r : Region) (f : PeelEnd → PeelEnd) : (s.modPeel r f).objs = s.objs := by cases r <;> rfl
@[simp] theorem State.modPeel_time (s : State) (r : Region) (f : PeelEnd → PeelEnd) : (s.modPeel r f).time = s.time := by cases r <;> rfl
@[simp] theorem State.modPeel_rd (s : State) (r : Region) (f : PeelEnd → PeelEnd) (a : Nat) : (s.modPeel r f).rd a = s.rd a :=
  State.rd_congr (s.modPeel_objs r f) a
@[simp] theorem State.wr_peel (s : State) (a : Nat) (v : Int) (r : Region) : (s.wr a v).peel r = s.peel r := by cases r <;> rfl
@[simp] theorem State.bumpOpen_peel (s : State) (a : Nat) (r : Region) : (s.bumpOpen a).peel r = s.peel r := by
  unfold State.bumpOpen
  split <;> exact s.wr_peel a _ r
/-- Two endpoint updates in turn are one. -/
theorem State.modPeel_modPeel (s : State) (r : Region) (f g : PeelEnd → PeelEnd) :
    (s.modPeel r f).modPeel r g = s.modPeel r (fun e => g (f e)) := by cases r <;> rfl
/-- An endpoint put back restores the state. -/
theorem State.modPeel_restore (s : State) (r : Region) (f : PeelEnd → PeelEnd) :
    { s.modPeel r f with peelC := s.peelC, peelM := s.peelM } = s := by cases r <;> rfl
/-- A counter counts in its own object alone. -/
theorem State.bumpOpen_only (s : State) (a : Nat) : ∃ v, s.bumpOpen a = s.wr a v := by
  unfold State.bumpOpen
  split <;> exact ⟨_, rfl⟩
/-- A counter below its top counts one more. -/
theorem State.rd_bumpOpen_same (s : State) {a : Nat} (h : s.rd a < 0xFFFFFFFF) : (s.bumpOpen a).rd a = s.rd a + 1 := by
  unfold State.bumpOpen
  rw [if_pos h, State.rd_wr_same]
theorem State.rd_bumpOpen_ne (s : State) {a b : Nat} (h : b ≠ a) : (s.bumpOpen a).rd b = s.rd b := by
  unfold State.bumpOpen
  split <;> exact State.rd_wr_ne s _ h

/-! ## What becomes of a packet -/

/-- The counter of a region's CRC errors. -/
def crcCounter : Region → Nat
  | .c => Obj.peelCrcC
  | .m => Obj.peelCrcM

/-- Before training, at a region that is down, or with more than 64 bytes a packet is not seen. -/
theorem State.peelRx_unseen {r : Region} {k : PktKind} {p : Packet} {s : State}
    (h : s.boot.peelTrained = false ∨ s.endUp r = false ∨ 64 < p.payload.length) : s.peelRx r k p = (false, s) := by
  unfold State.peelRx
  refine if_pos ?_
  rcases h with h | h | h <;> simp [h]

/-- A packet that reaches a trained, working region and is short enough. -/
def Seen (r : Region) (p : Packet) (s : State) : Prop :=
  s.boot.peelTrained = true ∧ s.endUp r = true ∧ p.payload.length ≤ 64

theorem Seen.gate {r : Region} {p : Packet} {s : State} (h : Seen r p s) :
    ¬ (!s.boot.peelTrained || !s.endUp r || decide (64 < p.payload.length)) = true := by
  obtain ⟨htrained, hup, hlen⟩ := h
  simp [htrained, hup, hlen]

/-- One whose CRC fails is counted, and a `NAK` becomes due. -/
theorem State.peelRx_badCrc {r : Region} {k : PktKind} {p : Packet} {s : State} (h : Seen r p s) (hcrc : p.crc ≠ crc16 (pktBody p)) :
    s.peelRx r k p = (false, (s.bumpOpen (crcCounter r)).modPeel r (fun e => { e with nakDue := true })) := by
  unfold State.peelRx
  rw [if_neg h.gate, if_pos hcrc]
  cases r <;> rfl

/-- The window and the timer of an endpoint that hears a good packet (R35, R38). -/
def PeelEnd.hears (r : Region) (now : Nat) (p : Packet) (e : PeelEnd) : PeelEnd :=
  match r with
  | .c => e.ack now p.ackseq
  | .m => { e.ack now p.ackseq with timedOut := false, timer := e.timer.map (fun _ => now) }

/-- An endpoint that accepts a packet: a sequenced one is the number awaited, and is acknowledged. -/
def PeelEnd.accepts (r : Region) (now : Nat) (p : Packet) (e : PeelEnd) : PeelEnd :=
  if pktSequenced p then { e.hears r now p with expect := (e.expect + 1) % 256, ackDue := true } else e.hears r now p

/-- A sequenced packet that is not the next one is dropped with an acknowledgement due. -/
theorem State.peelRx_outOfSequence {r : Region} {k : PktKind} {p : Packet} {s : State} (h : Seen r p s) (hcrc : p.crc = crc16 (pktBody p))
    (hk : p.clsTyp = k.head) (hseq : pktSequenced p = true) (hne : p.seq.toNat ≠ (s.peel r).expect) :
    s.peelRx r k p = (false, s.modPeel r (fun e => { e.hears r s.time.now p with ackDue := true })) := by
  unfold State.peelRx
  rw [if_neg h.gate, if_neg (not_not_intro hcrc), if_neg (not_not_intro hk)]
  dsimp only
  rw [hseq, Bool.not_true, if_neg Bool.false_ne_true, if_neg hne, State.modPeel_modPeel]
  cases r <;> rfl

/-- An accepted packet changes its endpoint, then the account of CTL latencies. -/
theorem State.linked_arrives {r : Region} {k : PktKind} {p : Packet} {s : State} (h : Arrives r k p s) :
    s.linked r k p = (s.modPeel r (PeelEnd.accepts r s.time.now p)).ctlLatency r p := by
  obtain ⟨htrained, hup, hlen, hcrc, hk, hseq⟩ := h
  have hgate := Seen.gate (show Seen r p s from ⟨htrained, hup, hlen⟩)
  unfold State.linked State.peelRx
  rw [if_neg hgate, if_neg (not_not_intro hcrc), if_neg (not_not_intro hk)]
  dsimp only
  cases hs : pktSequenced p with
  | false =>
    have haccepts : PeelEnd.accepts r s.time.now p = PeelEnd.hears r s.time.now p :=
      funext (fun e => if_neg (by rw [hs]; exact Bool.false_ne_true))
    rw [haccepts, if_pos (by rfl)]
    cases r <;> rfl
  | true =>
    have haccepts : PeelEnd.accepts r s.time.now p = fun e => { e.hears r s.time.now p with expect := (e.expect + 1) % 256, ackDue := true } :=
      funext (fun e => if_pos hs)
    rw [haccepts, if_neg (by decide), if_pos (hseq hs), State.modPeel_modPeel]
    cases r <;> rfl

/-- The account of CTL latencies is kept at the other end, and shown by one object. -/
theorem State.ctlLatency_only (r : Region) (p : Packet) (s : State) :
    ∃ (l : PeelEnd → List (Nat × Nat)) (o : Store),
      s.ctlLatency r p = { s.modPeel (otherEnd r) (fun e => { e with ctlT := l e }) with objs := o }
      ∧ ∀ a ∉ [Obj.peelCtlLatMax], o.get a = s.objs.get a := by
  have hsame : s = { s.modPeel (otherEnd r) (fun e => { e with ctlT := e.ctlT }) with objs := s.objs } := by cases r <;> rfl
  have hobjs := fun (f : PeelEnd → PeelEnd) => s.modPeel_objs (otherEnd r) f
  unfold State.ctlLatency
  split
  · exact ⟨fun e => e.ctlT, s.objs, hsame, fun _ _ => rfl⟩
  · split
    · exact ⟨fun e => e.ctlT, s.objs, hsame, fun _ _ => rfl⟩
    · extract_lets s1 lat
      split
      · refine ⟨fun e => e.ctlT.filter (fun y => y.1 != ctlKey p), s1.objs.set Obj.peelCtlLatMax lat, rfl, fun a ha => ?_⟩
        rw [Store.get_set_ne _ _ (List.ne_of_not_mem_cons ha), hobjs]
      · exact ⟨fun e => e.ctlT.filter (fun y => y.1 != ctlKey p), s1.objs, rfl, fun a _ => by rw [hobjs]⟩

/-- All that an accepted packet changes: its endpoint, and the account of CTL latencies. -/
theorem State.linked_only {r : Region} {k : PktKind} {p : Packet} {s : State} (h : Arrives r k p s) :
    ∃ (l : PeelEnd → List (Nat × Nat)) (o : Store),
      s.linked r k p = { (s.modPeel r (PeelEnd.accepts r s.time.now p)).modPeel (otherEnd r) (fun e => { e with ctlT := l e }) with objs := o }
      ∧ ∀ a ∉ [Obj.peelCtlLatMax], o.get a = s.objs.get a := by
  obtain ⟨l, o, hl, ho⟩ := (s.modPeel r (PeelEnd.accepts r s.time.now p)).ctlLatency_only r p
  refine ⟨l, o, (State.linked_arrives h).trans hl, fun a ha => ?_⟩
  rw [ho a ha, State.modPeel_objs]

/-- The endpoint of an accepted packet. -/
theorem State.linked_peel {r : Region} {k : PktKind} {p : Packet} {s : State} (h : Arrives r k p s) :
    (s.linked r k p).peel r = (s.peel r).accepts r s.time.now p := by
  obtain ⟨l, o, hl, -⟩ := State.linked_only h
  rw [hl]
  cases r <;> rfl

theorem State.linked_objsKept {r : Region} {k : PktKind} {p : Packet} {s : State} (h : Arrives r k p s) :
    ObjsKept [Obj.peelCtlLatMax] s (s.linked r k p) := by
  obtain ⟨l, o, hl, ho⟩ := State.linked_only h
  intro a ha
  rw [hl]
  exact ho a ha

/-- Nothing but endpoints and objects changes at the link level. -/
theorem State.linked_rest {r : Region} {k : PktKind} {p : Packet} {s : State} (h : Arrives r k p s) :
    { s.linked r k p with peelC := s.peelC, peelM := s.peelM, objs := s.objs } = s := by
  obtain ⟨l, o, hl, -⟩ := State.linked_only h
  rw [hl]
  cases r <;> rfl

theorem State.linked_time {r : Region} {k : PktKind} {p : Packet} {s : State} (h : Arrives r k p s) : (s.linked r k p).time = s.time :=
  (congrArg State.time (State.linked_rest h) :)
/-- The other endpoint keeps its timer and its queues. -/
theorem State.linked_otherEnd {r : Region} {k : PktKind} {p : Packet} {s : State} (h : Arrives r k p s) :
    ∃ l, (s.linked r k p).peel (otherEnd r) = { s.peel (otherEnd r) with ctlT := l } := by
  obtain ⟨l, o, hl, -⟩ := State.linked_only h
  rw [hl]
  cases r <;> exact ⟨_, rfl⟩

/-! ## An accepting endpoint -/

theorem PeelEnd.accepts_unacked (r : Region) (now : Nat) (p : Packet) (e : PeelEnd) :
    (e.accepts r now p).unacked = e.unacked.drop (ackedBy e p.ackseq) := by
  unfold PeelEnd.accepts
  split <;> (cases r <;> rfl)
theorem PeelEnd.accepts_expect (r : Region) (now : Nat) (p : Packet) (e : PeelEnd) :
    (e.accepts r now p).expect = if pktSequenced p then (e.expect + 1) % 256 else e.expect := by
  unfold PeelEnd.accepts
  split <;> (cases r <;> rfl)
theorem PeelEnd.accepts_ackDue (r : Region) (now : Nat) (p : Packet) (e : PeelEnd) :
    (e.accepts r now p).ackDue = (pktSequenced p || e.ackDue) := by
  unfold PeelEnd.accepts
  cases pktSequenced p <;> (cases r <;> rfl)
theorem PeelEnd.accepts_queues (r : Region) (now : Nat) (p : Packet) (e : PeelEnd) :
    (e.accepts r now p).nakDue = e.nakDue ∧ (e.accepts r now p).waiting = e.waiting := by
  unfold PeelEnd.accepts
  split <;> (cases r <;> exact ⟨rfl, rfl⟩)
theorem PeelEnd.accepts_timer_m (now : Nat) (p : Packet) (e : PeelEnd) :
    (e.accepts .m now p).timedOut = false ∧ (e.accepts .m now p).timer = e.timer.map (fun _ => now) := by
  unfold PeelEnd.accepts
  split <;> exact ⟨rfl, rfl⟩
theorem PeelEnd.accepts_timer_c (now : Nat) (p : Packet) (e : PeelEnd) :
    (e.accepts .c now p).timedOut = e.timedOut ∧ (e.accepts .c now p).timer = e.timer := by
  unfold PeelEnd.accepts
  split <;> exact ⟨rfl, rfl⟩

/-! ## The effect of a packet that is not accepted -/

/-- A packet that is not accepted has no effect of its own. -/
theorem State.peelTake_rejected {r : Region} {k : PktKind} {p : Packet} {s t : State} (f : State → State)
    (h : s.peelRx r k p = (false, t)) : s.peelTake r k p f = t := by
  unfold State.peelTake
  rw [h]
  exact if_neg Bool.false_ne_true

/-- A command that only lets a region take a packet. -/
def Takes (c : Instr) (r : Region) (p : Packet) : Prop :=
  ∃ k, ∀ s : State, ∃ f, exec c s = .next (s.peelTake r k p f)

theorem Takes.unseen {c : Instr} {r : Region} {p : Packet} (hc : Takes c r p) {s : State}
    (h : s.boot.peelTrained = false ∨ s.endUp r = false ∨ 64 < p.payload.length) : exec c s = .next s := by
  obtain ⟨k, hk⟩ := hc
  obtain ⟨f, hf⟩ := hk s
  rw [hf, State.peelTake_rejected f (State.peelRx_unseen h)]

theorem Takes.badCrc {c : Instr} {r : Region} {p : Packet} (hc : Takes c r p) {s : State} (h : Seen r p s)
    (hcrc : p.crc ≠ crc16 (pktBody p)) :
    exec c s = .next ((s.bumpOpen (crcCounter r)).modPeel r (fun e => { e with nakDue := true })) := by
  obtain ⟨k, hk⟩ := hc
  obtain ⟨f, hf⟩ := hk s
  rw [hf, State.peelTake_rejected f (State.peelRx_badCrc h hcrc)]

/-- The packets outside the sequence, and those each region takes. -/
theorem takes_link (r : Region) (p : Packet) : ∀ c ∈ [Instr.peelAck r p, .peelNak r p, .peelTrain r p], Takes c r p := by
  simp only [List.forall_mem_cons]
  exact ⟨⟨.ack, fun _ => ⟨_, rfl⟩⟩, ⟨.nak, fun _ => ⟨_, rfl⟩⟩, ⟨.train, fun _ => ⟨_, rfl⟩⟩, by simp⟩
theorem takes_m (p : Packet) :
    ∀ c ∈ [Instr.event p, .peelRecord p, .peelCapture p, .objRsp p, .cmdRsp p, .faultPacketEvent p], Takes c .m p := by
  simp only [List.forall_mem_cons]
  exact ⟨⟨.event, fun _ => ⟨_, rfl⟩⟩, ⟨.record, fun _ => ⟨_, rfl⟩⟩, ⟨.capture, fun _ => ⟨_, rfl⟩⟩, ⟨.objRsp, fun _ => ⟨_, rfl⟩⟩,
    ⟨.cmdRsp, fun _ => ⟨_, rfl⟩⟩, ⟨.fault, fun _ => ⟨_, rfl⟩⟩, by simp⟩
theorem takes_c (p : Packet) : ∀ c ∈ [Instr.objWr p, .objRd p, .cmd p], Takes c .c p := by
  simp only [List.forall_mem_cons]
  exact ⟨⟨.objWr, fun _ => ⟨_, rfl⟩⟩, ⟨.objRd, fun _ => ⟨_, rfl⟩⟩, ⟨.cmd, fun _ => ⟨_, rfl⟩⟩, by simp⟩

end Sys2Proof.Machine

namespace Sys2Proof

open Sys2Proof.Machine

/-- Settles O29: the fate of a packet decides (`peelRx`), and an accepted one changes its endpoint alone. -/
theorem packetsReceived : Obligations.PacketsReceived := by
  refine ⟨?_, ?_, ?_, ?_, ?_, ?_, ?_, ?_, ?_, ?_, ?_⟩
  · intro r k p s h
    rw [State.linked_peel h]
    refine ⟨PeelEnd.accepts_unacked .., PeelEnd.accepts_expect .., PeelEnd.accepts_ackDue .., (PeelEnd.accepts_queues ..).1,
      (PeelEnd.accepts_queues ..).2, ?_, ?_, State.linked_objsKept h, State.linked_rest h⟩
    · rintro rfl
      have hm : (s.linked .m k p).peelM = _ := State.linked_peel h
      rw [hm]
      exact PeelEnd.accepts_timer_m ..
    · rintro rfl
      have hc : (s.linked .c k p).peelC = _ := State.linked_peel h
      rw [hc]
      exact PeelEnd.accepts_timer_c ..
  · intro r k p s htrained hup hlen hcrc hk hseq hne
    have h := State.peelRx_outOfSequence ⟨htrained, hup, hlen⟩ hcrc hk hseq hne
    unfold State.linked
    rw [h]
    refine ⟨rfl, ?_, ?_, State.modPeel_restore ..⟩
    · rw [State.peel_modPeel_same]
    · rw [State.peel_modPeel_same]
      cases r <;> rfl
  · exact fun r p s h => congrArg _ (State.peelTake_arrives _ h)
  · exact fun r p s h => congrArg _ (State.peelTake_arrives _ h)
  · exact fun p s h => congrArg _ (State.peelTake_arrives _ h)
  · exact fun p s h => ⟨_, congrArg Host.Outcome.next (State.peelTake_arrives State.settle h), State.settle_quiet _⟩
  · exact fun r p s h c hc => (takes_link r p c hc).unseen h
  · exact fun p s h c hc => (takes_m p c hc).unseen h
  · exact fun p s h c hc => (takes_c p c hc).unseen h
  · intro p s htrained hup hlen hcrc c hc
    have hT : Takes c .c p := (List.mem_append.mp (show c ∈ [Instr.peelAck .c p, .peelNak .c p, .peelTrain .c p]
      ++ [Instr.objWr p, .objRd p, .cmd p] from hc)).elim (takes_link .c p c) (takes_c p c)
    exact hT.badCrc ⟨htrained, hup, hlen⟩ hcrc
  · intro p s htrained hup hlen hcrc c hc
    have hT : Takes c .m p := (List.mem_append.mp (show c ∈ [Instr.peelAck .m p, .peelNak .m p, .peelTrain .m p]
      ++ [Instr.event p, .peelRecord p, .peelCapture p, .objRsp p, .cmdRsp p, .faultPacketEvent p] from hc)).elim
      (takes_link .m p c) (takes_m p c)
    exact hT.badCrc ⟨htrained, hup, hlen⟩ hcrc

end Sys2Proof
end

section
/-! Reports of region M on their way (R365): nothing the collector does, and nothing that follows from an event, takes one back. A fall
of an enable (R197) switches no enable by itself. -/

namespace Sys2Proof.Machine

open Sys2Proof

/-! ## What does without the collector and the safety functions -/

/-- The collector and the safety functions of a state. -/
def State.fltSafety (s : State) : FaultSt × SafetySt := (s.flt, s.safety)

theorem forAll_fltSafety {α : Type} {f : α → State → State} (hf : ∀ a x, (f a x).fltSafety = x.fltSafety) (l : List α) (s : State) :
    (forAll l f s).fltSafety = s.fltSafety := by
  unfold forAll
  induction l generalizing s with
  | nil => rfl
  | cons a l ih => exact (ih (f a s)).trans (hf a s)

@[simp] theorem State.modLoaf_fltSafety (s : State) (n : Fin 4) (f : LoafSt → LoafSt) : (s.modLoaf n f).fltSafety = s.fltSafety := rfl
@[simp] theorem State.modGrp_fltSafety (s : State) (g : Fin 4) (f : GroupSt → GroupSt) : (s.modGrp g f).fltSafety = s.fltSafety := rfl
@[simp] theorem State.modFb_fltSafety (s : State) (c : Fin 4) (f : FbSt → FbSt) : (s.modFb c f).fltSafety = s.fltSafety := rfl
@[simp] theorem State.modOven_fltSafety (s : State) (n : Fin 4) (f : OvenSt → OvenSt) : (s.modOven n f).fltSafety = s.fltSafety := rfl
@[simp] theorem State.modBoot_fltSafety (s : State) (f : BootSt → BootSt) : (s.modBoot f).fltSafety = s.fltSafety := rfl
@[simp] theorem State.modPp_fltSafety (s : State) (f : PpSt → PpSt) : (s.modPp f).fltSafety = s.fltSafety := rfl
@[simp] theorem State.wr_fltSafety (s : State) (a : Nat) (v : Int) : (s.wr a v).fltSafety = s.fltSafety := rfl

@[simp] theorem State.bump_fltSafety (s : State) (a : Nat) : (s.bump a).fltSafety = s.fltSafety := by
  unfold State.bump State.bumpTo
  split <;> rfl
@[simp] theorem State.clear_fltSafety (s : State) (l : List Nat) : (s.clear l).fltSafety = s.fltSafety := by
  unfold State.clear
  exact forAll_fltSafety (f := fun a x => x.wr a 0) (fun _ _ => rfl) l s

@[simp] theorem State.occur_fltSafety (n : Fin 4) (src k : Nat) (s : State) : (s.occur n src k).fltSafety = s.fltSafety := by
  unfold State.occur
  split
  · rfl
  · exact forAll_fltSafety (fun x y => by dsimp only; split <;> rfl) _ s
@[simp] theorem State.phaseEdges_fltSafety (n : Fin 4) (p g e : Nat) (s : State) : (s.phaseEdges n p g e).fltSafety = s.fltSafety := by
  unfold State.phaseEdges
  split
  · rfl
  · simp only [State.modLoaf_fltSafety, State.occur_fltSafety]
@[simp] theorem State.pwmTo_fltSafety (n : Fin 4) (s : State) : (s.pwmTo n).fltSafety = s.fltSafety := by
  unfold State.pwmTo
  extract_lets l
  split
  · rfl
  · refine (State.modLoaf_fltSafety _ n _).trans ?_
    show (ite (l.running = true) _ s).fltSafety = _
    split
    · exact forAll_fltSafety (fun p x => State.phaseEdges_fltSafety n p _ _ x) _ s
    · rfl
@[simp] theorem State.loafTo_fltSafety (n : Fin 4) (st : LoafState) (s : State) : (s.loafTo n st).fltSafety = s.fltSafety := by
  unfold State.loafTo
  split <;> simp only [State.modLoaf_fltSafety, State.pwmTo_fltSafety]
@[simp] theorem State.isoMark_fltSafety (g : Fin 4) (s : State) : (s.isoMark g).fltSafety = s.fltSafety := by
  unfold State.isoMark
  split <;> rfl
@[simp] theorem State.isoUndo_fltSafety (n : Fin 4) (s : State) : (s.isoUndo n).fltSafety = s.fltSafety := by
  unfold State.isoUndo
  split
  · rfl
  · dsimp only
    split <;> rfl
@[simp] theorem State.loafSafe_fltSafety (l : List (Fin 4)) (n : Fin 4) (s : State) : (s.loafSafe l n).fltSafety = s.fltSafety := by
  unfold State.loafSafe
  dsimp only
  split
  · split
    · split <;> simp only [State.bump_fltSafety, State.isoMark_fltSafety, State.loafTo_fltSafety]
    · simp only [State.loafTo_fltSafety, State.isoUndo_fltSafety]
  · rfl
@[simp] theorem State.unpublish_fltSafety (g : Fin 4) (s : State) : (s.unpublish g).fltSafety = s.fltSafety := by
  unfold State.unpublish
  refine (forAll_fltSafety (fun n x => State.modOven_fltSafety x n _) _ _).trans ?_
  rw [State.modGrp_fltSafety, State.clear_fltSafety]
@[simp] theorem State.isolatedToFault_fltSafety (g : Fin 4) (s : State) : (s.isolatedToFault g).fltSafety = s.fltSafety := by
  unfold State.isolatedToFault
  refine forAll_fltSafety (fun n x => ?_) _ s
  split
  · exact State.loafTo_fltSafety n .fault x
  · rfl
@[simp] theorem State.groupStop_fltSafety (g : Fin 4) (s : State) : (s.groupStop g).fltSafety = s.fltSafety := by
  unfold State.groupStop
  dsimp only
  split <;> rfl
@[simp] theorem State.stopAll_fltSafety (s : State) : s.stopAll.fltSafety = s.fltSafety := forAll_fltSafety State.groupStop_fltSafety _ s
@[simp] theorem State.groupDegrade_fltSafety (g : Fin 4) (s : State) : (s.groupDegrade g).fltSafety = s.fltSafety := rfl
@[simp] theorem State.releaseRole_fltSafety (s : State) (b : Bool) : (s.releaseRole b).fltSafety = s.fltSafety := by
  obtain ⟨p, hp⟩ := s.releaseRole_only b
  rw [hp]
  rfl
@[simp] theorem State.setMode_fltSafety (s : State) (m : ModState) : (s.setMode m).fltSafety = s.fltSafety := by
  unfold State.setMode
  split
  · rfl
  · dsimp only
    split <;> (split <;> rfl)
@[simp] theorem State.modeFollow_fltSafety (s : State) : s.modeFollow.fltSafety = s.fltSafety := by
  unfold State.modeFollow
  split
  · split
    · exact State.setMode_fltSafety s _
    · rfl
  · split
    · rfl
    · exact State.setMode_fltSafety s _
  · split
    · exact State.setMode_fltSafety s _
    · rfl
  · rfl
@[simp] theorem State.captureTrigger_fltSafety (bit : Nat) (s : State) : (s.captureTrigger bit).fltSafety = s.fltSafety := by
  unfold State.captureTrigger State.captureTriggerAt
  dsimp only
  split
  · rfl
  · split <;> rfl
@[simp] theorem State.captureFault_fltSafety (code : Half) (cls : FaultClass) (s : State) : (s.captureFault code cls).fltSafety = s.fltSafety := by
  unfold State.captureFault
  dsimp only
  split
  · exact State.captureTrigger_fltSafety 1 s
  · rfl
@[simp] theorem State.patternFollow_fltSafety (s : State) : s.patternFollow.fltSafety = s.fltSafety := by
  unfold State.patternFollow
  refine forAll_fltSafety (fun n x => ?_) _ s
  dsimp only
  split
  · rfl
  · exact State.pwmTo_fltSafety n x

/-! ## A fall of an enable -/

/-- Reports of region M on their way stay on it. -/
def Reported (s t : State) : Prop := s.flt.mRep <+: t.flt.mRep

/-- The same, and both enables as they are. -/
def Gated (s t : State) : Prop :=
  Reported s t ∧ t.safety.genC = s.safety.genC ∧ t.safety.genM = s.safety.genM

theorem reported_refl (s : State) : Reported s s := List.prefix_refl _
theorem reported_trans {s t u : State} (h : Reported s t) (k : Reported t u) : Reported s u := List.IsPrefix.trans h k
theorem reported_of_flt {s t : State} (h : t.flt.mRep = s.flt.mRep) : Reported s t := by
  unfold Reported
  rw [h]
theorem gated_of_fltSafety {s t : State} (h : t.fltSafety = s.fltSafety) : Gated s t := by
  obtain ⟨hflt, hsafety⟩ := Prod.mk.inj h
  exact ⟨reported_of_flt (by rw [hflt]), by rw [hsafety], by rw [hsafety]⟩
theorem reported_of_fltSafety {s t : State} (h : t.fltSafety = s.fltSafety) : Reported s t := (gated_of_fltSafety h).1
theorem gated_refl (s : State) : Gated s s := gated_of_fltSafety rfl
theorem gated_trans {s t u : State} (h : Gated s t) (k : Gated t u) : Gated s u :=
  ⟨reported_trans h.1 k.1, k.2.1.trans h.2.1, k.2.2.trans h.2.2⟩

theorem forAll_gated {α : Type} {f : α → State → State} (hf : ∀ a x, Gated x (f a x)) (l : List α) (s : State) :
    Gated s (forAll l f s) := by
  unfold forAll
  induction l generalizing s with
  | nil => exact gated_refl s
  | cons a l ih => exact gated_trans (hf a s) (ih (f a s))
theorem forAll_reported {α : Type} {f : α → State → State} (hf : ∀ a x, Reported x (f a x)) (l : List α) (s : State) :
    Reported s (forAll l f s) := by
  unfold forAll
  induction l generalizing s with
  | nil => exact reported_refl s
  | cons a l ih => exact reported_trans (hf a s) (ih (f a s))

theorem State.emit_gated (code inst : Half) (cls : FaultClass) (r fl ev occ : Nat) (data : Int) (s : State) :
    Gated s (s.emit code inst cls r fl ev occ data) := ⟨reported_refl s, rfl, rfl⟩
theorem State.reportM_gated (code inst : Half) (data : Int) (s : State) : Gated s (s.reportM code inst data) :=
  ⟨List.prefix_append _ _, rfl, rfl⟩
theorem State.safetyReport_gated (ch : Chan) (data : Int) (s : State) : Gated s (s.safetyReport ch data) := by
  cases ch
  · exact State.emit_gated ..
  · exact State.reportM_gated ..

theorem State.brakeOff_gated (ch : Chan) (s : State) : Gated s (s.brakeOff ch) := by
  unfold State.brakeOff
  cases ch
  all_goals
    dsimp only
    split
    · refine gated_trans ?_ (State.safetyReport_gated ..)
      exact ⟨reported_of_flt rfl, rfl, rfl⟩
    · exact ⟨reported_of_flt rfl, rfl, rfl⟩
theorem State.brakesOff_gated (s : State) : Gated s s.brakesOff :=
  gated_trans (State.brakeOff_gated .c s) (State.brakeOff_gated .m _)
theorem State.brakeOffFor_gated (g : Fin 4) (s : State) : Gated s (s.brakeOffFor g) := by
  unfold State.brakeOffFor
  split
  · exact State.brakesOff_gated s
  · exact gated_refl s
theorem State.groupSafe_gated (g : Fin 4) (s : State) : Gated s (s.groupSafe g) := by
  unfold State.groupSafe
  split
  · refine gated_trans (gated_of_fltSafety ?_) (State.brakeOffFor_gated g _)
    simp only [State.unpublish_fltSafety, State.isolatedToFault_fltSafety, State.modGrp_fltSafety]
  · exact gated_refl s

/-- A fall of an enable leaves both enables to their channels (R197, R375). -/
theorem State.gateFall_gated (s : State) : Gated s s.gateFall := by
  unfold State.gateFall
  extract_lets s1 s2
  have hloaves : Gated s s1 := gated_of_fltSafety (forAll_fltSafety (fun n x => (State.modLoaf_fltSafety ..).trans (State.loafTo_fltSafety n .off x)) _ s)
  have hgroups : Gated s s2 := gated_trans hloaves (forAll_gated State.groupSafe_gated _ s1)
  split
  · exact gated_trans hgroups (State.brakesOff_gated s2)
  · exact hgroups

/-- A channel's enable is low once it is dropped. -/
theorem State.dropGen_genOf (ch : Chan) (s : State) : (s.dropGen ch).genOf ch = false := by
  unfold State.dropGen
  split
  · obtain ⟨-, hc, hm⟩ := gated_trans (State.gateFall_gated (s.setGen ch false)) (State.safetyReport_gated ch 0x100 _)
    cases ch
    · exact hc
    · exact hm
  · simp_all

/-- With either enable low every power stage is off (R194). -/
theorem allOff_of_genOf {ch : Chan} {s : State} (h : s.genOf ch = false) : AllOff s := by
  intro n
  unfold State.genOf at h
  unfold State.genN State.pattern State.rank
  cases ch <;> simp_all

/-! ## Everything that follows from an event -/

theorem State.setGen_reported (ch : Chan) (b : Bool) (s : State) : Reported s (s.setGen ch b) := by
  cases ch <;> exact reported_refl s
theorem State.dropGen_reported (ch : Chan) (s : State) : Reported s (s.dropGen ch) := by
  unfold State.dropGen
  split
  · exact reported_trans (State.setGen_reported ch false s)
      (gated_trans (State.gateFall_gated _) (State.safetyReport_gated ch 0x100 _)).1
  · exact reported_refl s
theorem State.raiseGen_reported (ch : Chan) (s : State) : Reported s (s.raiseGen ch) := by
  unfold State.raiseGen
  split
  · exact reported_refl s
  · exact reported_trans (State.setGen_reported ch true s) (State.safetyReport_gated ch 0x101 _).1
theorem State.updateGen_reported (ch : Chan) (s : State) : Reported s (s.updateGen ch) := by
  unfold State.updateGen
  split
  · exact State.raiseGen_reported ch s
  · exact State.dropGen_reported ch s

theorem State.enterSafe_reported (code inst : Half) (s : State) : Reported s (s.enterSafe code inst) := by
  unfold State.enterSafe
  extract_lets s1 known
  have hdrop : Reported s s1 := reported_trans (State.dropGen_reported .c s) (State.dropGen_reported .m _)
  refine reported_trans hdrop (reported_of_fltSafety ?_)
  split
  · rfl
  · split
    · rfl
    · simp only [State.releaseRole_fltSafety, State.setMode_fltSafety, State.modBoot_fltSafety]

theorem State.demandSto_reported (ch : Chan) (s : State) : Reported s (s.demandSto ch) := by
  unfold State.demandSto
  extract_lets ss1 s1 s2
  have h1 : Reported s s1 := reported_of_fltSafety (by
    show (ite _ s _).fltSafety = _
    split
    · rfl
    · exact State.bump_fltSafety s _)
  have h2 : Reported s s2 := reported_trans h1 (reported_trans (by cases ch <;> exact reported_refl s1) (State.dropGen_reported ch _))
  split
  · exact reported_trans h2 (State.enterSafe_reported _ _ s2)
  · exact h2
theorem State.ss1End_reported (ch : Chan) (s : State) : Reported s (s.ss1End ch) :=
  reported_trans (State.safetyReport_gated ch 1 s).1 (State.demandSto_reported ch _)
theorem State.ss1Start_reported (ch : Chan) (s : State) : Reported s (s.ss1Start ch) := by
  unfold State.ss1Start
  split
  · exact reported_refl s
  · extract_lets s1
    have h1 : Reported s s1 := reported_trans (by cases ch <;> exact reported_refl s) (reported_of_fltSafety (State.stopAll_fltSafety _))
    split
    · exact reported_trans h1 (State.ss1End_reported ch s1)
    · exact h1
theorem State.ss1Ask_reported (ch : Chan) (s : State) : Reported s (s.ss1Ask ch) := by
  unfold State.ss1Ask
  split
  · exact reported_refl s
  · exact reported_trans (State.safetyReport_gated ch 2 s).1 (State.ss1Start_reported ch _)

theorem State.groupsBare_reported (s : State) : Reported s s.groupsBare := by
  unfold State.groupsBare
  refine forAll_reported (fun g x => ?_) _ s
  split
  · exact (State.groupSafe_gated g x).1
  · exact reported_refl x

theorem State.reactUnit_reported (code : Half) (s : State) : Reported s (s.reactUnit code) := by
  unfold State.reactUnit
  split
  · exact reported_of_fltSafety (State.releaseRole_fltSafety s true)
  · exact reported_refl s

/-- The loaves a reaction acts on, then the groups. -/
theorem forAll_units_reported {l : List (Fin 4)} {f : Fin 4 → State → State} (hf : ∀ a x, (f a x).fltSafety = x.fltSafety) (s : State) :
    Reported s (forAll l f s) := reported_of_fltSafety (forAll_fltSafety hf l s)

theorem State.react_reported (r : Nat) (code inst : Half) (s : State) : Reported s (s.react r code inst) := by
  unfold State.react
  extract_lets ls gs
  split
  · exact reported_refl s
  · exact State.reactUnit_reported code s
  · have h2 := reported_trans (forAll_units_reported (l := ls) (State.loafSafe_fltSafety ls) s) (State.groupsBare_reported _)
    split
    · exact reported_trans h2 (forAll_reported (fun g x => (State.groupSafe_gated g x).1) gs _)
    · exact h2
  · exact reported_trans (forAll_units_reported (State.loafSafe_fltSafety ls) s) (forAll_units_reported State.groupDegrade_fltSafety _)
  · exact reported_trans (forAll_units_reported (State.loafSafe_fltSafety ls) s) (forAll_units_reported State.groupStop_fltSafety _)
  · split
    · exact State.enterSafe_reported code inst s
    · exact reported_trans (State.ss1Ask_reported .c (s.modSafety _)) (State.ss1Ask_reported .m _)
  · exact State.enterSafe_reported code inst (s.modSafety _)

theorem State.latchC0_reported (code inst : Half) (fl : Nat) (data : Int) (s : State) : Reported s (s.latchC0 code inst fl data) := by
  unfold State.latchC0
  split
  · dsimp only
    split <;> exact reported_refl s
  · exact reported_refl s
theorem State.enter_reported (code inst : Half) (data : Int) (fl : Nat) (inj : Bool) (s : State) :
    Reported s (s.enter code inst data fl inj) := by
  unfold State.enter
  extract_lets c hard p s1
  split
  · exact reported_trans (State.latchC0_reported code inst fl data s) (reported_of_fltSafety (State.captureFault_fltSafety ..))
  · have h1 : Reported s s1 := reported_of_flt (congrArg (fun x => x.1.mRep) (State.captureFault_fltSafety code c.1 _))
    split
    · exact reported_trans h1 (State.react_reported _ code inst s1)
    · exact h1
theorem State.logCancel_reported (j : Inj) (s : State) : Reported s (s.logCancel j) :=
  reported_trans (reported_of_fltSafety (State.bump_fltSafety s _)) (State.emit_gated ..).1
theorem State.latch_reported (code inst : Half) (data : Int) (s : State) : Reported s (s.latch code inst data) := by
  unfold State.latch
  split
  · exact reported_refl s
  · extract_lets co s1 s2
    have h1 : Reported s s1 := forAll_reported (fun _ x => reported_of_flt (t := State.endInj _ x) rfl) co s
    have h2 : Reported s1 s2 := by
      show Reported s1 (ite _ _ _)
      split
      · exact reported_refl s1
      · exact State.enter_reported ..
    exact reported_trans (reported_trans h1 h2) (forAll_reported State.logCancel_reported co s2)

theorem State.fbInvalidSets_reported (c : Fin 4) (s : State) : Reported s (s.fbInvalidSets c) := by
  unfold State.fbInvalidSets
  refine forAll_reported (fun g x => ?_) _ s
  split
  · exact State.latch_reported _ _ _ x
  · exact reported_refl x
theorem State.fbFollow_reported (s : State) : Reported s s.fbFollow := by
  unfold State.fbFollow
  refine forAll_reported (fun c x => ?_) _ s
  dsimp only
  split
  · exact reported_refl x
  · split
    · exact State.fbInvalidSets_reported c (x.modFb c _)
    · exact reported_refl x

theorem State.groupStopped_reported (g : Fin 4) (off : Bool) (s : State) : Reported s (s.groupStopped g off) := by
  unfold State.groupStopped
  extract_lets s1 s2
  have h2 : s2.fltSafety = s.fltSafety := by
    show (ite _ _ s1).fltSafety = _
    split
    · rw [forAll_fltSafety, State.isolatedToFault_fltSafety]
      intro n x
      split
      · rfl
      · exact State.loafTo_fltSafety n .off x
    · exact State.isolatedToFault_fltSafety g s
  refine reported_trans (reported_of_fltSafety ?_) (State.brakeOffFor_gated g _).1
  rw [State.unpublish_fltSafety, State.modGrp_fltSafety, h2]
theorem State.safeToStopped_reported (s : State) : Reported s s.safeToStopped := by
  unfold State.safeToStopped
  refine forAll_reported (fun g x => ?_) _ s
  split
  · exact State.groupStopped_reported g false x
  · exact reported_refl x
theorem State.brakeFollow_reported (s : State) : Reported s s.brakeFollow := by
  unfold State.brakeFollow
  dsimp only
  split
  · exact reported_refl s
  · split
    · exact (State.brakesOff_gated s).1
    · exact reported_refl s
theorem State.beatFollow_reported (s : State) : Reported s s.beatFollow := by
  unfold State.beatFollow
  split
  · exact reported_refl s
  · split
    · exact reported_of_flt (congrArg (fun x => x.1.mRep) (State.bump_fltSafety _ Obj.beatStops))
    · exact reported_refl s
theorem State.follow_reported (s : State) : Reported s s.follow := by
  unfold State.follow
  refine reported_trans ?_ (State.beatFollow_reported _)
  refine reported_trans ?_ (State.brakeFollow_reported _)
  refine reported_trans ?_ (reported_of_fltSafety (State.modeFollow_fltSafety _))
  refine reported_trans ?_ (State.safeToStopped_reported _)
  refine reported_trans ?_ (State.updateGen_reported .m _)
  refine reported_trans ?_ (State.updateGen_reported .c _)
  exact reported_trans (State.groupsBare_reported s) (reported_of_fltSafety (State.modeFollow_fltSafety _))
theorem State.answerWaiting_reported (s : State) : Reported s s.answerWaiting :=
  forAll_reported (fun src x => reported_of_flt (by rw [(State.answerOne_posts x src).2.1])) _ s

/-- What follows from an event takes no report of region M back. -/
theorem State.settle_reported (s : State) : Reported s s.settle := by
  unfold State.settle
  refine reported_trans ?_ (reported_of_fltSafety (State.patternFollow_fltSafety _))
  refine reported_trans ?_ (State.answerWaiting_reported _)
  exact reported_trans (State.fbFollow_reported s) (State.follow_reported _)

/-- A detection of region M is on its way to the collector when everything has followed from it (R365). -/
theorem State.faultM_reports (code inst : Half) (data : Int) (s : State) : (code, inst, data) ∈ (s.faultM code inst data).flt.mRep := by
  have h : Reported (s.reportM code inst data) (s.faultM code inst data) :=
    reported_trans (State.enterSafe_reported code inst _) (State.settle_reported _)
  exact h.subset (List.mem_append_right s.flt.mRep List.mem_cons_self)

end Sys2Proof.Machine
end

section
/-! Retransmission, the link's timers and the control packets (R21, R35 to R39, R99, R209, R367, R378, R432, R452; O31). -/

namespace Sys2Proof.Machine

open Sys2Proof

/-! ## Back to the first unacknowledged packet -/

theorem State.peelBack_unacked (r : Region) (s : State) : ((s.peelBack r).peel r).unacked = (s.peel r).unacked := by cases r <;> rfl
/-- Everything unacknowledged is sent again (R36). -/
theorem State.peelBack_resend (r : Region) (s : State) : ((s.peelBack r).peel r).resend = ((s.peelBack r).peel r).unacked := by
  cases r <;> rfl

@[simp] theorem State.peelBack_rd (r : Region) (s : State) (a : Nat) : (s.peelBack r).rd a = s.rd a := s.modPeel_rd r _ a

/-- The end of a run of retransmissions. -/
def PeelEnd.restart (now : Nat) (e : PeelEnd) : PeelEnd := { e with resend := e.unacked, retxRun := 0, waitT := now }

/-- A retrain sends both senders back, with their runs ended (R37). -/
theorem execPeelRetrain_runs {s : State} (hrun : 16 ≤ s.peelC.retxRun ∨ 16 ≤ s.peelM.retxRun) :
    exec .peelRetrain s = .next { s.bumpOpen Obj.peelRetrain with
      peelC := s.peelC.restart s.time.now, peelM := s.peelM.restart s.time.now } := by
  obtain ⟨v, hv⟩ := s.bumpOpen_only Obj.peelRetrain
  show execPeelRetrain s = _
  unfold execPeelRetrain
  rw [if_pos hrun, hv]
  rfl

/-! ## Crust's own trip -/

/-- Crust's trips change trips and objects alone (R198, R378). -/
theorem State.crustTrip_only (i : Nat) (s : State) :
    ∃ (o : Store) (l y : Quad (BitVec 16)), s.crustTrip i = { s with objs := o, trip := l, tripSync := y } := by
  have hloaf : ∀ (x : State) (n : Fin 4), (∃ o l y, x = { s with objs := o, trip := l, tripSync := y }) →
      ∃ o l y, ((x.setTrip i n true).setSync i n true).wrBit (Obj.tripLatch n.val) i true = { s with objs := o, trip := l, tripSync := y } := by
    rintro x n ⟨o, l, y, rfl⟩
    exact ⟨_, _, _, rfl⟩
  have hall : ∀ (ns : List (Fin 4)) (x : State), (∃ o l y, x = { s with objs := o, trip := l, tripSync := y }) →
      ∃ o l y, forAll ns (fun n x => ((x.setTrip i n true).setSync i n true).wrBit (Obj.tripLatch n.val) i true) x
        = { s with objs := o, trip := l, tripSync := y } := by
    intro ns
    unfold forAll
    induction ns with
    | nil => exact fun x h => h
    | cons n ns ih => exact fun x h => ih _ (hloaf x n h)
  unfold State.crustTrip
  refine hall _ _ ?_
  split
  · exact ⟨s.objs, s.trip, s.tripSync, rfl⟩
  · unfold State.bump State.bumpTo
    split <;> exact ⟨_, s.trip, s.tripSync, rfl⟩

theorem State.crustTrip_rest (i : Nat) (s : State) :
    (s.crustTrip i).boot = s.boot ∧ (s.crustTrip i).time = s.time ∧ (s.crustTrip i).peelC = s.peelC := by
  obtain ⟨o, l, y, h⟩ := s.crustTrip_only i
  rw [h]
  exact ⟨rfl, rfl, rfl⟩

/-! ## A region that hears nothing -/

/-- A region's timeout, noted; the module can only be reset (R39). -/
def State.silent (r : Region) (t : Nat) (s : State) : State :=
  ((s.atT t).modPeel r (fun e => { e with timedOut := true })).modBoot (fun b => { b with resetOnly := true })

theorem State.silent_timedOut (r : Region) (t : Nat) (s : State) : ((s.silent r t).peel r).timedOut = true := by cases r <;> rfl
theorem State.silent_now (r : Region) (t : Nat) (s : State) : (s.silent r t).time.now = max s.time.now t := by
  rw [← State.atT_now]
  cases r <;> rfl

theorem execPeelTimeout_c {t0 : Nat} {s : State} (ht : s.peelC.timer = some t0) (hup : s.regionUp = true) :
    exec (.peelTimeout .c) s = .next ((((s.silent .c (t0 + 2 * msCycles + 1)).crustTrip 14).dropGen .c).fault 0x9801 0 0) := by
  show execPeelTimeout .c s = _
  unfold execPeelTimeout
  rw [show (s.peel .c).timer = some t0 from ht]
  exact if_pos hup
theorem execPeelTimeout_m {t0 : Nat} {s : State} (ht : s.peelM.timer = some t0) (hup : s.askard = true) :
    exec (.peelTimeout .m) s = .next (((s.silent .m (t0 + 2 * msCycles + 1)).dropGen .m).faultM 0x9801 1 0) := by
  show execPeelTimeout .m s = _
  unfold execPeelTimeout
  rw [show (s.peel .m).timer = some t0 from ht]
  exact if_pos hup

theorem State.dropGen_quiet (ch : Chan) (s : State) : Quiet s (s.dropGen ch) := State.dropGen_mild quiet_mild (quiet_refl s)
theorem State.faultM_quiet (code inst : Half) (data : Int) (s : State) : Quiet s (s.faultM code inst data) :=
  State.faultM_mild quiet_mild (quiet_refl s)

theorem quiet_timedOut {s t : State} (h : Quiet s t) : t.peelC.timedOut = s.peelC.timedOut ∧ t.peelM.timedOut = s.peelM.timedOut :=
  ⟨(congrArg (fun x => x.peelC.timedOut) h.1 :), (congrArg (fun x => x.peelM.timedOut) h.1 :)⟩
theorem quiet_resetOnly {s t : State} (h : Quiet s t) : t.boot.resetOnly = s.boot.resetOnly :=
  (congrArg (fun x => x.boot.resetOnly) h.1 :)

/-! ## Heartbeats -/

/-- A `HEARTBEAT` is timed in the fault collector and in one object (R367). -/
theorem State.mgtGap_only (s : State) :
    ∃ o, s.mgtGap = { s with objs := o, flt := { s.flt with mgtBeat := some s.time.now } } ∧ ∀ a ∉ [Obj.mgtHbMax], o.get a = s.objs.get a := by
  unfold State.mgtGap
  split
  · exact ⟨s.objs, rfl, fun _ _ => rfl⟩
  · dsimp only
    split
    · exact ⟨s.objs.set Obj.mgtHbMax _, rfl, fun a ha => Store.get_set_ne _ _ (List.ne_of_not_mem_cons ha)⟩
    · exact ⟨s.objs, rfl, fun _ _ => rfl⟩

/-- The timers of a `HEARTBEAT`: region C's starts again, the first arms region M's too (R38, R90). -/
def State.heard (s : State) : State :=
  ((s.modBoot (fun b => { b with hbSeen := true })).modPeel .c (fun e => { e with timedOut := false, timer := some s.time.now })).modPeel .m
    (fun e => { e with timer := some (e.timer.getD s.time.now) })

theorem execHeartbeat_arrives {p : Packet} {t : Nat} {s : State} (h : Arrives .c .heartbeat p (s.atT t)) :
    exec (.heartbeat p t) s = .next (((s.atT t).linked .c .heartbeat p).heard.mgtGap.settle) :=
  congrArg Host.Outcome.next (State.peelTake_arrives _ h)

/-! ## Time units at a `SYNC` -/

/-- The offset of a time unit from a station time, in ns (R431, R471). -/
def State.unitOffset (s : State) (station : Rat) (u : Nat) : Rat :=
  ((s.time.units.getD u 0 : Nat) : Rat) / 2 ^ 32 - station + (if s.onPairClock u then s.time.station - s.time.pairClk else 0)

/-- The objects of a time unit that a `SYNC` writes. -/
def syncObjs (u : Nat) : List Nat := [Obj.tuOfs u, Obj.tuStat u, Obj.tuInc u]

/-- What a `SYNC` changes in one unit: its objects, of which the offset shows a value, and of the time base the unit alone. -/
def UnitSynced (u : Nat) (v : Int) (s t : State) : Prop :=
  ∃ (o : Store) (us : List Nat) (l p : List Bool),
    t = { s with objs := o, time := { s.time with units := us, unitLoaded := l, unitPending := p } }
    ∧ (∀ a ∉ syncObjs u, o.get a = s.objs.get a) ∧ o.get (Obj.tuOfs u) = v
    ∧ ∀ n ≠ u, us.getD n 0 = s.time.units.getD n 0

theorem UnitSynced.wr {u : Nat} {v w : Int} {a : Nat} {s t : State} (h : UnitSynced u v s t) (ha : a ∈ syncObjs u) (hne : Obj.tuOfs u ≠ a) :
    UnitSynced u v s (t.wr a w) := by
  obtain ⟨o, us, l, p, rfl, ho, hv, hus⟩ := h
  refine ⟨o.set a w, us, l, p, rfl, fun b hb => ?_, ?_, hus⟩
  · rw [Store.get_set_ne _ _ (fun e : b = a => hb (e ▸ ha)), ho b hb]
  · rw [Store.get_set_ne _ _ hne, hv]

theorem UnitSynced.pending {u : Nat} {v : Int} {s t : State} (h : UnitSynced u v s t) (p' : List Bool) :
    UnitSynced u v s (t.modTime (fun x => { x with unitPending := p' })) := by
  obtain ⟨o, us, l, p, rfl, ho, hv, hus⟩ := h
  exact ⟨o, us, l, p', rfl, ho, hv, hus⟩

theorem UnitSynced.loads {u : Nat} {v : Int} {s t : State} (h : UnitSynced u v s t) (c : Nat) (l' p' : List Bool) :
    UnitSynced u v s (t.modTime (fun x => { x with units := x.units.set u c, unitLoaded := l', unitPending := p' })) := by
  obtain ⟨o, us, l, p, rfl, ho, hv, hus⟩ := h
  refine ⟨o, us.set u c, l', p', rfl, ho, hv, fun n hn => ?_⟩
  rw [← hus n hn]
  simp [List.getD_eq_getElem?_getD, List.getElem?_set_ne hn.symm]

theorem State.unitSync_synced (station : Rat) (u : Nat) (s : State) :
    UnitSynced u (clampI (-0x80000000) 0x7FFFFFFF (showInt (s.unitOffset station u))) s (s.unitSync station u) := by
  have hstat : Obj.tuOfs u ≠ Obj.tuStat u ∧ Obj.tuOfs u ≠ Obj.tuInc u := by
    unfold Obj.tuOfs Obj.tuStat Obj.tuInc
    omega
  have hmem : Obj.tuStat u ∈ syncObjs u ∧ Obj.tuInc u ∈ syncObjs u := by simp [syncObjs]
  unfold State.unitSync
  extract_lets here ofs s1 s2
  have hshown : UnitSynced u (clampI (-0x80000000) 0x7FFFFFFF (showInt (s.unitOffset station u))) s (s.wr (Obj.tuOfs u)
      (clampI (-0x80000000) 0x7FFFFFFF (showInt ofs))) :=
    ⟨_, s.time.units, s.time.unitLoaded, s.time.unitPending, rfl,
      fun a ha => Store.get_set_ne _ _ (fun e => ha (e ▸ List.mem_cons_self)), Store.get_set_same _ _ _, fun _ _ => rfl⟩
  have h1 : UnitSynced u _ s s1 := hshown.wr hmem.1 hstat.1
  have h2 : UnitSynced u (clampI (-0x80000000) 0x7FFFFFFF (showInt (s.unitOffset station u))) s s2 := by
    show UnitSynced u _ s (ite _ _ s1)
    split
    · exact (h1.loads _ _ _).wr hmem.1 hstat.1
    · exact h1
  split
  · exact h2
  · split
    · exact h2.pending _
    · exact h2.wr hmem.2 hstat.2

/-- The objects that tell which clock a unit follows. -/
def clockObjs : List Nat := Obj.prMode :: Obj.prGroup :: units4.map (fun g => Obj.grpLoaves g.val)

theorem clockObjs_notSynced {u : Nat} (hu : u < 7) : ∀ a ∈ clockObjs, a ∉ syncObjs u := by
  unfold syncObjs
  interval_cases u <;> decide

/-- A loaf's group is told by the bindings alone. -/
theorem State.groupOf_congr {s t : State} (h : ∀ g : Fin 4, t.rd (Obj.grpLoaves g.val) = s.rd (Obj.grpLoaves g.val)) (n : Fin 4) :
    t.groupOf n = s.groupOf n := by
  unfold State.groupOf State.rdBit State.rdN
  simp only [h]

/-- The module's part in a pair is told by its boot sequence, its switches, the mirror link and `PR_MODE`. -/
theorem State.prRole_congr {s t : State} (hboot : t.boot = s.boot) (hpower : t.power = s.power) (hpair : t.pair = s.pair)
    (hmode : t.rd Obj.prMode = s.rd Obj.prMode) : t.prRole = s.prRole := by
  unfold State.prRole State.prSide
  rw [hboot, hpower, hpair, hmode]

/-- A unit's offset is its own: another unit's `SYNC` does not change it. -/
theorem UnitSynced.offset_ne {u n : Nat} {v : Int} {s t : State} (h : UnitSynced u v s t) (hu : u < 7) (hn : n ≠ u) (station : Rat) :
    t.unitOffset station n = s.unitOffset station n := by
  obtain ⟨o, us, l, p, ht, ho, -, hus⟩ := h
  have hrd : ∀ a ∈ clockObjs, t.rd a = s.rd a := fun a ha => by
    rw [ht]
    exact ho a (clockObjs_notSynced hu a ha)
  have hrole : t.prRole = s.prRole := by
    refine State.prRole_congr ?_ ?_ ?_ (hrd _ (by decide)) <;> rw [ht]
  have hgroup : t.groupOf (Fin.ofNat 4 n) = s.groupOf (Fin.ofNat 4 n) :=
    State.groupOf_congr (fun g => hrd _ (by unfold clockObjs; revert g; decide)) _
  have hpaired : t.paired = s.paired := by rw [ht]; rfl
  have hpair : t.onPairClock n = s.onPairClock n := by
    unfold State.onPairClock State.prGroup State.rdN
    rw [hpaired, hrole, hgroup, hrd Obj.prMode (by decide), hrd Obj.prGroup (by decide)]
  have hunit : t.time.units.getD n 0 = s.time.units.getD n 0 := by rw [ht]; exact hus n hn
  have hclocks : t.time.station = s.time.station ∧ t.time.pairClk = s.time.pairClk := by rw [ht]; exact ⟨rfl, rfl⟩
  unfold State.unitOffset
  rw [hpair, hunit, hclocks.1, hclocks.2]

theorem State.unitSync_tuOfs (station : Rat) (u : Nat) (s : State) :
    (s.unitSync station u).rd (Obj.tuOfs u) = clampI (-0x80000000) 0x7FFFFFFF (showInt (s.unitOffset station u)) := by
  obtain ⟨o, us, l, p, e, -, hv, -⟩ := s.unitSync_synced station u
  rw [e]
  exact hv

theorem State.unitSync_tuOfs_ne (station : Rat) {u n : Nat} (hu : u < 7) (hn : n < 7) (hne : n ≠ u) (s : State) :
    (s.unitSync station u).rd (Obj.tuOfs n) = s.rd (Obj.tuOfs n) := by
  obtain ⟨o, us, l, p, e, ho, -, -⟩ := s.unitSync_synced station u
  rw [e]
  refine ho _ ?_
  simp only [syncObjs, Obj.tuOfs, Obj.tuStat, Obj.tuInc, List.mem_cons, List.not_mem_nil, or_false]
  omega

theorem forAll_unitSync_tuOfs_ne (station : Rat) {us : List Nat} (hlt : ∀ u ∈ us, u < 7) {n : Nat} (hn : n < 7) (hne : n ∉ us) (s : State) :
    (forAll us (State.unitSync station) s).rd (Obj.tuOfs n) = s.rd (Obj.tuOfs n) := by
  unfold forAll
  induction us generalizing s with
  | nil => rfl
  | cons u us ih =>
    obtain ⟨hu, hlt⟩ := List.forall_mem_cons.mp hlt
    obtain ⟨hnu, hne⟩ := List.ne_and_not_mem_of_not_mem_cons hne
    exact (ih hlt hne _).trans (State.unitSync_tuOfs_ne station hu hn hnu s)

/-- The offset each of a list of units shows after its `SYNC`: what the unit alone would show. -/
theorem forAll_unitSync_tuOfs (station : Rat) {us : List Nat} (hus : us.Nodup) (hlt : ∀ u ∈ us, u < 7) (s : State) :
    ∀ n ∈ us, (forAll us (State.unitSync station) s).rd (Obj.tuOfs n) = (s.unitSync station n).rd (Obj.tuOfs n) := by
  induction us generalizing s with
  | nil => exact fun n h => absurd h List.not_mem_nil
  | cons u us ih =>
    obtain ⟨hu, hlt'⟩ := List.forall_mem_cons.mp hlt
    obtain ⟨hnot, hus'⟩ := List.nodup_cons.mp hus
    intro n hn
    show (forAll us (State.unitSync station) (s.unitSync station u)).rd _ = _
    rcases List.mem_cons.mp hn with rfl | hn
    · exact forAll_unitSync_tuOfs_ne station (us := us) hlt' hu hnot _
    · have hne : n ≠ u := fun e => hnot (e ▸ hn)
      rw [ih hus' hlt' _ n hn, State.unitSync_tuOfs, State.unitSync_tuOfs, (s.unitSync_synced station u).offset_ne hu hne]

theorem State.unitsHere_spec (s : State) : s.unitsHere.Nodup ∧ ∀ u ∈ s.unitsHere, u < 7 :=
  ⟨List.nodup_range.filter _, fun _ hu => List.mem_range.mp (List.mem_filter.mp hu).1⟩

/-! ## Events for the lists -/

/-- List `l` counts an `EVENT` packet of loaf `n` where it is triggered by it (R452). -/
def State.listTakes (s : State) (n l : Nat) : Nat := if s.rd (Obj.listTrig l) = 1 ∧ s.rdN (Obj.listLoaf l) = n then 1 else 0

/-- An `EVENT` packet counts for the lists its loaf triggers, and changes nothing else. -/
theorem forAll_listEvent (n : Nat) (s : State) :
    forAll [0, 1] (State.listEvent n) s
      = s.modPp (fun p => { p with evt0 := p.evt0 + s.listTakes n 0, evt1 := p.evt1 + s.listTakes n 1 }) := by
  show ((s.listEvent n 0).listEvent n 1) = _
  have h0 : s.listEvent n 0 = s.modPp (fun p => { p with evt0 := p.evt0 + s.listTakes n 0 }) := by
    unfold State.listEvent
    split
    · next h =>
      have e : s.listTakes n 0 = 1 := if_pos h
      rw [e]
      rfl
    · next h =>
      have e : s.listTakes n 0 = 0 := if_neg h
      rw [e]
      rfl
  have h1 (x : State) : x.listEvent n 1 = x.modPp (fun p => { p with evt1 := p.evt1 + x.listTakes n 1 }) := by
    unfold State.listEvent
    split
    · next h =>
      have e : x.listTakes n 1 = 1 := if_pos h
      rw [e]
      rfl
    · next h =>
      have e : x.listTakes n 1 = 0 := if_neg h
      rw [e]
      rfl
  rw [h0, h1]
  rfl

end Sys2Proof.Machine

namespace Sys2Proof

open Sys2Proof.Machine

/-- A region that hears nothing for 2 ms (R39, R99, R378). -/
theorem peelTimeout_c {t0 : Nat} {s : State} (ht : s.peelC.timer = some t0) (hup : s.regionUp = true) :
    ∃ u : State, (∃ t' : State, exec (.peelTimeout .c) s = .next t' ∧ Quiet u t'
        ∧ (u.raisable 0x9801 0 = true → (u.classOf 0x9801).1 ≠ .c0 → t'.isPending 0x9801 0 = true)) ∧ u.peelC.timedOut = true
      ∧ u.boot.resetOnly = true ∧ u.time.now = max s.time.now (t0 + 2 * msCycles + 1) ∧ AllOff u := by
  obtain ⟨hboot, htime, hpeel⟩ := (s.silent .c (t0 + 2 * msCycles + 1)).crustTrip_rest 14
  have hq := State.dropGen_quiet .c ((s.silent .c (t0 + 2 * msCycles + 1)).crustTrip 14)
  refine ⟨_, ⟨_, execPeelTimeout_c ht hup, State.fault_quiet .., State.fault_pending⟩, ?_, ?_, ?_, allOff_of_genOf (State.dropGen_genOf .c _)⟩
  · rw [(quiet_timedOut hq).1, hpeel]
    exact State.silent_timedOut .c _ s
  · rw [quiet_resetOnly hq, hboot]
    rfl
  · rw [quiet_time hq, htime, State.silent_now]

theorem peelTimeout_m {t0 : Nat} {s : State} (ht : s.peelM.timer = some t0) (hup : s.askard = true) :
    ∃ u : State, (∃ t : State, exec (.peelTimeout .m) s = .next t ∧ Quiet u t ∧ (0x9801, 1, 0) ∈ t.flt.mRep) ∧ u.peelM.timedOut = true
      ∧ u.boot.resetOnly = true ∧ u.time.now = max s.time.now (t0 + 2 * msCycles + 1) ∧ AllOff u := by
  have hq := State.dropGen_quiet .m (s.silent .m (t0 + 2 * msCycles + 1))
  refine ⟨_, ⟨_, execPeelTimeout_m ht hup, State.faultM_quiet .., State.faultM_reports ..⟩, ?_, ?_, ?_, allOff_of_genOf (State.dropGen_genOf .m _)⟩
  · rw [(quiet_timedOut hq).2]
    exact State.silent_timedOut .m _ s
  · rw [quiet_resetOnly hq]
    rfl
  · rw [quiet_time hq, State.silent_now]

/-- A `HEARTBEAT` received: both timers, and the gap since the last one (R38, R90, R367). -/
theorem heartbeat_received {p : Packet} {t : Nat} {s : State} (h : Arrives .c .heartbeat p (s.atT t)) :
    ∃ u : State, (∃ t' : State, exec (.heartbeat p t) s = .next t' ∧ Quiet u t') ∧ u.boot.hbSeen = true ∧ u.peelC.timedOut = false
      ∧ u.peelC.timer = some (s.atT t).time.now ∧ u.peelM.timer = some (s.peelM.timer.getD (s.atT t).time.now)
      ∧ u.flt.mgtBeat = some (s.atT t).time.now ∧ ObjsKept [Obj.mgtHbMax, Obj.peelCtlLatMax] s u := by
  refine ⟨_, ⟨_, execHeartbeat_arrives h, State.settle_quiet _⟩, ?_⟩
  have hnow := congrArg TimeSt.now (State.linked_time h)
  have hkept := State.linked_objsKept h
  have htimer : ((s.atT t).linked .c .heartbeat p).peelM.timer = s.peelM.timer := by
    obtain ⟨l, hl⟩ := State.linked_otherEnd h
    have hkeeps : ((s.atT t).linked .c .heartbeat p).peelM.timer = (s.atT t).peelM.timer := (congrArg PeelEnd.timer hl :)
    rw [hkeeps, State.atT_peelM]
  generalize (s.atT t).linked .c .heartbeat p = x at *
  obtain ⟨o, hgap, ho⟩ := x.heard.mgtGap_only
  rw [hgap, ← hnow, ← htimer]
  refine ⟨rfl, rfl, rfl, rfl, rfl, fun a ha => ?_⟩
  obtain ⟨hhb, hlat⟩ := List.ne_and_not_mem_of_not_mem_cons ha
  exact (ho a (by simpa using hhb)).trans ((hkept a hlat).trans (s.atT_rd t a))

/-- The retrain is counted; both senders go back, and the run of retransmissions ends (R37, R40). -/
theorem peelRetrain_restarts {s : State} (hrun : 16 ≤ s.peelC.retxRun ∨ 16 ≤ s.peelM.retxRun) :
    ∃ t : State, exec .peelRetrain s = .next t ∧ (s.rd Obj.peelRetrain < 0xFFFFFFFF → t.rd Obj.peelRetrain = s.rd Obj.peelRetrain + 1)
      ∧ t.peelC = { s.peelC with resend := s.peelC.unacked, retxRun := 0, waitT := s.time.now }
      ∧ t.peelM = { s.peelM with resend := s.peelM.unacked, retxRun := 0, waitT := s.time.now } ∧ ObjsKept [Obj.peelRetrain] s t
      ∧ { t with peelC := s.peelC, peelM := s.peelM, objs := s.objs } = s := by
  refine ⟨_, execPeelRetrain_runs hrun, fun hc => ?_, rfl, rfl, fun a ha => ?_, ?_⟩
  · exact s.rd_bumpOpen_same hc
  · exact s.rd_bumpOpen_ne (List.ne_of_not_mem_cons ha)
  · rw [(s.bumpOpen_only Obj.peelRetrain).choose_spec]
    rfl

/-- An `EVENT` received counts for the lists its loaf triggers (R452). -/
theorem event_received {p : Packet} {s : State} (h : Arrives .m .event p s) :
    ∃ t : State, exec (.event p) s = .next t ∧ t.objs = (s.linked .m .event p).objs
      ∧ t.pp.evt0 = s.pp.evt0 + s.listTakes (leAt p.payload 1 1) 0 ∧ t.pp.evt1 = s.pp.evt1 + s.listTakes (leAt p.payload 1 1) 1 := by
  have hkept := State.linked_objsKept h
  have hpp : (s.linked .m .event p).pp = s.pp := (congrArg State.pp (State.linked_rest h) :)
  have htakes : ∀ l < 2, (s.linked .m .event p).listTakes (leAt p.payload 1 1) l = s.listTakes (leAt p.payload 1 1) l := by
    intro l hl
    unfold State.listTakes State.rdN
    rw [hkept (Obj.listTrig l) (by interval_cases l <;> decide), hkept (Obj.listLoaf l) (by interval_cases l <;> decide)]
  refine ⟨_, congrArg Host.Outcome.next ((State.peelTake_arrives _ h).trans (forAll_listEvent _ _)), rfl, ?_, ?_⟩
  · rw [State.modPp_pp, hpp, htakes 0 (by decide)]
  · rw [State.modPp_pp, hpp, htakes 1 (by decide)]

/-- Settles O31: each clause by the rule of its command above. -/
theorem linkTimersAndControl : Obligations.LinkTimersAndControl := by
  refine ⟨?_, ?_, ?_, ?_, ?_, ?_, ?_, ?_, ?_, ?_, ?_, ?_⟩
  · intro r p s h
    exact ⟨_, congrArg Host.Outcome.next (State.peelTake_arrives _ h), rfl, State.peelBack_resend r _, State.peelBack_unacked r _⟩
  · exact fun r s htrained hun => if_pos ⟨htrained, hun⟩
  · exact fun s hrun => peelRetrain_restarts hrun
  · exact fun t0 s ht hup => peelTimeout_c ht hup
  · exact fun t0 s ht hup => peelTimeout_m ht hup
  · intro r s ht
    show execPeelTimeout r s = _
    unfold execPeelTimeout
    rw [ht]
  · intro s hk hw hm
    exact ⟨_, if_pos (by rw [hk, hw, hm]; rfl), rfl, rfl⟩
  · intro s h
    refine if_neg ?_
    rcases h with h | h <;> simp [h]
  · exact fun s hk => ⟨_, if_pos hk, ⟨_, rfl, rfl⟩, rfl⟩
  · exact fun p t s h => heartbeat_received h
  · intro p t s h
    obtain ⟨hnodup, hlt⟩ := ((s.atT t).linked .c .sync p).unitsHere_spec
    exact ⟨_, congrArg Host.Outcome.next (State.peelTake_arrives _ h), forAll_unitSync_tuOfs _ hnodup hlt _⟩
  · intro p s h
    obtain ⟨t, ht, hobjs, h0, h1⟩ := event_received h
    refine ⟨t, ht, hobjs, h0.trans ?_, h1.trans ?_⟩ <;> rfl

end Sys2Proof
end

section
/-! A held write that unbinds the loaf of another group: the `SWAP_BANK` that applies it leaves that group idle, and its swap takes
effect at once. -/

namespace Sys2Proof

open Sys2Proof.Machine

/-- The entry of a unit in a mapped table. -/
@[simp] theorem Quad.get_mapIdx {α β : Type} (q : Quad α) (f : Fin 4 → α → β) (n : Fin 4) : (q.mapIdx f).get n = f n (q.get n) := by
  match n with
  | 0 => rfl
  | 1 => rfl
  | 2 => rfl
  | 3 => rfl

/-! ## The counterexample -/

/-- Both dies up and Peel trained. Loaf 0 runs, bound to group 1; the next bank swap of group 0, which binds no loaf, releases it. -/
def releasing : State :=
  (((State.reset.modBoot (fun b => { b with stage := .askard, pllLocked := true, peelTrained := true })).wr (Obj.grpLoaves 1) 1).modLoaf 0
    (fun l => { l with running := true })).modGrp 0 (fun g => { g with held := [(Obj.grpLoaves 1, 0)] })

/-- The `CMD` packet of a `SWAP_BANK` that names groups 0 and 1 (R154). -/
def swapBoth : Packet := pktSeal (pkt .cmd (wordsToBytes [BitVec.ofNat 32 (cSwapBank * 65536 + 1), 3]))

theorem swapBoth_arrives : Arrives .c .cmd swapBoth releasing := by
  refine ⟨rfl, rfl, by decide +kernel, by decide +kernel, by decide +kernel, fun _ => by decide +kernel⟩

theorem swapBoth_words : pktWords swapBoth = [BitVec.ofNat 32 (cSwapBank * 65536 + 1), 3] := by decide +kernel

theorem releasing_runs : (releasing.bound 1).any (fun n => (releasing.loaf.get n).running) = true := by decide +kernel

/-- Whether the swap of group 1 is pending after a step. -/
def swapPends : Host.Outcome State Fault Refusal → Bool
  | .next t => (t.grp.get 1).swap
  | _ => false

theorem swapBoth_swaps : swapPends (exec (.cmd swapBoth) releasing) = false := by decide +kernel

/-! ## The statement -/

/-- What lasts of a group through a collector event includes its pending swap. -/
theorem quiet_swap {s t : State} (h : Quiet s t) (g : Fin 4) : (t.grp.get g).swap = (s.grp.get g).swap := by
  have e : t.grp.mapIdx (fun _ => GroupSt.still) = s.grp.mapIdx (fun _ => GroupSt.still) := (congrArg State.grp h.1 :)
  have eg : (t.grp.get g).still = (s.grp.get g).still := by simpa only [Quad.get_mapIdx] using congrArg (Quad.get · g) e
  exact (congrArg GroupSt.swap eg :)

/-- Refutes O32, in its last clause: the effect of one named group's swap on another named group. `askSwaps` takes the groups in
order, and the swap of group 0 takes effect at once, with a held write that unbinds the loaf of group 1. Group 1, whose loaf ran when
the packet arrived, then binds none, so its swap does not stay pending. The model keeps in `held` whatever it is given; the writes
that region C itself holds are of class A, which no binding is (R303). -/
theorem not_dataPackets : ¬ Obligations.DataPackets := by
  rintro ⟨-, -, -, -, hcmd⟩
  obtain ⟨u, -, ⟨t, ht, hq⟩, -, -, -, -, hs⟩ := hcmd swapBoth releasing _ _ swapBoth_arrives swapBoth_words
  have hu : (u.grp.get 1).swap = true := hs (by decide +kernel) (by decide +kernel) 1 (by decide +kernel) releasing_runs
  have hp : swapPends (exec (.cmd swapBoth) releasing) = true := by
    rw [ht]
    exact (quiet_swap hq 1).trans hu
  rw [swapBoth_swaps] at hp
  exact Bool.false_ne_true hp

end Sys2Proof
end

section
/-! Which block an arbiter grants (R41, R42): one that requests, wherever one requests. -/

namespace Sys2Proof.Machine

open Sys2Proof

/-- The greatest of a list's values and one found before, as `Arb.grant` finds the top deficit. -/
def topOf (f : Nat → Int) (m : Option Int) (b : Nat) : Option Int :=
  match m with
  | none => some (f b)
  | some v => some (max v (f b))

/-- The greatest value is the one found before or a value of the list. -/
theorem foldl_topOf_some (f : Nat → Int) (l : List Nat) (v : Int) :
    ∃ w, l.foldl (topOf f) (some v) = some w ∧ (w = v ∨ ∃ b ∈ l, w = f b) := by
  induction l generalizing v with
  | nil => exact ⟨v, rfl, .inl rfl⟩
  | cons b l ih =>
    obtain ⟨w, hw, hv⟩ := ih (max v (f b))
    refine ⟨w, hw, ?_⟩
    rcases hv with hv | ⟨c, hc, hv⟩
    · rcases max_choice v (f b) with hm | hm
      · exact .inl (hv.trans hm)
      · exact .inr ⟨b, List.mem_cons_self, hv.trans hm⟩
    · exact .inr ⟨c, List.mem_cons_of_mem b hc, hv⟩

/-- The greatest value of a list that is not empty is attained in it. -/
theorem foldl_topOf_attained (f : Nat → Int) {l : List Nat} (h : l ≠ []) : ∃ b ∈ l, l.foldl (topOf f) none = some (f b) := by
  obtain ⟨a, l', rfl⟩ := List.exists_cons_of_ne_nil h
  obtain ⟨w, hw, rfl | ⟨b, hb, rfl⟩⟩ := foldl_topOf_some f l' (f a)
  · exact ⟨a, List.mem_cons_self, hw⟩
  · exact ⟨b, List.mem_cons_of_mem a hb, hw⟩

/-- The deficits of a slot (the pseudocode before R41). -/
def Arb.deficits (a : Arb) (n : Nat) (req : Nat → Bool) : List Int :=
  (List.range n).map (fun b => if req b then a.deficit.getD b 0 + 1 else 0)
/-- The requesting blocks whose deficit is the highest. -/
def Arb.best (a : Arb) (n : Nat) (req : Nat → Bool) : List Nat :=
  ((List.range n).filter req).filter (fun b => decide
    (((List.range n).filter req).foldl (topOf fun b => (a.deficits n req).getD b 0) none = some ((a.deficits n req).getD b 0)))

theorem Arb.grant_eq (a : Arb) (n : Nat) (req : Nat → Bool) : a.grant n req =
    (((a.best n req).find? (fun b => decide (a.ptr ≤ b))).or (a.best n req).head?).map (fun b =>
      (b, { deficit := (a.deficits n req).set b ((a.deficits n req).getD b 0 - (((List.range n).filter req).length : Int)),
            ptr := if 2 ≤ (a.best n req).length then (b + 1) % n else a.ptr })) := by
  have hpick : ∀ o : Option Nat, (match o with
      | some b => some b
      | none => (a.best n req).head?) = o.or (a.best n req).head? := fun o => by cases o <;> rfl
  rw [← hpick]
  rfl

theorem Arb.best_ne_nil (a : Arb) {n b : Nat} {req : Nat → Bool} (hb : b < n) (hr : req b = true) : a.best n req ≠ [] := by
  have hasks : (List.range n).filter req ≠ [] :=
    List.ne_nil_of_mem (List.mem_filter.mpr ⟨List.mem_range.mpr hb, hr⟩)
  obtain ⟨c, hc, htop⟩ := foldl_topOf_attained (fun b => (a.deficits n req).getD b 0) hasks
  exact List.ne_nil_of_mem (List.mem_filter.mpr ⟨hc, decide_eq_true htop⟩)

theorem Arb.mem_best {a : Arb} {n b : Nat} {req : Nat → Bool} (h : b ∈ a.best n req) : b < n ∧ req b = true := by
  obtain ⟨hb, -⟩ := List.mem_filter.mp h
  obtain ⟨hn, hr⟩ := List.mem_filter.mp hb
  exact ⟨List.mem_range.mp hn, hr⟩

/-- What is granted requests. -/
theorem Arb.grant_requests {a a' : Arb} {n b : Nat} {req : Nat → Bool} (h : a.grant n req = some (b, a')) : b < n ∧ req b = true := by
  rw [Arb.grant_eq] at h
  obtain ⟨c, hc, he⟩ := Option.map_eq_some_iff.mp h
  obtain rfl : c = b := congrArg Prod.fst he
  rcases Option.or_eq_some_iff.mp hc with hc | ⟨-, hc⟩
  · exact Arb.mem_best (List.mem_of_find?_eq_some hc)
  · exact Arb.mem_best (List.mem_of_mem_head? hc)

/-- A slot in which something requests is granted. -/
theorem Arb.grant_of_request (a : Arb) {n b : Nat} {req : Nat → Bool} (hb : b < n) (hr : req b = true) :
    ∃ c a', a.grant n req = some (c, a') := by
  obtain ⟨c, l, hl⟩ := List.exists_cons_of_ne_nil (a.best_ne_nil hb hr)
  rw [Arb.grant_eq, hl]
  cases (c :: l).find? (fun b => decide (a.ptr ≤ b)) with
  | none => exact ⟨c, _, rfl⟩
  | some d => exact ⟨d, _, rfl⟩

/-- A slot in which nothing requests is not. -/
theorem Arb.grant_none (a : Arb) {n : Nat} {req : Nat → Bool} (h : ∀ b, req b = false) : a.grant n req = none := by
  cases hg : a.grant n req with
  | none => rfl
  | some g => exact absurd (Arb.grant_requests hg).2 (by simp [h])

end Sys2Proof.Machine
end

section
/-! What leaves at a grant slot of Peel (R31 to R33, R35, R40; O30). -/

namespace Sys2Proof.Machine

open Sys2Proof

/-! ## The order of the waiting packets -/

theorem pktRank_congr {p q : Packet} (h : p.clsTyp = q.clsTyp) : pktRank p = pktRank q := by
  unfold pktRank pktCls
  rw [h]

theorem pktRank_lt (p : Packet) : pktRank p < 5 := by
  unfold pktRank
  split_ifs <;> decide

/-- The rank a slot sends: the least of the packets that may leave. -/
def readyRank (l : List (Nat × Packet × Nat)) : Nat := l.foldl (fun m w => min m (pktRank w.2.1)) 5

theorem foldl_pktRank_le (l : List (Nat × Packet × Nat)) (m : Nat) :
    l.foldl (fun m w => min m (pktRank w.2.1)) m ≤ m ∧ ∀ w ∈ l, l.foldl (fun m w => min m (pktRank w.2.1)) m ≤ pktRank w.2.1 := by
  induction l generalizing m with
  | nil => exact ⟨le_rfl, fun _ h => absurd h List.not_mem_nil⟩
  | cons a l ih =>
    obtain ⟨hm, hl⟩ := ih (min m (pktRank a.2.1))
    refine ⟨hm.trans (min_le_left _ _), fun w hw => ?_⟩
    rcases List.mem_cons.mp hw with rfl | hw
    · exact hm.trans (min_le_right _ _)
    · exact hl w hw

theorem foldl_pktRank_attained (l : List (Nat × Packet × Nat)) (m : Nat) :
    l.foldl (fun m w => min m (pktRank w.2.1)) m = m ∨ ∃ w ∈ l, l.foldl (fun m w => min m (pktRank w.2.1)) m = pktRank w.2.1 := by
  induction l generalizing m with
  | nil => exact .inl rfl
  | cons a l ih =>
    rw [List.foldl_cons]
    rcases ih (min m (pktRank a.2.1)) with h | ⟨w, hw, h⟩
    · rcases min_choice m (pktRank a.2.1) with hm | hm
      · exact .inl (h.trans hm)
      · exact .inr ⟨a, List.mem_cons_self, h.trans hm⟩
    · exact .inr ⟨w, List.mem_cons_of_mem a hw, h⟩

theorem readyRank_le {l : List (Nat × Packet × Nat)} {w : Nat × Packet × Nat} (h : w ∈ l) : readyRank l ≤ pktRank w.2.1 :=
  (foldl_pktRank_le l 5).2 w h

theorem readyRank_attained {l : List (Nat × Packet × Nat)} (h : l ≠ []) : ∃ w ∈ l, pktRank w.2.1 = readyRank l := by
  rcases foldl_pktRank_attained l 5 with h5 | ⟨w, hw, hr⟩
  · obtain ⟨w, l', rfl⟩ := List.exists_cons_of_ne_nil h
    have hle := (foldl_pktRank_le (w :: l') 5).2 w List.mem_cons_self
    have hlt := pktRank_lt w.2.1
    omega
  · exact ⟨w, hw, hr.symm⟩

/-- The packets of the rank a slot sends. -/
def readyLevel (l : List (Nat × Packet × Nat)) : List (Nat × Packet × Nat) := l.filter (fun w => pktRank w.2.1 == readyRank l)

theorem mem_readyLevel {l : List (Nat × Packet × Nat)} {w : Nat × Packet × Nat} :
    w ∈ readyLevel l ↔ w ∈ l ∧ pktRank w.2.1 = readyRank l := by
  rw [readyLevel, List.mem_filter, beq_iff_eq]

theorem readyLevel_ne_nil {l : List (Nat × Packet × Nat)} (h : l ≠ []) : readyLevel l ≠ [] := by
  obtain ⟨w, hw, hr⟩ := readyRank_attained h
  exact List.ne_nil_of_mem (mem_readyLevel.mpr ⟨hw, hr⟩)

/-! ## The packet chosen -/

/-- The first of the level where the region takes them in order, else one of the source the arbiter grants. -/
theorem State.peelChoose_cases (s : State) (r : Region) :
    s.peelChoose r = (readyLevel (s.peelReady r)).head?.map (fun w => (w, (s.peel r).arb))
    ∨ s.peelChoose r = ((s.peel r).arb.grant (arbSources r) (fun b => (readyLevel (s.peelReady r)).any (fun w => w.1 == b))).bind
        (fun g => ((readyLevel (s.peelReady r)).find? (fun w => w.1 == g.1)).map (fun w => (w, g.2))) := by
  unfold State.peelChoose
  extract_lets ready rank level e
  have hlevel : level = readyLevel (s.peelReady r) := rfl
  rw [← hlevel]
  clear_value level
  split_ifs
  · exact .inl rfl
  · refine .inr ?_
    cases e.arb.grant (arbSources r) (fun b => level.any (fun w => w.1 == b)) <;> rfl

theorem State.peelChoose_of_nil {s : State} {r : Region} (h : s.peelReady r = []) : s.peelChoose r = none := by
  rcases s.peelChoose_cases r with hc | hc <;> rw [hc, h]
  · rfl
  · have hg := (s.peel r).arb.grant_none (n := arbSources r) (req := fun b => (readyLevel []).any (fun w => w.1 == b)) (fun _ => rfl)
    rw [hg]
    rfl

/-- Where packets may leave, one of the least rank is chosen. -/
theorem State.peelChoose_of_ready {s : State} {r : Region} (h : s.peelReady r ≠ []) (hsrc : ∀ w ∈ s.peelReady r, w.1 < arbSources r) :
    ∃ w a, s.peelChoose r = some (w, a) ∧ w ∈ s.peelReady r ∧ ∀ v ∈ s.peelReady r, pktRank w.2.1 ≤ pktRank v.2.1 := by
  suffices hw : ∃ w a, s.peelChoose r = some (w, a) ∧ w ∈ readyLevel (s.peelReady r) by
    obtain ⟨w, a, hc, hl⟩ := hw
    obtain ⟨hm, hr⟩ := mem_readyLevel.mp hl
    exact ⟨w, a, hc, hm, fun v hv => hr ▸ readyRank_le hv⟩
  obtain ⟨w, l, hl⟩ := List.exists_cons_of_ne_nil (readyLevel_ne_nil h)
  have hw : w ∈ readyLevel (s.peelReady r) := hl ▸ List.mem_cons_self
  rcases s.peelChoose_cases r with hc | hc
  · exact ⟨w, (s.peel r).arb, by rw [hc, hl]; rfl, hw⟩
  · have hany : (readyLevel (s.peelReady r)).any (fun v => v.1 == w.1) = true := List.any_eq_true.mpr ⟨w, hw, beq_self_eq_true _⟩
    obtain ⟨b, a, hg⟩ := (s.peel r).arb.grant_of_request (hsrc w (mem_readyLevel.mp hw).1)
      (req := fun b => (readyLevel (s.peelReady r)).any (fun w => w.1 == b)) hany
    obtain ⟨v, hv, hb⟩ := List.any_eq_true.mp (Arb.grant_requests hg).2
    obtain ⟨u, hu⟩ := Option.isSome_iff_exists.mp (List.find?_isSome (p := fun w => w.1 == b) |>.mpr ⟨v, hv, hb⟩)
    exact ⟨u, a, by rw [hc, hg, Option.bind_some, hu]; rfl, List.mem_of_find?_eq_some hu⟩

/-! ## The packet as it goes on the link -/

@[simp] theorem State.peelForm_clsTyp (s : State) (r : Region) (n : Nat) (p : Packet) : (s.peelForm r n p).clsTyp = p.clsTyp := rfl
/-- The bytes a CRC runs over do not hold it. -/
theorem pktBody_pktSeal (p : Packet) : pktBody (pktSeal p) = pktBody p := by simp only [pktBody, pktSeal]
theorem State.peelForm_crc (s : State) (r : Region) (n : Nat) (p : Packet) :
    (s.peelForm r n p).crc = crc16 (pktBody (s.peelForm r n p)) := by
  unfold State.peelForm
  rw [pktBody_pktSeal]
  unfold pktSeal
  rfl
@[simp] theorem State.peelForm_seq (s : State) (r : Region) (n : Nat) (p : Packet) : (s.peelForm r n p).seq = BitVec.ofNat 8 n := rfl
@[simp] theorem State.peelForm_ackseq (s : State) (r : Region) (n : Nat) (p : Packet) :
    (s.peelForm r n p).ackseq = BitVec.ofNat 8 (s.peel r).expect := rfl
/-- The account of a traffic row is kept beside the window. -/
theorem PeelEnd.bwAdd_window (e : PeelEnd) (now : Nat) (p : Packet) :
    (e.bwAdd now p).unacked = e.unacked ∧ (e.bwAdd now p).nextSeq = e.nextSeq ∧ (e.bwAdd now p).resend = e.resend := by
  unfold PeelEnd.bwAdd
  exact ⟨rfl, rfl, rfl⟩
/-- A packet put on the link leaves the window as it was, and carries the acknowledgement due. -/
theorem State.peelPut_peel (s : State) (r : Region) (p : Packet) : ∃ e : PeelEnd, (s.peelPut r p).peel r = e ∧ e.sent = some p
    ∧ e.ackDue = false ∧ e.unacked = (s.peel r).unacked ∧ e.nextSeq = (s.peel r).nextSeq ∧ e.resend = (s.peel r).resend :=
  ⟨_, State.peel_modPeel_same s r _, rfl, rfl, (s.peel r).bwAdd_window s.time.now p⟩
@[simp] theorem State.peelPut_rd (s : State) (r : Region) (p : Packet) (a : Nat) : (s.peelPut r p).rd a = s.rd a := State.modPeel_rd s r _ a
@[simp] theorem State.modOven_peel (s : State) (n : Fin 4) (f : OvenSt → OvenSt) (r : Region) : (s.modOven n f).peel r = s.peel r := by
  cases r <;> rfl

/-- A waiting packet that leaves carries the acknowledgement, and is unacknowledged from then on where it is sequenced. -/
theorem State.peelFirst_peel (s : State) (r : Region) (w : Nat × Packet × Nat) {q : Packet} (hq : q = s.peelForm r (s.peel r).nextSeq w.2.1) :
    ((s.peelFirst r w).peel r).sent = some q ∧ ((s.peelFirst r w).peel r).ackDue = false
    ∧ (pktSequenced q = true → ((s.peelFirst r w).peel r).unacked = (s.peel r).unacked ++ [q]
      ∧ ((s.peelFirst r w).peel r).nextSeq = ((s.peel r).nextSeq + 1) % 256) := by
  subst hq
  unfold State.peelFirst
  extract_lets q s1 s2
  have h1 : (s1.peel r).unacked = (s.peel r).unacked ∧ (s1.peel r).nextSeq = (s.peel r).nextSeq := by
    unfold s1
    split <;> simp
  have h2 : (s2.peel r).unacked = (s.peel r).unacked ∧ (s2.peel r).nextSeq = (s.peel r).nextSeq := by
    unfold s2
    split
    · simp only [State.peel_modPeel_same, h1, and_self]
    · exact h1
  clear_value s2
  obtain ⟨e, he, hsent, hack, hunacked, hnext, -⟩ := s2.peelPut_peel r q
  rw [State.peel_modPeel_same, he]
  by_cases hs : pktSequenced q = true
  · rw [if_pos hs]
    exact ⟨hsent, hack, fun _ => ⟨congrArg (· ++ [q]) (hunacked.trans h2.1), congrArg (fun n => (n + 1) % 256) (hnext.trans h2.2)⟩⟩
  · rw [if_neg hs]
    refine ⟨?_, ?_, fun h => absurd h hs⟩
    · split
      · exact hsent
      · exact hsent
    · split
      · exact hack
      · exact hack

/-- A retransmission is the next packet of the list again, counted. -/
theorem State.peelResend_peel (s : State) (r : Region) (p : Packet) :
    ((s.peelResend r p).peel r).resend = (s.peel r).resend.drop 1 ∧ ((s.peelResend r p).peel r).unacked = (s.peel r).unacked
    ∧ ((s.peelResend r p).peel r).sent = some (s.peelForm r p.seq.toNat p) := by
  unfold State.peelResend
  extract_lets q first
  obtain ⟨e, he, hsent, -, hunacked, -, hresend⟩ := s.peelPut_peel r q
  rw [State.bumpOpen_peel, State.peel_modPeel_same, he]
  exact ⟨congrArg (List.drop 1) hresend, hunacked, hsent⟩

theorem State.peelResend_counted {s : State} (r : Region) (p : Packet) (h : s.rd Obj.peelRetx < 0xFFFFFFFF) :
    (s.peelResend r p).rd Obj.peelRetx = s.rd Obj.peelRetx + 1 := by
  unfold State.peelResend
  extract_lets q first
  have hr : ∀ f, ((s.peelPut r q).modPeel r f).rd Obj.peelRetx = s.rd Obj.peelRetx := fun f => by
    rw [State.modPeel_rd, State.peelPut_rd]
  rw [State.rd_bumpOpen_same _ (by rw [hr]; exact h), hr]

/-! ## The slot, case by case -/

/-- No `NAK` leaves: none is due, or its row has no room. -/
def NoNak (s : State) (r : Region) : Prop := (s.peel r).nakDue = false ∨ s.bwRoom r (pkt .nak []) = false

theorem State.peelGrant_nak {s : State} {r : Region} (hd : (s.peel r).nakDue = true) (hb : s.bwRoom r (pkt .nak []) = true) :
    s.peelGrant r = (s.peelPut r (s.peelForm r (s.peel r).nextSeq (pkt .nak []))).modPeel r (fun x => { x with nakDue := false }) :=
  if_pos (by rw [hd, hb]; rfl)

theorem State.peelGrant_noNak {s : State} {r : Region} (h : NoNak s r) :
    s.peelGrant r = match (s.peel r).resend with
      | p :: _ => if s.bwRoom r p then s.peelResend r p else s.peelIdle r
      | [] => match s.peelChoose r with
        | some c => (s.modPeel r (fun x => { x with arb := c.2 })).peelFirst r c.1
        | none => s.peelIdle r := by
  refine (if_neg ?_).trans ?_
  · rcases h with h | h <;> simp [h]
  · rfl

/-- What is to be resent leaves next, where its row has room. -/
theorem State.peelGrant_resend {s : State} {r : Region} {p : Packet} {rest : List Packet} (h : NoNak s r) (hl : (s.peel r).resend = p :: rest)
    (hb : s.bwRoom r p = true) : s.peelGrant r = s.peelResend r p := by
  rw [State.peelGrant_noNak h, hl]
  exact if_pos hb

/-- Then the packet chosen. -/
theorem State.peelGrant_choose {s : State} {r : Region} {w : Nat × Packet × Nat} {a : Arb} (h : NoNak s r) (hl : (s.peel r).resend = [])
    (hc : s.peelChoose r = some (w, a)) : s.peelGrant r = (s.modPeel r (fun x => { x with arb := a })).peelFirst r w := by
  rw [State.peelGrant_noNak h, hl, hc]

/-- Nothing else leaves. -/
theorem State.peelGrant_idle {s : State} {r : Region} (h : NoNak s r)
    (hn : ((s.peel r).resend = [] ∧ s.peelReady r = []) ∨ ∃ p rest, (s.peel r).resend = p :: rest ∧ s.bwRoom r p = false) :
    s.peelGrant r = s.peelIdle r := by
  rw [State.peelGrant_noNak h]
  rcases hn with ⟨hl, hr⟩ | ⟨p, rest, hl, hb⟩
  · rw [hl, State.peelChoose_of_nil hr]
  · rw [hl]
    exact if_neg (by simp [hb])

theorem State.peelIdle_due {s : State} {r : Region} (hd : (s.peel r).ackDue = true) (hb : s.bwRoom r (pkt .ack []) = true) :
    s.peelIdle r = s.peelPut r (s.peelForm r (s.peel r).nextSeq (pkt .ack [])) := if_pos (by rw [hd, hb]; rfl)
theorem State.peelIdle_still {s : State} {r : Region} (h : (s.peel r).ackDue = false ∨ s.bwRoom r (pkt .ack []) = false) :
    s.peelIdle r = s := by
  refine if_neg ?_
  rcases h with h | h <;> simp [h]

end Sys2Proof.Machine

namespace Sys2Proof

open Sys2Proof.Machine

/-- Settles O30, case by case of what a grant slot finds: a `NAK` due, a list to resend, packets that may leave, nothing of these. -/
theorem grantOrder : Obligations.GrantOrder := by
  intro r s htrained hup
  refine ⟨s.peelGrant r, if_pos (by rw [htrained, hup]; rfl), fun hd hb => ?_, fun p rest hn hl hb => ?_, fun hn hl hr hsrc => ?_,
    fun hn hnone => ?_⟩
  · obtain ⟨e, he, hsent, -, hunacked, -, -⟩ := s.peelPut_peel r (s.peelForm r (s.peel r).nextSeq (pkt .nak []))
    rw [State.peelGrant_nak hd hb, State.peel_modPeel_same, he]
    exact ⟨rfl, hunacked, _, hsent, State.peelForm_clsTyp .., State.peelForm_ackseq ..⟩
  · rw [State.peelGrant_resend hn hl hb]
    obtain ⟨hresend, hunacked, hsent⟩ := s.peelResend_peel r p
    exact ⟨by rw [hresend, hl]; rfl, s.peelResend_counted r p, hunacked, _, hsent, State.peelForm_clsTyp .., State.peelForm_seq ..,
      State.peelForm_crc ..⟩
  · obtain ⟨w, a, hc, hw, hmin⟩ := State.peelChoose_of_ready hr hsrc
    rw [State.peelGrant_choose hn hl hc]
    obtain ⟨hsent, hack, hseq⟩ := (s.modPeel r (fun x => { x with arb := a })).peelFirst_peel r w rfl
    rw [State.peel_modPeel_same] at hseq hsent
    refine ⟨_, hsent, ⟨w, hw, rfl⟩, fun v hv => ?_, State.peelForm_crc .., hack, hseq⟩
    rw [pktRank_congr (State.peelForm_clsTyp _ _ _ _)]
    exact hmin v hv
  · rw [State.peelGrant_idle hn hnone]
    refine ⟨fun hd hb => ?_, fun h => State.peelIdle_still h⟩
    obtain ⟨e, he, hsent, hack, -⟩ := s.peelPut_peel r (s.peelForm r (s.peel r).nextSeq (pkt .ack []))
    rw [State.peelIdle_due hd hb, he]
    exact ⟨hack, _, hsent, State.peelForm_clsTyp ..⟩

end Sys2Proof
end

section
/-! The clear objects (O25): each has one row, no rule of a value or a state names it (R170), and a taken write of it clears its list. -/

namespace Sys2Proof.Machine

open Sys2Proof

/-! ## Objects that no rule of their own names -/

/-- Indices, as they stand or as unit 0 lists them, that a rule of R170 names by itself: of a range of its own, of a state, of a loaf
by value; and those whose write does more than store or clear. -/
def ruledIndices : List Nat :=
  [0x1001, 0x1005, 0x2000, 0x2001, 0x2002, 0x2003, 0x2800, 0x2801, 0x3006, 0x3008, 0x300F, 0x3015, 0x3517, 0x3801, 0x3802, 0x4000,
   0x4001, 0x4003, 0x4004, 0x5003, 0x5400, 0x5401, 0x5403, 0x5404, 0x5408, 0x5409, 0x540A, 0x6000, 0x6300, 0x8000, 0x8010, 0x8020,
   0x8401, 0x8402, 0x8410, 0x8411, 0x9000, 0x9010, 0x9020, 0x9021, 0x9031, 0xA000, 0xA005]

/-- No rule of R170 names the index. -/
def Unruled (idx : Nat) : Prop := idx ∉ ruledIndices ∧ baseIndex idx ∉ ruledIndices


theorem Unruled.ne {idx i : Nat} (h : Unruled idx) (hi : i ∈ ruledIndices) : idx ≠ i ∧ baseIndex idx ≠ i :=
  ⟨fun e => h.1 (e ▸ hi), fun e => h.2 (e ▸ hi)⟩

/-- What no rule names is refused in SAFE only, where it is no clear object. -/
theorem State.refusedState_unruled {s : State} {idx sub : Nat} {v : Int} (h : Unruled idx) (hc : isClear idx sub = true) :
    s.refusedState idx sub v = false := by
  unfold Unruled ruledIndices at h
  simp only [List.mem_cons, List.not_mem_nil, or_false, not_or] at h
  unfold State.refusedState
  simp [h, hc]

theorem State.namesAbsent_unruled {s : State} {idx sub : Nat} {v : Int} (h : Unruled idx) : s.namesAbsent idx sub v = false := by
  unfold Unruled ruledIndices at h
  simp only [List.mem_cons, List.not_mem_nil, or_false, not_or] at h
  unfold State.namesAbsent
  simp [h]

/-- What no rule names is in range where its row says so. -/
theorem State.inRange_unruled {s : State} {r : ObjRow} {idx sub : Nat} {v : Int} (h : Unruled idx) (hv : r.min ≤ v ∧ v ≤ r.max) :
    s.inRange r idx sub v = true := by
  unfold Unruled ruledIndices at h
  simp only [List.mem_cons, List.not_mem_nil, or_false, not_or] at h
  unfold State.inRange State.rangeOuter State.rangePwm State.rangeConv State.rangeFb State.rangeOven isTiming
  simp [h, hv]

/-! ## The clear objects -/

/-- The row of a clear object: a `U8` that takes 1. -/
def clearRow (a : Nat) : ObjRow := ⟨baseIndex (a / 0x100), a % 0x100, a % 0x100, .u8, .wo, .none, 0, 1, 1⟩

theorem clearRow_limits (a : Nat) : (clearRow a).min ≤ 1 ∧ 1 ≤ (clearRow a).max := ⟨Int.le_refl 1, Int.le_refl 1⟩
theorem clearRow_fits (a : Nat) : (clearRow a).ty.fits 1 := show (0 : Int) ≤ 1 ∧ (1 : Int) < 256 by decide

/-- The address of a clear object. -/
def ClearAt (a : Nat) : Prop :=
  a < 2 ^ 24 ∧ a % 0x100 ≠ 0 ∧ objRow (a / 0x100) (a % 0x100) = some (clearRow a) ∧ isClear (a / 0x100) (a % 0x100) = true
    ∧ Unruled (a / 0x100) ∧ readOnly (clearRow a) (a / 0x100) (a % 0x100) false = false

/-- The clear objects of the module, of each unit with counters of its own and of every converter. -/
def clearAddrs (n : Fin 4) (k : Fin 6) : List Nat :=
  [Obj.peelStatsClr, Obj.ignClr, Obj.cmdCntClr, Obj.streamCntClr, Obj.pwmCntClr n.val, Obj.tripCntClr, Obj.convCntClr k.val,
   Obj.fbCntClr n.val, Obj.ovenCntClr n.val, Obj.protCntClr n.val, Obj.logClr, Obj.injCntClr, Obj.ethCntClr, Obj.ppCntClr, Obj.mlCntClr]

theorem clearAt_clearAddrs : ∀ (n : Fin 4) (k : Fin 6), ∀ a ∈ clearAddrs n k, ClearAt a := by
  unfold ClearAt Unruled
  decide +kernel

/-- A module of a variant, which decides alone what objects there are. -/
def State.ofVariant (v : Variant) : State := { State.reset with variant := v }

theorem absent_clear_ofVariant (v : Variant) : ∀ (n : Fin 4) (k : Fin 6), (State.ofVariant v).has n.val = true →
    (State.ofVariant v).hasConv k.val = true → ∀ a ∈ clearAddrs n k, (State.ofVariant v).absent (a / 0x100) (a % 0x100) = false := by
  cases v with
  | f4 => decide +kernel
  | f2 => decide +kernel

/-- A unit the module has has its clear objects (R50, R51). -/
theorem State.absent_clear {s : State} {n : Fin 4} {k : Fin 6} (hn : s.has n.val = true) (hk : s.hasConv k.val = true) {a : Nat}
    (ha : a ∈ clearAddrs n k) : s.absent (a / 0x100) (a % 0x100) = false :=
  absent_clear_ofVariant s.variant n k hn hk a ha

/-- Nothing but absence keeps a clear object from being written. -/
theorem State.reasonFor_clear {s : State} {a : Nat} (h : ClearAt a) (hp : s.absent (a / 0x100) (a % 0x100) = false) :
    s.reasonFor (clearRow a) (a / 0x100) (a % 0x100) false (some 1) = 0 := by
  obtain ⟨-, -, -, hclear, hunruled, hro⟩ := h
  have hrange : s.inRange (clearRow a) (a / 0x100) (a % 0x100) 1 = true := State.inRange_unruled hunruled (clearRow_limits a)
  have hcls : (clearRow a).cls ≠ .b := nofun
  unfold State.reasonFor
  simp [hp, hro, State.namesAbsent_unruled hunruled, State.refusedState_unruled hunruled hclear, hrange, hcls]

theorem taken_clear {s : State} {a : Nat} (h : ClearAt a) (hk : s.askard = true) (hm : s.mode ≠ .boot)
    (hp : s.absent (a / 0x100) (a % 0x100) = false) : Taken a 1 s := by
  have hreason := State.reasonFor_clear h hp
  obtain ⟨hlt, hsub, hrow, -, -, -⟩ := h
  refine ⟨hk, hm, ⟨_, hrow, clearRow_limits a⟩, ?_⟩
  rw [judge_row s hlt hsub hrow (clearRow_fits a)]
  exact hreason

/-! ## What a taken write clears -/

theorem baseIndex_openCmp : ∀ n : Fin 4, baseIndex (0x2003 + 0x100 * n.val) = 0x2003 := by decide

/-- A taken write of a clear object clears its list, the volatile log's apart, and is on its way to region C where that holds it. -/
theorem hostWrite_clearAt {s : State} {a : Nat} (h : ClearAt a) (ht : Taken a 1 s) :
    s.hostWrite confSrc a 1 = ((s.writeWo confSrc (a / 0x100) (a % 0x100) 1).sends confSrc a 1).settle := by
  obtain ⟨hlt, hsub, hrow, -, hunruled, -⟩ := h
  have hopen : ∀ n : Fin 4, a / 0x100 ≠ 0x2003 + 0x100 * n.val := fun n e =>
    (hunruled.ne (by decide)).2 ((congrArg baseIndex e).trans (baseIndex_openCmp n))
  have hwo : s.takeWrite confSrc (clearRow a) (a / 0x100) (a % 0x100) 1 = s.writeWo confSrc (a / 0x100) (a % 0x100) 1 := rfl
  rw [hostWrite_taken confSrc ht hlt hsub hrow (fun _ _ => clearRow_fits a) hopen, hwo]

theorem State.writeWo_clear {s : State} {a : Nat} (h : Unruled (a / 0x100)) (hlog : a / 0x100 ≠ 0x6100) :
    s.writeWo confSrc (a / 0x100) (a % 0x100) 1 = s.clear (clearList (a / 0x100) (a % 0x100)) := by
  have hne := fun i hi => h.ne (i := i) hi
  unfold State.writeWo
  dsimp only
  rw [if_neg (hne 0x1001 (by decide)).1, if_neg hlog, if_neg (hne 0x4001 (by decide)).2, if_neg (hne 0x8402 (by decide)).1,
    if_neg (hne 0x9000 (by decide)).1, if_neg (hne 0x9020 (by decide)).1]

/-- A command that writes 1 to a clear object clears a list of counters. -/
theorem clears {c : Instr} {a : Nat} {l : List Nat} {s : State} (hc : exec c s = .next (s.hostWrite confSrc a 1)) (h : ClearAt a)
    (hlog : a / 0x100 ≠ 0x6100) (hl : clearList (a / 0x100) (a % 0x100) = l) (ht : Taken a 1 s) :
    ∃ t', exec c s = .next t' ∧ Quiet ((s.clear l).sends confSrc a 1) t' := by
  have ⟨_, _, _, _, hunruled, _⟩ := h
  rw [hc, hostWrite_clearAt h ht, State.writeWo_clear hunruled hlog, hl]
  exact ⟨_, rfl, State.settle_quiet _⟩

/-- One of region M sends nothing. -/
theorem clears_m {c : Instr} {a : Nat} {l : List Nat} {s : State} (hc : exec c s = .next (s.hostWrite confSrc a 1)) (h : ClearAt a)
    (hlog : a / 0x100 ≠ 0x6100) (hl : clearList (a / 0x100) (a % 0x100) = l) (hm : regionC (a / 0x100) = false) (ht : Taken a 1 s) :
    ∃ t', exec c s = .next t' ∧ Quiet (s.clear l) t' := by
  have ⟨hlt, _, hrow, _⟩ := h
  rw [← State.sends_m (src := confSrc) (v := 1) (s := s.clear l) hlt hrow hm]
  exact clears hc h hlog hl ht

/-- The lists of the clear objects that each unit has. -/
theorem clearList_unit : ∀ n : Fin 4,
    clearList (Obj.pwmCntClr n.val / 0x100) (Obj.pwmCntClr n.val % 0x100) = [Obj.lateCount n.val, Obj.cycleTrips n.val]
    ∧ clearList (Obj.fbCntClr n.val / 0x100) (Obj.fbCntClr n.val % 0x100)
      = [Obj.illegalCnt n.val, Obj.idxCnt n.val, Obj.slipCnt n.val, Obj.serErrCnt n.val] ++ (if n.val = 0 then [Obj.scAdj 0] else [])
    ∧ clearList (Obj.ovenCntClr n.val / 0x100) (Obj.ovenCntClr n.val % 0x100) = [Obj.heldFrames n.val, Obj.vlimFrames n.val]
    ∧ clearList (Obj.protCntClr n.val / 0x100) (Obj.protCntClr n.val % 0x100)
      = [Obj.ocPeak n.val, Obj.desatCount n.val, Obj.ocCount n.val, Obj.slopeCount n.val, Obj.openCount n.val] := by decide
theorem clearList_conv : ∀ k : Fin 6, clearList (Obj.convCntClr k.val / 0x100) (Obj.convCntClr k.val % 0x100)
    = [Obj.injOverrun k.val, Obj.lateSamples k.val, Obj.incomplete k.val] := by decide

/-- `LOG_CLR` empties the volatile log. -/
theorem clears_log {s : State} (h : ClearAt Obj.logClr) (ht : Taken Obj.logClr 1 s) :
    ∃ t', exec (.logClr 1) s = .next t' ∧ Quiet (s.modFlt (fun f => { f with vlog := [] })) t' := by
  have ⟨hlt, _, hrow, _⟩ := h
  have hc : exec (.logClr 1) s = .next (s.hostWrite confSrc Obj.logClr 1) := rfl
  have hwo : s.writeWo confSrc (Obj.logClr / 0x100) (Obj.logClr % 0x100) 1 = s.modFlt (fun f => { f with vlog := [] }) := rfl
  rw [hc, hostWrite_clearAt h ht, hwo, State.sends_m hlt hrow (by decide)]
  exact ⟨_, rfl, State.settle_quiet _⟩

end Sys2Proof.Machine

namespace Sys2Proof

open Sys2Proof.Machine

/-- Settles O25: the rows and lists of the clear objects, each with the one lemma of what its write does. -/
theorem clearObjects : Obligations.ClearObjects := by
  refine ⟨fun n k s => ?_, fun n k s hk hm hn hc a ha => taken_clear (clearAt_clearAddrs n k a ha) hk hm (State.absent_clear hn hc ha)⟩
  have hat := clearAt_clearAddrs n k
  simp only [clearAddrs, List.forall_mem_cons] at hat
  obtain ⟨hpeel, hign, hcmd, hstream, hpwm, htrip, hconv, hfb, hoven, hprot, hlog, hinj, heth, hpp, hml, -⟩ := hat
  obtain ⟨lpwm, lfb, loven, lprot⟩ := clearList_unit n
  have npwm : Obj.pwmCntClr n.val / 0x100 ≠ 0x6100 := by unfold Obj.pwmCntClr; omega
  have nconv : Obj.convCntClr k.val / 0x100 ≠ 0x6100 := by unfold Obj.convCntClr; omega
  have nfb : Obj.fbCntClr n.val / 0x100 ≠ 0x6100 := by unfold Obj.fbCntClr; omega
  have noven : Obj.ovenCntClr n.val / 0x100 ≠ 0x6100 := by unfold Obj.ovenCntClr; omega
  have nprot : Obj.protCntClr n.val / 0x100 ≠ 0x6100 := by unfold Obj.protCntClr; omega
  exact ⟨clears_m rfl hpeel (by decide) (by decide) rfl, clears_m rfl hign (by decide) (by decide) rfl,
    clears_m rfl hcmd (by decide) (by decide) rfl, clears_m rfl hstream (by decide) (by decide) rfl, clears rfl hpwm npwm lpwm,
    clears rfl htrip (by decide) (by decide), clears rfl hconv nconv (clearList_conv k), clears rfl hfb nfb lfb,
    clears rfl hoven noven loven, clears rfl hprot nprot lprot, clears_log hlog, clears_m rfl hinj (by decide) (by decide) rfl,
    clears_m rfl heth (by decide) (by decide) rfl, clears_m rfl hpp (by decide) (by decide) rfl,
    clears_m rfl hml (by decide) (by decide) rfl⟩

end Sys2Proof
end

section
/-! The arbiter of the datapath (R41): of what a boundary completed late runs (R270, R282), nothing takes a grant slot. -/

namespace Sys2Proof.Machine

open Sys2Proof

/-! ## What every event keeps -/

theorem quiet_ovenArb {s t : State} (h : Quiet s t) : t.ovenArb = s.ovenArb := (congrArg State.ovenArb h.1 :)

theorem forAll_ovenArb {α : Type} {f : α → State → State} (hf : ∀ a x, (f a x).ovenArb = x.ovenArb) (l : List α) (s : State) :
    (forAll l f s).ovenArb = s.ovenArb := by
  unfold forAll
  induction l generalizing s with
  | nil => rfl
  | cons a l ih => exact (ih (f a s)).trans (hf a s)

@[simp] theorem State.latch_ovenArb (s : State) (code inst : Half) (data : Int) : (s.latch code inst data).ovenArb = s.ovenArb :=
  quiet_ovenArb (State.latch_mild quiet_mild (quiet_refl s))
@[simp] theorem State.loafTo_ovenArb (s : State) (n : Fin 4) (st : LoafState) : (s.loafTo n st).ovenArb = s.ovenArb :=
  quiet_ovenArb (State.loafTo_mild quiet_mild (quiet_refl s))
@[simp] theorem State.groupStopped_ovenArb (s : State) (g : Fin 4) (b : Bool) : (s.groupStopped g b).ovenArb = s.ovenArb :=
  quiet_ovenArb (State.groupStopped_mild quiet_mild (quiet_refl s))
@[simp] theorem State.groupsBare_ovenArb (s : State) : s.groupsBare.ovenArb = s.ovenArb := quiet_ovenArb (State.groupsBare_mild quiet_mild (quiet_refl s))
@[simp] theorem State.brakesOff_ovenArb (s : State) : s.brakesOff.ovenArb = s.ovenArb := quiet_ovenArb (State.brakesOff_mild quiet_mild (quiet_refl s))
@[simp] theorem State.releaseRole_ovenArb (s : State) (b : Bool) : (s.releaseRole b).ovenArb = s.ovenArb :=
  quiet_ovenArb (State.releaseRole_mild quiet_mild (quiet_refl s))
@[simp] theorem State.fbFollow_ovenArb (s : State) : s.fbFollow.ovenArb = s.ovenArb := quiet_ovenArb (State.fbFollow_mild quiet_mild (quiet_refl s))
@[simp] theorem State.bump_ovenArb (s : State) (a : Nat) : (s.bump a).ovenArb = s.ovenArb := by
  unfold State.bump State.bumpTo
  split <;> rfl
@[simp] theorem State.wrs_ovenArb (s : State) (ws : List (Nat × Int)) : (s.wrs ws).ovenArb = s.ovenArb := by
  unfold State.wrs
  induction ws generalizing s with
  | nil => rfl
  | cons w ws ih => exact (ih _).trans (State.wr_ovenArb s w.1 w.2)

/-! ## Groups (R282, R293, R305) -/

@[simp] theorem State.noShares_ovenArb (g : Fin 4) (s : State) : (s.noShares g).ovenArb = s.ovenArb :=
  forAll_ovenArb (fun _ _ => by rfl) _ _
@[simp] theorem State.loafClose_ovenArb (n : Fin 4) (test : Bool) (s : State) : (s.loafClose n test).ovenArb = s.ovenArb :=
  State.loafTo_ovenArb s n .closed
@[simp] theorem State.runCheck_ovenArb (n : Fin 4) (i : Nat) (beyond : Bool) (count : Nat) (code : Half) (data : Int) (s : State) :
    (s.runCheck n i beyond count code data).ovenArb = s.ovenArb := by
  unfold State.runCheck
  extract_lets o r s1
  split_ifs
  · rfl
  · exact State.latch_ovenArb _ _ _ _
  · rfl
@[simp] theorem State.joinRun_ovenArb (n : Fin 4) (s : State) : (s.joinRun n).ovenArb = s.ovenArb := by
  unfold State.joinRun
  extract_lets l
  split_ifs
  · rfl
  · exact State.loafClose_ovenArb n false s
  · exact State.loafTo_ovenArb s n .off
  · rfl
@[simp] theorem State.groupStart_ovenArb (g : Fin 4) (s : State) : (s.groupStart g).ovenArb = s.ovenArb := by
  unfold State.groupStart
  extract_lets s0 st running s1
  have h0 : s0.ovenArb = s.ovenArb := by
    unfold s0
    split <;> rfl
  have h1 : s1.ovenArb = s.ovenArb := (State.modGrp_ovenArb s0 g _).trans h0
  split_ifs
  · exact h1
  · exact (forAll_ovenArb State.joinRun_ovenArb _ s1).trans h1
@[simp] theorem State.groupBegin_ovenArb (g : Fin 4) (s : State) : (s.groupBegin g).ovenArb = s.ovenArb := by
  unfold State.groupBegin
  extract_lets s1
  have h1 : s1.ovenArb = s.ovenArb := forAll_ovenArb State.joinRun_ovenArb _ _
  split_ifs
  · exact h1
  · exact h1
@[simp] theorem State.rotationEnd_ovenArb (g : Fin 4) (s : State) : (s.rotationEnd g).ovenArb = s.ovenArb := by
  unfold State.rotationEnd
  extract_lets x n travel revs short s1 s2
  have h2 : s2.ovenArb = s.ovenArb := rfl
  split_ifs
  · exact (State.latch_ovenArb _ _ _ _).trans h2
  · exact h2
@[simp] theorem State.rotationStep_ovenArb (g : Fin 4) (s : State) : (s.rotationStep g).ovenArb = s.ovenArb := by
  unfold State.rotationStep
  extract_lets x n d revs pos ofs s1 s2 s3
  split_ifs
  · rfl
  · rfl
  · exact State.rotationEnd_ovenArb g s3
  · rfl
@[simp] theorem State.polarityTest_ovenArb (g : Fin 4) (v : Int) (s : State) : (s.polarityTest g v).ovenArb = s.ovenArb := by
  unfold State.polarityTest
  extract_lets m
  split_ifs
  · rfl
  · rfl
  · exact State.latch_ovenArb _ _ _ _
@[simp] theorem State.starterStep_ovenArb (g : Fin 4) (s : State) : (s.starterStep g).ovenArb = s.ovenArb := by
  unfold State.starterStep
  extract_lets x ch st s1
  have h1 : s1.ovenArb = s.ovenArb := State.polarityTest_ovenArb g _ s
  split_ifs
  · rfl
  · exact h1
  · exact h1
  · rfl
  · rfl
  · rfl
  · exact State.rotationStep_ovenArb g s
  · rfl
@[simp] theorem State.hallHandover_ovenArb (g : Fin 4) (s : State) : (s.hallHandover g).ovenArb = s.ovenArb := by
  unfold State.hallHandover
  split
  · split <;> rfl
  · rfl
@[simp] theorem State.brakeDemand_ovenArb (g : Fin 4) (s : State) : (s.brakeDemand g).ovenArb = s.ovenArb := by
  unfold State.brakeDemand
  extract_lets s1
  split_ifs
  · exact State.brakesOff_ovenArb s1
  · rfl
@[simp] theorem State.groupStates_ovenArb (g : Fin 4) (s : State) : (s.groupStates g).ovenArb = s.ovenArb := by
  unfold State.groupStates
  extract_lets x s1 s2
  have h1 : s1.ovenArb = s.ovenArb := by
    unfold s1
    split_ifs
    · exact State.groupBegin_ovenArb g s
    · rfl
  have h2 : s2.ovenArb = s.ovenArb := (State.hallHandover_ovenArb g s1).trans h1
  split_ifs
  · exact h2
  · exact (State.starterStep_ovenArb g s2).trans h2
  · exact h2
  · exact h2
  · exact h2
  · exact (State.brakeDemand_ovenArb g s2).trans h2
  · exact (State.groupStopped_ovenArb s2 g true).trans h2
  · exact h2
@[simp] theorem State.bankSwap_ovenArb (g : Fin 4) (s : State) : (s.bankSwap g).ovenArb = s.ovenArb := by
  unfold State.bankSwap
  split
  · rfl
  · extract_lets newAct newSh s1 s2 s3
    have h2 : s2.ovenArb = s.ovenArb := forAll_ovenArb (f := fun a x => x.wr (a + newSh) (x.rd (a + newAct))) (fun _ _ => rfl) _ s1
    have h3 : s3.ovenArb = s.ovenArb :=
      (forAll_ovenArb (f := fun (w : Nat × Int) x => x.wr (w.1 + newSh) w.2) (fun _ _ => rfl) _ s2).trans h2
    exact (State.bump_ovenArb s3 _).trans h3
@[simp] theorem State.boundSwap_ovenArb (g : Fin 4) (s : State) : (s.boundSwap g).ovenArb = s.ovenArb := by
  unfold State.boundSwap
  split
  · exact State.bankSwap_ovenArb g s
  · rfl
@[simp] theorem State.renormalise_ovenArb (g : Fin 4) (s : State) : (s.renormalise g).ovenArb = s.ovenArb := by
  unfold State.renormalise
  extract_lets ns changed drag s1 raw cap full pct s2 s3 st
  have h2 : s2.ovenArb = s.ovenArb := by
    unfold s2
    rw [State.wr_ovenArb, State.wr_ovenArb, State.wr_ovenArb, State.wr_ovenArb, State.modGrp_ovenArb]
    exact State.modGrp_ovenArb s g _
  clear_value s2
  have h3 : s3.ovenArb = s.ovenArb := by
    unfold s3
    split
    · exact (State.wr_ovenArb s2 _ _).trans h2
    · exact h2
  clear_value s3
  split
  · exact (State.latch_ovenArb s3 _ _ _).trans h3
  · exact h3

/-! ## The outer loops of a group (R297 to R302, R315) -/

@[simp] theorem State.generator_ovenArb (g : Fin 4) (t : Rat) (s : State) : (s.generator g t).ovenArb = s.ovenArb := by
  unfold State.generator
  extract_lets x mode lim
  split_ifs
  · rfl
  · rfl
  · rfl
  · split <;> rfl
  · rfl
@[simp] theorem State.posLoop_ovenArb (g : Fin 4) (s : State) : (s.posLoop g).ovenArb = s.ovenArb := by
  unfold State.posLoop
  extract_lets x hold due
  split_ifs
  · rfl
  · rfl
  · rfl
@[simp] theorem State.tensionLoop_ovenArb (g : Fin 4) (t : Rat) (s : State) : (s.tensionLoop g t).ovenArb = s.ovenArb := by
  unfold State.tensionLoop
  extract_lets x aux mean f lim trim acts tt z vmax ref r smaller y bad run s1
  split
  · exact State.latch_ovenArb s1 _ _ _
  · rfl
@[simp] theorem State.mechCheck_ovenArb (g : Fin 4) (t : Rat) (n : Fin 4) (s : State) : (s.mechCheck g t n).ovenArb = s.ovenArb := by
  unfold State.mechCheck
  extract_lets st
  split
  · exact State.runCheck_ovenArb n 1 _ _ _ _ _
  · rfl
@[simp] theorem State.latchTarget_ovenArb (g : Fin 4) (s : State) : (s.latchTarget g).ovenArb = s.ovenArb := State.modGrp_ovenArb s g _
@[simp] theorem State.speedUpdate_ovenArb (g : Fin 4) (s : State) : (s.speedUpdate g).ovenArb = s.ovenArb := by
  unfold State.speedUpdate
  extract_lets t s2 x mode r s3 beyond s4 s5
  have h2 : s2.ovenArb = s.ovenArb := (State.posLoop_ovenArb g _).trans (State.generator_ovenArb g t s)
  have h3 : s3.ovenArb = s.ovenArb := by
    unfold s3
    split_ifs
    · exact (State.modGrp_ovenArb s2 g _).trans h2
    · exact (State.tensionLoop_ovenArb g t s2).trans h2
    · exact h2
  have h4 : s4.ovenArb = s.ovenArb := (State.modGrp_ovenArb s3 g _).trans h3
  have h5 : s5.ovenArb = s.ovenArb := by
    unfold s5
    split
    · exact (State.latch_ovenArb s4 _ _ _).trans h4
    · exact h4
  exact ((State.modGrp_ovenArb _ g _).trans (forAll_ovenArb (State.mechCheck_ovenArb g t) _ s5)).trans h5
@[simp] theorem State.groupFrame_ovenArb (g : Fin 4) (s : State) : (s.groupFrame g).ovenArb = s.ovenArb := by
  unfold State.groupFrame
  extract_lets x mode t l run target z s1 y slow stall blind fast hold s2
  have h1 : s1.ovenArb = s.ovenArb := by
    unfold s1
    split_ifs
    · exact State.modGrp_ovenArb s g _
    · exact State.modGrp_ovenArb s g _
    · rfl
  have h2 : s2.ovenArb = s.ovenArb := (State.modGrp_ovenArb s1 g _).trans h1
  split
  · exact (State.latch_ovenArb s2 _ _ _).trans h2
  · exact h2
@[simp] theorem State.split_ovenArb (g : Fin 4) (s : State) : (s.split g).ovenArb = s.ovenArb := by
  unfold State.split
  extract_lets ns need parts w s1 s2
  have h1 : s1.ovenArb = s.ovenArb := forAll_ovenArb (fun n x => by
    extract_lets
    rw [State.modOven_ovenArb, State.wr_ovenArb, State.wr_ovenArb]) _ s
  have h2 : s2.ovenArb = s.ovenArb := (State.modGrp_ovenArb s1 g _).trans h1
  split
  · exact ((State.wrs_ovenArb _ _).trans (State.modPair_ovenArb s2 _)).trans h2
  · exact h2

/-! ## The pair's mirror (R460, R470) -/

@[simp] theorem State.mirrorStates_ovenArb (g : Fin 4) (s : State) : (s.mirrorStates g).ovenArb = s.ovenArb := by
  unfold State.mirrorStates
  extract_lets started
  split
  · rfl
  · refine forAll_ovenArb (fun n x => ?_) _ s
    extract_lets l
    split_ifs
    · exact State.loafClose_ovenArb n false x
    · rfl
    · exact State.loafTo_ovenArb x n .off
    · rfl
@[simp] theorem State.mirrorApply_ovenArb (g : Fin 4) (s : State) : (s.mirrorApply g).ovenArb = s.ovenArb := by
  unfold State.mirrorApply
  extract_lets b q28 s1
  have h1 : s1.ovenArb = s.ovenArb := by
    unfold s1
    split
    · exact forAll_ovenArb (fun n x => by split <;> rfl) _ s
    · rfl
  exact (State.modGrp_ovenArb s1 g _).trans h1
@[simp] theorem State.followPartner_ovenArb (g : Fin 4) (s : State) : (s.followPartner g).ovenArb = s.ovenArb := by
  unfold State.followPartner
  extract_lets p st numbered
  have hn : ∀ x, (numbered x).ovenArb = x.ovenArb := fun x => State.modGrp_ovenArb x g _
  clear_value numbered
  split_ifs
  · rfl
  · exact (hn _).trans (State.groupStart_ovenArb g s)
  · exact hn s
  · exact State.modGrp_ovenArb s g _
  · exact State.groupStopped_ovenArb s g true
  · rfl

/-! ## The group boundary (R282) -/

@[simp] theorem State.groupBoundary_ovenArb (g : Fin 4) (s : State) : (s.groupBoundary g).ovenArb = s.ovenArb := by
  unfold State.groupBoundary
  extract_lets s0 s1 s2 r2 s3 up s4 s5 s6 x s7
  have h1 : s1.ovenArb = s.ovenArb := by
    unfold s1
    split
    · exact State.followPartner_ovenArb g s0
    · rfl
  have h2 : s2.ovenArb = s.ovenArb := by simp [s2, h1]
  have hr : r2.ovenArb = s.ovenArb := by
    unfold r2
    split
    · exact (State.mirrorStates_ovenArb g s2).trans h2
    · exact h2
  have h3 : s3.ovenArb = s.ovenArb := by
    unfold s3
    split
    · exact (State.mirrorApply_ovenArb g r2).trans hr
    · exact hr
  have hn : (s3.renormalise g).ovenArb = s.ovenArb := (State.renormalise_ovenArb g s3).trans h3
  have h4 : s4.ovenArb = s.ovenArb := by
    refine (State.groupFrame_ovenArb g _).trans ?_
    split
    · exact (State.latchTarget_ovenArb g _).trans hn
    · exact hn
  have h5 : s5.ovenArb = s.ovenArb := by
    unfold s5
    split
    · exact (State.speedUpdate_ovenArb g s4).trans h4
    · exact h4
  have h6 : s6.ovenArb = s.ovenArb := (State.split_ovenArb g s5).trans h5
  have h7 : s7.ovenArb = s.ovenArb := (State.wrs_ovenArb s6 _).trans h6
  split
  · rw [State.noShares_ovenArb, State.boundSwap_ovenArb, State.modGrp_ovenArb]
    exact h1
  · split
    · exact (State.noShares_ovenArb g s2).trans h2
    · split
      · exact (State.modGrp_ovenArb s7 g _).trans h7
      · exact h7
@[simp] theorem State.groupAt_ovenArb (n : Fin 4) (s : State) : (s.groupAt n).ovenArb = s.ovenArb := by
  unfold State.groupAt
  split
  · rfl
  next g _ =>
    split
    · extract_lets s1 s2 s3
      have h1 : s1.ovenArb = s.ovenArb := forAll_ovenArb (fun m x => by exact State.modLoaf_ovenArb x m _) _ s
      have h2 : s2.ovenArb = s.ovenArb := (State.groupBoundary_ovenArb g s1).trans h1
      have h3 : s3.ovenArb = s.ovenArb := by
        unfold s3
        split
        · exact (State.releaseRole_ovenArb _ true).trans h2
        · exact h2
      exact h3
    · rfl
theorem State.asCut_ovenArb (g : Fin 4) (c : GroupCut) (s : State) : (s.asCut g c).ovenArb = s.ovenArb :=
  (forAll_ovenArb (fun m x => by exact State.modLoaf_ovenArb x m _) _ _).trans (State.modGrp_ovenArb s g _)
theorem State.afterCut_ovenArb (g : Fin 4) (c : GroupCut) (r s : State) : (State.afterCut g c r s).ovenArb = s.ovenArb := by
  unfold State.afterCut
  extract_lets y
  refine (forAll_ovenArb (fun m x => ?_) _ _).trans (State.modGrp_ovenArb s g _)
  split
  · rfl
  · exact State.modLoaf_ovenArb x m _
@[simp] theorem State.groupResume_ovenArb (n : Fin 4) (s : State) : (s.groupResume n).ovenArb = s.ovenArb := by
  unfold State.groupResume
  split
  · extract_lets s1
    have h1 : s1.ovenArb = s.ovenArb := State.modLoaf_ovenArb s n _
    clear_value s1
    split
    next g _ =>
      split
      · exact (State.afterCut_ovenArb g _ _ s1).trans h1
      · exact (State.groupAt_ovenArb n s1).trans h1
    · exact h1
  · rfl

/-! ## A channel's boundary (R263, R270) -/

@[simp] theorem State.showPos_ovenArb (n : Fin 4) (p : Int) (s : State) : (s.showPos n p).ovenArb = s.ovenArb :=
  (State.wr_ovenArb _ _ _).trans (State.wr_ovenArb s _ _)
@[simp] theorem State.showCount_ovenArb (n : Fin 4) (c : Int) (s : State) : (s.showCount n c).ovenArb = s.ovenArb :=
  State.wr_ovenArb s _ _
@[simp] theorem State.scMerge_ovenArb (p : ScPair) (t : Nat) (s : State) : (s.scMerge p t).ovenArb = s.ovenArb := by
  unfold State.scMerge
  extract_lets x a2 nom s0 bad s1 fine s2
  have h0 : s0.ovenArb = s.ovenArb := State.wr_ovenArb s _ _
  have h1 : s1.ovenArb = s.ovenArb := (State.modFb_ovenArb s0 0 _).trans h0
  have h2 : s2.ovenArb = s.ovenArb := (State.wr_ovenArb s1 _ _).trans h1
  clear_value s2 s1
  split
  · rfl
  · split
    · exact (State.latch_ovenArb s1 _ _ _).trans h1
    · split
      · exact (State.latch_ovenArb s2 _ _ _).trans h2
      · extract_lets interp pos
        rw [State.showPos_ovenArb, State.showCount_ovenArb, State.modFb_ovenArb]
        split
        · exact (State.bump_ovenArb s2 _).trans h2
        · exact h2
@[simp] theorem State.formSpeed_ovenArb (n : Fin 4) (t : Nat) (s : State) : (s.formSpeed n t).ovenArb = s.ovenArb := by
  unfold State.formSpeed
  extract_lets
  exact State.wrs_ovenArb s _
@[simp] theorem State.fbFinish_ovenArb (c : Fin 4) (t : Nat) (s : State) : (s.fbFinish c t).ovenArb = s.ovenArb := by
  unfold State.fbFinish
  extract_lets n mode s1 s2 s3
  have h1 : s1.ovenArb = s.ovenArb := by
    unfold s1
    split
    · split
      · exact State.scMerge_ovenArb _ t s
      · rfl
    · rfl
  have h2 : s2.ovenArb = s.ovenArb := ((State.modFb_ovenArb _ c _).trans (State.fbFollow_ovenArb s1)).trans h1
  have h3 : s3.ovenArb = s.ovenArb := by
    unfold s3
    split
    · exact ((State.formSpeed_ovenArb c t _).trans (State.modFb_ovenArb s2 c _)).trans h2
    · exact h2
  exact (State.modFb_ovenArb s3 c _).trans h3

/-- A boundary completed late takes no grant slot. -/
theorem State.scMissed_ovenArb (n : Fin 4) (s : State) : (s.scMissed n).ovenArb = s.ovenArb := by
  unfold State.scMissed
  refine (State.groupResume_ovenArb n _).trans (forAll_ovenArb (fun c x => ?_) _ s)
  split
  · split
    · exact State.fbFinish_ovenArb c _ x
    · rfl
  · rfl

end Sys2Proof.Machine
end

section
/-! The computation of a frame, up to its record (R283 to R288, R313): what every part of it keeps. -/

namespace Sys2Proof.Machine

open Sys2Proof

/-! ## What the parts of a computation keep -/

/-- The objects a frame's handoff and record are read back from: its counters, its measured currents and angle, and the base they are
shown in. -/
def frameObjs (n : Fin 4) : List Nat :=
  [Obj.recPushed n.val, Obj.recDrop, Obj.idMeas n.val, Obj.iqMeas n.val, Obj.thetaE n.val, Obj.iBase n.val]

/-- The arbiter, the free values drawn, the record queue and the handoff of a loaf, and its frame's objects, stay. -/
structure FrameKept (n : Fin 4) (s t : State) : Prop where
  ovenArb : t.ovenArb = s.ovenArb
  freeNo : t.freeNo = s.freeNo
  queue : (t.oven.get n).queue = (s.oven.get n).queue
  due : (t.loaf.get n).due = (s.loaf.get n).due
  rd : ∀ a ∈ frameObjs n, t.rd a = s.rd a

/-- The other objects of a loaf that a computation writes. -/
theorem not_mem_frameObjs : ∀ n : Fin 4, ∀ a ∈ [Obj.peRes n.val, Obj.paDiff n.val, Obj.pgSum n.val, Obj.pnRes n.val, Obj.protLeg n.val,
    Obj.openCount n.val, Obj.ovenFlags n.val, Obj.heldFrames n.val, Obj.vlimFrames n.val, Obj.capState] ++ collectorObjs,
    a ∉ frameObjs n := by decide

theorem quiet_queue {s t : State} (h : Quiet s t) (n : Fin 4) : (t.oven.get n).queue = (s.oven.get n).queue := by
  have e : t.oven.mapIdx (fun _ => OvenSt.still) = s.oven.mapIdx (fun _ => OvenSt.still) := (congrArg State.oven h.1 :)
  have en : (t.oven.get n).still = (s.oven.get n).still := by simpa only [Quad.get_mapIdx] using congrArg (Quad.get · n) e
  exact (congrArg OvenSt.queue en :)
theorem quiet_handoff {s t : State} (h : Quiet s t) (n : Fin 4) :
    (t.loaf.get n).due = (s.loaf.get n).due ∧ (t.loaf.get n).done = (s.loaf.get n).done := by
  have e : t.loaf.mapIdx (fun _ => LoafSt.still) = s.loaf.mapIdx (fun _ => LoafSt.still) := (congrArg State.loaf h.1 :)
  have en : (t.loaf.get n).still = (s.loaf.get n).still := by simpa only [Quad.get_mapIdx] using congrArg (Quad.get · n) e
  exact ⟨(congrArg LoafSt.due en :), (congrArg LoafSt.done en :)⟩

namespace FrameKept

variable {n : Fin 4} {r s t : State}

theorem refl (n : Fin 4) (s : State) : FrameKept n s s := ⟨rfl, rfl, rfl, rfl, fun _ _ => rfl⟩
theorem trans (h : FrameKept n r s) (k : FrameKept n s t) : FrameKept n r t :=
  ⟨k.ovenArb.trans h.ovenArb, k.freeNo.trans h.freeNo, k.queue.trans h.queue, k.due.trans h.due,
    fun a ha => (k.rd a ha).trans (h.rd a ha)⟩
theorem quiet (h : FrameKept n r s) (k : Quiet s t) : FrameKept n r t :=
  h.trans ⟨quiet_ovenArb k, quiet_freeNo k, quiet_queue k n, (quiet_handoff k n).1, fun a ha => quiet_rd k (fun hc =>
    not_mem_frameObjs n a (List.mem_append_right _ hc) ha)⟩
theorem latch (h : FrameKept n r s) (code inst : Half) (data : Int) : FrameKept n r (s.latch code inst data) :=
  h.quiet (State.latch_quiet s code inst data)
theorem wr (h : FrameKept n r s) {a : Nat} (v : Int) (ha : a ∉ frameObjs n) : FrameKept n r (s.wr a v) :=
  h.trans ⟨rfl, rfl, rfl, rfl, fun _ hb => State.rd_wr_ne s v (fun e => ha (e ▸ hb))⟩
theorem bump (h : FrameKept n r s) {a : Nat} (ha : a ∉ frameObjs n) : FrameKept n r (s.bump a) := by
  unfold State.bump State.bumpTo
  split
  · exact h.wr _ ha
  · exact h.wr _ ha
theorem modOven (h : FrameKept n r s) {f : OvenSt → OvenSt} (hf : ∀ o, (f o).queue = o.queue) : FrameKept n r (s.modOven n f) :=
  h.trans ⟨rfl, rfl, by unfold State.modOven; rw [Quad.get_set_same, hf], rfl, fun _ _ => rfl⟩
theorem modLoaf (h : FrameKept n r s) {f : LoafSt → LoafSt} (hf : ∀ l, (f l).due = l.due) : FrameKept n r (s.modLoaf n f) :=
  h.trans ⟨rfl, rfl, rfl, by unfold State.modLoaf; rw [Quad.get_set_same, hf], fun _ _ => rfl⟩
theorem setHand (h : FrameKept n r s) (m : Fin 4) (x : Handoff) : FrameKept n r (s.setHand m x) :=
  h.trans ⟨rfl, rfl, rfl, rfl, fun _ _ => rfl⟩

/-- A check's run is kept beside the record queue (R315). -/
theorem runCheck (h : FrameKept n r s) (i : Nat) (beyond : Bool) (count : Nat) (code : Half) (data : Int) :
    FrameKept n r (s.runCheck n i beyond count code data) := by
  unfold State.runCheck
  extract_lets o k s1
  have h1 : FrameKept n r s1 := h.modOven (fun _ => by rfl)
  split
  · exact h.modOven (fun _ => by rfl)
  · split
    · exact (h1.modOven (fun _ => by rfl)).latch _ _ _
    · exact h1

end FrameKept

theorem forAll_kept {α : Type} {n : Fin 4} {f : α → State → State} (hf : ∀ a x, FrameKept n x (f a x)) {l : List α} {r s : State}
    (h : FrameKept n r s) : FrameKept n r (forAll l f s) := by
  unfold forAll
  induction l generalizing s with
  | nil => exact h
  | cons a l ih => exact ih (h.trans (hf a s))

/-- A frame of a loaf on reconstruction counts as incomplete for its converter alone (R345). -/
theorem State.reconMark_kept {n : Fin 4} {r s : State} (h : FrameKept n r s) : FrameKept n r (s.reconMark n) := by
  have hk : ∀ k, Obj.incomplete k ∉ frameObjs n := fun k => by
    simp only [frameObjs, List.mem_cons, List.not_mem_nil, Obj.incomplete, Obj.recPushed, Obj.recDrop, Obj.idMeas, Obj.iqMeas,
      Obj.thetaE, Obj.iBase, or_false]
    omega
  unfold State.reconMark
  split
  · extract_lets x s1
    have h1 : FrameKept n r s1 := h.setHand n _
    split
    · split
      · exact h1
      · exact h1.bump (hk _)
    · exact h1
  · exact h

theorem State.autoChoice_kept {n : Fin 4} {r s : State} (h : FrameKept n r s) (we : Rat) : FrameKept n r (s.autoChoice n we) := by
  unfold State.autoChoice
  extract_lets valid hi hyst
  split_ifs
  · exact h
  · exact h.modLoaf (fun _ => by rfl)
  · exact h.modLoaf (fun _ => by rfl)
  · exact h

theorem State.frameCommit_kept {n : Fin 4} {r s : State} (h : FrameKept n r s) (f : FrameOut) : FrameKept n r (s.frameCommit n f) := by
  have hc : ∀ c, FrameKept n r (s.commit n c) := fun c => h.quiet (State.commit_mild quiet_mild (quiet_refl s))
  unfold State.frameCommit
  split_ifs
  · exact h
  · exact hc _
  · exact hc _

theorem State.voltHistory_kept {n : Fin 4} {r s : State} (h : FrameKept n r s) : FrameKept n r (s.voltHistory n) := by
  unfold State.voltHistory
  split
  · exact h
  · exact h.modOven (fun _ => by rfl)

theorem State.frameFaults_kept {n : Fin 4} {r s : State} (h : FrameKept n r s) : FrameKept n r (s.frameFaults n) := by
  unfold State.frameFaults
  extract_lets o i s1 s2
  have h1 : FrameKept n r s1 := by
    unfold s1
    split
    · exact (h.modOven (fun _ => by rfl)).latch _ _ _
    · exact h
  have h2 : FrameKept n r s2 := by
    unfold s2
    split
    · exact h1.latch _ _ _
    · exact h1
  split
  · exact h2.latch _ _ _
  · exact h2

/-- Proof's checks of a frame write their own results (R315). -/
theorem State.proofFrame_kept {n : Fin 4} {r s : State} (h : FrameKept n r s) (inc : Bool) (l : Loop) (i3 : Rat × Rat × Rat)
    (theta thetaP : Nat) (we : Rat) (sensor : Bool) (k : Nat) : FrameKept n r (s.proofFrame n inc l i3 theta thetaP we sensor k) := by
  unfold State.proofFrame
  extract_lets o ib closed d f v s1 e s2 sum vsum s3 ab dq g w
  have h1 : FrameKept n r s1 := by
    unfold s1
    split
    · exact ((h.modOven (fun _ => by rfl)).wr v (not_mem_frameObjs n _ (by simp))).runCheck _ _ _ _ _
    · exact h
  have h2 : FrameKept n r s2 := by
    unfold s2
    split
    · exact (h1.wr e (not_mem_frameObjs n _ (by simp))).runCheck _ _ _ _ _
    · exact h1
  have h3 : FrameKept n r s3 := by
    unfold s3
    split
    · exact (h2.wr vsum (not_mem_frameObjs n _ (by simp))).runCheck _ _ _ _ _
    · exact h2
  split
  · exact ((h3.modOven (fun _ => by rfl)).wr w (not_mem_frameObjs n _ (by simp))).runCheck _ _ _ _ _
  · exact h3

/-- The open-phase test keeps its block beside the record queue (R340). -/
theorem State.openPhase_kept {n : Fin 4} {r s : State} (h : FrameKept n r s) (inc : Bool) (i3 v3 : Rat × Rat × Rat) :
    FrameKept n r (s.openPhase n inc i3 v3) := by
  unfold State.openPhase
  extract_lets o k vb up mi mv bad hit s1 s2
  have h1 : FrameKept n r s1 := h.modOven (fun _ => by rfl)
  have h2 : FrameKept n r s2 := h1.bump (not_mem_frameObjs n _ (by simp))
  clear_value s2 s1 hit
  split
  · exact h.modOven (fun _ => by rfl)
  · split
    · exact h1
    · extract_lets leg
      split
      · exact h2
      · exact (h2.wr _ (not_mem_frameObjs n _ (by simp))).latch _ _ _

theorem State.lostCurrents_kept {n : Fin 4} {r s : State} (h : FrameKept n r s) : FrameKept n r (s.lostCurrents n) := by
  have hleg : Obj.protLeg n.val ∉ frameObjs n := not_mem_frameObjs n _ (by simp)
  unfold State.lostCurrents
  extract_lets s1 said
  have h1 : FrameKept n r s1 := forAll_kept (fun k x => by
    split
    · split
      · exact FrameKept.refl n x
      · exact (((FrameKept.refl n x).modOven (fun _ => by rfl)).wr _ hleg).latch _ _ _
    · exact (FrameKept.refl n x).modOven (fun _ => by rfl)) h
  split
  · split
    · exact h1
    · exact ((h1.modOven (fun _ => by rfl)).wr _ hleg).latch _ _ _
  · exact h1.modOven (fun _ => by rfl)

end Sys2Proof.Machine
end

section
/-! The stores and the record of a frame (R19, R283, R313, R468). -/

namespace Sys2Proof.Machine

open Sys2Proof

/-! ## Several homes written in turn -/

theorem State.wrs_cons (s : State) (w : Nat × Int) (ws : List (Nat × Int)) : s.wrs (w :: ws) = (s.wr w.1 w.2).wrs ws := rfl
theorem State.rd_wrs_ne (s : State) {ws : List (Nat × Int)} {b : Nat} (h : b ∉ ws.map Prod.fst) : (s.wrs ws).rd b = s.rd b := by
  induction ws generalizing s with
  | nil => rfl
  | cons w ws ih =>
    obtain ⟨hw, hws⟩ := not_or.mp (List.mem_cons.not.mp h)
    rw [State.wrs_cons, ih _ hws, State.rd_wr_ne s w.2 hw]
/-- Of several writes to different homes each shows its value. -/
theorem State.rd_wrs_mem (s : State) {ws : List (Nat × Int)} (hd : (ws.map Prod.fst).Nodup) {b : Nat} {v : Int} (h : (b, v) ∈ ws) :
    (s.wrs ws).rd b = v := by
  induction ws generalizing s with
  | nil => exact absurd h List.not_mem_nil
  | cons w ws ih =>
    obtain ⟨hw, hd⟩ := List.nodup_cons.mp hd
    rw [State.wrs_cons]
    rcases List.mem_cons.mp h with rfl | h
    · rw [State.rd_wrs_ne _ hw, State.rd_wr_same]
    · exact ih _ hd h
/-- Writes of objects change objects alone. -/
theorem State.wrs_only (s : State) (ws : List (Nat × Int)) : ∃ o, s.wrs ws = { s with objs := o } := by
  induction ws generalizing s with
  | nil => exact ⟨s.objs, rfl⟩
  | cons w ws ih =>
    obtain ⟨o, ho⟩ := ih (s.wr w.1 w.2)
    exact ⟨o, ho⟩

/-! ## The stores of a frame (R283) -/

/-- The objects a frame writes what it measured to, in order. -/
def measObjs (n : Fin 4) : List Nat :=
  [Obj.idMeas n.val, Obj.iqMeas n.val, Obj.vdOut n.val, Obj.vqOut n.val, Obj.udcMeas n.val, Obj.thetaE n.val]

theorem measObjs_distinct : ∀ n : Fin 4, (measObjs n).Nodup ∧ Obj.recPushed n.val ∉ measObjs n ∧ Obj.recDrop ∉ measObjs n := by decide

theorem mem_frameObjs (n : Fin 4) : Obj.recPushed n.val ∈ frameObjs n ∧ Obj.recDrop ∈ frameObjs n ∧ Obj.idMeas n.val ∈ frameObjs n
    ∧ Obj.iqMeas n.val ∈ frameObjs n ∧ Obj.thetaE n.val ∈ frameObjs n := by simp [frameObjs]

/-- What a frame's stores keep, and the currents and the angle they show. -/
theorem State.frameStore_stores (n : Fin 4) (f : FrameOut) (b : Bool) (s : State) :
    (s.frameStore n f b).ovenArb = s.ovenArb ∧ (s.frameStore n f b).freeNo = s.freeNo
    ∧ ((s.frameStore n f b).oven.get n).queue = (s.oven.get n).queue ∧ ((s.frameStore n f b).loaf.get n).due = (s.loaf.get n).due
    ∧ (∀ a ∈ [Obj.recPushed n.val, Obj.recDrop], (s.frameStore n f b).rd a = s.rd a)
    ∧ (s.frameStore n f b).rd (Obj.idMeas n.val) = shownBase f.loop.id (s.rdR (Obj.iBase n.val))
    ∧ (s.frameStore n f b).rd (Obj.iqMeas n.val) = shownBase f.loop.iq (s.rdR (Obj.iBase n.val))
    ∧ (s.frameStore n f b).rd (Obj.thetaE n.val) = (f.theta : Int) := by
  unfold State.frameStore
  extract_lets l closed ib vb run s1 o s2 s3
  obtain ⟨hdistinct, hpushed, hdrop⟩ := measObjs_distinct n
  have hqueue : (s1.oven.get n).queue = (s.oven.get n).queue := by
    unfold s1 State.modOven
    rw [Quad.get_set_same]
  obtain ⟨ws, h2, hkeys, hidWrite, hiqWrite, hthetaWrite⟩ : ∃ ws, s2 = s1.wrs ws ∧ ws.map Prod.fst = measObjs n
      ∧ (Obj.idMeas n.val, shownBase l.id ib) ∈ ws ∧ (Obj.iqMeas n.val, shownBase l.iq ib) ∈ ws
      ∧ (Obj.thetaE n.val, (f.theta : Int)) ∈ ws := ⟨_, rfl, rfl, by simp, by simp, by simp⟩
  clear_value s2
  obtain ⟨objs, hobjs⟩ := s1.wrs_only ws
  have hkeep : ∀ a ∉ measObjs n, s2.rd a = s.rd a := fun a ha => h2 ▸ State.rd_wrs_ne s1 (hkeys ▸ ha)
  have hshow : ∀ {a v}, (a, v) ∈ ws → s2.rd a = v := fun h => h2 ▸ State.rd_wrs_mem s1 (hkeys ▸ hdistinct) h
  have hother : s2.ovenArb = s.ovenArb ∧ s2.freeNo = s.freeNo ∧ (s2.oven.get n).queue = (s.oven.get n).queue ∧ s2.loaf = s.loaf := by
    rw [h2, hobjs]
    exact ⟨rfl, rfl, hqueue, rfl⟩
  have h3 : FrameKept n s2 s3 := by
    unfold s3
    split
    · exact (FrameKept.refl n s2).bump (not_mem_frameObjs n _ (by simp))
    · exact FrameKept.refl n s2
  clear_value s3
  obtain ⟨u, hu⟩ : ∃ u, u = if run && l.limited then s3.bump (Obj.vlimFrames n.val) else s3 := ⟨_, rfl⟩
  have hkept : FrameKept n s2 u := by
    rw [hu]
    split
    · exact h3.bump (not_mem_frameObjs n _ (by simp))
    · exact h3
  rw [← hu]
  obtain ⟨harb, hfree, hq, hloaf⟩ := hother
  obtain ⟨mpushed, mdrop, mid, miq, mtheta⟩ := mem_frameObjs n
  refine ⟨hkept.ovenArb.trans harb, hkept.freeNo.trans hfree, hkept.queue.trans hq, hkept.due.trans ?_, fun a ha => ?_,
    (hkept.rd _ mid).trans (hshow hidWrite), (hkept.rd _ miq).trans (hshow hiqWrite), (hkept.rd _ mtheta).trans (hshow hthetaWrite)⟩
  · rw [hloaf]
  · rcases List.mem_pair.mp ha with rfl | rfl
    · exact (hkept.rd _ mpushed).trans (hkeep _ hpushed)
    · exact (hkept.rd _ mdrop).trans (hkeep _ hdrop)

/-! ## The record (R313) -/

theorem leBytes_length (n v : Nat) : (leBytes n v).length = n := by
  induction n generalizing v with
  | zero => rfl
  | succ n ih => exact congrArg (· + 1) (ih _)

theorem State.recBody_length (s : State) (n : Fin 4) (f : FrameOut) : (s.recBody n f).length = 62 := by
  unfold State.recBody
  extract_lets lf o l closed g gst ch pos ib on
  have hpos : (if ch < 4 then leBytes 4 (pos % 2 ^ 25).toNat ++ leBytes 2 (toBits 16 (pos / 2 ^ 25)) else leBytes 6 0).length = 6 := by
    split <;> simp only [List.length_append, leBytes_length]
  have hduty : (if closed then leBytes 2 (dutyField o.duty.1) ++ leBytes 2 (dutyField o.duty.2.1) ++ leBytes 2 (dutyField o.duty.2.2)
      else leBytes 6 0).length = 6 := by
    split <;> simp only [List.length_append, leBytes_length]
  simp only [List.length_append, leBytes_length, hpos, hduty]

theorem State.record_length (s : State) (n : Fin 4) (f : FrameOut) : (s.record n f).length = 64 := by
  unfold State.record
  rw [List.length_append, leBytes_length, State.recBody_length]

/-! ## The record's push (R19, R321) -/

/-- The capture memory takes a record beside the queue. -/
theorem State.capRecord_kept {n : Fin 4} {r s : State} (h : FrameKept n r s) (m : Nat) (bytes : List Byte) :
    FrameKept n r (s.capRecord m bytes) := by
  unfold State.capRecord State.capFollow
  extract_lets st
  split
  · have hc : ∀ f, FrameKept n r (s.modCap f) := fun f => h.trans ⟨rfl, rfl, rfl, rfl, fun _ _ => rfl⟩
    split
    · exact (hc _).wr _ (not_mem_frameObjs n _ (by simp))
    · exact hc _
  · exact h

/-- A pushed record stands last in its queue, or is dropped and counted where 32 wait. -/
theorem State.pushRecord_pushes (n : Fin 4) (bytes : List Byte) (s : State) :
    (s.pushRecord n bytes).ovenArb = s.ovenArb ∧ (s.pushRecord n bytes).freeNo = s.freeNo
    ∧ ((s.pushRecord n bytes).loaf.get n).due = (s.loaf.get n).due
    ∧ (∀ a ∈ [Obj.idMeas n.val, Obj.iqMeas n.val, Obj.thetaE n.val], (s.pushRecord n bytes).rd a = s.rd a)
    ∧ ((s.oven.get n).queue.length < 32 → ((s.pushRecord n bytes).oven.get n).queue = (s.oven.get n).queue ++ [bytes]
      ∧ (s.pushRecord n bytes).rd (Obj.recPushed n.val) = (s.rd (Obj.recPushed n.val) + 1) % 0x100000000)
    ∧ (32 ≤ (s.oven.get n).queue.length → ((s.pushRecord n bytes).oven.get n).queue = (s.oven.get n).queue
      ∧ (s.rd Obj.recDrop < 0xFFFFFFFF → (s.pushRecord n bytes).rd Obj.recDrop = s.rd Obj.recDrop + 1)) := by
  have hne : ∀ a ∈ [Obj.idMeas n.val, Obj.iqMeas n.val, Obj.thetaE n.val], a ≠ Obj.recPushed n.val ∧ a ≠ Obj.recDrop := by
    decide +revert
  have hdrop : Obj.recDrop ≠ Obj.recPushed n.val := by decide +revert
  unfold State.pushRecord
  extract_lets s1
  have h1 : ∀ a, a ≠ Obj.recPushed n.val → s1.rd a = s.rd a := fun a ha => State.rd_wr_ne s _ ha
  have hpushed : s1.rd (Obj.recPushed n.val) = (s.rd (Obj.recPushed n.val) + 1) % 0x100000000 := State.rd_wr_same s _ _
  split
  next hfull =>
    obtain ⟨v, hv⟩ := s1.bumpOpen_only Obj.recDrop
    refine ⟨by rw [hv]; rfl, by rw [hv]; rfl, by rw [hv]; rfl, fun a ha => ?_, fun h => absurd h (by omega), fun _ =>
      ⟨by rw [hv]; rfl, fun h => ?_⟩⟩
    · rw [State.rd_bumpOpen_ne s1 (hne a ha).2, h1 a (hne a ha).1]
    · rw [State.rd_bumpOpen_same s1 (by rw [h1 _ hdrop]; exact h), h1 _ hdrop]
  next hroom =>
    have hkept := State.capRecord_kept (FrameKept.refl n ((s1.modOven n (fun o => { o with queue := o.queue ++ [bytes] })).setBlob
      (Obj.recLast n.val) bytes)) n.val bytes
    refine ⟨hkept.ovenArb, hkept.freeNo, hkept.due, fun a ha => ?_, fun _ => ⟨hkept.queue.trans ?_, ?_⟩, fun h => absurd h (by omega)⟩
    · refine (hkept.rd a ?_).trans (h1 a (hne a ha).1)
      simp only [List.mem_cons, List.not_mem_nil, or_false] at ha
      rcases ha with rfl | rfl | rfl <;> simp [frameObjs]
    · show ((s1.oven.set n _).get n).queue = _
      rw [Quad.get_set_same]
      rfl
    · exact (hkept.rd _ (by simp [frameObjs])).trans hpushed

/-- What follows the record notes the loaf as computed (R468). -/
theorem State.mirrorAfter_kept {n : Fin 4} {r s : State} (h : FrameKept n r s) :
    FrameKept n r (s.mirrorAfter n) ∧ ((s.mirrorAfter n).loaf.get n).done = true := by
  unfold State.mirrorAfter
  extract_lets s1 g
  have h1 : FrameKept n r s1 := h.modLoaf (fun _ => by rfl)
  have hdone : (s1.loaf.get n).done = true := by
    unfold s1 State.modLoaf
    rw [Quad.get_set_same]
  split
  · have hq : Quiet s1 (s1.mirrorSend (s1.mirrorFrame 0 false)) := State.mirrorSend_mild quiet_mild (quiet_refl s1)
    exact ⟨h1.quiet hq, (quiet_handoff hq n).2.trans hdone⟩
  · exact ⟨h1, hdone⟩

end Sys2Proof.Machine
end

section
/-! The computation of a frame as a whole, and the grant slot it takes (R41, R42, R270, R283 to R288, R313; O38). -/

namespace Sys2Proof.Machine

open Sys2Proof

/-! ## The computation (R283 to R288) -/

/-- The handoff taken, with the reconstruction completed (R235, R344): what the loop of a frame runs on. -/
def State.frameTaken (n : Fin 4) (w : State) : State := ((w.reconThirds n).reconMark n).modLoaf n (fun l => { l with due := false })

theorem State.frameTaken_takes (n : Fin 4) (w : State) :
    (w.frameTaken n).ovenArb = w.ovenArb ∧ (w.frameTaken n).freeNo = w.freeNo ∧ ((w.frameTaken n).oven.get n).queue = (w.oven.get n).queue
    ∧ ((w.frameTaken n).loaf.get n).due = false ∧ ∀ a ∈ frameObjs n, (w.frameTaken n).rd a = w.rd a := by
  have hrecon : FrameKept n w (w.reconThirds n) := (FrameKept.refl n w).modOven (fun o => by dsimp only; split <;> rfl)
  obtain ⟨harb, hfree, hqueue, -, hrd⟩ := State.reconMark_kept hrecon
  refine ⟨harb, hfree, hqueue, ?_, hrd⟩
  unfold State.frameTaken State.modLoaf
  rw [Quad.get_set_same]

/-- The frame computed: its loop published, the record formed of what it found. -/
theorem State.computeFrame_computes {n : Fin 4} {s0 w : State} (hw : w = s0.scMissed n) {f : FrameOut}
    (hf : f = ((w.frameTaken n).frameLoop n).1) :
    ((s0.computeFrame n).loaf.get n).due = false ∧ ((s0.computeFrame n).loaf.get n).done = true
    ∧ (s0.computeFrame n).freeNo = w.freeNo + 1 ∧ (s0.computeFrame n).ovenArb = w.ovenArb
    ∧ ((w.oven.get n).queue.length < 32 → ∃ r, ((s0.computeFrame n).oven.get n).queue = (w.oven.get n).queue ++ [r] ∧ r.length = 64
      ∧ (s0.computeFrame n).rd (Obj.recPushed n.val) = (w.rd (Obj.recPushed n.val) + 1) % 0x100000000)
    ∧ (32 ≤ (w.oven.get n).queue.length → ((s0.computeFrame n).oven.get n).queue = (w.oven.get n).queue
      ∧ (w.rd Obj.recDrop < 0xFFFFFFFF → (s0.computeFrame n).rd Obj.recDrop = w.rd Obj.recDrop + 1))
    ∧ (s0.computeFrame n).rd (Obj.idMeas n.val) = shownBase f.loop.id (w.rdR (Obj.iBase n.val))
    ∧ (s0.computeFrame n).rd (Obj.iqMeas n.val) = shownBase f.loop.iq (w.rdR (Obj.iBase n.val))
    ∧ (s0.computeFrame n).rd (Obj.thetaE n.val) = (f.theta : Int) := by
  obtain ⟨harb, hfree, hqueue, hdue, hrd⟩ := w.frameTaken_takes n
  obtain ⟨mpushed, mdrop, mid, miq, mtheta⟩ := mem_frameObjs n
  have hbase : (w.frameTaken n).rdR (Obj.iBase n.val) = w.rdR (Obj.iBase n.val) := by
    unfold State.rdR
    rw [hrd _ (by simp [frameObjs])]
  unfold State.computeFrame
  rw [← hw]
  extract_lets s r f' closed s1 s2 s3 fl s4 s5
  -- From the stores of the frame to its record.
  have h1 : FrameKept n (s.frameStore n f' r.2.2.1) s1 :=
    State.autoChoice_kept (State.frameCommit_kept (FrameKept.refl n _) f') r.2.1
  have h2 : FrameKept n (s.frameStore n f' r.2.2.1) s2 := State.voltHistory_kept (State.proofFrame_kept h1 _ _ _ _ _ _ _ _)
  have h3 : FrameKept n (s.frameStore n f' r.2.2.1) s3 := by
    unfold s3
    split
    · exact State.frameFaults_kept (State.lostCurrents_kept (State.openPhase_kept h2 _ _ _))
    · exact h2
  clear_value s3
  have hflags : FrameKept n (s.frameStore n f' r.2.2.1) (s3.wr (Obj.ovenFlags n.val) (fl : Int)) :=
    h3.wr _ (not_mem_frameObjs n _ (by simp))
  obtain ⟨sarb, sfree, squeue, sdue, srd, sid, siq, stheta⟩ := State.frameStore_stores n f' r.2.2.1 s
  obtain ⟨parb, pfree, pdue, prd, proom, pfull⟩ := (s3.wr (Obj.ovenFlags n.val) (fl : Int)).pushRecord_pushes n (s3.record n f')
  -- From the record to the state that follows from it.
  obtain ⟨hafter, hdone⟩ := State.mirrorAfter_kept (FrameKept.refl n s4)
  have hquiet : Quiet s5.drew s5.drew.settle := State.settle_quiet _
  obtain ⟨qdue, qdone⟩ := quiet_handoff hquiet n
  have hrest : ∀ a ∈ frameObjs n, s5.drew.settle.rd a = s4.rd a := fun a ha =>
    (quiet_rd hquiet (fun hc => not_mem_frameObjs n a (List.mem_append_right _ hc) ha)).trans (hafter.rd a ha)
  have hend : (s5.drew.settle.oven.get n).queue = (s4.oven.get n).queue := (quiet_queue hquiet n).trans hafter.queue
  have hq3 : ((s3.wr (Obj.ovenFlags n.val) (fl : Int)).oven.get n).queue = (w.oven.get n).queue :=
    (hflags.queue.trans squeue).trans hqueue
  have hpushed : (s3.wr (Obj.ovenFlags n.val) (fl : Int)).rd (Obj.recPushed n.val) = w.rd (Obj.recPushed n.val) :=
    ((hflags.rd _ mpushed).trans (srd _ (by simp))).trans (hrd _ mpushed)
  have hdrop : (s3.wr (Obj.ovenFlags n.val) (fl : Int)).rd Obj.recDrop = w.rd Obj.recDrop :=
    ((hflags.rd _ mdrop).trans (srd _ (by simp))).trans (hrd _ mdrop)
  rw [hq3, hpushed] at proom
  rw [hq3, hdrop] at pfull
  have hshown : ∀ a ∈ [Obj.idMeas n.val, Obj.iqMeas n.val, Obj.thetaE n.val], a ∈ frameObjs n →
      s5.drew.settle.rd a = (s.frameStore n f' r.2.2.1).rd a := fun a ha hm =>
    ((hrest a hm).trans (prd a ha)).trans (hflags.rd a hm)
  have hf' : f' = f := hf.symm
  rw [← hbase, ← hf']
  refine ⟨?_, qdone.trans hdone, ?_, ?_, fun h => ?_, fun h => ?_, (hshown _ (by simp) mid).trans sid, (hshown _ (by simp) miq).trans siq,
    (hshown _ (by simp) mtheta).trans stheta⟩
  · exact ((((qdue.trans hafter.due).trans pdue).trans hflags.due).trans sdue).trans hdue
  · have hdrew : s5.drew.freeNo = s5.freeNo + 1 := rfl
    rw [quiet_freeNo hquiet, hdrew, hafter.freeNo, pfree, hflags.freeNo, sfree]
    exact congrArg (· + 1) hfree
  · exact (((((quiet_ovenArb hquiet).trans hafter.ovenArb).trans parb).trans hflags.ovenArb).trans sarb).trans harb
  · obtain ⟨hrecord, hcount⟩ := proom h
    exact ⟨_, hend.trans hrecord, State.record_length s3 n f', (hrest _ mpushed).trans hcount⟩
  · obtain ⟨hsame, hcount⟩ := pfull h
    exact ⟨hend.trans hsame, fun hd => (hrest _ mdrop).trans (hcount hd)⟩

/-! ## The grant slot (R41, R42, R270) -/

/-- Changes that each leave a state as it is leave it so in turn. -/
theorem forAll_same {α : Type} {f : α → State → State} {l : List α} {s : State} (h : ∀ a ∈ l, f a s = s) : forAll l f s = s := by
  unfold forAll
  induction l with
  | nil => rfl
  | cons a l ih =>
    rw [List.foldl_cons, h a List.mem_cons_self]
    exact ih (fun b hb => h b (List.mem_cons_of_mem a hb))

/-- With no boundary of the loaf awaited nothing completes late. -/
theorem State.scMissed_same {n : Fin 4} {s : State} (hw : s.fbWaits n = false) (hg : (s.loaf.get n).grpDue = false) :
    s.scMissed n = s := by
  unfold State.scMissed
  rw [forAll_same fun c hc => ?_]
  · exact if_neg (by simp [hg])
  · have hc' := List.any_eq_false.mp hw c hc
    split
    next b hb => exact if_neg (fun hl => hc' (by simp [hb, hl]))
    · rfl

/-- Where one loaf's frame alone is due, the slot is its own. -/
theorem State.frameDue_granted {n : Fin 4} {s : State} (h : ∀ m : Fin 4, s.frameDue m.val = true ↔ m = n) :
    ∃ a, s.ovenArb.grant 4 s.frameDue = some (n.val, a) := by
  obtain ⟨b, a, hg⟩ := s.ovenArb.grant_of_request n.isLt ((h n).mpr rfl)
  obtain ⟨hb, hr⟩ := Arb.grant_requests hg
  obtain rfl : (⟨b, hb⟩ : Fin 4) = n := (h ⟨b, hb⟩).mp hr
  exact ⟨a, hg⟩

@[simp] theorem State.atT_ovenArb (s : State) (t : Nat) : (s.atT t).ovenArb = s.ovenArb := by
  unfold State.atT
  split <;> rfl

theorem execLoafFrameCompute_granted {n : Fin 4} {t : Nat} {a : Arb} {s : State}
    (h : s.ovenArb.grant 4 (s.atT t).frameDue = some (n.val, a)) :
    exec (.loafFrameCompute n t) s = .next (({ s.atT t with ovenArb := a }).computeFrame n) := by
  have harb : (s.atT t).ovenArb = s.ovenArb := State.atT_ovenArb s t
  show execLoafFrameCompute n t s = _
  unfold execLoafFrameCompute
  dsimp only
  rw [harb, h]
  exact if_pos rfl

theorem execLoafFrameCompute_other {n : Fin 4} {t : Nat} {s : State} (h : s.ovenArb.grant 4 (s.atT t).frameDue = none ∨
    ∃ m a, s.ovenArb.grant 4 (s.atT t).frameDue = some (m, a) ∧ m ≠ n.val) : exec (.loafFrameCompute n t) s = .next (s.atT t) := by
  have harb : (s.atT t).ovenArb = s.ovenArb := State.atT_ovenArb s t
  show execLoafFrameCompute n t s = _
  unfold execLoafFrameCompute
  dsimp only
  rw [harb]
  rcases h with h | ⟨m, a, h, hm⟩
  · rw [h]
  · rw [h]
    exact if_neg hm

end Sys2Proof.Machine

namespace Sys2Proof

open Sys2Proof.Machine

/-- Settles O38: a granted slot computes the frame handed over, whose stores and record stay to the end; a boundary completed late takes
no slot, and the arbiter grants what requests. -/
theorem frameComputation : Obligations.FrameComputation := by
  refine ⟨fun n t a s w hg hw => ?_, fun n s => State.scMissed_same, fun n t s => execLoafFrameCompute_other,
    fun n s => State.frameDue_granted⟩
  obtain ⟨hdue, hdone, hfree, harb, hroom, hfull, hid, hiq, htheta⟩ := State.computeFrame_computes hw (f := ((w.frameTaken n).frameLoop n).1) rfl
  have hslot : w.ovenArb = a := by
    rw [hw]
    exact State.scMissed_ovenArb n _
  exact ⟨_, execLoafFrameCompute_granted hg, hdue, hdone, hfree, harb.trans hslot, hroom, hfull, _, rfl, hid, hiq, htheta⟩

end Sys2Proof
end

section
/-! Sessions that idle, lockouts, data scans of the TAPs and the debug port's memory (R81, R82, R490, R491, R501; O51). -/

namespace Sys2Proof.Machine

open Sys2Proof

/-! ## The end of the host port's session (R177, R491) -/

theorem getD_set_same_or {α : Type} (l : List α) (j : Nat) (a d : α) : (l.set j a).getD j d = a ∨ (l.set j a).getD j d = d := by
  rw [List.getD_eq_getElem?_getD, List.getElem?_set_self']
  cases l[j]? with
  | none => exact .inr rfl
  | some b => exact .inl rfl

/-- A subscription ended, or one the list never held, is not active. -/
theorem State.endSub_inactive (j : Nat) (s : State) : ((s.endSub j).sub j).active = false := by
  have h : (s.endSub j).sub j = {} := (getD_set_same_or s.cmd.subs j {} {}).elim id id
  rw [h]
theorem State.endSub_ne {i j : Nat} (h : i ≠ j) (s : State) : (s.endSub j).sub i = s.sub i := by
  show (s.cmd.subs.set j {}).getD i {} = s.cmd.subs.getD i {}
  simp only [List.getD_eq_getElem?_getD, List.getElem?_set_ne h.symm]

/-- Subscription `j` is not active for the owner. -/
def State.subFree (s : State) (owner j : Nat) : Prop := (s.sub j).active = true → (s.sub j).owner ≠ owner

/-- One step of `endSubs`. -/
def State.endSubOf (owner j : Nat) (s : State) : State := if (s.sub j).active && (s.sub j).owner == owner then s.endSub j else s

theorem State.endSubOf_free (owner j : Nat) (s : State) : (s.endSubOf owner j).subFree owner j := by
  unfold State.endSubOf State.subFree
  split
  · intro h
    rw [State.endSub_inactive] at h
    exact absurd h Bool.false_ne_true
  next h =>
    intro ha ho
    exact h (by simp [ha, ho])
theorem State.endSubOf_ne {i j : Nat} (h : i ≠ j) (owner : Nat) (s : State) : (s.endSubOf owner j).sub i = s.sub i := by
  unfold State.endSubOf
  split
  · exact State.endSub_ne h s
  · rfl

theorem forAll_endSubOf_sub (owner : Nat) {l : List Nat} {i : Nat} (h : i ∉ l) (s : State) :
    (forAll l (State.endSubOf owner) s).sub i = s.sub i := by
  unfold forAll
  induction l generalizing s with
  | nil => rfl
  | cons j l ih =>
    obtain ⟨hj, hl⟩ := List.ne_and_not_mem_of_not_mem_cons h
    exact (ih hl _).trans (State.endSubOf_ne hj owner s)

theorem forAll_endSubOf_free (owner : Nat) {l : List Nat} (hl : l.Nodup) (s : State) :
    ∀ i ∈ l, (forAll l (State.endSubOf owner) s).subFree owner i := by
  induction l generalizing s with
  | nil => exact fun _ h => absurd h List.not_mem_nil
  | cons j l ih =>
    obtain ⟨hj, hl⟩ := List.nodup_cons.mp hl
    intro i hi
    show (forAll l (State.endSubOf owner) (s.endSubOf owner j)).subFree owner i
    rcases List.mem_cons.mp hi with rfl | hi
    · unfold State.subFree
      rw [forAll_endSubOf_sub owner hj]
      exact State.endSubOf_free owner i s
    · exact ih hl _ i hi

/-- Ending the subscriptions of an owner changes subscriptions alone. -/
theorem State.endSubs_only (owner : Nat) (s : State) : ∃ l, s.endSubs owner = s.modCmd (fun c => { c with subs := l }) := by
  have h : ∀ (js : List Nat) (x : State), (∃ l, x = s.modCmd (fun c => { c with subs := l })) →
      ∃ l, forAll js (State.endSubOf owner) x = s.modCmd (fun c => { c with subs := l }) := by
    intro js
    unfold forAll
    induction js with
    | nil => exact fun x hx => hx
    | cons j js ih =>
      rintro x ⟨l, rfl⟩
      refine ih _ ?_
      show ∃ m, (s.modCmd (fun c => { c with subs := l })).endSubOf owner j = _
      unfold State.endSubOf
      split <;> exact ⟨_, rfl⟩
  exact h _ s ⟨s.cmd.subs, rfl⟩

theorem State.endSubs_free (owner : Nat) (s : State) : ∀ j < 8, (s.endSubs owner).subFree owner j := fun j hj =>
  forAll_endSubOf_free owner List.nodup_range s j (List.mem_range.mpr hj)

/-- The host port's session over: no session, none of its subscriptions, the audit log longer; objects, mode and clocks as they were. -/
theorem State.endHostSession_ends {s : State} {role user why : Nat} (h : s.sec.session = some (role, user)) :
    (s.endHostSession why).sec.session = none ∧ (s.endHostSession why).objs = s.objs ∧ (s.endHostSession why).mode = s.mode
    ∧ (s.endHostSession why).time = s.time ∧ ∀ j < 8, (s.endHostSession why).subFree 0 j := by
  unfold State.endHostSession
  rw [h]
  dsimp only
  obtain ⟨q, n, hu⟩ := s.auditEvent_only 0x0003 0 user role 0 why
  rw [hu]
  generalize hx : { s with sec := { s.sec with auditQ := q, auditSeq := n } } = x
  obtain ⟨l, hl⟩ := x.endSubs_only 0
  have hfree := x.endSubs_free 0
  rw [hl] at hfree ⊢
  rw [← hx] at hfree ⊢
  exact ⟨rfl, rfl, rfl, rfl, hfree⟩

theorem sessionIdleTimeout_ends {s : State} {role user : Nat} (h : s.sec.session = some (role, user)) :
    ∃ u : State, (∃ t' : State, exec .sessionIdleTimeout s = .next t' ∧ Quiet u t') ∧ u.sec.session = none ∧ u.objs = s.objs ∧ u.mode = s.mode
      ∧ u.time.now = max s.time.now (s.sec.cmdT + s.rdN Obj.secIdleS * secCycles) ∧ ∀ j < 8, u.subFree 0 j := by
  have hs : (s.atT (s.sec.cmdT + s.rdN Obj.secIdleS * secCycles)).sec.session = some (role, user) := by rw [State.atT_sec, h]
  obtain ⟨hnone, hobjs, hmode, htime, hfree⟩ := State.endHostSession_ends (why := 1) hs
  refine ⟨_, ⟨_, ?_, State.settle_quiet _⟩, hnone, hobjs.trans (s.atT_objs _), hmode.trans (s.atT_mode _), ?_, hfree⟩
  · show execSessionIdleTimeout s = _
    unfold execSessionIdleTimeout
    rw [h]
  · rw [htime, State.atT_now]

/-! ## Data scans (R81) -/

/-- Each shift moves one bit from the register's end to the output, and one in at its other end. -/
theorem tapShift_append (x : List Bool × List Bool) (b : Bool) : (tapShift x b).2 ++ (tapShift x b).1 = x.2 ++ x.1 ++ [b] := by
  show x.2 ++ x.1.take 1 ++ (x.1.drop 1 ++ [b]) = _
  rw [← List.append_assoc, List.append_assoc x.2, List.take_append_drop]

theorem foldl_tapShift_append (tdi : List Bool) (x : List Bool × List Bool) :
    (tdi.foldl tapShift x).2 ++ (tdi.foldl tapShift x).1 = x.2 ++ x.1 ++ tdi := by
  induction tdi generalizing x with
  | nil => simp
  | cons b tdi ih =>
    rw [List.foldl_cons, ih, tapShift_append]
    simp

theorem foldl_tapShift_length (tdi : List Bool) {x : List Bool × List Bool} (h : x.1 ≠ []) :
    (tdi.foldl tapShift x).2.length = x.2.length + tdi.length := by
  induction tdi generalizing x with
  | nil => rfl
  | cons b tdi ih =>
    obtain ⟨a, l, ha⟩ := List.exists_cons_of_ne_nil h
    rw [List.foldl_cons, ih (by simp [tapShift])]
    simp [tapShift, ha, Nat.add_assoc, Nat.add_comm 1]

theorem tapCapture_ne_nil (tap : Region) (ins : TapIns) (pads : List Bool) : tapCapture tap ins pads ≠ [] := by
  unfold tapCapture
  cases tap <;> cases ins <;> simp

/-- A scan shifts what the TAP captured out, followed by what came in; the length of the register stays. -/
theorem TapSt.scan_shifts (x : TapSt) (tap : Region) (tdi pads : List Bool) :
    (x.scan tap tdi pads).tdo ++ (x.scan tap tdi pads).dr = tapCapture tap x.ins pads ++ tdi
    ∧ (x.scan tap tdi pads).tdo.length = tdi.length ∧ (x.scan tap tdi pads).ins = x.ins
    ∧ (x.ins = .extest ∨ x.ins = .samplePreload → (x.scan tap tdi pads).upd = (x.scan tap tdi pads).dr) := by
  refine ⟨?_, ?_, rfl, fun h => if_pos h.symm⟩
  · exact foldl_tapShift_append tdi _
  · exact (foldl_tapShift_length tdi (tapCapture_ne_nil tap x.ins pads)).trans (Nat.zero_add _)

theorem execTapDataScan_unlocked {tap : Region} {tdi pads : List Bool} {s : State} (h : s.sec.unlocked = true) :
    exec (.tapDataScan tap tdi pads) s = .next { s with
      tapM := s.tapM.scan .m tdi (if tap = .m then pads else [])
      tapC := s.tapC.scan .c (s.tapM.scan .m tdi (if tap = .m then pads else [])).tdo (if tap = .c then pads else []) } :=
  if_neg (by simp [h])

/-! ## The debug port's memory (R501) -/

/-- The debug memory with the byte at a key replaced. -/
def debugPut (l : List (Nat × Byte)) (k : Nat) (b : Byte) : List (Nat × Byte) :=
  l.filter (fun p => decide (p.1 < k)) ++ (k, b) :: l.filter (fun p => decide (k < p.1))

/-- The keys a filter keeps are found in what it leaves as in the whole. -/
theorem find_filter_of_keeps {l : List (Nat × Byte)} {f : Nat × Byte → Bool} {k : Nat} (h : ∀ p : Nat × Byte, p.1 = k → f p = true) :
    (l.filter f).find? (fun p => p.1 == k) = l.find? (fun p => p.1 == k) := by
  rw [List.find?_filter]
  congr 1
  funext p
  by_cases hp : p.1 = k
  · simp [hp, h p hp]
  · simp [hp]
theorem find_filter_of_drops {l : List (Nat × Byte)} {f : Nat × Byte → Bool} {k : Nat} (h : ∀ p : Nat × Byte, p.1 = k → f p = false) :
    (l.filter f).find? (fun p => p.1 == k) = none := by
  refine List.find?_eq_none.mpr (fun p hp hk => ?_)
  have hf := (List.mem_filter.mp hp).2
  rw [h p (by simpa using hk)] at hf
  exact Bool.false_ne_true hf

theorem find_debugPut_same (l : List (Nat × Byte)) (k : Nat) (b : Byte) : (debugPut l k b).find? (fun p => p.1 == k) = some (k, b) := by
  unfold debugPut
  rw [List.find?_append, find_filter_of_drops (by simp)]
  simp
theorem find_debugPut_ne (l : List (Nat × Byte)) {k j : Nat} (b : Byte) (h : j ≠ k) :
    (debugPut l k b).find? (fun p => p.1 == j) = l.find? (fun p => p.1 == j) := by
  unfold debugPut
  rw [List.find?_append, List.find?_cons_of_neg (by simp [h.symm])]
  rcases Nat.lt_or_gt_of_ne h with hlt | hgt
  · rw [find_filter_of_keeps (by simp [hlt]), find_filter_of_drops (by simp; omega), Option.or_none]
  · rw [find_filter_of_drops (by simp; omega), find_filter_of_keeps (by simp [hgt]), Option.none_or]

theorem execDebugMemoryAccess_write {r : Region} {addr : Nat} {data : Byte} {s : State} (h : s.sec.unlocked = true) :
    exec (.debugMemoryAccess r true addr data) s
      = .next (s.modSec (fun x => { x with debugMem := debugPut x.debugMem (debugKey r addr) data })) :=
  (if_neg (by simp [h])).trans (if_pos rfl)
theorem execDebugMemoryAccess_read {r : Region} {addr : Nat} {data v : Byte} {s : State} (h : s.sec.unlocked = true)
    (hv : s.sec.debugMem.find? (fun p => p.1 == debugKey r addr) = some (debugKey r addr, v)) :
    exec (.debugMemoryAccess r false addr data) s
      = .next (s.modSec (fun x => { x with debugRead := v, debugCount := x.debugCount + 1 })) := by
  show execDebugMemoryAccess r false addr data s = _
  unfold execDebugMemoryAccess
  rw [if_neg (by simp [h]), if_neg Bool.false_ne_true, hv]

end Sys2Proof.Machine

namespace Sys2Proof

open Sys2Proof.Machine

/-- Settles O51: a session ends with its subscriptions, a scan is a shift of the two registers in a chain, and a byte written through
the debug port is found again under its key. -/
theorem debugAccess : Obligations.DebugAccess := by
  refine ⟨fun s role user h => sessionIdleTimeout_ends h, fun s h => ?_, fun v a b t0 s h => ?_, fun v s h => ?_,
    fun tap tdi pads r w addr data s h => ⟨if_pos (by simp [h]), if_pos (by simp [h])⟩, fun tap tdi pads s h => ?_,
    fun r addr data s h => ⟨?_, fun v hv => ?_⟩⟩
  · show execSessionIdleTimeout s = _
    unfold execSessionIdleTimeout
    rw [h]
  · show execLockoutExpiry v s = _
    unfold execLockoutExpiry
    rw [h]
  · show execLockoutExpiry v s = _
    unfold execLockoutExpiry
    dsimp only
    rw [h]
  · obtain ⟨hm, lm, im, um⟩ := s.tapM.scan_shifts .m tdi (if tap = .m then pads else [])
    obtain ⟨hc, lc, ic, uc⟩ := s.tapC.scan_shifts .c (s.tapM.scan .m tdi (if tap = .m then pads else [])).tdo (if tap = .c then pads else [])
    exact ⟨_, execTapDataScan_unlocked h, hm, hc, lm, lc.trans lm, im, ic, um, uc, rfl⟩
  · exact ⟨_, execDebugMemoryAccess_write h, find_debugPut_same .., fun q b hne => find_debugPut_ne _ data hne, rfl⟩
  · exact ⟨_, execDebugMemoryAccess_read h hv, rfl, rfl, rfl⟩

end Sys2Proof
end

section
/-! Askard's millisecond (R86, R127, R385, R407; O10). -/

namespace Sys2Proof.Machine

open Sys2Proof

/-- `PT_AGE` and its milliseconds are the safety functions' own. -/
theorem State.ptTick_watched (s : State) : Watched s s.ptTick := by
  unfold State.ptTick
  split
  · exact watched_evals.safety s _
  · refine watched_evals.trans (watched_evals.safety s (fun f => { f with ptMs := 0 })) ?_
    unfold State.bump State.bumpTo
    split <;> exact watched_evals.ptAge _ _

/-- What follows the counts of a millisecond is the safety functions' evaluation. -/
theorem State.millisecond_watched (s : State) : Watched s (((s.ptTick.discStep .c).discStep .m).safetyEval).settle :=
  State.settle_mild watched_evals.toMild (State.safetyEval_evals watched_evals
    (State.discStep_evals watched_evals .m (State.discStep_evals watched_evals .c s.ptTick_watched)))

theorem execHbModuleTick_askard {t : Nat} {s : State} (h : s.askard = true) :
    exec (.hbModuleTick t) s = .next ((((((s.atT t).modHost (fun h => { h with hbModule := h.hbModule + 1 })).supplyRefresh.ptTick).discStep
      .c).discStep .m).safetyEval).settle := by
  have hk : (s.atT t).askard = true := by
    unfold State.askard
    rw [State.atT_boot]
    exact h
  exact if_pos hk

/-! ## The supply flags (R86) -/

/-- A flag set stays set while others are. -/
theorem forAll_setFlags_keeps {l : List Monitor} {i : Nat} {s : State} (h : s.rdBit Obj.supplyFlags i = true) :
    (forAll l (fun m x => x.wrBit Obj.supplyFlags (monBit m) true) s).rdBit Obj.supplyFlags i = true := by
  unfold forAll
  induction l generalizing s with
  | nil => exact h
  | cons m l ih =>
    refine ih ?_
    rw [State.rdBit_wrBit, if_pos rfl, h]
    exact ite_self true

/-- Each listed monitor's flag is set. -/
theorem forAll_setFlags_sets {l : List Monitor} (s : State) :
    ∀ m ∈ l, (forAll l (fun m x => x.wrBit Obj.supplyFlags (monBit m) true) s).rdBit Obj.supplyFlags (monBit m) = true := by
  induction l generalizing s with
  | nil => exact fun _ h => absurd h List.not_mem_nil
  | cons a l ih =>
    intro m hm
    rcases List.mem_cons.mp hm with rfl | hm
    · refine forAll_setFlags_keeps (l := l) (s := s.wrBit Obj.supplyFlags (monBit m) true) ?_
      rw [State.rdBit_wrBit, if_pos rfl, if_pos rfl]
    · exact ih _ m hm

theorem State.supplyRefresh_sets (s : State) : (∀ m ∈ s.power.asserted, s.supplyRefresh.rdBit Obj.supplyFlags (monBit m) = true)
    ∧ (s.power.vinUnderNow = true → s.supplyRefresh.rdBit Obj.supplyFlags 0 = true) := by
  unfold State.supplyRefresh
  refine ⟨forAll_setFlags_sets _, fun h => forAll_setFlags_keeps ?_⟩
  rw [if_pos h, State.rdBit_wrBit, if_pos rfl, if_pos rfl]

/-- The flags set again are objects alone. -/
theorem State.supplyRefresh_only (s : State) : ∃ o, s.supplyRefresh = { s with objs := o } := by
  have h : ∀ (l : List Monitor) (x : State), (∃ o, x = { s with objs := o }) →
      ∃ o, forAll l (fun m x => x.wrBit Obj.supplyFlags (monBit m) true) x = { s with objs := o } := by
    intro l
    unfold forAll
    induction l with
    | nil => exact fun x hx => hx
    | cons m l ih =>
      rintro x ⟨o, rfl⟩
      exact ih _ ⟨_, rfl⟩
  unfold State.supplyRefresh
  refine h _ _ ?_
  split
  · exact ⟨_, rfl⟩
  · exact ⟨s.objs, rfl⟩

theorem watched_rdBit {s t : State} (h : Watched s t) {a : Nat} (ha : a ∉ Obj.ptAge :: Obj.discMax :: collectorObjs) (i : Nat) :
    t.rdBit a i = s.rdBit a i := by
  unfold State.rdBit State.rdN
  rw [h.2 a ha]
theorem watched_time {s t : State} (h : Watched s t) : t.time = s.time := (congrArg State.time h.1 :)
theorem watched_hbModule {s t : State} (h : Watched s t) : t.host.hbModule = s.host.hbModule := (congrArg (fun x => x.host.hbModule) h.1 :)

end Sys2Proof.Machine

namespace Sys2Proof

open Sys2Proof.Machine

/-- Settles O10: what a millisecond counts and refreshes, then what the safety functions' evaluation leaves alone. -/
theorem moduleHeartbeat : Obligations.ModuleHeartbeat := by
  intro t s hk
  obtain ⟨u, hu⟩ : ∃ u, u = (s.atT t).modHost (fun h => { h with hbModule := h.hbModule + 1 }) := ⟨_, rfl⟩
  have hpower : u.power = s.power := by rw [hu, State.modHost_power, State.atT_power]
  have hcount : u.host.hbModule = s.host.hbModule + 1 := by rw [hu, State.modHost_host, State.atT_host]
  have hnow : u.time.now = max s.time.now t := by rw [hu, State.modHost_time, State.atT_now]
  have hw := u.supplyRefresh.millisecond_watched
  obtain ⟨o, ho⟩ := u.supplyRefresh_only
  obtain ⟨hset, hvin⟩ := u.supplyRefresh_sets
  have hkept : Obj.supplyFlags ∉ Obj.ptAge :: Obj.discMax :: collectorObjs := by decide
  rw [← hu]
  refine ⟨_, (execHbModuleTick_askard hk).trans (by rw [← hu]), hw, ?_, ?_, fun m hm => ?_, fun hv => ?_⟩
  · rw [watched_hbModule hw, ho]
    exact hcount
  · rw [watched_time hw, ho]
    exact hnow
  · rw [watched_rdBit hw hkept]
    exact hset m (hpower ▸ hm)
  · rw [watched_rdBit hw hkept]
    exact hvin (hpower ▸ hv)

end Sys2Proof
end

section
/-! What a report and everything that follows from an event do to the drive: loaves lose what an entry into OFF takes from them, edges are
accounted, enables fall, and none rises while boundary scan holds the pads (R81, R183, R208, R290, R375). -/

namespace Sys2Proof.Machine

open Sys2Proof

/-! ## What does without the drive -/

/-- The loaves, the clocks, the enables and the hold of boundary scan. -/
def State.drive (s : State) : Quad LoafSt × TimeSt × Bool × Bool × Bool :=
  (s.loaf, s.time, s.safety.genC, s.safety.genM, s.safety.tapHold)

theorem forAll_drive {α : Type} {f : α → State → State} (hf : ∀ a x, (f a x).drive = x.drive) (l : List α) (s : State) :
    (forAll l f s).drive = s.drive := by
  unfold forAll
  induction l generalizing s with
  | nil => rfl
  | cons a l ih => exact (ih (f a s)).trans (hf a s)

@[simp] theorem State.modGrp_drive (s : State) (g : Fin 4) (f : GroupSt → GroupSt) : (s.modGrp g f).drive = s.drive := rfl
@[simp] theorem State.modOven_drive (s : State) (n : Fin 4) (f : OvenSt → OvenSt) : (s.modOven n f).drive = s.drive := rfl
@[simp] theorem State.modBoot_drive (s : State) (f : BootSt → BootSt) : (s.modBoot f).drive = s.drive := rfl
@[simp] theorem State.wr_drive (s : State) (a : Nat) (v : Int) : (s.wr a v).drive = s.drive := rfl
@[simp] theorem State.emit_drive (code inst : Half) (cls : FaultClass) (r fl ev occ : Nat) (data : Int) (s : State) :
    (s.emit code inst cls r fl ev occ data).drive = s.drive := rfl
@[simp] theorem State.reportM_drive (code inst : Half) (data : Int) (s : State) : (s.reportM code inst data).drive = s.drive := rfl
@[simp] theorem State.bump_drive (s : State) (a : Nat) : (s.bump a).drive = s.drive := by
  unfold State.bump State.bumpTo
  split <;> rfl
@[simp] theorem State.clear_drive (s : State) (l : List Nat) : (s.clear l).drive = s.drive :=
  forAll_drive (f := fun a x => x.wr a 0) (fun _ _ => rfl) l s
@[simp] theorem State.releaseRole_drive (s : State) (b : Bool) : (s.releaseRole b).drive = s.drive := by
  obtain ⟨p, hp⟩ := s.releaseRole_only b
  rw [hp]
  rfl
@[simp] theorem State.setMode_drive (s : State) (m : ModState) : (s.setMode m).drive = s.drive := by
  unfold State.setMode
  split
  · rfl
  · dsimp only
    split <;> (split <;> rfl)
@[simp] theorem State.modeFollow_drive (s : State) : s.modeFollow.drive = s.drive := by
  unfold State.modeFollow
  split
  · split
    · exact State.setMode_drive s _
    · rfl
  · split
    · rfl
    · exact State.setMode_drive s _
  · split
    · exact State.setMode_drive s _
    · rfl
  · rfl
@[simp] theorem State.safetyReport_drive (ch : Chan) (data : Int) (s : State) : (s.safetyReport ch data).drive = s.drive := by
  cases ch <;> rfl
@[simp] theorem State.brakeOff_drive (ch : Chan) (s : State) : (s.brakeOff ch).drive = s.drive := by
  unfold State.brakeOff
  cases ch
  all_goals
    dsimp only
    split
    · exact State.safetyReport_drive ..
    · rfl
@[simp] theorem State.brakesOff_drive (s : State) : s.brakesOff.drive = s.drive :=
  (State.brakeOff_drive .m _).trans (State.brakeOff_drive .c s)
@[simp] theorem State.brakeOffFor_drive (g : Fin 4) (s : State) : (s.brakeOffFor g).drive = s.drive := by
  unfold State.brakeOffFor
  split
  · exact State.brakesOff_drive s
  · rfl
@[simp] theorem State.brakeFollow_drive (s : State) : s.brakeFollow.drive = s.drive := by
  unfold State.brakeFollow
  dsimp only
  split
  · rfl
  · split
    · exact State.brakesOff_drive s
    · rfl
@[simp] theorem State.beatFollow_drive (s : State) : s.beatFollow.drive = s.drive := by
  unfold State.beatFollow
  split
  · rfl
  · split
    · exact State.bump_drive _ _
    · rfl
@[simp] theorem State.isoMark_drive (g : Fin 4) (s : State) : (s.isoMark g).drive = s.drive := by
  unfold State.isoMark
  split <;> rfl
@[simp] theorem State.isoUndo_drive (n : Fin 4) (s : State) : (s.isoUndo n).drive = s.drive := by
  unfold State.isoUndo
  split
  · rfl
  · dsimp only
    split <;> rfl
@[simp] theorem State.unpublish_drive (g : Fin 4) (s : State) : (s.unpublish g).drive = s.drive := by
  unfold State.unpublish
  rw [forAll_drive (fun n x => State.modOven_drive x n _), State.modGrp_drive, State.clear_drive]
@[simp] theorem State.groupStop_drive (g : Fin 4) (s : State) : (s.groupStop g).drive = s.drive := by
  unfold State.groupStop
  dsimp only
  split <;> rfl
@[simp] theorem State.stopAll_drive (s : State) : s.stopAll.drive = s.drive := forAll_drive State.groupStop_drive _ s
@[simp] theorem State.reactUnit_drive (code : Half) (s : State) : (s.reactUnit code).drive = s.drive := by
  unfold State.reactUnit
  split
  · exact State.releaseRole_drive s true
  · rfl
@[simp] theorem State.captureFault_drive (code : Half) (cls : FaultClass) (s : State) : (s.captureFault code cls).drive = s.drive := by
  unfold State.captureFault State.captureTrigger State.captureTriggerAt
  dsimp only
  split
  · split
    · rfl
    · split <;> rfl
  · rfl
@[simp] theorem State.latchC0_drive (code inst : Half) (fl : Nat) (data : Int) (s : State) : (s.latchC0 code inst fl data).drive = s.drive := by
  unfold State.latchC0
  split
  · dsimp only
    split <;> rfl
  · rfl
@[simp] theorem State.logCancel_drive (j : Inj) (s : State) : (s.logCancel j).drive = s.drive := State.bump_drive s _

@[simp] theorem State.transPlaced_drive (src : Source) (s : State) : (s.transPlaced src).drive = s.drive := by
  unfold State.transPlaced
  split <;> rfl
@[simp] theorem State.deliver_drive (src : Source) (ws : List Word) (s : State) : (s.deliver src ws).drive = s.drive := by
  unfold State.deliver
  split
  · split
    · rfl
    · exact State.transPlaced_drive _ _
  · refine (State.transPlaced_drive _ _).trans ?_
    unfold State.connSend
    dsimp only
    split <;> rfl
@[simp] theorem State.respond_drive (src : Source) (status : Nat) (ws : List Word) (s : State) : (s.respond src status ws).drive = s.drive := by
  have hjob : ∀ j, (s.setJob src j).drive = s.drive := fun _ => by cases src <;> rfl
  unfold State.respond
  split
  · rfl
  · unfold State.answer
    refine (State.deliver_drive _ _ _).trans ?_
    split
    · exact hjob none
    · exact (State.bump_drive _ _).trans (hjob none)
@[simp] theorem State.answerOne_drive (src : Source) (s : State) : (s.answerOne src).drive = s.drive := by
  unfold State.answerOne
  split
  · rfl
  · extract_lets g x
    split_ifs <;> first | rfl | exact State.respond_drive src _ _ _
@[simp] theorem State.answerWaiting_drive (s : State) : s.answerWaiting.drive = s.drive := forAll_drive State.answerOne_drive _ s

/-! ## A relation that what follows from an event keeps -/

/-- A relation kept by every change beside the drive, by a change of a loaf that leaves its counts or empties them, by the account of a
loaf's edges, by the fall of an enable, and by its rise while boundary scan does not hold the pads. -/
structure Follows (R : State → State → Prop) : Prop where
  refl : ∀ s, R s s
  trans : ∀ {s t u}, R s t → R t u → R s u
  rest : ∀ {s t : State}, t.drive = s.drive → R s t
  loaf : ∀ (s : State) (n : Fin 4) (f : LoafSt → LoafSt),
    (∀ l, (f l).sigT = l.sigT ∧ ((f l).evtCount = l.evtCount ∨ (f l).evtCount = [])) → R s (s.modLoaf n f)
  edges : ∀ (n : Fin 4) (s : State), R s (s.pwmTo n)
  fall : ∀ (ch : Chan) (s : State), R s (s.setGen ch false)
  rise : ∀ (ch : Chan) (s : State), s.safety.tapHold = false → R s (s.setGen ch true)

variable {R : State → State → Prop}

/-- A change beside the drive comes before or after one that the relation holds of. -/
theorem Follows.restBefore (h : Follows R) {s t u : State} (k : R t u) (hd : t.drive = s.drive) : R s u := h.trans (h.rest hd) k
theorem Follows.restAfter (h : Follows R) {s t u : State} (k : R s t) (hd : u.drive = t.drive) : R s u := h.trans k (h.rest hd)

theorem forAll_follows (h : Follows R) {α : Type} {f : α → State → State} (hf : ∀ a x, R x (f a x)) (l : List α) (s : State) :
    R s (forAll l f s) := by
  unfold forAll
  induction l generalizing s with
  | nil => exact h.refl s
  | cons a l ih => exact h.trans (hf a s) (ih (f a s))

/-! ## Loaves and groups -/

/-- A loaf's entry into a state leaves its counts, or empties them in OFF. -/
theorem LoafSt.enter_counts (st : LoafState) (l : LoafSt) :
    (l.enter st).sigT = l.sigT ∧ ((l.enter st).evtCount = l.evtCount ∨ (l.enter st).evtCount = []) := by
  unfold LoafSt.enter
  split
  · exact ⟨rfl, .inl rfl⟩
  · split
    · exact ⟨rfl, .inr rfl⟩
    · exact ⟨rfl, .inl rfl⟩

theorem State.loafTo_follows (h : Follows R) (n : Fin 4) (st : LoafState) (s : State) : R s (s.loafTo n st) := by
  unfold State.loafTo
  refine h.trans ?_ (h.loaf _ n _ (LoafSt.enter_counts st))
  split
  · exact h.edges n s
  · exact h.refl s

theorem State.loafSafe_follows (h : Follows R) (l : List (Fin 4)) (n : Fin 4) (s : State) : R s (s.loafSafe l n) := by
  unfold State.loafSafe
  dsimp only
  split
  · split
    · have h1 := State.loafTo_follows h n .isolated s
      split
      · exact h.restAfter h1 (by simp)
      · exact h1
    · exact h.restBefore (State.loafTo_follows h n .fault _) (State.isoUndo_drive n s)
  · exact h.refl s

theorem State.isolatedToFault_follows (h : Follows R) (g : Fin 4) (s : State) : R s (s.isolatedToFault g) := by
  refine forAll_follows h (fun n x => ?_) _ s
  split
  · exact State.loafTo_follows h n .fault x
  · exact h.refl x

theorem State.groupSafe_follows (h : Follows R) (g : Fin 4) (s : State) : R s (s.groupSafe g) := by
  unfold State.groupSafe
  split
  · exact h.restAfter (h.restBefore (State.isolatedToFault_follows h g _) (State.modGrp_drive s g _))
      ((State.brakeOffFor_drive g _).trans (State.unpublish_drive g _))
  · exact h.refl s

theorem State.groupsBare_follows (h : Follows R) (s : State) : R s s.groupsBare := by
  refine forAll_follows h (fun g x => ?_) _ s
  split
  · exact State.groupSafe_follows h g x
  · exact h.refl x

theorem State.groupStopped_follows (h : Follows R) (g : Fin 4) (off : Bool) (s : State) : R s (s.groupStopped g off) := by
  unfold State.groupStopped
  extract_lets s1 s2
  have h1 : R s s1 := State.isolatedToFault_follows h g s
  have h2 : R s1 s2 := by
    unfold s2
    split
    · refine forAll_follows h (fun n x => ?_) _ s1
      split
      · exact h.refl x
      · exact State.loafTo_follows h n .off x
    · exact h.refl s1
  exact h.restAfter (h.trans h1 h2) (by simp)

theorem State.safeToStopped_follows (h : Follows R) (s : State) : R s s.safeToStopped := by
  refine forAll_follows h (fun g x => ?_) _ s
  split
  · exact State.groupStopped_follows h g false x
  · exact h.refl x

/-! ## Enables -/

theorem State.gateFall_follows (h : Follows R) (s : State) : R s s.gateFall := by
  unfold State.gateFall
  extract_lets s1 s2
  have h1 : R s s1 := forAll_follows h (fun n x => h.trans (State.loafTo_follows h n .off x)
    (h.loaf _ n (fun l => { l with holdOff := true }) (fun _ => ⟨rfl, .inl rfl⟩))) _ s
  have h2 : R s s2 := h.trans h1 (forAll_follows h (State.groupSafe_follows h) _ s1)
  split
  · exact h.restAfter h2 (State.brakesOff_drive s2)
  · exact h2

theorem State.dropGen_follows (h : Follows R) (ch : Chan) (s : State) : R s (s.dropGen ch) := by
  unfold State.dropGen
  split
  · exact h.restAfter (h.trans (h.fall ch s) (State.gateFall_follows h _)) (State.safetyReport_drive ..)
  · exact h.refl s

/-- No enable is wanted while boundary scan holds the pads (R81, R375). -/
theorem State.genWanted_tapHold {ch : Chan} {s : State} (hw : s.genWanted ch = true) : s.safety.tapHold = false := by
  unfold State.genWanted at hw
  simp only [Bool.and_eq_true, Bool.not_eq_true'] at hw
  obtain ⟨⟨-, hhold⟩, -⟩ := hw
  exact hhold

theorem State.updateGen_follows (h : Follows R) (ch : Chan) (s : State) : R s (s.updateGen ch) := by
  unfold State.updateGen State.raiseGen
  split
  next hw =>
    split
    · exact h.refl s
    · exact h.restAfter (h.rise ch s (State.genWanted_tapHold hw)) (State.safetyReport_drive ..)
  · exact State.dropGen_follows h ch s

/-! ## Safety demands and reactions -/

theorem State.enterSafe_follows (h : Follows R) (code inst : Half) (s : State) : R s (s.enterSafe code inst) := by
  unfold State.enterSafe
  extract_lets s1 known
  have h1 : R s s1 := h.trans (State.dropGen_follows h .c s) (State.dropGen_follows h .m _)
  refine h.restAfter h1 ?_
  split
  · rfl
  · split
    · rfl
    · simp

theorem State.demandSto_follows (h : Follows R) (ch : Chan) (s : State) : R s (s.demandSto ch) := by
  unfold State.demandSto
  extract_lets ss1 s1 s2
  have h1 : R s s1 := by
    unfold s1
    split
    · exact h.refl s
    · exact h.rest (State.bump_drive s _)
  have h2 : R s s2 := h.trans h1 (h.restBefore (State.dropGen_follows h ch _) (by cases ch <;> rfl))
  split
  · exact h.trans h2 (State.enterSafe_follows h _ _ s2)
  · exact h2

theorem State.ss1End_follows (h : Follows R) (ch : Chan) (s : State) : R s (s.ss1End ch) :=
  h.restAfter (h.restBefore (State.demandSto_follows h ch _) (State.safetyReport_drive ch 1 s)) rfl

theorem State.ss1Start_follows (h : Follows R) (ch : Chan) (s : State) : R s (s.ss1Start ch) := by
  unfold State.ss1Start
  split
  · exact h.refl s
  · extract_lets s1
    have h1 : R s s1 := h.rest ((State.stopAll_drive _).trans (by cases ch <;> rfl))
    split
    · exact h.trans h1 (State.ss1End_follows h ch s1)
    · exact h1

theorem State.ss1Ask_follows (h : Follows R) (ch : Chan) (s : State) : R s (s.ss1Ask ch) := by
  unfold State.ss1Ask
  split
  · exact h.refl s
  · exact h.restBefore (State.ss1Start_follows h ch _) (State.safetyReport_drive ch 2 s)

theorem State.react_follows (h : Follows R) (r : Nat) (code inst : Half) (s : State) : R s (s.react r code inst) := by
  unfold State.react
  extract_lets ls gs
  have hloaves : ∀ l, R s (forAll l (fun n x => x.loafSafe ls n) s) := fun l => forAll_follows h (State.loafSafe_follows h ls) l s
  split
  · exact h.refl s
  · exact h.rest (State.reactUnit_drive code s)
  · have h2 := h.trans (hloaves ls) (State.groupsBare_follows h _)
    split
    · exact h.trans h2 (forAll_follows h (State.groupSafe_follows h) gs _)
    · exact h2
  · exact h.restAfter (hloaves _) (forAll_drive (f := fun g x => x.groupDegrade g) (fun _ _ => rfl) gs _)
  · exact h.restAfter (hloaves _) (forAll_drive State.groupStop_drive gs _)
  · split
    · exact State.enterSafe_follows h code inst s
    · exact h.restBefore (h.trans (State.ss1Ask_follows h .c _) (State.ss1Ask_follows h .m _)) rfl
  · exact h.restBefore (State.enterSafe_follows h code inst _) rfl

/-! ## Reports -/

theorem State.enter_follows (h : Follows R) (code inst : Half) (data : Int) (fl : Nat) (inj : Bool) (s : State) :
    R s (s.enter code inst data fl inj) := by
  unfold State.enter
  extract_lets c hard p s1
  split
  · exact h.rest ((State.captureFault_drive ..).trans (State.latchC0_drive ..))
  · have h1 : R s s1 := h.rest (State.captureFault_drive ..)
    split
    · exact h.trans h1 (State.react_follows h _ code inst s1)
    · exact h1

theorem State.latch_follows (h : Follows R) (code inst : Half) (data : Int) (s : State) : R s (s.latch code inst data) := by
  unfold State.latch
  split
  · exact h.refl s
  · extract_lets co s1 s2
    have h1 : R s s1 := h.rest (forAll_drive (f := State.endInj) (fun _ _ => rfl) co s)
    have h2 : R s1 s2 := by
      unfold s2
      split
      · exact h.rest rfl
      · exact State.enter_follows h ..
    exact h.restAfter (h.trans h1 h2) (forAll_drive State.logCancel_drive co s2)

theorem State.fbFollow_follows (h : Follows R) (s : State) : R s s.fbFollow := by
  have hsets : ∀ (c : Fin 4) (x : State), R x (x.fbInvalidSets c) := fun c x => by
    refine forAll_follows h (fun g y => ?_) _ x
    split
    · exact State.latch_follows h _ _ _ y
    · exact h.refl y
  refine forAll_follows h (fun c x => ?_) _ s
  dsimp only
  split
  · exact h.refl x
  · split
    · exact h.restBefore (hsets c _) rfl
    · exact h.rest rfl

theorem State.follow_follows (h : Follows R) (s : State) : R s s.follow := by
  have h1 : R s s.groupsBare.modeFollow := h.restAfter (State.groupsBare_follows h s) (State.modeFollow_drive _)
  have h2 := h.trans h1 (h.trans (State.updateGen_follows h .c _) (State.updateGen_follows h .m _))
  exact h.restAfter (h.trans h2 (State.safeToStopped_follows h _))
    ((State.beatFollow_drive _).trans ((State.brakeFollow_drive _).trans (State.modeFollow_drive _)))

theorem State.patternFollow_follows (h : Follows R) (s : State) : R s s.patternFollow := by
  refine forAll_follows h (fun n x => ?_) _ s
  dsimp only
  split
  · exact h.refl x
  · exact h.trans (h.edges n x) (h.loaf _ n _ (fun _ => ⟨rfl, .inl rfl⟩))

/-- Everything that follows from an event keeps it. -/
theorem State.settle_follows (h : Follows R) (s : State) : R s s.settle :=
  h.trans (State.fbFollow_follows h s) (h.trans (State.follow_follows h _)
    (h.restBefore (State.patternFollow_follows h _) (State.answerWaiting_drive _)))
theorem State.fault_follows (h : Follows R) (code inst : Half) (data : Int) (s : State) : R s (s.fault code inst data) :=
  h.trans (State.latch_follows h code inst data s) (State.settle_follows h _)

/-! ## The account of a loaf's edges is its own -/

/-- Loaf `n` alone may have changed. -/
def OnLoaf (n : Fin 4) (s t : State) : Prop := ∃ l, t = { s with loaf := s.loaf.set n l }

theorem Quad.set_get_self {α : Type} (q : Quad α) (n : Fin 4) : q.set n (q.get n) = q := by
  match n with
  | 0 => rfl
  | 1 => rfl
  | 2 => rfl
  | 3 => rfl
theorem Quad.set_set_same {α : Type} (q : Quad α) (n : Fin 4) (a b : α) : (q.set n a).set n b = q.set n b := by
  match n with
  | 0 => rfl
  | 1 => rfl
  | 2 => rfl
  | 3 => rfl

theorem OnLoaf.refl (n : Fin 4) (s : State) : OnLoaf n s s := ⟨s.loaf.get n, by rw [Quad.set_get_self]⟩
theorem OnLoaf.modLoaf {n : Fin 4} {s t : State} (h : OnLoaf n s t) (f : LoafSt → LoafSt) : OnLoaf n s (t.modLoaf n f) := by
  obtain ⟨l, rfl⟩ := h
  exact ⟨f ((s.loaf.set n l).get n), by unfold State.modLoaf; rw [Quad.set_set_same]⟩
theorem OnLoaf.forAll {n : Fin 4} {α : Type} {f : α → State → State} {s : State} (hf : ∀ a x, OnLoaf n s x → OnLoaf n s (f a x))
    (l : List α) {t : State} (h : OnLoaf n s t) : OnLoaf n s (forAll l f t) := by
  unfold Machine.forAll
  induction l generalizing t with
  | nil => exact h
  | cons a l ih => exact ih (hf a t h)

theorem OnLoaf.occur {n : Fin 4} {s t : State} (h : OnLoaf n s t) (src k : Nat) : OnLoaf n s (t.occur n src k) := by
  unfold State.occur
  split
  · exact h
  · refine OnLoaf.forAll (fun x y hy => ?_) _ h
    dsimp only
    split
    · exact hy.modLoaf _
    · exact hy
theorem OnLoaf.phaseEdges {n : Fin 4} {s t : State} (h : OnLoaf n s t) (p g e : Nat) : OnLoaf n s (t.phaseEdges n p g e) := by
  unfold State.phaseEdges
  split
  · exact h
  · exact ((h.occur _ _).occur _ _).modLoaf _
theorem State.pwmTo_onLoaf (n : Fin 4) (s : State) : OnLoaf n s (s.pwmTo n) := by
  unfold State.pwmTo
  extract_lets l e wants s1
  split
  · exact OnLoaf.refl n s
  · refine OnLoaf.modLoaf ?_ _
    unfold s1
    split
    · exact OnLoaf.forAll (fun p x hx => hx.phaseEdges p _ _) _ (OnLoaf.refl n s)
    · exact OnLoaf.refl n s

theorem State.pwmTo_safety (n : Fin 4) (s : State) : (s.pwmTo n).safety = s.safety := by
  obtain ⟨l, h⟩ := s.pwmTo_onLoaf n
  rw [h]
theorem State.pwmTo_time (n : Fin 4) (s : State) : (s.pwmTo n).time = s.time := by
  obtain ⟨l, h⟩ := s.pwmTo_onLoaf n
  rw [h]
/-- A loaf accounted up to now. -/
theorem State.pwmTo_accounted (n : Fin 4) (s : State) : (s.pwmTo n).time.now ≤ ((s.pwmTo n).loaf.get n).sigT := by
  rw [State.pwmTo_time]
  unfold State.pwmTo
  extract_lets l e wants s1
  split
  next hle => exact hle
  · rw [State.modLoaf_loaf, Quad.get_set_same]

/-! ## An event channel's count -/

/-- Loaf `n` is accounted up to now, and nothing has been counted on its event channel `x` since. -/
def CountsNone (n : Fin 4) (x : Nat) (s : State) : Prop :=
  s.time.now ≤ (s.loaf.get n).sigT ∧ (s.loaf.get n).evtCount.getD x 0 = 0

/-- What follows from an event counts nothing on a loaf that is accounted up to it. -/
theorem countsNone_follows (n : Fin 4) (x : Nat) : Follows (fun s t => CountsNone n x s → CountsNone n x t) where
  refl _ := id
  trans hst htu := htu ∘ hst
  rest {s t} hdrive hs := by
    have hloaf : t.loaf = s.loaf := congrArg Prod.fst hdrive
    have htime : t.time = s.time := congrArg (fun d => d.2.1) hdrive
    unfold CountsNone
    rwa [hloaf, htime]
  loaf s m f hf hs := by
    obtain ⟨hsig, hcount⟩ := hf (s.loaf.get n)
    unfold CountsNone
    by_cases hm : n = m
    · subst hm
      simp only [State.modLoaf_time, State.modLoaf_loaf, Quad.get_set_same]
      refine ⟨hsig ▸ hs.1, ?_⟩
      rcases hcount with hcount | hcount <;> rw [hcount]
      · exact hs.2
      · rfl
    · rw [State.modLoaf_time, State.modLoaf_loaf, Quad.get_set_ne _ _ hm]
      exact hs
  edges m s hs := by
    by_cases hm : n = m
    · subst hm
      unfold State.pwmTo
      rwa [if_pos hs.1]
    · obtain ⟨l, h⟩ := s.pwmTo_onLoaf m
      rw [h]
      unfold CountsNone
      rw [Quad.get_set_ne _ _ hm]
      exact hs
  fall ch s hs := by cases ch <;> exact hs
  rise ch s _ hs := by cases ch <;> exact hs

/-! ## Enables under boundary scan -/

/-- Boundary scan holds the pads and both enables are low. -/
def Scanned (s : State) : Prop := s.safety.tapHold = true ∧ s.safety.genC = false ∧ s.safety.genM = false

/-- While boundary scan holds the pads, nothing that follows from an event raises an enable (R81, R375). -/
theorem scanned_follows : Follows (fun s t => Scanned s → Scanned t) where
  refl _ := id
  trans hst htu := htu ∘ hst
  rest {s t} hdrive hs := by
    have hc : t.safety.genC = s.safety.genC := congrArg (fun d => d.2.2.1) hdrive
    have hm : t.safety.genM = s.safety.genM := congrArg (fun d => d.2.2.2.1) hdrive
    have hhold : t.safety.tapHold = s.safety.tapHold := congrArg (fun d => d.2.2.2.2) hdrive
    unfold Scanned
    rwa [hc, hm, hhold]
  loaf _ _ _ _ hs := hs
  edges n s hs := by
    unfold Scanned
    rwa [State.pwmTo_safety]
  fall ch s hs := by
    obtain ⟨hhold, hc, hm⟩ := hs
    cases ch
    · exact ⟨hhold, rfl, hm⟩
    · exact ⟨hhold, hc, rfl⟩
  rise ch s hfree hs := absurd (hs.1.symm.trans hfree) Bool.true_eq_false.mp

end Sys2Proof.Machine
end

section
/-! Object writes that act (O26): each object has one row, and what a taken write of that row does is read off the row. -/

namespace Sys2Proof.Machine

open Sys2Proof

/-! ## The row of an address -/

/-- The values of a type. -/
def ObjTy.bounds : ObjTy → Int × Int
  | .u8 => (0, 255)
  | .i16 => (-32768, 32767)
  | .u16 => (0, 65535)
  | .i32 => (-2147483648, 2147483647)
  | .u32 => (0, 4294967295)
  | .u64 => (0, 18446744073709551615)
  | .q16 => (-2147483648, 2147483647)
  | .blob => (1, 0)

theorem ObjTy.fits_of_bounds {ty : ObjTy} {v : Int} (hlo : ty.bounds.1 ≤ v) (hhi : v ≤ ty.bounds.2) : ty.fits v := by
  cases ty <;> simp only [ObjTy.bounds, ObjTy.fits] at * <;> omega

/-- The object at an address has the row, whose limits its type holds, and its writes form no commit. -/
def RowAt (a : Nat) (r : ObjRow) : Prop :=
  a < 2 ^ 24 ∧ a % 0x100 ≠ 0 ∧ objRow (a / 0x100) (a % 0x100) = some r ∧ baseIndex (a / 0x100) ≠ 0x2003
    ∧ r.ty.bounds.1 ≤ r.min ∧ r.max ≤ r.ty.bounds.2

theorem hostWrite_rowAt {a : Nat} {r : ObjRow} {v : Int} {s : State} (h : RowAt a r) (ht : Taken a v s) :
    s.hostWrite confSrc a v = ((s.takeWrite confSrc r (a / 0x100) (a % 0x100) v).sends confSrc a v).settle := by
  obtain ⟨hlt, hsub, hrow, hopen, hlo, hhi⟩ := h
  exact hostWrite_taken confSrc ht hlt hsub hrow (fun h1 h2 => ObjTy.fits_of_bounds (hlo.trans h1) (h2.trans hhi))
    (fun n e => hopen ((congrArg baseIndex e).trans (baseIndex_openCmp n)))

/-- A taken value lies in the row's limits. -/
theorem taken_limits {a : Nat} {r : ObjRow} {v : Int} {s : State} (h : RowAt a r) (ht : Taken a v s) : r.min ≤ v ∧ v ≤ r.max := by
  obtain ⟨-, -, hrow, -⟩ := h
  obtain ⟨-, -, ⟨r', hr', hv⟩, -⟩ := ht
  obtain rfl : r' = r := Option.some.inj (hr'.symm.trans hrow)
  exact hv

/-- A command that writes an object does what its row says, and its packet is on its way. -/
theorem acts {c : Instr} {a : Nat} {r : ObjRow} {v : Int} {s u : State} (h : RowAt a r)
    (hu : s.takeWrite confSrc r (a / 0x100) (a % 0x100) v = u) (hc : exec c s = .next (s.hostWrite confSrc a v)) (ht : Taken a v s) :
    ∃ t', exec c s = .next t' ∧ Quiet (u.sends confSrc a v) t' := by
  rw [hc, hostWrite_rowAt h ht, hu]
  exact ⟨_, rfl, State.settle_quiet _⟩

/-- For an object of region M that is all. -/
theorem acts_m {c : Instr} {a : Nat} {r : ObjRow} {v : Int} {s u : State} (h : RowAt a r)
    (hu : s.takeWrite confSrc r (a / 0x100) (a % 0x100) v = u) (hm : regionC (a / 0x100) = false)
    (hc : exec c s = .next (s.hostWrite confSrc a v)) (ht : Taken a v s) : ∃ t', exec c s = .next t' ∧ Quiet u t' := by
  have ⟨hlt, _, hrow, _⟩ := h
  rw [← State.sends_m (src := confSrc) (v := v) (s := u) hlt hrow hm]
  exact acts h hu hc ht

/-! ## The rows -/

theorem rowAt_supplyFlags : RowAt Obj.supplyFlags ⟨0x1005, 7, 7, .u16, .w1c, .none, 0, 0, 65535⟩ := by
  unfold RowAt
  decide +kernel
theorem rowAt_satFlags : ∀ k : Fin 6, RowAt (Obj.satFlags k.val) ⟨0x300F, 1, 1, .u16, .w1c, .none, 0, 0, 65535⟩ := by
  unfold RowAt
  decide +kernel
theorem rowAt_idxArm : ∀ n : Fin 4, RowAt (Obj.idxArm n.val) ⟨0x4001, 4, 4, .u8, .wo, .none, 0, 1, 1⟩ := by
  unfold RowAt
  decide +kernel
theorem rowAt_idxMode : ∀ n : Fin 4, RowAt (Obj.idxMode n.val) ⟨0x4001, 1, 1, .u8, .rw, .b, 0, 0, 2⟩ := by
  unfold RowAt
  decide +kernel
theorem rowAt_fbMode : ∀ n : Fin 4, RowAt (Obj.fbMode n.val) ⟨0x4000, 1, 1, .u8, .rw, .b, 0, 0, 5⟩ := by
  unfold RowAt
  decide +kernel
theorem rowAt_fbDirInv : ∀ n : Fin 4, RowAt (Obj.fbDirInv n.val) ⟨0x4000, 3, 3, .u8, .rw, .b, 0, 0, 1⟩ := by
  unfold RowAt
  decide +kernel
theorem rowAt_evtSrc : ∀ (n : Fin 4) (x : Fin 3), RowAt (Obj.evtSrc n.val x.val) ⟨0x2004, 1, 3, .u8, .rw, .b, 0, 0, 8⟩ := by
  unfold RowAt
  decide +kernel
theorem rowAt_evtPresc : ∀ (n : Fin 4) (x : Fin 3), RowAt (Obj.evtPresc n.val x.val) ⟨0x2005, 1, 3, .u8, .rw, .b, 1, 1, 16⟩ := by
  unfold RowAt
  decide +kernel
theorem rowAt_grpLoaves : ∀ g : Fin 4, RowAt (Obj.grpLoaves g.val) ⟨0x5408, 1, 1, .u8, .rw, .b, 0, 0, 15⟩ := by
  unfold RowAt
  decide +kernel
theorem rowAt_tuInc : ∀ u : Fin 7, RowAt (Obj.tuInc u.val) ⟨0x8401, 1, 7, .u64, .rw, .none, 0x500000000, 0x400000000, 0x600000000⟩ := by
  unfold RowAt
  decide +kernel
theorem rowAt_tuLoad : ∀ u : Fin 7, RowAt (Obj.tuLoad u.val) ⟨0x8402, 1, 7, .u8, .wo, .none, 0, 1, 1⟩ := by
  unfold RowAt
  decide +kernel
theorem rowAt_hbNet : RowAt Obj.hbNet ⟨0x6300, 3, 3, .u32, .rw, .none, 0, 0, 0xffffffff⟩ := by
  unfold RowAt
  decide +kernel
theorem rowAt_listTrig : ∀ l : Fin 2, RowAt (Obj.listTrig l.val) ⟨0x9030, 1, 2, .u8, .rw, .none, 0, 0, 2⟩ := by
  unfold RowAt
  decide +kernel
theorem rowAt_manGo : RowAt Obj.manGo ⟨0x9020, 3, 3, .u8, .wo, .none, 0, 1, 1⟩ := by
  unfold RowAt
  decide +kernel
theorem rowAt_ppAbort : RowAt Obj.ppAbort ⟨0x9000, 2, 2, .u8, .wo, .none, 0, 1, 1⟩ := by
  unfold RowAt
  decide +kernel
theorem rowAt_attestNonce : RowAt Obj.attestNonce ⟨0xB005, 1, 1, .u64, .rw, .none, 0, 0, 0xffffffffffffffff⟩ := by
  unfold RowAt
  decide +kernel

theorem regionC_tuInc : ∀ u : Fin 7, regionC (Obj.tuInc u.val / 0x100) = false := by decide
theorem regionC_tuLoad : ∀ u : Fin 7, regionC (Obj.tuLoad u.val / 0x100) = false := by decide
theorem regionC_listTrig : ∀ l : Fin 2, regionC (Obj.listTrig l.val / 0x100) = false := by decide

/-! ## What the rows' writes do -/

/-- A write to flags clears those written as 1 (R17). -/
theorem State.takeWrite_w1c {a : Nat} {r : ObjRow} {v : Int} {s : State} (hacc : r.acc = .w1c) (hlo : 0 ≤ v) (hhi : v ≤ 65535) :
    s.takeWrite confSrc r (a / 0x100) (a % 0x100) v = s.wr a ((s.rdN a &&& (65535 ^^^ v.toNat) : Nat) : Int) := by
  have ha : a / 0x100 * 0x100 + a % 0x100 = a := Nat.div_add_mod' a 0x100
  have hv : v.toNat % 65536 = v.toNat := Nat.mod_eq_of_lt (by omega)
  unfold State.takeWrite
  rw [hacc]
  dsimp only
  rw [ha, hv]

/-- The channels of a loaf with one count started again. -/
def LoafSt.restartCount (x : Nat) (l : LoafSt) : LoafSt :=
  { l with evtCount := ([0, 1, 2].map (fun i => l.evtCount.getD i 0)).set x 0 }

theorem takeWrite_idxArm (s : State) : ∀ n : Fin 4, s.takeWrite confSrc ⟨0x4001, 4, 4, .u8, .wo, .none, 0, 1, 1⟩ (Obj.idxArm n.val / 0x100)
    (Obj.idxArm n.val % 0x100) 1 = s.modFb n (fun f => { f with armed := true })
  | 0 => rfl
  | 1 => rfl
  | 2 => rfl
  | 3 => rfl
theorem takeWrite_idxMode (s : State) (v : Int) : ∀ n : Fin 4, s.takeWrite confSrc ⟨0x4001, 1, 1, .u8, .rw, .b, 0, 0, 2⟩
    (Obj.idxMode n.val / 0x100) (Obj.idxMode n.val % 0x100) v = (s.wr (Obj.idxMode n.val) v).modFb n (fun f => { f with armed := false })
  | 0 => rfl
  | 1 => rfl
  | 2 => rfl
  | 3 => rfl
theorem takeWrite_fbMode (s : State) (v : Int) : ∀ n : Fin 4, s.takeWrite confSrc ⟨0x4000, 1, 1, .u8, .rw, .b, 0, 0, 5⟩
    (Obj.fbMode n.val / 0x100) (Obj.fbMode n.val % 0x100) v = (s.wr (Obj.fbMode n.val) v).fbRestart n
  | 0 => rfl
  | 1 => rfl
  | 2 => rfl
  | 3 => rfl
theorem takeWrite_fbDirInv (s : State) (v : Int) : ∀ n : Fin 4, s.takeWrite confSrc ⟨0x4000, 3, 3, .u8, .rw, .b, 0, 0, 1⟩
    (Obj.fbDirInv n.val / 0x100) (Obj.fbDirInv n.val % 0x100) v = (s.wr (Obj.fbDirInv n.val) v).fbRestart n
  | 0 => rfl
  | 1 => rfl
  | 2 => rfl
  | 3 => rfl
theorem takeWrite_grpLoaves (s : State) (v : Int) : ∀ g : Fin 4, s.takeWrite confSrc ⟨0x5408, 1, 1, .u8, .rw, .b, 0, 0, 15⟩
    (Obj.grpLoaves g.val / 0x100) (Obj.grpLoaves g.val % 0x100) v = (s.wr (Obj.grpLoaves g.val) v).bindLoaves g v
  | 0 => rfl
  | 1 => rfl
  | 2 => rfl
  | 3 => rfl
theorem takeWrite_evtSrc (s : State) (v : Int) : ∀ (n : Fin 4) (x : Fin 3),
    s.takeWrite confSrc ⟨0x2004, 1, 3, .u8, .rw, .b, 0, 0, 8⟩ (Obj.evtSrc n.val x.val / 0x100) (Obj.evtSrc n.val x.val % 0x100) v
      = ((s.pwmTo n).wr (Obj.evtSrc n.val x.val) v).modLoaf n (LoafSt.restartCount x.val)
  | 0, 0 | 0, 1 | 0, 2 | 1, 0 | 1, 1 | 1, 2 | 2, 0 | 2, 1 | 2, 2 | 3, 0 | 3, 1 | 3, 2 => rfl
theorem takeWrite_evtPresc (s : State) (v : Int) : ∀ (n : Fin 4) (x : Fin 3),
    s.takeWrite confSrc ⟨0x2005, 1, 3, .u8, .rw, .b, 1, 1, 16⟩ (Obj.evtPresc n.val x.val / 0x100) (Obj.evtPresc n.val x.val % 0x100) v
      = ((s.pwmTo n).wr (Obj.evtPresc n.val x.val) v).modLoaf n (LoafSt.restartCount x.val)
  | 0, 0 | 0, 1 | 0, 2 | 1, 0 | 1, 1 | 1, 2 | 2, 0 | 2, 1 | 2, 2 | 3, 0 | 3, 1 | 3, 2 => rfl
theorem takeWrite_tuInc (s : State) (v : Int) : ∀ u : Fin 7,
    s.takeWrite confSrc ⟨0x8401, 1, 7, .u64, .rw, .none, 0x500000000, 0x400000000, 0x600000000⟩ (Obj.tuInc u.val / 0x100)
      (Obj.tuInc u.val % 0x100) v = s.wr (Obj.tuInc u.val) v
  | 0 | 1 | 2 | 3 | 4 | 5 | 6 => rfl
theorem takeWrite_tuLoad (s : State) : ∀ u : Fin 7,
    s.takeWrite confSrc ⟨0x8402, 1, 7, .u8, .wo, .none, 0, 1, 1⟩ (Obj.tuLoad u.val / 0x100) (Obj.tuLoad u.val % 0x100) 1
      = s.modTime (fun t => { t with unitPending := t.unitPending.set u.val true })
  | 0 | 1 | 2 | 3 | 4 | 5 | 6 => rfl
theorem takeWrite_hbNet (s : State) (v : Int) : s.takeWrite confSrc ⟨0x6300, 3, 3, .u32, .rw, .none, 0, 0, 0xffffffff⟩ (Obj.hbNet / 0x100)
    (Obj.hbNet % 0x100) v = if s.rd Obj.hbNet ≠ v ∧ (s.wr Obj.hbNet v).rdBit Obj.hbSrc 1 then (s.wr Obj.hbNet v).hostBeat else s.wr Obj.hbNet v :=
  rfl
theorem takeWrite_listTrig (s : State) (v : Int) : ∀ l : Fin 2,
    s.takeWrite confSrc ⟨0x9030, 1, 2, .u8, .rw, .none, 0, 0, 2⟩ (Obj.listTrig l.val / 0x100) (Obj.listTrig l.val % 0x100) v
      = (s.wr (Obj.listTrig l.val) v).modPp (fun p =>
        if l.val = 0 then { p with evt0 := 0, trig0 := s.time.now } else { p with evt1 := 0, trig1 := s.time.now })
  | 0 | 1 => rfl
theorem takeWrite_manGo (s : State) : s.takeWrite confSrc ⟨0x9020, 3, 3, .u8, .wo, .none, 0, 1, 1⟩ (Obj.manGo / 0x100) (Obj.manGo % 0x100) 1
    = (s.modPp (fun p => { p with manual := true })).wr Obj.manStat 0x4000 := rfl
theorem takeWrite_ppAbort (s : State) :
    s.takeWrite confSrc ⟨0x9000, 2, 2, .u8, .wo, .none, 0, 1, 1⟩ (Obj.ppAbort / 0x100) (Obj.ppAbort % 0x100) 1 = s.ppEarly 1 := rfl
theorem takeWrite_attestNonce (s : State) (v : Int) :
    s.takeWrite confSrc ⟨0xB005, 1, 1, .u64, .rw, .none, 0, 0, 0xffffffffffffffff⟩ (Obj.attestNonce / 0x100) (Obj.attestNonce % 0x100) v
      = (s.wr Obj.attestNonce v).askAttest v := rfl

/-! ## A restarted event channel (R208) -/

theorem LoafSt.restartCount_zero (l : LoafSt) : ∀ x : Fin 3, (l.restartCount x.val).evtCount.getD x.val 0 = 0
  | 0 | 1 | 2 => rfl

theorem State.sends_rd (src : Source) (a : Nat) (v : Int) (s : State) (b : Nat) : (s.sends src a v).rd b = s.rd b := by
  obtain ⟨l, w, h⟩ := s.sends_eq src a v
  rw [h]
  rfl

/-- A channel's restart, with its loaf accounted before, leaves nothing counted. -/
theorem countsNone_restart (n : Fin 4) (x : Fin 3) (a b : Nat) (v : Int) (s : State) :
    CountsNone n x.val ((((s.pwmTo n).wr a v).modLoaf n (LoafSt.restartCount x.val)).sends confSrc b v) := by
  obtain ⟨l, w, h⟩ := State.sends_eq confSrc b v (((s.pwmTo n).wr a v).modLoaf n (LoafSt.restartCount x.val))
  rw [h]
  unfold CountsNone
  dsimp only
  rw [State.modLoaf_loaf, Quad.get_set_same]
  exact ⟨s.pwmTo_accounted n, LoafSt.restartCount_zero _ x⟩

/-- A command that writes an object of an event channel starts the channel's count again, and what follows counts nothing. -/
theorem restarts {c : Instr} {a : Nat} {r : ObjRow} {v : Int} {n : Fin 4} {x : Fin 3} {s : State} (h : RowAt a r) (hkept : a ∉ collectorObjs)
    (hu : s.takeWrite confSrc r (a / 0x100) (a % 0x100) v = ((s.pwmTo n).wr a v).modLoaf n (LoafSt.restartCount x.val))
    (hc : exec c s = .next (s.hostWrite confSrc a v)) (ht : Taken a v s) :
    ∃ t, exec c s = .next t ∧ Quiet ((((s.pwmTo n).wr a v).modLoaf n (LoafSt.restartCount x.val)).sends confSrc a v) t
      ∧ t.rd a = v ∧ (t.loaf.get n).evtCount.getD x.val 0 = 0 := by
  rw [hc, hostWrite_rowAt h ht, hu]
  have hquiet := State.settle_quiet ((((s.pwmTo n).wr a v).modLoaf n (LoafSt.restartCount x.val)).sends confSrc a v)
  have hnone := State.settle_follows (countsNone_follows n x.val) _ (countsNone_restart n x a a v s)
  refine ⟨_, rfl, hquiet, ?_, hnone.2⟩
  rw [quiet_rd hquiet hkept, State.sends_rd]
  exact State.rd_wr_same _ a v

theorem evtSrc_not_collected : ∀ (n : Fin 4) (x : Fin 3), Obj.evtSrc n.val x.val ∉ collectorObjs := by decide +kernel
theorem evtPresc_not_collected : ∀ (n : Fin 4) (x : Fin 3), Obj.evtPresc n.val x.val ∉ collectorObjs := by decide +kernel

/-! ## The network heartbeat (R368) -/

theorem State.rdBit_of_rd {s t : State} {a : Nat} (h : t.rd a = s.rd a) (i : Nat) : t.rdBit a i = s.rdBit a i := by
  unfold State.rdBit State.rdN
  rw [h]

theorem takeWrite_hbNet_beat {s : State} {v : Int} (hold : s.rd Obj.hbNet ≠ v) (hsrc : s.rdBit Obj.hbSrc 1 = true) :
    s.takeWrite confSrc ⟨0x6300, 3, 3, .u32, .rw, .none, 0, 0, 0xffffffff⟩ (Obj.hbNet / 0x100) (Obj.hbNet % 0x100) v
      = (s.wr Obj.hbNet v).modFlt (fun f => { f with
          lastBeat := s.time.now, hbSaid := false, hbArmed := decide (s.rd Obj.hbTimeout ≠ 0) }) := by
  have hbit : (s.wr Obj.hbNet v).rdBit Obj.hbSrc 1 = s.rdBit Obj.hbSrc 1 := State.rdBit_of_rd (s.rd_wr_ne v (by decide)) 1
  rw [takeWrite_hbNet, if_pos ⟨hold, hbit.trans hsrc⟩, State.hostBeat, State.rd_wr_ne s v (by decide)]
  rfl
theorem takeWrite_hbNet_none {s : State} {v : Int} (h : s.rd Obj.hbNet = v ∨ s.rdBit Obj.hbSrc 1 = false) :
    s.takeWrite confSrc ⟨0x6300, 3, 3, .u32, .rw, .none, 0, 0, 0xffffffff⟩ (Obj.hbNet / 0x100) (Obj.hbNet % 0x100) v
      = s.wr Obj.hbNet v := by
  have hbit : (s.wr Obj.hbNet v).rdBit Obj.hbSrc 1 = s.rdBit Obj.hbSrc 1 := State.rdBit_of_rd (s.rd_wr_ne v (by decide)) 1
  rw [takeWrite_hbNet, hbit]
  refine if_neg (fun hboth => ?_)
  obtain ⟨hold, hsrc⟩ := hboth
  rcases h with h | h
  · exact hold h
  · exact absurd (h.symm.trans hsrc) Bool.false_ne_true

/-! ## O26 -/

/-- A command that writes flags clears those written as 1 (R17). -/
theorem takeWrite_flags {a : Nat} {r : ObjRow} {v : Int} {s : State} (h : RowAt a r) (hacc : r.acc = .w1c) (hmin : r.min = 0)
    (hmax : r.max = 65535) (ht : Taken a v s) : s.takeWrite confSrc r (a / 0x100) (a % 0x100) v
      = s.wr a ((s.rdN a &&& (65535 ^^^ v.toNat) : Nat) : Int) := by
  obtain ⟨hlo, hhi⟩ := taken_limits h ht
  exact State.takeWrite_w1c hacc (hmin ▸ hlo) (hmax ▸ hhi)

theorem exec_attestationFormed {n : Nat} {s : State} (signature : List Byte) (hk : s.askard = true) (ha : s.sec.attest = some n) :
    exec (.attestationFormed signature) s = .next ((s.setBlob Obj.attest (s.attestBody n ++ slice signature 0 64)).modSec (fun x =>
      { x with attest := x.attestNext, attestNext := none })) := by
  show execAttestationFormed signature s = _
  unfold execAttestationFormed
  rw [ha]
  exact if_pos hk

end Sys2Proof.Machine

namespace Sys2Proof

open Sys2Proof.Machine

/-- Settles O26: each object has one row, and its taken write is read off it once per object; a restarted event channel's count stays at 0
through all that follows. -/
theorem actingWrites : Obligations.ActingWrites := by
  unfold Obligations.ActingWrites
  refine ⟨?_, ?_, ?_, ?_, ?_, ?_, ?_, ?_, ?_, ?_, ?_, ?_, ?_, ?_, ?_, ?_⟩
  case refine_1 => exact fun v s ht => acts_m rowAt_supplyFlags (takeWrite_flags rowAt_supplyFlags rfl rfl rfl ht) rfl rfl ht
  case refine_2 => exact fun k v s ht => acts (rowAt_satFlags k) (takeWrite_flags (rowAt_satFlags k) rfl rfl rfl ht) rfl ht
  case refine_3 => exact fun n s ht => acts (rowAt_idxArm n) (takeWrite_idxArm s n) rfl ht
  case refine_4 => exact fun n v s ht => acts (rowAt_idxMode n) (takeWrite_idxMode s v n) rfl ht
  case refine_5 =>
    exact fun n v s => ⟨fun ht => acts (rowAt_fbMode n) (takeWrite_fbMode s v n) rfl ht,
      fun ht => acts (rowAt_fbDirInv n) (takeWrite_fbDirInv s v n) rfl ht⟩
  case refine_6 =>
    exact fun n x v s => ⟨fun ht => restarts (rowAt_evtSrc n x) (evtSrc_not_collected n x) (takeWrite_evtSrc s v n x) rfl ht,
      fun ht => restarts (rowAt_evtPresc n x) (evtPresc_not_collected n x) (takeWrite_evtPresc s v n x) rfl ht⟩
  case refine_7 => exact fun g v s ht => acts (rowAt_grpLoaves g) (takeWrite_grpLoaves s v g) rfl ht
  case refine_8 => exact fun u v s ht => acts_m (rowAt_tuInc u) (takeWrite_tuInc s v u) (regionC_tuInc u) rfl ht
  case refine_9 => exact fun u s ht => acts_m (rowAt_tuLoad u) (takeWrite_tuLoad s u) (regionC_tuLoad u) rfl ht
  case refine_10 => exact fun v s ht hold hsrc => acts_m rowAt_hbNet (takeWrite_hbNet_beat hold hsrc) rfl rfl ht
  case refine_11 => exact fun v s ht h => acts_m rowAt_hbNet (takeWrite_hbNet_none h) rfl rfl ht
  case refine_12 => exact fun l v s ht => acts_m (rowAt_listTrig l) (takeWrite_listTrig s v l) (regionC_listTrig l) rfl ht
  case refine_13 => exact fun s ht => acts_m rowAt_manGo (takeWrite_manGo s) rfl rfl ht
  case refine_14 => exact fun s ht => acts_m rowAt_ppAbort (takeWrite_ppAbort s) rfl rfl ht
  case refine_15 => exact fun v s ht => acts_m rowAt_attestNonce (takeWrite_attestNonce s v) rfl rfl ht
  case refine_16 => exact fun signature n s hk ha => exec_attestationFormed signature hk ha

end Sys2Proof
end

section
/-! Supply monitors, the hold-up, switches, the cover and the TAPs' instructions (R64 to R66, R73, R74, R77, R81 to R84, R106, R111, R365,
R501; O5). -/

namespace Sys2Proof.Machine

open Sys2Proof

/-! ## The log keeps the faults and the power as they are (R65) -/

/-- The boot and power state, the pending faults and their events on the way, and `SUPPLY_FLAGS` are as before. -/
def Logged (s t : State) : Prop :=
  t.boot = s.boot ∧ t.power = s.power ∧ t.flt.pend = s.flt.pend ∧ t.flt.evtQ = s.flt.evtQ ∧ t.rd Obj.supplyFlags = s.rd Obj.supplyFlags

theorem logged_refl (s : State) : Logged s s := ⟨rfl, rfl, rfl, rfl, rfl⟩
theorem logged_trans {s t u : State} (h : Logged s t) (k : Logged t u) : Logged s u := by
  obtain ⟨hboot, hpower, hpend, hevt, hrd⟩ := h
  obtain ⟨kboot, kpower, kpend, kevt, krd⟩ := k
  exact ⟨kboot.trans hboot, kpower.trans hpower, kpend.trans hpend, kevt.trans hevt, krd.trans hrd⟩
theorem forAll_logged {α : Type} {f : α → State → State} (hf : ∀ a x, Logged x (f a x)) (l : List α) (s : State) :
    Logged s (forAll l f s) := by
  unfold forAll
  induction l generalizing s with
  | nil => exact logged_refl s
  | cons a l ih => exact logged_trans (hf a s) (ih (f a s))
theorem State.wr_logged {a : Nat} (v : Int) (s : State) (ha : Obj.supplyFlags ≠ a) : Logged s (s.wr a v) :=
  ⟨rfl, rfl, rfl, rfl, s.rd_wr_ne v ha⟩
theorem State.bump_logged {a : Nat} (s : State) (ha : Obj.supplyFlags ≠ a) : Logged s (s.bump a) :=
  ⟨by unfold State.bump State.bumpTo; split <;> rfl, by unfold State.bump State.bumpTo; split <;> rfl,
    by unfold State.bump State.bumpTo; split <;> rfl, by unfold State.bump State.bumpTo; split <;> rfl, s.rd_bump_ne ha⟩

theorem ethDrops_ne (q : Nat) : Obj.supplyFlags ≠ Obj.ethDrops q := by
  unfold Obj.supplyFlags Obj.ethDrops
  omega
theorem subSent_ne (j : Nat) : Obj.supplyFlags ≠ Obj.subSent j := by
  unfold Obj.supplyFlags Obj.subSent
  omega
theorem subDropped_ne (j : Nat) : Obj.supplyFlags ≠ Obj.subDropped j := by
  unfold Obj.supplyFlags Obj.subDropped
  omega
theorem connDgrams_ne (c : Nat) : Obj.supplyFlags ≠ Obj.connDgrams c := by
  unfold Obj.supplyFlags Obj.connDgrams
  omega

theorem State.queuePut_logged (q : Nat) (bc : Bool) (f : EgressFrame) (s : State) : Logged s (s.queuePut q bc f) := by
  unfold State.queuePut
  split
  · exact State.bump_logged s (ethDrops_ne q)
  · exact ⟨rfl, rfl, rfl, rfl, rfl⟩
theorem State.tcpPush_logged (s : State) : Logged s s.tcpPush := by
  refine logged_trans (t := s.modNet _) ⟨rfl, rfl, rfl, rfl, rfl⟩ (forAll_logged (fun f x => ?_) _ _)
  split
  · exact forAll_logged (fun p y => State.queuePut_logged p false _ y) _ x
  · exact logged_refl x
theorem State.ownSend_logged (ports : List Nat) (f : OwnFrame) (s : State) : Logged s (s.ownSend ports f) :=
  forAll_logged (fun p y => logged_trans (State.tcpPush_logged y) (State.queuePut_logged p false f.frame _)) ports s
theorem State.dropDelivery_logged (j : Nat) (full : Bool) (s : State) : Logged s (s.dropDelivery j full) := by
  have h := State.bump_logged s (subDropped_ne j)
  unfold State.dropDelivery
  cases full
  · exact h
  · exact logged_trans h ⟨rfl, rfl, rfl, rfl, rfl⟩
theorem State.sendDelivery_logged (j : Nat) (ws : List Word) (s : State) : Logged s (s.sendDelivery j ws) := by
  unfold State.sendDelivery
  dsimp only
  split_ifs
  · exact State.dropDelivery_logged j false s
  · exact State.dropDelivery_logged j false s
  · refine logged_trans ?_ (State.bump_logged _ (subSent_ne j))
    refine logged_trans ?_ (State.wr_logged _ _ (connDgrams_ne _))
    exact logged_trans (State.ownSend_logged _ _ s) ⟨rfl, rfl, rfl, rfl, rfl⟩
  · exact State.dropDelivery_logged j true s
  · exact State.dropDelivery_logged j false s
  · exact ⟨rfl, rfl, rfl, rfl, rfl⟩
theorem State.closeDelivery_logged (j : Nat) (s : State) : Logged s (s.closeDelivery j) := by
  unfold State.closeDelivery
  split
  · exact logged_refl s
  · exact logged_trans (t := s.modSub j _) ⟨rfl, rfl, rfl, rfl, rfl⟩ (State.sendDelivery_logged j _ _)
theorem State.streamItem_logged (j ns : Nat) (ws : List Word) (s : State) : Logged s (s.streamItem j ns ws) := by
  unfold State.streamItem
  extract_lets x s1
  have h1 : Logged s s1 := by
    unfold s1
    split
    · exact State.closeDelivery_logged j s
    · exact logged_refl s
  exact logged_trans h1 ⟨rfl, rfl, rfl, rfl, rfl⟩
theorem State.streamLog_logged (e : LogEntry) (s : State) : Logged s (s.streamLog e) := by
  refine forAll_logged (fun j x => ?_) _ s
  split
  · exact State.streamItem_logged j _ _ x
  · exact logged_refl x
theorem State.logEvent_logged (e : Event) (s : State) : Logged s (s.logEvent e) := by
  unfold State.logEvent
  extract_lets back entry s1 s2
  have h1 : Logged s s1 := ⟨rfl, rfl, rfl, rfl, rfl⟩
  have h2 : Logged s s2 := by
    unfold s2
    split
    · exact h1
    · split
      · exact logged_trans h1 ⟨rfl, rfl, rfl, rfl, rfl⟩
      · exact logged_trans h1 (State.bump_logged s1 (by decide))
  refine logged_trans ?_ (State.streamLog_logged entry _)
  split
  · exact h2
  · exact logged_trans h2 ⟨rfl, rfl, rfl, rfl, rfl⟩

/-- Flushing the logs empties the queues and changes nothing else of these. -/
theorem State.flushLogs_logged (s : State) : Logged (s.modFlt (fun f => { f with evtQ := [] })) s.flushLogs ∧ s.flushLogs.flt.nvQ = []
    ∧ s.flushLogs.sec.auditQ = [] :=
  ⟨logged_trans (forAll_logged State.logEvent_logged s.flt.evtQ _) ⟨rfl, rfl, rfl, rfl, rfl⟩, rfl, rfl⟩

/-! ## VIN below its threshold (R64, R65, R106) -/

theorem resetOver_of {s : State} (hoff : s.boot.stage ≠ .off) (hreset : s.boot.stage ≠ .inReset) : s.resetOver = true :=
  decide_eq_true ⟨hoff, hreset⟩

theorem quiet_holdup {s t : State} (h : Quiet s t) : t.boot.holdup = s.boot.holdup := (congrArg (fun x => x.boot.holdup) h.1 :)

/-- The state in which the hold-up begins. -/
def State.holdupAt (mv : Int) (s : State) : State :=
  (((s.modPower (fun p => { p with vin := mv })).modPower (fun p => { p with vinUnderNow := true, pwrgoodLow := true })).modBoot
    (fun b => { b with holdup := true })).wrBit Obj.supplyFlags 0 true

theorem exec_vinUnder_holdup {mv : Int} {s : State} (hmv : mv < 9000) (hoff : s.boot.stage ≠ .off) (hreset : s.boot.stage ≠ .inReset)
    (hhold : s.boot.holdup = false) : exec (.vinUnder mv) s
      = .next ((((s.holdupAt mv).fault 0xE001 0 mv).flushLogs).modPower (fun p => { p with resetLow := true })) := by
  show execVinUnder mv s = _
  unfold execVinUnder
  rw [if_neg (by omega), if_neg hoff, resetOver_of hoff hreset, hhold]
  rfl

/-- A code whose instances are the module's own may always be raised. -/
theorem State.raisable_all {code inst : Half} (s : State) (hrow : (codeRow code).isSome = true) (hkind : instKind code = .all)
    (hinst : inst.toNat < 256) : s.raisable code inst = true := by
  unfold State.raisable
  rw [hrow, hkind, decide_eq_true hinst]
  rfl

/-- A fault raised stands, whatever changed beside the class table before. -/
theorem State.fault_pending_of {code inst : Half} {data : Int} {s u : State} (hr : u.raisable code inst = true) (hb : u.blobs = s.blobs)
    (hc : (s.classOf code).1 ≠ .c0) : (u.fault code inst data).isPending code inst = true :=
  State.fault_pending hr (by rwa [State.classOf_congr code hb])

/-- The hold-up: the fault stands, `PWRGOOD` and `RESET_N` are low, and the logs are written. -/
theorem vinUnder_holdup {mv : Int} {s : State} (hmv : mv < 9000) (hoff : s.boot.stage ≠ .off) (hreset : s.boot.stage ≠ .inReset)
    (hhold : s.boot.holdup = false) :
    ∃ t : State, exec (.vinUnder mv) s = .next t ∧ t.power.vin = mv ∧ t.power.vinUnderNow = true ∧ t.power.pwrgoodLow = true
      ∧ t.power.resetLow = true ∧ t.boot.holdup = true ∧ t.rdBit Obj.supplyFlags 0 = true
      ∧ ((s.classOf 0xE001).1 ≠ .c0 → t.isPending 0xE001 0 = true) ∧ t.flt.evtQ = [] ∧ t.flt.nvQ = [] ∧ t.sec.auditQ = [] := by
  refine ⟨_, exec_vinUnder_holdup hmv hoff hreset hhold, ?_⟩
  have hq : Quiet (s.holdupAt mv) ((s.holdupAt mv).fault 0xE001 0 mv) := State.fault_quiet _ _ _ _
  have hflag : ((s.holdupAt mv).fault 0xE001 0 mv).rdBit Obj.supplyFlags 0 = true := by
    rw [State.rdBit_of_rd (quiet_rd hq (by decide)) 0]
    exact State.rdBit_wrBit ..
  have hraise : (s.holdupAt mv).raisable 0xE001 0 = true :=
    State.raisable_all _ (by decide +kernel) (by decide +kernel) (by decide +kernel)
  have hpending : (s.classOf 0xE001).1 ≠ .c0 → ((s.holdupAt mv).fault 0xE001 0 mv).isPending 0xE001 0 = true :=
    fun hc => State.fault_pending_of hraise (s := s) rfl hc
  generalize (s.holdupAt mv).fault 0xE001 0 mv = u at hq hflag hpending ⊢
  obtain ⟨⟨hboot, hpower, hpend, hevt, hrd⟩, hnv, haudit⟩ := u.flushLogs_logged
  have hpow : u.flushLogs.power = (s.holdupAt mv).power := hpower.trans (quiet_power hq)
  refine ⟨(congrArg PowerSt.vin hpow :), (congrArg PowerSt.vinUnderNow hpow :), (congrArg PowerSt.pwrgoodLow hpow :), rfl, ?_, ?_, ?_,
    hevt, hnv, haudit⟩
  · exact (congrArg BootSt.holdup hboot).trans (quiet_holdup hq)
  · exact (State.rdBit_of_rd hrd 0).trans hflag
  · exact fun hc => (congrArg (List.any · _) hpend).trans (hpending hc)

theorem State.noteVinLoss_rd (s : State) : s.noteVinLoss.rd Obj.vinLossS = s.time.counter.floor.toNat % 2 ^ 32
    ∧ s.noteVinLoss.rd Obj.standbyReason = 1 ∧ ObjsKept [Obj.standbyReason, Obj.vinLossS] s s.noteVinLoss := by
  have hdistinct : ([(Obj.vinLossS, (s.counterLow : Int)), (Obj.standbyReason, 1)].map Prod.fst).Nodup := by
    show [Obj.vinLossS, Obj.standbyReason].Nodup
    decide
  have hcounter : s.noteVinLoss.rd Obj.vinLossS = s.counterLow := State.rd_wrs_mem s hdistinct List.mem_cons_self
  refine ⟨hcounter.trans ?_, State.rd_wrs_mem s hdistinct (List.mem_cons_of_mem _ List.mem_cons_self), fun a ha => ?_⟩
  · unfold State.counterLow
    push_cast
    rfl
  · simp only [List.mem_cons, List.not_mem_nil, or_false, not_or] at ha
    exact State.rd_wrs_ne s (by simp [ha.1, ha.2])

/-- In STANDBY the standby domain notes the loss (R106). -/
theorem vinUnder_standby {mv : Int} {s : State} (hmv : mv < 9000) (hoff : s.boot.stage = .off) :
    ∃ t : State, exec (.vinUnder mv) s = .next t ∧ t.rd Obj.standbyReason = 1 ∧ t.rd Obj.vinLossS = s.time.counter.floor.toNat % 2 ^ 32
      ∧ t.boot = { s.boot with slept := false } ∧ t.power.vin = mv ∧ ObjsKept [Obj.standbyReason, Obj.vinLossS] s t := by
  have hexec : exec (.vinUnder mv) s
      = .next (((s.modPower (fun p => { p with vin := mv })).noteVinLoss).modBoot (fun b => { b with slept := false })) := by
    show execVinUnder mv s = _
    unfold execVinUnder
    rw [if_neg (by omega), if_pos hoff]
  obtain ⟨hcounter, hreason, hkept⟩ := (s.modPower (fun p => { p with vin := mv })).noteVinLoss_rd
  exact ⟨_, hexec, hreason, hcounter, rfl, rfl, hkept⟩

/-! ## The supply monitors (R64, R66) -/

/-- The state in which a monitor reports. -/
def State.monitored (m : Monitor) (v : Int) (s : State) : State :=
  (s.modPower (fun p => ({ p.measured m v with asserted := m :: p.asserted }).pwrgood true)).wrBit Obj.supplyFlags (monBit m) true

theorem PowerSt.measured_asserted (p : PowerSt) (m : Monitor) (v : Int) : (p.measured m v).asserted = p.asserted := by
  cases m with
  | coreRail r => cases r <;> rfl
  | _ => rfl

theorem exec_supplyMonitorFault {m : Monitor} {v : Int} {s : State} (hoff : s.boot.stage ≠ .off) (hreset : s.boot.stage ≠ .inReset)
    (hbeyond : monBeyond m s.power.vioGClass v = true) (hnew : m ∉ s.power.asserted) :
    exec (.supplyMonitorFault m v) s = .next ((s.monitored m v).supplyReport m v) := by
  have hover := resetOver_of hoff hreset
  have hcontains : s.power.asserted.contains m = false := by simpa using hnew
  show execSupplyMonitorFault m v s = _
  unfold execSupplyMonitorFault
  dsimp only
  rw [hover, hbeyond, hcontains]
  have hasserted : (if (s.power.measured m v).asserted.contains m then (s.power.measured m v).asserted
      else m :: (s.power.measured m v).asserted) = m :: s.power.asserted := by
    rw [PowerSt.measured_asserted, hcontains]
    rfl
  refine (if_pos rfl).trans (congrArg (fun x : State => Host.Outcome.next ((x.wrBit Obj.supplyFlags (monBit m) true).supplyReport m v)) ?_)
  refine Eq.trans ?_ (congrArg (fun l => s.modPower (fun p => ({ p.measured m v with asserted := l }).pwrgood true)) hasserted)
  rw [← hover]
  rfl

/-- The fault's bit of `SUPPLY_FLAGS` is set, and every monitor but that of VBAT takes `PWRGOOD` low. -/
theorem State.monitored_quiet {m : Monitor} {v : Int} {s t : State} (h : Quiet (s.monitored m v) t) :
    t.rdBit Obj.supplyFlags (monBit m) = true ∧ (m ≠ .vbatLow → t.power.pwrgoodLow = true) := by
  constructor
  · rw [State.rdBit_of_rd (quiet_rd h (by decide))]
    exact (State.rdBit_wrBit ..).trans ((if_pos rfl).trans (if_pos rfl))
  · intro hm
    have hlow : (s.monitored m v).power.pwrgoodLow = true := by
      show (!true || (s.power.measured m v).vinUnderNow || (m :: s.power.asserted).any (fun x => decide (x ≠ .vbatLow)) || _) = true
      rw [List.any_cons, decide_eq_true hm]
      simp only [Bool.true_or, Bool.or_true]
    exact (congrArg PowerSt.pwrgoodLow (quiet_power h)).trans hlow

theorem State.supplyReport_quiet (m : Monitor) (v : Int) (s : State) : Quiet s (s.supplyReport m v) := by
  unfold State.supplyReport
  split
  · exact State.faultM_quiet ..
  · exact State.reportM_mild quiet_mild (quiet_refl s)
  · exact State.fault_quiet ..

theorem State.reportM_mem (code inst : Half) (data : Int) (s : State) : (code, inst, data) ∈ (s.reportM code inst data).flt.mRep :=
  List.mem_append_right s.flt.mRep List.mem_cons_self

/-- Region M's monitors report in a `FAULT` packet (R365). -/
theorem State.supplyReport_mRep {m : Monitor} (v : Int) (s : State) (hm : m = .coreRail .m ∨ m = .vbatLow) :
    ((monCode m).1, (monCode m).2, v) ∈ (s.supplyReport m v).flt.mRep := by
  rcases hm with rfl | rfl
  · have h : s.supplyReport (.coreRail .m) v = s.faultM 0xA001 1 v := rfl
    rw [h]
    exact State.faultM_reports 0xA001 1 v s
  · exact State.reportM_mem _ _ v s

theorem monCode_everywhere (m : Monitor) :
    (codeRow (monCode m).1).isSome = true ∧ instKind (monCode m).1 = .all ∧ (monCode m).2.toNat < 256 := by
  cases m with
  | coreRail r => cases r <;> decide +kernel
  | _ => decide +kernel
/-- A monitor's code may always be raised. -/
theorem State.raisable_monCode (m : Monitor) (s : State) : s.raisable (monCode m).1 (monCode m).2 = true := by
  obtain ⟨hrow, hkind, hinst⟩ := monCode_everywhere m
  exact State.raisable_all s hrow hkind hinst

/-- The other monitors' faults stand. -/
theorem State.supplyReport_pending {m : Monitor} (v : Int) {s u : State} (hcore : m ≠ .coreRail .m) (hvbat : m ≠ .vbatLow)
    (hb : u.blobs = s.blobs) (hc : (s.classOf (monCode m).1).1 ≠ .c0) :
    (u.supplyReport m v).isPending (monCode m).1 (monCode m).2 = true := by
  have hfault : u.supplyReport m v = u.fault (monCode m).1 (monCode m).2 v := by
    unfold State.supplyReport
    split
    · exact absurd rfl hcore
    · exact absurd rfl hvbat
    · rfl
  rw [hfault]
  exact State.fault_pending_of (State.raisable_monCode m u) hb hc

theorem exec_supplyMonitorClear {m : Monitor} {v : Int} {s : State} (hoff : s.boot.stage ≠ .off) (hreset : s.boot.stage ≠ .inReset)
    (hasserted : m ∈ s.power.asserted) (hinside : monInside m s.power.vioGClass v = true) :
    exec (.supplyMonitorClear m v) s = .next (s.modPower (fun p => ({ p.measured m v with
      asserted := p.asserted.filter (fun x => decide (x ≠ m)) }).pwrgood true)) := by
  have hcontains : s.power.asserted.contains m = true := by simpa using hasserted
  have hfilter : (s.power.measured m v).asserted.filter (fun x => decide (x ≠ m)) = s.power.asserted.filter (fun x => decide (x ≠ m)) := by
    rw [PowerSt.measured_asserted]
  show execSupplyMonitorClear m v s = _
  unfold execSupplyMonitorClear
  dsimp only
  rw [hcontains, hinside]
  refine (if_pos rfl).trans (congrArg Host.Outcome.next ?_)
  refine Eq.trans ?_ (congrArg (fun l => s.modPower (fun p => ({ p.measured m v with asserted := l }).pwrgood true)) hfilter)
  rw [← resetOver_of hoff hreset]
  rfl

/-- With no fault but that of VBAT, `PWRGOOD` rises when every monitor is inside its clearing threshold and stays between (R66). -/
theorem PowerSt.pwrgood_free {p : PowerSt} (hvin : p.vinUnderNow = false) (hvbat : ∀ m ∈ p.asserted, m = .vbatLow) :
    (p.allInside = true → (p.pwrgood true).pwrgoodLow = false) ∧ (p.allInside = false → (p.pwrgood true).pwrgoodLow = p.pwrgoodLow) := by
  have hnone : p.asserted.any (fun m => decide (m ≠ .vbatLow)) = false := by simpa using hvbat
  have hlow : (p.pwrgood true).pwrgoodLow = (p.pwrgoodLow && !p.allInside) := by
    show (!true || p.vinUnderNow || p.asserted.any (fun m => decide (m ≠ .vbatLow)) || (p.pwrgoodLow && !p.allInside)) = _
    rw [hvin, hnone]
    simp only [Bool.not_true, Bool.false_or]
  constructor
  · intro hin
    rw [hlow, hin, Bool.not_true, Bool.and_false]
  · intro hout
    rw [hlow, hout, Bool.not_false, Bool.and_true]

/-! ## Junction temperatures (R77, R85) -/

theorem one_le_hotLevel {v : Int} (old : Nat) (h : 1200 < v) : 1 ≤ hotLevel old v := by
  unfold hotLevel
  split
  · exact one_le_two
  · exact (if_pos (.inl h)).ge
theorem hotLevel_eq_two {v : Int} (old : Nat) (h : 1350 < v) : hotLevel old v = 2 := if_pos (.inl h)

theorem clampI_of_mem {lo hi v : Int} (hlo : lo ≤ v) (hhi : v ≤ hi) : clampI lo hi v = v := by
  unfold clampI
  rw [if_neg (by omega), if_neg (by omega)]

/-- The sample taken and shown, by region C and by region M. -/
def State.heatedC (v : Int) (s : State) : State :=
  (s.wrs [(Obj.tempC, v), (Obj.tempPeak, if s.power.peakOk then max (s.rd Obj.tempPeak) v else v)]).modPower
    (fun p => { p with hotC := hotLevel p.hotC v, peakOk := true })
def State.heatedM (v : Int) (s : State) : State :=
  (s.wrs [(Obj.tempM, v), (Obj.tempPeak, if s.power.peakOk then max (s.rd Obj.tempPeak) v else v)]).modPower
    (fun p => { p with hotM := hotLevel p.hotM v, peakOk := true })

/-- The first threshold's report of a sample, and the second's, in the state of the sample taken. -/
def State.warm (report : Half → State → State) (old new : Nat) (s : State) : State := if old = 0 ∧ 1 ≤ new then report 0xA002 s else s
def State.hot (report : Half → State → State) (old new : Nat) (s : State) : State := if old < 2 ∧ new = 2 then report 0xA003 s else s

section

variable {R : State → State → Prop} {report : Half → State → State} {old new : Nat}

theorem Mild.warm (h : Mild R) (hr : ∀ code x, R x (report code x)) (s : State) : R s (s.warm report old new) := by
  unfold State.warm
  split
  · exact hr _ s
  · exact h.refl s
theorem Mild.hot (h : Mild R) (hr : ∀ code x, R x (report code x)) (s : State) : R s (s.hot report old new) := by
  unfold State.hot
  split
  · exact hr _ s
  · exact h.refl s
theorem Mild.temperature (h : Mild R) (hr : ∀ code x, R x (report code x)) (s : State) :
    R s ((s.warm report old new).hot report old new).settle :=
  State.settle_mild h (h.trans (h.warm hr s) (h.hot hr _))

end

theorem exec_tempMonitorC {v : Int} {s : State} (hup : s.boot.pllLocked = true) (hlo : -32768 ≤ v) (hhi : v ≤ 32767) :
    exec (.tempMonitor .c v) s = .next (((s.heatedC v).warm (fun code x => x.latch code 0 v) s.power.hotC (hotLevel s.power.hotC v)).hot
      (fun code x => x.latch code 0 v) s.power.hotC (hotLevel s.power.hotC v)).settle := by
  have hregion : s.regionUp = true := hup
  show execTempMonitor .c v s = _
  unfold execTempMonitor
  dsimp only
  rw [hregion, clampI_of_mem hlo hhi]
  rfl
theorem exec_tempMonitorM {v : Int} {s : State} (hoff : s.boot.stage ≠ .off) (hreset : s.boot.stage ≠ .inReset) (hlo : -32768 ≤ v)
    (hhi : v ≤ 32767) :
    exec (.tempMonitor .m v) s = .next (((s.heatedM v).warm (fun code x => x.reportM code 1 v) s.power.hotM (hotLevel s.power.hotM v)).hot
      (fun code x => x.reportM code 1 v) s.power.hotM (hotLevel s.power.hotM v)).settle := by
  show execTempMonitor .m v s = _
  unfold execTempMonitor
  dsimp only
  rw [resetOver_of hoff hreset, clampI_of_mem hlo hhi]
  rfl

theorem tempMonitorC {v : Int} {s : State} (hup : s.boot.pllLocked = true) (hlo : -32768 ≤ v) (hhi : v ≤ 32767) :
    ∃ t : State, exec (.tempMonitor .c v) s = .next t ∧ Quiet (s.heatedC v) t ∧ t.rd Obj.tempC = v
      ∧ (s.power.hotC = 0 → 1200 < v → (s.classOf 0xA002).1 ≠ .c0 → t.isPending 0xA002 0 = true)
      ∧ (s.power.hotC < 2 → 1350 < v → (s.classOf 0xA003).1 ≠ .c0 → t.isPending 0xA003 0 = true) := by
  refine ⟨_, exec_tempMonitorC hup hlo hhi, ?_⟩
  have hquiet : Quiet (s.heatedC v) _ := quiet_mild.temperature (report := fun code x => x.latch code 0 v) (old := s.power.hotC)
    (new := hotLevel s.power.hotC v) (fun code x => State.latch_quiet x code 0 v) (s.heatedC v)
  have hlatch : ∀ (c code : Half) (x : State), Stands c 0 x → Stands c 0 (x.latch code 0 v) :=
    fun c code x => State.latch_mild (stands_mild c 0) (fun h => h)
  refine ⟨hquiet, ?_, fun hcold hv hc => Stands.pending ?_, fun hcold hv hc => Stands.pending ?_⟩
  · rw [quiet_rd hquiet (by decide)]
    exact State.rd_wrs_mem s (by show [Obj.tempC, Obj.tempPeak].Nodup; decide) List.mem_cons_self
  · refine State.settle_mild (stands_mild 0xA002 0) ((stands_mild 0xA002 0).hot (hlatch 0xA002) _) ?_
    unfold State.warm
    rw [if_pos ⟨hcold, one_le_hotLevel _ hv⟩]
    exact State.latch_stands (State.raisable_all _ (by decide +kernel) (by decide +kernel) (by decide +kernel)) hc
  · have hwarm : Quiet (s.heatedC v) ((s.heatedC v).warm (fun code x => x.latch code 0 v) s.power.hotC (hotLevel s.power.hotC v)) :=
      quiet_mild.warm (fun code x => State.latch_quiet x code 0 v) _
    have hblobs : (s.heatedC v).blobs = s.blobs := rfl
    refine State.settle_mild (stands_mild 0xA003 0) (fun h => h) ?_
    unfold State.hot
    rw [if_pos ⟨hcold, hotLevel_eq_two _ hv⟩]
    refine State.latch_stands (State.raisable_all _ (by decide +kernel) (by decide +kernel) (by decide +kernel)) ?_
    rwa [State.classOf_congr 0xA003 ((quiet_blobs hwarm).trans hblobs)]

theorem tempMonitorM {v : Int} {s : State} (hoff : s.boot.stage ≠ .off) (hreset : s.boot.stage ≠ .inReset) (hlo : -32768 ≤ v)
    (hhi : v ≤ 32767) :
    ∃ t : State, exec (.tempMonitor .m v) s = .next t ∧ Quiet (s.heatedM v) t ∧ t.rd Obj.tempM = v
      ∧ (s.power.hotM = 0 → 1200 < v → (0xA002, 1, v) ∈ t.flt.mRep)
      ∧ (s.power.hotM < 2 → 1350 < v → (0xA003, 1, v) ∈ t.flt.mRep) := by
  refine ⟨_, exec_tempMonitorM hoff hreset hlo hhi, ?_⟩
  have hquiet : Quiet (s.heatedM v) _ := quiet_mild.temperature (report := fun code x => x.reportM code 1 v) (old := s.power.hotM)
    (new := hotLevel s.power.hotM v) (fun code x => State.reportM_mild quiet_mild (quiet_refl x)) (s.heatedM v)
  refine ⟨hquiet, ?_, fun hcold hv => (State.settle_reported _).subset ?_, fun hcold hv => (State.settle_reported _).subset ?_⟩
  · rw [quiet_rd hquiet (by decide)]
    exact State.rd_wrs_mem s (by show [Obj.tempM, Obj.tempPeak].Nodup; decide) List.mem_cons_self
  · have hwarm : (0xA002, 1, v) ∈ ((s.heatedM v).warm (fun code x => x.reportM code 1 v) s.power.hotM (hotLevel s.power.hotM v)).flt.mRep := by
      unfold State.warm
      rw [if_pos ⟨hcold, one_le_hotLevel _ hv⟩]
      exact State.reportM_mem 0xA002 1 v _
    unfold State.hot
    split
    · exact (State.reportM_gated 0xA003 1 v _).1.subset hwarm
    · exact hwarm
  · unfold State.hot
    rw [if_pos ⟨hcold, hotLevel_eq_two _ hv⟩]
    exact State.reportM_mem 0xA003 1 v _

/-! ## Switches (R73) -/

/-- The power state after a poll of switch `i`. -/
def PowerSt.polled (p1 p2 : BitVec 12) (i : Nat) (p : PowerSt) : PowerSt :=
  let put := fun (v : BitVec 12) (b : Bool) => BitVec.ofNat 12 (putBit v.toNat i b)
  if p1.getLsbD i = p2.getLsbD i then
    { p with swDiscrep := put p.swDiscrep false, swAgreed := put p.swAgreed true, swDisRun := p.swDisRun.set i 0
             swNow := put p.swNow (p1.getLsbD i) }
  else
    { p with swDiscrep := put p.swDiscrep true, swDisRun := p.swDisRun.set i (min (p.swDisRun.getD i 0 + 1) 13)
             swNow := if p.swAgreed.getLsbD i then p.swNow else put p.swNow (p2.getLsbD i) }

theorem State.auditEvent_rest (s : State) (a b c d e f : Nat) :
    (s.auditEvent a b c d e f).power = s.power ∧ (s.auditEvent a b c d e f).objs = s.objs ∧ (s.auditEvent a b c d e f).mode = s.mode := by
  obtain ⟨q, n, h⟩ := s.auditEvent_only a b c d e f
  rw [h]
  exact ⟨rfl, rfl, rfl⟩

/-- A poll changes the power state, and beside it what it reports alone. -/
theorem State.pollSwitch_only (p1 p2 : BitVec 12) (i : Nat) (s : State) :
    (s.pollSwitch p1 p2 i).power = s.power.polled p1 p2 i ∧ (s.pollSwitch p1 p2 i).objs = s.objs ∧ (s.pollSwitch p1 p2 i).mode = s.mode := by
  unfold State.pollSwitch PowerSt.polled
  dsimp only
  split
  · split
    · obtain ⟨hpower, hobjs, hmode⟩ := State.auditEvent_rest (State.reportM 0xE402 (mkInst i 0) 0 _) 0x0041 9 0xFF 0 0 _
      exact ⟨hpower, hobjs, hmode⟩
    · exact ⟨rfl, rfl, rfl⟩
  · split <;> exact ⟨rfl, rfl, rfl⟩

theorem getLsbD_putBit (v : BitVec 12) (i : Nat) {j : Nat} (b : Bool) (hj : j < 12) :
    (BitVec.ofNat 12 (putBit v.toNat i b)).getLsbD j = if j = i then b else v.getLsbD j := by
  rw [BitVec.getLsbD_ofNat, decide_eq_true hj, Bool.true_and, testBit_putBit, BitVec.testBit_toNat]

/-- Switch `j`'s bits are as before, and the binding of the reset. -/
def SwitchKept (j : Nat) (p q : PowerSt) : Prop :=
  q.swDiscrep.getLsbD j = p.swDiscrep.getLsbD j ∧ q.swNow.getLsbD j = p.swNow.getLsbD j ∧ q.swAgreed.getLsbD j = p.swAgreed.getLsbD j

/-- What a poll shows of switch `j`. -/
def SwitchPolled (p1 p2 : BitVec 12) (j : Nat) (p q : PowerSt) : Prop :=
  q.swDiscrep.getLsbD j = (p1.getLsbD j != p2.getLsbD j)
    ∧ (p1.getLsbD j = p2.getLsbD j → q.swNow.getLsbD j = p1.getLsbD j ∧ q.swAgreed.getLsbD j = true)
    ∧ (p1.getLsbD j ≠ p2.getLsbD j → p.swAgreed.getLsbD j = true → q.swNow.getLsbD j = p.swNow.getLsbD j)

theorem PowerSt.polled_kept (p1 p2 : BitVec 12) {i j : Nat} (p : PowerSt) (hj : j < 12) (hne : j ≠ i) : SwitchKept j p (p.polled p1 p2 i) := by
  have hput : ∀ (v : BitVec 12) (b : Bool), (BitVec.ofNat 12 (putBit v.toNat i b)).getLsbD j = v.getLsbD j := fun v b =>
    (getLsbD_putBit v i b hj).trans (if_neg hne)
  unfold PowerSt.polled
  dsimp only
  split
  · exact ⟨hput _ _, hput _ _, hput _ _⟩
  · refine ⟨hput _ _, ?_, rfl⟩
    dsimp only
    split
    · rfl
    · exact hput _ _
theorem PowerSt.polled_shows (p1 p2 : BitVec 12) {i : Nat} (p : PowerSt) (hi : i < 12) : SwitchPolled p1 p2 i p (p.polled p1 p2 i) := by
  have hput : ∀ (v : BitVec 12) (b : Bool), (BitVec.ofNat 12 (putBit v.toNat i b)).getLsbD i = b := fun v b =>
    (getLsbD_putBit v i b hi).trans (if_pos rfl)
  unfold PowerSt.polled SwitchPolled
  dsimp only
  split
  next heq => exact ⟨(hput _ _).trans (by simp [heq]), fun _ => ⟨hput _ _, hput _ _⟩, fun hne => absurd heq hne⟩
  next hne => exact ⟨(hput _ _).trans (by simp [hne]), fun heq => absurd heq hne, fun _ hagreed => by rw [if_pos hagreed]⟩
theorem PowerSt.polled_swReset (p1 p2 : BitVec 12) (i : Nat) (p : PowerSt) : (p.polled p1 p2 i).swReset = p.swReset := by
  unfold PowerSt.polled
  dsimp only
  split <;> rfl

/-- The first `k` switches polled. -/
def State.polledUpTo (p1 p2 : BitVec 12) (k : Nat) (s : State) : State := forAll (List.range k) (fun i x => x.pollSwitch p1 p2 i) s

theorem State.polledUpTo_succ (p1 p2 : BitVec 12) (k : Nat) (s : State) :
    s.polledUpTo p1 p2 (k + 1) = (s.polledUpTo p1 p2 k).pollSwitch p1 p2 k := by
  unfold State.polledUpTo forAll
  rw [List.range_succ, List.foldl_append]
  rfl

theorem State.polledUpTo_rest (p1 p2 : BitVec 12) (k : Nat) (s : State) :
    (s.polledUpTo p1 p2 k).power.swReset = s.power.swReset ∧ (s.polledUpTo p1 p2 k).objs = s.objs ∧ (s.polledUpTo p1 p2 k).mode = s.mode := by
  induction k with
  | zero => exact ⟨rfl, rfl, rfl⟩
  | succ k ih =>
    obtain ⟨ihreset, ihobjs, ihmode⟩ := ih
    obtain ⟨hpower, hobjs, hmode⟩ := (s.polledUpTo p1 p2 k).pollSwitch_only p1 p2 k
    rw [State.polledUpTo_succ, hpower, hobjs, hmode, PowerSt.polled_swReset]
    exact ⟨ihreset, ihobjs, ihmode⟩

/-- A switch not polled yet is as it was. -/
theorem State.polledUpTo_kept (p1 p2 : BitVec 12) {k j : Nat} (s : State) (hj : j < 12) (hk : k ≤ j) :
    SwitchKept j s.power (s.polledUpTo p1 p2 k).power := by
  induction k with
  | zero => exact ⟨rfl, rfl, rfl⟩
  | succ k ih =>
    obtain ⟨kd, kn, ka⟩ := ih (Nat.le_of_succ_le hk)
    obtain ⟨hd, hn, ha⟩ := PowerSt.polled_kept p1 p2 (i := k) (s.polledUpTo p1 p2 k).power hj (by omega)
    rw [State.polledUpTo_succ, (State.pollSwitch_only ..).1]
    exact ⟨hd.trans kd, hn.trans kn, ha.trans ka⟩

/-- A switch polled shows the poll. -/
theorem State.polledUpTo_shows (p1 p2 : BitVec 12) {k j : Nat} (s : State) (hj : j < 12) (hk : j < k) :
    SwitchPolled p1 p2 j s.power (s.polledUpTo p1 p2 k).power := by
  induction k with
  | zero => exact absurd hk (Nat.not_lt_zero j)
  | succ k ih =>
    rw [State.polledUpTo_succ, (State.pollSwitch_only ..).1]
    rcases Nat.lt_or_eq_of_le (Nat.le_of_lt_succ hk) with hlt | rfl
    · obtain ⟨kd, kagree, kdiffer⟩ := ih hlt
      obtain ⟨hd, hn, ha⟩ := PowerSt.polled_kept p1 p2 (i := k) (s.polledUpTo p1 p2 k).power hj (by omega)
      exact ⟨hd.trans kd, fun heq => ⟨hn.trans (kagree heq).1, ha.trans (kagree heq).2⟩, fun hne hagreed => hn.trans (kdiffer hne hagreed)⟩
    · obtain ⟨kd, kn, ka⟩ := s.polledUpTo_kept p1 p2 hj (Nat.le_refl j)
      obtain ⟨hd, hagree, hdiffer⟩ := PowerSt.polled_shows p1 p2 (s.polledUpTo p1 p2 j).power hj
      exact ⟨hd, hagree, fun hne hagreed => (hdiffer hne (ka.trans hagreed)).trans kn⟩

theorem exec_switchPoll (p1 p2 : BitVec 12) {s : State} (h : s.boot.stage = .askard) :
    exec (.switchPoll p1 p2) s = .next (s.polledUpTo p1 p2 12) := if_pos (decide_eq_true h)

/-! ## The cover (R74, R111) -/

/-- The standby domain samples while it has its supply. -/
def State.standbyRuns (s : State) : Prop := s.power.standbyLost = false ∨ (9500 < s.power.vin ∧ s.power.vin < 33000)

theorem not_standbyDead {s : State} (h : s.standbyRuns) : ¬ (s.power.standbyLost && !vinInRange s.power.vin) = true := by
  unfold State.standbyRuns at h
  unfold vinInRange
  rcases h with h | h <;> simp [h]

/-- The opening as the standby domain counts and stamps it. -/
def State.coverOpened (s : State) : State :=
  (((s.modPower (fun p => { p with coverOpen := true })).bumpTo Obj.coverCount 65535).wr Obj.coverLast (s.counterLow : Int)).modSafety
    (fun f => { f with coverSince := true })

theorem State.bumpTo_rest (s : State) (a : Nat) (top : Int) : (s.bumpTo a top).power = s.power ∧ (s.bumpTo a top).safety = s.safety := by
  unfold State.bumpTo
  split <;> exact ⟨rfl, rfl⟩
theorem State.rd_bumpTo_same (s : State) (a : Nat) (top : Int) : (s.bumpTo a top).rd a = min (s.rd a + 1) top := by
  unfold State.bumpTo
  split <;> (rw [State.rd_wr_same]; omega)
theorem State.rd_bumpTo_ne (s : State) {a b : Nat} (top : Int) (h : b ≠ a) : (s.bumpTo a top).rd b = s.rd b := by
  unfold State.bumpTo
  split <;> exact State.rd_wr_ne s _ h

theorem State.coverOpened_count (s : State) : s.coverOpened.rd Obj.coverCount = min (s.rd Obj.coverCount + 1) 65535 :=
  (State.rd_wr_ne _ _ (by decide)).trans (State.rd_bumpTo_same ..)
theorem State.coverOpened_last (s : State) : s.coverOpened.rd Obj.coverLast = s.time.counter.floor.toNat % 2 ^ 32 := by
  have h : s.coverOpened.rd Obj.coverLast = (s.counterLow : Int) := State.rd_wr_same _ Obj.coverLast _
  rw [h]
  unfold State.counterLow
  push_cast
  rfl
theorem State.coverOpened_rd_ne (s : State) {a : Nat} (hcount : a ≠ Obj.coverCount) (hlast : a ≠ Obj.coverLast) :
    s.coverOpened.rd a = s.rd a := (State.rd_wr_ne _ _ hlast).trans (State.rd_bumpTo_ne _ _ hcount)
theorem State.coverOpened_open (s : State) : s.coverOpened.power.coverOpen = true :=
  congrArg PowerSt.coverOpen (State.bumpTo_rest (s.modPower (fun p => { p with coverOpen := true })) Obj.coverCount 65535).1

/-- Askard copies the count into its flash and audits the opening (R111, R498). -/
theorem exec_coverSample_open {s : State} (h : s.standbyRuns) (hclosed : s.power.coverOpen = false) :
    exec (.coverSample true) s = .next (if s.askard then (s.coverOpened.modPower (fun p => { p with
      coverFlash := s.coverOpened.rdN Obj.coverCount, coverLastFlash := s.coverOpened.rdN Obj.coverLast })).auditEvent 0x0040 9 0xFF 0 0
      (s.coverOpened.rdN Obj.coverCount) else s.coverOpened) := by
  show execCoverSample true s = _
  unfold execCoverSample
  rw [if_neg (not_standbyDead h), hclosed]
  exact (if_pos rfl).trans (apply_ite Host.Outcome.next _ _ _).symm
theorem exec_coverSample_closed {s : State} (h : s.standbyRuns) :
    exec (.coverSample false) s = .next (s.modPower (fun p => { p with coverOpen := false })) := if_neg (not_standbyDead h)

theorem coverSample_open {s : State} (h : s.standbyRuns) (hclosed : s.power.coverOpen = false) :
    ∃ t : State, exec (.coverSample true) s = .next t ∧ t.power.coverOpen = true ∧ t.safety.coverSince = true
      ∧ t.rd Obj.coverCount = min (s.rd Obj.coverCount + 1) 65535 ∧ t.rd Obj.coverLast = s.time.counter.floor.toNat % 2 ^ 32
      ∧ ∀ a, a ≠ Obj.coverCount → a ≠ Obj.coverLast → t.rd a = s.rd a := by
  refine ⟨_, exec_coverSample_open h hclosed, ?_⟩
  split
  · obtain ⟨q, n, haudit⟩ := State.auditEvent_only (s.coverOpened.modPower (fun p => { p with
      coverFlash := s.coverOpened.rdN Obj.coverCount, coverLastFlash := s.coverOpened.rdN Obj.coverLast })) 0x0040 9 0xFF 0 0
      (s.coverOpened.rdN Obj.coverCount)
    rw [haudit]
    exact ⟨s.coverOpened_open, rfl, s.coverOpened_count, s.coverOpened_last, fun a => s.coverOpened_rd_ne⟩
  · exact ⟨s.coverOpened_open, rfl, s.coverOpened_count, s.coverOpened_last, fun a => s.coverOpened_rd_ne⟩

/-! ## The TAPs (R81 to R84, R501) -/

/-- A TAP with an instruction loaded. -/
def State.tapLoaded (r : Region) (ins : TapIns) (s : State) : State := match r with
  | .c => { s with tapC := { ins := ins, upd := s.tapC.upd } }
  | .m => { s with tapM := { ins := ins, upd := s.tapM.upd } }
/-- The instruction of a region's TAP. -/
def State.tapIns (r : Region) (s : State) : TapIns := match r with
  | .c => s.tapC.ins
  | .m => s.tapM.ins

theorem exec_tapInstructionLoad_idle (r : Region) {ins : TapIns} {s : State} (hlock : s.sec.unlocked = true)
    (hins : ins = .bypass ∨ ins = .idcode ∨ ins = .samplePreload) : exec (.tapInstructionLoad r ins) s = .next (s.tapLoaded r ins) := by
  show execTapInstructionLoad r ins s = _
  unfold execTapInstructionLoad
  rw [hlock]
  rcases hins with rfl | rfl | rfl <;> cases r <;> rfl

/-- Boundary scan takes the pads, and its start is audited (R81, R501). -/
def State.scanHeld (r : Region) (ins : TapIns) (code : Nat) (s : State) : State :=
  ((((s.tapLoaded r ins).modSafety (fun f => { f with tapHold := true })).modBoot (fun b => { b with resetOnly := true })).auditEvent
    0x0051 8 0xFF 0 0 (Config.tapCode code))
/-- Both enables fall, with the crust trip while region C is up. -/
def State.enablesDropped (s : State) : State :=
  let s2 := (s.dropGen .c).dropGen .m
  if s.regionUp then s2.crustTrip 14 else s2

theorem exec_tapInstructionLoad_scan (r : Region) {ins : TapIns} {s : State} (hlock : s.sec.unlocked = true)
    (hins : ins = .extest ∨ ins = .clamp ∨ ins = .highz) :
    ∃ code, exec (.tapInstructionLoad r ins) s = .next ((s.scanHeld r ins code).enablesDropped.fault 0xF001 0 0) := by
  have hup : ∀ code, (s.scanHeld r ins code).regionUp = s.regionUp := fun code => by cases r <;> rfl
  show ∃ code, execTapInstructionLoad r ins s = _
  unfold execTapInstructionLoad State.enablesDropped
  rw [hlock]
  rcases hins with rfl | rfl | rfl
  · exact ⟨0, by rw [hup]; cases r <;> rfl⟩
  · exact ⟨1, by rw [hup]; cases r <;> rfl⟩
  · exact ⟨2, by rw [hup]; cases r <;> rfl⟩

/-- What the load of an instruction that takes the pads leaves before the enables fall. -/
theorem State.scanHeld_rest (r : Region) (ins : TapIns) (code : Nat) (s : State) :
    (s.scanHeld r ins code).safety.tapHold = true ∧ (s.scanHeld r ins code).boot.resetOnly = true
      ∧ (s.scanHeld r ins code).tapIns r = ins ∧ (s.scanHeld r ins code).blobs = s.blobs := by
  obtain ⟨q, n, h⟩ := State.auditEvent_only (((s.tapLoaded r ins).modSafety (fun f => { f with tapHold := true })).modBoot
    (fun b => { b with resetOnly := true })) 0x0051 8 0xFF 0 0 (Config.tapCode code)
  unfold State.scanHeld
  rw [h]
  cases r <;> exact ⟨rfl, rfl, rfl, rfl⟩

theorem quiet_tapIns {s t : State} (h : Quiet s t) (r : Region) : t.tapIns r = s.tapIns r := by
  cases r
  · exact congrArg TapSt.ins (quiet_tapC h)
  · exact congrArg TapSt.ins (quiet_tapM h)
theorem quiet_tapHold {s t : State} (h : Quiet s t) : t.safety.tapHold = s.safety.tapHold :=
  (congrArg SafetySt.tapHold (quiet_safety h) :)

theorem State.dropGen_m_genC (s : State) : (s.dropGen .m).safety.genC = s.safety.genC := by
  unfold State.dropGen
  split
  · obtain ⟨-, hc, -⟩ := gated_trans (State.gateFall_gated (s.setGen .m false)) (State.safetyReport_gated .m 0x100 _)
    exact hc
  · rfl

/-- No enable rises with another's fall while boundary scan holds the pads. -/
theorem State.dropGens_scanned {s : State} (h : s.safety.tapHold = true) : Scanned ((s.dropGen .c).dropGen .m) := by
  have hhold := (quiet_tapHold (quiet_trans (State.dropGen_quiet .c s) (State.dropGen_quiet .m _))).trans h
  have hm : ((s.dropGen .c).dropGen .m).safety.genM = false := State.dropGen_genOf .m _
  have hc : ((s.dropGen .c).dropGen .m).safety.genC = false := ((s.dropGen .c).dropGen_m_genC).trans (State.dropGen_genOf .c s)
  exact ⟨hhold, hc, hm⟩

theorem State.enablesDropped_rest {s : State} (h : s.safety.tapHold = true) :
    Scanned s.enablesDropped ∧ s.enablesDropped.boot.resetOnly = s.boot.resetOnly ∧ s.enablesDropped.blobs = s.blobs
      ∧ ∀ r, s.enablesDropped.tapIns r = s.tapIns r := by
  have hquiet : Quiet s ((s.dropGen .c).dropGen .m) := quiet_trans (State.dropGen_quiet .c s) (State.dropGen_quiet .m _)
  have hscanned := State.dropGens_scanned h
  unfold State.enablesDropped
  dsimp only
  split
  · obtain ⟨o, l, y, htrip⟩ := ((s.dropGen .c).dropGen .m).crustTrip_only 14
    rw [htrip]
    refine ⟨hscanned, (quiet_resetOnly hquiet :), (quiet_blobs hquiet :), fun r => Eq.trans ?_ (quiet_tapIns hquiet r)⟩
    cases r <;> rfl
  · exact ⟨hscanned, quiet_resetOnly hquiet, quiet_blobs hquiet, quiet_tapIns hquiet⟩

/-- An instruction that takes the pads holds every power stage off and is reported (R81, R378). -/
theorem tapInstructionLoad_scan (r : Region) {ins : TapIns} {s : State} (hlock : s.sec.unlocked = true)
    (hins : ins = .extest ∨ ins = .clamp ∨ ins = .highz) :
    ∃ t : State, exec (.tapInstructionLoad r ins) s = .next t ∧ Scanned t ∧ t.boot.resetOnly = true ∧ t.tapIns r = ins
      ∧ ((s.classOf 0xF001).1 ≠ .c0 → t.isPending 0xF001 0 = true) := by
  obtain ⟨code, hexec⟩ := exec_tapInstructionLoad_scan r hlock hins
  obtain ⟨hhold, hreset, htap, hblobs⟩ := s.scanHeld_rest r ins code
  obtain ⟨kscanned, kreset, kblobs, ktap⟩ := State.enablesDropped_rest hhold
  have hquiet := State.fault_quiet (s.scanHeld r ins code).enablesDropped 0xF001 0 0
  have hraise : (s.scanHeld r ins code).enablesDropped.raisable 0xF001 0 = true :=
    State.raisable_all _ (by decide +kernel) (by decide +kernel) (by decide +kernel)
  refine ⟨_, hexec, State.fault_follows scanned_follows _ _ _ _ kscanned, ?_, ?_, ?_⟩
  · exact (quiet_resetOnly hquiet).trans (kreset.trans hreset)
  · exact (quiet_tapIns hquiet r).trans ((ktap r).trans htap)
  · exact State.fault_pending_of hraise (kblobs.trans hblobs)

theorem exec_tapRelock {s : State} (hlock : s.sec.unlocked = true) (hservice : s.serviceOpen = false) :
    exec .tapRelock s = .next s.relock.settle := by
  show execTapRelock s = _
  unfold execTapRelock
  rw [hlock, hservice]
  rfl

end Sys2Proof.Machine

namespace Sys2Proof

open Sys2Proof.Machine

/-- Settles O5: the hold-up by what its log flush keeps, the monitors by how they report, the switches by induction over the poll, and
the pads by what everything that follows from the fault keeps low. -/
theorem suppliesAndInputs : Obligations.SuppliesAndInputs := by
  unfold Obligations.SuppliesAndInputs
  refine ⟨?_, ?_, ?_, ?_, ?_, ?_, ?_, ?_, ?_, ?_, ?_, ?_, ?_, ?_, ?_⟩
  case refine_1 => exact fun mv s hmv hoff hreset hhold => vinUnder_holdup hmv hoff hreset hhold
  case refine_2 => exact fun mv s hmv => if_pos hmv
  case refine_3 => exact fun mv s hmv hoff => vinUnder_standby hmv hoff
  case refine_4 =>
    intro m v s hoff hreset hbeyond hnew
    have hquiet := State.supplyReport_quiet m v (s.monitored m v)
    obtain ⟨hflag, hlow⟩ := State.monitored_quiet hquiet
    exact ⟨_, exec_supplyMonitorFault hoff hreset hbeyond hnew, hquiet, hflag, hlow, State.supplyReport_mRep v _,
      fun hcore hvbat hc => State.supplyReport_pending v hcore hvbat rfl hc⟩
  case refine_5 => exact fun m v s hoff hreset hasserted hinside => exec_supplyMonitorClear hoff hreset hasserted hinside
  case refine_6 => exact fun p hvin hvbat => PowerSt.pwrgood_free hvin hvbat
  case refine_7 => exact fun v s hup hlo hhi => tempMonitorC hup hlo hhi
  case refine_8 => exact fun v s hoff hreset hlo hhi => tempMonitorM hoff hreset hlo hhi
  case refine_9 =>
    intro s hoff hvin
    exact if_pos ⟨hoff, by rw [vinInRange, decide_eq_false hvin, Bool.not_false]⟩
  case refine_10 =>
    intro p1 p2 s hrun
    obtain ⟨hreset, hobjs, hmode⟩ := s.polledUpTo_rest p1 p2 12
    refine ⟨_, exec_switchPoll p1 p2 hrun, fun i hi => ?_⟩
    obtain ⟨hdiscrep, hagree, hdiffer⟩ := s.polledUpTo_shows p1 p2 hi hi
    exact ⟨hdiscrep, hagree, hdiffer, hreset, hobjs, hmode⟩
  case refine_11 => exact fun s hruns hclosed => coverSample_open hruns hclosed
  case refine_12 => exact fun s hruns => exec_coverSample_closed hruns
  case refine_13 =>
    exact fun ins s hlock hins => ⟨exec_tapInstructionLoad_idle .c hlock hins, exec_tapInstructionLoad_idle .m hlock hins⟩
  case refine_14 =>
    intro r ins s hlock hins
    obtain ⟨t, hexec, ⟨hhold, hc, hm⟩, hreset, htap, hpending⟩ := tapInstructionLoad_scan r hlock hins
    exact ⟨t, hexec, hhold, hreset, allOff_of_gen hc, hc, hm, by cases r <;> exact htap, hpending⟩
  case refine_15 => exact fun s hlock hservice => ⟨_, exec_tapRelock hlock hservice, State.settle_quiet s.relock⟩

end Sys2Proof
end

section
/-! A class table that names the stop of CK_SAFE (R29, R371): no reaction follows, and the enable rises again with the event that
dropped it. -/

namespace Sys2Proof

open Sys2Proof.Machine

/-- A class table of one entry, which gives 0x9C02 class C1 and no reaction (R371). -/
def classTableC1 : List Byte := [0x02, 0x9C, 0x01] ++ List.replicate 509 0

/-- A module in READY with both dies up and both enables high, and that class table. -/
def misclassed : State :=
  ((({ State.reset with mode := .ready }).modBoot (fun b => { b with stage := .askard, pllLocked := true })).modSafety (fun f => { f with
    genC := true, genM := true })).setBlob Obj.classTable classTableC1

/-- Whether channel C's enable is high after a step. -/
def genCAfter : Host.Outcome State Fault Refusal → Bool
  | .next t => t.safety.genC
  | _ => false

theorem misclassed_genC : genCAfter (exec .ckSafeStop misclassed) = true := by decide +kernel

/-- Refutes O4, in the last part of its `ckSafeStop` clause: that `GEN_C` is low once everything has followed from the stop. The stop
drops it, and it is the reaction of 0x9C02 that keeps it low. That clause asks nothing of the class table, and in `misclassed` the code
has class C1 and no reaction, so what follows from the event finds R375's conditions met and raises `GEN_C` again. R371 takes no written
table that names 0x9C02, whose class is fixed (R372), and the model's writes keep to that; the statement is of every state. -/
theorem not_referencesAndClocks : ¬ Obligations.ReferencesAndClocks := by
  unfold Obligations.ReferencesAndClocks
  rintro ⟨-, -, -, -, -, -, hstop, -⟩
  obtain ⟨t, ht, -, -, hlow⟩ := hstop misclassed rfl
  obtain ⟨hgen, -⟩ := hlow (by decide +kernel)
  have hhigh := misclassed_genC
  rw [ht] at hhigh
  exact Bool.false_ne_true (hgen.symm.trans hhigh)

end Sys2Proof
end

section
/-! The ways into a reset (R65, R87, R88, R101, R108, R109; O1), and what of the state outlives one. -/

namespace Sys2Proof.Machine

open Sys2Proof

/-! ## What a reset keeps -/

/-- The local timebase runs on. -/
theorem State.cold_now (s : State) : s.cold.time.now = s.time.now := by
  obtain ⟨p, hp⟩ := s.releaseRole_only true
  obtain ⟨q, n, hq⟩ := State.endSessions_only (s.releaseRole true)
  rw [hp] at hq
  unfold State.cold
  rw [hp]
  dsimp only
  rw [hq]
theorem State.doReset_now (s : State) (c : Nat) : (s.doReset c).time.now = s.time.now := by
  rw [s.doReset_cold State.time c (fun _ _ _ => rfl) (fun _ _ => rfl), s.cold_now]

/-- The class of VIO_G detected again is that of the supply measured last. -/
theorem State.redetect_doReset_class (s : State) (c : Nat) : (s.doReset c).redetect.power.vioGClass = vioClass s.power.vioG := by
  obtain ⟨-, hvioG, -, -⟩ := s.doReset_supplies c
  exact congrArg vioClass hvioG

/-- What is measured before a reset leaves nothing but the measurement. -/
theorem resetDone_of_power {c : Nat} {s t : State} {p : PowerSt} (h : ResetDone c { s with power := p } t) : ResetDone c s t := h
/-- What the standby counter has counted before a reset is not among what the reset is told by. -/
theorem resetDone_of_modTime {c : Nat} {s t : State} {f : TimeSt → TimeSt} (hf : (f s.time).now = s.time.now)
    (h : ResetDone c (s.modTime f) t) : ResetDone c s t := by
  unfold ResetDone at h ⊢
  rwa [State.modTime_time, hf] at h

/-! ## Power-on (R65, R87) -/

theorem PowerSt.withSupplies_inRange {vin vioG vioH vbat : Int} (p : PowerSt) (hvin : 9500 < vin ∧ vin < 33000)
    (hvioG : 3000 < vioG ∧ vioG < 5700) (hvioH : 3000 < vioH ∧ vioH < 3700) : (p.withSupplies vin vioG vioH vbat).inRange = true := by
  have h1 : vinInRange vin = true := decide_eq_true hvin
  have h2 : vioGInRange vioG = true := decide_eq_true hvioG
  have h3 : vioHInRange vioH = true := decide_eq_true hvioH
  show (vinInRange vin && vioGInRange vioG && vioHInRange vioH) = true
  rw [h1, h2, h3]
  rfl

/-- The supplies measured, and the temperature peak begun anew. -/
def State.poweredUp (vin vioG vioH vbat : Int) (s : State) : State :=
  ((s.modPower (fun p => p.withSupplies vin vioG vioH vbat)).modPower (fun p => { p with peakOk := false })).wr Obj.tempPeak 0

theorem State.poweredUp_rd (vin vioG vioH vbat : Int) (s : State) (a : Nat) :
    (s.poweredUp vin vioG vioH vbat).redetect.rd a = if a = Obj.tempPeak then 0 else s.rd a :=
  (State.rd_congr rfl a).trans (s.rd_wr Obj.tempPeak a 0)

section

variable {vin vioG vioH vbat : Int} {s : State}

theorem exec_powerOn (hout : s.power.inRange = false) (hin : (s.power.withSupplies vin vioG vioH vbat).inRange = true)
    (hhold : s.boot.holdup = false) : exec (.powerOn vin vioG vioH vbat) s =
      if s.boot.stage = .inReset then
        .next (((s.poweredUp vin vioG vioH vbat).redetect.wrBit Obj.resetCause 0 true).modBoot (fun b => { b with t0 := s.time.now }))
      else .next ((s.poweredUp vin vioG vioH vbat).doReset 1).redetect := by
  have hgo : (s.power.inRange || !(s.power.withSupplies vin vioG vioH vbat).inRange || s.boot.holdup) = false := by
    rw [hout, hin, hhold]
    rfl
  show execPowerOn vin vioG vioH vbat s = _
  unfold execPowerOn
  exact if_neg (Bool.eq_false_iff.mp hgo)

theorem powerOn_resets (hout : s.power.inRange = false) (hin : (s.power.withSupplies vin vioG vioH vbat).inRange = true)
    (hhold : s.boot.holdup = false) (hstage : s.boot.stage ≠ .inReset) :
    ∃ t : State, exec (.powerOn vin vioG vioH vbat) s = .next t ∧ ResetDone 1 (s.wr Obj.tempPeak 0) t ∧ t.power.vin = vin
      ∧ t.power.vioG = vioG ∧ t.power.vioH = vioH ∧ t.power.vbat = vbat ∧ t.power.vioGClass = vioClass vioG ∧ t.boot.classDue = true := by
  obtain ⟨hvin, hvioG, hvioH, hvbat⟩ := (s.poweredUp vin vioG vioH vbat).doReset_supplies 1
  have hdone : ResetDone 1 (s.poweredUp vin vioG vioH vbat) ((s.poweredUp vin vioG vioH vbat).doReset 1).redetect :=
    resetDone_redetect (doReset_done _ 1)
  exact ⟨_, (exec_powerOn hout hin hhold).trans (if_neg hstage), resetDone_of_power (s := s.wr Obj.tempPeak 0) hdone, hvin, hvioG, hvioH,
    hvbat, State.redetect_doReset_class _ 1, rfl⟩

theorem powerOn_inReset (hout : s.power.inRange = false) (hin : (s.power.withSupplies vin vioG vioH vbat).inRange = true)
    (hhold : s.boot.holdup = false) (hstage : s.boot.stage = .inReset) :
    ∃ t : State, exec (.powerOn vin vioG vioH vbat) s = .next t ∧ t.rdBit Obj.resetCause 0 = true ∧ t.rd Obj.tempPeak = 0
      ∧ ObjsKept [Obj.resetCause, Obj.tempPeak] s t ∧ t.boot = { s.boot with t0 := s.time.now, classDue := true }
      ∧ t.power = { s.power.withSupplies vin vioG vioH vbat with peakOk := false, vioGClass := vioClass vioG }
      ∧ { t with power := s.power, boot := s.boot, objs := s.objs } = s := by
  have hrest : ∀ (o : Store) (p : PowerSt) (b : BootSt) (t : State), t = { s with objs := o, power := p, boot := b } →
      { t with power := s.power, boot := s.boot, objs := s.objs } = s := fun _ _ _ _ h => h ▸ rfl
  refine ⟨_, (exec_powerOn hout hin hhold).trans (if_pos hstage), ?_, ?_, fun a ha => ?_, rfl, rfl, hrest _ _ _ _ rfl⟩
  · exact (State.rdBit_wrBit (s.poweredUp vin vioG vioH vbat).redetect ..).trans ((if_pos rfl).trans (if_pos rfl))
  · exact (State.rd_wrBit_ne _ 0 true (by decide)).trans ((s.poweredUp_rd vin vioG vioH vbat _).trans (if_pos rfl))
  · simp only [List.mem_cons, List.not_mem_nil, or_false, not_or] at ha
    obtain ⟨hcause, hpeak⟩ := ha
    exact (State.rd_wrBit_ne _ 0 true hcause).trans ((s.poweredUp_rd vin vioG vioH vbat a).trans (if_neg hpeak))

theorem exec_powerOn_holdup (hhold : s.boot.holdup = true) :
    exec (.powerOn vin vioG vioH vbat) s = .next (s.modPower (fun p => p.withSupplies vin vioG vioH vbat)) :=
  if_pos (by rw [hhold, Bool.or_true])

end

/-! ## The other ways (R65, R88, R101) -/

theorem exec_externalReset_holdup {lowNs : Nat} {s : State} (hhold : s.boot.holdup = true) : exec (.externalReset lowNs) s = .next s :=
  if_neg (by rw [hhold, Bool.not_true, Bool.and_false, Bool.false_and]; exact Bool.false_ne_true)
theorem exec_externalReset_short {lowNs : Nat} {s : State} (hlow : lowNs < 1000) : exec (.externalReset lowNs) s = .next s := by
  refine if_neg ?_
  rw [decide_eq_false (show ¬10000 ≤ lowNs by omega), decide_eq_false (show ¬1000 ≤ lowNs by omega)]
  exact Bool.false_ne_true
theorem exec_externalReset {lowNs : Nat} {s : State} (hlow : 10000 ≤ lowNs) (hhold : s.boot.holdup = false)
    (hpower : s.boot.stage ≠ .off ∨ (9500 < s.power.vin ∧ s.power.vin < 33000)) :
    exec (.externalReset lowNs) s = .next (s.doReset (if s.boot.slept then 64 else 2)) := by
  have hpowered : (decide (s.boot.stage ≠ .off) || vinInRange s.power.vin) = true := by
    unfold vinInRange
    rcases hpower with h | h
    · rw [decide_eq_true h, Bool.true_or]
    · rw [decide_eq_true h, Bool.or_true]
  refine if_pos ?_
  rw [decide_eq_true hlow, hhold, hpowered]
  rfl

theorem exec_watchdogReset_holdup {s : State} (hhold : s.boot.holdup = true) : exec .watchdogReset s = .next s :=
  if_neg (by rw [hhold, Bool.not_true, Bool.and_false]; exact Bool.false_ne_true)
theorem exec_watchdogReset {s : State} (hhit : s.boot.wdtHit = true ∨ s.boot.mgtHit = true) (hhold : s.boot.holdup = false) :
    exec .watchdogReset s = .next ((s.atT (s.boot.hitT + 5 * msCycles)).doReset
      ((if s.boot.wdtHit then 8 else 0) + (if s.boot.mgtHit then 128 else 0))) := by
  have hgo : ((s.boot.wdtHit || s.boot.mgtHit) && !s.boot.holdup) = true := by simpa [hhold] using hhit
  refine (if_pos hgo).trans ?_
  cases s.boot.wdtHit <;> cases s.boot.mgtHit <;> rfl

theorem exec_vinHoldupEnd {vin : Int} {s : State} (hhold : s.boot.holdup = true) (hlo : 9500 < vin) (hhi : vin < 33000) :
    exec (.vinHoldupEnd vin) s = .next ((s.modPower (fun p => { p with vin := vin })).doReset 4).redetect := by
  have hin : vinInRange vin = true := decide_eq_true ⟨hlo, hhi⟩
  exact (if_pos hhold).trans (if_pos hin)

/-! ## The wake alarm (R108, R109) -/

/-- The standby counter a second on. -/
def State.ticked (s : State) : State := s.modTime (fun t => { t with counter := t.counter + 1 })

theorem exec_wakeAlarmCompare {s : State} (hoff : s.boot.stage = .off) (hlost : s.power.standbyLost = false) :
    exec .wakeAlarmCompare s =
      if s.rd Obj.wakeAlarmS ≠ 0 ∧ s.rdN Obj.wakeAlarmS = (s.time.counter + 1).floor.toNat % 2 ^ 32 then
        (if vinInRange s.power.vin then .next ((s.ticked.wr Obj.wakeAlarmS 0).doReset (if s.boot.slept then 64 else 0))
         else .next ((s.ticked.wr Obj.wakeMissed 1).modPower (fun p => { p with missDue := true })))
      else .next s.ticked := by
  refine if_neg ?_
  rw [not_or, hlost]
  exact ⟨not_not.mpr hoff, Bool.false_ne_true⟩

end Sys2Proof.Machine

namespace Sys2Proof

open Sys2Proof.Machine

/-- Settles O1: each way runs the one reset, whose lemma says what it leaves, or is refused by its guard. -/
theorem resetsReturnToDefaults : Obligations.ResetsReturnToDefaults := by
  unfold Obligations.ResetsReturnToDefaults
  refine ⟨?_, ?_, ?_, ?_, ?_, ?_, ?_, ?_, ?_, ?_, ?_⟩
  case refine_1 =>
    intro vin vioG vioH vbat s hout hvin hvin' hvioG hvioG' hvioH hvioH' hhold hstage
    exact powerOn_resets hout (s.power.withSupplies_inRange ⟨hvin, hvin'⟩ ⟨hvioG, hvioG'⟩ ⟨hvioH, hvioH'⟩) hhold hstage
  case refine_2 =>
    intro vin vioG vioH vbat s hout hvin hvin' hvioG hvioG' hvioH hvioH' hhold hstage
    exact powerOn_inReset hout (s.power.withSupplies_inRange ⟨hvin, hvin'⟩ ⟨hvioG, hvioG'⟩ ⟨hvioH, hvioH'⟩) hhold hstage
  case refine_3 => exact fun vin vioG vioH vbat s hhold => exec_powerOn_holdup hhold
  case refine_4 => exact fun lowNs s hhold => exec_externalReset_holdup hhold
  case refine_5 => exact fun lowNs s hlow hhold hpower => ⟨_, exec_externalReset hlow hhold hpower, doReset_done s _⟩
  case refine_6 => exact fun lowNs s hlow => exec_externalReset_short hlow
  case refine_7 => exact fun s hhold => exec_watchdogReset_holdup hhold
  case refine_8 =>
    exact fun s hhit hhold => ⟨_, exec_watchdogReset hhit hhold, (State.doReset_now _ _).trans (s.atT_now _), doReset_done _ _⟩
  case refine_9 =>
    intro vin s hhold hlo hhi
    obtain ⟨hvin, -, -, -⟩ := (s.modPower (fun p => { p with vin := vin })).doReset_supplies 4
    exact ⟨_, exec_vinHoldupEnd hhold hlo hhi, resetDone_of_power (s := s) (resetDone_redetect (doReset_done _ 4)), hvin,
      State.redetect_doReset_class _ 4, rfl⟩
  case refine_10 =>
    intro s hoff hlost hset hlo hhi hmatch
    have hin : vinInRange s.power.vin = true := decide_eq_true ⟨hlo, hhi⟩
    refine ⟨_, (exec_wakeAlarmCompare hoff hlost).trans ((if_pos ⟨hset, hmatch⟩).trans (if_pos hin)), ?_, State.doReset_counter _ _⟩
    exact resetDone_of_modTime (s := s.wr Obj.wakeAlarmS 0) (f := fun t => { t with counter := t.counter + 1 }) rfl (doReset_done _ _)
  case refine_11 =>
    intro s hoff hlost hno
    refine (exec_wakeAlarmCompare hoff hlost).trans (if_neg (fun hboth => ?_))
    exact hno.elim hboth.1 (fun hne => hne hboth.2)

end Sys2Proof
end

section
/-! Module requests and their transitions (R97, R98, R107, R528; O12). -/

namespace Sys2Proof.Machine

open Sys2Proof

/-! ## A request (R97, R98, R170) -/

/-- The row of `MODULE_REQ`. -/
def moduleReqRow : ObjRow := ⟨0x1001, 2, 2, .u8, .wo, .none, 0, 1, 4⟩

theorem State.absent_moduleReq (s : State) : s.absent 0x1001 2 = false := by
  have h : ∀ v, (State.ofVariant v).absent 0x1001 2 = false := by
    intro v
    cases v <;> decide +kernel
  exact h s.variant

/-- A request is refused for its state alone: no other reason of R170 meets a value of its range. -/
theorem State.reasonFor_moduleReq {s : State} {v : Int} (hv : 1 ≤ v ∧ v ≤ 4) (hreq : s.reqRefused v = false) :
    s.reasonFor moduleReqRow 0x1001 2 false (some v) = 0 := by
  have hnames : s.namesAbsent 0x1001 2 v = false := by
    unfold State.namesAbsent
    exact Bool.and_false _
  have hstate : s.refusedState 0x1001 2 v = false := by
    unfold State.refusedState
    simp [hreq]
  have hrange : s.inRange moduleReqRow 0x1001 2 v = true := by
    unfold State.inRange
    exact Bool.and_eq_true_iff.mpr ⟨decide_eq_true hv, rfl⟩
  have hro : readOnly moduleReqRow 0x1001 2 false = false := by decide
  have hcls : moduleReqRow.cls ≠ .b := nofun
  unfold State.reasonFor
  simp [s.absent_moduleReq, hnames, hstate, hrange, hro, hcls]

/-- A request that the present state allows does what `MODULE_REQ` does, with what follows. -/
theorem State.hostWrite_moduleReq {src : Source} {v : Int} {s : State} (hask : s.askard = true) (hmode : s.mode ≠ .boot) (hv : 1 ≤ v ∧ v ≤ 4)
    (hreq : s.reqRefused v = false) : s.hostWrite src Obj.moduleReq v = (s.moduleReq src v).settle := by
  have hrow : objRow (Obj.moduleReq / 0x100) (Obj.moduleReq % 0x100) = some moduleReqRow := by decide +kernel
  have hfits : moduleReqRow.ty.fits v := show 0 ≤ v ∧ v < 256 by omega
  have hnotOpen : ∀ n : Fin 4, Obj.moduleReq / 0x100 ≠ 0x2003 + 0x100 * n.val := by decide
  rw [hostWrite_row src hask hmode (by decide) (by decide) hrow hfits hnotOpen (s.reasonFor_moduleReq hv hreq),
    State.sends_m (by decide) hrow (by decide)]
  rfl

theorem State.modeM_of_not_safe {s : State} (h : s.mode ≠ .safe) : s.modeM = s.mode := if_neg (fun hboth => h hboth.1)

theorem State.reqRefused_ready {s : State} (hmode : s.mode = .config) (hblock : s.readyBlock = 0) : s.reqRefused 1 = false := by
  have hm : s.modeM = .config := (s.modeM_of_not_safe (by rw [hmode]; decide)).trans hmode
  show (!(decide (s.modeM = .config) && s.readyBlock == 0)) = false
  rw [hm, hblock]
  rfl
theorem State.reqRefused_config {s : State} (hmode : s.mode = .ready) : s.reqRefused 2 = false := by
  have hm : s.modeM = .ready := (s.modeM_of_not_safe (by rw [hmode]; decide)).trans hmode
  exact decide_eq_false (not_not.mpr hm)
theorem State.reqRefused_standby {s : State} (hmode : s.mode = .config ∨ s.mode = .ready) : s.reqRefused 3 = false := by
  have hm : s.modeM = s.mode := s.modeM_of_not_safe (by rcases hmode with h | h <;> (rw [h]; decide))
  refine decide_eq_false (fun hboth => ?_)
  rw [hm] at hboth
  exact hmode.elim hboth.1 hboth.2
theorem State.reqRefused_reset {s : State} (hmode : s.modeM ≠ .operational) : s.reqRefused 4 = false := decide_eq_false hmode

/-! ## The response's way out (R528) -/

/-- A transition that waits for a response starts its delay where the response is placed. -/
theorem State.deliver_transT {n : Fin 4} {v : Nat} {ws : List Word} {s : State} (htrans : s.boot.transition = some (v, .mb n))
    (hnone : s.boot.transT = none) (hfree : (s.mb.get n).outFull = false) :
    (s.deliver (.mb n) ws).boot.transT = some s.time.now := by
  have hdeliver : s.deliver (.mb n) ws = (s.placeOut n ws).transPlaced (.mb n) := if_neg (by rw [hfree]; exact Bool.false_ne_true)
  have hwaits : ((s.placeOut n ws).boot.transition.any (fun x => decide (x.2 = .mb n)) && (s.placeOut n ws).boot.transT.isNone) = true := by
    show (s.boot.transition.any _ && s.boot.transT.isNone) = true
    rw [htrans, hnone]
    exact Bool.and_eq_true_iff.mpr ⟨decide_eq_true rfl, rfl⟩
  rw [hdeliver, State.transPlaced, if_pos hwaits]
  rfl

/-! ## The logs take no time (R107) -/

theorem forAll_time {α : Type} {f : α → State → State} (hf : ∀ a x, (f a x).time = x.time) (l : List α) (s : State) :
    (forAll l f s).time = s.time := by
  unfold forAll
  induction l generalizing s with
  | nil => rfl
  | cons a l ih => exact (ih (f a s)).trans (hf a s)

@[simp] theorem State.bump_time (s : State) (a : Nat) : (s.bump a).time = s.time := by
  unfold State.bump State.bumpTo
  split <;> rfl
@[simp] theorem State.queuePut_time (q : Nat) (bc : Bool) (f : EgressFrame) (s : State) : (s.queuePut q bc f).time = s.time := by
  unfold State.queuePut
  split
  · exact State.bump_time ..
  · rfl
@[simp] theorem State.tcpPush_time (s : State) : s.tcpPush.time = s.time := by
  refine forAll_time (fun f x => ?_) _ (s.modNet _)
  split
  · exact forAll_time (fun p y => State.queuePut_time p false _ y) _ x
  · rfl
@[simp] theorem State.ownSend_time (ports : List Nat) (f : OwnFrame) (s : State) : (s.ownSend ports f).time = s.time :=
  forAll_time (fun p y => (State.queuePut_time p false f.frame _).trans y.tcpPush_time) ports s
@[simp] theorem State.dropDelivery_time (j : Nat) (full : Bool) (s : State) : (s.dropDelivery j full).time = s.time := by
  cases full <;> exact State.bump_time ..
@[simp] theorem State.sendDelivery_time (j : Nat) (ws : List Word) (s : State) : (s.sendDelivery j ws).time = s.time := by
  unfold State.sendDelivery
  dsimp only
  split_ifs <;> simp
@[simp] theorem State.closeDelivery_time (j : Nat) (s : State) : (s.closeDelivery j).time = s.time := by
  unfold State.closeDelivery
  split
  · rfl
  · exact State.sendDelivery_time ..
@[simp] theorem State.streamItem_time (j ns : Nat) (ws : List Word) (s : State) : (s.streamItem j ns ws).time = s.time := by
  unfold State.streamItem
  extract_lets x s1
  show s1.time = s.time
  unfold s1
  split
  · exact State.closeDelivery_time j s
  · rfl
@[simp] theorem State.streamLog_time (e : LogEntry) (s : State) : (s.streamLog e).time = s.time := by
  refine forAll_time (fun j x => ?_) _ s
  split
  · exact State.streamItem_time ..
  · rfl
@[simp] theorem State.logEvent_time (e : Event) (s : State) : (s.logEvent e).time = s.time := by
  unfold State.logEvent
  extract_lets back entry s1 s2
  have h2 : s2.time = s.time := by
    unfold s2
    split
    · rfl
    · split
      · rfl
      · exact State.bump_time ..
  refine (State.streamLog_time entry _).trans ?_
  split <;> exact h2
@[simp] theorem State.flushLogs_time (s : State) : s.flushLogs.time = s.time := forAll_time State.logEvent_time s.flt.evtQ _

/-! ## The transition (R107, R528) -/

/-- The objects through a reset or a power-down. -/
theorem State.cold_rd_kept {a : Nat} (s : State) (ha : a ∈ keptKeys) : s.cold.rd a = s.rd a := by
  obtain ⟨p, hp⟩ := s.releaseRole_only true
  obtain ⟨q, n, hq⟩ := State.endSessions_only (s.releaseRole true)
  rw [hp] at hq
  have hobjs : s.cold.objs = s.objs.keep.set Obj.bootMs 0xFFFF := by
    unfold State.cold
    rw [hp]
    dsimp only
    rw [hq]
  have hne : a ≠ Obj.bootMs := fun e => absurd ha (e ▸ by decide)
  unfold State.rd
  rw [hobjs, Store.get_set_ne _ _ hne, Store.get_keep, if_pos ha]

/-- What a power-down leaves. -/
theorem State.powerDown_leaves (slept : Bool) (s : State) :
    (s.powerDown slept).mode = .standby ∧ (s.powerDown slept).boot.stage = .off ∧ (s.powerDown slept).boot.slept = slept
      ∧ (s.powerDown slept).power.resetLow = false ∧ (s.powerDown slept).power.pwrgoodLow = true ∧ AllOff (s.powerDown slept)
      ∧ (s.powerDown slept).time.now = s.time.now ∧ ∀ a ∈ keptKeys, (s.powerDown slept).rd a = s.rd a :=
  ⟨rfl, rfl, rfl, rfl, rfl, allOff_of_gen rfl, s.cold_now, fun _ ha => s.cold_rd_kept ha⟩

theorem State.setMode_time (s : State) (m : ModState) : (s.setMode m).time = s.time :=
  quiet_time (State.setMode_mild quiet_mild (quiet_refl s))

/-- The standby entry notes its reason in the standby domain, which runs on. -/
theorem State.standbyEntry_leaves (s : State) :
    s.standbyEntry.time.now = s.time.now ∧ s.standbyEntry.mode = .standby ∧ s.standbyEntry.boot.stage = .off
      ∧ s.standbyEntry.boot.slept = true ∧ s.standbyEntry.rd Obj.standbyReason = 2 ∧ s.standbyEntry.power.resetLow = false
      ∧ s.standbyEntry.power.pwrgoodLow = true ∧ AllOff s.standbyEntry := by
  have hlogged : ∀ x : State, (x.flushLogs.wr Obj.standbyReason 2).time = x.time := fun x => x.flushLogs_time
  have hdropped : ((((s.setMode .standby).dropGen .c).dropGen .m)).time = s.time :=
    (quiet_time (quiet_trans (State.dropGen_quiet .c _) (State.dropGen_quiet .m _))).trans (s.setMode_time .standby)
  obtain ⟨hmode, hstage, hslept, hreset, hgood, hoff, hnow, hkept⟩ :=
    ((((s.setMode .standby).dropGen .c).dropGen .m).flushLogs.wr Obj.standbyReason 2).powerDown_leaves true
  refine ⟨?_, hmode, hstage, hslept, ?_, hreset, hgood, hoff⟩
  · exact hnow.trans (congrArg TimeSt.now ((hlogged _).trans hdropped))
  · exact (hkept Obj.standbyReason (by decide)).trans (State.rd_wr_same _ Obj.standbyReason 2)

theorem exec_transitionBegin {t0 : Nat} {s : State} (hT : s.boot.transT = some t0) (hhold : s.boot.holdup = false) :
    exec .transitionBegin s = .next (s.atT (t0 + 10 * msCycles)).beginTransition := by
  show execTransitionBegin s = _
  unfold execTransitionBegin
  rw [hT, hhold]
  rfl
theorem exec_transitionBegin_idle {s : State} (h : s.boot.transT = none ∨ s.boot.holdup = true) : exec .transitionBegin s = .next s := by
  show execTransitionBegin s = _
  unfold execTransitionBegin
  split
  next => rfl
  next t0 hT => exact if_pos (h.resolve_left (by rw [hT]; nofun))

/-- What begins is what was asked for. -/
theorem State.beginTransition_of {v : Nat} {src : Source} {s : State} (h : s.boot.transition = some (v, src)) (t : Nat) :
    (s.atT t).beginTransition = if v = 3 then (s.atT t).standbyEntry else if v = 5 then (s.atT t).doReset 32 else (s.atT t).doReset 16 := by
  unfold State.beginTransition
  rw [State.atT_boot, h]
  split
  next heq => exact nomatch heq
  next src' heq =>
    cases heq
    rfl
  next src' heq =>
    cases heq
    rfl
  next v' src' hne3 hne5 heq =>
    cases heq
    rw [if_neg hne3, if_neg hne5]

end Sys2Proof.Machine

namespace Sys2Proof

open Sys2Proof.Machine

/-- Settles O12: a request the state allows is the one write of its row, and what was asked for begins as a reset or a standby entry. -/
theorem moduleRequests : Obligations.ModuleRequests := by
  unfold Obligations.ModuleRequests
  refine ⟨?_, ?_, ?_, ?_, ?_, ?_, ?_, ?_, ?_⟩
  case refine_1 =>
    intro src s hask hmode hblock
    refine congrArg Host.Outcome.next ((State.hostWrite_moduleReq hask (by rw [hmode]; decide) (by decide) (State.reqRefused_ready hmode hblock)).trans ?_)
    have hnotSafe : s.mode ≠ .safe := by rw [hmode]; decide
    rw [State.moduleReq, if_neg (fun hboth => hnotSafe hboth.1), if_pos rfl]
  case refine_2 =>
    intro src s hask hmode
    refine congrArg Host.Outcome.next ((State.hostWrite_moduleReq hask (by rw [hmode]; decide) (by decide) (State.reqRefused_config hmode)).trans ?_)
    have hnotSafe : s.mode ≠ .safe := by rw [hmode]; decide
    rw [State.moduleReq, if_neg (fun hboth => hnotSafe hboth.1), if_neg (by decide), if_pos rfl]
  case refine_3 =>
    intro src s hask hmode
    have hnotBoot : s.mode ≠ .boot := by rcases hmode with h | h <;> (rw [h]; decide)
    have hwrite := State.hostWrite_moduleReq (src := src) hask hnotBoot (by decide) (State.reqRefused_standby hmode)
    have hreq : s.moduleReq src 3 = (s.wr Obj.wakeMissed 0).modBoot (fun b => { b with transition := some (3, src) }) := by
      rw [State.moduleReq, if_neg (fun hboth => absurd hboth.2 (by decide))]
      rfl
    exact ⟨_, congrArg Host.Outcome.next (hwrite.trans (congrArg State.settle hreq)), State.settle_quiet _⟩
  case refine_4 =>
    intro src s hask hmode hmodeM
    have hnotBoot : s.mode ≠ .boot := by rcases hmode with h | h | h <;> (rw [h]; decide)
    have hwrite := State.hostWrite_moduleReq (src := src) hask hnotBoot (by decide) (State.reqRefused_reset hmodeM)
    have hreq : s.moduleReq src 4 = s.modBoot (fun b => { b with transition := some (4, src) }) := by
      rw [State.moduleReq, if_neg (fun hboth => absurd hboth.2 (by decide))]
      rfl
    exact ⟨_, congrArg Host.Outcome.next (hwrite.trans (congrArg State.settle hreq)), State.settle_quiet _⟩
  case refine_5 =>
    intro src t0 s htrans hT hhold
    have hbegin := (exec_transitionBegin hT hhold).trans (congrArg Host.Outcome.next (State.beginTransition_of htrans _))
    exact ⟨_, hbegin, doReset_done _ 16⟩
  case refine_6 =>
    intro src t0 s htrans hT hhold
    have hbegin := (exec_transitionBegin hT hhold).trans (congrArg Host.Outcome.next (State.beginTransition_of htrans _))
    exact ⟨_, hbegin, doReset_done _ 32⟩
  case refine_7 => exact fun s h => exec_transitionBegin_idle h
  case refine_8 => exact fun n v ws s htrans hnone hfree => State.deliver_transT htrans hnone hfree
  case refine_9 =>
    intro src t0 s htrans hT hhold
    have hbegin := (exec_transitionBegin hT hhold).trans (congrArg Host.Outcome.next (State.beginTransition_of htrans _))
    obtain ⟨hnow, hrest⟩ := (s.atT (t0 + 10 * msCycles)).standbyEntry_leaves
    exact ⟨_, hbegin, hnow.trans (s.atT_now _), hrest⟩

end Sys2Proof
end

section
/-! The boot sequence up to a running Askard (R61, R66, R90 to R95, R111; O2). -/

namespace Sys2Proof.Machine

open Sys2Proof

/-! ## Release of reset (R61, R63, R66) -/

/-- Reset released with the class of VIO_G judged. -/
def State.released (c : Nat) (s : State) : State :=
  (s.modBoot (fun b => { b with stage := .released, classDue := false })).modPower (fun p => {
    PowerSt.pwrgood { p with vioGClass := c } true with resetLow := false })

/-- Class 2 is no class of VIO_G: it is found and reported. -/
theorem exec_resetEnd {c : Nat} {s : State} (hstage : s.boot.stage = .inReset) (hin : s.power.inRange = true)
    (hc : c = if s.boot.classDue then vioClass s.power.vioG else s.power.vioGClass) :
    exec .resetEnd s = if c = 2 then
        .next (((s.released c).modBoot (fun b => { b with vioGBad := true, resetOnly := true })).fault 0xE009 0 s.power.vioG)
      else .next (s.released c) := by
  refine (if_pos ⟨hstage, hin⟩).trans ?_
  cases hdue : s.boot.classDue <;> (rw [hdue] at hc; subst hc; rfl)

/-! ## The switches (R72, R92) -/

/-- Faults of one code reported in turn: each stands, since none of the others takes it back. -/
theorem forAll_latch_stands {α : Type} {code : Half} {inst : α → Half} {data : Int} {l : List α} {a : α} (ha : a ∈ l)
    (hr : ∀ x : State, x.raisable code (inst a) = true) {s : State} (hc : (s.classOf code).1 ≠ .c0) :
    Stands code (inst a) (forAll l (fun b x => x.latch code (inst b) data) s) := by
  induction l generalizing s with
  | nil => exact absurd ha List.not_mem_nil
  | cons b l ih =>
    rcases List.mem_cons.mp ha with rfl | hmem
    · exact forAll_mild (l := l) (s := s.latch code (inst a) data) (stands_mild code (inst a))
        (fun _ _ => State.latch_mild (stands_mild code (inst a)) (fun h => h)) (fun h => h) (State.latch_stands (hr s) hc)
    · refine ih hmem (s := s.latch code (inst b) data) ?_
      rwa [State.classOf_congr code (quiet_blobs (State.latch_quiet s code (inst b) data))]

/-- The switches as read once in the boot. -/
def State.switchesRead (p1 p2 : BitVec 12) (s : State) : State :=
  (s.modBoot (fun b => { b with stage := .switchesRead, resetOnly := b.resetOnly || decide (p1 ^^^ p2 ≠ 0) })).modPower (fun p =>
    { p with swReset := p2, swNow := p2, swDiscrep := p1 ^^^ p2, swAgreed := ~~~ (p1 ^^^ p2), swDisRun := List.replicate 12 0 })
/-- The switches whose poles disagree. -/
def polesApart (p1 p2 : BitVec 12) : List Nat := (List.range 12).filter (fun i => (p1 ^^^ p2).getLsbD i)

theorem mem_polesApart {p1 p2 : BitVec 12} {i : Nat} (hi : i < 12) (hne : p1.getLsbD i ≠ p2.getLsbD i) : i ∈ polesApart p1 p2 :=
  List.mem_filter.mpr ⟨List.mem_range.mpr hi, by rw [BitVec.getLsbD_xor]; simpa using hne⟩

theorem exec_swResetRead (p1 p2 : BitVec 12) {s : State} (h : s.boot.stage = .released) : exec (.swResetRead p1 p2) s
    = .next (forAll (polesApart p1 p2) (fun i x => x.latch 0xE401 (mkInst i 0) 0) (s.switchesRead p1 p2)).settle := if_pos h

theorem mkInst_lt : ∀ i < 12, (mkInst i 0).toNat < 256 := by decide

theorem swResetRead_reports (p1 p2 : BitVec 12) {s : State} (h : s.boot.stage = .released) :
    ∃ t : State, exec (.swResetRead p1 p2) s = .next t ∧ Quiet (s.switchesRead p1 p2) t
      ∧ ∀ i < 12, p1.getLsbD i ≠ p2.getLsbD i → (s.classOf 0xE401).1 ≠ .c0 → t.isPending 0xE401 (mkInst i 0) = true := by
  refine ⟨_, exec_swResetRead p1 p2 h, ?_, fun i hi hne hc => Stands.pending ?_⟩
  · exact State.settle_mild quiet_mild (forAll_mild quiet_mild (fun i x => State.latch_quiet x 0xE401 (mkInst i 0) 0) (quiet_refl _))
  · refine State.settle_mild (stands_mild 0xE401 (mkInst i 0)) (fun h => h) ?_
    exact forAll_latch_stands (mem_polesApart hi hne)
      (fun x => State.raisable_all x (by decide +kernel) (by decide +kernel) (mkInst_lt i hi)) hc

/-! ## Secure boot (R94, R493) -/

theorem exec_secureBoot_preferred {a b : Bool} {s : State} (hstage : s.boot.stage = .switchesRead)
    (hgood : (if s.sec.preferB then s.slotBoots s.sec.slotB b else s.slotBoots s.sec.slotA a) = true) :
    exec (.secureBoot true a b) s = .next ((((s.modBoot (fun x => { x with stage := .secured, second := false })).modSec
      (fun x => { x with runB := s.sec.preferB })).wr Obj.bootErr 0).auditEvent 0x0012 9 0xFF 0 0 (if s.sec.preferB then 1 else 0)) := by
  have hfirst : decide (s.sec.preferB ≠ s.sec.preferB) = false := decide_eq_false (fun h => h rfl)
  show execSecureBoot true a b s = _
  unfold execSecureBoot
  rw [if_neg (not_not.mpr hstage)]
  refine (if_pos hgood).trans ?_
  dsimp only
  rw [hfirst]
  cases s.sec.preferB <;> rfl

theorem exec_secureBoot_none {k a b : Bool} {s : State} (hstage : s.boot.stage = .switchesRead) (hbad : k = false ∨ (a = false ∧ b = false)) :
    exec (.secureBoot k a b) s = .next ((s.modBoot (fun x => { x with stage := .noImage })).wr Obj.bootErr 3) := by
  show execSecureBoot k a b s = _
  unfold execSecureBoot
  rw [if_neg (not_not.mpr hstage)]
  rcases hbad with rfl | ⟨rfl, rfl⟩
  · rfl
  · cases k
    · rfl
    · cases s.sec.preferB <;> rfl

/-! ## Askard (R90, R109, R111, R425) -/

/-- The boot after a missed wake clears the alarm. -/
def State.alarmServed (s : State) : State := if s.power.missDue then s.wr Obj.wakeAlarmS 0 else s

theorem State.alarmServed_only (s : State) : ∃ o, s.alarmServed = { s with objs := o } := by
  unfold State.alarmServed
  split
  · exact ⟨_, rfl⟩
  · exact ⟨s.objs, rfl⟩
theorem State.alarmServed_rd_ne {a : Nat} (s : State) (ha : a ≠ Obj.wakeAlarmS) : s.alarmServed.rd a = s.rd a := by
  unfold State.alarmServed
  split
  · exact s.rd_wr_ne 0 ha
  · rfl
theorem State.alarmServed_rd_alarm (s : State) : s.alarmServed.rd Obj.wakeAlarmS = if s.power.missDue then 0 else s.rd Obj.wakeAlarmS := by
  unfold State.alarmServed
  split
  · exact s.rd_wr_same Obj.wakeAlarmS 0
  · rfl

/-- With the standby domain's contents kept, Askard starts from them. -/
theorem exec_askardStart {s : State} (hstage : s.boot.stage = .secured) (hkept : s.power.standbyLost = false) :
    exec .askardStart s = .next (((s.alarmServed.modBoot (fun b => { b with stage := .askard, askardT := s.time.now })).modPower (fun p =>
      { p with coverFlash := s.alarmServed.rdN Obj.coverCount, coverLastFlash := s.alarmServed.rdN Obj.coverLast, missDue := false })).modTime
      (fun t => { t with station := if s.alarmServed.rd Obj.timeValid = 1 then ((t.counter * 32768).floor : Rat) / 32768 * 1000000000
                                    else 0 })) := by
  have hafter : s.afterLoss = s := if_neg (by rw [hkept]; exact Bool.false_ne_true)
  show execAskardStart s = _
  unfold execAskardStart
  rw [if_pos hstage, hafter]
  rfl

theorem askardStart_leaves {s : State} (hstage : s.boot.stage = .secured) (hkept : s.power.standbyLost = false) :
    ∃ t : State, exec .askardStart s = .next t ∧ t.boot = { s.boot with stage := .askard, askardT := s.time.now }
      ∧ t.power = { s.power with coverFlash := s.rdN Obj.coverCount, coverLastFlash := s.rdN Obj.coverLast, missDue := false }
      ∧ t.time = { s.time with station := if s.rd Obj.timeValid = 1 then ((s.time.counter * 32768).floor : Rat) / 32768 * 1000000000 else 0 }
      ∧ t.rd Obj.wakeAlarmS = (if s.power.missDue then 0 else s.rd Obj.wakeAlarmS) ∧ ObjsKept [Obj.wakeAlarmS] s t
      ∧ { t with boot := s.boot, power := s.power, time := s.time, objs := s.objs } = s := by
  refine ⟨_, exec_askardStart hstage hkept, ?_⟩
  have hvalid := s.alarmServed_rd_ne (a := Obj.timeValid) (by decide)
  have hcount : s.alarmServed.rdN Obj.coverCount = s.rdN Obj.coverCount := congrArg Int.toNat (s.alarmServed_rd_ne (by decide))
  have hlast : s.alarmServed.rdN Obj.coverLast = s.rdN Obj.coverLast := congrArg Int.toNat (s.alarmServed_rd_ne (by decide))
  have halarm := s.alarmServed_rd_alarm
  have hrest := fun a (ha : a ≠ Obj.wakeAlarmS) => s.alarmServed_rd_ne ha
  rw [hvalid, hcount, hlast]
  obtain ⟨o, ho⟩ := s.alarmServed_only
  rw [ho] at halarm hrest ⊢
  exact ⟨rfl, rfl, rfl, halarm, fun a ha => hrest a (by simpa using ha), rfl⟩

/-! ## Clocks and Peel (R91, R95) -/

theorem askard_of {s : State} (h : s.boot.stage = .askard) : s.askard = true := decide_eq_true h

theorem exec_pllLock {s : State} (hstage : s.boot.stage = .askard) (hpll : s.boot.pllLocked = false) :
    exec .pllLock s = .next (((s.modBoot (fun b => { b with pllLocked := true })).modPower (fun p => { p with
      refT := s.time.now, refLostT := Six.all none })).modTime (fun t => { t with units := t.units.map (fun _ => 0) })) :=
  if_pos (by rw [askard_of hstage, hpll]; rfl)
theorem exec_peelTrainingComplete {s : State} (hpll : s.boot.pllLocked = true) (htrained : s.boot.peelTrained = false) :
    exec .peelTrainingComplete s = .next (s.modBoot (fun b => { b with peelTrained := true })).settle :=
  if_pos (by rw [State.regionUp, hpll, htrained]; rfl)
theorem exec_peelTrainTimeout {s : State} (hstage : s.boot.stage = .askard) (htrained : s.boot.peelTrained = false) :
    exec .peelTrainTimeout s = .next ((((s.atT (s.boot.askardT + 50 * msCycles)).modBoot (fun b => { b with resetOnly := true })).wr
      Obj.bootErr 5).fault 0x9802 1 0) :=
  if_pos (by rw [askard_of hstage, htrained]; rfl)

end Sys2Proof.Machine

namespace Sys2Proof

open Sys2Proof.Machine

/-- Settles O2: each step of the boot has the state before it as its guard, and does what its equation says; what may be reported is,
by the lemma of reports. -/
theorem bootStepsInOrder : Obligations.BootStepsInOrder := by
  unfold Obligations.BootStepsInOrder
  refine ⟨fun s c hstage hin hc => ⟨?_, ?_⟩, ?_, ?_, ?_, ?_, ?_, ?_, ?_⟩
  case refine_1 => exact fun hclass => (exec_resetEnd hstage hin hc).trans (if_neg hclass)
  case refine_2 => exact fun hclass => reports_of ((exec_resetEnd hstage hin hc).trans (if_pos hclass))
  case refine_3 => exact fun p1 p2 s hstage => swResetRead_reports p1 p2 hstage
  case refine_4 => exact fun a b s hstage hgood => exec_secureBoot_preferred hstage hgood
  case refine_5 => exact fun k a b s hstage hbad => exec_secureBoot_none hstage hbad
  case refine_6 => exact fun s hstage hkept => askardStart_leaves hstage hkept
  case refine_7 => exact fun s hstage hpll => exec_pllLock hstage hpll
  case refine_8 => exact fun s hpll htrained => ⟨_, exec_peelTrainingComplete hpll htrained, State.settle_quiet _⟩
  case refine_9 => exact fun s hstage htrained => reports_of (exec_peelTrainTimeout hstage htrained)

end Sys2Proof
end

section
/-! The configuration load and the checks of the safety parameters (R97, R396, R399, R401, R411, R413, R494; O3). -/

namespace Sys2Proof.Machine

open Sys2Proof

/-! ## CONFIG entry (R97, R411, R413, R494) -/

/-- What settles keeps the load's marks and the station's address. -/
theorem quiet_load {s t : State} (h : Quiet s t) : t.boot.loading = s.boot.loading ∧ t.boot.imageDone = s.boot.imageDone :=
  ⟨(congrArg (fun x => x.boot.loading) h.1 :), (congrArg (fun x => x.boot.imageDone) h.1 :)⟩
theorem quiet_address {s t : State} (h : Quiet s t) : t.net.ipNow = s.net.ipNow ∧ t.net.fallback = s.net.fallback :=
  ⟨(congrArg (fun x => x.net.ipNow) h.1 :), (congrArg (fun x => x.net.fallback) h.1 :)⟩

theorem State.setMode_quiet (s : State) (m : ModState) : Quiet s (s.setMode m) := State.setMode_mild quiet_mild (quiet_refl s)

/-- `ROLLBACK_CTR` and the audit log are all that a raise of it changes (R494). -/
theorem State.raiseRollback_only (s : State) : ∃ q n, s.raiseRollback = { s with sec := { s.sec with
    rollback := if s.sec.rollback < s.runSlot.svn ∧ s.runSlot.svn ≤ 64 then s.runSlot.svn else s.sec.rollback, auditQ := q, auditSeq := n } } := by
  unfold State.raiseRollback
  dsimp only
  split
  · exact ⟨_, _, rfl⟩
  · exact ⟨s.sec.auditQ, s.sec.auditSeq, rfl⟩

/-- An address that is not the switches' is the one configured, and no fallback (R413). -/
theorem State.ownAddress_static {s : State} (h : s.rd Obj.ipMode ≠ 0) :
    s.ownAddress.net.ipNow = s.rdN Obj.ipAddr ∧ s.ownAddress.net.fallback = false := by
  refine ⟨if_neg (fun hboth => h hboth.1), ?_⟩
  show (decide (s.rd Obj.ipMode = 0) && _) = false
  rw [decide_eq_false h, Bool.false_and]

/-- CONFIG entered from BOOT, and the load begun. -/
def State.configBegun (s : State) : State :=
  ((if s.mode = .boot then s.setMode .config else s).modBoot (fun b => { b with loading := true })).raiseRollback.ownAddress
/-- Without an image to load the PHYs are set up. -/
def State.configEntered (s : State) : State := if s.sec.image.isNone then s.configBegun.phySetup else s.configBegun

/-- The module state apart, a raise of `ROLLBACK_CTR` and the address are what the entry does beside the boot state. -/
theorem State.configBegun_from (s : State) : ∃ x, Quiet s x ∧ s.configBegun = (x.modBoot (fun b => { b with loading := true })).raiseRollback.ownAddress := by
  unfold State.configBegun
  split
  · exact ⟨_, s.setMode_quiet .config, rfl⟩
  · exact ⟨_, quiet_refl s, rfl⟩

theorem State.runSlot_of_sec {s t : State} (h : t.sec = s.sec) : t.runSlot = s.runSlot := by
  unfold State.runSlot
  rw [h]

theorem State.configBegun_leaves (s : State) : s.configBegun.boot.loading = true ∧ s.configBegun.sec.image = s.sec.image
    ∧ s.configBegun.sec.rollback = (if s.sec.rollback < s.runSlot.svn ∧ s.runSlot.svn ≤ 64 then s.runSlot.svn else s.sec.rollback)
    ∧ (s.rd Obj.ipMode ≠ 0 → s.configBegun.net.ipNow = s.rdN Obj.ipAddr ∧ s.configBegun.net.fallback = false) := by
  obtain ⟨x, hx, hbegun⟩ := s.configBegun_from
  obtain ⟨q, n, hraise⟩ := (x.modBoot (fun b => { b with loading := true })).raiseRollback_only
  have hsec : x.sec = s.sec := quiet_sec hx
  have hslot : (x.modBoot (fun b => { b with loading := true })).runSlot = s.runSlot := State.runSlot_of_sec hsec
  rw [hbegun, hraise]
  refine ⟨rfl, (congrArg SecSt.image hsec :), ?_, fun hmode => ?_⟩
  · show (if (x.modBoot _).sec.rollback < (x.modBoot _).runSlot.svn ∧ (x.modBoot _).runSlot.svn ≤ 64 then (x.modBoot _).runSlot.svn
      else (x.modBoot _).sec.rollback) = _
    rw [hslot, State.modBoot_sec, hsec]
  · have haddr : x.rdN Obj.ipAddr = s.rdN Obj.ipAddr := congrArg Int.toNat (quiet_rd hx (by decide))
    rw [← haddr]
    refine State.ownAddress_static ?_
    exact fun hzero => hmode ((quiet_rd hx (by decide)).symm.trans hzero)

theorem exec_configEntry {s : State} (hstage : s.boot.stage = .askard) (hload : s.boot.loading = false) :
    exec .configEntry s = .next s.configEntered.settle := by
  have hgo : (s.askard && !s.boot.loading) = true := by
    rw [askard_of hstage, hload]
    rfl
  have himage : s.configBegun.sec.image = s.sec.image := s.configBegun_leaves.2.1
  refine (if_pos hgo).trans (congrArg (fun x : State => Host.Outcome.next x.settle) ?_)
  show (if s.configBegun.sec.image.isNone then s.configBegun.phySetup else s.configBegun) = _
  rw [himage]
  rfl

theorem State.configEntered_boot {s : State} (hmode : s.mode = .boot) : s.configEntered = if s.sec.image.isNone then
      ((((s.setMode .config).modBoot (fun b => { b with loading := true })).raiseRollback.ownAddress)).phySetup
    else ((s.setMode .config).modBoot (fun b => { b with loading := true })).raiseRollback.ownAddress := by
  unfold State.configEntered State.configBegun
  rw [if_pos hmode]

theorem configEntry_leaves {s : State} (hstage : s.boot.stage = .askard) (hload : s.boot.loading = false) :
    ∃ t : State, exec .configEntry s = .next t ∧ t.boot.loading = true
      ∧ t.sec.rollback = (if s.sec.rollback < s.runSlot.svn ∧ s.runSlot.svn ≤ 64 then s.runSlot.svn else s.sec.rollback)
      ∧ (s.rd Obj.ipMode ≠ 0 → t.net.ipNow = s.rdN Obj.ipAddr ∧ t.net.fallback = false) := by
  obtain ⟨hloading, -, hrollback, haddr⟩ := s.configBegun_leaves
  have hphy : s.configEntered.boot = s.configBegun.boot ∧ s.configEntered.sec = s.configBegun.sec
      ∧ s.configEntered.net.ipNow = s.configBegun.net.ipNow ∧ s.configEntered.net.fallback = s.configBegun.net.fallback := by
    unfold State.configEntered
    split <;> exact ⟨rfl, rfl, rfl, rfl⟩
  obtain ⟨pboot, psec, pip, pback⟩ := hphy
  have hquiet := State.settle_quiet s.configEntered
  obtain ⟨hboot, -⟩ := quiet_load hquiet
  obtain ⟨hip, hback⟩ := quiet_address hquiet
  refine ⟨_, exec_configEntry hstage hload, ?_, ?_, fun hmode => ?_⟩
  · rw [hboot, pboot, hloading]
  · rw [quiet_sec hquiet, psec, hrollback]
  · rw [hip, hback, pip, pback]
    exact haddr hmode

/-! ## The image applied (R97, R411, R413) -/

/-- The stored image's writes done, with the check value and the version it carries. -/
def State.imageWritten (img : ConfigImage) (s : State) : State :=
  (s.writeAll (.mb 0) (img.writes.map (fun w => (w.addrWord, w.vals)))).wrs [(Obj.configCrc, img.crc), (Obj.cfgVersion, img.version)]
/-- The address and the PHYs follow, and READY may be entered. -/
def State.imageApplied (img : ConfigImage) (s : State) : State :=
  ((s.imageWritten img).ownAddress.phySetup).modBoot (fun b => { b with imageDone := true, auto := true })

theorem State.imageApplied_rd (img : ConfigImage) (s : State) (a : Nat) : (s.imageApplied img).rd a = (s.imageWritten img).rd a :=
  State.rd_congr rfl a

theorem exec_configImageApplied {img : ConfigImage} {s : State} (himage : s.sec.image = some img) (hstage : s.boot.stage = .askard)
    (hload : s.boot.loading = true) (hdone : s.boot.imageDone = false) :
    exec .configImageApplied s = .next (s.imageApplied img).settle := by
  have hgo : (s.askard && s.boot.loading && !s.boot.imageDone) = true := by
    rw [askard_of hstage, hload, hdone]
    rfl
  show execConfigImageApplied s = _
  unfold execConfigImageApplied
  rw [himage]
  exact if_pos hgo

theorem configImageApplied_leaves {img : ConfigImage} {s : State} (himage : s.sec.image = some img) (hstage : s.boot.stage = .askard)
    (hload : s.boot.loading = true) (hdone : s.boot.imageDone = false) :
    ∃ t : State, exec .configImageApplied s = .next t ∧ Quiet (s.imageApplied img) t ∧ t.boot.imageDone = true
      ∧ t.rd Obj.configCrc = img.crc ∧ t.rd Obj.cfgVersion = img.version := by
  have hquiet := State.settle_quiet (s.imageApplied img)
  have hdistinct : ([(Obj.configCrc, (img.crc : Int)), (Obj.cfgVersion, (img.version : Int))].map Prod.fst).Nodup := by
    show [Obj.configCrc, Obj.cfgVersion].Nodup
    decide
  refine ⟨_, exec_configImageApplied himage hstage hload hdone, hquiet, (quiet_load hquiet).2, ?_, ?_⟩
  · rw [quiet_rd hquiet (by decide), State.imageApplied_rd]
    exact State.rd_wrs_mem _ hdistinct List.mem_cons_self
  · rw [quiet_rd hquiet (by decide), State.imageApplied_rd]
    exact State.rd_wrs_mem _ hdistinct (List.mem_cons_of_mem _ List.mem_cons_self)

/-! ## The governing set (R396, R399, R401) -/

/-- The set that governs is as before. -/
def SameSet (s t : State) : Prop := t.safety.governs = s.safety.governs

theorem sameSet_of_quiet {s t : State} (h : Quiet s t) : SameSet s t := (congrArg SafetySt.governs (quiet_safety h) :)
theorem sameSet_trans {s t u : State} (h : SameSet s t) (k : SameSet t u) : SameSet s u := Eq.trans k h

theorem State.safetyReport_quiet (ch : Chan) (data : Int) (s : State) : Quiet s (s.safetyReport ch data) :=
  State.safetyReport_mild quiet_mild (quiet_refl s)
/-- A demand of SS1, or of STO, with its report. -/
theorem State.reportSs1_quiet (ch : Chan) (data : Int) (s : State) : Quiet s ((s.safetyReport ch data).ss1Start ch) :=
  State.ss1Start_mild quiet_mild (s.safetyReport_quiet ch data)
theorem State.reportSto_quiet (ch : Chan) (data : Int) (s : State) : Quiet s ((s.safetyReport ch data).demandSto ch) :=
  State.demandSto_mild quiet_mild (s.safetyReport_quiet ch data)

theorem State.setStoIn_sameSet (ch : Chan) (b : Bool) (s : State) : SameSet s (s.setStoIn ch b) := by cases ch <;> rfl
theorem State.setGuardOpen_sameSet (ch : Chan) (b : Bool) (s : State) : SameSet s (s.setGuardOpen ch b) := by cases ch <;> rfl
theorem State.stoEval_sameSet (ch : Chan) (s : State) : SameSet s (s.stoEval ch) := by
  unfold State.stoEval
  dsimp only
  split_ifs
  · exact sameSet_trans (s.setStoIn_sameSet ch true) (sameSet_of_quiet (State.reportSs1_quiet ch 2 _))
  · exact sameSet_trans (s.setStoIn_sameSet ch true) (sameSet_of_quiet (State.reportSto_quiet ch 1 _))
  · exact s.setStoIn_sameSet ch false
  · rfl
theorem State.guardEval_sameSet (ch : Chan) (s : State) : SameSet s (s.guardEval ch) := by
  have hopen : SameSet s ((s.setGuardOpen ch true).safetyReport ch 4) :=
    sameSet_trans (s.setGuardOpen_sameSet ch true) (sameSet_of_quiet (State.safetyReport_quiet ch 4 _))
  unfold State.guardEval
  dsimp only
  split_ifs
  · exact s.setGuardOpen_sameSet ch false
  · exact sameSet_trans hopen (sameSet_of_quiet (State.reportSs1_quiet ch 2 _))
  · exact sameSet_trans hopen (sameSet_of_quiet (State.reportSto_quiet ch 1 _))
  · exact s.setGuardOpen_sameSet ch false
  · rfl
theorem State.stoEnd_sameSet (ch : Chan) (s : State) : SameSet s (s.stoEnd ch) := by
  unfold State.stoEnd
  cases ch
  all_goals
    dsimp only
    split_ifs <;> rfl
theorem State.guardTest_sameSet (s : State) : SameSet s s.guardTest := by
  unfold State.guardTest
  dsimp only
  split_ifs <;> rfl

/-- The evaluation of the safety functions leaves the set that governs. -/
theorem State.safetyEval_sameSet (s : State) : SameSet s s.safetyEval := by
  unfold State.safetyEval
  split
  · rfl
  · refine sameSet_trans ?_ (State.guardTest_sameSet _)
    refine sameSet_trans ?_ (sameSet_trans (State.stoEnd_sameSet .c _) (State.stoEnd_sameSet .m _))
    refine sameSet_trans ?_ (sameSet_trans (State.guardEval_sameSet .c _) (State.guardEval_sameSet .m _))
    exact sameSet_trans (State.stoEval_sameSet .c s) (State.stoEval_sameSet .m _)

/-- What the check of the selected set's binding finds: 0 where the set governs. -/
def State.bindingResult (s : State) : Nat :=
  if (s.safety.sets.get s.setSel).state ≠ 2 then 1
  else if (s.safety.sets.get s.setSel).bind ≠ (s.bindingCrc (s.safety.sets.get s.setSel).image s.setSel.val).toNat then 2 else 0
/-- The result noted and shown. -/
def State.bindingNoted (s : State) : State :=
  (s.modBoot (fun b => { b with bindDone := true, bindRes := s.bindingResult })).wr Obj.safeBindCrc
    (if (s.safety.sets.get s.setSel).state = 0 then 0
     else ((s.bindingCrc (s.safety.sets.get s.setSel).image s.setSel.val).toNat : Int))
/-- The selected set governs, its parameters shown. -/
def State.governed (s : State) : State :=
  (s.bindingNoted.modSafety (fun f => { f with governs := some s.setSel })).showParams (s.safety.sets.get s.setSel).image

theorem State.governed_rest (s : State) : s.governed.boot = s.bindingNoted.boot ∧ s.governed.safety.governs = some s.setSel := by
  unfold State.governed State.showParams
  obtain ⟨o, ho⟩ := State.wrs_only (s.bindingNoted.modSafety (fun f => { f with governs := some s.setSel })) _
  rw [ho]
  exact ⟨rfl, rfl⟩

theorem exec_safetyBindingCheck {s : State} (hstage : s.boot.stage = .askard) (hload : s.boot.loading = true) (hdone : s.boot.bindDone = false) :
    exec .safetyBindingCheck s = if s.bindingResult = 0 then .next s.governed.safetyEval.settle else .next s.bindingNoted.settle := by
  have hgo : (s.askard && s.boot.loading && !s.boot.bindDone) = true := by
    rw [askard_of hstage, hload, hdone]
    rfl
  exact if_pos hgo

theorem watched_boot {s t : State} (h : Watched s t) : t.boot.bindDone = s.boot.bindDone ∧ t.boot.bindRes = s.boot.bindRes :=
  ⟨(congrArg (fun x => x.boot.bindDone) h.1 :), (congrArg (fun x => x.boot.bindRes) h.1 :)⟩

theorem safetyBindingCheck_bound {s : State} (hstage : s.boot.stage = .askard) (hload : s.boot.loading = true)
    (hdone : s.boot.bindDone = false) (hres : s.bindingResult = 0) :
    ∃ t : State, exec .safetyBindingCheck s = .next t ∧ t.boot.bindDone = true ∧ t.boot.bindRes = 0 ∧ t.safety.governs = some s.setSel := by
  obtain ⟨hboot, hgoverns⟩ := s.governed_rest
  obtain ⟨hbind, hbindRes⟩ := watched_boot (State.settle_mild watched_evals.toMild (State.safetyEval_evals watched_evals (watched_evals.refl s.governed)))
  refine ⟨_, (exec_safetyBindingCheck hstage hload hdone).trans (if_pos hres), ?_, ?_, ?_⟩
  · rw [hbind, hboot]
    rfl
  · rw [hbindRes, hboot]
    exact hres
  · exact (sameSet_trans s.governed.safetyEval_sameSet (sameSet_of_quiet (State.settle_quiet _))).trans hgoverns

theorem safetyBindingCheck_refused {s : State} (hstage : s.boot.stage = .askard) (hload : s.boot.loading = true)
    (hdone : s.boot.bindDone = false) (hres : s.bindingResult ≠ 0) :
    ∃ t : State, exec .safetyBindingCheck s = .next t ∧ t.boot.bindDone = true ∧ t.boot.bindRes = s.bindingResult
      ∧ t.safety.governs = s.safety.governs := by
  have hquiet := State.settle_quiet s.bindingNoted
  obtain ⟨hbind, hbindRes⟩ := watched_boot (watched_of_quiet hquiet)
  exact ⟨_, (exec_safetyBindingCheck hstage hload hdone).trans (if_neg hres), hbind, hbindRes,
    sameSet_trans (t := s.bindingNoted) rfl (sameSet_of_quiet hquiet)⟩

theorem exec_safetyParamReadback {crc : Word} {n : Fin 4} {s : State} (hgoverns : s.safety.governs = some n)
    (htrained : s.boot.peelTrained = true) (hdone : s.boot.readDone = false) :
    exec (.safetyParamReadback crc) s = .next (s.modBoot (fun b => { b with
      readDone := true, readOk := decide (crc = crc32 (slice (s.safety.sets.get n).image 16 32)) })).settle := by
  have hgo : (s.boot.peelTrained && !s.boot.readDone) = true := by
    rw [htrained, hdone]
    rfl
  show execSafetyParamReadback crc s = _
  unfold execSafetyParamReadback
  rw [hgoverns]
  exact if_pos hgo

end Sys2Proof.Machine

namespace Sys2Proof

open Sys2Proof.Machine

/-- Settles O3: the entry by what it leaves beside the module state, the image by its last writes, the checks by their result, which
nothing that follows changes. -/
theorem configurationLoads : Obligations.ConfigurationLoads := by
  unfold Obligations.ConfigurationLoads
  refine ⟨?_, ?_, ?_, ?_, ?_, ?_, ?_, ?_⟩
  case refine_1 =>
    intro s hstage hload hmode himage
    rw [exec_configEntry hstage hload, State.configEntered_boot hmode, if_neg (by simpa using himage)]
  case refine_2 =>
    intro s hstage hload hmode himage
    rw [exec_configEntry hstage hload, State.configEntered_boot hmode, if_pos (by simpa using himage)]
  case refine_3 =>
    intro s p
    match p with
    | 0 => rfl
    | 1 => rfl
  case refine_4 => exact fun s hstage hload => configEntry_leaves hstage hload
  case refine_5 => exact fun img s himage hstage hload hdone => configImageApplied_leaves himage hstage hload hdone
  case refine_6 =>
    intro s hstage hload hdone hstate hbind
    exact safetyBindingCheck_bound hstage hload hdone ((if_neg (not_not.mpr hstate)).trans (if_neg (not_not.mpr hbind)))
  case refine_7 =>
    intro s hstage hload hdone hrefused
    have hres : s.bindingResult = if (s.safety.sets.get s.setSel).state ≠ 2 then 1 else 2 := by
      unfold State.bindingResult
      split
      next => rfl
      next hstate => exact if_pos (hrefused.resolve_left hstate)
    rw [← hres]
    exact safetyBindingCheck_refused hstage hload hdone (by rw [hres]; split <;> decide)
  case refine_8 =>
    exact fun crc n s hgoverns htrained hdone => ⟨_, exec_safetyParamReadback hgoverns htrained hdone, State.settle_quiet _⟩

end Sys2Proof
end

section
/-! Frames at the host port: the result of a frame, and what an accepted or a discarded one leaves (R117 to R124, R128; O6, O7). -/

namespace Sys2Proof.Machine

open Sys2Proof

/-! ## The result code (R120, R123) -/

/-- The shortest frame is longer than its header. -/
theorem header_le_frBits (b : List Byte) : 32 ≤ frBits b := by
  unfold frBits
  split <;> omega

theorem frameResult_gap {b : List Byte} {bits gapNs : Nat} (hgap : gapNs < 1000) : frameResult b bits gapNs = 4 := if_pos hgap

theorem frameResult_noHeader {b : List Byte} {bits gapNs : Nat} (hgap : 1000 ≤ gapNs) (hbits : bits < 32) :
    frameResult b bits gapNs = 2 := by
  rw [frameResult, if_neg (Nat.not_lt.mpr hgap), if_pos hbits]

theorem frameResult_format {b : List Byte} {bits gapNs : Nat} (hgap : 1000 ≤ gapNs) (hbits : 32 ≤ bits) (hformat : frFormat b = false) :
    frameResult b bits gapNs = 3 := by
  rw [frameResult, if_neg (Nat.not_lt.mpr hgap), if_neg (Nat.not_lt.mpr hbits), hformat]
  rfl

/-- A whole header of a sound format leaves the length of the frame and its CRC to be checked. -/
theorem frameResult_sound {b : List Byte} {bits gapNs : Nat} (hgap : 1000 ≤ gapNs) (hbits : 32 ≤ bits) (hformat : frFormat b = true) :
    frameResult b bits gapNs = if bits < frBits b then 2 else if frCrcOk b then 0 else 1 := by
  rw [frameResult, if_neg (Nat.not_lt.mpr hgap), if_neg (Nat.not_lt.mpr hbits), hformat]
  cases frCrcOk b <;> rfl

theorem frameResult_whole {b : List Byte} {bits gapNs : Nat} (hgap : 1000 ≤ gapNs) (hformat : frFormat b = true) (hbits : frBits b ≤ bits) :
    frameResult b bits gapNs = if frCrcOk b then 0 else 1 :=
  (frameResult_sound hgap (Nat.le_trans (header_le_frBits b) hbits) hformat).trans (if_neg (Nat.not_lt.mpr hbits))

theorem frFormat_of {b : List Byte} (hop : frOp b = 0x0B ∨ frOp b = 0x02) (haddr : frAddr b % 4 = 0) (hlow : 1 ≤ frCount b)
    (hhigh : frCount b ≤ 64) : frFormat b = true := by
  unfold frFormat
  rw [decide_eq_true hop, decide_eq_true haddr, decide_eq_true (And.intro hlow hhigh)]
  rfl

/-! ## What a frame leaves (R121, R122, R124, R128) -/

theorem State.hostFrame_write {bytes : List Byte} {bits gapNs : Nat} {s : State} (hover : s.resetOver = true) (hop : frOp bytes = 0x02)
    (hresult : frameResult bytes bits gapNs = 0) : s.hostFrame bytes bits gapNs = State.windowWrites (frAddr bytes) (frWords bytes)
      (s.modHost (fun h => { h with
        miso := if s.misoDrives = true then (s.statusWord ++ List.replicate (4 * frCount bytes + 1) 0).take ((bits + 7) / 8) else []
        lastResult := 0
        frameCnt := (h.frameCnt + 1) % 65536 })) := by
  have hgood : readHeaderOk bytes bits gapNs = false := by
    unfold readHeaderOk
    rw [hop, decide_eq_false (fun ⟨_, _, hread⟩ => absurd hread (by decide))]
    rfl
  simp [State.hostFrame, State.frameMiso, State.frameErr, hover, hresult, hgood, hop]

theorem State.hostFrame_read {bytes : List Byte} {bits gapNs : Nat} {s : State} (hover : s.resetOver = true) (hop : frOp bytes = 0x0B)
    (hgood : readHeaderOk bytes bits gapNs = true) (hresult : frameResult bytes bits gapNs = 0) :
    s.hostFrame bytes bits gapNs = (s.snapshot (frAddr bytes) (frCount bytes)).modHost (fun h => { h with
        miso := if s.misoDrives = true then
            (s.statusWord ++ [0, 0] ++ (s.snapshot (frAddr bytes) (frCount bytes)).frameData bytes ++ [crc8 (slice bytes 0 4
              ++ (s.snapshot (frAddr bytes) (frCount bytes)).frameData bytes)]).take ((bits + 7) / 8)
          else []
        lastResult := 0
        frameCnt := (h.frameCnt + 1) % 65536 }) := by
  have hstatus : (s.snapshot (frAddr bytes) (frCount bytes)).statusWord = s.statusWord := rfl
  simp [State.hostFrame, State.frameMiso, State.frameErr, hover, hresult, hgood, hop, hstatus]

/-- A frame that is discarded is noted with what `HMISO` carried and the groups its header took, and counted by its result. -/
theorem State.hostFrame_discarded {bytes : List Byte} {bits gapNs : Nat} {s : State} (hover : s.resetOver = true)
    (hresult : frameResult bytes bits gapNs ≠ 0) : ∃ miso serial ts, s.hostFrame bytes bits gapNs
      = (s.modHost (fun h => { h with
          miso := miso, serialSnap := serial, tsSnap := ts
          lastResult := frameResult bytes bits gapNs, frameCnt := (h.frameCnt + 1) % 65536 })).frameErr (frameResult bytes bits gapNs) := by
  have hnone : ¬ (frameResult bytes bits gapNs = 0 ∧ frOp bytes = 0x02) := fun hboth => hresult hboth.1
  unfold State.hostFrame
  rw [hover]
  dsimp only
  rw [if_neg hnone]
  cases readHeaderOk bytes bits gapNs <;> exact ⟨_, _, _, rfl⟩

theorem quiet_lastResult {s t : State} (h : Quiet s t) : t.host.lastResult = s.host.lastResult :=
  (congrArg HostSt.lastResult (quiet_host h) :)

/-! ## Flags of `IRQ_FLAGS` (R129) -/

theorem State.setIrq_flag (s : State) (i : Nat) {j : Nat} (hj : j < 32) :
    (s.setIrq i).host.irqFlags.getLsbD j = (s.host.irqFlags.getLsbD j || decide (i = j)) := by
  show (s.host.irqFlags ||| BitVec.ofNat 32 (2 ^ i)).getLsbD j = _
  rw [BitVec.getLsbD_or, BitVec.getLsbD_ofNat, decide_eq_true hj, Bool.true_and, Nat.testBit_two_pow]

theorem State.clrIrq_flag (s : State) (i : Nat) {j : Nat} (hj : j < 32) :
    (s.clrIrq i).host.irqFlags.getLsbD j = (s.host.irqFlags.getLsbD j && !decide (i = j)) := by
  show (s.host.irqFlags &&& ~~~ BitVec.ofNat 32 (2 ^ i)).getLsbD j = _
  rw [BitVec.getLsbD_and, BitVec.getLsbD_not, BitVec.getLsbD_ofNat, decide_eq_true hj, Bool.true_and, Bool.true_and, Nat.testBit_two_pow]

end Sys2Proof.Machine

namespace Sys2Proof

open Sys2Proof.Machine

/-- Settles O7, check by check. -/
theorem frameResultOrder : Obligations.FrameResultOrder := by
  unfold Obligations.FrameResultOrder
  intro bytes bits gapNs
  refine ⟨frameResult_gap, frameResult_noHeader, frameResult_format, ?_, ?_, ?_⟩
  case refine_1 => exact fun hgap hheader hformat hcut => (frameResult_sound hgap hheader hformat).trans (if_pos hcut)
  case refine_2 =>
    intro hgap hformat hbits hcrc
    rw [frameResult_whole hgap hformat hbits, hcrc]
    rfl
  case refine_3 => exact fun hgap hformat hbits hcrc => (frameResult_whole hgap hformat hbits).trans (if_pos hcrc)

/-- Settles O6: by the result of the frame, then by what a frame of that result leaves. -/
theorem hostFrames : Obligations.HostFrames := by
  unfold Obligations.HostFrames
  refine ⟨?_, ?_, ?_⟩
  case refine_1 =>
    intro bytes bits gapNs s hover hgap hop haddr hlow hhigh hbits hcrc
    have hread : ¬ frOp bytes = 0x0B := by rw [hop]; decide
    have hsound : frCrcOk bytes = true := by rw [frCrcOk, if_neg hread]; exact decide_eq_true hcrc
    have hresult : frameResult bytes bits gapNs = 0 :=
      (frameResult_whole hgap (frFormat_of (.inr hop) haddr hlow hhigh) (by rwa [frBits, if_neg hread])).trans (if_pos hsound)
    refine ⟨_, rfl, ?_⟩
    rw [State.hostFrame_write hover hop hresult]
    exact State.settle_quiet _
  case refine_2 =>
    intro bytes bits gapNs s hover hgap hop haddr hlow hhigh hbits hcrc
    have hformat := frFormat_of (.inl hop) haddr hlow hhigh
    have hsound : frCrcOk bytes = true := by rw [frCrcOk, if_pos hop]; exact decide_eq_true hcrc
    have hresult : frameResult bytes bits gapNs = 0 :=
      (frameResult_whole hgap hformat (by rwa [frBits, if_pos hop])).trans (if_pos hsound)
    have hgood : readHeaderOk bytes bits gapNs = true := by
      have hheader : 40 ≤ bits := by omega
      rw [readHeaderOk, hformat, hsound, decide_eq_true ⟨hgap, hheader, hop⟩]
      rfl
    refine ⟨_, rfl, ?_⟩
    rw [State.hostFrame_read hover hop hgood hresult]
    exact ⟨State.settle_quiet _, quiet_lastResult (State.settle_quiet _)⟩
  case refine_3 =>
    intro bytes bits gapNs s hover hresult c hc
    have hexec : exec c s = .next (s.hostFrame bytes bits gapNs).settle := by
      rcases List.mem_pair.mp hc with rfl | rfl <;> rfl
    obtain ⟨miso, serial, ts, hframe⟩ := State.hostFrame_discarded hover hresult
    rw [State.frameErr, if_neg hresult] at hframe
    refine ⟨s.hostFrame bytes bits gapNs, hexec, ?_⟩
    rw [hframe]
    refine ⟨rfl, rfl, ?_, rfl, rfl, rfl, rfl, rfl, rfl, rfl⟩
    rw [State.setIrq_flag _ 11 (by decide)]
    exact Bool.or_true _

end Sys2Proof
end

section
/-! The doorbells: each bit acts on its own mailbox (R133 to R135, R139; O8). -/

namespace Sys2Proof.Machine

open Sys2Proof

/-! ## One unit of several -/

/-- What every step of a sweep keeps, the sweep keeps. -/
theorem forAll_rel {α : Type} {R : State → State → Prop} {f : α → State → State} {l : List α} (hrefl : ∀ s, R s s)
    (htrans : ∀ {s t u}, R s t → R t u → R s u) (hf : ∀ a ∈ l, ∀ x, R x (f a x)) (s : State) : R s (forAll l f s) := by
  unfold forAll
  induction l generalizing s with
  | nil => exact hrefl s
  | cons a l ih => exact htrans (hf a List.mem_cons_self s) (ih (fun b hb => hf b (List.mem_cons_of_mem a hb)) (f a s))

/-- Of a sweep over the four units, one unit's step stands between steps that are not its own. -/
theorem forAll_units4_at {R : State → State → Prop} {f : Fin 4 → State → State} (n : Fin 4) (hrefl : ∀ s, R s s)
    (htrans : ∀ {s t u}, R s t → R t u → R s u) (hf : ∀ m, m ≠ n → ∀ x, R x (f m x)) (s : State) :
    ∃ x, R s x ∧ R (f n x) (forAll units4 f s) := by
  have hsplit : ∀ n : Fin 4, ∃ before after, units4 = before ++ n :: after ∧ n ∉ before ∧ n ∉ after := by
    intro n
    match n with
    | 0 => exact ⟨[], [1, 2, 3], rfl, by decide, by decide⟩
    | 1 => exact ⟨[0], [2, 3], rfl, by decide, by decide⟩
    | 2 => exact ⟨[0, 1], [3], rfl, by decide, by decide⟩
    | 3 => exact ⟨[0, 1, 2], [], rfl, by decide, by decide⟩
  obtain ⟨before, after, hunits, hbefore, hafter⟩ := hsplit n
  have hrest : ∀ {l : List (Fin 4)}, n ∉ l → ∀ x, R x (forAll l f x) := fun hl =>
    forAll_rel hrefl htrans (fun m hm => hf m (fun hmn => hl (hmn ▸ hm)))
  have hsweep : forAll units4 f s = forAll after f (f n (forAll before f s)) := by
    rw [hunits, forAll, List.foldl_append]
    rfl
  exact ⟨forAll before f s, hrest hbefore s, hsweep ▸ hrest hafter _⟩

/-! ## What a doorbell leaves alone -/

/-- No object, mode, loaf, group or safety function has changed. -/
def Rung (s t : State) : Prop := t.objs = s.objs ∧ t.mode = s.mode ∧ t.loaf = s.loaf ∧ t.grp = s.grp ∧ t.safety = s.safety

theorem rung_refl (s : State) : Rung s s := ⟨rfl, rfl, rfl, rfl, rfl⟩
theorem rung_trans {s t u : State} (h : Rung s t) (k : Rung t u) : Rung s u := by
  obtain ⟨hobjs, hmode, hloaf, hgrp, hsafety⟩ := h
  obtain ⟨kobjs, kmode, kloaf, kgrp, ksafety⟩ := k
  exact ⟨kobjs.trans hobjs, kmode.trans hmode, kloaf.trans hloaf, kgrp.trans hgrp, ksafety.trans hsafety⟩

/-! ## `DB_IN` (R133, R135) -/

theorem State.passIn_free {n : Fin 4} {s : State} (hfree : (s.mb.get n).inBusy = false) :
    s.passIn n = (s.modMb n (fun m => { m with inBusy := true })).clrIrq (4 + n.val) := if_neg (by rw [hfree]; decide)
theorem State.passIn_busy {n : Fin 4} {s : State} (hbusy : (s.mb.get n).inBusy = true) :
    s.passIn n = ((s.modHost (fun h => { h with mbErr := word32 (putBit h.mbErr.toNat n.val true) })).setIrq 12).reportM
      0xF402 (mkInst n.val 0) 0 := if_pos hbusy

theorem getLsbD_word32_putBit (v : Word) (i : Nat) {j : Nat} (b : Bool) (hj : j < 32) :
    (word32 (putBit v.toNat i b)).getLsbD j = if j = i then b else v.getLsbD j := by
  rw [word32, BitVec.getLsbD_ofNat, decide_eq_true hj, Bool.true_and, testBit_putBit, BitVec.testBit_toNat]

/-- Mailbox `n`, its error and its IN flag are as before; `MB_OVERRUN` and the reports on their way stay. -/
def InKept (n : Fin 4) (s t : State) : Prop :=
  t.mb.get n = s.mb.get n ∧ t.host.mbErr.getLsbD n.val = s.host.mbErr.getLsbD n.val
    ∧ t.host.irqFlags.getLsbD (4 + n.val) = s.host.irqFlags.getLsbD (4 + n.val)
    ∧ (s.host.irqFlags.getLsbD 12 = true → t.host.irqFlags.getLsbD 12 = true) ∧ ∀ r ∈ s.flt.mRep, r ∈ t.flt.mRep

theorem inKept_refl (n : Fin 4) (s : State) : InKept n s s := ⟨rfl, rfl, rfl, id, fun _ => id⟩
theorem inKept_trans {n : Fin 4} {s t u : State} (h : InKept n s t) (k : InKept n t u) : InKept n s u := by
  obtain ⟨hmb, herr, hflag, hover, hrep⟩ := h
  obtain ⟨kmb, kerr, kflag, kover, krep⟩ := k
  exact ⟨kmb.trans hmb, kerr.trans herr, kflag.trans hflag, kover ∘ hover, fun r hr => krep r (hrep r hr)⟩

theorem State.passIn_rung (n : Fin 4) (s : State) : Rung s (s.passIn n) := by
  cases hbusy : (s.mb.get n).inBusy
  · rw [State.passIn_free hbusy]
    exact rung_refl s
  · rw [State.passIn_busy hbusy]
    exact rung_refl s

theorem State.passIn_inKept {m n : Fin 4} (hne : m ≠ n) (s : State) : InKept n s (s.passIn m) := by
  have hval : ¬ n.val = m.val := fun h => hne (Fin.ext h.symm)
  cases hbusy : (s.mb.get m).inBusy
  · rw [State.passIn_free hbusy]
    refine ⟨Quad.get_set_ne _ _ hne.symm, rfl, ?_, fun hover => ?_, fun _ => id⟩
    · rw [State.clrIrq_flag _ _ (by omega), decide_eq_false (by omega)]
      exact Bool.and_true _
    · rw [State.clrIrq_flag _ _ (by decide), decide_eq_false (by omega)]
      exact (Bool.and_true _).trans hover
  · rw [State.passIn_busy hbusy]
    refine ⟨rfl, (getLsbD_word32_putBit _ _ true (by omega)).trans (if_neg hval), ?_, fun hover => ?_,
      fun r hr => List.mem_append_left _ hr⟩
    · refine (State.setIrq_flag _ 12 (by omega)).trans ?_
      rw [decide_eq_false (by omega)]
      exact Bool.or_false _
    · exact (State.setIrq_flag _ 12 (by decide)).trans (Bool.or_true _)

theorem State.writeDbIn_rung (w : Word) (s : State) : Rung s (s.writeDbIn w) :=
  forAll_rel rung_refl rung_trans (fun n _ x => by split; exacts [State.passIn_rung n x, rung_refl x]) s

/-- A bit of `DB_IN`: between what leaves its mailbox alone, the host passes the buffer where the bit is set. -/
theorem State.writeDbIn_at (w : Word) (n : Fin 4) (s : State) :
    ∃ x, InKept n s x ∧ InKept n (if w.getLsbD n.val then x.passIn n else x) (s.writeDbIn w) :=
  forAll_units4_at n (inKept_refl n) inKept_trans
    (fun m hm x => by split; exacts [State.passIn_inKept hm x, inKept_refl n x]) s

theorem State.writeDbIn_unset {w : Word} {n : Fin 4} (s : State) (hbit : w.getLsbD n.val = false) : InKept n s (s.writeDbIn w) := by
  obtain ⟨x, hbefore, hafter⟩ := s.writeDbIn_at w n
  rw [hbit] at hafter
  exact inKept_trans hbefore hafter

theorem State.writeDbIn_passed {w : Word} {n : Fin 4} {s : State} (hbit : w.getLsbD n.val = true) (hfree : (s.mb.get n).inBusy = false) :
    (s.writeDbIn w).mb.get n = { s.mb.get n with inBusy := true } ∧ (s.writeDbIn w).host.irqFlags.getLsbD (4 + n.val) = false := by
  obtain ⟨x, ⟨hmb, -, -, -, -⟩, hafter⟩ := s.writeDbIn_at w n
  rw [hbit, if_pos rfl, State.passIn_free (hmb ▸ hfree)] at hafter
  obtain ⟨kmb, -, kflag, -, -⟩ := hafter
  refine ⟨kmb.trans ((Quad.get_set_same ..).trans (by rw [hmb])), kflag.trans ?_⟩
  rw [State.clrIrq_flag _ _ (by omega), decide_eq_true rfl]
  exact Bool.and_false _

theorem State.writeDbIn_overrun {w : Word} {n : Fin 4} {s : State} (hbit : w.getLsbD n.val = true) (hbusy : (s.mb.get n).inBusy = true) :
    (s.writeDbIn w).mb.get n = s.mb.get n ∧ (s.writeDbIn w).host.mbErr.getLsbD n.val = true
      ∧ (s.writeDbIn w).host.irqFlags.getLsbD 12 = true ∧ (0xF402, mkInst n.val 0, 0) ∈ (s.writeDbIn w).flt.mRep := by
  obtain ⟨x, ⟨hmb, -, -, -, -⟩, hafter⟩ := s.writeDbIn_at w n
  rw [hbit, if_pos rfl, State.passIn_busy (hmb ▸ hbusy)] at hafter
  obtain ⟨kmb, kerr, -, kover, krep⟩ := hafter
  refine ⟨kmb.trans hmb, kerr.trans ?_, kover ?_, krep _ (State.reportM_mem _ _ _ _)⟩
  · exact (getLsbD_word32_putBit _ _ true (by omega)).trans (if_pos rfl)
  · exact (State.setIrq_flag _ 12 (by decide)).trans (Bool.or_true _)

/-! ## `DB_OUT` (R134, R139) -/

/-- The host has released the OUT buffer of mailbox `n`. -/
def State.outFreed (n : Fin 4) (s : State) : State := (s.modMb n (fun m => { m with outBuf := [], outFull := false })).clrIrq n.val
/-- The response that waited for it stands in it. -/
def State.outRefilled (n : Fin 4) (ws : List Word) (s : State) : State :=
  (s.outFreed n).modMb n (fun m => { m with respWait := none }) |>.placeOut n ws

theorem State.outFreed_rung (n : Fin 4) (s : State) : Rung s (s.outFreed n) := ⟨rfl, rfl, rfl, rfl, rfl⟩
theorem State.outRefilled_rung (n : Fin 4) (ws : List Word) (s : State) : Rung s (s.outRefilled n ws) := by
  simp [Rung, State.outRefilled, State.placeOut, State.outFreed]

/-- Where no transition waits, a release acts on the OUT buffer alone. -/
theorem State.releaseOut_of_none {n : Fin 4} {s : State} (hnone : s.boot.transition = none) : s.releaseOut n =
    if (s.mb.get n).outFull then
      match (s.mb.get n).respWait with
      | none => s.outFreed n
      | some ws => s.outRefilled n ws
    else s := by
  have hplaced : ∀ x : State, x.boot = s.boot → x.transPlaced (.mb n) = x := by
    intro x hx
    refine if_neg ?_
    rw [hx, hnone]
    exact Bool.false_ne_true
  unfold State.releaseOut
  cases (s.mb.get n).outFull with
  | false => rfl
  | true =>
    cases (s.mb.get n).respWait with
    | none =>
      dsimp only
      rw [hnone]
      rfl
    | some ws => exact hplaced (s.outRefilled n ws) rfl

/-- As long as no transition waits, none comes to wait, and what a doorbell leaves alone is as before. -/
def OutRung (s t : State) : Prop := s.boot.transition = none → t.boot.transition = none ∧ Rung s t

theorem outRung_refl (s : State) : OutRung s s := fun hnone => ⟨hnone, rung_refl s⟩
theorem outRung_trans {s t u : State} (h : OutRung s t) (k : OutRung t u) : OutRung s u := by
  intro hnone
  obtain ⟨tnone, hrung⟩ := h hnone
  obtain ⟨unone, krung⟩ := k tnone
  exact ⟨unone, rung_trans hrung krung⟩

theorem State.releaseOut_outRung (n : Fin 4) (s : State) : OutRung s (s.releaseOut n) := by
  intro hnone
  rw [State.releaseOut_of_none hnone]
  split
  · split
    · exact ⟨hnone, s.outFreed_rung n⟩
    · exact ⟨hnone, s.outRefilled_rung n _⟩
  · exact outRung_refl s hnone

theorem State.writeDbOut_rung (w : Word) (s : State) : OutRung s (s.writeDbOut w) :=
  forAll_rel outRung_refl outRung_trans (fun n _ x => by split; exacts [State.releaseOut_outRung n x, outRung_refl x]) s

/-- As long as no transition waits, none comes to wait, and mailbox `n` and its OUT flag are as before. -/
def OutKept (n : Fin 4) (s t : State) : Prop :=
  s.boot.transition = none → t.boot.transition = none ∧ t.mb.get n = s.mb.get n
    ∧ t.host.irqFlags.getLsbD n.val = s.host.irqFlags.getLsbD n.val

theorem outKept_refl (n : Fin 4) (s : State) : OutKept n s s := fun hnone => ⟨hnone, rfl, rfl⟩
theorem outKept_trans {n : Fin 4} {s t u : State} (h : OutKept n s t) (k : OutKept n t u) : OutKept n s u := by
  intro hnone
  obtain ⟨tnone, hmb, hflag⟩ := h hnone
  obtain ⟨unone, kmb, kflag⟩ := k tnone
  exact ⟨unone, kmb.trans hmb, kflag.trans hflag⟩

theorem State.outFreed_outKept {m n : Fin 4} (hne : m ≠ n) (s : State) : OutKept n s (s.outFreed m) := by
  refine fun hnone => ⟨hnone, Quad.get_set_ne _ _ hne.symm, ?_⟩
  rw [State.outFreed, State.clrIrq_flag _ _ (by omega), decide_eq_false (fun h => hne (Fin.ext h))]
  exact Bool.and_true _

theorem State.outRefilled_outKept {m n : Fin 4} (hne : m ≠ n) (ws : List Word) (s : State) : OutKept n s (s.outRefilled m ws) := by
  refine outKept_trans (State.outFreed_outKept hne s) (fun hnone => ⟨hnone, ?_, ?_⟩)
  · exact (Quad.get_set_ne _ _ hne.symm).trans (Quad.get_set_ne _ _ hne.symm)
  · refine (State.setIrq_flag _ _ (by omega)).trans ?_
    rw [decide_eq_false (fun h => hne (Fin.ext h))]
    exact Bool.or_false _

theorem State.releaseOut_outKept {m n : Fin 4} (hne : m ≠ n) (s : State) : OutKept n s (s.releaseOut m) := by
  intro hnone
  rw [State.releaseOut_of_none hnone]
  split
  · split
    · exact State.outFreed_outKept hne s hnone
    · exact State.outRefilled_outKept hne _ s hnone
  · exact outKept_refl n s hnone

/-- A bit of `DB_OUT`: between what leaves its mailbox alone, the host releases the buffer where the bit is set. -/
theorem State.writeDbOut_at (w : Word) (n : Fin 4) (s : State) :
    ∃ x, OutKept n s x ∧ OutKept n (if w.getLsbD n.val then x.releaseOut n else x) (s.writeDbOut w) :=
  forAll_units4_at (f := fun n x => if w.getLsbD n.val then x.releaseOut n else x) n (outKept_refl n) outKept_trans
    (fun m hm x => by split; exacts [State.releaseOut_outKept hm x, outKept_refl n x]) s

theorem State.writeDbOut_idle {w : Word} {n : Fin 4} {s : State} (hnone : s.boot.transition = none)
    (hidle : w.getLsbD n.val = false ∨ (s.mb.get n).outFull = false) : (s.writeDbOut w).mb.get n = s.mb.get n := by
  obtain ⟨x, hbefore, hafter⟩ := s.writeDbOut_at w n
  obtain ⟨xnone, hmb, -⟩ := hbefore hnone
  have hstep : (if w.getLsbD n.val then x.releaseOut n else x) = x := by
    rcases hidle with hbit | hempty
    · rw [hbit]
      rfl
    · rw [State.releaseOut_of_none xnone, hmb, hempty]
      exact ite_self x
  rw [hstep] at hafter
  obtain ⟨-, kmb, -⟩ := hafter xnone
  exact kmb.trans hmb

theorem State.writeDbOut_released {w : Word} {n : Fin 4} {s : State} (hnone : s.boot.transition = none) (hbit : w.getLsbD n.val = true)
    (hfull : (s.mb.get n).outFull = true) (hwait : (s.mb.get n).respWait = none) :
    (s.writeDbOut w).mb.get n = { s.mb.get n with outBuf := [], outFull := false } ∧ (s.writeDbOut w).host.irqFlags.getLsbD n.val = false := by
  obtain ⟨x, hbefore, hafter⟩ := s.writeDbOut_at w n
  obtain ⟨xnone, hmb, -⟩ := hbefore hnone
  rw [if_pos hbit, State.releaseOut_of_none xnone, hmb, if_pos hfull, hwait] at hafter
  obtain ⟨-, kmb, kflag⟩ := hafter xnone
  refine ⟨kmb.trans ((Quad.get_set_same ..).trans (by rw [hmb])), kflag.trans ?_⟩
  rw [State.outFreed, State.clrIrq_flag _ _ (by omega), decide_eq_true rfl]
  exact Bool.and_false _

theorem State.writeDbOut_refilled {w : Word} {n : Fin 4} {ws : List Word} {s : State} (hnone : s.boot.transition = none)
    (hbit : w.getLsbD n.val = true) (hfull : (s.mb.get n).outFull = true) (hwait : (s.mb.get n).respWait = some ws) :
    (s.writeDbOut w).mb.get n = { s.mb.get n with outBuf := ws, outFull := true, respWait := none }
      ∧ (s.writeDbOut w).host.irqFlags.getLsbD n.val = true := by
  obtain ⟨x, hbefore, hafter⟩ := s.writeDbOut_at w n
  obtain ⟨xnone, hmb, -⟩ := hbefore hnone
  rw [if_pos hbit, State.releaseOut_of_none xnone, hmb, if_pos hfull, hwait] at hafter
  obtain ⟨-, kmb, kflag⟩ := hafter xnone
  refine ⟨kmb.trans ?_, kflag.trans ?_⟩
  · simp [State.outRefilled, State.outFreed, State.placeOut, State.modMb, State.setIrq, State.clrIrq, hmb]
  · exact (State.setIrq_flag _ _ (by omega)).trans (by rw [decide_eq_true rfl, Bool.or_true])

/-! ## The words written (R127) -/

theorem State.windowWrite_dbIn {s : State} (hover : s.resetOver = true) (w : Word) : s.windowWrite 0x070 w = s.writeDbIn w := by
  simp [State.windowWrite, hover]
theorem State.windowWrite_dbOut {s : State} (hover : s.resetOver = true) (w : Word) : s.windowWrite 0x074 w = s.writeDbOut w := by
  simp [State.windowWrite, hover]

end Sys2Proof.Machine

namespace Sys2Proof

open Sys2Proof.Machine

/-- Settles O8: of each mailbox, the other bits leave alone what its own bit does. -/
theorem doorbells : Obligations.Doorbells := by
  unfold Obligations.Doorbells
  refine ⟨?_, ?_⟩
  case refine_1 =>
    intro w s hover
    refine ⟨s.writeDbIn w, congrArg Host.Outcome.next (State.windowWrite_dbIn hover w), fun n => ⟨fun hbit => ?_, ?_, ?_, s.writeDbIn_rung w⟩⟩
    · obtain ⟨hmb, herr, -, -, -⟩ := s.writeDbIn_unset hbit
      exact ⟨hmb, herr⟩
    · exact State.writeDbIn_passed
    · exact State.writeDbIn_overrun
  case refine_2 =>
    intro w s hover hnone
    obtain ⟨-, hrung⟩ := s.writeDbOut_rung w hnone
    exact ⟨s.writeDbOut w, congrArg Host.Outcome.next (State.windowWrite_dbOut hover w), fun n =>
      ⟨State.writeDbOut_idle hnone, State.writeDbOut_released hnone, fun _ => State.writeDbOut_refilled hnone, hrung⟩⟩

end Sys2Proof
end

section
/-! The other registers of the window (R127, R129 to R133, R368; O9). -/

namespace Sys2Proof.Machine

open Sys2Proof

/-! ## The words written (R127, R131, R132) -/

theorem State.windowWrite_irqFlags {s : State} (hover : s.resetOver = true) (w : Word) : s.windowWrite 0x030 w = s.writeIrqFlags w := by
  simp [State.windowWrite, hover]
theorem State.windowWrite_irqEn {s : State} (hover : s.resetOver = true) (w : Word) :
    s.windowWrite 0x034 w = s.modHost (fun h => { h with irqEn := w &&& 0x7FFF }) := by
  simp [State.windowWrite, hover]
theorem State.windowWrite_hbHost {s : State} (hover : s.resetOver = true) (w : Word) : s.windowWrite 0x044 w = s.writeHbHost w := by
  simp [State.windowWrite, hover]
theorem State.windowWrite_tsCtrl {s : State} (hover : s.resetOver = true) (w : Word) : s.windowWrite 0x050 w = s.writeTsCtrl w := by
  simp [State.windowWrite, hover]
theorem State.windowWrite_mbErr {s : State} (hover : s.resetOver = true) (w : Word) :
    s.windowWrite 0x07C w = s.modHost (fun h => { h with mbErr := h.mbErr &&& ~~~ w }) := by
  simp [State.windowWrite, hover]
theorem State.windowWrite_hostCntClr {s : State} (hover : s.resetOver = true) (w : Word) : s.windowWrite 0x094 w = s.writeHostCntClr w := by
  simp [State.windowWrite, hover]

/-- The registers that a write acts on. -/
def writtenRegs : List Nat := [0x030, 0x034, 0x044, 0x050, 0x070, 0x074, 0x07C, 0x094]

theorem State.windowWrite_ignored {a : Nat} {s : State} (hover : s.resetOver = true) (w : Word)
    (ha : a < 0x800 ∧ a ∉ writtenRegs ∨ 0x1000 ≤ a) : s.windowWrite a w = s.winIgnore := by
  unfold State.windowWrite
  rw [hover]
  rcases ha with ⟨hlow, hreg⟩ | hhigh
  · rw [if_neg (by decide), if_neg (by omega), if_neg (by omega)]
    split
    case h_9 => rfl
    all_goals exact absurd (by decide) hreg
  · exact if_pos hhigh

/-- A word of an IN buffer that the host owns. -/
theorem State.windowWrite_in {n : Fin 4} {i : Nat} {s : State} (hover : s.resetOver = true) (hi : i < 64) (w : Word)
    (hfree : (s.mb.get n).inBusy = false) : s.windowWrite (0x800 + 0x200 * n.val + 4 * i) w = s.writeIn n i w := by
  have hmb : mbOf (0x800 + 0x200 * n.val + 4 * i) = n := by
    unfold mbOf
    apply Fin.ext
    show (0x800 + 0x200 * n.val + 4 * i - 0x800) / 0x200 % 4 = n.val
    omega
  have hoff : mbOff (0x800 + 0x200 * n.val + 4 * i) = 4 * i := by
    unfold mbOff
    omega
  unfold State.windowWrite
  rw [hover, if_neg (by decide), if_neg (by omega), if_pos (by omega), hmb, hoff, hfree, if_pos ⟨by omega, rfl⟩,
    Nat.mul_div_cancel_left i (by decide)]

theorem exec_windowRegisterWrite {a : Nat} (ha : a % 4 = 0) (w : Word) (s : State) :
    exec (.windowRegisterWrite a w) s = .next (s.windowWrite a w) := by
  show Host.Outcome.next (s.windowWrite (a / 4 * 4) w) = _
  rw [Nat.div_mul_cancel (Nat.dvd_of_mod_eq_zero ha)]

/-- A word entered in an IN buffer leaves the other words, and the OUT side. -/
theorem State.writeIn_word {n : Fin 4} {i j : Nat} (w : Word) (s : State) (hj : j < 64) :
    ((s.writeIn n i w).mb.get n).inBuf.getD j 0 = if j = i then w else (s.mb.get n).inBuf.getD j 0 := by
  have hbuf : ((s.writeIn n i w).mb.get n).inBuf
      = (List.range 64).map (fun j => if j = i then w else (s.mb.get n).inBuf.getD j 0) := by
    simp only [State.writeIn, State.modMb_mb, Quad.get_set_same]
  rw [hbuf, List.getD_eq_getElem?_getD, List.getElem?_map, List.getElem?_range hj]
  rfl

/-! ## The timestamp (R130) -/

theorem clampR_bounds {lo hi : Rat} (h : lo ≤ hi) (v : Rat) : lo ≤ clampR lo hi v ∧ clampR lo hi v ≤ hi := by
  unfold clampR
  split
  · exact ⟨le_rfl, h⟩
  · split
    · exact ⟨h, le_rfl⟩
    · exact ⟨not_lt.mp ‹_›, not_lt.mp ‹_›⟩

theorem State.writeTsCtrl_latch {s : State} (hnone : s.time.tsPending = none) : ∃ v : Rat, s.time.station - 40 ≤ v
    ∧ v ≤ s.time.station + 40
    ∧ s.writeTsCtrl 1 = (s.modTime (fun t => { t with tsPending := some v, tsLock := decide (t.lv0.st = .locked) })).drew := by
  obtain ⟨hlow, hhigh⟩ := clampR_bounds (lo := -40) (hi := 40) (by norm_num) (Config.tsError s.freeNo)
  refine ⟨s.time.station + clampR (-40) 40 (Config.tsError s.freeNo), by linarith, by linarith, ?_⟩
  rw [State.writeTsCtrl, hnone]
  rfl

theorem State.writeTsCtrl_pending {s : State} (hpending : s.time.tsPending ≠ none) : s.writeTsCtrl 1 = s.winIgnore := by
  rw [State.writeTsCtrl, if_neg (by decide), if_pos (Option.isSome_iff_ne_none.mpr hpending)]

/-- The fraction of a nanosecond in 2^-16 ns. -/
theorem subNs_lt (v : Rat) : ((v - v.floor) * 65536).floor.toNat < 65536 := by
  have hfract : v - v.floor < 1 := by
    have hlt : v < v.floor + 1 := by exact_mod_cast Rat.lt_floor_add_one v
    linarith
  have hfloor : ((v - v.floor) * 65536).floor < 65536 := by
    rw [Rat.floor_lt_iff]
    push_cast
    linarith
  omega

/-- `TS_SUBNS` holds the fraction, whether Leaven was locked, and the sequence number. -/
theorem tsSubns_fields {sub seq : Nat} (lock : Bool) (hsub : sub < 65536) (hseq : seq < 256) :
    (word32 (sub + 65536 * b2n lock + 0x1000000 * seq)).getLsbD 16 = lock
      ∧ (word32 (sub + 65536 * b2n lock + 0x1000000 * seq)).toNat / 2 ^ 24 = seq := by
  have hlock : b2n lock ≤ 1 := by cases lock <;> decide
  constructor
  · rw [word32, BitVec.getLsbD_ofNat, Nat.testBit_eq_decide_div_mod_eq]
    have hbit : (sub + 65536 * b2n lock + 0x1000000 * seq) / 2 ^ 16 % 2 = b2n lock := by omega
    rw [hbit]
    cases lock <;> rfl
  · rw [word32, BitVec.toNat_ofNat]
    omega

end Sys2Proof.Machine

namespace Sys2Proof

open Sys2Proof.Machine

/-- Settles O9, register by register. -/
theorem windowRegisters : Obligations.WindowRegisters := by
  unfold Obligations.WindowRegisters
  refine ⟨?_, ?_, ?_, ?_, ?_, ?_, ?_, ?_, ?_, ?_⟩
  case refine_1 =>
    intro s hover hnone
    obtain ⟨v, hlow, hhigh, hlatch⟩ := State.writeTsCtrl_latch hnone
    exact ⟨v, hlow, hhigh, congrArg Host.Outcome.next ((State.windowWrite_tsCtrl hover 1).trans hlatch)⟩
  case refine_2 =>
    exact fun s hover hpending => congrArg Host.Outcome.next ((State.windowWrite_tsCtrl hover 1).trans (State.writeTsCtrl_pending hpending))
  case refine_3 =>
    intro v s hpending _
    have hexec : exec .tsLatchComplete s = execTsLatchComplete s := rfl
    obtain ⟨hlock, hseq⟩ := tsSubns_fields (seq := (s.host.tsSeq + 1) % 256) s.time.tsLock (subNs_lt v) (Nat.mod_lt _ (by decide))
    rw [hexec, execTsLatchComplete, hpending]
    refine ⟨_, rfl, rfl, ?_, ?_, ?_, rfl, hlock, hseq, ?_, rfl, rfl, rfl⟩
    · exact (BitVec.toNat_ofNat ..).trans (Nat.mod_eq_of_lt (by omega))
    · exact BitVec.toNat_ofNat ..
    · exact (BitVec.toNat_ofNat ..).trans (Nat.mod_eq_of_lt (by omega))
    · exact (State.setIrq_flag _ 10 (by decide)).trans (Bool.or_true _)
  case refine_4 =>
    intro w s hover hchanged hcounts
    refine congrArg Host.Outcome.next ((State.windowWrite_hbHost hover w).trans ?_)
    rw [State.writeHbHost, if_neg hchanged]
    exact if_pos hcounts
  case refine_5 => exact fun w s hover => congrArg Host.Outcome.next (State.windowWrite_irqFlags hover w)
  case refine_6 =>
    exact fun s hover => congrArg Host.Outcome.next ((State.windowWrite_hostCntClr hover 1).trans (if_pos rfl))
  case refine_7 =>
    exact fun w s hover => congrArg Host.Outcome.next (State.windowWrite_irqEn hover w)
  case refine_8 =>
    exact fun w s hover => congrArg Host.Outcome.next (State.windowWrite_mbErr hover w)
  case refine_9 =>
    intro a w s hover hword ha
    have hlisted : ∀ r ∈ [0x000, 0x004, 0x008, 0x00C, 0x010, 0x014, 0x020, 0x024, 0x028, 0x038, 0x040, 0x054, 0x058, 0x05C, 0x060,
        0x078, 0x080, 0x084, 0x088, 0x08C, 0x090], r < 0x800 ∧ r ∉ writtenRegs := by decide
    exact (exec_windowRegisterWrite hword w s).trans
      (congrArg Host.Outcome.next (State.windowWrite_ignored hover w (ha.imp_left (hlisted a))))
  case refine_10 =>
    intro n i w s hover hfree
    have hmb : ((s.writeIn n i.val w).mb.get n).inBusy = false ∧ ((s.writeIn n i.val w).mb.get n).outFull = (s.mb.get n).outFull
        ∧ ((s.writeIn n i.val w).mb.get n).outBuf = (s.mb.get n).outBuf := by
      simp only [State.writeIn, State.modMb_mb, Quad.get_set_same, hfree, and_self]
    refine ⟨s.writeIn n i.val w, ?_, _, rfl, fun j => ?_, hmb⟩
    · exact (exec_windowRegisterWrite (by omega) w s).trans (congrArg Host.Outcome.next (State.windowWrite_in hover i.isLt w hfree))
    · rw [State.writeIn_word w s j.isLt]
      exact if_congr Fin.ext_iff.symm rfl rfl

end Sys2Proof
end

section
/-! Commands taken, deliveries put out, responses and refusals (R133, R138 to R140, R142, R145, R165, R178; O11, O13). -/

namespace Sys2Proof.Machine

open Sys2Proof

/-! ## Whose turn it is (R138, R165) -/

/-- The one nearer by `dist` of the choice so far and another, the first of equals. -/
def nearer {α : Type} (dist : α → Nat) (b : Option α) (x : α) : Option α := match b with
  | none => some x
  | some y => if dist x < dist y then some x else some y

theorem foldl_nearer_some {α : Type} (dist : α → Nat) (l : List α) (y : α) :
    ∃ z, l.foldl (nearer dist) (some y) = some z ∧ (z = y ∨ z ∈ l) ∧ dist z ≤ dist y ∧ ∀ x ∈ l, dist z ≤ dist x := by
  induction l generalizing y with
  | nil => exact ⟨y, rfl, .inl rfl, Nat.le_refl _, fun _ hx => absurd hx List.not_mem_nil⟩
  | cons a l ih =>
    obtain ⟨b, hb, hmem, hy, ha⟩ : ∃ b, nearer dist (some y) a = some b ∧ (b = y ∨ b = a) ∧ dist b ≤ dist y ∧ dist b ≤ dist a := by
      by_cases hlt : dist a < dist y
      · exact ⟨a, if_pos hlt, .inr rfl, hlt.le, Nat.le_refl _⟩
      · exact ⟨y, if_neg hlt, .inl rfl, Nat.le_refl _, Nat.not_lt.mp hlt⟩
    obtain ⟨z, hz, hzmem, hzb, hzl⟩ := ih b
    refine ⟨z, by rw [List.foldl_cons, hb, hz], ?_, hzb.trans hy, List.forall_mem_cons.mpr ⟨hzb.trans ha, hzl⟩⟩
    rcases hzmem with rfl | hin
    · exact hmem.imp_right (fun hza => List.mem_cons.mpr (.inl hza))
    · exact .inr (List.mem_cons_of_mem a hin)

theorem foldl_nearer {α : Type} {dist : α → Nat} {l : List α} {z : α} (h : l.foldl (nearer dist) none = some z) :
    z ∈ l ∧ ∀ x ∈ l, dist z ≤ dist x := by
  cases l with
  | nil => exact absurd h (by simp)
  | cons a l =>
    obtain ⟨y, hy, hmem, hya, hyl⟩ := foldl_nearer_some dist l a
    obtain rfl : y = z := Option.some.inj (hy.symm.trans h)
    exact ⟨List.mem_cons.mpr hmem, List.forall_mem_cons.mpr ⟨hya, hyl⟩⟩

/-- The sources in rotation whose command may be taken. -/
def State.turns (s : State) : List Source := (([1, 2, 3].map Source.mb) ++ units4.map Source.net).filter (fun x => s.takeableSrc x)

theorem State.mem_turns {s : State} {x : Source} : x ∈ s.turns ↔
    x ∈ [Source.mb 1, .mb 2, .mb 3, .net 0, .net 1, .net 2, .net 3] ∧ s.takeableSrc x = true := List.mem_filter

theorem State.nextSource_first {s : State} (h : s.takeable 0 = true) : s.nextSource = some (.mb 0) := if_pos h

theorem State.nextSource_rotates {s : State} (h : s.takeable 0 = false) :
    s.nextSource = s.turns.foldl (nearer (fun x => (turnOf x + 6 - s.cmd.rr) % 7)) none := by
  rw [State.nextSource, if_neg (by rw [h]; exact Bool.false_ne_true)]
  refine congrArg (fun f => List.foldl f none s.turns) ?_
  funext b x
  cases b <;> rfl

/-- Without a command of `MB0`, the source served is the nearest in the rotation. -/
theorem State.nextSource_nearest {s : State} {src : Source} (h : s.takeable 0 = false) (hnext : s.nextSource = some src) :
    s.takeableSrc src = true ∧ ∀ x ∈ [Source.mb 1, .mb 2, .mb 3, .net 0, .net 1, .net 2, .net 3], s.takeableSrc x = true →
      (turnOf src + 6 - s.cmd.rr) % 7 ≤ (turnOf x + 6 - s.cmd.rr) % 7 := by
  obtain ⟨hmem, hleast⟩ := foldl_nearer ((State.nextSource_rotates h).symm.trans hnext)
  exact ⟨(State.mem_turns.mp hmem).2, fun x hx htake => hleast x (State.mem_turns.mpr ⟨hx, htake⟩)⟩

theorem State.nextSource_takeable {s : State} {src : Source} (hnext : s.nextSource = some src) : s.takeableSrc src = true := by
  cases h : s.takeable 0
  · exact (State.nextSource_nearest h hnext).1
  · obtain rfl : Source.mb 0 = src := Option.some.inj ((State.nextSource_first h).symm.trans hnext)
    exact h

theorem State.outFull_of_takeable {s : State} {n : Fin 4} (h : s.takeable n = true) : (s.mb.get n).outFull = false := by
  simp only [State.takeable, Bool.and_eq_true, Bool.not_eq_true'] at h
  obtain ⟨⟨⟨-, hempty⟩, -⟩, -⟩ := h
  exact hempty

/-! ## A response on its way (R139) -/

theorem quiet_of_posts {s t : State} (h : Posts s t) : Quiet s t := by
  obtain ⟨hstill, -, hrd⟩ := h
  exact ⟨hstill, fun a ha => hrd a (fun e => ha (by subst e; decide)) (fun e => ha (by subst e; decide))⟩

theorem posts_inBusy {s t : State} (h : Posts s t) (n : Fin 4) : (t.mb.get n).inBusy = (s.mb.get n).inBusy := by
  have e : t.mb.mapIdx (fun _ => Mailbox.still) = s.mb.mapIdx (fun _ => Mailbox.still) := (congrArg State.mb h.1 :)
  have en : (t.mb.get n).still = (s.mb.get n).still := by simpa only [Quad.get_mapIdx] using congrArg (Quad.get · n) e
  exact (congrArg Mailbox.inBusy en :)

/-- A flag of `IRQ_FLAGS` that was set is set. -/
def FlagsStay (s t : State) : Prop := ∀ i < 32, s.host.irqFlags.getLsbD i = true → t.host.irqFlags.getLsbD i = true

theorem flagsStay_of_host {s t : State} (h : t.host = s.host) : FlagsStay s t := fun _ _ hset => h ▸ hset
theorem flagsStay_trans {s t u : State} (h : FlagsStay s t) (k : FlagsStay t u) : FlagsStay s u := fun i hi hset => k i hi (h i hi hset)

theorem State.setIrq_flagsStay (i : Nat) (s : State) : FlagsStay s (s.setIrq i) := by
  intro j hj hset
  rw [State.setIrq_flag _ _ hj, hset]
  rfl

theorem State.transPlaced_host (src : Source) (s : State) : (s.transPlaced src).host = s.host := by
  unfold State.transPlaced
  split <;> rfl

theorem State.deliver_flagsStay (src : Source) (ws : List Word) (s : State) : FlagsStay s (s.deliver src ws) := by
  unfold State.deliver
  cases src with
  | mb n =>
    dsimp only
    split
    · exact flagsStay_of_host rfl
    · exact flagsStay_trans (State.setIrq_flagsStay n.val (s.modMb n _)) (flagsStay_of_host (State.transPlaced_host _ _))
  | net c =>
    refine flagsStay_of_host ((State.transPlaced_host _ _).trans ?_)
    unfold State.connSend
    dsimp only
    split <;> rfl

/-- What counts a refused command before its response is delivered (R178). -/
def State.refusedNoted (code status : Nat) (s : State) : State :=
  if status = 0 then s else (s.bump Obj.cmdRefused).wr Obj.cmdLastRefused ((status * 65536 + code : Nat) : Int)

theorem State.answer_eq (src : Source) (code tag status : Nat) (ws : List Word) (s : State) :
    s.answer src code tag status ws = (s.refusedNoted code status).deliver src (respWords status tag ws) := rfl

theorem State.bump_host (a : Nat) (s : State) : (s.bump a).host = s.host := by
  unfold State.bump State.bumpTo
  split <;> rfl
theorem State.bump_mb (a : Nat) (s : State) : (s.bump a).mb = s.mb := by
  unfold State.bump State.bumpTo
  split <;> rfl
theorem State.bump_cmd (a : Nat) (s : State) : (s.bump a).cmd = s.cmd := by
  unfold State.bump State.bumpTo
  split <;> rfl

theorem State.refusedNoted_rest (code status : Nat) (s : State) :
    (s.refusedNoted code status).host = s.host ∧ (s.refusedNoted code status).mb = s.mb := by
  unfold State.refusedNoted
  split
  · exact ⟨rfl, rfl⟩
  · exact ⟨s.bump_host Obj.cmdRefused, s.bump_mb Obj.cmdRefused⟩

theorem State.answer_flagsStay (src : Source) (code tag status : Nat) (ws : List Word) (s : State) :
    FlagsStay s (s.answer src code tag status ws) := by
  obtain ⟨hhost, -⟩ := s.refusedNoted_rest code status
  exact flagsStay_trans (flagsStay_of_host hhost) (State.deliver_flagsStay src _ _)

/-- A response stands in the OUT buffer that was free. -/
theorem State.deliver_outBuf {n : Fin 4} {ws : List Word} {s : State} (hfree : (s.mb.get n).outFull = false) :
    ((s.deliver (.mb n) ws).mb.get n).outBuf = ws := by
  have hdeliver : s.deliver (.mb n) ws = (s.placeOut n ws).transPlaced (.mb n) := if_neg (by rw [hfree]; exact Bool.false_ne_true)
  have hbox := ((s.placeOut n ws).transPlaced_box (.mb n) (.mb n)).trans (s.placeOut_own n ws)
  rw [hdeliver]
  exact (congrArg (fun b => b.2.2.1) hbox :)

theorem State.answer_outBuf {n : Fin 4} {code tag status : Nat} {ws : List Word} {s : State} (hfree : (s.mb.get n).outFull = false) :
    ((s.answer (.mb n) code tag status ws).mb.get n).outBuf = respWords status tag ws := by
  obtain ⟨-, hmb⟩ := s.refusedNoted_rest code status
  rw [State.answer_eq]
  refine State.deliver_outBuf ?_
  rw [hmb]
  exact hfree

/-! ## A command taken (R137, R142, R145, R178) -/

/-- The payload of a command: as many words as its LEN says. -/
def takenPayload (w0 : Word) (rest : List Word) : List Word := (List.range (cmdLen w0)).map (fun i => rest.getD i 0)
/-- A command that executes from now on. -/
def takenJob (role : Nat) (w0 : Word) (rest : List Word) : Job :=
  { code := cmdCode w0, tag := cmdTag w0, payload := takenPayload w0 rest, role := role, waiting := false }
/-- The status of the first check that a command fails as it is taken. -/
def State.takenStatus (s : State) (src : Source) (w0 : Word) (rest : List Word) : Nat :=
  if 63 < cmdLen w0 then stLength
  else if !allCodes.contains (cmdCode w0) then stUnknown
  else s.check src (s.roleOf src) (cmdCode w0) (takenPayload w0 rest)

theorem State.takenStatus_long {src : Source} {w0 : Word} {rest : List Word} {s : State} (hlen : 63 < cmdLen w0) :
    s.takenStatus src w0 rest = 3 := if_pos hlen
theorem State.takenStatus_unknown {src : Source} {w0 : Word} {rest : List Word} {s : State} (hlen : cmdLen w0 ≤ 63)
    (hcode : cmdCode w0 ∉ allCodes) : s.takenStatus src w0 rest = 2 := by
  rw [State.takenStatus, if_neg (Nat.not_lt.mpr hlen), if_pos (by simpa using hcode)]
  rfl
theorem State.takenStatus_known {src : Source} {w0 : Word} {rest : List Word} {s : State} (hlen : cmdLen w0 ≤ 63)
    (hcode : cmdCode w0 ∈ allCodes) : s.takenStatus src w0 rest = s.check src (s.roleOf src) (cmdCode w0) (takenPayload w0 rest) := by
  rw [State.takenStatus, if_neg (Nat.not_lt.mpr hlen), if_neg (by simpa using hcode)]

theorem State.takeCommand_passed {src : Source} {w0 : Word} {rest : List Word} {s : State} (h : s.takenStatus src w0 rest = 0) :
    s.takeCommand src w0 rest = (s.bump Obj.cmdTaken).setJob src (some (takenJob (s.roleOf src) w0 rest)) := if_pos h
theorem State.takeCommand_refused {src : Source} {w0 : Word} {rest : List Word} {s : State} (h : s.takenStatus src w0 rest ≠ 0) :
    s.takeCommand src w0 rest = ((s.bump Obj.cmdTaken).refusedEffects src (cmdCode w0) (s.takenStatus src w0 rest)
      (takenPayload w0 rest)).answer src (cmdCode w0) (cmdTag w0) (s.takenStatus src w0 rest) [] := if_neg h

/-- What a refused command leaves behind is bookkeeping of transfers and sessions (R142). -/
theorem State.refusedEffects_rest (src : Source) (code status : Nat) (ws : List Word) (s : State) :
    (s.refusedEffects src code status ws).host = s.host ∧ (s.refusedEffects src code status ws).mb = s.mb
      ∧ (s.refusedEffects src code status ws).objs = s.objs := by
  unfold State.refusedEffects
  split_ifs <;> exact ⟨rfl, rfl, rfl⟩

theorem State.setJob_host (src : Source) (j : Option Job) (s : State) : (s.setJob src j).host = s.host := by cases src <;> rfl

/-- A command taken is counted; beside that and bookkeeping, only a response on its way has changed. -/
theorem State.takeCommand_posts (src : Source) (w0 : Word) (rest : List Word) (s : State) :
    ∃ x, x.host = s.host ∧ x.mb = s.mb ∧ x.objs = (s.bump Obj.cmdTaken).objs ∧ Posts x (s.takeCommand src w0 rest)
      ∧ FlagsStay x (s.takeCommand src w0 rest) := by
  by_cases h : s.takenStatus src w0 rest = 0
  · rw [State.takeCommand_passed h]
    exact ⟨s.bump Obj.cmdTaken, s.bump_host _, s.bump_mb _, rfl, State.setJob_posts _ src _,
      flagsStay_of_host (State.setJob_host src _ _)⟩
  · rw [State.takeCommand_refused h]
    obtain ⟨hhost, hmb, hobjs⟩ := (s.bump Obj.cmdTaken).refusedEffects_rest src (cmdCode w0) (s.takenStatus src w0 rest)
      (takenPayload w0 rest)
    exact ⟨_, hhost.trans (s.bump_host _), hmb.trans (s.bump_mb _), hobjs, State.answer_posts _ src _ _ _ _,
      State.answer_flagsStay src _ _ _ _ _⟩

theorem State.takeCommand_rest (src : Source) (w0 : Word) (rest : List Word) (s : State) :
    (∀ n, ((s.takeCommand src w0 rest).mb.get n).inBusy = (s.mb.get n).inBusy) ∧ FlagsStay s (s.takeCommand src w0 rest)
      ∧ (s.rd Obj.cmdTaken < 0xFFFFFFFF → (s.takeCommand src w0 rest).rd Obj.cmdTaken = s.rd Obj.cmdTaken + 1) := by
  obtain ⟨x, hhost, hmb, hobjs, hposts, hflags⟩ := s.takeCommand_posts src w0 rest
  refine ⟨fun n => hmb ▸ posts_inBusy hposts n, flagsStay_trans (flagsStay_of_host hhost) hflags, fun hlow => ?_⟩
  obtain ⟨-, -, hrd⟩ := hposts
  rw [hrd _ (by decide) (by decide), State.rd_congr hobjs, State.rd_bump_same s hlow]

theorem State.takeCommand_outBuf {n : Fin 4} {w0 : Word} {rest : List Word} {s : State} (hfree : (s.mb.get n).outFull = false)
    (h : s.takenStatus (.mb n) w0 rest ≠ 0) :
    ((s.takeCommand (.mb n) w0 rest).mb.get n).outBuf = [respWord (s.takenStatus (.mb n) w0 rest) (cmdTag w0) 0] := by
  obtain ⟨-, hmb, -⟩ := (s.bump Obj.cmdTaken).refusedEffects_rest (.mb n) (cmdCode w0) (s.takenStatus (.mb n) w0 rest)
    (takenPayload w0 rest)
  rw [State.takeCommand_refused h, State.answer_outBuf (by rw [hmb, State.bump_mb]; exact hfree)]
  exact if_neg h

/-- The IN buffer handed back, before its command is looked at (R133, R138, R139). -/
def State.handedBack (n : Fin 4) (s : State) : State :=
  (((s.modMb n (fun x => { x with inBusy := false })).setIrq (4 + n.val)).modCmd (fun c => { c with
    rr := if n = 0 then c.rr else n.val
    mb2Ahead := if n = 2 then c.mb2Queue.length else c.mb2Ahead })).modSec (fun x => { x with cmdT := s.time.now })

/-- Word 0 of the command in an IN buffer, and the words after it. -/
def State.inHead (n : Fin 4) (s : State) : Word := (s.mb.get n).inBuf.getD 0 0
def State.inRest (n : Fin 4) (s : State) : List Word := (List.range 63).map (fun i => (s.mb.get n).inBuf.getD (i + 1) 0)

theorem State.takeMailbox_eq (n : Fin 4) (s : State) :
    s.takeMailbox n = (s.handedBack n).takeCommand (.mb n) (s.inHead n) (s.inRest n) := rfl

theorem State.handedBack_inBusy (n : Fin 4) (s : State) : ((s.handedBack n).mb.get n).inBusy = false := by
  simp [State.handedBack]
theorem State.handedBack_outFull (n : Fin 4) (s : State) : ((s.handedBack n).mb.get n).outFull = (s.mb.get n).outFull := by
  simp [State.handedBack]
theorem State.handedBack_flag (n : Fin 4) (s : State) : (s.handedBack n).host.irqFlags.getLsbD (4 + n.val) = true := by
  refine (State.setIrq_flag (s.modMb n _) (4 + n.val) (by omega)).trans ?_
  rw [decide_eq_true rfl, Bool.or_true]
/-- The checks of a command do not look at the buffers. -/
theorem State.handedBack_status (n : Fin 4) (w0 : Word) (rest : List Word) (s : State) :
    (s.handedBack n).takenStatus (.mb n) w0 rest = s.takenStatus (.mb n) w0 rest := rfl

theorem State.takeMailbox_rest (n : Fin 4) (s : State) : ((s.takeMailbox n).mb.get n).inBusy = false
    ∧ (s.takeMailbox n).host.irqFlags.getLsbD (4 + n.val) = true
    ∧ (s.rd Obj.cmdTaken < 0xFFFFFFFF → (s.takeMailbox n).rd Obj.cmdTaken = s.rd Obj.cmdTaken + 1) := by
  obtain ⟨hbusy, hflags, hcount⟩ := (s.handedBack n).takeCommand_rest (.mb n) (s.inHead n) (s.inRest n)
  exact ⟨(hbusy n).trans (s.handedBack_inBusy n), hflags _ (by omega) (s.handedBack_flag n), hcount⟩

theorem State.takeMailbox_job {n : Fin 4} {s : State} (h : s.takenStatus (.mb n) (s.inHead n) (s.inRest n) = 0) :
    (s.takeMailbox n).jobOf (.mb n) = some (takenJob s.hostRole (s.inHead n) (s.inRest n)) := by
  rw [State.takeMailbox_eq, State.takeCommand_passed ((s.handedBack_status n _ _).trans h)]
  exact State.setJob_jobOf _ _ _

theorem State.takeMailbox_outBuf {n : Fin 4} {status : Nat} {s : State} (htake : s.takeable n = true)
    (h : s.takenStatus (.mb n) (s.inHead n) (s.inRest n) = status) (hfails : status ≠ 0) :
    ((s.takeMailbox n).mb.get n).outBuf = [respWord status (cmdTag (s.inHead n)) 0] := by
  have hstatus := (s.handedBack_status n _ _).trans h
  have hfree := (s.handedBack_outFull n).trans (State.outFull_of_takeable htake)
  rw [State.takeMailbox_eq, State.takeCommand_outBuf hfree (by rw [hstatus]; exact hfails), hstatus]

theorem exec_mailboxTake_mb {n : Fin 4} {s : State} (hask : s.askard = true) (hnext : s.nextSource = some (.mb n)) :
    exec .mailboxTake s = .next (s.takeMailbox n).settle := by
  show execMailboxTake s = _
  rw [execMailboxTake, if_pos hask, hnext]

theorem exec_mailboxTake_net {c : Fin 4} {w : Word} {rest : List Word} {more : List (List Word)} {s : State} (hask : s.askard = true)
    (hnext : s.nextSource = some (.net c)) (hqueue : (s.net.conns.get c).queue = (w :: rest) :: more) :
    exec .mailboxTake s = .next ((((s.modCmd (fun m => { m with rr := 4 + c.val })).modConn c (fun k => { k with
      queue := more })).takeCommand (.net c) w rest).settle) := by
  show execMailboxTake s = _
  rw [execMailboxTake, if_pos hask, hnext]
  dsimp only
  rw [State.takeConn, hqueue]

/-! ## Deliveries of MB2 (R139, R178) -/

theorem exec_mb2DeliveryOut {ws : List Word} {rest : List (List Word)} {s : State} (hqueue : s.cmd.mb2Queue = ws :: rest)
    (hask : s.askard = true) (hempty : (s.mb.get 2).outFull = false) (hwait : (s.mb.get 2).respWait = none)
    (hjob : (s.mb.get 2).job = none) :
    exec .mb2DeliveryOut s = .next (((s.modCmd (fun c => { c with mb2Queue := rest, mb2Ahead := c.mb2Ahead - 1 })).placeOut 2 ws).bump
      (Obj.subSent (pw ws 0 / 65536 % 8))) := by
  have hmay : s.mb2May = true := by simp [State.mb2May, hask, hempty, hwait, hjob]
  show execMb2DeliveryOut s = _
  rw [execMb2DeliveryOut, hqueue]
  exact if_pos hmay

end Sys2Proof.Machine

namespace Sys2Proof

open Sys2Proof.Machine

/-- Settles O11: `MB0` before the rotation's nearest, and the buffers by what a response on its way leaves alone. -/
theorem mailboxService : Obligations.MailboxService := by
  unfold Obligations.MailboxService
  refine ⟨?_, ?_, ?_, ?_, ?_⟩
  case refine_1 =>
    intro n s hask hnext
    have htake : s.takeable n = true := State.nextSource_takeable hnext
    obtain ⟨hbusy, hflag, hcount⟩ := s.takeMailbox_rest n
    refine ⟨s.takeMailbox n, exec_mailboxTake_mb hask hnext, hbusy, hflag, hcount, fun hlen hcode hcheck => ?_, fun hlen hcode => ?_,
      fun hlen => ?_⟩
    · exact State.takeMailbox_job ((State.takenStatus_known hlen hcode).trans hcheck)
    · exact State.takeMailbox_outBuf htake (State.takenStatus_unknown hlen hcode) (by decide)
    · exact State.takeMailbox_outBuf htake (State.takenStatus_long hlen) (by decide)
  case refine_2 => exact fun s => State.nextSource_first
  case refine_3 => exact fun c w rest more s => exec_mailboxTake_net
  case refine_4 => exact fun src s => State.nextSource_nearest
  case refine_5 =>
    intro ws rest s hqueue hask hempty hwait hjob
    refine ⟨_, exec_mb2DeliveryOut hqueue hask hempty hwait hjob, ?_, ?_, ?_, ?_, fun n hn => ?_, fun a ha => State.rd_bump_ne _ ha⟩
    · simp [State.bump_mb, State.placeOut]
    · simp [State.bump_mb, State.placeOut]
    · rw [State.bump_host]
      exact (State.setIrq_flag _ 2 (by decide)).trans (Bool.or_true _)
    · rw [State.bump_cmd]
      rfl
    · rw [State.bump_mb]
      exact Quad.get_set_ne _ _ hn

/-- Settles O13: an answer stands through what follows it, and each command runs through the checks. -/
theorem responsesAndRefusals : Obligations.ResponsesAndRefusals := by
  unfold Obligations.ResponsesAndRefusals
  refine ⟨?_, ?_⟩
  case refine_1 =>
    intro src status ws j s hjob
    exact ⟨State.settle_answered (State.respond_answered status ws hjob),
      quiet_trans (quiet_of_posts (State.respond_posts s src status ws)) (State.settle_quiet _)⟩
  case refine_2 =>
    intro src j s hjob hstart hcheck p hp hcode
    obtain ⟨f, hruns⟩ : ∃ f, exec p.1 s = .next (s.run src p.2 (fun _ => true) f) := by
      fin_cases hp <;> exact ⟨_, rfl⟩
    rw [hruns, State.run_refused _ f hjob hcode hstart rfl hcheck]

end Sys2Proof
end

section
/-! A taken write of an object of region M that nothing but its value follows (R151, R170; O28). -/

namespace Sys2Proof.Machine

open Sys2Proof

theorem regionC_high {idx : Nat} (h : 0x8000 ≤ idx) : regionC idx = false := by
  unfold regionC
  simp only [Bool.and_eq_false_iff, decide_eq_false_iff_not]
  omega

theorem baseIndex_high {idx : Nat} (h : 0x8000 ≤ idx) : 0x8000 ≤ baseIndex idx := by
  unfold baseIndex
  repeat' split
  all_goals omega

theorem not_collectorObj_of_high {a : Nat} (h : 0x800000 ≤ a) : a ∉ collectorObjs := by
  have hall : ∀ b ∈ collectorObjs, b < 0x800000 := by decide
  exact fun hmem => absurd (hall a hmem) (Nat.not_lt.mpr h)

/-- The indices from 0x8000 on whose RW objects do more than hold their value. -/
def actingHigh : List Nat := [0x8100, 0x9000, 0x9030, 0xB005]

/-- A taken write of an RW object outside the banks and without effects puts its value (R151). -/
theorem State.takeWrite_plain {src : Source} {r : ObjRow} {idx sub : Nat} {v : Int} {s : State} (hacc : r.acc = .rw) (hcls : r.cls = .none)
    (hidx : 0x8000 ≤ idx) (hact : idx ∉ actingHigh) : s.takeWrite src r idx sub v = s.wr (idx * 0x100 + sub) v := by
  have hbase := baseIndex_high hidx
  have hbefore : s.before idx = s := if_neg (by omega)
  have hstore : s.store idx sub v = s.wr (idx * 0x100 + sub) v := by
    unfold State.store
    dsimp only
    rw [if_neg (by simp only [Bool.and_eq_true, decide_eq_true_eq]; omega), if_neg (by omega)]
  have hwrote : ∀ (old : Int) (x : State), x.wrote idx sub old v = x := by
    intro old x
    simp only [actingHigh, List.mem_cons, List.not_mem_nil, or_false, not_or] at hact
    unfold State.wrote
    dsimp only
    repeat rw [if_neg (by omega)]
  unfold State.takeWrite
  simp only [hacc, hcls, reduceCtorEq, if_false, hbefore, hstore, hwrote]

/-- The row of a write that is judged good, and its value (R170). -/
theorem State.writeObj_taken {src : Source} {aw : Word} {vals : List Word} {r : ObjRow} {v : Int} {s : State} (hj : s.judge aw vals = 0)
    (hr : objRow (awAddr aw / 0x100) (awAddr aw % 0x100) = some r) (hv : decodeValue (awType aw) vals = some v) :
    s.writeObj src aw vals = (s.takeWrite src r (awAddr aw / 0x100) (awAddr aw % 0x100) v).carryWrite src aw vals := by
  unfold State.writeObj
  simp only [hj, ne_eq, not_true, if_false, hr, hv]

end Sys2Proof.Machine

namespace Sys2Proof

open Sys2Proof.Machine

/-- Settles O28: the write is taken by its row, which nothing follows, and its packet stays in region M. -/
theorem objectWrites : Obligations.ObjectWrites := by
  unfold Obligations.ObjectWrites
  intro aw vals r v s hask hmode hjudge hrow hacc hcls hval hidx hact
  have haddr : awAddr aw / 0x100 * 0x100 + awAddr aw % 0x100 = awAddr aw := Nat.div_add_mod' _ _
  have hwrite : s.writeObj confSrc aw vals = s.wr (awAddr aw) v := by
    rw [State.writeObj_taken hjudge hrow hval, State.takeWrite_plain hacc hcls hidx hact, haddr]
    exact if_neg (by rw [regionC_high hidx]; exact Bool.false_ne_true)
  have hexec : exec (.objectWrite aw vals) s = .next (s.wr (awAddr aw) v).settle := by
    show Host.Outcome.next (s.hostWrites confSrc [(aw, vals)]) = _
    rw [State.hostWrites, if_pos ⟨hask, hmode⟩, writeAll_one s confSrc (aw, vals) (fun n => by dsimp only; omega), hwrite]
  have hquiet := State.settle_quiet (s.wr (awAddr aw) v)
  refine ⟨_, hexec, hquiet, ?_, fun a hne hkept => ?_⟩
  · exact (quiet_rd hquiet (not_collectorObj_of_high (by omega))).trans (Store.get_set_same _ _ _)
  · exact (quiet_rd hquiet hkept).trans (Store.get_set_ne _ _ hne)

end Sys2Proof
end

section
/-! The commands of subscriptions, transfers, the handover and the station clock's steps (R160, R161, R172, R173, R426, R473, R486, R487,
R492 to R497, R528; O19, O21, O23). -/

namespace Sys2Proof.Machine

open Sys2Proof

/-- A command that runs what its source has executing does its effect where the checks pass. -/
theorem exec_ready {c : Instr} {src : Source} {code : Nat} {j : Job} {p : Job → Bool} {f : Job → State → State} {s : State}
    (hc : exec c s = .next (s.run src code p f)) (h : Ready src code j s) (hp : p j = true) : exec c s = .next (f j s).settle := by
  rw [hc, State.run_ready p f h hp]

/-- The same where the effect is known. -/
theorem exec_ready_eq {c : Instr} {src : Source} {code : Nat} {j : Job} {p : Job → Bool} {f : Job → State → State} {s u : State}
    (hc : exec c s = .next (s.run src code p f)) (h : Ready src code j s) (hp : p j = true) (hu : f j s = u) :
    exec c s = .next u.settle := by
  rw [exec_ready hc h hp, hu]

/-! ## Subscriptions (R172, R173) -/

/-- The subscription a start asks for. -/
def State.subAsked (src : Source) (j : Job) (s : State) : Sub :=
  { active := true, udp := decide (j.arg 0 / 65536 % 256 = 1), source := j.arg 0 / 2 ^ 24, owner := subOwner src, mask := j.arg 1 % 16,
    decim := j.arg 1 / 256, period := j.arg 1 % 65536, addrs := j.payload.drop 2, nextT := s.time.now + j.arg 1 % 65536 * msCycles,
    rate := s.itemRate (j.arg 0 / 2 ^ 24) (j.arg 1) }

/-- The rate a path admits (R173). -/
def pathRate (udp : Bool) : Rat := if udp then 8000000 else 200000

/-- A start on a slot that is free. -/
theorem State.subscribe_free {src : Source} {j : Job} {s : State} (hfree : (s.sub (j.arg 0 % 256)).active = false) :
    s.subscribe src j =
      if pathRate (decide (j.arg 0 / 65536 % 256 = 1))
          < s.rateUsed (decide (j.arg 0 / 65536 % 256 = 1)) + s.itemRate (j.arg 0 / 2 ^ 24) (j.arg 1) then s.deny src j stBusy
      else (s.modSub (j.arg 0 % 256) (fun _ => s.subAsked src j)).respond src 0
        [BitVec.ofInt 32 (showInt (s.itemRate (j.arg 0 / 2 ^ 24) (j.arg 1)))] := by
  unfold State.subscribe pathRate
  simp only [hfree, Bool.false_eq_true, false_and, if_false, sub_zero, decide_eq_true_eq]
  rfl

theorem pathRate_eq (p : Prop) [Decidable p] : pathRate (decide p) = if p then 8000000 else 200000 := by
  unfold pathRate
  simp only [decide_eq_true_eq]

end Sys2Proof.Machine

namespace Sys2Proof

open Sys2Proof.Machine

/-- Settles O19: a start by the rate its path has left, a cancel by the slot's owner. -/
theorem subscribeCommands : Obligations.SubscribeCommands := by
  unfold Obligations.SubscribeCommands
  refine ⟨?_, ?_, ?_, ?_⟩
  case refine_1 =>
    intro src j s hready haction hfree hrate
    rw [← pathRate_eq] at hrate
    refine ⟨s.subAsked src j, exec_ready_eq rfl hready (decide_eq_true haction) ?_, rfl, rfl, rfl, rfl, rfl, rfl, rfl⟩
    exact (State.subscribe_free hfree).trans (if_neg (not_lt.mpr hrate))
  case refine_2 =>
    intro src j s hready haction hfree hrate
    rw [← pathRate_eq] at hrate
    exact exec_ready_eq rfl hready (decide_eq_true haction) ((State.subscribe_free hfree).trans (if_pos hrate))
  case refine_3 =>
    intro src j s hready haction hown
    refine exec_ready_eq rfl hready (decide_eq_true haction) (if_neg (fun hother => ?_))
    rcases hown with hfree | hmine
    · rw [hfree] at hother
      exact Bool.false_ne_true hother.1
    · exact hother.2 hmine
  case refine_4 =>
    intro src j s hready haction hactive hother
    exact exec_ready_eq rfl hready (decide_eq_true haction) (if_pos ⟨hactive, hother⟩)

end Sys2Proof

namespace Sys2Proof.Machine

open Sys2Proof

/-! ## Transfers and the commits (R160, R492 to R497, R528) -/

theorem heldByOther_of_own {src : Source} {x : Option Transfer} (h : ∀ t, x = some t → t.src = src) : heldByOther src x = false := by
  cases x with
  | none => rfl
  | some t => exact decide_eq_false (fun hne => hne (h t rfl))

/-- A chunk by the transfer it belongs to (R160). -/
theorem exec_updateChunk {src : Source} {j : Job} {t : Transfer} {s : State} (h : Ready src cUpdateChunk j s) (ht : s.cmd.xfer = some t) :
    exec (.updateChunk src) s = .next (if t.src ≠ src then s.deny src j stBusy
      else if j.arg 0 ≠ t.data.length then s.deny src j stState
      else (s.modCmd (fun c => { c with
        xfer := some { t with data := t.data ++ slice (wordsToBytes (j.payload.drop 2)) 0 (j.arg 1) } })).respond src 0 []).settle := by
  refine exec_ready_eq rfl h rfl ?_
  dsimp only
  rw [ht]

/-- The commit of a whole firmware image that verifies, by its security version (R495). -/
theorem exec_updateCommitFirmware {src : Source} {j : Job} {t : Transfer} {s : State} (h : Ready src cUpdateCommit j s)
    (ht : s.cmd.xfer = some t) (hkind : t.kind = 0) (hsrc : t.src = src) (hwhole : t.data.length = t.size) :
    exec (.updateCommitFirmware src true) s = .next (if leAt t.data 8 2 < s.sec.rollback then s.imageRefused src j stState
      else s.commitFirmware src j t).settle := by
  have hx : s.xferKind ≠ some 1 := by
    unfold State.xferKind
    rw [ht]
    simp [hkind]
  refine exec_ready_eq (if_neg hx) h rfl ?_
  rw [ht]
  simp only [hsrc, hwhole, ne_eq, not_true, if_false, Bool.not_true, Bool.false_eq_true]

/-- The commit of a whole configuration image that verifies, by its version and its writes (R497). -/
theorem exec_updateCommitConfig {src : Source} {j : Job} {t : Transfer} {img : ConfigImage} {s : State} (h : Ready src cUpdateCommit j s)
    (ht : s.cmd.xfer = some t) (hkind : t.kind = 1) (hsrc : t.src = src) (hwhole : t.data.length = t.size) (howner : s.sec.owner ≠ none) :
    exec (.updateCommitConfig src true img) s = .next (if img.version ≤ s.rdN Obj.cfgVersion then s.imageRefused src j stState
      else if img.writes.any imageWriteBad then s.imageRefused src j stLength else s.commitConfig src j img).settle := by
  have hx : ¬ s.xferKind ≠ some 1 := by
    unfold State.xferKind
    rw [ht]
    simp [hkind]
  have hown : s.sec.owner.isNone = false := Option.isNone_eq_false_iff.mpr (Option.isSome_iff_ne_none.mpr howner)
  refine exec_ready_eq (if_neg hx) h rfl ?_
  rw [ht]
  simp only [hsrc, hwhole, ne_eq, not_true, if_false, Bool.not_true, Bool.false_eq_true, hown, Bool.false_and, Bool.or_self]

end Sys2Proof.Machine

namespace Sys2Proof

open Sys2Proof.Machine

/-- Settles O21: a transfer by its source and its offset, a commit by its image. -/
theorem updateCommands : Obligations.UpdateCommands := by
  unfold Obligations.UpdateCommands
  refine ⟨?_, ?_, ?_, ?_, ?_, ?_, ?_, ?_⟩
  case refine_1 =>
    intro src j s hready hown
    exact exec_ready_eq rfl hready rfl (if_neg (by rw [heldByOther_of_own hown]; exact Bool.false_ne_true))
  case refine_2 =>
    intro src j t s hready ht hother
    exact exec_ready_eq rfl hready rfl (if_pos (by rw [ht]; exact decide_eq_true hother))
  case refine_3 =>
    intro src j t s hready ht hsrc hoff
    rw [exec_updateChunk hready ht, if_neg (not_not.mpr hsrc), if_neg (not_not.mpr hoff)]
  case refine_4 =>
    intro src j t s hready ht
    rw [exec_updateChunk hready ht]
    exact ⟨fun hother => by rw [if_pos hother], fun hsrc hoff => by rw [if_neg (not_not.mpr hsrc), if_pos hoff]⟩
  case refine_5 =>
    intro src j t s hready ht hkind hsrc hwhole hsvn
    rw [exec_updateCommitFirmware hready ht hkind hsrc hwhole, if_neg (Nat.not_lt.mpr hsvn)]
    refine ⟨_, rfl, rfl, rfl, ?_, rfl, rfl, ?_⟩
    · cases hrun : s.sec.runB <;> simp [State.auditCmd, State.auditEvent, State.modSec, State.modCmd, State.modBoot, hrun]
    · cases hrun : s.sec.runB <;> simp [State.auditCmd, State.auditEvent, State.modSec, State.modCmd, State.modBoot, hrun]
  case refine_6 =>
    intro src j t s hready ht hkind hsrc hwhole hsvn
    rw [exec_updateCommitFirmware hready ht hkind hsrc hwhole, if_pos hsvn]
    exact ⟨_, rfl, rfl, rfl, rfl, rfl, rfl⟩
  case refine_7 =>
    intro src j t img s hready ht hkind hsrc hwhole howner hversion hwrites
    have hgood : ¬ img.writes.any imageWriteBad = true := by
      rw [List.any_eq_true]
      rintro ⟨w, hw, hbad⟩
      exact Bool.false_ne_true ((hwrites w hw).symm.trans hbad)
    rw [exec_updateCommitConfig hready ht hkind hsrc hwhole howner, if_neg (Nat.not_le.mpr hversion), if_neg hgood]
    refine ⟨_, rfl, ?_, ?_, rfl, rfl⟩
    · exact (State.rd_wr_ne _ _ (show Obj.configCrc ≠ Obj.cfgVersion by decide)).trans (State.rd_wr_same _ _ _)
    · exact State.rd_wr_same _ _ _
  case refine_8 =>
    intro src j t img s hready ht hkind hsrc hwhole hversion howner
    rw [exec_updateCommitConfig hready ht hkind hsrc hwhole howner, if_pos hversion]
    exact ⟨_, rfl, rfl, rfl, rfl, rfl⟩

end Sys2Proof

namespace Sys2Proof.Machine

open Sys2Proof

/-! ## The handover and the station clock (R161, R426, R473) -/

/-- A step of the station clock: its time held at 0, Leaven tracking, the units without a trim of their own waiting (R426, R432). -/
theorem State.timeStep_steps (src : Source) (j : Job) (d : Int) (s : State) : ∃ u : State, s.timeStep src j d = u.respond src 0 []
    ∧ u.time.station = max 0 (s.time.station + (d : Rat)) ∧ u.time.lv0.st = .tracking ∧ u.time.lv0.jump = false
    ∧ (∀ k : Fin 7, s.rd (Obj.tuTrim k.val) = 1 → k.val < s.time.unitPending.length → u.time.unitPending.getD k.val false = true)
    ∧ u.objs = s.objs ∧ u.mode = s.mode ∧ u.time.now = s.time.now ∧ u.time.counter = s.time.counter := by
  refine ⟨_, rfl, ?_, rfl, rfl, fun k htrim hk => ?_, rfl, rfl, rfl, rfl⟩
  · show (if s.time.station + (d : Rat) < 0 then (0 : Rat) else s.time.station + d) = _
    split
    · exact (max_eq_left (le_of_lt ‹_›)).symm
    · exact (max_eq_right (not_lt.mp ‹_›)).symm
  · show (s.time.unitPending.mapIdx (fun u b => b || decide (s.rd (Obj.tuTrim u) = 1))).getD k.val false = true
    simp [List.getD_eq_getElem?_getD, hk, htrim]

end Sys2Proof.Machine

namespace Sys2Proof

open Sys2Proof.Machine

/-- Settles O23: the handover by the pair's standing and the job that waits, a step by what `timeStep` leaves. -/
theorem handoverAndTimeStep : Obligations.HandoverAndTimeStep := by
  unfold Obligations.HandoverAndTimeStep
  refine ⟨?_, ?_, ?_, ?_, ?_, ?_, ?_⟩
  case refine_1 =>
    intro src j s hready hpaired hrole hflag
    exact exec_ready_eq rfl hready rfl (if_pos (by simp [hpaired, hrole, hflag]))
  case refine_2 =>
    intro src j s hready hnot
    refine exec_ready_eq rfl hready rfl (if_neg fun hall => ?_)
    simp only [Bool.and_eq_true, decide_eq_true_eq] at hall
    rcases hnot with hpaired | hflag | hrole
    · exact Bool.false_ne_true (hpaired.symm.trans hall.1.1)
    · exact Bool.false_ne_true (hflag.symm.trans hall.2)
    · exact hall.1.2.elim hrole.1 hrole.2
  case refine_3 =>
    intro src j s hwait hpartner hrole
    show execPairHandoverComplete src s = _
    rw [execPairHandoverComplete, hwait]
    exact if_pos (by simp [hpartner, hrole])
  case refine_4 =>
    intro src j s hwait
    show execPairHandoverTimeout src s = _
    rw [execPairHandoverTimeout, hwait]
  case refine_5 =>
    intro src j s hready hmode
    obtain ⟨u, hu, hleft⟩ := s.timeStep_steps src j (signExt 32 (j.arg 1) * 1000000000 + signExt 32 (j.arg 2))
    exact ⟨u, exec_ready_eq rfl hready (decide_eq_true hmode) hu, hleft⟩
  case refine_6 =>
    intro src j s hready hmode hjump
    obtain ⟨u, hu, hstation, hst, hnojump, -, hobjs, hmod, -, -⟩ := s.timeStep_steps src j (-s.time.lv0.jumpOfs)
    refine ⟨u, exec_ready_eq rfl hready (decide_eq_true hmode) ((if_pos hjump).trans hu), ?_, hst, hnojump, hobjs, hmod⟩
    rw [hstation, Int.cast_neg, ← sub_eq_add_neg]
  case refine_7 =>
    intro src j s hready hmode hjump
    exact exec_ready_eq rfl hready (decide_eq_true hmode) (if_neg (by rw [hjump]; exact Bool.false_ne_true))

end Sys2Proof
end

section
/-! Reads, writes and transfers of objects by command (R149 to R153; O14). -/

namespace Sys2Proof.Machine

open Sys2Proof

/-! ## `GET_BLOCK` (R152) -/

/-- The response of a read of `n` bytes from `off` on, out of a snapshot. -/
def blockReply (bytes : List Byte) (off n : Nat) : List Word := BitVec.ofNat 32 bytes.length :: bytesToWords (slice bytes off n)

/-- The snapshot of a source taken. -/
def State.snapTaken (src : Source) (addr : Nat) (bytes : List Byte) (s : State) : State :=
  s.modCmd (fun c => { c with snaps := (src, addr, bytes) :: c.snaps.filter (fun p => decide (p.1 ≠ src)) })

/-- What a read of a BLOB is answered from: the source's snapshot, which offset 0 takes again. -/
def State.snapRead (src : Source) (j : Job) (s : State) : List Byte :=
  let held := s.cmd.snaps.find? (fun p => decide (p.1 = src) && p.2.1 == awAddr (j.payload.getD 0 0))
  match held with
  | some p => if j.arg 1 = 0 then s.blockOf j.role (j.payload.getD 0 0) else p.2.2
  | none => s.blockOf j.role (j.payload.getD 0 0)

theorem State.getBlock_of_blob {src : Source} {j : Job} {s : State} (hblob : s.blockOf j.role (j.payload.getD 0 0) ≠ []) :
    s.getBlock src j = (s.snapTaken src (awAddr (j.payload.getD 0 0)) (s.snapRead src j)).respond src 0
      (blockReply (s.snapRead src j) (j.arg 1) (j.arg 2)) := by
  unfold State.getBlock
  extract_lets aw off n isBlob held bytes
  have hisBlob : isBlob = true := by
    unfold isBlob
    rw [decide_eq_true hblob, Bool.true_or]
  rw [hisBlob]
  rfl

theorem State.snapRead_first {src : Source} {j : Job} {s : State} (hoff : j.arg 1 = 0) :
    s.snapRead src j = s.blockOf j.role (j.payload.getD 0 0) := by
  unfold State.snapRead
  dsimp only
  split
  · exact if_pos hoff
  · rfl

theorem State.snapRead_held {src : Source} {j : Job} {s : State} {bytes : List Byte} (hoff : j.arg 1 ≠ 0)
    (hheld : s.cmd.snaps.find? (fun p => decide (p.1 = src) && p.2.1 == awAddr (j.payload.getD 0 0))
      = some (src, awAddr (j.payload.getD 0 0), bytes)) : s.snapRead src j = bytes := by
  unfold State.snapRead
  dsimp only
  rw [hheld]
  exact if_neg hoff

/-- An object without a row holds no block. -/
theorem State.getBlock_absent {src : Source} {j : Job} {s : State} (hrow : objRow (j.arg 0 / 65536) (j.arg 0 / 256 % 256) = none) :
    s.getBlock src j = s.respond src 0 (0 :: bytesToWords (List.replicate (j.arg 2) 0)) := by
  have hidx : awAddr (j.payload.getD 0 0) / 0x100 = j.arg 0 / 65536 := Nat.div_div_eq_div_mul ..
  have hblock : s.blockOf j.role (j.payload.getD 0 0) = [] := by
    unfold State.blockOf
    dsimp only
    rw [hidx, show awAddr (j.payload.getD 0 0) % 0x100 = j.arg 0 / 256 % 256 from rfl, hrow]
  unfold State.getBlock
  extract_lets aw off n isBlob held bytes
  refine if_pos ?_
  simp only [isBlob, aw, hblock, hrow, ne_eq, not_true, decide_false, Bool.or_self, Bool.not_false]

/-! ## `SET_BLOCK` (R153) -/

/-- A chunk that fits joins the source's staging copy, and the last of them writes the copy. -/
theorem State.setBlock_staged {src : Source} {j : Job} {r : ObjRow} {old : List Byte} {len : Nat} {s : State}
    (htype : awType (j.payload.getD 0 0) = 8)
    (hrow : objRow (awAddr (j.payload.getD 0 0) / 0x100) (awAddr (j.payload.getD 0 0) % 0x100) = some r) (hblob : r.ty = .blob)
    (hfits : j.arg 1 + j.arg 2 % 256 ≤ (blobSize (awAddr (j.payload.getD 0 0))).1)
    (hstaged : s.cmd.staging.find? (fun p => decide (p.1 = src) && p.2.1 == awAddr (j.payload.getD 0 0))
      = some (src, awAddr (j.payload.getD 0 0), old, len)) :
    s.setBlock src j =
      let bytes := patchBytes old (j.arg 1) (slice (wordsToBytes (j.payload.drop 3)) 0 (j.arg 2 % 256))
      let n := max len (j.arg 1 + j.arg 2 % 256)
      if (j.arg 2).testBit 31 then
        (s.dropStaging src).writeBlob (j.payload.getD 0 0) (if (blobSize (awAddr (j.payload.getD 0 0))).2 then slice bytes 0 n else bytes)
      else (s.dropStaging src).modCmd (fun c => { c with staging := (src, awAddr (j.payload.getD 0 0), bytes, n) :: c.staging }) := by
  unfold State.setBlock
  simp only [htype, hrow, hblob, hstaged, decide_true, Bool.and_self, Bool.not_true, Bool.false_eq_true, if_false, Nat.not_lt.mpr hfits]

end Sys2Proof.Machine

namespace Sys2Proof

open Sys2Proof.Machine

/-- Settles O14: each command runs, and a block is read or staged by the case its object and offset are. -/
theorem objectAccessCommands : Obligations.ObjectAccessCommands := by
  unfold Obligations.ObjectAccessCommands
  refine ⟨?_, ?_, ?_, ?_, ?_, ?_, ?_⟩
  case refine_1 => exact fun src j s hready => exec_ready_eq rfl hready rfl rfl
  case refine_2 => exact fun src j s hready => exec_ready_eq rfl hready rfl rfl
  case refine_3 => exact fun src j s hready => exec_ready_eq rfl hready rfl rfl
  case refine_4 =>
    intro src j s aw bytes hready haw hbytes hblob hoff
    subst haw hbytes
    refine exec_ready_eq rfl hready rfl ((State.getBlock_of_blob hblob).trans ?_)
    rw [State.snapRead_first hoff, hoff]
    rfl
  case refine_5 =>
    intro src j s aw bytes hready haw hblob hoff hheld
    subst haw
    refine exec_ready_eq rfl hready rfl ((State.getBlock_of_blob hblob).trans ?_)
    rw [State.snapRead_held hoff hheld]
    rfl
  case refine_6 => exact fun src j s hready hrow => exec_ready_eq rfl hready rfl (State.getBlock_absent hrow)
  case refine_7 =>
    intro src j s r old len hready htype hrow hblob hfits hstaged
    exact exec_ready_eq rfl hready rfl (congrArg (fun x => x.respond src 0 []) (State.setBlock_staged htype hrow hblob hfits hstaged))

end Sys2Proof
end

section
/-! `LOAF_STATE` on a loaf whose group is at rest (R155, R191, R225, R290, R291; O15). -/

namespace Sys2Proof.Machine

open Sys2Proof

/-! ## A change of a loaf's state (R290) -/

/-- What each of several changes in turn keeps, all of them keep. -/
theorem forAll_keeps_mem {α β : Type} {g : State → β} {f : α → State → State} {l : List α} (hf : ∀ a ∈ l, ∀ x, g (f a x) = g x)
    (s : State) : g (forAll l f s) = g s := by
  unfold forAll
  induction l generalizing s with
  | nil => rfl
  | cons a l ih => exact (ih (fun b hb => hf b (List.mem_cons_of_mem a hb)) (f a s)).trans (hf a List.mem_cons_self s)

theorem forAll_keeps {α β : Type} {g : State → β} {f : α → State → State} (hf : ∀ a x, g (f a x) = g x) (l : List α) (s : State) :
    g (forAll l f s) = g s := forAll_keeps_mem (fun a _ => hf a) s

/-- A change of a loaf's unit that leaves its state. -/
theorem State.modLoaf_st (n m : Fin 4) {f : LoafSt → LoafSt} (hf : ∀ l, (f l).st = l.st) (s : State) :
    ((s.modLoaf n f).loaf.get m).st = (s.loaf.get m).st := by
  rw [State.modLoaf_loaf]
  by_cases h : m = n
  · rw [h, Quad.get_set_same, hf]
  · rw [Quad.get_set_ne _ _ h]

theorem State.occur_st (n m : Fin 4) (src k : Nat) (s : State) : ((s.occur n src k).loaf.get m).st = (s.loaf.get m).st := by
  unfold State.occur
  split
  · rfl
  · refine forAll_keeps (g := fun x => (x.loaf.get m).st) (fun c x => ?_) _ s
    dsimp only
    split
    · refine State.modLoaf_st n m ?_ x
      exact fun _ => rfl
    · rfl

theorem State.phaseEdges_st (n m : Fin 4) (p g e : Nat) (s : State) : ((s.phaseEdges n p g e).loaf.get m).st = (s.loaf.get m).st := by
  unfold State.phaseEdges
  split
  · rfl
  · refine (State.modLoaf_st n m ?_ _).trans ((State.occur_st ..).trans (State.occur_st ..))
    exact fun _ => rfl

/-- The account of a loaf's edges leaves the loaves' states. -/
theorem State.pwmTo_st (n m : Fin 4) (s : State) : ((s.pwmTo n).loaf.get m).st = (s.loaf.get m).st := by
  unfold State.pwmTo
  extract_lets l e wants s1
  split
  · rfl
  · refine (State.modLoaf_st n m ?_ s1).trans ?_
    · exact fun _ => rfl
    · unfold s1
      split
      · exact forAll_keeps (g := fun x => (x.loaf.get m).st) (fun p x => State.phaseEdges_st ..) _ s
      · rfl

theorem OnLoaf.loafTo {n : Fin 4} (s : State) (st : LoafState) : OnLoaf n s (s.loafTo n st) := by
  unfold State.loafTo
  split
  · exact (s.pwmTo_onLoaf n).modLoaf _
  · exact (OnLoaf.refl n s).modLoaf _

/-- Where loaf `n` alone may have changed, everything else stands. -/
theorem OnLoaf.rest {n : Fin 4} {s t : State} (h : OnLoaf n s t) :
    { s with loaf := t.loaf } = t ∧ ∀ m, m ≠ n → t.loaf.get m = s.loaf.get m := by
  obtain ⟨l, rfl⟩ := h
  exact ⟨rfl, fun m hm => Quad.get_set_ne _ _ hm⟩

theorem LoafSt.enter_off {l : LoafSt} (h : l.st ≠ .off) : (l.enter .off).st = .off ∧ (l.enter .off).running = false := by
  unfold LoafSt.enter
  rw [if_neg h, if_pos rfl]
  exact ⟨rfl, rfl⟩

theorem LoafSt.enter_st (l : LoafSt) (st : LoafState) : (l.enter st).st = st := by
  unfold LoafSt.enter
  split
  · assumption
  · split
    · exact Eq.symm ‹_›
    · rfl

theorem State.loafTo_off {n : Fin 4} {s : State} (h : (s.loaf.get n).st ≠ .off) :
    ((s.loafTo n .off).loaf.get n).st = .off ∧ ((s.loafTo n .off).loaf.get n).running = false := by
  unfold State.loafTo
  rw [if_pos rfl, State.modLoaf_loaf, Quad.get_set_same]
  exact LoafSt.enter_off (by rw [State.pwmTo_st]; exact h)

/-! ## A request judged (R155, R290) -/

theorem State.loafState_done {src : Source} {j : Job} {want : LoafState} {ok : Bool} {go : State → State} {s : State}
    (hhas : s.has j.loafArg.val = true) (hrest : ∀ g, s.groupOf j.loafArg = some g → (s.grp.get g).st = .stopped) :
    s.loafState src j want ok go = if (s.loaf.get j.loafArg).st = want then s.respond src 0 [BitVec.ofNat 32 want.code]
      else if ok then (go s).respond src 0 [BitVec.ofNat 32 want.code] else s.deny src j stState := by
  unfold State.loafState
  extract_lets n free
  have hfree : free = true := by
    unfold free
    split
    · rfl
    · exact decide_eq_true (hrest _ ‹_›)
  rw [hfree]
  exact if_neg (by simp [n, hhas])

theorem State.rests_of_unbound {s : State} {n : Fin 4} (h : s.groupOf n = none) :
    ∀ g, s.groupOf n = some g → (s.grp.get g).st = .stopped := fun _ hg => absurd (h.symm.trans hg) (Option.some_ne_none _).symm

/-- A request for OFF on a loaf at rest. -/
theorem exec_loafStateOff {src : Source} {j : Job} {s : State} (h : Ready src cLoafState j s) (hreq : j.req = 0)
    (hhas : s.has j.loafArg.val = true) (hrest : ∀ g, s.groupOf j.loafArg = some g → (s.grp.get g).st = .stopped) :
    exec (.loafStateOff src) s = .next (if (s.loaf.get j.loafArg).st = .off then s.respond src 0 [0]
      else if decide ((s.loaf.get j.loafArg).st = .open_ ∨ (s.loaf.get j.loafArg).st = .closed) then
        (s.loafTo j.loafArg .off).respond src 0 [0]
      else s.deny src j stState).settle :=
  exec_ready_eq rfl h (decide_eq_true hreq) (State.loafState_done hhas hrest)

/-- A request for OPEN on a loaf at rest. -/
theorem exec_loafStateOpen {src : Source} {j : Job} {s : State} (h : Ready src cLoafState j s) (hreq : j.req = 1)
    (hhas : s.has j.loafArg.val = true) (hrest : ∀ g, s.groupOf j.loafArg = some g → (s.grp.get g).st = .stopped) :
    exec (.loafStateOpen src) s = .next (if (s.loaf.get j.loafArg).st = .open_ then s.respond src 0 [1]
      else if decide ((s.loaf.get j.loafArg).st = .off)
          || (decide ((s.loaf.get j.loafArg).st = .closed) && (s.loaf.get j.loafArg).test) then
        (s.loafOpen j.loafArg).respond src 0 [1]
      else s.deny src j stState).settle :=
  exec_ready_eq rfl h (decide_eq_true hreq) (State.loafState_done hhas hrest)

/-- A request for CLOSED on a loaf at rest. -/
theorem exec_loafStateClosed {src : Source} {j : Job} {s : State} (h : Ready src cLoafState j s) (hreq : j.req = 2)
    (hhas : s.has j.loafArg.val = true) (hrest : ∀ g, s.groupOf j.loafArg = some g → (s.grp.get g).st = .stopped) :
    exec (.loafStateClosed src) s = .next (if (s.loaf.get j.loafArg).st = .closed then s.respond src 0 [2]
      else if decide ((s.loaf.get j.loafArg).st = .off ∨ (s.loaf.get j.loafArg).st = .open_) && (s.groupOf j.loafArg).isSome
          && s.canClose j.loafArg && !s.interleaved j.loafArg then (s.loafClose j.loafArg true).respond src 0 [2]
      else s.deny src j stState).settle :=
  exec_ready_eq rfl h (decide_eq_true hreq) (State.loafState_done hhas hrest)

/-! ## What the transitions leave (R191, R290, R291) -/

theorem State.loafOpen_leaves (n : Fin 4) (s : State) : ((s.loafOpen n).loaf.get n).st = .open_
    ∧ ((s.loafOpen n).loaf.get n).shadow = s.openCmp3 n ∧ OnLoaf n s (s.loafOpen n) := by
  refine ⟨?_, ?_, ?_⟩
  · unfold State.loafOpen State.commit
    rw [State.modLoaf_loaf, Quad.get_set_same]
    show ((s.loafTo n .open_).loaf.get n).st = .open_
    rw [State.loafTo, if_neg (by decide), State.modLoaf_loaf, Quad.get_set_same, LoafSt.enter_st]
  · unfold State.loafOpen State.commit
    rw [State.modLoaf_loaf, Quad.get_set_same]
  · unfold State.loafOpen State.commit
    exact (OnLoaf.loafTo s .open_).modLoaf _

theorem State.loafClose_leaves (n : Fin 4) (s : State) : ((s.loafClose n true).loaf.get n).st = .closed
    ∧ ((s.loafClose n true).loaf.get n).test = true
    ∧ { s with loaf := (s.loafClose n true).loaf, oven := (s.loafClose n true).oven } = s.loafClose n true
    ∧ ∀ m, m ≠ n → (s.loafClose n true).loaf.get m = s.loaf.get m ∧ (s.loafClose n true).oven.get m = s.oven.get m := by
  have hon : OnLoaf n s ((s.loafTo n .closed).modLoaf n (fun l => { l with test := true })) := (OnLoaf.loafTo s .closed).modLoaf _
  obtain ⟨hrest, hothers⟩ := hon.rest
  refine ⟨?_, ?_, ?_, fun m hm => ⟨hothers m hm, ?_⟩⟩
  · show (((s.loafTo n .closed).modLoaf n (fun l => { l with test := true })).loaf.get n).st = .closed
    refine (State.modLoaf_st n n ?_ _).trans ?_
    · exact fun _ => rfl
    · rw [State.loafTo, if_neg (by decide), State.modLoaf_loaf, Quad.get_set_same, LoafSt.enter_st]
  · show (((s.loafTo n .closed).modLoaf n (fun l => { l with test := true })).loaf.get n).test = true
    rw [State.modLoaf_loaf, Quad.get_set_same]
  · exact congrArg (fun x : State => x.modOven n OvenSt.closed) hrest
  · show (((s.loafTo n .closed).modLoaf n (fun l => { l with test := true })).oven.set n _).get m = _
    rw [Quad.get_set_ne _ _ hm, ← hrest]

end Sys2Proof.Machine

namespace Sys2Proof

open Sys2Proof.Machine

/-- Settles O15: a request of a loaf at rest is judged by the loaf's state, and a transition changes its own loaf. -/
theorem loafStateCommands : Obligations.LoafStateCommands := by
  unfold Obligations.LoafStateCommands
  refine ⟨?_, ?_, ?_, ?_⟩
  case refine_1 =>
    intro src j s hready hreq hhas hfree hst
    have hon : (s.loaf.get j.loafArg).st ≠ .off := by rcases hst with h | h <;> (rw [h]; decide)
    obtain ⟨hoff, hstop⟩ := State.loafTo_off hon
    obtain ⟨hrest, hothers⟩ := (OnLoaf.loafTo (n := j.loafArg) s .off).rest
    refine ⟨s.loafTo j.loafArg .off, ?_, hoff, hstop, hrest, hothers⟩
    rw [exec_loafStateOff hready hreq hhas (State.rests_of_unbound hfree), if_neg hon, if_pos (decide_eq_true hst)]
  case refine_2 =>
    intro src j s hready hreq hhas hfree hst
    obtain ⟨hopen, hshadow, hon⟩ := s.loafOpen_leaves j.loafArg
    obtain ⟨hrest, hothers⟩ := hon.rest
    refine ⟨s.loafOpen j.loafArg, ?_, hopen, hshadow, hrest, hothers⟩
    have hnot : (s.loaf.get j.loafArg).st ≠ .open_ := by rcases hst with h | ⟨h, -⟩ <;> (rw [h]; decide)
    rw [exec_loafStateOpen hready hreq hhas (State.rests_of_unbound hfree), if_neg hnot, if_pos (by simpa using hst)]
  case refine_3 =>
    intro src j s g hready hreq hgroup hstopped hclose hplain hst
    obtain ⟨hclosed, htest, hrest, hothers⟩ := s.loafClose_leaves j.loafArg
    refine ⟨s.loafClose j.loafArg true, ?_, hclosed, htest, hrest, hothers⟩
    have hnot : (s.loaf.get j.loafArg).st ≠ .closed := by rcases hst with h | h <;> (rw [h]; decide)
    have hhas : s.has j.loafArg.val = true := by
      unfold State.canClose at hclose
      simp only [Bool.and_eq_true] at hclose
      tauto
    have hrests : ∀ g', s.groupOf j.loafArg = some g' → (s.grp.get g').st = .stopped := fun g' hg' =>
      Option.some.inj (hgroup.symm.trans hg') ▸ hstopped
    rw [exec_loafStateClosed hready hreq hhas hrests, if_neg hnot, if_pos (by simp [hst, hgroup, hclose, hplain])]
  case refine_4 =>
    intro src j s hready hhas hfree
    have hrests := State.rests_of_unbound hfree
    refine ⟨fun hreq hst => ?_, fun hreq hst => ?_, fun hreq hst => ?_, fun hreq => ?_⟩
    · rw [exec_loafStateOff hready hreq hhas hrests, if_pos hst]
    · rw [exec_loafStateOpen hready hreq hhas hrests, if_pos hst]
    · rw [exec_loafStateOff hready hreq hhas hrests, if_neg (by rcases hst with h | h <;> (rw [h]; decide)),
        if_neg (by rcases hst with h | h <;> (rw [h]; decide))]
    · by_cases hst : (s.loaf.get j.loafArg).st = .closed
      · exact Or.inr hst
      · rw [exec_loafStateClosed hready hreq hhas hrests, if_neg hst, if_neg (by simp [hfree])]
        exact Or.inl rfl

end Sys2Proof
end

section
/-! Calibration and the capture commands (R158, R159, R231, R243 to R245; O18). -/

namespace Sys2Proof.Machine

open Sys2Proof

/-! ## Calibration (R158, R231) -/

/-- A calibration started on a converter that the variant has and whose reference is up. -/
theorem State.calStart_zero {src : Source} {j : Job} {s : State} (hconv : s.hasConv (j.arg 0 % 256) = true)
    (href : s.power.refReady.get (Fin.ofNat 6 (j.arg 0 % 256)) = true) :
    s.calStart src j false = (s.modCmd (fun c => { c with cals := c.cals ++ [{
      src := src, conv := j.arg 0 % 256, input := j.arg 0 / 256 % 256, full := false, expected := 0,
      offset := s.rd (Obj.chOffset (j.arg 0 % 256) (j.arg 0 / 256 % 256)), count := 0, sum := 0, since := s.time.now }] })).wait src := by
  unfold State.calStart
  simp only [hconv, href, Bool.and_self, Bool.not_true, Bool.false_eq_true, if_false, Bool.false_and]

theorem State.calStart_full {src : Source} {j : Job} {s : State} (hconv : s.hasConv (j.arg 0 % 256) = true)
    (href : s.power.refReady.get (Fin.ofNat 6 (j.arg 0 % 256)) = true) (hzero : (j.arg 0 % 256, j.arg 0 / 256 % 256) ∈ s.cmd.zeroed)
    (hfar : signExt 32 (j.arg 1) < -8192 ∨ 8192 < signExt 32 (j.arg 1)) :
    s.calStart src j true = (s.modCmd (fun c => { c with cals := c.cals ++ [{
      src := src, conv := j.arg 0 % 256, input := j.arg 0 / 256 % 256, full := true, expected := signExt 32 (j.arg 1),
      offset := s.rd (Obj.chOffset (j.arg 0 % 256) (j.arg 0 / 256 % 256)), count := 0, sum := 0, since := s.time.now }] })).wait src := by
  have hnear : ¬ (-8192 ≤ signExt 32 (j.arg 1) ∧ signExt 32 (j.arg 1) ≤ 8192) := by omega
  unfold State.calStart
  simp only [hconv, href, List.contains_iff_mem.mpr hzero, decide_eq_false hnear, Bool.and_self, Bool.and_false, Bool.or_self,
    Bool.not_true, Bool.false_eq_true, if_false, if_true]

/-- A full-scale calibration needs the input's offset first, and a value that differs enough from 0. -/
theorem State.calStart_refused {src : Source} {j : Job} {s : State}
    (h : (j.arg 0 % 256, j.arg 0 / 256 % 256) ∉ s.cmd.zeroed ∨ (-8192 ≤ signExt 32 (j.arg 1) ∧ signExt 32 (j.arg 1) ≤ 8192)) :
    s.calStart src j true = s.deny src j stState := by
  unfold State.calStart
  dsimp only
  split
  · rfl
  · refine if_pos ?_
    rcases h with hzero | hnear
    · simp [hzero]
    · simp [hnear]

theorem State.calOf_calGone (s : State) (src : Source) : (s.calGone src).calOf src = none := by
  unfold State.calOf State.calGone
  rw [State.modCmd_cmd, List.find?_filter]
  refine List.find?_eq_none.mpr (fun c _ => ?_)
  simp

/-- The 4096 samples are in. -/
theorem exec_calComplete {src : Source} {c : CalJob} {s : State} (hcal : s.calOf src = some c) (hfull : 4096 ≤ c.count) :
    exec (.calComplete src) s =
      if c.full then
        match gainCode c.conv c.expected c.sum with
        | none => .next ((s.calGone src).respond src stState [])
        | some g => .next (((s.calGone src).wr (Obj.chGain c.conv c.input) g).respond src 0 [BitVec.ofInt 32 g])
      else .next ((((s.calGone src).wr (Obj.chOffset c.conv c.input) (roundAway ((c.sum : Rat) / 4096))).modCmd (fun x => { x with
          zeroed := (c.conv, c.input) :: x.zeroed })).respond src 0 [BitVec.ofInt 32 (roundAway ((c.sum : Rat) / 4096))]) := by
  show execCalComplete src s = _
  unfold execCalComplete
  rw [hcal]
  exact if_neg (Nat.not_lt.mpr hfull)

/-! ## Capture (R159, R243 to R245) -/

/-- What the arming puts. -/
def capArmed (s : State) : List (Nat × Int) :=
  [(Obj.capState, 1), (Obj.capSeq, (s.rd Obj.capSeq + 1) % 65536), (Obj.capCause, 0), (Obj.capLen, 0)]

theorem capArmed_nodup (s : State) : ((capArmed s).map Prod.fst).Nodup := by
  show [Obj.capState, Obj.capSeq, Obj.capCause, Obj.capLen].Nodup
  decide

theorem State.capFollow_rd_ne {s : State} {a : Nat} (h : a ≠ Obj.capState) : s.capFollow.rd a = s.rd a := by
  unfold State.capFollow
  split
  · exact State.rd_wr_ne _ _ h
  · rfl

/-- Outside the state of the capture, the arming reads as its writes do. -/
theorem State.capArm_rd_ne {s : State} {a : Nat} (h : a ≠ Obj.capState) : s.capArm.rd a = (s.wrs (capArmed s)).rd a := by
  unfold State.capArm
  exact State.capFollow_rd_ne h

/-- An armed capture waits for its items or for its trigger. -/
theorem State.capArm_state (s : State) : s.capArm.rd Obj.capState = 1 ∨ s.capArm.rd Obj.capState = 2 := by
  unfold State.capArm State.capFollow
  extract_lets mode srcs room p q
  split
  · exact Or.inr (State.rd_wr_same ..)
  · left
    rw [State.modCap_rd]
    exact State.rd_wrs_mem s (capArmed_nodup s) (by simp [capArmed])

/-- What the disarming puts. -/
def capIdle : List (Nat × Int) := [(Obj.capState, 0), (Obj.capCause, 0), (Obj.capLen, 0)]

/-- The first trigger of an armed capture. -/
theorem State.captureTriggerAt_first {bit t : Nat} {s : State} (h : s.rd Obj.capState = 1 ∨ s.rd Obj.capState = 2) :
    (s.captureTriggerAt bit t).rd Obj.capState = 3 ∧ (s.captureTriggerAt bit t).rd Obj.capCause = ((2 ^ bit : Nat) : Int)
      ∧ (s.captureTriggerAt bit t).cap.trigT = t
      ∧ ∀ a, a ∉ [Obj.capState, Obj.capCause] → (s.captureTriggerAt bit t).rd a = s.rd a := by
  unfold State.captureTriggerAt
  rw [if_pos h]
  refine ⟨?_, State.rd_wr_same .., rfl, fun a ha => ?_⟩
  · rw [State.modCap_rd, State.rd_wr_ne _ _ (by decide), State.rd_wr_same]
  · obtain ⟨hstate, hcause⟩ := not_or.mp (List.mem_cons.not.mp ha)
    rw [State.modCap_rd, State.rd_wr_ne _ _ (List.mem_singleton.not.mp hcause), State.rd_wr_ne _ _ hstate]

/-- A trigger in the cycle of the one taken joins it (R245). -/
theorem State.captureTriggerAt_joined {bit t : Nat} {s : State} (h : s.rd Obj.capState = 3) (ht : s.cap.trigT = t) :
    s.captureTriggerAt bit t = s.wrBit Obj.capCause bit true := by
  unfold State.captureTriggerAt
  rw [if_neg (by rw [h]; decide), if_pos ⟨h, ht⟩]

/-- A commanded trigger is taken in the states that take one. -/
theorem exec_captureTriggerNow {src : Source} {j : Job} {t : Nat} {s : State} (h : Ready src cCaptureArm j (s.atT t)) (hact : j.arg 0 = 3)
    (hst : s.rd Obj.capState = 1 ∨ s.rd Obj.capState = 2 ∨ (s.rd Obj.capState = 3 ∧ s.cap.trigT = t)) :
    exec (.captureTriggerNow src t) s = .next (((s.atT t).captureTriggerAt 0 t).capReply src).settle := by
  show Host.Outcome.next (State.run _ _ _ _ _) = _
  rw [State.run_ready _ _ h (decide_eq_true hact), if_pos (by simpa using hst)]

end Sys2Proof.Machine

namespace Sys2Proof

open Sys2Proof.Machine

/-- Settles O18: a calibration by its converter, its offset and its mean, a capture by its state. -/
theorem calibrationAndCapture : Obligations.CalibrationAndCapture := by
  unfold Obligations.CalibrationAndCapture
  refine ⟨?_, ?_, ?_, ?_, ?_, ?_, ?_, ?_, ?_, ?_, ?_, ?_, ?_, ?_⟩
  case refine_1 => exact fun src j s hready hconv href => exec_ready_eq rfl hready rfl (State.calStart_zero hconv href)
  case refine_2 =>
    exact fun src j s hready hconv href hzero hfar => exec_ready_eq rfl hready rfl (State.calStart_full hconv href hzero hfar)
  case refine_3 => exact fun src j s hready _ hbad => exec_ready_eq rfl hready rfl (State.calStart_refused hbad)
  case refine_4 =>
    intro src c s hcal hin hzero
    refine ⟨_, (exec_calComplete hcal hin).trans (if_neg (by simp [hzero])), ?_, List.mem_cons_self, s.calOf_calGone src, fun a ha => ?_,
      rfl, rfl⟩
    · rw [State.modCmd_rd, State.rd_wr_same]
    · rw [State.modCmd_rd, State.rd_wr_ne _ _ ha]
      rfl
  case refine_5 =>
    intro src c g s hcal hin hfull hgain
    rw [exec_calComplete hcal hin, if_pos hfull, hgain]
  case refine_6 =>
    intro src c s hcal hin hfull hgain
    rw [exec_calComplete hcal hin, if_pos hfull, hgain]
  case refine_7 =>
    intro src c s hcal hfew
    show execCalTimeout src s = _
    unfold execCalTimeout
    rw [hcal]
    exact if_pos hfew
  case refine_8 =>
    intro src j s hready hact
    refine ⟨exec_ready_eq rfl hready (decide_eq_true hact) rfl, ?_, ?_, ?_, s.capArm_state, fun a ha => ?_⟩
    · exact (State.capArm_rd_ne (by decide)).trans (State.rd_wrs_mem s (capArmed_nodup s) (by simp [capArmed]))
    · exact (State.capArm_rd_ne (by decide)).trans (State.rd_wrs_mem s (capArmed_nodup s) (by simp [capArmed]))
    · exact (State.capArm_rd_ne (by decide)).trans (State.rd_wrs_mem s (capArmed_nodup s) (by simp [capArmed]))
    · exact (State.capArm_rd_ne (List.mem_cons.not.mp ha |> not_or.mp).1).trans (State.rd_wrs_ne s ha)
  case refine_9 =>
    intro src j s hready hact
    refine ⟨s.capDisarm, exec_ready_eq rfl hready (decide_eq_true hact) ?_, ?_, ?_, ?_, rfl, fun a ha => ?_⟩
    · exact congrArg (fun v => s.capDisarm.respond src 0 [BitVec.ofInt 32 v]) (State.rd_wrs_ne s (ws := capIdle) (by decide))
    · exact State.rd_wrs_mem s (ws := capIdle) (by decide) (by simp [capIdle])
    · exact State.rd_wrs_mem s (ws := capIdle) (by decide) (by simp [capIdle])
    · exact State.rd_wrs_mem s (ws := capIdle) (by decide) (by simp [capIdle])
    · exact State.rd_wrs_ne s (ws := capIdle) ha
  case refine_10 =>
    intro src j t s _ hready hact hst
    obtain ⟨hstate, hcause, htrig, hrest⟩ := State.captureTriggerAt_first (bit := 0) (t := t) (s := s.atT t) (by simpa using hst)
    refine ⟨(s.atT t).captureTriggerAt 0 t, ?_, hstate, hcause, htrig, fun a ha => (hrest a ha).trans (s.atT_rd t a)⟩
    rw [exec_captureTriggerNow hready hact (by tauto), State.capReply, hrest _ (by decide), State.atT_rd]
  case refine_11 =>
    intro src j t s _ hready hact hst htrig
    rw [exec_captureTriggerNow hready hact (Or.inr (Or.inr ⟨hst, htrig⟩)),
      State.captureTriggerAt_joined ((s.atT_rd t _).trans hst) (by rw [State.atT_cap]; exact htrig), State.capReply,
      State.rd_wrBit_ne _ _ _ (by decide), State.atT_rd]
  case refine_12 =>
    intro src j s hready hseq hst
    exact exec_ready_eq rfl hready rfl (if_neg (by simp [hseq, hst]))
  case refine_13 => exact fun src j s hready hbad => exec_ready_eq rfl hready rfl (if_pos hbad)
  case refine_14 =>
    intro src j s hwait
    show execCaptureReadTimeout src s = _
    unfold execCaptureReadTimeout
    rw [hwait]

end Sys2Proof
end

section
/-! Acknowledgement and clearing of faults, and the injections (R157, R161, R359, R361, R362, R369, R370; O17). -/

namespace Sys2Proof.Machine

open Sys2Proof

/-! ## `FAULT_CLEAR` (R157, R362) -/

/-- What the clearing of one fault keeps: the mode, the groups, and of the pending faults all but its own. -/
def State.faultsKept (s : State) : List Pend × ModState × Quad GroupSt := (s.flt.pend, s.mode, s.grp)

theorem State.clearLatches_kept (p : Pend) (s : State) : (s.clearLatches p).faultsKept = s.faultsKept := by
  unfold State.clearLatches
  extract_lets i n c
  split
  · split <;> exact forAll_keeps (g := State.faultsKept) (f := fun k x => x.wrBit (Obj.tripLatch i) k false) (fun _ _ => rfl) _ s
  · split_ifs <;> rfl

theorem State.clearOne_kept (p : Pend) (s : State) : (s.clearOne p).faultsKept
    = (s.flt.pend.filter (fun x => !(x.code == p.code && x.inst == p.inst)), s.mode, s.grp) := State.clearLatches_kept p _

/-- What the clearing of several faults leaves. -/
theorem forAll_clearOne_kept (named : List Pend) (s : State) : (forAll named State.clearOne s).faultsKept
    = (s.flt.pend.filter (fun x => named.all (fun p => !(x.code == p.code && x.inst == p.inst))), s.mode, s.grp) := by
  unfold forAll
  induction named generalizing s with
  | nil => simp [State.faultsKept]
  | cons p named ih =>
    obtain ⟨hpend, hmode, hgrp⟩ := by simpa [State.faultsKept] using State.clearOne_kept p s
    refine (ih (s.clearOne p)).trans ?_
    rw [hpend, hmode, hgrp, List.filter_filter]
    simp only [List.all_cons, Bool.not_and, Bool.and_comm]

/-- A clearing names faults by their code and unit, so with a named fault go all that share both. -/
theorem filter_not_named (code inst : Half) (l : List Pend) :
    l.filter (fun x => (l.filter (fun p => clearNames code inst p.code p.inst)).all (fun p => !(x.code == p.code && x.inst == p.inst)))
      = l.filter (fun x => !clearNames code inst x.code x.inst) := by
  refine List.filter_congr (fun x hx => ?_)
  cases hname : clearNames code inst x.code x.inst with
  | true =>
    refine List.all_eq_false.mpr ⟨x, List.mem_filter.mpr ⟨hx, hname⟩, by simp⟩
  | false =>
    refine List.all_eq_true.mpr (fun p hp => ?_)
    obtain ⟨-, hpname⟩ := List.mem_filter.mp hp
    by_contra hsame
    obtain ⟨hcode, hinst⟩ : x.code = p.code ∧ x.inst = p.inst := by simpa using hsame
    rw [hcode, hinst, hpname] at hname
    exact Bool.noConfusion hname

/-- The state in which the faults named are cleared, before what follows from it. -/
def State.faultsCleared (code inst : Half) (s : State) : State :=
  (forAll (s.flt.pend.filter (fun p => clearNames code inst p.code p.inst)) State.clearOne s).modFlt (fun f => { f with
    inj := f.inj.filter (fun x => !(x.live && clearNames code inst x.code x.inst)) })

theorem State.faultsCleared_kept (code inst : Half) (s : State) : (s.faultsCleared code inst).faultsKept
    = (s.flt.pend.filter (fun p => !clearNames code inst p.code p.inst), s.mode, s.grp) := by
  rw [← filter_not_named]
  exact forAll_clearOne_kept _ s

theorem State.clearFaults_some {code inst : Half} {s : State}
    (h : ∀ p ∈ s.flt.pend, clearNames code inst p.code p.inst = true → s.resetOnlyCode p.code = false ∧ s.persists p = false) :
    s.clearFaults code inst = some ((s.flt.pend.filter (fun p => clearNames code inst p.code p.inst)).length,
      (s.faultsCleared code inst).fbFollow.faultToOff.leaveSafe) := by
  refine if_neg (Bool.not_eq_true _ ▸ List.any_eq_false.mpr (fun p hp => ?_))
  obtain ⟨hmem, hname⟩ := List.mem_filter.mp hp
  obtain ⟨hreset, hpersists⟩ := h p hmem hname
  simp [hreset, hpersists]

theorem State.clearFaults_none {code inst : Half} {p : Pend} {s : State} (hmem : p ∈ s.flt.pend)
    (hname : clearNames code inst p.code p.inst = true) (h : s.resetOnlyCode p.code = true ∨ s.persists p = true) :
    s.clearFaults code inst = none :=
  if_pos (List.any_eq_true.mpr ⟨p, List.mem_filter.mpr ⟨hmem, hname⟩, by simpa using h⟩)

/-! ## `INJECT` (R161, R369, R370) -/

theorem State.bump_only (a : Nat) (s : State) : ∃ o, s.bump a = { s with objs := o } := by
  unfold State.bump State.bumpTo
  split <;> exact ⟨_, rfl⟩

/-- A dry injection that coincides with no real fault is added, counted and logged. -/
theorem State.raiseDry_only {code inst : Half} {s : State} (h : s.realPending code inst = false) :
    (s.raiseDry code inst).flt.inj = s.flt.inj ++ [{ code := code, inst := inst, live := false, since := s.time.now }]
      ∧ (s.raiseDry code inst).flt.pend = s.flt.pend ∧ (s.raiseDry code inst).mode = s.mode ∧ (s.raiseDry code inst).loaf = s.loaf
      ∧ (s.raiseDry code inst).grp = s.grp ∧ (s.raiseDry code inst).safety = s.safety
      ∧ (s.raiseDry code inst).rd Obj.injCount = min (s.rd Obj.injCount + 1) 0xFFFFFFFF := by
  unfold State.raiseDry State.addInj
  dsimp only
  rw [if_neg (by rw [h]; exact Bool.false_ne_true)]
  refine ⟨?_, ?_, ?_, ?_, ?_, ?_, State.rd_bumpTo_same _ Obj.injCount _⟩ <;> (unfold State.bump State.bumpTo; split <;> rfl)

/-- A live injection of a code that no trip source reports, not pending, enters the collector. -/
theorem State.raiseLive_enters {code inst : Half} {s : State} (hsrc : injSource code.toNat (instIndex inst % 4) = none)
    (h : s.isPending code inst = false) : s.raiseLive code inst
      = ((s.addInj { code := code, inst := inst, live := true }).enter code inst 0 flagInj true).attributed code inst := by
  have hreal : s.realPending code inst = false := by
    unfold State.realPending
    refine List.any_eq_false.mpr (fun p hp => ?_)
    have hnot := List.any_eq_false.mp h p hp
    simp_all
  unfold State.raiseLive
  simp only [show (Fin.ofNat 4 (instIndex inst)).val = instIndex inst % 4 from rfl, hsrc, hreal, h, Bool.false_eq_true, if_false]

/-- An injection refused for what it names. -/
theorem State.inject_unraisable {src : Source} {j : Job} {live : Bool} {s : State} (hroom : s.flt.inj.length < 4)
    (h : s.raisable j.faultCode j.faultInst = false) : s.inject src j live = s.deny src j stState := by
  unfold State.inject
  dsimp only
  rw [if_neg (Nat.not_le.mpr hroom), if_pos (by simp [h])]

theorem State.inject_busy {src : Source} {j : Job} {live : Bool} {s : State} (h : 4 ≤ s.flt.inj.length) :
    s.inject src j live = s.deny src j stBusy := if_pos h

/-- An injection taken, of a code that no trip source reports or dry. -/
theorem State.inject_taken {src : Source} {j : Job} {live : Bool} {s : State} (hroom : s.flt.inj.length < 4)
    (hcode : injectable j.faultCode live = true) (hraise : s.raisable j.faultCode j.faultInst = true)
    (hsrc : live = true → injSource j.faultCode.toNat (instIndex j.faultInst % 4) = none) :
    s.inject src j live = (if live
        then (s.carry 0 (pkt .fault (faultPayload j.faultCode j.faultInst 4))).raiseLive j.faultCode j.faultInst
        else (s.carry 0 (pkt .fault (faultPayload j.faultCode j.faultInst 3))).raiseDry j.faultCode j.faultInst).respond src 0 [] := by
  unfold State.inject
  cases live with
  | true => simp [Nat.not_le.mpr hroom, hcode, hraise, hsrc rfl]
  | false =>
    simp [Nat.not_le.mpr hroom, hcode, hraise]
    cases injSource j.faultCode.toNat (instIndex j.faultInst % 4) <;> simp

end Sys2Proof.Machine

namespace Sys2Proof

open Sys2Proof.Machine

/-- Settles O17: an acknowledgement by the copy of the windows, a clearing by the faults it names, an injection by its code. -/
theorem faultCommands : Obligations.FaultCommands := by
  unfold Obligations.FaultCommands
  refine ⟨?_, ?_, ?_, ?_, ?_, ?_, ?_, ?_, ?_, ?_⟩
  case refine_1 =>
    exact fun src j s hready hopen => exec_ready_eq rfl hready rfl (if_pos (List.contains_iff_mem.mpr hopen))
  case refine_2 =>
    exact fun src j s hready hshut => exec_ready_eq rfl hready rfl (if_neg (fun h => hshut (List.contains_iff_mem.mp h)))
  case refine_3 =>
    intro src j s p hready hmem hcode hinst hkeeps
    have hname : clearNames j.faultCode j.faultInst p.code p.inst = true := by
      simpa [clearNames] using And.intro hcode hinst
    refine exec_ready_eq rfl hready rfl ?_
    rw [State.clearFaults_none hmem hname hkeeps]
  case refine_4 =>
    intro src j s hready hends
    obtain ⟨hpend, hmode, hgrp⟩ := by simpa [State.faultsKept] using s.faultsCleared_kept j.faultCode j.faultInst
    refine ⟨_, s.faultsCleared j.faultCode j.faultInst, exec_ready_eq rfl hready rfl ?_, rfl, hpend, hmode, hgrp⟩
    rw [State.clearFaults_some hends]
  case refine_5 =>
    intro src j s hready hmode hroom hcode hraise hreal
    obtain ⟨hinj, hpend, hmode', hloaf, hgrp, hsafety, hcount⟩ := State.raiseDry_only
      (s := s.carry 0 (pkt .fault (faultPayload j.faultCode j.faultInst 3))) hreal
    refine ⟨_, exec_ready_eq rfl hready (decide_eq_true hmode)
      (State.inject_taken hroom hcode hraise (fun h => absurd h Bool.false_ne_true)), hinj, hpend, hmode', hloaf, hgrp, hsafety, ?_⟩
    intro hbelow
    exact hcount.trans (min_eq_left (Int.add_one_le_of_lt hbelow))
  case refine_6 =>
    intro src j s hready hmode hroom hcode hsrc hraise hfree
    refine exec_ready_eq rfl hready (decide_eq_true hmode) ((State.inject_taken hroom hcode hraise (fun _ => hsrc)).trans ?_)
    rw [if_pos rfl, State.raiseLive_enters hsrc (s := s.carry 0 _) hfree]
  case refine_7 =>
    exact fun src j s hready hroom hraise =>
      ⟨fun hmode => exec_ready_eq rfl hready (decide_eq_true hmode) (State.inject_unraisable hroom hraise),
        fun hmode => exec_ready_eq rfl hready (decide_eq_true hmode) (State.inject_unraisable hroom hraise)⟩
  case refine_8 =>
    exact fun src j s hready hfull =>
      ⟨fun hmode => exec_ready_eq rfl hready (decide_eq_true hmode) (State.inject_busy hfull),
        fun hmode => exec_ready_eq rfl hready (decide_eq_true hmode) (State.inject_busy hfull)⟩
  case refine_9 =>
    intro code inst d s hfind
    show execInjHoldExpiry code inst s = _
    unfold execInjHoldExpiry
    rw [hfind]
  case refine_10 =>
    intro code inst s hnone
    have hfind : s.flt.inj.find? (fun x => !x.live && x.code == code && x.inst == inst) = none := by
      refine List.find?_eq_none.mpr (fun x hx hit => ?_)
      obtain ⟨⟨hdry, hcode⟩, hinst⟩ : (x.live = false ∧ x.code = code) ∧ x.inst = inst := by simpa using hit
      exact Bool.false_ne_true (hdry.symm.trans (hnone x hx hcode hinst))
    show execInjHoldExpiry code inst s = _
    unfold execInjHoldExpiry
    rw [hfind]

end Sys2Proof
end

section
/-! `GROUP_STATE`, `MOVE` and `SWAP_BANK` (R154 to R156, R293, R294, R302 to R304; O16). -/

namespace Sys2Proof.Machine

open Sys2Proof

/-! ## A start (R293) -/

/-- What the joining of a run leaves, apart from the loaf that joins. -/
def State.runKept (s : State) : Quad GroupSt × Store × ModState × FaultSt := (s.grp, s.objs, s.mode, s.flt)

theorem OnLoaf.runKept {n : Fin 4} {s t : State} (h : OnLoaf n s t) : t.runKept = s.runKept := by
  obtain ⟨l, rfl⟩ := h
  rfl

/-- The closing of a loaf changes it and its unit of the Oven. -/
theorem State.loafClose_onLoaf (n : Fin 4) (test : Bool) (s : State) : ∃ t, OnLoaf n s t ∧ s.loafClose n test = t.modOven n OvenSt.closed :=
  ⟨_, (OnLoaf.loafTo s .closed).modLoaf _, rfl⟩

/-- A loaf that joins a run changes alone, with its unit of the Oven. -/
theorem State.joinRun_kept (n : Fin 4) (s : State) :
    (s.joinRun n).runKept = s.runKept ∧ ∀ m, m ≠ n → (s.joinRun n).loaf.get m = s.loaf.get m := by
  unfold State.joinRun
  extract_lets l
  split_ifs
  · exact ⟨rfl, fun _ _ => rfl⟩
  · obtain ⟨t, ht, hclose⟩ := s.loafClose_onLoaf n false
    rw [hclose]
    exact ⟨ht.runKept, ht.rest.2⟩
  · exact ⟨(OnLoaf.loafTo s .off).runKept, (OnLoaf.loafTo s .off).rest.2⟩
  · exact ⟨rfl, fun _ _ => rfl⟩

/-- A start changes the group and the loaves bound to it, none of the objects and no other group. -/
theorem State.groupStart_leaves (g : Fin 4) (s : State) : ((s.groupStart g).grp.get g).st = .starting
    ∧ ((s.groupStart g).grp.get g).startReq = true ∧ (s.groupStart g).objs = s.objs ∧ (s.groupStart g).mode = s.mode
    ∧ (s.groupStart g).flt = s.flt ∧ (∀ h, h ≠ g → (s.groupStart g).grp.get h = s.grp.get h)
    ∧ ∀ n, n ∉ s.bound g → (s.groupStart g).loaf.get n = s.loaf.get n := by
  unfold State.groupStart
  extract_lets s0 st running s1
  obtain ⟨f, hf⟩ : ∃ f, s0 = s.modSafety f := by
    unfold s0
    split
    · exact ⟨_, rfl⟩
    · exact ⟨id, rfl⟩
  have hbound : s1.bound g = s.bound g := by unfold s1; rw [hf]; rfl
  have hstart : (s1.grp.get g).st = .starting ∧ (s1.grp.get g).startReq = true := by
    unfold s1
    rw [State.modGrp_grp, Quad.get_set_same]
    exact ⟨rfl, rfl⟩
  have hothers : ∀ h, h ≠ g → s1.grp.get h = s.grp.get h := fun h hne => by
    unfold s1
    rw [State.modGrp_grp, Quad.get_set_ne _ _ hne, hf]
    rfl
  have hkept : s1.objs = s.objs ∧ s1.mode = s.mode ∧ s1.flt = s.flt ∧ s1.loaf = s.loaf := by
    unfold s1
    rw [hf]
    exact ⟨rfl, rfl, rfl, rfl⟩
  obtain ⟨hobjs, hmode, hflt, hloaf⟩ := hkept
  split
  · exact ⟨hstart.1, hstart.2, hobjs, hmode, hflt, hothers, fun n _ => congrArg (fun q => q.get n) hloaf⟩
  · have hjoin : (forAll (s1.bound g) State.joinRun s1).runKept = s1.runKept := 
      forAll_keeps (fun n x => (x.joinRun_kept n).1) _ s1
    obtain ⟨hgrp', hobjs', hmode', hflt'⟩ := by simpa [State.runKept] using hjoin
    rw [hgrp', hobjs', hmode', hflt']
    refine ⟨hstart.1, hstart.2, hobjs, hmode, hflt, hothers, fun n hn => ?_⟩
    rw [← hloaf]
    refine forAll_keeps_mem (g := fun x => x.loaf.get n) (fun m hm x => (x.joinRun_kept m).2 n ?_) s1
    rintro rfl
    exact hn (hbound ▸ hm)

/-! ## A move (R156, R302) -/

/-- The target a `MOVE` names. -/
def Job.moveTarget (j : Job) : Nat × Word × Int := (j.arg 0 / 256 % 256, BitVec.ofNat 32 (j.arg 1), signExt 16 (j.arg 2))

/-- A `MOVE` of a group that takes targets: at rest at once, in motion at the boundary. -/
theorem exec_move {src : Source} {j : Job} {s : State} (h : Ready src cMove j s) (hfollows : s.follows j.grpArg = false)
    (hmode : s.rd (Obj.ctrlMode j.grpArg.val) = (j.arg 0 / 256 % 256 : Nat)) (hsafe : (s.grp.get j.grpArg).st ≠ .safe) :
    exec (.move src) s = .next (if (s.grp.get j.grpArg).st = .stopped ∨ (s.grp.get j.grpArg).st = .stopping
      then (s.modGrp j.grpArg (fun x => { x with target := some j.moveTarget })).respond src 0 []
      else (s.modGrp j.grpArg (fun x => { x with nextTarget := some j.moveTarget })).wait src).settle :=
  exec_ready_eq rfl h rfl (if_neg (by simp [hfollows, hmode, hsafe]))

/-! ## A bank swap (R154, R303, R304) -/

theorem units4_filter_bit (g : Fin 4) : units4.filter (fun h => (2 ^ g.val).testBit h.val) = [g] := by
  revert g
  decide

/-- The swap of a group pending. -/
def State.swapAsked (g : Fin 4) (s : State) : State :=
  s.modGrp g (fun x => { x with swap := true, swapT := if x.swap then x.swapT else s.time.now })

/-- The swap of one named group asked for. -/
theorem State.askSwaps_one (g : Fin 4) (s : State) : s.askSwaps (2 ^ g.val) = if (s.bound g).any (fun n => (s.loaf.get n).running)
    then s.swapAsked g else (s.swapAsked g).bankSwap g := by
  unfold State.askSwaps
  rw [units4_filter_bit]
  rfl

/-- What a swap of banks leaves outside the objects and its group. -/
def State.swapKept (s : State) : Quad GroupSt × Quad LoafSt × ModState × FaultSt := (s.grp, s.loaf, s.mode, s.flt)

/-- A pending swap that takes effect is pending no more; outside the objects it changes its group alone. -/
theorem State.bankSwap_kept {g : Fin 4} {s : State} (h : (s.grp.get g).swap = true) :
    (s.bankSwap g).swapKept = (s.modGrp g (fun x => { x with swap := false, held := [], swapped := true })).swapKept := by
  unfold State.bankSwap
  rw [if_neg (by rw [h]; decide)]
  extract_lets newAct newSh s1 s2 s3
  have hcopied : s2.swapKept = s.swapKept :=
    forAll_keeps (f := fun a x => x.wr (a + newSh) (x.rd (a + newAct))) (fun _ _ => rfl) _ s1
  have hheld : s3.swapKept = s2.swapKept :=
    forAll_keeps (f := fun (w : Nat × Int) x => x.wr (w.1 + newSh) w.2) (fun _ _ => rfl) _ s2
  obtain ⟨o, ho⟩ := State.bump_only (Obj.swapCount g.val) s3
  obtain ⟨hgrp, hloaf, hmode, hflt⟩ := by simpa [State.swapKept] using hheld.trans hcopied
  rw [ho]
  simp [State.swapKept, State.modGrp, hgrp, hloaf, hmode, hflt]

end Sys2Proof.Machine

namespace Sys2Proof

open Sys2Proof.Machine

/-- Settles O16: a start at once, a stop and a target in motion at the boundary, a swap by the counters of its group. -/
theorem groupAndBankCommands : Obligations.GroupAndBankCommands := by
  unfold Obligations.GroupAndBankCommands
  refine ⟨?_, ?_, ?_, ?_, ?_, ?_, ?_, ?_, ?_, ?_, ?_⟩
  case refine_1 =>
    intro src j s hready hreq hok
    have hleaves := s.groupStart_leaves j.grpArg
    refine ⟨s.groupStart j.grpArg, exec_ready_eq rfl hready (decide_eq_true hreq) ((if_pos hok).trans ?_), hleaves⟩
    show (s.groupStart j.grpArg).respond src 0 [BitVec.ofNat 32 ((s.groupStart j.grpArg).grp.get j.grpArg).st.code] = _
    rw [hleaves.1, GroupState.code]
    rfl
  case refine_2 =>
    exact fun src j s hready hreq hbad => exec_ready_eq rfl hready (decide_eq_true hreq) (if_neg (by rw [hbad]; exact Bool.false_ne_true))
  case refine_3 =>
    intro src j s hready hreq hfollows hst
    refine exec_ready_eq rfl hready (decide_eq_true hreq) ((if_neg (by rw [hfollows]; exact Bool.false_ne_true)).trans
      ((if_neg ?_).trans ?_))
    · rcases hst with h | h | h <;> (rw [h]; decide)
    · rw [State.groupStop, if_pos hst]
  case refine_4 =>
    intro src j s hready hreq hfollows hst
    exact exec_ready_eq rfl hready (decide_eq_true hreq)
      ((if_neg (by rw [hfollows]; exact Bool.false_ne_true)).trans (if_pos hst))
  case refine_5 =>
    intro src j s hready hfollows hmode hst
    exact (exec_move hready hfollows hmode (by rcases hst with h | h <;> (rw [h]; decide))).trans
      (congrArg (fun x : State => Host.Outcome.next x.settle) (if_pos hst))
  case refine_6 =>
    intro src j s hready hfollows hmode hst
    exact (exec_move hready hfollows hmode (by rcases hst with h | h | h <;> (rw [h]; decide))).trans
      (congrArg (fun x : State => Host.Outcome.next x.settle) (if_neg (by rcases hst with h | h | h <;> (rw [h]; decide))))
  case refine_7 =>
    intro src j s hready hbad
    refine exec_ready_eq rfl hready rfl (if_pos ?_)
    simp only [Bool.or_eq_true, decide_eq_true_eq]
    tauto
  case refine_8 =>
    intro src j s g hready hmask hruns
    refine exec_ready_eq rfl hready rfl ?_
    rw [hmask, State.askSwaps_one, if_pos hruns]
    rfl
  case refine_9 =>
    intro src j s g hready hmask hidle
    have hpend : ((s.swapAsked g).grp.get g).swap = true := by
      rw [State.swapAsked, State.modGrp_grp, Quad.get_set_same]
    obtain ⟨hgrp, hloaf, hmode, hflt⟩ := by simpa [State.swapKept] using State.bankSwap_kept hpend
    have hset : (((s.swapAsked g).bankSwap g).grp.get g).swap = false ∧ (((s.swapAsked g).bankSwap g).grp.get g).held = []
        ∧ (((s.swapAsked g).bankSwap g).grp.get g).swapped = true := by
      rw [hgrp, Quad.get_set_same]
      exact ⟨rfl, rfl, rfl⟩
    obtain ⟨hswap, hheld, hswapped⟩ := hset
    refine ⟨((s.swapAsked g).bankSwap g).carry (srcNum src) (swapPacket j), exec_ready_eq rfl hready rfl ?_, hswap, hheld, hswapped,
      fun h hne => ?_, hloaf, hmode, hflt⟩
    · rw [hmask, State.askSwaps_one, if_neg (Bool.eq_false_iff.mp hidle)]
    · show ((s.swapAsked g).bankSwap g).grp.get h = _
      rw [hgrp, Quad.get_set_ne _ _ hne]
      exact Quad.get_set_ne _ _ hne
  case refine_10 =>
    intro src s j hwait
    show execSwapBankTimeout src s = _
    unfold execSwapBankTimeout
    rw [hwait]
  case refine_11 =>
    intro src s hnone
    show execSwapBankTimeout src s = _
    unfold execSwapBankTimeout
    rw [hnone]

end Sys2Proof
end

section
/-! Connections and the commands on them (R414 to R416, R483, R499; O45). -/

namespace Sys2Proof.Machine

open Sys2Proof

/-! ## A connection opens and closes (R414, R416) -/

theorem exec_tcpConnect {r : TcpRequest} {s : State} (hask : s.askard = true) (hroute : (s.nextHop r.ip).isSome = true) :
    exec (.tcpConnect r) s = match (if r.dstPort = s.net.mgtPort then s.freeConn else none) with
      | some c => .next (s.modConn c (fun _ =>
          { ({} : Conn) with open_ := true, peer := r.ip, port := r.srcPort, since := s.time.now, cmdT := s.time.now }))
      | none => .next (s.ownSend (s.portsTo r.ip) (.tcpReset r)) :=
  if_pos (by rw [hask, hroute]; rfl)

theorem State.freeConn_none {s : State} (h : ∀ c, (s.net.conns.get c).open_ = true) : s.freeConn = none :=
  List.find?_eq_none.mpr (fun c _ => by simp [h c])

/-- What a closing connection leaves of itself and of what it began. -/
def State.connGone (c : Fin 4) (s : State) : State :=
  (((s.endSubs (c.val + 1)).modCmd (fun m => { m with
      xfer := m.xfer.filter (fun x => decide (x.src ≠ .net c)), setXfers := m.setXfers.filter (fun x => decide (x.src ≠ .net c))
      staging := m.staging.filter (fun x => decide (x.1 ≠ .net c))
      snaps := m.snaps.filter (fun x => decide (x.1 ≠ .net c)) })).capForget (.net c)).modConn c (fun x =>
    { ({} : Conn) with job := x.job })

/-- A connection closes with at most an entry of the audit log. -/
theorem State.closeConn_open {c : Fin 4} {s : State} (why : Nat) (h : (s.net.conns.get c).open_ = true) :
    ∃ y : State, y.net = s.net ∧ y.time = s.time ∧ y.sec.unlocked = s.sec.unlocked ∧ s.closeConn c why = y.connGone c := by
  unfold State.closeConn
  extract_lets k src s1 s2
  refine ⟨s1, ?_, ?_, ?_, ?_⟩
  · unfold s1
    split <;> rfl
  · unfold s1
    split <;> rfl
  · unfold s1
    split <;> rfl
  · rw [if_neg (by simp [k, h])]
    rfl

theorem State.connGone_leaves (c : Fin 4) (s : State) :
    (s.connGone c).net.conns.get c = { ({} : Conn) with job := (s.net.conns.get c).job }
    ∧ (∀ d, d ≠ c → (s.connGone c).net.conns.get d = s.net.conns.get d) ∧ (s.connGone c).sec = s.sec ∧ (s.connGone c).time = s.time
    ∧ (∀ j < 8, (s.connGone c).subFree (c.val + 1) j) ∧ ∀ x ∈ (s.connGone c).cmd.xfer, x.src ≠ .net c := by
  obtain ⟨l, hl⟩ := s.endSubs_only (c.val + 1)
  have hsubs := s.endSubs_free (c.val + 1)
  unfold State.connGone
  rw [hl] at hsubs ⊢
  refine ⟨Quad.get_set_same .., fun d hd => Quad.get_set_ne _ _ hd, rfl, rfl, hsubs, fun x hx => ?_⟩
  exact of_decide_eq_true (Option.filter_eq_some_iff.mp hx).2

/-- What the closing of a connection ends, and what it leaves. -/
theorem State.closeConn_leaves {c : Fin 4} {s : State} (why : Nat) (h : (s.net.conns.get c).open_ = true) :
    (s.closeConn c why).net.conns.get c = { ({} : Conn) with job := (s.net.conns.get c).job }
    ∧ (∀ d, d ≠ c → (s.closeConn c why).net.conns.get d = s.net.conns.get d) ∧ (s.closeConn c why).sec.unlocked = s.sec.unlocked
    ∧ (s.closeConn c why).time = s.time ∧ (∀ j < 8, (s.closeConn c why).subFree (c.val + 1) j)
    ∧ ∀ x ∈ (s.closeConn c why).cmd.xfer, x.src ≠ .net c := by
  obtain ⟨y, hnet, hclock, hlock, hclose⟩ := State.closeConn_open why h
  obtain ⟨hconn, hothers, hsec, htime, hsubs, hxfer⟩ := y.connGone_leaves c
  rw [hnet] at hconn hothers
  rw [hclose, hsec, htime]
  exact ⟨hconn, hothers, hlock, hclock, hsubs, hxfer⟩

/-! ## The TLS handshake (R414, R483, R499) -/

/-- A handshake of an open connection complete. -/
theorem exec_tlsHandshakeComplete {c : Fin 4} {user : Option (Fin 16)} {o : TlsOffer} {exporter : List Byte} {s : State}
    (hopen : (s.net.conns.get c).open_ = true) (htls : (s.net.conns.get c).tls = false) :
    exec (.tlsHandshakeComplete c user o exporter) s = match s.certUser user (tlsOk o && o.chainOk) with
      | none => .next ((s.auditEvent 0x0002 (auditPath (.net c)) 0xFF 0 0 0).closeConn c 0)
      | some (role, u) =>
        let s1 := ((s.modConn c (fun x => { x with tls := true, role := role, user := u, keys := slice exporter 0 28 })).wr
          (Obj.connDgrams c.val) 0).auditEvent 0x0001 (auditPath (.net c)) u role 0 role
        .next (if role = 5 ∧ s.power.swReset.getLsbD 10 ∧ !s.sec.unlocked then
          (s1.modSec (fun x => { x with unlocked := true })).auditEvent 0x0050 8 u role 0 1 else s1) :=
  if_pos (by rw [hopen, htls]; rfl)

/-- The connection of a handshake that names a user, before the audit log and the debug port hear of it. -/
def State.tlsUp (c : Fin 4) (role u : Nat) (exporter : List Byte) (s : State) : State :=
  (s.modConn c (fun x => { x with tls := true, role := role, user := u, keys := slice exporter 0 28 })).wr (Obj.connDgrams c.val) 0

theorem State.tlsUp_leaves (c : Fin 4) (role u : Nat) (exporter : List Byte) (s : State) :
    (s.tlsUp c role u exporter).net.conns.get c
        = { s.net.conns.get c with tls := true, role := role, user := u, keys := slice exporter 0 28 }
      ∧ (s.tlsUp c role u exporter).rd (Obj.connDgrams c.val) = 0
      ∧ ObjsKept [Obj.connDgrams c.val] s (s.tlsUp c role u exporter) :=
  ⟨Quad.get_set_same .., State.rd_wr_same .., fun _ ha => State.rd_wr_ne _ _ (List.mem_singleton.not.mp ha)⟩

/-- A handshake that names a user gives the connection its role; a test role on a device set for it unlocks. -/
theorem exec_tlsHandshake_given {c : Fin 4} {user : Option (Fin 16)} {o : TlsOffer} {exporter : List Byte} {role u : Nat} {s : State}
    (hopen : (s.net.conns.get c).open_ = true) (htls : (s.net.conns.get c).tls = false)
    (hcert : s.certUser user (tlsOk o && o.chainOk) = some (role, u)) :
    ∃ v : SecSt, exec (.tlsHandshakeComplete c user o exporter) s = .next { s.tlsUp c role u exporter with sec := v }
      ∧ (v.unlocked = true ↔ s.sec.unlocked = true ∨ (role = 5 ∧ s.power.swReset.getLsbD 10 = true)) := by
  rw [exec_tlsHandshakeComplete hopen htls, hcert]
  dsimp only
  split
  next h => exact ⟨_, rfl, fun _ => Or.inr ⟨h.1, h.2.1⟩, fun _ => rfl⟩
  next h =>
    refine ⟨_, rfl, Or.inl, fun hset => ?_⟩
    rcases hset with hset | ⟨hrole, hdebug⟩
    · exact hset
    · by_contra hlocked
      exact h ⟨hrole, hdebug, Bool.not_eq_true' _ ▸ Bool.eq_false_iff.mpr hlocked⟩

theorem tlsOk_iff (o : TlsOffer) : tlsOk o = true ↔ o.tls13 = true ∧ 0x1301 ∈ o.suites ∧ o.p256 = true ∧ o.cert = true := by
  unfold tlsOk
  simp only [Bool.and_eq_true, List.contains_iff_mem, and_assoc]

/-! ## A command on a connection (R165, R415) -/

theorem State.refusedEffects_net (src : Source) (code status : Nat) (ws : List Word) (s : State) :
    (s.refusedEffects src code status ws).net = s.net := by
  unfold State.refusedEffects
  split_ifs <;> rfl

theorem State.transPlaced_net (src : Source) (s : State) : (s.transPlaced src).net = s.net := by
  unfold State.transPlaced
  split <;> rfl

/-- A response handed to an open connection is the one it has sent last. -/
theorem State.answer_conn {c : Fin 4} {code tag status : Nat} {ws : List Word} {s : State} (h : (s.net.conns.get c).open_ = true) :
    (s.answer (.net c) code tag status ws).net.conns.get c = { s.net.conns.get c with sent := respWords status tag ws } := by
  obtain ⟨o, ho⟩ : ∃ o, s.refusedNoted code status = { s with objs := o } := by
    unfold State.refusedNoted
    split
    · exact ⟨_, rfl⟩
    · obtain ⟨o, ho⟩ := State.bump_only Obj.cmdRefused s
      rw [ho]
      exact ⟨_, rfl⟩
  rw [State.answer_eq, ho]
  unfold State.deliver State.connSend
  dsimp only
  rw [State.transPlaced_net, if_pos h]
  exact Quad.get_set_same ..

/-- A command taken from an open connection executes there, or its refusal is the response sent last. -/
theorem State.takeCommand_conn {c : Fin 4} {w : Word} {rest : List Word} {s : State} (h : (s.net.conns.get c).open_ = true) :
    (s.takeCommand (.net c) w rest).net.conns.get c = if s.takenStatus (.net c) w rest = 0
      then { s.net.conns.get c with job := some (takenJob (s.net.conns.get c).role w rest) }
      else { s.net.conns.get c with sent := [respWord (s.takenStatus (.net c) w rest) (cmdTag w) 0] } := by
  obtain ⟨o, ho⟩ := State.bump_only Obj.cmdTaken s
  split
  next hpass =>
    rw [State.takeCommand_passed hpass, ho]
    exact Quad.get_set_same ..
  next hfail =>
    have hnet : ((s.bump Obj.cmdTaken).refusedEffects (.net c) (cmdCode w) (s.takenStatus (.net c) w rest) (takenPayload w rest)).net
        = s.net := by
      rw [State.refusedEffects_net, ho]
    rw [State.takeCommand_refused hfail, State.answer_conn (by rw [hnet]; exact h), hnet, respWords, if_neg hfail]

/-- The state in which a complete command has come in on a connection. -/
def State.commandIn (c : Fin 4) (words : List Word) (s : State) : State :=
  s.modConn c (fun x => { x with cmdT := s.time.now, queue := x.queue ++ [words] })

theorem exec_netCommand {c : Fin 4} {words : List Word} {s : State} (hask : s.askard = true)
    (hopen : (s.net.conns.get c).open_ = true) (htls : (s.net.conns.get c).tls = true) (hwords : words ≠ []) :
    exec (.netCommand c words) s = .next (if (s.commandIn c words).nextSource = some (.net c)
      then ((s.commandIn c words).takeConn c).settle else s.commandIn c words) :=
  if_pos (by simp [hask, hopen, htls, hwords])

theorem State.commandIn_conn (c : Fin 4) (words : List Word) (s : State) : (s.commandIn c words).net.conns.get c
    = { s.net.conns.get c with cmdT := s.time.now, queue := (s.net.conns.get c).queue ++ [words] } := Quad.get_set_same ..

/-- A command waits while the connection has one executing, and while `MB0` has one to take. -/
theorem State.commandIn_waits {c : Fin 4} {words : List Word} {s : State}
    (h : (s.net.conns.get c).job ≠ none ∨ s.takeable 0 = true) : (s.commandIn c words).nextSource ≠ some (.net c) := by
  intro hnext
  rcases h with hjob | hfirst
  · have htake : (s.commandIn c words).takeableConn c = true := State.nextSource_takeable hnext
    unfold State.takeableConn at htake
    rw [State.commandIn_conn] at htake
    simp only [Bool.and_eq_true, Option.isNone_iff_eq_none] at htake
    exact hjob htake.1.2
  · have hnext0 : (s.commandIn c words).nextSource = some (.mb 0) := State.nextSource_first hfirst
    exact Source.noConfusion (Option.some.inj (hnext0.symm.trans hnext))

/-- The state in which the one command that waits on a connection is taken. -/
def State.commandOut (c : Fin 4) (words : List Word) (s : State) : State :=
  ((s.commandIn c words).modCmd (fun m => { m with rr := 4 + c.val })).modConn c (fun k => { k with queue := [] })

theorem State.commandOut_conn (c : Fin 4) (words : List Word) (s : State) : (s.commandOut c words).net.conns.get c
    = { s.net.conns.get c with cmdT := s.time.now, queue := [] } := by
  refine (Quad.get_set_same ..).trans ?_
  exact congrArg (fun k : Conn => { k with queue := [] }) (s.commandIn_conn c words)

theorem State.takeConn_commandIn {c : Fin 4} {w : Word} {rest : List Word} {s : State} (h : (s.net.conns.get c).queue = []) :
    (s.commandIn c (w :: rest)).takeConn c = (s.commandOut c (w :: rest)).takeCommand (.net c) w rest := by
  unfold State.takeConn
  rw [State.commandIn_conn, h]
  rfl

/-- The status a command is taken with is that of its checks as it came in. -/
theorem State.commandOut_status {c : Fin 4} {w : Word} {rest : List Word} {s : State} (hlen : cmdLen w ≤ 63)
    (hcode : cmdCode w ∈ allCodes) : (s.commandOut c (w :: rest)).takenStatus (.net c) w rest
      = s.check (.net c) (s.net.conns.get c).role (cmdCode w) (takenPayload w rest) := by
  have hrole : (s.commandOut c (w :: rest)).roleOf (.net c) = (s.net.conns.get c).role := by
    show ((s.commandOut c (w :: rest)).net.conns.get c).role = _
    rw [State.commandOut_conn]
  rw [State.takenStatus_known hlen hcode, hrole]
  rfl

/-- Two changes of a connection that agree on it as it stands. -/
theorem State.modConn_congr {c : Fin 4} {f g : Conn → Conn} {s : State} (h : f (s.net.conns.get c) = g (s.net.conns.get c)) :
    s.modConn c f = s.modConn c g := congrArg (fun k => { s with net := { s.net with conns := s.net.conns.set c k } }) h

/-- A command that is next is taken as it comes in: what it leaves on its connection, and that it is counted. -/
theorem State.takeConn_leaves {c : Fin 4} {w : Word} {rest : List Word} {s : State} (hopen : (s.net.conns.get c).open_ = true)
    (hqueue : (s.net.conns.get c).queue = []) :
    (((s.commandIn c (w :: rest)).takeConn c).net.conns.get c
      = if (s.commandOut c (w :: rest)).takenStatus (.net c) w rest = 0
        then { s.net.conns.get c with
          cmdT := s.time.now, queue := [], job := some (takenJob (s.net.conns.get c).role w rest) }
        else { s.net.conns.get c with
          cmdT := s.time.now, queue := []
          sent := [respWord ((s.commandOut c (w :: rest)).takenStatus (.net c) w rest) (cmdTag w) 0] })
    ∧ (s.rd Obj.cmdTaken < 0xFFFFFFFF → ((s.commandIn c (w :: rest)).takeConn c).rd Obj.cmdTaken = s.rd Obj.cmdTaken + 1) := by
  have hconn := s.commandOut_conn c (w :: rest)
  rw [State.takeConn_commandIn hqueue]
  refine ⟨?_, ((s.commandOut c (w :: rest)).takeCommand_rest (.net c) w rest).2.2⟩
  rw [State.takeCommand_conn (by rw [hconn]; exact hopen), hconn]

end Sys2Proof.Machine
end

section
/-! Deliveries and their items (R174 to R177, R417; O45). -/

namespace Sys2Proof.Machine

open Sys2Proof

/-! ## Subscriptions -/

/-- A change of a subscription that is active. -/
theorem State.sub_modSub {j : Nat} {s : State} (f : Sub → Sub) (h : (s.sub j).active = true) : (s.modSub j f).sub j = f (s.sub j) := by
  have hj : j < s.cmd.subs.length := by
    by_contra hout
    have hnone : s.sub j = {} := by
      unfold State.sub
      rw [List.getD_eq_default _ _ (Nat.le_of_not_lt hout)]
    rw [hnone] at h
    exact Bool.false_ne_true h
  show (s.cmd.subs.set j (f (s.sub j))).getD j {} = _
  rw [List.getD_eq_getElem?_getD, List.getElem?_set_self hj, Option.getD_some]

/-- A subscription whose open delivery has been formed. -/
def Sub.delivered (x : Sub) : Sub := { x with seqNo := (x.seqNo + 1) % 2 ^ 32, items := [], nItems := 0 }

/-! ## What leaves by the switch keeps -/

/-- Changes in turn commute with what each of them commutes with. -/
theorem forAll_comm {α : Type} {g : State → State} {f : α → State → State} (hf : ∀ a x, f a (g x) = g (f a x)) (l : List α) (s : State) :
    forAll l f (g s) = g (forAll l f s) := by
  unfold forAll
  induction l generalizing s with
  | nil => rfl
  | cons a l ih => exact (congrArg (List.foldl (fun x a => f a x) · l) (hf a s)).trans (ih (f a s))

theorem State.bump_modCmd (a : Nat) (f : CmdSt → CmdSt) (s : State) : (s.modCmd f).bump a = (s.bump a).modCmd f := by
  unfold State.bump State.bumpTo
  rw [State.modCmd_rd]
  split <;> rfl

theorem State.queuePut_modCmd (f : CmdSt → CmdSt) (q : Nat) (bc : Bool) (e : EgressFrame) (s : State) :
    (s.modCmd f).queuePut q bc e = (s.queuePut q bc e).modCmd f := by
  unfold State.queuePut
  rw [show (s.modCmd f).queueFull q bc e = s.queueFull q bc e from rfl]
  split
  · exact State.bump_modCmd ..
  · rfl

/-- What waits in TCP enters the queues whatever the bookkeeping of chapter 5 holds. -/
theorem State.tcpPush_modCmd (f : CmdSt → CmdSt) (s : State) : (s.modCmd f).tcpPush = s.tcpPush.modCmd f := by
  unfold State.tcpPush
  refine forAll_comm (g := fun x => x.modCmd f) (fun e x => ?_) s.net.tcpOut (s.modNet (fun n => { n with tcpOut := [] }))
  split
  · exact forAll_comm (g := fun x => x.modCmd f) (fun p y => State.queuePut_modCmd f p false _ y) _ x
  · rfl

theorem State.bump_cmd_net (a : Nat) (s : State) : (s.bump a).cmd = s.cmd ∧ (s.bump a).net = s.net := by
  obtain ⟨o, ho⟩ := State.bump_only a s
  rw [ho]
  exact ⟨rfl, rfl⟩

theorem State.queuePut_cmd (q : Nat) (bc : Bool) (e : EgressFrame) (s : State) : (s.queuePut q bc e).cmd = s.cmd := by
  unfold State.queuePut
  split
  · exact State.bump_cmd ..
  · rfl

theorem State.tcpPush_cmd (s : State) : s.tcpPush.cmd = s.cmd := by
  unfold State.tcpPush
  refine forAll_keeps (g := State.cmd) (fun e x => ?_) _ _
  split
  · exact forAll_keeps (g := State.cmd) (fun p y => State.queuePut_cmd p false _ y) _ x
  · rfl

theorem State.ownSend_cmd (ports : List Nat) (f : OwnFrame) (s : State) : (s.ownSend ports f).cmd = s.cmd :=
  forAll_keeps (g := State.cmd) (fun p y => (State.queuePut_cmd p false f.frame y.tcpPush).trans y.tcpPush_cmd) ports s

/-! ## A delivery closed (R174 to R176) -/

/-- On the host port with MB2's queue full, a delivery is dropped. -/
theorem State.sendDelivery_full {j : Nat} {ws : List Word} {s : State} (hpath : (s.sub j).udp = false)
    (hfull : 8 ≤ s.cmd.mb2Queue.length) : s.sendDelivery j ws = s.dropDelivery j true :=
  (if_neg (by rw [hpath]; exact Bool.false_ne_true)).trans (if_pos hfull)

/-- On the host port with room in MB2's queue and within its rate, a delivery joins the queue. -/
theorem State.sendDelivery_mb2 {j : Nat} {ws : List Word} {s : State} (hpath : (s.sub j).udp = false)
    (hroom : s.cmd.mb2Queue.length < 8) (hrate : (s.recentRate s.cmd.rateMb2).length < 2000) :
    s.sendDelivery j ws = s.modCmd (fun c => { c with
      mb2Queue := c.mb2Queue ++ [ws], rateMb2 := s.time.now :: s.recentRate s.cmd.rateMb2 }) :=
  (if_neg (by rw [hpath]; exact Bool.false_ne_true)).trans ((if_neg (Nat.not_le.mpr hroom)).trans (if_neg (Nat.not_le.mpr hrate)))

/-- No datagram leaves: its path's rate is used up, or every port it would leave by has a full queue. -/
def State.udpHeld (d : Datagram) (s : State) : Prop :=
  20000 ≤ (s.recentRate s.cmd.rateUdp).length
    ∨ (s.portsTo d.dstIp ≠ [] ∧ ∀ q ∈ s.portsTo d.dstIp, s.tcpPush.queueFull q false (OwnFrame.datagram d).frame = true)

/-- A datagram that carries a delivery leaves. -/
def State.udpSend (j : Nat) (d : Datagram) (s : State) : State :=
  (((s.ownSend (s.portsTo d.dstIp) (.datagram d)).modCmd (fun c => { c with
    udpSent := d :: c.udpSent, rateUdp := s.time.now :: s.recentRate s.cmd.rateUdp })).wr (Obj.connDgrams (s.sub j).conn.val)
    (s.rd (Obj.connDgrams (s.sub j).conn.val) + 1)).bump (Obj.subSent j)

theorem State.sendDelivery_held {j : Nat} {ws : List Word} {s : State} (hpath : (s.sub j).udp = true)
    (h : s.udpHeld (s.datagram (s.sub j).conn ws)) : s.sendDelivery j ws = s.dropDelivery j false := by
  refine (if_pos hpath).trans ?_
  rcases h with hrate | ⟨hports, hfull⟩
  · exact if_pos hrate
  · dsimp only
    split
    · rfl
    · refine if_pos ?_
      simpa [hports] using hfull

theorem State.sendDelivery_udp {j : Nat} {ws : List Word} {s : State} (hpath : (s.sub j).udp = true)
    (h : ¬ s.udpHeld (s.datagram (s.sub j).conn ws)) :
    s.sendDelivery j ws = s.udpSend j (s.datagram (s.sub j).conn ws) := by
  obtain ⟨hrate, hports⟩ := not_or.mp h
  refine (if_pos hpath).trans ((if_neg hrate).trans ((if_neg (fun hheld => hports ?_)).trans rfl))
  simpa using hheld

/-- The open delivery of an active subscription formed, before it leaves. -/
def State.shipped (j : Nat) (s : State) : State := s.modSub j Sub.delivered

theorem State.shipped_sub {j : Nat} {s : State} (h : (s.sub j).active = true) : (s.shipped j).sub j = (s.sub j).delivered :=
  State.sub_modSub Sub.delivered h

theorem State.closeDelivery_shipped {j : Nat} {s : State} (h : (s.sub j).nItems ≠ 0) :
    s.closeDelivery j = (s.shipped j).sendDelivery j (s.deliveryWords j) := if_neg h

theorem State.shipped_udpHeld (j : Nat) (d : Datagram) (s : State) : (s.shipped j).udpHeld d ↔ s.udpHeld d := by
  have hpush : (s.shipped j).tcpPush = s.tcpPush.shipped j := State.tcpPush_modCmd _ s
  unfold State.udpHeld
  rw [hpush]
  rfl

/-- A datagram sent: its entry, its number counted, nothing of the clocks. -/
theorem State.udpSend_leaves {j : Nat} (hj : j < 8) (d : Datagram) (s : State) : (s.udpSend j d).cmd.udpSent = d :: s.cmd.udpSent
    ∧ (s.udpSend j d).rd (Obj.connDgrams (s.sub j).conn.val) = s.rd (Obj.connDgrams (s.sub j).conn.val) + 1
    ∧ (s.udpSend j d).time = s.time := by
  have hne : Obj.connDgrams (s.sub j).conn.val ≠ Obj.subSent j := by
    unfold Obj.connDgrams Obj.subSent
    omega
  unfold State.udpSend
  refine ⟨?_, ?_, ?_⟩
  · rw [State.bump_cmd, State.wr_cmd, State.modCmd_cmd, State.ownSend_cmd]
  · rw [State.rd_bump_ne _ hne, State.rd_wr_same]
  · rw [State.bump_time, State.wr_time, State.modCmd_time, State.ownSend_time]

/-- A drop of a delivery: counted, and for MB2's full queue signalled. -/
theorem State.dropDelivery_leaves (j : Nat) (full : Bool) (s : State) : (s.dropDelivery j full).cmd = s.cmd
    ∧ (s.dropDelivery j full).net = s.net
    ∧ (s.rd (Obj.subDropped j) < 0xFFFFFFFF → (s.dropDelivery j full).rd (Obj.subDropped j) = s.rd (Obj.subDropped j) + 1) := by
  obtain ⟨hcmd, hnet⟩ := State.bump_cmd_net (Obj.subDropped j) s
  cases full with
  | false => exact ⟨hcmd, hnet, s.rd_bump_same⟩
  | true => exact ⟨hcmd, hnet, s.rd_bump_same⟩

theorem State.dropDelivery_full (j : Nat) (s : State) : (s.dropDelivery j true).host.irqFlags.getLsbD 14 = true
    ∧ (s.dropDelivery j true).host.streamDrop = min (s.host.streamDrop + 1) 0xFFFFFFFF := by
  refine ⟨(State.setIrq_flag _ 14 (by decide)).trans (Bool.or_true _), ?_⟩
  show min ((s.bump (Obj.subDropped j)).host.streamDrop + 1) 0xFFFFFFFF = _
  rw [State.bump_host]

/-! ## The instructions -/

theorem exec_deliveryClose {j : Fin 8} {s : State} (hact : (s.sub j.val).active = true) (hitems : (s.sub j.val).nItems ≠ 0) :
    exec (.deliveryClose j) s = .next ((s.atT ((s.sub j.val).firstT + ageLimit (s.sub j.val).udp)).closeDelivery j.val) :=
  if_pos (by simp [hact, hitems])

/-- The subscription of a delivery that closes is the one it was at that instant. -/
theorem exec_deliveryClose_idle {j : Fin 8} {s : State} (h : (s.sub j.val).active = false ∨ (s.sub j.val).nItems = 0) :
    exec (.deliveryClose j) s = .next s := if_neg (by rcases h with h | h <;> simp [h])

/-- The open delivery closes at the age of its first item (R175). -/
theorem exec_deliveryClose_sends {j : Fin 8} {s w : State} (hw : w = s.atT ((s.sub j.val).firstT + ageLimit (s.sub j.val).udp))
    (hact : (s.sub j.val).active = true) (hitems : (s.sub j.val).nItems ≠ 0) :
    exec (.deliveryClose j) s = .next ((w.shipped j.val).sendDelivery j.val (s.deliveryWords j.val))
      ∧ (w.shipped j.val).sub j.val = (s.sub j.val).delivered := by
  have hsub : w.sub j.val = s.sub j.val := congrArg (fun c : CmdSt => c.subs.getD j.val {}) (hw ▸ s.atT_cmd _)
  have hwords : w.deliveryWords j.val = s.deliveryWords j.val := by
    unfold State.deliveryWords
    rw [hsub]
  rw [exec_deliveryClose hact hitems, ← hw, State.closeDelivery_shipped (by rw [hsub]; exact hitems), hwords, ← hsub]
  exact ⟨rfl, State.shipped_sub (by rw [hsub]; exact hact)⟩

section
variable {j : Fin 8} {s w : State} (hw : w = s.atT ((s.sub j.val).firstT + ageLimit (s.sub j.val).udp))
include hw

theorem shipped_now : (w.shipped j.val).time.now = max s.time.now ((s.sub j.val).firstT + ageLimit (s.sub j.val).udp) := hw ▸ s.atT_now _
theorem shipped_rd (a : Nat) : (w.shipped j.val).rd a = s.rd a := hw ▸ s.atT_rd _ a
theorem shipped_mb2Queue : (w.shipped j.val).cmd.mb2Queue = s.cmd.mb2Queue := by
  show w.cmd.mb2Queue = _
  rw [hw, State.atT_cmd]
theorem shipped_udpSent : (w.shipped j.val).cmd.udpSent = s.cmd.udpSent := by
  show w.cmd.udpSent = _
  rw [hw, State.atT_cmd]
theorem shipped_mb2Rate : (w.shipped j.val).recentRate (w.shipped j.val).cmd.rateMb2 = w.recentRate s.cmd.rateMb2 := by
  show w.recentRate w.cmd.rateMb2 = _
  rw [hw, State.atT_cmd]

variable (hact : (s.sub j.val).active = true) (hitems : (s.sub j.val).nItems ≠ 0)
include hact hitems

/-- A delivery with room in MB2's queue and within the path's rate. -/
theorem deliveryClose_mb2 (hpath : (s.sub j.val).udp = false) (hroom : s.cmd.mb2Queue.length < 8)
    (hrate : (w.recentRate s.cmd.rateMb2).length < 2000) :
    ∃ t : State, exec (.deliveryClose j) s = .next t ∧ t.cmd.mb2Queue = s.cmd.mb2Queue ++ [s.deliveryWords j.val]
      ∧ (t.sub j.val).items = [] ∧ (t.sub j.val).nItems = 0 ∧ (t.sub j.val).seqNo = ((s.sub j.val).seqNo + 1) % 2 ^ 32
      ∧ t.objs = s.objs ∧ t.time.now = max s.time.now ((s.sub j.val).firstT + 5 * msCycles) := by
  obtain ⟨hexec, hsub⟩ := exec_deliveryClose_sends hw hact hitems
  have hqueue := shipped_mb2Queue hw
  have hleft := State.sendDelivery_mb2 (j := j.val) (ws := s.deliveryWords j.val) (s := w.shipped j.val)
    (by rw [hsub]; exact hpath) (by rw [hqueue]; exact hroom) (by rw [shipped_mb2Rate hw]; exact hrate)
  refine ⟨_, hexec.trans (congrArg Host.Outcome.next hleft), ?_, ?_, ?_, ?_, hw ▸ s.atT_objs _, ?_⟩
  · rw [State.modCmd_cmd, hqueue]
  · exact congrArg Sub.items hsub
  · exact congrArg Sub.nItems hsub
  · exact congrArg Sub.seqNo hsub
  · rw [State.modCmd_time, shipped_now hw, hpath]
    rfl

/-- A delivery that meets MB2's full queue. -/
theorem deliveryClose_full (hpath : (s.sub j.val).udp = false) (hfull : 8 ≤ s.cmd.mb2Queue.length) :
    ∃ t : State, exec (.deliveryClose j) s = .next t ∧ t.cmd.mb2Queue = s.cmd.mb2Queue ∧ t.host.irqFlags.getLsbD 14 = true
      ∧ t.host.streamDrop = min (s.host.streamDrop + 1) 0xFFFFFFFF
      ∧ (s.rd (Obj.subDropped j.val) < 0xFFFFFFFF → t.rd (Obj.subDropped j.val) = s.rd (Obj.subDropped j.val) + 1) := by
  obtain ⟨hexec, hsub⟩ := exec_deliveryClose_sends hw hact hitems
  have hdrop := State.sendDelivery_full (j := j.val) (ws := s.deliveryWords j.val) (s := w.shipped j.val)
    (by rw [hsub]; exact hpath) (by rw [shipped_mb2Queue hw]; exact hfull)
  obtain ⟨hcmd, -, hcount⟩ := (w.shipped j.val).dropDelivery_leaves j.val true
  obtain ⟨hirq, hlost⟩ := (w.shipped j.val).dropDelivery_full j.val
  rw [shipped_rd hw] at hcount
  refine ⟨_, hexec.trans (congrArg Host.Outcome.next hdrop), ?_, hirq, ?_, hcount⟩
  · rw [hcmd, shipped_mb2Queue hw]
  · rw [hlost]
    show min (w.host.streamDrop + 1) 0xFFFFFFFF = _
    rw [hw, State.atT_host]

variable {d : Datagram} (hd : d = w.datagram (s.sub j.val).conn (s.deliveryWords j.val)) (hpath : (s.sub j.val).udp = true)
include hd hpath

/-- The delivery that closes on the UDP path, and what holds it. -/
theorem shipped_datagram : ((w.shipped j.val).sub j.val).udp = true
    ∧ (w.shipped j.val).datagram ((w.shipped j.val).sub j.val).conn (s.deliveryWords j.val) = d
    ∧ ((w.shipped j.val).udpHeld d ↔ 20000 ≤ (w.recentRate s.cmd.rateUdp).length ∨ (w.portsTo d.dstIp ≠ []
      ∧ ∀ q ∈ w.portsTo d.dstIp, w.tcpPush.queueFull q false (OwnFrame.datagram d).frame = true)) := by
  obtain ⟨-, hsub⟩ := exec_deliveryClose_sends hw hact hitems
  have hcmd : w.cmd = s.cmd := hw ▸ s.atT_cmd _
  rw [hsub]
  refine ⟨hpath, hd.symm, ?_⟩
  rw [State.shipped_udpHeld, State.udpHeld, hcmd]

/-- A delivery that leaves in a datagram. -/
theorem deliveryClose_udpSent (hrate : (w.recentRate s.cmd.rateUdp).length < 20000)
    (hports : w.portsTo d.dstIp = [] ∨ ∃ q ∈ w.portsTo d.dstIp, w.tcpPush.queueFull q false (OwnFrame.datagram d).frame = false) :
    ∃ t : State, exec (.deliveryClose j) s = .next t ∧ t.cmd.udpSent = d :: s.cmd.udpSent
      ∧ t.rd (Obj.connDgrams (s.sub j.val).conn.val) = s.rd (Obj.connDgrams (s.sub j.val).conn.val) + 1
      ∧ d.srcPort = s.net.streamPort ∧ d.dstPort = s.net.streamPort ∧ d.dstIp = (s.net.conns.get (s.sub j.val).conn).peer
      ∧ t.time.now = max s.time.now ((s.sub j.val).firstT + msCycles) := by
  obtain ⟨hexec, hsub⟩ := exec_deliveryClose_sends hw hact hitems
  obtain ⟨hudp, hgram, hheld⟩ := shipped_datagram hw hact hitems hd hpath
  have hfree : ¬ (w.shipped j.val).udpHeld d := by
    rw [hheld]
    rintro (hfull | ⟨hsome, hfull⟩)
    · omega
    · rcases hports with hnone | ⟨q, hq, hroom⟩
      · exact hsome hnone
      · exact Bool.false_ne_true (hroom.symm.trans (hfull q hq))
  have hleft := State.sendDelivery_udp hudp (ws := s.deliveryWords j.val) (by rw [hgram]; exact hfree)
  rw [hgram] at hleft
  obtain ⟨hlist, hnumber, htime⟩ := State.udpSend_leaves j.isLt d (w.shipped j.val)
  rw [hsub, shipped_rd hw] at hnumber
  have hnet : w.net = s.net := hw ▸ s.atT_net _
  refine ⟨_, hexec.trans (congrArg Host.Outcome.next hleft), ?_, hnumber, ?_, ?_, ?_, ?_⟩
  · rw [hlist, shipped_udpSent hw]
  · rw [hd, ← hnet]
    rfl
  · rw [hd, ← hnet]
    rfl
  · rw [hd, ← hnet]
    rfl
  · rw [htime, shipped_now hw, hpath]
    rfl

/-- A delivery that its rate or the queues of its ports hold is dropped. -/
theorem deliveryClose_udpHeld (hstop : 20000 ≤ (w.recentRate s.cmd.rateUdp).length ∨ (w.portsTo d.dstIp ≠ []
      ∧ ∀ q ∈ w.portsTo d.dstIp, w.tcpPush.queueFull q false (OwnFrame.datagram d).frame = true)) :
    ∃ t : State, exec (.deliveryClose j) s = .next t ∧ t.cmd.udpSent = s.cmd.udpSent ∧ t.net = s.net
      ∧ (s.rd (Obj.subDropped j.val) < 0xFFFFFFFF → t.rd (Obj.subDropped j.val) = s.rd (Obj.subDropped j.val) + 1) := by
  obtain ⟨hexec, -⟩ := exec_deliveryClose_sends hw hact hitems
  obtain ⟨hudp, hgram, hheld⟩ := shipped_datagram hw hact hitems hd hpath
  have hdrop := State.sendDelivery_held hudp (ws := s.deliveryWords j.val) (by rw [hgram, hheld]; exact hstop)
  obtain ⟨hcmd, hnet, hcount⟩ := (w.shipped j.val).dropDelivery_leaves j.val false
  rw [shipped_rd hw] at hcount
  refine ⟨_, hexec.trans (congrArg Host.Outcome.next hdrop), ?_, ?_, hcount⟩
  · rw [hcmd, shipped_udpSent hw]
  · rw [hnet]
    exact hw ▸ s.atT_net _

end

/-- A sample that fits joins the open delivery. -/
theorem State.streamItem_fits {j ns : Nat} {ws : List Word} {s : State}
    (h : (s.sub j).items.length + ws.length ≤ deliveryRoom (s.sub j).udp) :
    s.streamItem j ns ws = s.modSub j (fun x => { x with
      items := x.items ++ ws, nItems := x.nItems + 1, first := if x.nItems = 0 then ns else x.first
      firstT := if x.nItems = 0 then s.time.now else x.firstT }) := by
  unfold State.streamItem
  dsimp only
  rw [if_neg (Nat.not_lt.mpr h)]

/-- A change of a subscription leaves the rest of the state. -/
theorem State.modSub_rest {j : Nat} {f : Sub → Sub} {c : CmdSt} {s : State} (h : s.cmd = c) : { s.modSub j f with cmd := c } = s := by
  rw [← h]
  rfl

/-- A sample due of a subscription joins its open delivery where it fits. -/
theorem objectSample_joins {j : Fin 8} {ws : List Word} {s w : State} (hact : (s.sub j.val).active = true)
    (hsource : (s.sub j.val).source = 1)
    (hw : w = (s.atT (s.sub j.val).nextT).modSub j.val (fun y => { y with nextT := y.nextT + y.period * msCycles }))
    (hws : ws = (s.sub j.val).addrs.flatMap (fun a => (w.getWords (w.ownerRole (s.sub j.val).owner) a).take 1))
    (hroom : (s.sub j.val).items.length + ws.length ≤ deliveryRoom (s.sub j.val).udp) :
    ∃ t : State, exec (.objectSampleTick j) s = .next t ∧ (t.sub j.val).items = (s.sub j.val).items ++ ws
      ∧ (t.sub j.val).nItems = (s.sub j.val).nItems + 1
      ∧ (t.sub j.val).nextT = (s.sub j.val).nextT + (s.sub j.val).period * msCycles
      ∧ { t with cmd := s.cmd } = s.atT (s.sub j.val).nextT := by
  have hcmd : (s.atT (s.sub j.val).nextT).cmd = s.cmd := s.atT_cmd _
  have hat : (s.atT (s.sub j.val).nextT).sub j.val = s.sub j.val := congrArg (fun c : CmdSt => c.subs.getD j.val {}) hcmd
  have hsub : w.sub j.val = { s.sub j.val with nextT := (s.sub j.val).nextT + (s.sub j.val).period * msCycles } := by
    rw [hw, State.sub_modSub _ (by rw [hat]; exact hact), hat]
  have hexec : exec (.objectSampleTick j) s = .next (w.streamItem j.val w.stationNs ws) := by
    rw [hws, hw]
    exact if_pos (by rw [hact, hsource]; rfl)
  rw [State.streamItem_fits (by rw [hsub]; exact hroom)] at hexec
  refine ⟨_, hexec, ?_, ?_, ?_, ?_⟩
  · rw [State.sub_modSub _ (by rw [hsub]; exact hact), hsub]
  · rw [State.sub_modSub _ (by rw [hsub]; exact hact), hsub]
  · rw [State.sub_modSub _ (by rw [hsub]; exact hact), hsub]
  · show { w with cmd := s.cmd } = _
    rw [hw]
    exact State.modSub_rest hcmd

end Sys2Proof.Machine

namespace Sys2Proof

open Sys2Proof.Machine

/-- Settles O45: four connections, a handshake that gives a role or closes, commands in turn, and deliveries on their path. -/
theorem connections : Obligations.Connections := by
  unfold Obligations.Connections
  refine ⟨?_, ?_, ?_, ?_, ?_, ?_, ?_, ?_, ?_, ?_, ?_, ?_⟩
  case refine_1 =>
    intro r s hask hroute
    refine ⟨fun c hport hfree => ?_, fun h => ?_⟩
    · rw [exec_tcpConnect hask hroute, if_pos hport, hfree]
    · have hnone : (if r.dstPort = s.net.mgtPort then s.freeConn else none) = none := by
        rcases h with hport | hall
        · exact if_neg hport
        · rw [State.freeConn_none hall, ite_self]
      rw [exec_tcpConnect hask hroute, hnone]
  case refine_2 =>
    intro r s hroute
    exact if_neg (by simp [hroute])
  case refine_3 =>
    intro c user o exporter s hopen htls
    refine ⟨fun role u hcert => ?_, fun hcert => ?_, ?_⟩
    · obtain ⟨v, hexec, hlock⟩ := exec_tlsHandshake_given (exporter := exporter) hopen htls hcert
      obtain ⟨hconn, hdgrams, hkept⟩ := s.tlsUp_leaves c role u exporter
      exact ⟨_, hexec, hconn, hdgrams, hkept, hlock⟩
    · obtain ⟨hconn, -, hlock, -⟩ := State.closeConn_leaves
        (s := s.auditEvent 0x0002 (auditPath (.net c)) 0xFF 0 0 0) 0 hopen
      refine ⟨_, by rw [exec_tlsHandshakeComplete hopen htls, hcert], ?_, ?_, hlock⟩
      · rw [hconn]
      · rw [hconn]
        rfl
    · obtain ⟨hconn, -, -, htime, -⟩ := State.closeConn_leaves (s := s.atT ((s.net.conns.get c).since + 10 * secCycles)) 0
        (by rw [State.atT_net]; exact hopen)
      exact ⟨_, if_pos (by rw [hopen, htls]; rfl), by rw [hconn], by rw [htime, State.atT_now]⟩
  case refine_4 => exact tlsOk_iff
  case refine_5 =>
    intro c w rest ws s hask hopen htls hqueue hnext hlen hws
    have hcommand : s.commandIn c (w :: rest) = s.modConn c (fun x => { x with cmdT := s.time.now, queue := [w :: rest] }) :=
      State.modConn_congr (by rw [hqueue]; rfl)
    obtain ⟨hconn, hcount⟩ := State.takeConn_leaves (w := w) (rest := rest) hopen hqueue
    refine ⟨(s.commandIn c (w :: rest)).takeConn c, ?_, hcount, ?_, ?_, fun hknown hcheck => ?_, fun hunknown => ?_⟩
    · rw [exec_netCommand hask hopen htls (List.cons_ne_nil w rest), if_pos (hcommand ▸ hnext)]
    · rw [hconn]
      split <;> rfl
    · rw [hconn]
      split <;> rfl
    · show ((((s.commandIn c (w :: rest)).takeConn c).net.conns.get c)).job = _
      rw [hconn, if_pos (by rw [State.commandOut_status hlen hknown, takenPayload, ← hws]; exact hcheck), hws]
      rfl
    · have hjob : (s.net.conns.get c).job = none := by
        by_contra hbusy
        exact State.commandIn_waits (words := w :: rest) (Or.inl hbusy) (hcommand ▸ hnext)
      have hstatus := State.takenStatus_unknown (src := .net c) (rest := rest) (s := s.commandOut c (w :: rest)) hlen hunknown
      show _ ∧ ((((s.commandIn c (w :: rest)).takeConn c).net.conns.get c)).job = none
      rw [hconn, hstatus]
      exact ⟨rfl, hjob⟩
  case refine_6 =>
    intro c words s hask hopen htls hwords hbusy
    rw [exec_netCommand hask hopen htls hwords, if_neg (State.commandIn_waits hbusy)]
    rfl
  case refine_7 =>
    intro c words s htls
    exact if_neg (by simp [htls])
  case refine_8 =>
    intro c s hopen
    refine ⟨?_, fun hidle => ?_, fun hnever => if_neg (by simp [hnever])⟩
    · obtain ⟨hconn, hothers, -, -, hsubs, hxfer⟩ := State.closeConn_leaves 0 hopen
      exact ⟨s.closeConn c 0, rfl, by rw [hconn], by rw [hconn], by rw [hconn], hsubs, hxfer, hothers⟩
    · obtain ⟨hconn, -, -, htime, hsubs, -⟩ := State.closeConn_leaves
        (s := s.atT ((s.net.conns.get c).cmdT + s.rdN Obj.netIdleS * secCycles)) 1 (by rw [State.atT_net]; exact hopen)
      exact ⟨_, if_pos (by rw [hopen, decide_eq_true hidle]; rfl), by rw [hconn], by rw [htime, State.atT_now], hsubs⟩
  case refine_9 =>
    intro j s w hw hact hitems
    exact ⟨deliveryClose_mb2 hw hact hitems, deliveryClose_full hw hact hitems, fun d hd hpath =>
      ⟨deliveryClose_udpSent hw hact hitems hd hpath, deliveryClose_udpHeld hw hact hitems hd hpath⟩⟩
  case refine_10 => exact fun j s h => exec_deliveryClose_idle h
  case refine_11 => exact fun j ws s w hact hsource hw hws hroom => objectSample_joins hact hsource hw hws hroom
  case refine_12 =>
    intro j s h
    exact if_neg (by rcases h with h | h <;> simp [h])

end Sys2Proof
end

section
/-! The account of a loaf's edges and wants up to an instant (R183, R184, R208), and what it leaves of the loaf's unit. -/

namespace Sys2Proof.Machine

open Sys2Proof

/-- A loaf's unit without the account of its edges and wants. -/
def LoafSt.unaccounted (l : LoafSt) : LoafSt :=
  { l with evtCount := [], evtFired := 0, evtOven := 0, lines := [], high := 0, legs := [], sigT := 0 }

/-- Of the state the account of loaf `n` alone may have changed. -/
def Accounted (n : Fin 4) (s t : State) : Prop :=
  ∃ l : LoafSt, l.unaccounted = (s.loaf.get n).unaccounted ∧ t = { s with loaf := s.loaf.set n l }

theorem Accounted.refl (n : Fin 4) (s : State) : Accounted n s s := ⟨s.loaf.get n, rfl, by rw [Quad.set_get_self]⟩
theorem Accounted.trans {n : Fin 4} {s t u : State} (h : Accounted n s t) (k : Accounted n t u) : Accounted n s u := by
  obtain ⟨l, hl, rfl⟩ := h
  obtain ⟨m, hm, rfl⟩ := k
  refine ⟨m, ?_, by rw [Quad.set_set_same]⟩
  rw [hm, Quad.get_set_same, hl]
theorem accounted_modLoaf {n : Fin 4} {f : LoafSt → LoafSt} (hf : ∀ l, (f l).unaccounted = l.unaccounted) (s : State) :
    Accounted n s (s.modLoaf n f) := ⟨_, hf _, rfl⟩

theorem accounted_occur (n : Fin 4) (src k : Nat) (s : State) : Accounted n s (s.occur n src k) := by
  unfold State.occur
  split
  · exact Accounted.refl n s
  · refine forAll_rel (Accounted.refl n) Accounted.trans (fun x _ y => ?_) s
    dsimp only
    split
    · refine accounted_modLoaf ?_ y
      exact fun _ => rfl
    · exact Accounted.refl n y

theorem accounted_phaseEdges (n : Fin 4) (p g e : Nat) (s : State) : Accounted n s (s.phaseEdges n p g e) := by
  unfold State.phaseEdges
  split
  · exact Accounted.refl n s
  · refine ((accounted_occur ..).trans (accounted_occur ..)).trans (accounted_modLoaf ?_ _)
    exact fun _ => rfl

theorem accounted_pwmTo (n : Fin 4) (s : State) : Accounted n s (s.pwmTo n) := by
  unfold State.pwmTo
  extract_lets l e wants s1
  split
  · exact Accounted.refl n s
  · have h1 : Accounted n s s1 := by
      unfold s1
      split
      · exact forAll_rel (Accounted.refl n) Accounted.trans (fun p _ x => accounted_phaseEdges n p _ _ x) s
      · exact Accounted.refl n s
    refine h1.trans (accounted_modLoaf ?_ s1)
    exact fun _ => rfl

/-! ## The gap of a cycle-mode trip (R201) -/

/-- A loaf's unit without its gap and the count of it. -/
def LoafSt.ungapped (l : LoafSt) : LoafSt := { l with gap := false, gapCounted := false }

/-- A gap that begins changes its loaf and `CYCLE_TRIPS` alone. -/
theorem State.gapBegin_only (n : Fin 4) (s : State) :
    ∃ (l : LoafSt) (o : Store), s.gapBegin n = { s with loaf := s.loaf.set n l, objs := o } ∧ l.gap = true
      ∧ l.ungapped = (s.loaf.get n).ungapped ∧ ∀ a, a ≠ Obj.cycleTrips n.val → o.get a = s.rd a := by
  unfold State.gapBegin
  dsimp only
  split
  · obtain ⟨o, ho⟩ := State.bump_only (Obj.cycleTrips n.val) (s.modLoaf n (fun l => { l with gap := true }))
    refine ⟨{ s.loaf.get n with gap := true, gapCounted := true }, o, ?_, rfl, rfl, fun a ha => ?_⟩
    · rw [ho]
      unfold State.modLoaf
      simp only [Quad.get_set_same, Quad.set_set_same]
    · have hrd := State.rd_bump_ne (s.modLoaf n (fun l => { l with gap := true })) ha
      rw [ho] at hrd
      exact hrd
  · exact ⟨{ s.loaf.get n with gap := true }, s.objs, rfl, rfl, rfl, fun _ _ => rfl⟩

end Sys2Proof.Machine
end

section
/-! Trips (R198 to R203, R211, R341, R350, R521; O39). -/

namespace Sys2Proof.Machine

open Sys2Proof

/-! ## Levels (R198, R199) -/

theorem putLevel_get (i : Nat) {j : Nat} (n m : Fin 4) (b : Bool) (q : Quad (BitVec 16)) (hj : j < 16) :
    ((putLevel i n b q).get m).getLsbD j = if m = n ∧ j = i then b else (q.get m).getLsbD j := by
  unfold putLevel
  by_cases hm : m = n
  · subst hm
    rw [Quad.get_set_same, BitVec.getLsbD_ofNat, decide_eq_true hj, Bool.true_and, testBit_putBit]
    simp [BitVec.getLsbD]
  · rw [Quad.get_set_ne _ _ hm, if_neg (fun h => hm h.1)]

/-- A change of a source's synchronised level, wherever it is seen, is one of the synchronised levels alone. -/
theorem setSyncs_only (i : Nat) (b : Bool) (l : List (Fin 4)) (s : State) :
    ∃ q, forAll l (fun m x => x.setSync i m b) s = { s with tripSync := q } := by
  unfold forAll
  induction l generalizing s with
  | nil => exact ⟨s.tripSync, rfl⟩
  | cons m l ih =>
    obtain ⟨q, hq⟩ := ih (s.setSync i m b)
    exact ⟨q, hq⟩

/-- A change of a source's filtered level at several loaves is one of its level there. -/
theorem setTrips_only (i : Nat) (b : Bool) (l : List (Fin 4)) (s : State) :
    ∃ q, forAll l (fun m x => x.setTrip i m b) s = { s with trip := q }
      ∧ ∀ m, ∀ j < 16, (q.get m).getLsbD j = if m ∈ l ∧ j = i then b else (s.trip.get m).getLsbD j := by
  unfold forAll
  induction l generalizing s with
  | nil => exact ⟨s.trip, rfl, fun m j _ => by simp⟩
  | cons n l ih =>
    obtain ⟨q, hq, hlevel⟩ := ih (s.setTrip i n b)
    refine ⟨q, hq, fun m j hj => ?_⟩
    rw [hlevel m j hj, show (s.setTrip i n b).trip = putLevel i n b s.trip from rfl, putLevel_get i n m b _ hj]
    by_cases hji : j = i <;> by_cases hm : m ∈ l <;> simp [hji, hm]

theorem mem_units4 (n : Fin 4) : n ∈ units4 := by revert n; decide

/-- A level that stands at a loaf is on as the loaf sees it. -/
theorem tripOn_of_level {i : Nat} {n : Fin 4} {s : State} (h : (s.trip.get n).getLsbD i = true) : s.tripOn i n = true := by
  unfold State.tripOn
  split
  · exact h
  · exact List.any_eq_true.mpr ⟨n, mem_units4 n, h⟩

/-- A level depends on the filtered levels of its source alone. -/
theorem tripOn_congr {i : Nat} {n : Fin 4} {s t : State} (h : ∀ m, (t.trip.get m).getLsbD i = (s.trip.get m).getLsbD i) :
    t.tripOn i n = s.tripOn i n := by
  unfold State.tripOn
  simp only [h]

/-! ## The filter (R199, R521) -/

theorem filterTakes_pad_sure {f ns : Nat} (free : Bool) (h : (f + 2) * 5 ≤ ns) : filterTakes true f ns free = true := by
  unfold filterTakes
  rw [if_pos rfl, if_pos h]
theorem filterTakes_pad_never {f ns : Nat} (free : Bool) (hf : 2 ≤ f) (h : ns < (f - 1) * 5) : filterTakes true f ns free = false := by
  unfold filterTakes
  rw [if_pos rfl, if_neg (by omega), if_pos ⟨hf, h⟩]

/-! ## Free values drawn -/

/-- The state with `k` free values drawn. -/
def State.freeAt (k : Nat) (s : State) : State := { s with freeNo := k }

theorem State.freeAt_isPending (k : Nat) (s : State) (code inst : Half) : (s.freeAt k).isPending code inst = s.isPending code inst := rfl

/-- A quiet change stays one with the free values drawn. -/
theorem Quiet.freeAt {s t : State} (h : Quiet s t) (k : Nat) : Quiet (s.freeAt k) (t.freeAt k) :=
  ⟨congrArg (State.freeAt k) h.1, h.2⟩

/-- The state with the synchronised levels `q` (R199). -/
def State.syncAt (q : Quad (BitVec 16)) (s : State) : State := { s with tripSync := q }

theorem State.syncAt_tripOn (q : Quad (BitVec 16)) (s : State) (i : Nat) (n : Fin 4) : (s.syncAt q).tripOn i n = s.tripOn i n := rfl
theorem State.syncAt_rd (q : Quad (BitVec 16)) (s : State) (a : Nat) : (s.syncAt q).rd a = s.rd a := rfl
theorem State.syncAt_loaf (q : Quad (BitVec 16)) (s : State) : (s.syncAt q).loaf = s.loaf := rfl

/-! ## A change of level (R199) -/

theorem State.tripLive_atT (s : State) (t i : Nat) (n : Fin 4) : (s.atT t).tripLive i n = s.tripLive i n := by
  unfold State.tripLive State.regionUp State.has
  rw [State.atT_boot, State.atT_variant]
theorem State.detects_atT (s : State) (t i : Nat) (n : Fin 4) : (s.atT t).detects i n = s.detects i n := by
  unfold State.detects State.role State.rdN
  simp only [State.atT_conv, State.atT_rd]
theorem State.tripFilt_atT (s : State) (t i : Nat) : (s.atT t).tripFilt i = s.tripFilt i := by
  unfold State.tripFilt State.rdN
  rw [State.atT_rd]
theorem State.mapNibble_atT (s : State) (t i : Nat) (n : Fin 4) : (s.atT t).mapNibble i n = s.mapNibble i n := by
  unfold State.mapNibble State.rdN
  rw [State.atT_rd]
theorem State.tripOn_atT (s : State) (t i : Nat) (n : Fin 4) : (s.atT t).tripOn i n = s.tripOn i n :=
  tripOn_congr (fun m => by rw [State.atT_trip])

/-- A source's level comes to a loaf: the source exists for it, and a detector's level is what its samples make of it. -/
def State.levelComes (s : State) (i : Nat) (n : Fin 4) (level : Bool) : Prop :=
  s.tripLive i n = true ∧ (i = 12 ∨ i = 13 → s.detects i n = level)

theorem State.levelComes_atT {s : State} {i : Nat} {n : Fin 4} {level : Bool} (t : Nat) (h : s.levelComes i n level) :
    (s.atT t).levelComes i n level := by
  unfold State.levelComes
  rw [State.tripLive_atT, State.detects_atT]
  exact h

/-- One that does not come, or ends a level that stands until reset, changes nothing (R198). -/
theorem State.tripEdge_idle {s : State} {i ns : Nat} {n : Fin 4} {level : Bool}
    (h : ¬ s.levelComes i n level ∨ (14 ≤ i ∧ level = false)) : s.tripEdge i n level ns = s := by
  unfold State.tripEdge
  refine if_pos ?_
  unfold State.levelComes at h
  rcases h with h | ⟨hi, rfl⟩
  · by_cases hlive : s.tripLive i n = true
    · have hdet : (i = 12 ∨ i = 13) ∧ s.detects i n ≠ level := by
        by_contra hno
        exact h ⟨hlive, fun hi => by_contra fun hne => hno ⟨hi, hne⟩⟩
      simp [hdet]
    · simp [hlive]
  · simp [hi]

/-- A level that comes moves the synchronised level and draws the pad's free value, and what the filter takes rises or falls. -/
theorem State.tripEdge_comes {s : State} {i ns : Nat} {n : Fin 4} {level : Bool} (h : s.levelComes i n level)
    (hi : i < 14 ∨ level = true) : ∃ (q : Quad (BitVec 16)) (k : Nat), s.tripEdge i n level ns =
      (if filterTakes (decide (i < 12)) (s.tripFilt i) ns (Config.filterFree s.freeNo)
        then (if level then (s.syncAt q).tripRise i n else (s.syncAt q).tripFall i n) else s.syncAt q).freeAt k := by
  obtain ⟨hlive, hdet⟩ := h
  have hidle : ¬ (!s.tripLive i n || (decide (i = 12 ∨ i = 13) && s.detects i n != level) || (decide (14 ≤ i) && !level)) = true := by
    have h14 : ¬ (14 ≤ i ∧ level = false) := by
      rintro ⟨hle, rfl⟩
      rcases hi with hi | hi
      · omega
      · cases hi
    simpa [hlive, not_and] using ⟨hdet, fun hle => by simpa using fun hl => h14 ⟨hle, hl⟩⟩
  unfold State.tripEdge
  rw [if_neg hidle]
  extract_lets pad free f s1 s2
  have hsync : ∃ q, s1 = s.syncAt q := by
    unfold s1
    split
    · exact setSyncs_only ..
    · exact ⟨s.tripSync, rfl⟩
  obtain ⟨q, hq⟩ := hsync
  refine ⟨q, if pad then s2.freeNo + 1 else s2.freeNo, ?_⟩
  rw [← hq]
  show _ = s2.freeAt _
  by_cases hp : pad = true
  · rw [if_pos hp, if_pos hp]
    rfl
  · rw [if_neg hp, if_neg hp]
    rfl

/-! ## An assertion (R201 to R203, R211) -/

/-- An assertion is counted once and stands, before anything comes of it (R211). -/
def State.tripAsserts (i : Nat) (n : Fin 4) (s : State) : State :=
  (if s.tripOn i n then s else s.bump (Obj.tripCount i)).setTrip i n true

theorem State.tripRise_new {s : State} {i : Nat} {n : Fin 4} (hlive : s.tripLive i n = true) (hnew : (s.trip.get n).getLsbD i = false) :
    s.tripRise i n = ((s.tripAsserts i n).tripAct i n false).settle := by
  unfold State.tripRise
  rw [if_neg (by simp [hlive, hnew])]
  rfl
theorem State.tripRise_stands {s : State} {i : Nat} {n : Fin 4} (h : (s.trip.get n).getLsbD i = true) : s.tripRise i n = s := by
  unfold State.tripRise
  rw [if_pos (by simp [h])]

/-- A saturating counter counts one more, up to its top. -/
theorem State.rd_bump_self (s : State) (a : Nat) : (s.bump a).rd a = min (s.rd a + 1) 0xFFFFFFFF := State.rd_bumpTo_same ..

/-- An assertion changes its level and its count alone. -/
theorem State.tripAsserts_only (i : Nat) (n : Fin 4) (s : State) :
    ∃ o, s.tripAsserts i n = { s with objs := o, trip := putLevel i n true s.trip }
      ∧ (∀ a, a ≠ Obj.tripCount i → o.get a = s.rd a)
      ∧ o.get (Obj.tripCount i) = if s.tripOn i n then s.rd (Obj.tripCount i) else min (s.rd (Obj.tripCount i) + 1) 0xFFFFFFFF := by
  unfold State.tripAsserts
  split
  · exact ⟨s.objs, rfl, fun _ _ => rfl, rfl⟩
  · obtain ⟨o, ho⟩ := State.bump_only (Obj.tripCount i) s
    have hget : ∀ a, o.get a = (s.bump (Obj.tripCount i)).rd a := fun a => by
      rw [ho]
      rfl
    exact ⟨o, by rw [ho]; rfl, fun a ha => (hget a).trans (State.rd_bump_ne s ha), (hget _).trans (State.rd_bump_self ..)⟩

/-- The counts of protection trips (R352). -/
def protCounts (n : Fin 4) : List Nat := [Obj.desatCount n.val, Obj.ocCount n.val, Obj.slopeCount n.val]

theorem State.countTrip_only (i : Nat) (n : Fin 4) (s : State) :
    ∃ o, s.countTrip i n = { s with objs := o } ∧ ∀ a ∉ protCounts n, o.get a = s.rd a := by
  have hbump : ∀ b ∈ protCounts n, ∃ o, s.bump b = { s with objs := o } ∧ ∀ a ∉ protCounts n, o.get a = s.rd a := fun b hb => by
    obtain ⟨o, ho⟩ := State.bump_only b s
    refine ⟨o, ho, fun a ha => ?_⟩
    rw [← State.rd_bump_ne s (fun hab : a = b => ha (hab ▸ hb)), ho]
    rfl
  have hsame : ∃ o, s = { s with objs := o } ∧ ∀ a ∉ protCounts n, o.get a = s.rd a := ⟨s.objs, rfl, fun _ _ => rfl⟩
  unfold State.countTrip
  split_ifs
  · exact hsame
  · exact hbump _ (by simp [protCounts])
  · exact hbump _ (by simp [protCounts])
  · exact hbump _ (by simp [protCounts])
  · exact hsame

/-- What a trip's fault shows of its leg before it is reported (R203, R341). -/
def State.tripMarks (i : Nat) (n : Fin 4) (s : State) : State :=
  match tripCode i false with
  | none => s
  | some _ =>
    let leg := s.tripLeg i n
    let s0 := s.modLoaf n (fun l => { l with tripLegs := (i, leg) :: l.tripLegs.filter (fun q => decide (q.1 ≠ i)) })
    if 8 ≤ i then s0.wr (Obj.protLeg n.val) (leg : Int) else s0

theorem tripCode_none (i : Nat) (cycle : Bool) : tripCode i cycle = none ↔ tripCode i false = none := by
  unfold tripCode
  split_ifs <;> simp

theorem State.tripFault_latch {i : Nat} {n : Fin 4} {s : State} {code : Half} (h : tripCode i false = some code) :
    s.tripFault i n false false = (s.tripMarks i n).latch code (mkInst n.val (s.tripLeg i n)) 0 := by
  unfold State.tripFault State.tripMarks
  rw [h]
  rfl

/-- A trip's fault is reported over what it marks. -/
theorem State.tripFault_quiet (i : Nat) (n : Fin 4) (cycle : Bool) (s : State) :
    Quiet (s.tripMarks i n) (s.tripFault i n cycle false) := by
  have hnone := tripCode_none i cycle
  unfold State.tripFault State.tripMarks
  cases hcode : tripCode i cycle with
  | none =>
    rw [hnone.mp hcode]
    exact quiet_refl s
  | some code =>
    obtain ⟨c, hc⟩ := Option.ne_none_iff_exists'.mp (fun h => Option.some_ne_none code (hcode.symm.trans (hnone.mpr h)))
    rw [hc]
    dsimp only
    cases cycle
    · exact State.latch_quiet ..
    · exact State.latchLimitedAs_mild quiet_mild (quiet_refl _)

/-- The marks are the loaf's legs of its trips and `PROT_LEG`. -/
theorem State.tripMarks_only (i : Nat) (n : Fin 4) (s : State) :
    ∃ (legs : List (Nat × Nat)) (o : Store), s.tripMarks i n = { s.modLoaf n (fun l => { l with tripLegs := legs }) with objs := o }
      ∧ ∀ a, a ≠ Obj.protLeg n.val → o.get a = s.rd a := by
  unfold State.tripMarks
  split
  · refine ⟨(s.loaf.get n).tripLegs, s.objs, ?_, fun _ _ => rfl⟩
    unfold State.modLoaf
    rw [Quad.set_get_self]
  · dsimp only
    split
    · exact ⟨_, _, rfl, fun a ha => Store.get_set_ne _ _ ha⟩
    · exact ⟨_, _, rfl, fun _ _ => rfl⟩

/-! ## What an assertion leads to (R201, R202) -/

/-- The state of a latched trip before its report (R202). -/
def State.tripLatches (i : Nat) (n : Fin 4) (s : State) : State :=
  (((s.tripAsserts i n).wrBit (Obj.tripLatch n.val) i true).countTrip i n).tripMarks i n

/-- The state of a gap before its report (R201). -/
def State.tripGaps (i : Nat) (n : Fin 4) (s : State) : State := (((s.tripAsserts i n).gapBegin n).countTrip i n).tripMarks i n

/-- A trip's marks and counts stand apart from the trip registers. -/
theorem protObjs_apart (i : Fin 16) (n : Fin 4) : ∀ a ∈ Obj.protLeg n.val :: protCounts n,
    a ≠ Obj.tripCount i.val ∧ a ≠ Obj.tripLatch n.val ∧ a ≠ Obj.cycleTrips n.val := by
  revert i n
  decide

theorem State.rd_tripMarks_countTrip {s : State} (i : Nat) {n : Fin 4} {a : Nat} (h : a ∉ Obj.protLeg n.val :: protCounts n) :
    ((s.countTrip i n).tripMarks i n).rd a = s.rd a := by
  obtain ⟨hleg, hcounts⟩ := not_or.mp (List.mem_cons.not.mp h)
  obtain ⟨legs, o, hmarks, ho⟩ := (s.countTrip i n).tripMarks_only i n
  obtain ⟨o', hcount, ho'⟩ := s.countTrip_only i n
  rw [hmarks]
  refine (ho a hleg).trans ?_
  rw [hcount]
  exact ho' a hcounts

theorem tripMap_ne_tripCount (i j : Fin 16) : Obj.tripMap i.val ≠ Obj.tripCount j.val := by
  unfold Obj.tripMap Obj.tripCount
  omega

/-- An assertion leaves the map that decides what it does. -/
theorem State.tripAsserts_mapNibble (i : Fin 16) (n m : Fin 4) (s : State) : (s.tripAsserts i.val n).mapNibble i.val m = s.mapNibble i.val m := by
  obtain ⟨o, hx, hrd, -⟩ := s.tripAsserts_only i.val n
  unfold State.mapNibble State.rdN
  rw [hx]
  exact congrArg (fun v : Int => v.toNat / 16 ^ m.val % 16) (hrd _ (tripMap_ne_tripCount i i))

theorem State.tripAct_none {i : Nat} {n : Fin 4} {s : State} (h : (s.mapNibble i n).testBit 0 = false) : s.tripAct i n false = s := by
  unfold State.tripAct
  exact if_pos (by simp [h])
theorem State.tripAct_latch {i : Nat} {n : Fin 4} {s : State} (h0 : (s.mapNibble i n).testBit 0 = true)
    (h1 : (s.mapNibble i n).testBit 1 = false) :
    s.tripAct i n false = ((s.wrBit (Obj.tripLatch n.val) i true).countTrip i n).tripFault i n false false := by
  unfold State.tripAct
  simp only [h0, h1, Bool.not_true, Bool.false_eq_true, if_false]
theorem State.tripAct_gap {i : Nat} {n : Fin 4} {s : State} (h0 : (s.mapNibble i n).testBit 0 = true)
    (h1 : (s.mapNibble i n).testBit 1 = true) :
    s.tripAct i n false = ((s.gapBegin n).countTrip i n).tripFault i n true false := by
  unfold State.tripAct
  simp only [h0, h1, Bool.not_true, Bool.false_eq_true, if_false, if_true]

/-- An assertion that leads to nothing stands and counts (R199, R211). -/
theorem State.tripAsserts_leaves (i : Fin 16) (n : Fin 4) (s : State) :
    (s.tripAsserts i.val n).tripOn i.val n = true ∧ (s.tripAsserts i.val n).loaf = s.loaf ∧ (s.tripAsserts i.val n).flt = s.flt
      ∧ ObjsKept [Obj.tripCount i.val] s (s.tripAsserts i.val n) := by
  obtain ⟨o, hx, hrd, -⟩ := s.tripAsserts_only i.val n
  rw [hx]
  refine ⟨tripOn_of_level ?_, rfl, rfl, fun a ha => hrd a (fun e => ha (List.mem_singleton.mpr e))⟩
  exact (putLevel_get i.val n n true s.trip i.isLt).trans (if_pos ⟨rfl, rfl⟩)

theorem State.tripLatches_leaves (i : Fin 16) (n : Fin 4) (s : State) :
    (s.tripLatches i.val n).rdBit (Obj.tripLatch n.val) i.val = true ∧ (s.tripLatches i.val n).tripOn i.val n = true
      ∧ (s.tripLatches i.val n).rd (Obj.tripCount i.val) = (if s.tripOn i.val n then s.rd (Obj.tripCount i.val)
        else (s.bump (Obj.tripCount i.val)).rd (Obj.tripCount i.val)) := by
  have hapart : ∀ a, a = Obj.tripCount i.val ∨ a = Obj.tripLatch n.val → a ∉ Obj.protLeg n.val :: protCounts n := by
    intro a ha hmem
    obtain ⟨hcount, hlatch, -⟩ := protObjs_apart i n a hmem
    exact ha.elim hcount hlatch
  obtain ⟨o, hx, -, hcount⟩ := s.tripAsserts_only i.val n
  refine ⟨?_, tripOn_of_level ?_, ?_⟩
  · unfold State.tripLatches
    rw [State.rdBit_of_rd (State.rd_tripMarks_countTrip i.val (hapart _ (.inr rfl))), State.rdBit_wrBit, if_pos rfl, if_pos rfl]
  · obtain ⟨legs, o1, hmarks, -⟩ := State.tripMarks_only i.val n
      (((s.tripAsserts i.val n).wrBit (Obj.tripLatch n.val) i.val true).countTrip i.val n)
    obtain ⟨o2, hcounted, -⟩ := State.countTrip_only i.val n ((s.tripAsserts i.val n).wrBit (Obj.tripLatch n.val) i.val true)
    unfold State.tripLatches
    rw [hmarks, hcounted, hx]
    exact (putLevel_get i.val n n true s.trip i.isLt).trans (if_pos ⟨rfl, rfl⟩)
  · have hne : Obj.tripCount i.val ≠ Obj.tripLatch n.val := by
      unfold Obj.tripCount Obj.tripLatch
      omega
    unfold State.tripLatches
    rw [State.rd_tripMarks_countTrip i.val (hapart _ (.inl rfl)), State.rd_wrBit_ne _ _ _ hne, State.rd_bump_self, hx]
    exact hcount

theorem State.tripGaps_leaves (i : Fin 16) (n : Fin 4) (s : State) :
    ((s.tripGaps i.val n).loaf.get n).gap = true ∧ (s.tripGaps i.val n).tripOn i.val n = true
      ∧ (s.tripGaps i.val n).rd (Obj.tripLatch n.val) = s.rd (Obj.tripLatch n.val)
      ∧ ∀ m, m ≠ n → (s.tripGaps i.val n).loaf.get m = s.loaf.get m := by
  obtain ⟨o, hx, hrd, -⟩ := s.tripAsserts_only i.val n
  obtain ⟨l, o1, hgap, hlgap, -, ho1⟩ := (s.tripAsserts i.val n).gapBegin_only n
  obtain ⟨o2, hcounted, -⟩ := ((s.tripAsserts i.val n).gapBegin n).countTrip_only i.val n
  obtain ⟨legs, o3, hmarks, -⟩ := (((s.tripAsserts i.val n).gapBegin n).countTrip i.val n).tripMarks_only i.val n
  have hlatch : Obj.tripLatch n.val ≠ Obj.tripCount i.val ∧ Obj.tripLatch n.val ≠ Obj.cycleTrips n.val := by
    unfold Obj.tripCount Obj.tripLatch Obj.cycleTrips
    omega
  have heq : s.tripGaps i.val n = { s with
      loaf := s.loaf.set n { l with tripLegs := legs }, objs := o3, trip := putLevel i.val n true s.trip } := by
    unfold State.tripGaps
    rw [hmarks, hcounted, hgap, hx]
    unfold State.modLoaf
    simp only [Quad.get_set_same, Quad.set_set_same]
  refine ⟨?_, tripOn_of_level ?_, ?_, fun m hm => ?_⟩
  · rw [heq, Quad.get_set_same]
    exact hlgap
  · rw [heq]
    exact (putLevel_get i.val n n true s.trip i.isLt).trans (if_pos ⟨rfl, rfl⟩)
  · have hmem : Obj.tripLatch n.val ∉ Obj.protLeg n.val :: protCounts n := fun h => (protObjs_apart i n _ h).2.1 rfl
    unfold State.tripGaps
    rw [State.rd_tripMarks_countTrip i.val hmem, hgap]
    refine (ho1 _ hlatch.2).trans ?_
    rw [hx]
    exact hrd _ hlatch.1
  · rw [heq]
    exact Quad.get_set_ne _ _ hm

/-! ## The instructions -/

@[simp] theorem State.atT_tripSync (s : State) (t : Nat) : (s.atT t).tripSync = s.tripSync := by unfold State.atT; split <;> rfl

/-- The filter takes a source's assertion that has not stood at the loaf. -/
def State.asserts (s : State) (i : Nat) (n : Fin 4) (ns : Nat) : Prop :=
  s.levelComes i n true ∧ filterTakes (decide (i < 12)) (s.tripFilt i) ns (Config.filterFree s.freeNo) = true
    ∧ (s.trip.get n).getLsbD i = false

theorem State.asserts_atT {s : State} {i : Nat} {n : Fin 4} {ns : Nat} (t : Nat) (h : s.asserts i n ns) : (s.atT t).asserts i n ns := by
  obtain ⟨hcomes, htakes, hnew⟩ := h
  unfold State.asserts
  rw [State.tripFilt_atT, State.atT_freeNo, State.atT_trip]
  exact ⟨State.levelComes_atT t hcomes, htakes, hnew⟩

/-- A new assertion counts, stands and acts, and all that follows does, beside the synchronised levels and the free values. -/
theorem State.tripEdge_asserts {s : State} {i : Nat} {n : Fin 4} {ns : Nat} (h : s.asserts i n ns) :
    ∃ (q : Quad (BitVec 16)) (k : Nat), s.tripEdge i n true ns =
      (((s.syncAt q).tripAsserts i n).tripAct i n false).settle.freeAt k := by
  obtain ⟨hcomes, htakes, hnew⟩ := h
  obtain ⟨q, k, hedge⟩ := State.tripEdge_comes (ns := ns) hcomes (.inr rfl)
  have hrise := State.tripRise_new (s := s.syncAt q) hcomes.1 hnew
  rw [if_pos htakes, if_pos rfl, hrise] at hedge
  exact ⟨q, _, hedge⟩

theorem State.tripEdge_latch {s : State} {i : Fin 16} {n : Fin 4} {ns : Nat} (h : s.asserts i.val n ns)
    (h0 : (s.mapNibble i.val n).testBit 0 = true) (h1 : (s.mapNibble i.val n).testBit 1 = false) :
    ∃ u : State, (∃ q k, u = (((s.syncAt q).tripLatches i.val n).freeAt k))
      ∧ Quiet u (s.tripEdge i.val n true ns)
      ∧ ∀ code, tripCode i.val false = some code → ∃ inst, instIndex inst = n.val ∧ (i.val < 8 → inst = mkInst n.val 0)
        ∧ (u.raisable code inst = true → (u.classOf code).1 ≠ .c0 → (s.tripEdge i.val n true ns).isPending code inst = true) := by
  obtain ⟨q, k, hedge⟩ := State.tripEdge_asserts h
  generalize hx : (s.syncAt q) = x at hedge
  have hmap : ∀ m, (x.tripAsserts i.val n).mapNibble i.val m = s.mapNibble i.val m := fun m => by
    rw [State.tripAsserts_mapNibble, ← hx]
    rfl
  rw [State.tripAct_latch ((hmap n).symm ▸ h0) ((hmap n).symm ▸ h1)] at hedge
  generalize hy : ((x.tripAsserts i.val n).wrBit (Obj.tripLatch n.val) i.val true).countTrip i.val n = y at hedge
  refine ⟨(y.tripMarks i.val n).freeAt k, ⟨q, k, by rw [hx, ← hy]; rfl⟩, ?_, fun code hcode => ?_⟩
  · rw [hedge]
    exact Quiet.freeAt (quiet_trans (State.tripFault_quiet ..) (State.settle_quiet _)) k
  · refine ⟨mkInst n.val (y.tripLeg i.val n), ?_, fun hi => ?_, fun hr hc => ?_⟩
    · unfold instIndex mkInst
      rw [BitVec.toNat_ofNat]
      omega
    · unfold State.tripLeg
      rw [if_pos hi]
    · rw [hedge, State.tripFault_latch hcode]
      exact (State.freeAt_isPending ..).trans (State.fault_pending hr hc)

theorem State.tripEdge_gap {s : State} {i : Fin 16} {n : Fin 4} {ns : Nat} (h : s.asserts i.val n ns)
    (h0 : (s.mapNibble i.val n).testBit 0 = true) (h1 : (s.mapNibble i.val n).testBit 1 = true) :
    ∃ q k, Quiet (((s.syncAt q).tripGaps i.val n).freeAt k) (s.tripEdge i.val n true ns) := by
  obtain ⟨q, k, hedge⟩ := State.tripEdge_asserts h
  have hmap := State.tripAsserts_mapNibble i n n (s.syncAt q)
  rw [State.tripAct_gap (hmap.symm ▸ h0) (hmap.symm ▸ h1)] at hedge
  refine ⟨q, k, ?_⟩
  rw [hedge]
  exact Quiet.freeAt (quiet_trans (State.tripFault_quiet ..) (State.settle_quiet _)) k

theorem State.tripEdge_unmapped {s : State} {i : Fin 16} {n : Fin 4} {ns : Nat} (h : s.asserts i.val n ns)
    (h0 : (s.mapNibble i.val n).testBit 0 = false) :
    ∃ q k, Quiet (((s.syncAt q).tripAsserts i.val n).freeAt k) (s.tripEdge i.val n true ns) := by
  obtain ⟨q, k, hedge⟩ := State.tripEdge_asserts h
  have hmap := State.tripAsserts_mapNibble i n n (s.syncAt q)
  rw [State.tripAct_none (hmap.symm ▸ h0)] at hedge
  refine ⟨q, k, ?_⟩
  rw [hedge]
  exact Quiet.freeAt (State.settle_quiet _) k

/-- An assertion that stands already, or that the filter does not take, moves the synchronised level alone. -/
theorem State.tripEdge_stands {s : State} {i : Nat} {n : Fin 4} {ns : Nat} (h : (s.trip.get n).getLsbD i = true
      ∨ filterTakes (decide (i < 12)) (s.tripFilt i) ns (Config.filterFree s.freeNo) = false) :
    ∃ q k, s.tripEdge i n true ns = (s.syncAt q).freeAt k := by
  by_cases hcomes : s.levelComes i n true
  · obtain ⟨q, k, hedge⟩ := State.tripEdge_comes (ns := ns) hcomes (.inr rfl)
    refine ⟨q, k, hedge.trans ?_⟩
    rcases h with h | h
    · rw [State.tripRise_stands (s := s.syncAt q) h]
      simp only [if_true, ite_self]
    · rw [h]
      rfl
  · exact ⟨s.tripSync, s.freeNo, State.tripEdge_idle (.inl hcomes)⟩

/-- A deassertion that the filter takes ends the source's level wherever it is seen (R199). -/
theorem State.tripEdge_falls {s : State} {i : Nat} {n : Fin 4} {ns : Nat} (hcomes : s.levelComes i n false) (hi : i < 14)
    (htakes : filterTakes (decide (i < 12)) (s.tripFilt i) ns (Config.filterFree s.freeNo) = true) :
    ∃ p q k, s.tripEdge i n false ns = (({ s with trip := p } : State).syncAt q).freeAt k
      ∧ ∀ m, ∀ j < 16, (p.get m).getLsbD j = if m ∈ seenAt i n ∧ j = i then false else (s.trip.get m).getLsbD j := by
  obtain ⟨q, k, hedge⟩ := State.tripEdge_comes (ns := ns) hcomes (.inl hi)
  obtain ⟨p, hfall, hlevel⟩ := setTrips_only i false (seenAt i n) (s.syncAt q)
  rw [if_pos htakes, if_neg Bool.false_ne_true, State.tripFall, if_neg (by omega), hfall] at hedge
  exact ⟨p, q, _, hedge, hlevel⟩

theorem tripOn_after_fall {i : Nat} {n : Fin 4} {s : State} (hi : i < 16)
    (h : ∀ m, ∀ j < 16, (s.trip.get m).getLsbD j = true → ¬ (m ∈ seenAt i n ∧ j = i)) : s.tripOn i n = false := by
  unfold State.tripOn
  by_cases hl : perLoaf i = true
  · rw [if_pos hl, Bool.eq_false_iff]
    exact fun hb => h n i hi hb ⟨by unfold seenAt; simp [hl], rfl⟩
  · rw [if_neg hl, List.any_eq_false]
    exact fun m hm hb => h m i hi hb ⟨by unfold seenAt; simp [hl, hm], rfl⟩

/-- Both instructions of an assertion are one edge. -/
theorem exec_tripAsserted (i : Fin 16) (n : Fin 4) (ns t : Nat) (s : State) :
    ∀ c ∈ [Instr.tripLatch i n ns t, .tripCycleGap i n ns t], exec c s = .next ((s.atT t).tripEdge i.val n true ns) := by
  simp only [List.forall_mem_cons]
  exact ⟨rfl, rfl, by simp⟩

/-! ## Readbacks (R70) -/

theorem exec_readbackMismatch {n : Fin 4} (pad : Fin 7) (t : Nat) {s : State} (hup : s.regionUp = true) (hn : s.has n.val = true) :
    ∃ u : State, u.rdBit (Obj.readbackErr n.val) pad.val = true ∧ exec (.readbackMismatch n pad t) s = .next (u.fault
      (if pad.val < 6 then 0x0001 else 0x0002) (if pad.val < 6 then mkInst n.val pad.val else mkInst n.val 0) 0) := by
  have hgate : ((s.atT t).regionUp && (s.atT t).has n.val) = true := by
    unfold State.regionUp State.has at *
    rw [State.atT_boot, State.atT_variant, hup, hn]
    rfl
  have hbit : ∀ f, (((s.atT t).wrBit (Obj.readbackErr n.val) pad.val true).modLoaf n f).rdBit (Obj.readbackErr n.val) pad.val = true :=
    fun f => by rw [State.rdBit_of_rd (State.modLoaf_rd _ n f _), State.rdBit_wrBit, if_pos rfl, if_pos rfl]
  show ∃ u : State, _ ∧ execReadbackMismatch n pad t s = _
  unfold execReadbackMismatch
  dsimp only
  rw [if_pos hgate]
  by_cases hpad : pad.val < 6
  · simp only [if_pos hpad]
    refine ⟨_, ?_, rfl⟩
    exact hbit _
  · simp only [if_neg hpad]
    refine ⟨_, ?_, rfl⟩
    exact hbit _

end Sys2Proof.Machine

namespace Sys2Proof

open Sys2Proof.Machine

/-- Settles O39: an edge of a source either idles, moves the synchronised level alone, or asserts; what an assertion leads to is read off
its nibble. -/
theorem trips : Obligations.Trips := by
  unfold Obligations.Trips
  have hasserts : ∀ {i : Fin 16} {n : Fin 4} {ns : Nat} (t : Nat) {s : State}, s.tripLive i.val n = true →
      (i.val = 12 ∨ i.val = 13 → s.detects i.val n = true) →
      filterTakes (decide (i.val < 12)) (s.tripFilt i.val) ns (Config.filterFree s.freeNo) = true →
      (s.trip.get n).getLsbD i.val = false → (s.atT t).asserts i.val n ns := fun t _ hlive hdet htakes hnew =>
    State.asserts_atT t ⟨⟨hlive, hdet⟩, htakes, hnew⟩
  refine ⟨?_, ?_, ?_, ?_, ?_, ?_, ?_, ?_, ?_⟩
  case refine_1 =>
    intro i n ns t s hlive hdet htakes hnew h0 h1
    rw [← State.mapNibble_atT s t] at h0 h1
    obtain ⟨u, ⟨q, k, hu⟩, hquiet, hcode⟩ := State.tripEdge_latch (hasserts t hlive hdet htakes hnew) h0 h1
    obtain ⟨hlatch, hon, hcount⟩ := State.tripLatches_leaves i n ((s.atT t).syncAt q)
    subst hu
    refine ⟨_, ⟨_, rfl, hquiet⟩, hlatch, hon, hcount.trans ?_, fun code hc => ?_⟩
    · rw [State.rd_bump_self, State.rd_bump_self, State.syncAt_tripOn, State.syncAt_rd, State.tripOn_atT, State.atT_rd]
    · obtain ⟨inst, hindex, hpads, hpending⟩ := hcode code hc
      exact ⟨inst, ⟨_, rfl, hquiet, hpending⟩, hindex, hpads⟩
  case refine_2 =>
    intro i n ns t s hlive hdet htakes hnew h0 h1
    rw [← State.mapNibble_atT s t] at h0 h1
    obtain ⟨q, k, hquiet⟩ := State.tripEdge_gap (hasserts t hlive hdet htakes hnew) h0 h1
    obtain ⟨hgap, hon, hlatch, hothers⟩ := State.tripGaps_leaves i n ((s.atT t).syncAt q)
    exact ⟨_, ⟨_, rfl, hquiet⟩, hgap, hon, hlatch.trans (s.atT_rd t _), fun m hm => (hothers m hm).trans (by rw [State.syncAt_loaf, State.atT_loaf])⟩
  case refine_3 =>
    intro i n ns t s hlive hdet htakes hnew h0 c hc
    rw [← State.mapNibble_atT s t] at h0
    obtain ⟨q, k, hquiet⟩ := State.tripEdge_unmapped (hasserts t hlive hdet htakes hnew) h0
    obtain ⟨hon, hloaf, hflt, hobjs⟩ := State.tripAsserts_leaves i n ((s.atT t).syncAt q)
    exact ⟨_, ⟨_, exec_tripAsserted i n ns t s c hc, hquiet⟩, hon, hloaf.trans (s.atT_loaf t), hflt.trans (s.atT_flt t),
      fun a ha => (hobjs a ha).trans (s.atT_rd t a)⟩
  case refine_4 =>
    intro i n ns t s h c hc
    rw [← State.tripFilt_atT s t, ← State.atT_freeNo s t, ← State.atT_trip s t] at h
    obtain ⟨q, k, hedge⟩ := State.tripEdge_stands h
    refine ⟨_, (exec_tripAsserted i n ns t s c hc).trans (congrArg Host.Outcome.next hedge), s.atT_trip t, ?_⟩
    rw [← s.atT_tripSync t, ← s.atT_freeNo t]
    rfl
  case refine_5 =>
    intro i n ns t s h c hc
    refine (exec_tripAsserted i n ns t s c hc).trans (congrArg Host.Outcome.next (State.tripEdge_idle (.inl ?_)))
    rintro ⟨hlive, hdet⟩
    rw [State.tripLive_atT, State.detects_atT] at *
    rcases h with h | ⟨hi, h⟩
    · exact absurd (h.symm.trans hlive) Bool.false_ne_true
    · exact absurd (h.symm.trans (hdet hi)) Bool.false_ne_true
  case refine_6 => exact fun f ns free => ⟨filterTakes_pad_sure free, filterTakes_pad_never free, rfl⟩
  case refine_7 =>
    intro i n ns t s hlive hdet htakes
    have hcomes := State.levelComes_atT t (show s.levelComes i.val n false from ⟨hlive, hdet⟩)
    rw [← State.tripFilt_atT s t, ← State.atT_freeNo s t] at htakes
    by_cases hi : i.val < 14
    · obtain ⟨p, q, k, hedge, hlevel⟩ := State.tripEdge_falls hcomes hi htakes
      refine ⟨_, congrArg Host.Outcome.next hedge, fun _ => tripOn_after_fall i.isLt fun m j hj hb hseen => ?_, fun h => absurd hi (by omega), fun j hj hji =>
        tripOn_congr fun m => ?_, ?_⟩
      · exact Bool.false_ne_true (((hlevel m j hj).trans (if_pos hseen)).symm.trans hb)
      · refine (hlevel m j hj).trans ((if_neg fun h => hji h.2).trans ?_)
        rw [State.atT_trip]
      · rw [← s.atT_trip t, ← s.atT_tripSync t, ← s.atT_freeNo t]
        rfl
    · refine ⟨s.atT t, congrArg Host.Outcome.next (State.tripEdge_idle (.inr ⟨by omega, rfl⟩)), fun h => absurd h hi, fun _ => rfl,
        fun j _ _ => State.tripOn_atT s t j n, ?_⟩
      rw [← s.atT_trip t, ← s.atT_tripSync t, ← s.atT_freeNo t]
  case refine_8 =>
    intro i n ns t s h
    refine congrArg Host.Outcome.next (State.tripEdge_idle (.inl ?_))
    rintro ⟨hlive, hdet⟩
    rw [State.tripLive_atT, State.detects_atT] at *
    rcases h with h | ⟨hi, h⟩
    · exact absurd (h.symm.trans hlive) Bool.false_ne_true
    · exact Bool.false_ne_true ((hdet hi).symm.trans h)
  case refine_9 =>
    intro n pad t s hup hn
    obtain ⟨u, hbit, hexec⟩ := exec_readbackMismatch pad t hup hn
    exact ⟨u, ⟨_, hexec, State.fault_quiet .., State.fault_pending⟩, hbit⟩

end Sys2Proof
end

section
/-! Debug halts and heartbeats (R207, R367, R368; O35). -/

namespace Sys2Proof.Machine

open Sys2Proof

/-! ## A halt (R207) -/

/-- A halt of a region is noted in `HALT_CAUSE`. -/
def State.haltNoted : Region → State → State
  | .c, s => ({ s with haltC := true }).wrBit Obj.haltCause 0 true
  | .m, s => ({ s with haltM := true }).wrBit Obj.haltCause 1 true

/-- A counter that a halt stops. -/
def State.haltLoaf (n : Fin 4) (s : State) : State := (s.pwmTo n).modLoaf n (fun l => { l with running := false, gapCounted := false })

/-- The state of a halt before its report. -/
def State.halted (r : Region) (s : State) : State := forAll units4 State.haltLoaf (s.haltNoted r)

/-- What a halt's report of 0x8001 names: the region. -/
def haltInst : Region → Half
  | .c => 0
  | .m => 1

theorem State.halt_eq (r : Region) (s : State) : s.halt r = (s.halted r).fault 0x8001 (haltInst r) 0 := by
  cases r <;> rfl

/-- The bit of a region in `HALT_CAUSE`. -/
def haltBit : Region → Nat
  | .c => 0
  | .m => 1

theorem State.haltLoaf_onLoaf (n : Fin 4) (s : State) : OnLoaf n s (s.haltLoaf n) := (s.pwmTo_onLoaf n).modLoaf _

theorem State.haltLoaf_stops (n : Fin 4) (s : State) : ((s.haltLoaf n).loaf.get n).running = false := by
  unfold State.haltLoaf
  rw [State.modLoaf_loaf, Quad.get_set_same]

/-- A halt stops the loaves and changes nothing else beside what it notes. -/
theorem State.halted_only (r : Region) (s : State) : ∃ q, s.halted r = { s.haltNoted r with loaf := q } :=
  forAll_rel (R := fun x y : State => ∃ q, y = { x with loaf := q }) (fun x => ⟨x.loaf, rfl⟩)
    (fun ⟨_, hp⟩ ⟨q, hq⟩ => ⟨q, by rw [hq, hp]⟩) (fun n _ x => by
      obtain ⟨l, hl⟩ := x.haltLoaf_onLoaf n
      exact ⟨_, hl⟩) (s.haltNoted r)

theorem State.halted_stops (r : Region) (n : Fin 4) (s : State) : ((s.halted r).loaf.get n).running = false := by
  obtain ⟨x, -, hx⟩ := forAll_units4_at (R := fun a b => b.loaf.get n = a.loaf.get n) (f := State.haltLoaf) n (fun _ => rfl)
    (fun h k => k.trans h) (fun m hm x => (x.haltLoaf_onLoaf m).rest.2 n hm.symm) (s.haltNoted r)
  unfold State.halted
  rw [hx, State.haltLoaf_stops]

/-- A cause that stands keeps every loaf in its Crust pattern (R206, R207). -/
theorem State.crustForce_of_cause {s : State} {i : Nat} (h : s.rdBit Obj.haltCause i = true) (n : Fin 4) : s.crustForce n = true := by
  have hne : s.rdN Obj.haltCause ≠ 0 := fun h0 => by
    unfold State.rdBit at h
    rw [h0, Nat.zero_testBit] at h
    exact Bool.false_ne_true h
  unfold State.crustForce
  simp [hne]

theorem State.halted_noted (r : Region) (s : State) : (s.halted r).rdBit Obj.haltCause (haltBit r) = true := by
  obtain ⟨q, hq⟩ := s.halted_only r
  have hrd : (s.halted r).rd Obj.haltCause = (s.haltNoted r).rd Obj.haltCause := by
    rw [hq]
    rfl
  rw [State.rdBit_of_rd hrd]
  cases r <;> (unfold State.haltNoted haltBit; rw [State.rdBit_wrBit, if_pos rfl, if_pos rfl])

/-- What a halt leaves in the state it reports from. -/
theorem State.halted_leaves (r : Region) (s : State) : (s.halted r).rdBit Obj.haltCause (haltBit r) = true
    ∧ ∀ n, ((s.halted r).loaf.get n).running = false ∧ (s.halted r).crustForce n = true :=
  ⟨s.halted_noted r, fun n => ⟨s.halted_stops r n, State.crustForce_of_cause (s.halted_noted r) n⟩⟩

theorem State.halted_haltC (s : State) : (s.halted .c).haltC = true := by
  obtain ⟨q, hq⟩ := s.halted_only .c
  rw [hq]
  rfl
theorem State.halted_haltM (s : State) : (s.halted .m).haltM = true := by
  obtain ⟨q, hq⟩ := s.halted_only .m
  rw [hq]
  rfl

/-- A halt that a command brings about is reported over that state. -/
theorem halts {c : Instr} {s x : State} {r : Region} (h : exec c s = .next (x.halt r)) :
    ∃ t', exec c s = .next t' ∧ Quiet (x.halted r) t' ∧ ((x.halted r).raisable 0x8001 (haltInst r) = true →
      ((x.halted r).classOf 0x8001).1 ≠ .c0 → t'.isPending 0x8001 (haltInst r) = true) := by
  rw [h, State.halt_eq]
  exact ⟨_, rfl, State.fault_quiet .., State.fault_pending⟩

theorem exec_debugHalt (t : Nat) (s : State) :
    exec (.debugHalt t) s = if s.sec.unlocked && s.regionUp then .next ((s.atT t).halt .c) else .next (s.atT t) := by
  show (if (s.atT t).sec.unlocked && (s.atT t).regionUp then _ else _) = _
  rw [State.atT_sec, State.regionUp, State.atT_boot]
  rfl

theorem exec_haltNotification {p : Packet} {t : Nat} {s : State} (h : Arrives .c .fault p (s.atT t)) (hact : pktAction p = 5)
    (hopen : s.sec.unlocked = true) : exec (.haltNotification p t) s = .next (((s.atT t).linked .c .fault p).halt .m) := by
  have hsec : ((s.atT t).linked .c .fault p).sec = s.sec := ((congrArg State.sec (State.linked_rest h) :)).trans (s.atT_sec t)
  show Host.Outcome.next ((s.atT t).faultTake p _ _) = _
  unfold State.faultTake
  rw [State.peelTake_arrives _ h, hact]
  show Host.Outcome.next (if ((s.atT t).linked .c .fault p).sec.unlocked then _ else _) = _
  rw [hsec, if_pos hopen]

/-! ## Heartbeats (R367, R368) -/

/-- The instant after which the host's beat is missed. -/
def State.beatMissed (t0 : Nat) (s : State) : State := s.atT (t0 + s.rdN Obj.hbTimeout * msCycles + 1)

theorem State.beatMissed_rd (t0 : Nat) (s : State) (a : Nat) : (s.beatMissed t0).rd a = s.rd a := s.atT_rd _ a
theorem State.beatMissed_now (t0 : Nat) (s : State) :
    (s.beatMissed t0).time.now = max s.time.now (t0 + s.rdN Obj.hbTimeout * msCycles + 1) := s.atT_now _
theorem State.beatMissed_drive (t0 : Nat) (s : State) : (s.beatMissed t0).loaf = s.loaf ∧ (s.beatMissed t0).grp = s.grp
    ∧ (s.beatMissed t0).safety = s.safety ∧ (s.beatMissed t0).mode = s.mode :=
  ⟨s.atT_loaf _, s.atT_grp _, s.atT_safety _, s.atT_mode _⟩

/-- A missed beat is noted, counted, flagged and reported (R368). -/
def State.beatReported (s : State) : State :=
  (((s.modFlt (fun f => { f with hbSaid := true })).bump Obj.hbLateCount).setIrq 13).reportM 0xF401 0 0

theorem State.beatReported_rd (s : State) (a : Nat) : s.beatReported.rd a = (s.bump Obj.hbLateCount).rd a := by
  show ((s.modFlt (fun f => { f with hbSaid := true })).bump Obj.hbLateCount).rd a = _
  by_cases ha : a = Obj.hbLateCount
  · rw [ha, State.rd_bump_self, State.rd_bump_self, State.modFlt_rd]
  · rw [State.rd_bump_ne _ ha, State.rd_bump_ne _ ha, State.modFlt_rd]

/-- It changes nothing but the counter, the flag and what the collector knows and sends. -/
theorem State.beatReported_only (s : State) : ∃ (o : Store) (f : FaultSt) (p : PeelEnd) (h : HostSt),
    s.beatReported = { s with objs := o, flt := f, peelM := p, host := h } ∧ f.hbSaid = true ∧ (0xF401, 0, 0) ∈ f.mRep
      ∧ h.irqFlags.getLsbD 13 = true := by
  unfold State.beatReported
  obtain ⟨o, ho⟩ := State.bump_only Obj.hbLateCount (s.modFlt (fun f => { f with hbSaid := true }))
  rw [ho]
  refine ⟨_, _, _, _, rfl, rfl, List.mem_concat_self, ?_⟩
  refine (State.setIrq_flag _ 13 (by decide)).trans ?_
  rw [decide_eq_true rfl, Bool.or_true]

theorem State.beatReported_marks (s : State) : s.beatReported.flt.hbSaid = true ∧ (0xF401, 0, 0) ∈ s.beatReported.flt.mRep
    ∧ s.beatReported.host.irqFlags.getLsbD 13 = true := by
  obtain ⟨o, f, p, h, heq, hsaid, hrep, hflag⟩ := s.beatReported_only
  rw [heq]
  exact ⟨hsaid, hrep, hflag⟩
theorem State.beatReported_drive (s : State) : s.beatReported.time = s.time ∧ s.beatReported.loaf = s.loaf ∧ s.beatReported.grp = s.grp
    ∧ s.beatReported.safety = s.safety ∧ s.beatReported.mode = s.mode := by
  obtain ⟨o, f, p, h, heq, -⟩ := s.beatReported_only
  rw [heq]
  exact ⟨rfl, rfl, rfl, rfl, rfl⟩

theorem exec_hostHbTimeout {t0 : Nat} {s : State} (hask : s.askard = true) (harmed : s.flt.hbArmed = true)
    (htimeout : s.rd Obj.hbTimeout ≠ 0) (hnew : s.flt.hbSaid = false) (hlast : s.flt.lastBeat = some t0) :
    exec .hostHbTimeout s = .next (s.beatMissed t0).beatReported := by
  show execHostHbTimeout s = _
  unfold execHostHbTimeout
  rw [hlast]
  exact if_pos (by simp [hask, harmed, htimeout, hnew])

theorem exec_hostHbTimeout_quiet {s : State} (h : s.flt.hbSaid = true ∨ s.flt.hbArmed = false ∨ s.rd Obj.hbTimeout = 0 ∨ s.askard = false
    ∨ s.flt.lastBeat = none) : exec .hostHbTimeout s = .next s := by
  show execHostHbTimeout s = _
  unfold execHostHbTimeout
  cases hlast : s.flt.lastBeat with
  | none => rfl
  | some t0 =>
    refine if_neg ?_
    rcases h with h | h | h | h | h
    · simp [h]
    · simp [h]
    · simp [h]
    · simp [h]
    · exact absurd (hlast.symm.trans h) (Option.some_ne_none t0)

theorem exec_beatToggle (t : Nat) (s : State) : exec (.beatToggle t) s = if s.regionUp && (s.atT t).beatOk && (s.atT t).beatDue
    then .next ((s.atT t).modFlt (fun f => { f with beat := !f.beat, beatT := t })) else .next (s.atT t) := by
  show (if (s.atT t).regionUp && (s.atT t).beatOk && (s.atT t).beatDue then _ else _) = _
  rw [State.regionUp, State.atT_boot]
  rfl

end Sys2Proof.Machine

namespace Sys2Proof

open Sys2Proof.Machine

/-- Settles O35: a halt of either region is one operation, reported over a state in which every counter stands and `HALT_CAUSE` forces
the Crust pattern; a missed beat is four updates in turn. -/
theorem haltsAndBeats : Obligations.HaltsAndBeats := by
  unfold Obligations.HaltsAndBeats
  refine ⟨?_, ?_, ?_, ?_, ?_, ?_, ?_, ?_⟩
  case refine_1 =>
    intro t s hopen hup
    obtain ⟨hnoted, hloaves⟩ := (s.atT t).halted_leaves .c
    exact ⟨_, halts ((exec_debugHalt t s).trans (if_pos (by rw [hopen, hup]; rfl))), (s.atT t).halted_haltC, hnoted, hloaves⟩
  case refine_2 =>
    intro t s h
    refine (exec_debugHalt t s).trans (if_neg ?_)
    rcases h with h | h <;> simp [h]
  case refine_3 =>
    intro p t s harrives hact hopen
    obtain ⟨hnoted, hloaves⟩ := ((s.atT t).linked .c .fault p).halted_leaves .m
    exact ⟨_, halts (exec_haltNotification harrives hact hopen), State.halted_haltM _, hnoted, hloaves⟩
  case refine_4 => exact fun s => ⟨_, rfl, rfl, rfl, rfl, fun _ => rfl, rfl⟩
  case refine_5 =>
    intro t0 s hask harmed htimeout hnew hlast
    have hmissed := s.beatMissed_rd t0
    have hrd := fun a => (s.beatMissed t0).beatReported_rd a
    obtain ⟨hloaf, hgrp, hsafety, hmode⟩ := s.beatMissed_drive t0
    obtain ⟨htime, kloaf, kgrp, ksafety, kmode⟩ := (s.beatMissed t0).beatReported_drive
    obtain ⟨hsaid, hrep, hflag⟩ := (s.beatMissed t0).beatReported_marks
    refine ⟨_, exec_hostHbTimeout hask harmed htimeout hnew hlast, ?_, hsaid, hflag, hrep, fun hlow => ?_, fun a ha => ?_,
      kloaf.trans hloaf, kgrp.trans hgrp, ksafety.trans hsafety, kmode.trans hmode⟩
    · rw [htime]
      exact s.beatMissed_now t0
    · rw [hrd, State.rd_bump_same _ (by rw [hmissed]; exact hlow), hmissed]
    · rw [hrd, State.rd_bump_ne _ (fun e => ha (List.mem_singleton.mpr e)), hmissed]
  case refine_6 => exact fun s h => exec_hostHbTimeout_quiet h
  case refine_7 =>
    intro t s hup hok hdue
    exact (exec_beatToggle t s).trans (if_pos (by rw [hup, hok, hdue]; rfl))
  case refine_8 =>
    intro t s h
    refine (exec_beatToggle t s).trans (if_neg ?_)
    rcases h with h | h | h <;> simp [h]

end Sys2Proof
end

section
/-! `OPEN_CMP` writes of one command (R191; O27). -/

namespace Sys2Proof.Machine

open Sys2Proof

/-! ## The object -/

/-- The row of `OPEN_CMP` (R182). -/
def openCmpRow : ObjRow := ⟨0x2003, 1, 3, .u32, .rw, .none, 0, 0, 0x7fffff⟩

theorem openCmp_row : ∀ (n : Fin 4) (p : Fin 3), Obj.openCmp n.val p.val < 2 ^ 24 ∧ Obj.openCmp n.val p.val % 0x100 ≠ 0
    ∧ Obj.openCmp n.val p.val / 0x100 = 0x2003 + 0x100 * n.val ∧ regionC (Obj.openCmp n.val p.val / 0x100) = true
    ∧ objRow (Obj.openCmp n.val p.val / 0x100) (Obj.openCmp n.val p.val % 0x100) = some openCmpRow := by decide

theorem absent_openCmp_ofVariant (v : Variant) : ∀ (n : Fin 4) (p : Fin 3), (State.ofVariant v).has n.val = true →
    (State.ofVariant v).absent (Obj.openCmp n.val p.val / 0x100) (Obj.openCmp n.val p.val % 0x100) = false := by
  cases v with
  | f4 => decide
  | f2 => decide

theorem namesAbsent_openCmp (s : State) (v : Int) : ∀ (n : Fin 4) (p : Fin 3),
    s.namesAbsent (Obj.openCmp n.val p.val / 0x100) (Obj.openCmp n.val p.val % 0x100) v = (decide (s.variant = .f2) && false)
  | 0, 0 | 0, 1 | 0, 2 | 1, 0 | 1, 1 | 1, 2 | 2, 0 | 2, 1 | 2, 2 | 3, 0 | 3, 1 | 3, 2 => rfl
theorem refusedState_openCmp (s : State) (v : Int) : ∀ (n : Fin 4) (p : Fin 3),
    s.refusedState (Obj.openCmp n.val p.val / 0x100) (Obj.openCmp n.val p.val % 0x100) v
      = ((decide (s.mode = .safe) && true && true) || false)
  | 0, 0 | 0, 1 | 0, 2 | 1, 0 | 1, 1 | 1, 2 | 2, 0 | 2, 1 | 2, 2 | 3, 0 | 3, 1 | 3, 2 => rfl
theorem inRange_openCmp (s : State) (v : Int) : ∀ (n : Fin 4) (p : Fin 3),
    s.inRange openCmpRow (Obj.openCmp n.val p.val / 0x100) (Obj.openCmp n.val p.val % 0x100) v
      = (decide (0 ≤ v ∧ v ≤ 0x7FFFFF) && true)
  | 0, 0 | 0, 1 | 0, 2 | 1, 0 | 1, 1 | 1, 2 | 2, 0 | 2, 1 | 2, 2 | 3, 0 | 3, 1 | 3, 2 => rfl
theorem takeWrite_openCmp (s : State) (v : Int) : ∀ (n : Fin 4) (p : Fin 3),
    s.takeWrite confSrc openCmpRow (Obj.openCmp n.val p.val / 0x100) (Obj.openCmp n.val p.val % 0x100) v
      = s.wr (Obj.openCmp n.val p.val) v
  | 0, 0 | 0, 1 | 0, 2 | 1, 0 | 1, 1 | 1, 2 | 2, 0 | 2, 1 | 2, 2 | 3, 0 | 3, 1 | 3, 2 => rfl
theorem readOnly_openCmp : ∀ (n : Fin 4) (p : Fin 3),
    readOnly openCmpRow (Obj.openCmp n.val p.val / 0x100) (Obj.openCmp n.val p.val % 0x100) false = false := by decide

/-- The compare words of a loaf differ in their addresses. -/
theorem openCmp_inj {n : Fin 4} {p q : Fin 3} (h : p ≠ q) : Obj.openCmp n.val p.val ≠ Obj.openCmp n.val q.val := by
  unfold Obj.openCmp
  omega

/-- Where `OPEN_CMP` of loaf `n` may be written: outside SAFE, and the loaf is there. -/
def State.opens (s : State) (n : Fin 4) : Prop := s.mode ≠ .safe ∧ s.has n.val = true

theorem reasonFor_openCmp {s : State} {n : Fin 4} (h : s.opens n) {v : Int} (hv : 0 ≤ v ∧ v ≤ 0x7FFFFF) (p : Fin 3) :
    s.reasonFor openCmpRow (Obj.openCmp n.val p.val / 0x100) (Obj.openCmp n.val p.val % 0x100) false (some v) = 0 := by
  obtain ⟨hmode, hhas⟩ := h
  have habsent : s.absent (Obj.openCmp n.val p.val / 0x100) (Obj.openCmp n.val p.val % 0x100) = false :=
    absent_openCmp_ofVariant s.variant n p hhas
  have hcls : openCmpRow.cls ≠ .b := nofun
  unfold State.reasonFor
  simp [habsent, namesAbsent_openCmp, readOnly_openCmp, refusedState_openCmp, inRange_openCmp, hmode, hv, hcls]

theorem openCmp_fits {v : Int} (hv : 0 ≤ v ∧ v ≤ 0x7FFFFF) : openCmpRow.ty.fits v := by
  show 0 ≤ v ∧ v < 4294967296
  omega

/-! ## One word -/

/-- A compare word a command names, stored and on its way to region C. -/
def State.openPut (n : Fin 4) (p : Fin 3) (v : Int) (s : State) : State :=
  (s.wr (Obj.openCmp n.val p.val) v).sends confSrc (Obj.openCmp n.val p.val) v

theorem writeObj_openCmp {s : State} {n : Fin 4} (h : s.opens n) {v : Int} (hv : 0 ≤ v ∧ v ≤ 0x7FFFFF) (p : Fin 3) :
    s.writeObj confSrc (writeWords (Obj.openCmp n.val p.val) v).1 (writeWords (Obj.openCmp n.val p.val) v).2 = s.openPut n p v := by
  obtain ⟨hlt, hsub, -, -, hrow⟩ := openCmp_row n p
  rw [writeObj_row s confSrc hlt hsub hrow (openCmp_fits hv) (reasonFor_openCmp h hv p), takeWrite_openCmp]
  rfl

/-- A loaf that is there stands once among the loaves. -/
theorem filter_loaves_eq {s : State} {n : Fin 4} (h : s.has n.val = true) : s.loaves.filter (fun m => decide (m = n)) = [n] := by
  have hnodup : s.loaves.Nodup := List.Nodup.filter _ (by decide)
  have hmem : n ∈ s.loaves := List.mem_filter.mpr ⟨mem_units4 n, h⟩
  have hcount : s.loaves.count n = 1 := List.count_eq_one_of_mem hnodup hmem
  calc s.loaves.filter (fun m => decide (m = n)) = List.replicate (s.loaves.count n) n := List.filter_beq n
    _ = [n] := by rw [hcount]; rfl

/-- A taken word touches its loaf, and no other. -/
theorem touches_openCmp {s : State} {n : Fin 4} (h : s.opens n) {v : Int} (hv : 0 ≤ v ∧ v ≤ 0x7FFFFF) (p : Fin 3) :
    State.writeFold.s4 s (writeWords (Obj.openCmp n.val p.val) v) = [n] := by
  obtain ⟨hlt, hsub, hidx, -, hrow⟩ := openCmp_row n p
  have htouch : ∀ m : Fin 4, s.touchesOpen m (writeWords (Obj.openCmp n.val p.val) v).1 (writeWords (Obj.openCmp n.val p.val) v).2
      = decide (m = n) := fun m => by
    unfold State.touchesOpen
    rw [judge_row s hlt hsub hrow (openCmp_fits hv), reasonFor_openCmp h hv p, writeWords_row hrow]
    dsimp only
    rw [(@writeWord_fields _ openCmpRow.ty hlt).1, hidx]
    simp only [beq_self_eq_true, Bool.and_true, decide_eq_decide, Fin.ext_iff]
    omega
  unfold State.writeFold.s4 State.loaves
  simp only [htouch]
  exact filter_loaves_eq h.2

/-- The word's packet is one more that waits. -/
theorem State.openPut_only (n : Fin 4) (p : Fin 3) (v : Int) (s : State) : ∃ (l : List (Byte × List Byte)) (k : Packet),
    s.openPut n p v = { s.wr (Obj.openCmp n.val p.val) v with
      cmd := { s.cmd with carried := l }
      peelM := { s.peelM with waiting := s.peelM.waiting ++ [(srcNum confSrc, k, s.time.now)] } } := by
  obtain ⟨hlt, -, -, hregion, hrow⟩ := openCmp_row n p
  unfold State.openPut State.sends State.carryWrite
  rw [writeWords_row hrow]
  dsimp only
  rw [(@writeWord_fields _ openCmpRow.ty hlt).1, hregion]
  exact ⟨_, _, rfl⟩

/-! ## The words of one command -/

/-- A word that a command may name. -/
def State.openSet (n : Fin 4) (p : Fin 3) : Option Int → State → State
  | none => id
  | some v => State.openPut n p v

theorem State.openSet_rd_same (n : Fin 4) (p : Fin 3) (o : Option Int) (s : State) :
    (s.openSet n p o).rd (Obj.openCmp n.val p.val) = o.getD (s.rd (Obj.openCmp n.val p.val)) := by
  cases o with
  | none => rfl
  | some v =>
    obtain ⟨l, k, hk⟩ := s.openPut_only n p v
    show (s.openPut n p v).rd _ = _
    rw [hk]
    exact State.rd_wr_same ..

theorem State.openSet_rd_ne {n : Fin 4} {p : Fin 3} {a : Nat} (ha : a ≠ Obj.openCmp n.val p.val) (o : Option Int) (s : State) :
    (s.openSet n p o).rd a = s.rd a := by
  cases o with
  | none => rfl
  | some v =>
    obtain ⟨l, k, hk⟩ := s.openPut_only n p v
    show (s.openPut n p v).rd a = _
    rw [hk]
    exact State.rd_wr_ne _ _ ha

/-- A command that stores compare words changes nothing beside the objects and what waits for region C. -/
def OpenPut (k : Nat) (s x : State) : Prop := ∃ o l w, x = { s with objs := o, cmd := { s.cmd with carried := l }
                                                                    peelM := { s.peelM with waiting := w } }
  ∧ w.length = s.peelM.waiting.length + k

theorem State.openSet_put (n : Fin 4) (p : Fin 3) (o : Option Int) (s : State) : OpenPut o.toList.length s (s.openSet n p o) := by
  cases o with
  | none => exact ⟨s.objs, s.cmd.carried, s.peelM.waiting, rfl, rfl⟩
  | some v =>
    obtain ⟨l, k, hk⟩ := s.openPut_only n p v
    exact ⟨_, _, _, hk, List.length_append⟩

theorem OpenPut.trans {j k : Nat} {s x y : State} (h : OpenPut j s x) (h' : OpenPut k x y) : OpenPut (j + k) s y := by
  obtain ⟨o, l, w, rfl, hw⟩ := h
  obtain ⟨o', l', w', rfl, hw'⟩ := h'
  refine ⟨o', l', w', rfl, hw'.trans ?_⟩
  dsimp only
  omega

theorem OpenPut.opens {k : Nat} {s x : State} {n : Fin 4} (h : OpenPut k s x) (ho : s.opens n) : x.opens n := by
  obtain ⟨o, l, w, rfl, -⟩ := h
  exact ho

/-- The words a command names for a phase. -/
def openWords (n : Fin 4) (p : Fin 3) (o : Option Int) : List (Word × List Word) :=
  o.toList.map (writeWords (Obj.openCmp n.val p.val))

theorem writeFold_openWords {s : State} {n : Fin 4} (h : s.opens n) {o : Option Int} (ho : ∀ x, o = some x → 0 ≤ x ∧ x ≤ 0x7FFFFF)
    (p : Fin 3) (ws : List (Word × List Word)) (t : List (Fin 4)) :
    State.writeFold confSrc (openWords n p o ++ ws) (s, t)
      = State.writeFold confSrc ws (s.openSet n p o, t ++ List.replicate o.toList.length n) := by
  cases o with
  | none => rw [show t ++ List.replicate (none : Option Int).toList.length n = t from List.append_nil t]; rfl
  | some v =>
    show State.writeFold confSrc ws (s.writeObj confSrc _ _, t ++ State.writeFold.s4 s _) = _
    rw [writeObj_openCmp h (ho v rfl), touches_openCmp h (ho v rfl)]
    rfl

/-- The compare words of one command, stored. -/
def State.openStore (n : Fin 4) (u v w : Option Int) (s : State) : State := ((s.openSet n 0 u).openSet n 1 v).openSet n 2 w

/-- How many words a command names. -/
def namedWords (u v w : Option Int) : Nat := u.toList.length + v.toList.length + w.toList.length

theorem openWrites_eq (n : Fin 4) (u v w : Option Int) : ([(0, u), (1, v), (2, w)].filterMap (fun p : Nat × Option Int =>
    p.2.map (fun x => writeWords (Obj.openCmp n.val p.1) x))) = openWords n 0 u ++ (openWords n 1 v ++ (openWords n 2 w ++ [])) := by
  cases u <;> cases v <;> cases w <;> rfl

theorem State.openStore_put (n : Fin 4) (u v w : Option Int) (s : State) : OpenPut (namedWords u v w) s (s.openStore n u v w) :=
  ((s.openSet_put n 0 u).trans (State.openSet_put n 1 v _)).trans (State.openSet_put n 2 w _)

/-- The writes of a command that names a word: the words stored, and one commit for the loaf. -/
theorem writeAll_openCmp {s : State} {n : Fin 4} {u v w : Option Int} (h : s.opens n) (hsome : namedWords u v w ≠ 0)
    (hrange : ∀ x, u = some x ∨ v = some x ∨ w = some x → 0 ≤ x ∧ x ≤ 0x7FFFFF) :
    s.writeAll confSrc (openWords n 0 u ++ (openWords n 1 v ++ (openWords n 2 w ++ []))) = (s.openStore n u v w).commitOpen [n] := by
  have hfold : State.writeFold confSrc (openWords n 0 u ++ (openWords n 1 v ++ (openWords n 2 w ++ []))) (s, [])
      = (s.openStore n u v w, List.replicate (namedWords u v w) n) := by
    have h1 := (s.openSet_put n 0 u).opens h
    have h2 := (State.openSet_put n 1 v _).opens h1
    rw [writeFold_openWords h (fun x e => hrange x (.inl e)), writeFold_openWords h1 (fun x e => hrange x (.inr (.inl e))),
      writeFold_openWords h2 (fun x e => hrange x (.inr (.inr e))), List.nil_append, List.replicate_append_replicate,
      List.replicate_append_replicate]
    rfl
  unfold State.writeAll
  rw [hfold]
  dsimp only
  rw [List.replicate_dedup hsome]

theorem exec_openCmpWrite {s : State} {n : Fin 4} {u v w : Option Int} (hask : s.askard = true) (hboot : s.mode ≠ .boot)
    (h : s.opens n) (hsome : namedWords u v w ≠ 0) (hrange : ∀ x, u = some x ∨ v = some x ∨ w = some x → 0 ≤ x ∧ x ≤ 0x7FFFFF) :
    exec (.openCmpWrite n u v w) s = .next ((s.openStore n u v w).commitOpen [n]).settle := by
  show execOpenCmpWrite n u v w s = _
  unfold execOpenCmpWrite State.hostWrites
  rw [openWrites_eq, if_pos ⟨hask, hboot⟩, writeAll_openCmp h hsome hrange]

/-! ## What is stored and committed -/

theorem State.openStore_rd (n : Fin 4) (u v w : Option Int) (s : State) :
    (s.openStore n u v w).openCmp3 n
      = (u.getD (s.rd (Obj.openCmp n.val 0)), v.getD (s.rd (Obj.openCmp n.val 1)), w.getD (s.rd (Obj.openCmp n.val 2))) := by
  have ne {p q : Fin 3} (h : p ≠ q) (o : Option Int) (x : State) := x.openSet_rd_ne (openCmp_inj (n := n) h) o
  refine Prod.ext ?_ (Prod.ext ?_ ?_)
  · exact (ne (p := 0) (by decide) w _).trans ((ne (p := 0) (by decide) v _).trans (s.openSet_rd_same n 0 u))
  · exact (ne (p := 1) (by decide) w _).trans ((State.openSet_rd_same n 1 v _).trans (congrArg v.getD (ne (p := 1) (by decide) u s)))
  · exact (State.openSet_rd_same n 2 w _).trans
      (congrArg w.getD ((ne (p := 2) (by decide) v _).trans (ne (p := 2) (by decide) u s)))

theorem State.openStore_kept {n : Fin 4} {a : Nat} (ha : ∀ p : Fin 3, a ≠ Obj.openCmp n.val p.val) (u v w : Option Int) (s : State) :
    (s.openStore n u v w).rd a = s.rd a := by
  unfold State.openStore
  rw [State.openSet_rd_ne (ha 2), State.openSet_rd_ne (ha 1), State.openSet_rd_ne (ha 0)]

/-- The commit of a loaf that is OPEN. -/
theorem commitOpen_open {x : State} {n : Fin 4} (h : (x.loaf.get n).st = .open_) :
    x.commitOpen [n] = x.commit n (x.openCmp3 n) := if_pos h
theorem commitOpen_else {x : State} {n : Fin 4} (h : (x.loaf.get n).st ≠ .open_) : x.commitOpen [n] = x := if_neg h

/-- What the commit of one loaf does beside the objects: it changes that loaf alone. -/
theorem commitOpen_only (n : Fin 4) (x : State) : ∃ q, x.commitOpen [n] = { x with loaf := q }
    ∧ ((x.loaf.get n).st = .open_ → q = x.loaf.set n { x.loaf.get n with
        shadow := x.openCmp3 n, commits := (x.loaf.get n).commits ++ [{ cmp := x.openCmp3 n, landed := x.time.now }] })
    ∧ ((x.loaf.get n).st ≠ .open_ → q = x.loaf) := by
  by_cases h : (x.loaf.get n).st = .open_
  · exact ⟨_, commitOpen_open h, fun _ => rfl, fun h' => absurd h h'⟩
  · exact ⟨_, commitOpen_else h, fun h' => absurd h' h, fun _ => rfl⟩

theorem namedWords_eq (u v w : Option Int) : namedWords u v w = ([u, v, w].filter Option.isSome).length := by
  cases u <;> cases v <;> cases w <;> rfl
theorem namedWords_ne {u v w : Option Int} (h : u ≠ none ∨ v ≠ none ∨ w ≠ none) : namedWords u v w ≠ 0 := by
  rcases h with h | h | h
  · obtain ⟨x, rfl⟩ := Option.ne_none_iff_exists'.mp h
    simp [namedWords]
  · obtain ⟨x, rfl⟩ := Option.ne_none_iff_exists'.mp h
    simp [namedWords]
  · obtain ⟨x, rfl⟩ := Option.ne_none_iff_exists'.mp h
    simp [namedWords]

end Sys2Proof.Machine

namespace Sys2Proof

open Sys2Proof.Machine

/-- Settles O27: each word a command names passes R170 and is stored in turn, and the loaf they all touch commits what then stands. -/
theorem openCompareWrites : Obligations.OpenCompareWrites := by
  unfold Obligations.OpenCompareWrites
  intro n u v w a b c s hask hboot hsafe hhas hsome hrange ha hb hc
  subst ha hb hc
  have hrd := s.openStore_rd n u v w
  have hkept (a : Nat) := State.openStore_kept (n := n) (a := a) (u := u) (v := v) (w := w) (s := s)
  have hexec := exec_openCmpWrite hask hboot ⟨hsafe, hhas⟩ (namedWords_ne hsome) hrange
  obtain ⟨o, l, k, hput, hlen⟩ := s.openStore_put n u v w
  obtain ⟨q, hcommit, hopen, helse⟩ := commitOpen_only n (s.openStore n u v w)
  rw [hcommit] at hexec
  rw [hrd] at hopen
  rw [hput] at hrd hkept hexec hopen helse
  obtain ⟨h0, h1, h2⟩ : _ ∧ _ ∧ _ := ⟨congrArg Prod.fst hrd, congrArg (fun x => x.2.1) hrd, congrArg (fun x => x.2.2) hrd⟩
  refine ⟨_, hexec, h0, h1, h2, fun a ha => hkept a fun p e => ha ?_, hopen, helse, rfl, ?_⟩
  · rw [e]
    fin_cases p <;> simp
  · rw [← namedWords_eq]
    exact hlen

end Sys2Proof
end

section
/-! What the operations of a period start and a frame boundary leave alone, and what they make of their loaf's unit (R181 to R190,
R201, R233 to R236, R434). -/

namespace Sys2Proof.Machine

open Sys2Proof

/-! ## What a loaf's counter may change -/

/-- The state without its objects and what serves a frame of loaf `n`: the loaf's unit, the Oven's and converters' data, the
accumulators, the handoffs and the run of aligned periods. -/
def State.unframed (n : Fin 4) (s : State) : State :=
  { s with loaf := s.loaf.set n {}, objs := [], oven := Quad.all {}, conv := Six.all {}, acc := [], accOld := [], hand := Quad.all {}
           time := { s.time with alignRun := Quad.all 0 } }

/-- From `s` to `t` only what serves a frame of loaf `n` and the objects `A` may have changed. -/
def Within (n : Fin 4) (A : List Nat) (s t : State) : Prop := t.unframed n = s.unframed n ∧ ObjsKept A s t

theorem Within.refl (n : Fin 4) (s : State) : Within n [] s s := ⟨rfl, fun _ _ => rfl⟩
theorem Within.trans {n : Fin 4} {A B : List Nat} {s t u : State} (h : Within n A s t) (k : Within n B t u) : Within n (A ++ B) s u := by
  obtain ⟨hrest, hobjs⟩ := h
  obtain ⟨krest, kobjs⟩ := k
  refine ⟨krest.trans hrest, fun a ha => ?_⟩
  rw [List.mem_append, not_or] at ha
  exact (kobjs a ha.2).trans (hobjs a ha.1)
theorem Within.mono {n : Fin 4} {A B : List Nat} {s t : State} (h : Within n A s t) (hAB : A ⊆ B) : Within n B s t :=
  ⟨h.1, fun a ha => h.2 a (fun hA => ha (hAB hA))⟩

theorem Within.other {n : Fin 4} {A : List Nat} {s t : State} (h : Within n A s t) {m : Fin 4} (hm : m ≠ n) :
    t.loaf.get m = s.loaf.get m := by
  have hloaf : t.loaf.set n {} = s.loaf.set n {} := congrArg State.loaf h.1
  rw [← Quad.get_set_ne t.loaf {} hm, hloaf, Quad.get_set_ne _ _ hm]
theorem Within.variant {n : Fin 4} {A : List Nat} {s t : State} (h : Within n A s t) : t.variant = s.variant := (congrArg State.variant h.1 :)
theorem Within.trip {n : Fin 4} {A : List Nat} {s t : State} (h : Within n A s t) : t.trip = s.trip := (congrArg State.trip h.1 :)
theorem Within.peelC {n : Fin 4} {A : List Nat} {s t : State} (h : Within n A s t) : t.peelC = s.peelC := (congrArg State.peelC h.1 :)
theorem Within.startTick {n : Fin 4} {A : List Nat} {s t : State} (h : Within n A s t) : t.time.startTick = s.time.startTick :=
  (congrArg (fun x => x.time.startTick) h.1 :)

/-- Steps that keep within a loaf's frame keep within it together. -/
theorem within_forAll {n : Fin 4} {A : List Nat} {α : Type} {f : α → State → State} {l : List α}
    (hf : ∀ a ∈ l, ∀ x, Within n A x (f a x)) (s : State) : Within n A s (forAll l f s) :=
  forAll_rel (R := Within n A) (fun x => (Within.refl n x).mono (List.nil_subset A))
    (fun h k => (h.trans k).mono (by simp)) hf s

theorem within_modLoaf (n : Fin 4) (f : LoafSt → LoafSt) (s : State) : Within n [] s (s.modLoaf n f) := by
  refine ⟨?_, fun _ _ => rfl⟩
  unfold State.unframed State.modLoaf
  dsimp only
  rw [Quad.set_set_same]
theorem within_modOven (n m : Fin 4) (f : OvenSt → OvenSt) (s : State) : Within n [] s (s.modOven m f) := ⟨rfl, fun _ _ => rfl⟩
theorem State.modConvN_loaf (k : Nat) (f : ConvSt → ConvSt) (s : State) : (s.modConvN k f).loaf = s.loaf := rfl
theorem within_modConvN (n : Fin 4) (k : Nat) (f : ConvSt → ConvSt) (s : State) : Within n [] s (s.modConvN k f) := ⟨rfl, fun _ _ => rfl⟩
theorem within_wr (n : Fin 4) (a : Nat) (v : Int) (s : State) : Within n [a] s (s.wr a v) :=
  ⟨rfl, fun _ hb => State.rd_wr_ne s v (fun e => hb (List.mem_singleton.mpr e))⟩
theorem within_wrBit (n : Fin 4) (a i : Nat) (b : Bool) (s : State) : Within n [a] s (s.wrBit a i b) := within_wr ..
theorem within_wrs (n : Fin 4) (ws : List (Nat × Int)) (s : State) : Within n (ws.map Prod.fst) s (s.wrs ws) := by
  refine ⟨?_, fun _ hb => State.rd_wrs_ne s hb⟩
  obtain ⟨o, ho⟩ := s.wrs_only ws
  rw [ho]
  rfl

theorem Accounted.within {n : Fin 4} {s t : State} (h : Accounted n s t) : Within n [] s t := by
  obtain ⟨l, -, rfl⟩ := h
  exact within_modLoaf n (fun _ => l) s

/-! ## A loaf's unit as its periods and frames show it -/

/-- A loaf's unit without the account, the commits, the gap, the Crust pattern and what a frame hands over. -/
def LoafSt.timed (l : LoafSt) : LoafSt :=
  { l.unaccounted with commits := [], lateSaid := false, gap := false, gapCounted := false, crustAsc := false
                       injBase := [], injOut := [], burstDone := [], burstOut := [] }

/-- Loaf `n`'s. -/
def State.timed (n : Fin 4) (s : State) : LoafSt := (s.loaf.get n).timed

theorem State.timed_modLoaf (n : Fin 4) (f : LoafSt → LoafSt) (s : State) : (s.modLoaf n f).timed n = (f (s.loaf.get n)).timed := by
  unfold State.timed
  rw [State.modLoaf_loaf, Quad.get_set_same]

theorem Accounted.time {n : Fin 4} {s t : State} (h : Accounted n s t) : t.time = s.time := by
  obtain ⟨l, -, rfl⟩ := h
  rfl
/-- The account leaves the rest of the unit. -/
theorem Accounted.unit {n : Fin 4} {s t : State} (h : Accounted n s t) : (t.loaf.get n).unaccounted = (s.loaf.get n).unaccounted := by
  obtain ⟨l, hl, rfl⟩ := h
  rw [Quad.get_set_same, hl]
theorem Accounted.timed {n : Fin 4} {s t : State} (h : Accounted n s t) : t.timed n = s.timed n := by
  unfold State.timed LoafSt.timed
  rw [h.unit]
theorem Accounted.commits {n : Fin 4} {s t : State} (h : Accounted n s t) : (t.loaf.get n).commits = (s.loaf.get n).commits :=
  (congrArg LoafSt.commits h.unit :)
theorem Accounted.gap {n : Fin 4} {s t : State} (h : Accounted n s t) : (t.loaf.get n).gap = (s.loaf.get n).gap :=
  (congrArg LoafSt.gap h.unit :)

/-! ## The reload (R185, R186, R188) -/

/-- The active compare words of a loaf. -/
def activeCmps (n : Fin 4) : List Nat := [Obj.activeCmp n.val 0, Obj.activeCmp n.val 1, Obj.activeCmp n.val 2]

theorem activeCmps_nodup (n : Fin 4) : (activeCmps n).Nodup := by
  revert n
  decide

theorem within_reloadCommits (n : Fin 4) (t : Nat) (s : State) : Within n (activeCmps n) s (s.reloadCommits n t) := by
  unfold State.reloadCommits
  dsimp only
  split
  · exact (within_modLoaf n _ s).trans (within_wrs n _ _)
  · exact (within_modLoaf n _ s).mono (List.nil_subset _)

theorem State.reloadCommits_timed (n : Fin 4) (t : Nat) (s : State) : (s.reloadCommits n t).timed n = s.timed n := by
  have hmod := s.timed_modLoaf n (fun l => { l with commits := l.commits.filter (fun c => !decide (c.landed + 20 ≤ t)) })
  unfold State.reloadCommits
  dsimp only
  split
  · next c _ =>
    unfold State.setActive
    obtain ⟨o, ho⟩ := State.wrs_only (s.modLoaf n (fun l => { l with commits := l.commits.filter (fun c => !decide (c.landed + 20 ≤ t)) }))
      [(Obj.activeCmp n.val 0, c.cmp.1), (Obj.activeCmp n.val 1, c.cmp.2.1), (Obj.activeCmp n.val 2, c.cmp.2.2)]
    rw [ho]
    exact hmod
  · exact hmod

/-- A reload that takes no commit changes no object. -/
theorem State.reloadCommits_none {n : Fin 4} {t : Nat} {s : State} (h : takenCommit (s.loaf.get n).commits t = none) (a : Nat) :
    (s.reloadCommits n t).rd a = s.rd a := by
  unfold State.reloadCommits
  dsimp only
  rw [h]
  rfl

/-- A reload that takes a commit makes its compare words the active ones. -/
theorem State.reloadCommits_taken {n : Fin 4} {t : Nat} {s : State} {c : Commit} (h : takenCommit (s.loaf.get n).commits t = some c) :
    (s.reloadCommits n t).rd (Obj.activeCmp n.val 0) = c.cmp.1 ∧ (s.reloadCommits n t).rd (Obj.activeCmp n.val 1) = c.cmp.2.1
      ∧ (s.reloadCommits n t).rd (Obj.activeCmp n.val 2) = c.cmp.2.2 := by
  have hnodup : (List.map Prod.fst [(Obj.activeCmp n.val 0, c.cmp.1), (Obj.activeCmp n.val 1, c.cmp.2.1),
    (Obj.activeCmp n.val 2, c.cmp.2.2)]).Nodup := activeCmps_nodup n
  unfold State.reloadCommits State.setActive
  dsimp only
  rw [h]
  exact ⟨State.rd_wrs_mem _ hnodup (by simp), State.rd_wrs_mem _ hnodup (by simp), State.rd_wrs_mem _ hnodup (by simp)⟩

/-- The timing registers as a reload loads them. -/
def LoafSt.loaded (atStart : Bool) (period dead len : Nat) (l : LoafSt) : LoafSt :=
  { l with actPeriod := if atStart then period else l.actPeriod, actDead := if atStart then dead else l.actDead, actLen := len }

theorem State.reloadTiming_timed (n : Fin 4) (b : Bool) (s : State) : (s.reloadTiming n b).timed n
    = (s.timed n).loaded b (s.rdN (Obj.period n.val)) (s.rdN (Obj.deadTime n.val)) (s.rdN (Obj.frameLen n.val)) := s.timed_modLoaf n _
theorem within_reloadTiming (n : Fin 4) (b : Bool) (s : State) : Within n [] s (s.reloadTiming n b) := within_modLoaf n _ s

theorem State.crustRefresh_timed (n : Fin 4) (s : State) : (s.crustRefresh n).timed n = s.timed n := s.timed_modLoaf n _
theorem within_crustRefresh (n : Fin 4) (s : State) : Within n [] s (s.crustRefresh n) := within_modLoaf n _ s

/-! ## The epoch (R433, R434) -/

/-- What the epoch unit of a loaf reads: the counter mode, `PHASE_OFS`, the bindings and the epoch intervals. -/
def epochObjs (n : Fin 4) : List Nat := [Obj.cntMode n.val, Obj.phaseOfs n.val]
  ++ units4.map (fun g => Obj.grpLoaves g.val) ++ units4.map (fun m => Obj.epochInterval m.val)

/-- The epoch unit of loaf `n` measures the same in both states. -/
def SameEpoch (n : Fin 4) (s t : State) : Prop :=
  t.variant = s.variant ∧ t.time.startTick = s.time.startTick ∧ (t.loaf.get n).running = (s.loaf.get n).running
    ∧ (t.loaf.get n).epoch = (s.loaf.get n).epoch ∧ (t.loaf.get n).actPeriod = (s.loaf.get n).actPeriod
    ∧ ∀ a ∈ epochObjs n, t.rd a = s.rd a

theorem Within.sameEpoch {n : Fin 4} {A : List Nat} {s t : State} (h : Within n A s t) (hA : ∀ a ∈ epochObjs n, a ∉ A)
    (hrunning : (t.timed n).running = (s.timed n).running) (hepoch : (t.timed n).epoch = (s.timed n).epoch)
    (hperiod : (t.timed n).actPeriod = (s.timed n).actPeriod) : SameEpoch n s t :=
  ⟨h.variant, h.startTick, hrunning, hepoch, hperiod, fun a ha => h.2 a (hA a ha)⟩

theorem epochHead_congr {s t : State} (n : Fin 4) (hvariant : t.variant = s.variant)
    (hrd : ∀ g : Fin 4, t.rd (Obj.grpLoaves g.val) = s.rd (Obj.grpLoaves g.val)) : t.epochHead n = s.epochHead n := by
  unfold State.epochHead State.groupOf State.bound State.loaves State.has State.rdBit State.rdN
  simp only [hrd, hvariant]

theorem SameEpoch.epochLoaf {n : Fin 4} {s t : State} (h : SameEpoch n s t) : t.epochLoaf n = s.epochLoaf n := by
  obtain ⟨hvariant, -, hrunning, hepoch, -, hrd⟩ := h
  have hhead := epochHead_congr n hvariant (fun g => hrd _ (by simp [epochObjs, mem_units4]))
  unfold State.epochLoaf
  dsimp only
  rw [hrunning, hepoch, hhead]
theorem SameEpoch.periodTicks {n : Fin 4} {s t : State} (h : SameEpoch n s t) : t.periodTicks n = s.periodTicks n := by
  obtain ⟨-, -, -, -, hperiod, hrd⟩ := h
  unfold State.periodTicks State.cntModeN State.rdN
  rw [hperiod, hrd _ (by simp [epochObjs])]
theorem SameEpoch.peakTicks {n : Fin 4} {s t : State} (h : SameEpoch n s t) : t.peakTicks n = s.peakTicks n := by
  obtain ⟨-, -, -, -, hperiod, hrd⟩ := h
  unfold State.peakTicks State.cntModeN State.rdN
  rw [hperiod, hrd _ (by simp [epochObjs])]
theorem SameEpoch.epochD {n : Fin 4} {s t : State} (h : SameEpoch n s t) (x : Nat) : t.epochD n x = s.epochD n x := by
  have hloaf := h.epochLoaf
  have hticks := h.periodTicks
  obtain ⟨-, htick, -, -, -, hrd⟩ := h
  unfold State.epochD
  rw [hloaf, hticks, htick, hrd _ (by simp [epochObjs])]
theorem SameEpoch.epochFits {n : Fin 4} {s t : State} (h : SameEpoch n s t) : t.epochFits n = s.epochFits n := by
  have hloaf := h.epochLoaf
  have hticks := h.periodTicks
  obtain ⟨-, -, -, -, -, hrd⟩ := h
  unfold State.epochFits State.rdN
  rw [hloaf, hticks, hrd _ (by simp [epochObjs, mem_units4])]
theorem SameEpoch.epochCorr {n : Fin 4} {s t : State} (h : SameEpoch n s t) (d : Int) : t.epochCorr n d = s.epochCorr n d := by
  unfold State.epochCorr
  rw [h.epochFits]

/-! ## A period that begins (R183, R201, R205, R208, R434) -/

/-- A period begins at `t` with a correction. -/
def State.newPeriod (n : Fin 4) (t : Nat) (corr : Int) (s : State) : State := ((s.layPeriod n t corr).epochStep n t).periodBegin n

/-- The objects a period start writes. -/
def periodObjs (n : Fin 4) : List Nat := [Obj.epochDev n.val, Obj.tuStat n.val, Obj.cycleTrips n.val]

/-- A period laid out from `base` on. -/
def LoafSt.laid (t base ticks peak : Nat) (l : LoafSt) : LoafSt :=
  { l with lastStart := t, baseT := base, nextStart := base + ticks, peakDue := some (base + peak) }

theorem State.layPeriod_timed (n : Fin 4) (t : Nat) (corr : Int) (s : State) : (s.layPeriod n t corr).timed n
    = (s.timed n).laid t ((t : Int) + corr).toNat (s.periodTicks n) (s.peakTicks n) := s.timed_modLoaf n _
theorem within_layPeriod (n : Fin 4) (t : Nat) (corr : Int) (s : State) : Within n [] s (s.layPeriod n t corr) := within_modLoaf n _ s

theorem within_epochStep (n : Fin 4) (t : Nat) (s : State) :
    Within n [Obj.epochDev n.val, Obj.tuStat n.val] s (s.epochStep n t) := by
  unfold State.epochStep
  extract_lets d run s1
  have h1 : Within n [] s s1 := ⟨rfl, fun _ _ => rfl⟩
  exact (((h1.trans (within_wr ..)).trans (within_wrBit ..)).trans (within_wrBit ..)).mono (by simp)

/-- `EPOCH_DEV` and bits 2 and 3 of `TU_STAT` as the epoch unit leaves them. -/
theorem State.epochStep_shows (n : Fin 4) (t : Nat) (s : State) : (s.epochStep n t).rd (Obj.epochDev n.val) = s.epochD n t
    ∧ (s.epochStep n t).rdBit (Obj.tuStat n.val) 2 = !s.epochFits n
    ∧ (s.epochStep n t).rdBit (Obj.tuStat n.val) 3 = decide ((s.epochStep n t).time.alignRun.get n = 16) := by
  have hne : Obj.epochDev n.val ≠ Obj.tuStat n.val := by
    unfold Obj.epochDev Obj.tuStat
    omega
  refine ⟨?_, ?_, ?_⟩
  · unfold State.epochStep
    rw [State.rd_wrBit_ne _ _ _ hne, State.rd_wrBit_ne _ _ _ hne, State.rd_wr_same]
  · unfold State.epochStep
    rw [State.rdBit_wrBit, if_pos rfl, if_neg (by decide), State.rdBit_wrBit, if_pos rfl, if_pos rfl]
  · have hrun : (s.epochStep n t).time.alignRun.get n
        = if (s.epochD n t).natAbs ≤ 1 then min (s.time.alignRun.get n + 1) 16 else 0 := Quad.get_set_same ..
    rw [hrun]
    unfold State.epochStep
    rw [State.rdBit_wrBit, if_pos rfl, if_pos rfl]

theorem cycleOn_congr {n : Fin 4} {s t : State} (htrip : t.trip = s.trip)
    (hrd : ∀ i < 14, t.rd (Obj.tripMap i) = s.rd (Obj.tripMap i)) : t.cycleOn n = s.cycleOn n := by
  unfold State.cycleOn
  rw [Bool.eq_iff_iff, List.any_eq_true, List.any_eq_true]
  refine exists_congr fun i => and_congr_right fun hi => ?_
  have hnibble : t.mapNibble i n = s.mapNibble i n := by
    unfold State.mapNibble State.rdN
    rw [hrd i (List.mem_range.mp hi)]
  rw [hnibble, tripOn_congr (s := s) (t := t) (fun m => by rw [htrip])]

/-- A gap that goes on, or not. -/
def State.gapOn (n : Fin 4) (s : State) : State := if s.cycleOn n then s.gapBegin n else s

theorem State.gapBegin_keeps (n : Fin 4) (s : State) : Within n [Obj.cycleTrips n.val] s (s.gapBegin n)
    ∧ (s.gapBegin n).timed n = s.timed n ∧ ((s.gapBegin n).loaf.get n).gap = true := by
  obtain ⟨l, o, heq, hgap, hl, ho⟩ := s.gapBegin_only n
  rw [heq]
  refine ⟨⟨?_, fun a ha => ho a (fun e => ha (List.mem_singleton.mpr e))⟩, ?_, ?_⟩
  · unfold State.unframed
    dsimp only
    rw [Quad.set_set_same]
  · unfold State.timed
    rw [Quad.get_set_same]
    exact (congrArg LoafSt.timed hl :)
  · rw [Quad.get_set_same, hgap]

theorem State.gapOn_time (n : Fin 4) (s : State) : (s.gapOn n).time = s.time := by
  obtain ⟨l, o, heq, -⟩ := s.gapBegin_only n
  unfold State.gapOn
  split
  · rw [heq]
  · rfl

theorem State.gapOn_keeps (n : Fin 4) (s : State) : Within n [Obj.cycleTrips n.val] s (s.gapOn n) ∧ (s.gapOn n).timed n = s.timed n
    ∧ ((s.loaf.get n).gap = false → ((s.gapOn n).loaf.get n).gap = s.cycleOn n) := by
  obtain ⟨hwithin, htimed, hgap⟩ := s.gapBegin_keeps n
  unfold State.gapOn
  split
  · next h => exact ⟨hwithin, htimed, fun _ => hgap.trans h.symm⟩
  · next h => exact ⟨(Within.refl n s).mono (List.nil_subset _), rfl, fun h0 => h0.trans (Bool.not_eq_true _ ▸ h).symm⟩

/-- Holds and gaps of the last period are over. -/
def State.holdsEnd (n : Fin 4) (s : State) : State := s.modLoaf n (fun l => { l with hold := 0, gapCounted := false, gap := false })

theorem State.periodBegin_eq (n : Fin 4) (s : State) : s.periodBegin n = ((s.holdsEnd n).gapOn n).occur n 1 1 := rfl

theorem State.periodBegin_time (n : Fin 4) (s : State) : (s.periodBegin n).time = s.time :=
  (accounted_occur n 1 1 ((s.holdsEnd n).gapOn n)).time.trans ((s.holdsEnd n).gapOn_time n)

theorem State.periodBegin_shows (n : Fin 4) (s : State) : Within n [Obj.cycleTrips n.val] s (s.periodBegin n)
    ∧ (s.periodBegin n).timed n = { s.timed n with hold := 0 } ∧ ((s.periodBegin n).loaf.get n).gap = s.cycleOn n := by
  have hoccur := accounted_occur n 1 1 ((s.holdsEnd n).gapOn n)
  obtain ⟨hwithin, htimed, hgap⟩ := (s.holdsEnd n).gapOn_keeps n
  have hended : Within n [] s (s.holdsEnd n) := within_modLoaf n _ s
  rw [State.periodBegin_eq]
  refine ⟨((hended.trans hwithin).trans hoccur.within).mono (by simp), hoccur.timed.trans (htimed.trans (s.timed_modLoaf n _)), ?_⟩
  calc ((((s.holdsEnd n).gapOn n).occur n 1 1).loaf.get n).gap = (((s.holdsEnd n).gapOn n).loaf.get n).gap :=
        hoccur.gap
    _ = (s.holdsEnd n).cycleOn n := hgap (by unfold State.holdsEnd; rw [State.modLoaf_loaf, Quad.get_set_same])
    _ = s.cycleOn n := cycleOn_congr rfl (fun _ _ => rfl)

/-- The reads that decide on periods are no objects that a period start writes. -/
theorem periodObjs_apart (n : Fin 4) : (∀ a ∈ epochObjs n, a ∉ periodObjs n) ∧ ∀ i < 14, Obj.tripMap i ∉ periodObjs n := by
  revert n
  decide

/-- What a period start leaves: its unit, the gap of a trip that is still asserted, and what it measured. -/
theorem State.newPeriod_shows (n : Fin 4) (t : Nat) (corr : Int) (s : State) : Within n (periodObjs n) s (s.newPeriod n t corr)
    ∧ (s.newPeriod n t corr).timed n
      = { (s.timed n).laid t ((t : Int) + corr).toNat (s.periodTicks n) (s.peakTicks n) with hold := 0 }
    ∧ ((s.newPeriod n t corr).loaf.get n).gap = s.cycleOn n ∧ (s.newPeriod n t corr).rd (Obj.epochDev n.val) = s.epochD n t
    ∧ (s.newPeriod n t corr).rdBit (Obj.tuStat n.val) 2 = !s.epochFits n
    ∧ (s.newPeriod n t corr).rdBit (Obj.tuStat n.val) 3 = decide ((s.newPeriod n t corr).time.alignRun.get n = 16) := by
  have hlaid := within_layPeriod n t corr s
  have hstep := within_epochStep n t (s.layPeriod n t corr)
  have htimed := s.layPeriod_timed n t corr
  obtain ⟨hdev, hfits, haligned⟩ := (s.layPeriod n t corr).epochStep_shows n t
  obtain ⟨hbegin, hunit, hgap⟩ := ((s.layPeriod n t corr).epochStep n t).periodBegin_shows n
  have hsame : SameEpoch n s (s.layPeriod n t corr) := hlaid.sameEpoch (fun _ _ => List.not_mem_nil)
    (by rw [htimed]; rfl) (by rw [htimed]; rfl) (by rw [htimed]; rfl)
  have hne : Obj.epochDev n.val ≠ Obj.cycleTrips n.val ∧ Obj.tuStat n.val ≠ Obj.cycleTrips n.val := by
    unfold Obj.epochDev Obj.tuStat Obj.cycleTrips
    omega
  have hclock : (s.newPeriod n t corr).time = ((s.layPeriod n t corr).epochStep n t).time :=
    State.periodBegin_time ..
  have hstat := hbegin.2 (Obj.tuStat n.val) (by simpa using hne.2)
  refine ⟨((hlaid.trans hstep).trans hbegin).mono (by simp [periodObjs]), hunit.trans ?_, hgap.trans ?_, ?_, ?_, ?_⟩
  · rw [← htimed]
    rfl
  · exact cycleOn_congr (hstep.trip.trans hlaid.trip) (fun i hi => by
      have := (periodObjs_apart n).2 i hi
      exact ((hlaid.trans hstep).mono (by simp [periodObjs])).2 _ this)
  · exact (hbegin.2 _ (by simpa using hne.1)).trans (hdev.trans (hsame.epochD t))
  · exact (State.rdBit_of_rd hstat 2).trans (hfits.trans (by rw [hsame.epochFits]))
  · rw [hclock]
    exact (State.rdBit_of_rd hstat 3).trans haligned

/-! ## Samples awaited across a start (R234, R344) -/

theorem within_reconAsk (n : Fin 4) (s : State) : Within n [] s (s.reconAsk n) ∧ (s.reconAsk n).loaf = s.loaf
    ∧ (s.reconAsk n).time = s.time := by
  unfold State.reconAsk
  split
  · exact ⟨Within.refl n s, rfl, rfl⟩
  · split
    · exact ⟨Within.refl n s, rfl, rfl⟩
    · exact ⟨⟨rfl, fun _ _ => rfl⟩, rfl, rfl⟩

theorem within_dropHeld (n : Fin 4) (b : Nat) (s : State) : Within n [] s (s.dropHeld n b) ∧ (s.dropHeld n b).loaf = s.loaf := by
  unfold State.dropHeld
  exact ⟨within_forAll (fun k _ x => within_modConvN n k _ x) s, forAll_keeps (g := State.loaf) (fun k x => State.modConvN_loaf k _ x) _ s⟩

end Sys2Proof.Machine
end

section
/-! The start of a counter and its periods (R181, R183, R186, R188, R201, R208, R433, R434). -/

namespace Sys2Proof.Machine

open Sys2Proof

/-! ## The counter starts (R181, R186) -/

/-- A loaf's unit with its counter started at `t`, the converters' completed sequences noted and its epoch taken over. -/
def LoafSt.begun (t : Nat) (base : List Nat) (e : Option (Fin 4)) (l : LoafSt) : LoafSt :=
  { l with
    running := true, periods := 1, startT := t, frameT := t, boundaryT := t, evtCount := [], evtFired := 0, evtOven := 0, evtEnd := 0
    high := 0, closing := false, grpDue := false, due := false, done := false, wasLate := false
    injBase := base, injOut := [], burstDone := [], burstOut := [], epoch := e }

/-- The counter of a loaf begins its frame 0 at `t`. -/
def State.countReset (n : Fin 4) (t : Nat) (s : State) : State :=
  let mine := fun (a : Acc) => s.accLoaf a.conv a.input == some n
  let s1 := { s with acc := s.acc.filter (fun a => !mine a), accOld := s.accOld.filter (fun a => !mine a) }
  ((s1.modLoaf n (LoafSt.begun t ((List.range 4).map (fun k => (s.convAt k).injDone)) (s.epochHead n))).modOven n
    (fun o => { o with udc := none, thetaOk := false, uHist := [] })).wr (Obj.frameCount n.val) 0

/-- Its first reload. -/
def State.firstReload (n : Fin 4) (t : Nat) (s : State) : State :=
  (((s.countReset n t).reloadCommits n t).reloadTiming n true).crustRefresh n

/-- A commit that was taken ends a run of late frames (R189). -/
def State.lateEnds (n : Fin 4) (took : Bool) (s : State) : State :=
  if took then (s.wr (Obj.lateRun n.val) 0).modLoaf n (fun l => { l with lateSaid := false }) else s

/-- The state its first period begins in. -/
def State.readied (n : Fin 4) (t : Nat) (s : State) : State :=
  (s.firstReload n t).lateEnds n (takenCommit (s.loaf.get n).commits t).isSome

/-- A period that begins with the correction of its own deviation. -/
def State.ownPeriod (n : Fin 4) (t : Nat) (s : State) : State := s.newPeriod n t (s.epochCorr n (s.epochD n t))

/-- The tick from which such a period counts. -/
def State.ownBase (n : Fin 4) (t : Nat) (s : State) : Nat := ((t : Int) + s.epochCorr n (s.epochD n t)).toNat

/-- The counter has started, before its first boundary is handed over. -/
def State.started (n : Fin 4) (t : Nat) (s : State) : State := (((s.readied n t).ownPeriod n t).reconAsk n).dropHeld n t

theorem State.counterStart_eq (n : Fin 4) (t : Nat) (s : State) : s.counterStart n t = ((s.pwmTo n).started n t).handover n t := rfl

/-- The objects a counter start writes before its first period. -/
def reloadObjs (n : Fin 4) : List Nat := Obj.frameCount n.val :: Obj.lateRun n.val :: activeCmps n

theorem within_countReset (n : Fin 4) (t : Nat) (s : State) : Within n [Obj.frameCount n.val] s (s.countReset n t) := by
  unfold State.countReset
  extract_lets mine s1
  have h1 : Within n [] s s1 := ⟨rfl, fun _ _ => rfl⟩
  exact (((h1.trans (within_modLoaf ..)).trans (within_modOven ..)).trans (within_wr ..)).mono (by simp)
theorem State.countReset_loaf (n : Fin 4) (t : Nat) (s : State) : (s.countReset n t).loaf.get n
    = (s.loaf.get n).begun t ((List.range 4).map (fun k => (s.convAt k).injDone)) (s.epochHead n) := Quad.get_set_same ..

theorem within_lateEnds (n : Fin 4) (took : Bool) (s : State) : Within n [Obj.lateRun n.val] s (s.lateEnds n took)
    ∧ (s.lateEnds n took).timed n = s.timed n := by
  unfold State.lateEnds
  split
  · exact ⟨(within_wr ..).trans (within_modLoaf ..), State.timed_modLoaf n _ _⟩
  · exact ⟨(Within.refl n s).mono (List.nil_subset _), rfl⟩

theorem within_firstReload (n : Fin 4) (t : Nat) (s : State) :
    Within n (Obj.frameCount n.val :: activeCmps n) s (s.firstReload n t) :=
  ((((within_countReset n t s).trans (within_reloadCommits n t _)).trans (within_reloadTiming n true _)).trans
    (within_crustRefresh n _)).mono (by simp)

/-- The timing a counter starts with. -/
def State.firstUnit (n : Fin 4) (t : Nat) (s : State) : LoafSt :=
  ((s.loaf.get n).begun t [] (s.epochHead n)).timed.loaded true (s.rdN (Obj.period n.val)) (s.rdN (Obj.deadTime n.val))
    (s.rdN (Obj.frameLen n.val))

theorem timingObjs_apart (n : Fin 4) : ∀ a ∈ [Obj.period n.val, Obj.deadTime n.val, Obj.frameLen n.val],
    a ∉ Obj.frameCount n.val :: activeCmps n := by
  revert n
  decide

theorem State.firstReload_timed (n : Fin 4) (t : Nat) (s : State) : (s.firstReload n t).timed n = s.firstUnit n t := by
  have hrd : ∀ a ∈ [Obj.period n.val, Obj.deadTime n.val, Obj.frameLen n.val],
      ((s.countReset n t).reloadCommits n t).rdN a = s.rdN a := fun a ha => congrArg Int.toNat
    (((within_countReset n t s).trans (within_reloadCommits n t _)).2 a (timingObjs_apart n a ha))
  unfold State.firstReload
  rw [State.crustRefresh_timed, State.reloadTiming_timed, State.reloadCommits_timed, hrd _ (by simp), hrd _ (by simp), hrd _ (by simp)]
  unfold State.timed
  rw [State.countReset_loaf]
  rfl

theorem within_readied (n : Fin 4) (t : Nat) (s : State) : Within n (reloadObjs n) s (s.readied n t) :=
  ((within_firstReload n t s).trans (within_lateEnds n _ _).1).mono (by simp [reloadObjs])
theorem State.readied_timed (n : Fin 4) (t : Nat) (s : State) : (s.readied n t).timed n = s.firstUnit n t :=
  (within_lateEnds n _ _).2.trans (s.firstReload_timed n t)

/-- After a period's begin the bursts asked for and the samples dropped change no object and no loaf. -/
theorem State.started_tail (n : Fin 4) (t : Nat) (s : State) : Within n [] ((s.readied n t).ownPeriod n t) (s.started n t)
    ∧ (s.started n t).loaf = ((s.readied n t).ownPeriod n t).loaf := by
  obtain ⟨hask, hloaf, -⟩ := within_reconAsk n ((s.readied n t).ownPeriod n t)
  obtain ⟨hdrop, hloaf'⟩ := within_dropHeld n t (((s.readied n t).ownPeriod n t).reconAsk n)
  exact ⟨hask.trans hdrop, hloaf'.trans hloaf⟩

theorem within_started (n : Fin 4) (t : Nat) (s : State) : Within n (periodObjs n) (s.readied n t) (s.started n t) :=
  (((s.readied n t).newPeriod_shows n t _).1.trans (s.started_tail n t).1).mono (by simp)

/-- The unit with which a counter has started. -/
theorem State.started_timed (n : Fin 4) (t : Nat) (s : State) : (s.started n t).timed n
    = { (s.firstUnit n t).laid t ((s.readied n t).ownBase n t) ((s.readied n t).periodTicks n) ((s.readied n t).peakTicks n) with
        hold := 0 } := by
  obtain ⟨-, htimed, -⟩ := (s.readied n t).newPeriod_shows n t ((s.readied n t).epochCorr n ((s.readied n t).epochD n t))
  rw [← s.readied_timed n t]
  refine Eq.trans ?_ htimed
  unfold State.timed
  rw [(s.started_tail n t).2]
  rfl

/-- The epoch unit measures the same before and after the first period's begin. -/
theorem State.started_sameEpoch (n : Fin 4) (t : Nat) (s : State) : SameEpoch n (s.readied n t) (s.started n t) := by
  have htimed := s.started_timed n t
  have hready := s.readied_timed n t
  exact (within_started n t s).sameEpoch (periodObjs_apart n).1 (by rw [htimed, hready]; rfl) (by rw [htimed, hready]; rfl)
    (by rw [htimed, hready]; rfl)

theorem startObjs_apart (n : Fin 4) : Obj.frameCount n.val ∉ Obj.lateRun n.val :: activeCmps n ∧ Obj.lateRun n.val ∉ periodObjs n
    ∧ (∀ a ∈ Obj.frameCount n.val :: activeCmps n, a ∉ periodObjs n) ∧ ∀ a ∈ activeCmps n, a ≠ Obj.lateRun n.val := by
  revert n
  decide

theorem State.started_frameCount (n : Fin 4) (t : Nat) (s : State) : (s.started n t).rd (Obj.frameCount n.val) = 0 := by
  obtain ⟨hcount, -, hperiod, -⟩ := startObjs_apart n
  have hreload : Within n (Obj.lateRun n.val :: activeCmps n) (s.countReset n t) (s.readied n t) :=
    ((((within_reloadCommits n t _).trans (within_reloadTiming n true _)).trans (within_crustRefresh n _)).trans
      (within_lateEnds n _ _).1).mono (by simp)
  calc (s.started n t).rd (Obj.frameCount n.val) = (s.readied n t).rd (Obj.frameCount n.val) :=
        (within_started n t s).2 _ (hperiod _ (by simp))
    _ = (s.countReset n t).rd (Obj.frameCount n.val) := hreload.2 _ hcount
    _ = 0 := State.rd_wr_same ..

/-- A commit taken at the start is active, and no frame was late. -/
theorem State.started_taken {n : Fin 4} {t : Nat} {s : State} {c : Commit} (h : takenCommit (s.loaf.get n).commits t = some c) :
    (s.started n t).rd (Obj.lateRun n.val) = 0 ∧ (s.started n t).rd (Obj.activeCmp n.val 0) = c.cmp.1
      ∧ (s.started n t).rd (Obj.activeCmp n.val 1) = c.cmp.2.1 ∧ (s.started n t).rd (Obj.activeCmp n.val 2) = c.cmp.2.2 := by
  obtain ⟨-, hlate, hperiod, hne⟩ := startObjs_apart n
  have hwithin := within_started n t s
  have hcommits : takenCommit ((s.countReset n t).loaf.get n).commits t = some c := by
    rw [State.countReset_loaf]
    exact h
  have hready : s.readied n t = ((s.firstReload n t).wr (Obj.lateRun n.val) 0).modLoaf n (fun l => { l with lateSaid := false }) := by
    unfold State.readied State.lateEnds
    rw [h]
    rfl
  have hactive : ∀ a ∈ activeCmps n, (s.started n t).rd a = ((s.countReset n t).reloadCommits n t).rd a := fun a ha => by
    rw [hwithin.2 a (hperiod a (by simp [ha])), hready]
    exact State.rd_wr_ne _ _ (hne a ha)
  obtain ⟨h0, h1, h2⟩ := State.reloadCommits_taken hcommits
  refine ⟨?_, (hactive _ (by simp [activeCmps])).trans h0, (hactive _ (by simp [activeCmps])).trans h1,
    (hactive _ (by simp [activeCmps])).trans h2⟩
  rw [hwithin.2 _ hlate, hready]
  exact State.rd_wr_same ..

/-- What the epoch unit shows after the first period's begin. -/
theorem State.started_epoch (n : Fin 4) (t : Nat) (s : State) :
    (((s.started n t).loaf.get n).nextStart : Int)
        = max 0 ((t : Int) + (s.started n t).epochCorr n ((s.started n t).epochD n t)) + (s.started n t).periodTicks n
      ∧ (s.started n t).rd (Obj.epochDev n.val) = (s.started n t).epochD n t
      ∧ (s.started n t).rdBit (Obj.tuStat n.val) 2 = !(s.started n t).epochFits n := by
  have htimed := s.started_timed n t
  obtain ⟨-, -, -, hdev, hfits, -⟩ := (s.readied n t).newPeriod_shows n t ((s.readied n t).epochCorr n ((s.readied n t).epochD n t))
  have hsame := s.started_sameEpoch n t
  have htail := (s.started_tail n t).1
  have hnext : ((s.started n t).loaf.get n).nextStart = (s.readied n t).ownBase n t + (s.readied n t).periodTicks n :=
    (congrArg LoafSt.nextStart htimed :)
  refine ⟨?_, ?_, ?_⟩
  · rw [hnext, hsame.epochD, hsame.epochCorr, hsame.periodTicks, Nat.cast_add, State.ownBase, Int.toNat_eq_max, max_comm]
  · rw [hsame.epochD]
    exact (htail.2 _ List.not_mem_nil).trans hdev
  · rw [hsame.epochFits]
    exact (State.rdBit_of_rd (htail.2 _ List.not_mem_nil) 2).trans hfits

/-! ## Time alone decides on no event of a counter -/

theorem State.atT_only (s : State) (t : Nat) : ∃ tm, s.atT t = { s with time := tm } ∧ tm.startTick = s.time.startTick := by
  unfold State.atT
  split
  · exact ⟨s.time, rfl, rfl⟩
  · exact ⟨_, rfl, rfl⟩

theorem sameEpoch_atT (n : Fin 4) (t : Nat) (s : State) : SameEpoch n s (s.atT t) := by
  obtain ⟨tm, h, htick⟩ := s.atT_only t
  rw [h]
  exact ⟨rfl, htick, rfl, rfl, rfl, fun _ _ => rfl⟩

theorem State.atT_counterRuns (n : Fin 4) (t : Nat) (s : State) : (s.atT t).counterRuns n = s.counterRuns n := by
  obtain ⟨tm, h, -⟩ := s.atT_only t
  rw [h]
  rfl
theorem State.atT_startsAt (n : Fin 4) (t x : Nat) (s : State) : (s.atT t).startsAt n x = s.startsAt n x := by
  obtain ⟨tm, h, -⟩ := s.atT_only t
  rw [h]
  rfl
theorem State.atT_atPeak (n : Fin 4) (t x : Nat) (s : State) : (s.atT t).atPeak n x = s.atPeak n x := by
  obtain ⟨tm, h, -⟩ := s.atT_only t
  rw [h]
  rfl
theorem State.atT_periodEnds (n : Fin 4) (t x : Nat) (s : State) : (s.atT t).periodEnds n x = s.periodEnds n x := by
  obtain ⟨tm, h, -⟩ := s.atT_only t
  rw [h]
  rfl
theorem State.atT_boundaryDue (n : Fin 4) (t x : Nat) (s : State) : (s.atT t).boundaryDue n x = s.boundaryDue n x := by
  obtain ⟨tm, h, -⟩ := s.atT_only t
  rw [h]
  rfl
theorem State.atT_closeDue (n : Fin 4) (t x : Nat) (s : State) : (s.atT t).closeDue n x = s.closeDue n x := by
  obtain ⟨tm, h, -⟩ := s.atT_only t
  rw [h]
  rfl
theorem State.atT_regionHas (n : Fin 4) (t : Nat) (s : State) :
    ((s.atT t).regionUp && (s.atT t).has n.val) = (s.regionUp && s.has n.val) := by
  obtain ⟨tm, h, -⟩ := s.atT_only t
  rw [h]
  rfl

/-! ## The steps -/

theorem exec_counterStart (n : Fin 4) (t : Nat) (s : State) : exec (.counterStart n t) s
    = if s.regionUp && s.has n.val && s.startsAt n t && !s.haltC && !s.haltM then .next ((s.atT t).counterStart n t).settle
      else .next (s.atT t) := by
  show (if (s.atT t).regionUp && (s.atT t).has n.val && (s.atT t).startsAt n t && !(s.atT t).haltC && !(s.atT t).haltM
    then _ else _) = _
  rw [State.atT_regionHas, State.atT_startsAt, State.atT_haltC, State.atT_haltM]

theorem State.startsAt_iff (n : Fin 4) (t : Nat) (s : State) : s.startsAt n t = true ↔ (s.loaf.get n).st ≠ .off
    ∧ (s.loaf.get n).running = false ∧ ∃ x, (s.loaf.get n).firstTick = some x ∧ x + s.rdN (Obj.phaseOfs n.val) = t := by
  unfold State.startsAt
  simp [and_assoc]

end Sys2Proof.Machine
end

section
/-! Start ticks, period starts and peaks (R181, R183, R201, R205, R208, R433, R434). -/

namespace Sys2Proof.Machine

open Sys2Proof

/-! ## A start tick (R433) -/

/-- A loaf that waits for its counter notes the first start tick of its epoch. -/
def State.tickWait (e : Fin 4) (t : Nat) (m : Fin 4) (s : State) : State :=
  if s.epochLoaf m = e ∧ (s.loaf.get m).st ≠ .off ∧ !(s.loaf.get m).running ∧ (s.loaf.get m).firstTick = none then
    s.modLoaf m (fun l => { l with firstTick := some t }) else s

theorem State.tickWaits_eq (e : Fin 4) (t : Nat) (s : State) : s.tickWaits e t = forAll s.loaves (State.tickWait e t) s := rfl

/-- The loaves alone may have changed, and of them not `m`. -/
def SpareLoaf (m : Fin 4) (s t : State) : Prop := ∃ q, t = { s with loaf := q } ∧ q.get m = s.loaf.get m

theorem SpareLoaf.refl (m : Fin 4) (s : State) : SpareLoaf m s s := ⟨s.loaf, rfl, rfl⟩
theorem SpareLoaf.trans {m : Fin 4} {s t u : State} (h : SpareLoaf m s t) (k : SpareLoaf m t u) : SpareLoaf m s u := by
  obtain ⟨q, rfl, hq⟩ := h
  obtain ⟨r, rfl, hr⟩ := k
  exact ⟨r, rfl, hr.trans hq⟩
theorem SpareLoaf.epochLoaf {m : Fin 4} {s t : State} (h : SpareLoaf m s t) : t.epochLoaf m = s.epochLoaf m := by
  obtain ⟨q, rfl, hq⟩ := h
  exact SameEpoch.epochLoaf (s := s) ⟨rfl, rfl, by rw [hq], by rw [hq], by rw [hq], fun _ _ => rfl⟩

theorem tickWait_spares {e m k : Fin 4} (h : k ≠ m) (t : Nat) (s : State) : SpareLoaf m s (s.tickWait e t k) := by
  unfold State.tickWait
  split
  · exact ⟨_, rfl, Quad.get_set_ne _ _ h.symm⟩
  · exact SpareLoaf.refl m s

/-- Of a sweep over some units, each once, one unit's step stands between steps that are not its own. -/
theorem forAll_nodup_at {R : State → State → Prop} {f : Fin 4 → State → State} {l : List (Fin 4)} (hl : l.Nodup) {n : Fin 4} (hn : n ∈ l)
    (hrefl : ∀ s, R s s) (htrans : ∀ {s t u}, R s t → R t u → R s u) (hf : ∀ m, m ≠ n → ∀ x, R x (f m x)) (s : State) :
    ∃ x, R s x ∧ R (f n x) (forAll l f s) := by
  obtain ⟨before, after, rfl⟩ := List.append_of_mem hn
  have hrest : ∀ {k : List (Fin 4)}, n ∉ k → ∀ x, R x (forAll k f x) := fun hk =>
    forAll_rel hrefl htrans (fun m hm => hf m (fun hmn => hk (hmn ▸ hm)))
  rw [List.nodup_middle, List.nodup_cons, List.mem_append, not_or] at hl
  obtain ⟨⟨hbefore, hafter⟩, -⟩ := hl
  have hsweep : forAll (before ++ n :: after) f s = forAll after f (f n (forAll before f s)) := by
    rw [forAll, List.foldl_append]
    rfl
  exact ⟨forAll before f s, hrest hbefore s, hsweep ▸ hrest hafter _⟩

theorem loaves_nodup (s : State) : s.loaves.Nodup := List.Nodup.filter _ (by decide)

/-- After a start tick a loaf stands as its own step leaves it. -/
theorem State.tickWaits_at {s : State} {m : Fin 4} (hm : m ∈ s.loaves) (e : Fin 4) (t : Nat) :
    (s.tickWaits e t).loaf.get m = (s.tickWait e t m).loaf.get m := by
  obtain ⟨x, hbefore, hafter⟩ := forAll_nodup_at (R := SpareLoaf m) (f := State.tickWait e t) (loaves_nodup s) hm (SpareLoaf.refl m)
    SpareLoaf.trans (fun k hk x => tickWait_spares hk t x) s
  have hepoch := hbefore.epochLoaf
  obtain ⟨q, hx, hq⟩ := hbefore
  obtain ⟨r, hr, hrm⟩ := hafter
  have hloaf : x.loaf.get m = s.loaf.get m := by rw [hx, hq]
  have hend : (s.tickWaits e t).loaf.get m = (x.tickWait e t m).loaf.get m := by
    rw [State.tickWaits_eq, hr]
    exact hrm
  rw [hend]
  unfold State.tickWait
  rw [hepoch, hloaf]
  split
  · rw [State.modLoaf_loaf, State.modLoaf_loaf, Quad.get_set_same, Quad.get_set_same, hloaf]
  · exact hloaf

theorem State.tickWait_only (e m : Fin 4) (t : Nat) (s : State) : ∃ q, s.tickWait e t m = { s with loaf := q } := by
  unfold State.tickWait
  split
  · exact ⟨_, rfl⟩
  · exact ⟨s.loaf, rfl⟩
theorem State.tickWaits_only (e : Fin 4) (t : Nat) (s : State) : ∃ q, s.tickWaits e t = { s with loaf := q } :=
  forAll_rel (R := fun x y : State => ∃ q, y = { x with loaf := q }) (f := State.tickWait e t) (fun x => ⟨x.loaf, rfl⟩)
    (fun ⟨_, hp⟩ ⟨q, hq⟩ => ⟨q, by rw [hq, hp]⟩) (fun m _ x => x.tickWait_only e m t) s

/-- The state in which a start tick is the latest of loaf `n`'s epoch. -/
def State.tickAt (n : Fin 4) (t : Nat) (s : State) : State := (s.atT t).modTime (fun x => { x with startTick := x.startTick.set n t })

theorem State.tickAt_only (n : Fin 4) (t : Nat) (s : State) :
    s.tickAt n t = { s with time := { (s.atT t).time with startTick := s.time.startTick.set n t } } := by
  obtain ⟨tm, h, htick⟩ := s.atT_only t
  unfold State.tickAt
  rw [h]
  unfold State.modTime
  dsimp only
  rw [htick]

theorem State.tickAt_epochLoaf (n m : Fin 4) (t : Nat) (s : State) : (s.tickAt n t).epochLoaf m = s.epochLoaf m := by
  rw [State.tickAt_only]
  rfl

theorem exec_epochStartTick (n : Fin 4) (t : Nat) (s : State) : exec (.epochStartTick n t) s
    = if s.regionUp && s.has n.val && (s.atT t).tickNow n then .next ((s.tickAt n t).tickWaits n t) else .next (s.atT t) := by
  show (if (s.atT t).regionUp && (s.atT t).has n.val && (s.atT t).tickNow n then _ else _) = _
  rw [State.atT_regionHas]
  rfl

/-! ## A period start (R183, R201, R205, R434) -/

/-- A period more, the edges before accounted. -/
def State.countPeriod (n : Fin 4) (s : State) : State := (s.pwmTo n).modLoaf n (fun l => { l with periods := l.periods + 1 })

/-- The bursts of a frame's first period asked for (R344). -/
def State.askFirst (n : Fin 4) (first : Bool) (s : State) : State := if first then s.reconAsk n else s

/-- The state after a period start, before what follows from it. -/
def State.periodStarted (n : Fin 4) (t : Nat) (s : State) : State :=
  ((s.countPeriod n).newPeriod n t (s.epochCorr n (s.epochD n t))).askFirst n (decide ((s.loaf.get n).periods = 0))

theorem State.countPeriod_within (n : Fin 4) (s : State) : Within n [] s (s.countPeriod n) :=
  (accounted_pwmTo n s).within.trans (within_modLoaf n _ _)
theorem State.countPeriod_timed (n : Fin 4) (s : State) :
    (s.countPeriod n).timed n = { s.timed n with periods := (s.loaf.get n).periods + 1 } := by
  have htimed := (accounted_pwmTo n s).timed
  calc (s.countPeriod n).timed n = { (s.pwmTo n).timed n with periods := ((s.pwmTo n).timed n).periods + 1 } := State.timed_modLoaf n _ _
    _ = { s.timed n with periods := (s.loaf.get n).periods + 1 } := by rw [htimed]; rfl
theorem State.askFirst_keeps (n : Fin 4) (first : Bool) (s : State) : Within n [] s (s.askFirst n first)
    ∧ (s.askFirst n first).loaf = s.loaf ∧ (s.askFirst n first).time = s.time := by
  unfold State.askFirst
  split
  · exact within_reconAsk n s
  · exact ⟨Within.refl n s, rfl, rfl⟩

theorem exec_periodStart (n : Fin 4) (t : Nat) (s : State) : exec (.periodStart n t) s
    = if s.periodEnds n t then .next ((s.atT t).periodStarted n t).settle else .next (s.atT t) := by
  show (if (s.atT t).periodEnds n t then _ else _) = _
  rw [State.atT_periodEnds]
  rfl

theorem State.periodStarted_shows (n : Fin 4) (t : Nat) (s : State) : Within n (periodObjs n) s (s.periodStarted n t)
    ∧ (s.periodStarted n t).timed n = { (s.timed n).laid t ((t : Int) + s.epochCorr n (s.epochD n t)).toNat (s.periodTicks n)
        (s.peakTicks n) with periods := (s.loaf.get n).periods + 1, hold := 0 }
    ∧ ((s.periodStarted n t).loaf.get n).gap = s.cycleOn n ∧ (s.periodStarted n t).rd (Obj.epochDev n.val) = s.epochD n t
    ∧ (s.periodStarted n t).rdBit (Obj.tuStat n.val) 3 = decide ((s.periodStarted n t).time.alignRun.get n = 16) := by
  have hcounted := s.countPeriod_within n
  have hcountedt := s.countPeriod_timed n
  unfold State.periodStarted
  generalize s.countPeriod n = y at hcounted hcountedt ⊢
  have hsame : SameEpoch n s y := hcounted.sameEpoch (fun _ _ => List.not_mem_nil) (by rw [hcountedt]) (by rw [hcountedt])
    (by rw [hcountedt])
  obtain ⟨hnew, hunit, hgap, hdev, -, hstat⟩ := y.newPeriod_shows n t (s.epochCorr n (s.epochD n t))
  generalize y.newPeriod n t (s.epochCorr n (s.epochD n t)) = z at hnew hunit hgap hdev hstat ⊢
  obtain ⟨hask, hloaf, htime⟩ := z.askFirst_keeps n (decide ((s.loaf.get n).periods = 0))
  refine ⟨((hcounted.trans hnew).trans hask).mono (by simp), ?_, ?_, ?_, ?_⟩
  · unfold State.timed at hunit ⊢
    rw [hloaf, hunit, hsame.periodTicks, hsame.peakTicks]
    exact congrArg (fun l : LoafSt => { l.laid t ((t : Int) + s.epochCorr n (s.epochD n t)).toNat (s.periodTicks n)
        (s.peakTicks n) with hold := 0 }) hcountedt
  · rw [hloaf, hgap]
    exact cycleOn_congr hcounted.trip (fun i _ => hcounted.2 _ List.not_mem_nil)
  · rw [hask.2 _ List.not_mem_nil, hdev, hsame.epochD]
  · rw [htime]
    exact (State.rdBit_of_rd (hask.2 _ List.not_mem_nil) 3).trans hstat

/-! ## A peak (R179, R187, R208) -/

/-- An event channel's part of an occurrence. -/
def State.occurAt (n : Fin 4) (src k x : Nat) (s : State) : State :=
  if s.rdN (Obj.evtSrc n.val x) = src then
    let l := s.loaf.get n
    let c := l.evtCount.getD x 0
    let f := firings c k (s.rdN (Obj.evtPresc n.val x))
    let toLine := s.rdBit (Obj.evtTgt n.val x) 0
    let toOven := decide (f ≠ 0) && s.rdBit (Obj.evtTgt n.val x) 1
    s.modLoaf n (fun l => { l with
      evtCount := ((List.range 3).map (fun i => l.evtCount.getD i 0)).set x (c + k)
      evtFired := if f ≠ 0 then putBit l.evtFired x true else l.evtFired
      evtOven := if toOven then putBit l.evtOven x true else l.evtOven
      lines := if toLine then ((List.range 3).map (fun i => l.lines.getD i 0)).set x (l.lines.getD x 0 + f) else l.lines })
  else s

theorem State.occur_eq {k : Nat} (hk : k ≠ 0) (n : Fin 4) (src : Nat) (s : State) :
    s.occur n src k = ((s.occurAt n src k 0).occurAt n src k 1).occurAt n src k 2 := by
  unfold State.occur
  rw [if_neg hk]
  rfl

theorem getD_set_counts (l : List Nat) (v : Nat) {x j : Nat} (hx : x < 3) (hj : j < 3) :
    (((List.range 3).map (fun i => l.getD i 0)).set x v).getD j 0 = if j = x then v else l.getD j 0 := by
  interval_cases x <;> interval_cases j <;> rfl

theorem State.occurAt_rd (n : Fin 4) (src k x a : Nat) (s : State) : (s.occurAt n src k x).rd a = s.rd a := by
  unfold State.occurAt
  split
  · rfl
  · rfl

theorem State.occurAt_count (n : Fin 4) (src k : Nat) {x j : Nat} (hx : x < 3) (hj : j < 3) (s : State) :
    ((s.occurAt n src k x).loaf.get n).evtCount.getD j 0
      = (s.loaf.get n).evtCount.getD j 0 + if j = x ∧ s.rdN (Obj.evtSrc n.val x) = src then k else 0 := by
  unfold State.occurAt
  split
  · next h =>
    dsimp only
    rw [State.modLoaf_loaf, Quad.get_set_same, getD_set_counts _ _ hx hj]
    by_cases hjx : j = x
    · simp [hjx, h]
    · simp [hjx]
  · next h => simp [h]

/-- An occurrence counts once on each channel that has its source. -/
theorem State.occur_count {k : Nat} (hk : k ≠ 0) (n : Fin 4) (src : Nat) {j : Nat} (hj : j < 3) (s : State) :
    ((s.occur n src k).loaf.get n).evtCount.getD j 0
      = (s.loaf.get n).evtCount.getD j 0 + if s.rdN (Obj.evtSrc n.val j) = src then k else 0 := by
  have hrd : ∀ x a (y : State), (y.occurAt n src k x).rdN a = y.rdN a := fun x a y => congrArg Int.toNat (y.occurAt_rd ..)
  rw [State.occur_eq hk, State.occurAt_count n src _ (by decide) hj, State.occurAt_count n src _ (by decide) hj,
    State.occurAt_count n src _ (by decide) hj, hrd, hrd, hrd]
  interval_cases j <;> simp

end Sys2Proof.Machine
end

section
/-! Frame boundaries and closes (R185 to R190, R209, R233 to R236, R270, R282). -/

namespace Sys2Proof.Machine

open Sys2Proof

/-! ## The boundary (R186, R209, R233) -/

/-- A loaf's unit with its frame ended at `t`. -/
def LoafSt.turned (peak : Bool) (t count : Nat) (e : Option (Fin 4)) (l : LoafSt) : LoafSt :=
  { l with
    periods := if peak then l.periods else l.periods - l.actLen, frameT := l.boundaryT, boundaryT := t, closing := true, due := false
    countEnd := count, evtEnd := l.evtOven, evtFired := 0, evtOven := 0, epoch := e.orElse (fun _ => l.epoch) }

/-- The frame that ends has its packet and is numbered on. -/
def State.turned (n : Fin 4) (t : Nat) (s : State) : State :=
  (((s.eventPacket n).ovenBoundary n).modLoaf n
    (LoafSt.turned (s.atPeak n t) t (s.rdN (Obj.frameCount n.val)) (s.epochHead n))).bumpWrap (Obj.frameCount n.val)

/-- Its boundary's reload. -/
def State.reloaded (n : Fin 4) (t : Nat) (s : State) : State := ((s.turned n t).reloadCommits n t).reloadTiming n (!s.atPeak n t)

/-- What follows the count of late frames. -/
def State.handsOver (n : Fin 4) (s : State) : State := ((s.splitAcc n).frameExtras n).crustRefresh n

/-- The state of a boundary before it is handed over. -/
def State.bounded (n : Fin 4) (t : Nat) (s : State) : State :=
  ((s.reloaded n t).lateCheck n (takenCommit (s.loaf.get n).commits t).isSome).handsOver n

theorem State.boundary_eq (n : Fin 4) (t : Nat) (s : State) : s.boundary n t = ((s.pwmTo n).bounded n t).handover n t := rfl

theorem within_ovenBoundary (n : Fin 4) (s : State) : Within n [] s (s.ovenBoundary n) := within_modOven n n _ s
theorem within_bumpWrap (n : Fin 4) (a : Nat) (s : State) : Within n [a] s (s.bumpWrap a) := within_wr ..
theorem within_handsOver (n : Fin 4) (s : State) : Within n [] s (s.handsOver n) := by
  have hsplit : Within n [] s (s.splitAcc n) := ⟨rfl, fun _ _ => rfl⟩
  exact (hsplit.trans (within_modLoaf n _ _)).trans (within_crustRefresh n _)
theorem State.handsOver_timed (n : Fin 4) (s : State) : (s.handsOver n).timed n = s.timed n :=
  (State.crustRefresh_timed n _).trans (State.timed_modLoaf n _ _)
theorem State.handsOver_acc (n : Fin 4) (s : State) :
    (s.handsOver n).acc = s.acc.filter (fun a => !(s.accLoaf a.conv a.input == some n)) := rfl

theorem within_turned (n : Fin 4) (t : Nat) (s : State) : Within n [Obj.frameCount n.val] (s.eventPacket n) (s.turned n t) :=
  (((within_ovenBoundary n _).trans (within_modLoaf n _ _)).trans (within_bumpWrap n _ _)).mono (by simp)
theorem State.turned_loaf (n : Fin 4) (t : Nat) (s : State) : (s.turned n t).loaf.get n
    = (s.loaf.get n).turned (s.atPeak n t) t (s.rdN (Obj.frameCount n.val)) (s.epochHead n) := Quad.get_set_same ..
theorem State.turned_frameCount (n : Fin 4) (t : Nat) (s : State) :
    (s.turned n t).rd (Obj.frameCount n.val) = (s.rd (Obj.frameCount n.val) + 1) % 0x100000000 := State.rd_wr_same ..

theorem within_reloaded (n : Fin 4) (t : Nat) (s : State) :
    Within n (Obj.frameCount n.val :: activeCmps n) (s.eventPacket n) (s.reloaded n t) :=
  (((within_turned n t s).trans (within_reloadCommits n t _)).trans (within_reloadTiming n _ _)).mono (by simp)
theorem State.reloaded_timed (n : Fin 4) (t : Nat) (s : State) : ∃ period dead, (s.reloaded n t).timed n
    = ((s.loaf.get n).turned (s.atPeak n t) t (s.rdN (Obj.frameCount n.val)) (s.epochHead n)).timed.loaded (!s.atPeak n t) period dead
      (s.rdN (Obj.frameLen n.val)) := by
  have hlen : ((s.turned n t).reloadCommits n t).rdN (Obj.frameLen n.val) = s.rdN (Obj.frameLen n.val) := congrArg Int.toNat
    (((within_turned n t s).trans (within_reloadCommits n t _)).2 _ (timingObjs_apart n _ (by simp)))
  have htiming := ((s.turned n t).reloadCommits n t).reloadTiming_timed n (!s.atPeak n t)
  have hturned : (s.turned n t).timed n
      = ((s.loaf.get n).turned (s.atPeak n t) t (s.rdN (Obj.frameCount n.val)) (s.epochHead n)).timed := by
    unfold State.timed
    rw [State.turned_loaf]
  rw [State.reloadCommits_timed, hlen, hturned] at htiming
  exact ⟨_, _, htiming⟩
theorem State.reloaded_rd {n : Fin 4} {a : Nat} (ha : a ∉ activeCmps n) (t : Nat) (s : State) :
    (s.reloaded n t).rd a = (s.turned n t).rd a :=
  ((within_reloadCommits n t _).trans (within_reloadTiming n _ _)).2 a (by simpa using ha)

/-- A frame whose commit was taken is not late. -/
theorem State.lateCheck_took (n : Fin 4) (s : State) : s.lateCheck n true
    = (s.wr (Obj.lateRun n.val) 0).modLoaf n (fun l => { l with lateSaid := false, wasLate := false }) := rfl
theorem within_lateCheck_took (n : Fin 4) (s : State) : Within n [Obj.lateRun n.val] s (s.lateCheck n true)
    ∧ (s.lateCheck n true).timed n = { s.timed n with wasLate := false } := by
  rw [State.lateCheck_took]
  exact ⟨(within_wr ..).trans (within_modLoaf ..), State.timed_modLoaf n _ _⟩

/-- A late frame is counted, and its run up to 255; the report of its third leaves objects of its own only. -/
theorem State.lateCheck_late {n : Fin 4} {s : State} (h : (s.loaf.get n).st = .closed) {a : Nat} (ha : a ∉ collectorObjs) :
    (s.lateCheck n false).rd a = ((s.bump (Obj.lateCount n.val)).bumpTo (Obj.lateRun n.val) 255).rd a := by
  unfold State.lateCheck
  rw [if_neg (by decide), if_pos h]
  extract_lets s1
  split
  · exact quiet_rd (State.latch_quiet ..) ha
  · rfl

/-! ## What a boundary leaves -/

theorem boundaryObjs_apart (n : Fin 4) : Obj.frameCount n.val ∉ Obj.lateRun n.val :: activeCmps n
    ∧ (∀ a ∈ activeCmps n, a ∉ [Obj.lateRun n.val]) ∧ (∀ a ∈ reloadObjs n, a ∉ collectorObjs)
    ∧ Obj.lateCount n.val ∉ collectorObjs ∧ Obj.lateCount n.val ∉ reloadObjs n ∧ Obj.lateRun n.val ∉ activeCmps n
    ∧ Obj.lateRun n.val ≠ Obj.frameCount n.val := by
  revert n
  decide

theorem reloadObjs_low (n : Fin 4) : ∀ a ∈ reloadObjs n, a < 0x300000 := by
  revert n
  decide

/-- The packet of the frame that ended, which waits last. -/
theorem State.eventPacket_only (n : Fin 4) (s : State) : ∃ q : Packet, s.eventPacket n
      = { s with peelC := { s.peelC with waiting := s.peelC.waiting ++ [(n.val, q, s.time.now)] } }
    ∧ q.clsTyp = PktKind.event.head ∧ leAt q.payload 1 1 = n.val := by
  have hn : n.val % 256 = n.val := Nat.mod_eq_of_lt (by omega)
  refine ⟨_, rfl, rfl, ?_⟩
  simp [pkt, leAt, slice, leBytes, leNat, List.range_succ, hn]

/-- The accumulators' loaves are read above the objects of a boundary. -/
theorem accLoaf_congr {s t : State} (h : ∀ a, 0x300000 ≤ a → t.rd a = s.rd a) (k i : Nat) : t.accLoaf k i = s.accLoaf k i := by
  have hrole : t.role k i = s.role k i := congrArg Int.toNat (h _ (by unfold Obj.chRole; omega))
  have haux : t.auxLoafN = s.auxLoafN := congrArg (fun x => Fin.ofNat 4 (Int.toNat x)) (h _ (by unfold Obj.auxLoaf; omega))
  unfold State.accLoaf
  rw [hrole, haux]

/-- A boundary that takes a commit keeps to its loaf, once its packet is on its way. -/
theorem State.bounded_took (n : Fin 4) (t : Nat) {s : State} {c : Commit} (h : takenCommit (s.loaf.get n).commits t = some c) :
    s.bounded n t = ((s.reloaded n t).lateCheck n true).handsOver n := by
  unfold State.bounded
  rw [h]
  rfl

theorem within_bounded_took {n : Fin 4} {t : Nat} {s : State} {c : Commit} (h : takenCommit (s.loaf.get n).commits t = some c) :
    Within n (reloadObjs n) (s.eventPacket n) (s.bounded n t) := by
  rw [State.bounded_took n t h]
  exact (((within_reloaded n t s).trans (within_lateCheck_took n _).1).trans (within_handsOver n _)).mono (by simp [reloadObjs])

theorem State.bounded_took_timed {n : Fin 4} {t : Nat} {s : State} {c : Commit} (h : takenCommit (s.loaf.get n).commits t = some c) :
    ∃ period dead, (s.bounded n t).timed n
      = { ((s.loaf.get n).turned (s.atPeak n t) t (s.rdN (Obj.frameCount n.val)) (s.epochHead n)).timed.loaded (!s.atPeak n t) period dead
          (s.rdN (Obj.frameLen n.val)) with wasLate := false } := by
  obtain ⟨period, dead, htimed⟩ := s.reloaded_timed n t
  refine ⟨period, dead, ?_⟩
  rw [State.bounded_took n t h, State.handsOver_timed, (within_lateCheck_took n _).2, htimed]

/-- The frame's number, the compare words taken and the run of late frames. -/
theorem State.bounded_took_rd {n : Fin 4} {t : Nat} {s : State} {c : Commit} (h : takenCommit (s.loaf.get n).commits t = some c) :
    (s.bounded n t).rd (Obj.frameCount n.val) = (s.rd (Obj.frameCount n.val) + 1) % 0x100000000
      ∧ (s.bounded n t).rd (Obj.activeCmp n.val 0) = c.cmp.1 ∧ (s.bounded n t).rd (Obj.activeCmp n.val 1) = c.cmp.2.1
      ∧ (s.bounded n t).rd (Obj.activeCmp n.val 2) = c.cmp.2.2 ∧ (s.bounded n t).rd (Obj.lateRun n.val) = 0 := by
  obtain ⟨hcount, hactive, -⟩ := boundaryObjs_apart n
  rw [List.mem_cons, not_or] at hcount
  have hrd : ∀ a, a ≠ Obj.lateRun n.val → (s.bounded n t).rd a = (s.reloaded n t).rd a := fun a ha => by
    rw [State.bounded_took n t h]
    exact ((within_lateCheck_took n _).1.trans (within_handsOver n _)).2 a (by simpa using ha)
  have hcommits : takenCommit ((s.turned n t).loaf.get n).commits t = some c := by
    rw [State.turned_loaf]
    exact h
  have hcmp : ∀ a ∈ activeCmps n, (s.bounded n t).rd a = ((s.turned n t).reloadCommits n t).rd a := fun a ha =>
    hrd a (by simpa using hactive a ha)
  obtain ⟨h0, h1, h2⟩ := State.reloadCommits_taken hcommits
  refine ⟨?_, (hcmp _ (by simp [activeCmps])).trans h0, (hcmp _ (by simp [activeCmps])).trans h1,
    (hcmp _ (by simp [activeCmps])).trans h2, ?_⟩
  · rw [hrd _ hcount.1, State.reloaded_rd hcount.2, State.turned_frameCount]
  · rw [State.bounded_took n t h, (within_handsOver n _).2 _ List.not_mem_nil]
    exact State.rd_wr_same ..

/-- No accumulator of the loaf is left with those of the frame that begins. -/
theorem State.bounded_took_acc {n : Fin 4} {t : Nat} {s : State} {c : Commit} (h : takenCommit (s.loaf.get n).commits t = some c) :
    ∀ a ∈ (s.bounded n t).acc, s.accLoaf a.conv a.input ≠ some n := by
  intro a ha hmine
  rw [State.bounded_took n t h, State.handsOver_acc, List.mem_filter] at ha
  have hwithin := (within_reloaded n t s).trans (within_lateCheck_took n _).1
  have hrd : ∀ b, 0x300000 ≤ b → ((s.reloaded n t).lateCheck n true).rd b = s.rd b := fun b hb =>
    hwithin.2 b (fun hin => absurd (reloadObjs_low n b (by simpa [reloadObjs, or_comm, or_assoc, or_left_comm] using hin)) (by omega))
  have := ha.2
  rw [accLoaf_congr hrd, hmine] at this
  simp at this

/-- A boundary of a CLOSED loaf that takes none: the frame is numbered on, the compare words stay, and the late frame is counted. -/
theorem State.bounded_late_rd {n : Fin 4} {t : Nat} {s : State} (hclosed : (s.loaf.get n).st = .closed)
    (h : takenCommit (s.loaf.get n).commits t = none) :
    (s.bounded n t).rd (Obj.frameCount n.val) = (s.rd (Obj.frameCount n.val) + 1) % 0x100000000
      ∧ (∀ a ∈ activeCmps n, (s.bounded n t).rd a = s.rd a)
      ∧ (s.rd (Obj.lateCount n.val) < 0xFFFFFFFF → (s.bounded n t).rd (Obj.lateCount n.val) = s.rd (Obj.lateCount n.val) + 1)
      ∧ (s.rd (Obj.lateRun n.val) < 255 → (s.bounded n t).rd (Obj.lateRun n.val) = s.rd (Obj.lateRun n.val) + 1) := by
  obtain ⟨hcount, hactive, hkept, hlate, hlateout, hrun, hruncount⟩ := boundaryObjs_apart n
  obtain ⟨period, dead, htimed⟩ := s.reloaded_timed n t
  have hst : ((s.reloaded n t).loaf.get n).st = .closed := (congrArg LoafSt.st htimed :).trans hclosed
  have hrd : ∀ a, a ∉ collectorObjs → (s.bounded n t).rd a
      = (((s.reloaded n t).bump (Obj.lateCount n.val)).bumpTo (Obj.lateRun n.val) 255).rd a := fun a ha => by
    unfold State.bounded
    rw [(within_handsOver n _).2 a List.not_mem_nil, h]
    exact State.lateCheck_late hst ha
  have hnone : takenCommit ((s.turned n t).loaf.get n).commits t = none := by
    rw [State.turned_loaf]
    exact h
  have hreloaded : ∀ a, a ≠ Obj.frameCount n.val → (s.reloaded n t).rd a = s.rd a := fun a ha =>
    ((within_reloadTiming n _ _).2 a List.not_mem_nil).trans ((State.reloadCommits_none hnone a).trans
      ((within_turned n t s).2 a (by simpa using ha)))
  unfold reloadObjs at hlateout hkept
  simp only [List.mem_cons, not_or] at hlateout hcount
  refine ⟨?_, fun a ha => ?_, fun hlow => ?_, fun hlow => ?_⟩
  · rw [hrd _ (hkept _ (by simp)), State.rd_bumpTo_ne _ _ hcount.1, State.rd_bump_ne _ (Ne.symm hlateout.1),
      State.reloaded_rd hcount.2, State.turned_frameCount]
  · have hrun : a ≠ Obj.lateRun n.val := by simpa using hactive a ha
    have hlate : a ≠ Obj.lateCount n.val := fun e => hlateout.2.2 (e ▸ ha)
    rw [hrd a (hkept a (by simp [ha])), State.rd_bumpTo_ne _ _ hrun, State.rd_bump_ne _ hlate,
      hreloaded a (fun e => hcount.2 (e ▸ ha))]
  · have hbefore := hreloaded _ hlateout.1
    rw [hrd _ hlate, State.rd_bumpTo_ne _ _ hlateout.2.1, State.rd_bump_same _ (by rw [hbefore]; exact hlow), hbefore]
  · rw [hrd _ (hkept _ (by simp)), State.rd_bumpTo_same, State.rd_bump_ne _ (Ne.symm hlateout.2.1), hreloaded _ hruncount]
    exact min_eq_left (Int.add_one_le_iff.mpr hlow)

/-! ## What a boundary hands over (R270, R281, R282) -/

theorem State.handover_none {n : Fin 4} {t : Nat} {s : State} (h : (s.fbHandoff n t).groupOf n = none) :
    s.handover n t = s.fbHandoff n t := by
  unfold State.handover
  dsimp only
  rw [h]
theorem State.handover_waits {n g : Fin 4} {t : Nat} {s : State} (h : (s.fbHandoff n t).groupOf n = some g)
    (hwaits : ((s.fbHandoff n t).fbWaits n && ((s.fbHandoff n t).grp.get g).st.active) = true) : s.handover n t
      = ((s.fbHandoff n t).modLoaf n (fun l => { l with grpDue := true })).modGrp g
        (fun x => { x with cut := some ((s.fbHandoff n t).cutOf g) }) := by
  unfold State.handover
  dsimp only
  rw [h]
  exact if_pos hwaits
theorem State.handover_now {n g : Fin 4} {t : Nat} {s : State} (h : (s.fbHandoff n t).groupOf n = some g)
    (hnow : ¬((s.fbHandoff n t).fbWaits n && ((s.fbHandoff n t).grp.get g).st.active) = true) :
    s.handover n t = (s.fbHandoff n t).groupAt n := by
  unfold State.handover
  dsimp only
  rw [h]
  exact if_neg hnow

theorem exec_frameBoundary (n : Fin 4) (t : Nat) (s : State) : exec (.frameBoundary n t) s
    = if s.counterRuns n && s.boundaryDue n t then .next ((s.atT t).boundary n t).settle else .next (s.atT t) := by
  show (if (s.atT t).counterRuns n && (s.atT t).boundaryDue n t then _ else _) = _
  rw [State.atT_counterRuns, State.atT_boundaryDue]

/-! ## The close (R234 to R236) -/

/-- The means of a frame's inputs written. -/
def State.meansWritten (n : Fin 4) (s : State) : State :=
  forAll (s.inputsOf n) (fun p x =>
    let a := s.oldAcc p.1 p.2
    if a.count = 0 then x else x.wr (Obj.chMean p.1 p.2) a.mean) s

/-- What the inputs of a loaf give its close. -/
def State.closes (n : Fin 4) (s : State) : List InputClose :=
  (s.inputsOf n).map (fun p => s.closeInput (s.awaits (s.loaf.get n).boundaryT p) p.1 p.2)

/-- The converters whose inputs mark a frame. -/
def State.marked (n : Fin 4) (s : State) : List Nat :=
  (List.range 4).filter (fun k => (s.closes n).any (fun c => decide (c.conv = k) && c.marks))

/-- The handoff of the frame that closes. -/
def State.handoffOf (n : Fin 4) (s : State) : Handoff :=
  { incomplete := (s.closes n).any (fun c => c.marks)
    means := (s.closes n).map (fun c => (c.role, c.value, c.valid))
    counts := (s.closes n).map (fun c => (c.role, c.count))
    inj := (s.loaf.get n).injOut
    pairBuf := (s.loaf.get n).burstOut
    marked := s.marked n }

/-- The frame handed over to the Oven. -/
def State.handed (n : Fin 4) (s : State) : State :=
  ((forAll (s.marked n) (fun k x => x.bump (Obj.incomplete k)) (s.meansWritten n)).setHand n (s.handoffOf n)).modLoaf n
    (fun l => { l with closing := false, due := true })

/-- The AUX means with it where the loaf is AUX's (R249). -/
def State.auxClosed (n : Fin 4) (s : State) : State :=
  if s.auxLoafN = n then forAll (List.range 8) (State.auxMean s.accOld) (s.handed n) else s.handed n

/-- The state of a close before the serial transfers of its frame are judged. -/
def State.closed (n : Fin 4) (s : State) : State :=
  ((s.auxClosed n).setAccOld ((s.auxClosed n).accOld.filter (fun a => !(s.accLoaf a.conv a.input == some n)))).dropHeld n
    (s.loaf.get n).boundaryT

theorem State.closeFrame_eq (n : Fin 4) (s : State) : s.closeFrame n = (s.closed n).serialLate n := rfl

/-- Accumulators, handoffs and loaves. -/
def State.closeData (s : State) : List Acc × Quad Handoff × Quad LoafSt := (s.acc, s.hand, s.loaf)

theorem State.modConvN_closeData (k : Nat) (f : ConvSt → ConvSt) (s : State) : (s.modConvN k f).closeData = s.closeData := rfl
theorem State.modConvN_accOld (k : Nat) (f : ConvSt → ConvSt) (s : State) : (s.modConvN k f).accOld = s.accOld := rfl

theorem State.auxMean_keeps (l : List Acc) (i : Nat) (s : State) : (State.auxMean l i s).closeData = s.closeData
    ∧ ∀ a, a ≠ Obj.chMean 5 i → (State.auxMean l i s).rd a = s.rd a := by
  unfold State.auxMean
  split
  · split
    · exact ⟨rfl, fun _ _ => rfl⟩
    · exact ⟨rfl, fun a ha => State.rd_wr_ne s _ ha⟩
  · exact ⟨rfl, fun _ _ => rfl⟩

/-- Of writes to several objects, each that is written holds its own value. -/
theorem forAll_wr_at {α : Type} {f : α → Nat} {v : α → Int} {skip : α → Prop} [DecidablePred skip] {l : List α} {a : α} (ha : a ∈ l)
    (hskip : ¬skip a) (hf : ∀ b ∈ l, f b = f a → b = a) (s : State) :
    (forAll l (fun p x => if skip p then x else x.wr (f p) (v p)) s).rd (f a) = v a := by
  suffices h : ∀ (k : List α) (x : State), (∀ b ∈ k, f b = f a → b = a) → x.rd (f a) = v a ∨ a ∈ k →
      (forAll k (fun p x => if skip p then x else x.wr (f p) (v p)) x).rd (f a) = v a from h l s hf (.inr ha)
  intro k
  induction k with
  | nil => exact fun x _ hx => hx.resolve_right List.not_mem_nil
  | cons b k ih =>
    intro x hk hx
    refine ih _ (fun c hc => hk c (List.mem_cons_of_mem b hc)) ?_
    dsimp only
    by_cases hb : f b = f a
    · obtain rfl := hk b List.mem_cons_self hb
      rw [if_neg hskip]
      exact .inl (State.rd_wr_same ..)
    · have hba : a ≠ b := fun e => hb (e ▸ rfl)
      refine hx.imp (fun h0 => ?_) (fun h0 => (List.mem_cons.mp h0).resolve_left hba)
      split
      · exact h0
      · rw [State.rd_wr_ne _ _ (Ne.symm hb), h0]

theorem inputsOf_bounds {n : Fin 4} {s : State} {p : Nat × Nat} (h : p ∈ s.inputsOf n) : p.1 < 4 ∧ p.2 < 9 := by
  unfold State.inputsOf at h
  simp only [List.mem_filter, List.mem_flatMap, List.mem_map, List.mem_range] at h
  obtain ⟨⟨k, hk, i, hi, rfl⟩, -⟩ := h
  exact ⟨hk, hi⟩

/-- The mean of an input. -/
def chMeanOf (p : Nat × Nat) : Nat := Obj.chMean p.1 p.2

theorem chMean_inj {p q : Nat × Nat} (hp : p.2 < 9) (hq : q.2 < 9) (h : chMeanOf p = chMeanOf q) : p = q := by
  unfold chMeanOf Obj.chMean at h
  exact Prod.ext (by omega) (by omega)

theorem State.meansWritten_mean {n : Fin 4} {s : State} {p : Nat × Nat} (hp : p ∈ s.inputsOf n)
    (hcount : (s.oldAcc p.1 p.2).count ≠ 0) : (s.meansWritten n).rd (Obj.chMean p.1 p.2) = (s.oldAcc p.1 p.2).mean := by
  have hinj : ∀ q ∈ s.inputsOf n, chMeanOf q = chMeanOf p → q = p := fun q hq e =>
    chMean_inj (inputsOf_bounds hq).2 (inputsOf_bounds hp).2 e
  have hmean := forAll_wr_at (v := fun p => (s.oldAcc p.1 p.2).mean) (skip := fun p => (s.oldAcc p.1 p.2).count = 0) hp hcount hinj s
  exact hmean

/-- The counts of incomplete frames and the AUX means are other objects. -/
theorem State.closed_mean {n : Fin 4} {s : State} {p : Nat × Nat} (hp : p ∈ s.inputsOf n)
    (hcount : (s.oldAcc p.1 p.2).count ≠ 0) : (s.closed n).rd (Obj.chMean p.1 p.2) = (s.oldAcc p.1 p.2).mean := by
  obtain ⟨hconv, hinput⟩ := inputsOf_bounds hp
  have hincomplete : ∀ k, Obj.chMean p.1 p.2 ≠ Obj.incomplete k := fun k => by
    unfold Obj.chMean Obj.incomplete
    omega
  have haux : ∀ i < 8, Obj.chMean p.1 p.2 ≠ Obj.chMean 5 i := fun i hi => by
    unfold Obj.chMean
    omega
  have hhanded : (s.handed n).rd (Obj.chMean p.1 p.2) = (s.meansWritten n).rd (Obj.chMean p.1 p.2) :=
    forAll_keeps (g := fun x => x.rd (Obj.chMean p.1 p.2)) (fun k x => State.rd_bump_ne x (hincomplete k)) _ _
  have hclosed : (s.auxClosed n).rd (Obj.chMean p.1 p.2) = (s.handed n).rd (Obj.chMean p.1 p.2) := by
    unfold State.auxClosed
    split
    · exact forAll_keeps_mem (g := fun x => x.rd (Obj.chMean p.1 p.2))
        (fun i hi x => (State.auxMean_keeps _ i x).2 _ (haux i (List.mem_range.mp hi))) _
    · rfl
  calc (s.closed n).rd (Obj.chMean p.1 p.2) = (s.auxClosed n).rd (Obj.chMean p.1 p.2) := (within_dropHeld n _ _).1.2 _ List.not_mem_nil
    _ = (s.oldAcc p.1 p.2).mean := hclosed.trans (hhanded.trans (State.meansWritten_mean hp hcount))

theorem State.meansWritten_closeData (n : Fin 4) (s : State) : (s.meansWritten n).closeData = s.closeData :=
  forAll_keeps (g := State.closeData) (fun p x => by
    dsimp only
    split
    · rfl
    · rfl) _ s

theorem State.handed_closeData (n : Fin 4) (s : State) : (s.handed n).closeData
    = (s.acc, s.hand.set n (s.handoffOf n), s.loaf.set n { s.loaf.get n with closing := false, due := true }) := by
  have hbumps : (forAll (s.marked n) (fun k x => x.bump (Obj.incomplete k)) (s.meansWritten n)).closeData = s.closeData :=
    (forAll_keeps (g := State.closeData) (fun k x => by
      obtain ⟨o, ho⟩ := x.bump_only (Obj.incomplete k)
      rw [ho]
      rfl) _ _).trans (s.meansWritten_closeData n)
  exact congrArg (fun d : List Acc × Quad Handoff × Quad LoafSt => (d.1, d.2.1.set n (s.handoffOf n),
    d.2.2.set n { d.2.2.get n with closing := false, due := true })) hbumps

theorem State.closed_closeData (n : Fin 4) (s : State) : (s.closed n).closeData
    = (s.acc, s.hand.set n (s.handoffOf n), s.loaf.set n { s.loaf.get n with closing := false, due := true }) := by
  have haux : (s.auxClosed n).closeData = (s.handed n).closeData := by
    unfold State.auxClosed
    split
    · exact forAll_keeps (g := State.closeData) (fun i x => (State.auxMean_keeps _ i x).1) _ _
    · rfl
  have hdrop : (s.closed n).closeData = (s.auxClosed n).closeData := by
    unfold State.closed State.dropHeld
    exact forAll_keeps (g := State.closeData) (fun k x => State.modConvN_closeData k _ x) _ _
  exact hdrop.trans (haux.trans (s.handed_closeData n))

theorem State.closed_accOld (n : Fin 4) (s : State) : ∀ a ∈ (s.closed n).accOld, s.accLoaf a.conv a.input ≠ some n := by
  have hdrop : (s.closed n).accOld = (s.auxClosed n).accOld.filter (fun a => !(s.accLoaf a.conv a.input == some n)) := by
    unfold State.closed State.dropHeld
    exact forAll_keeps (g := State.accOld) (fun k x => State.modConvN_accOld k _ x) _ _
  intro a ha hmine
  rw [hdrop, List.mem_filter, hmine] at ha
  simp at ha

theorem exec_frameClose (n : Fin 4) (t : Nat) (s : State) : exec (.frameClose n t) s
    = if s.counterRuns n && s.closeDue n t then .next ((s.atT t).closeFrame n).settle else .next (s.atT t) := by
  show (if (s.atT t).counterRuns n && (s.atT t).closeDue n t then _ else _) = _
  rw [State.atT_counterRuns, State.atT_closeDue]

end Sys2Proof.Machine
end

section
/-! Counters, periods and frame boundaries as their steps leave them (O37). -/

namespace Sys2Proof.Machine

open Sys2Proof

/-! ## A counter that does not run (R181) -/

theorem State.frameDue_runs {s : State} {n : Fin 4} (h : s.frameDue n.val = true) : s.counterRuns n = true := by
  unfold State.frameDue at h
  obtain ⟨m, -, hm⟩ := List.any_eq_true.mp h
  simp only [Bool.and_eq_true, decide_eq_true_eq] at hm
  obtain ⟨⟨⟨hmn, hruns⟩, -⟩, -⟩ := hm
  rwa [← Fin.ext hmn]

theorem exec_loafFrameCompute_stopped {n : Fin 4} {s : State} (h : s.counterRuns n = false) (t : Nat) :
    exec (.loafFrameCompute n t) s = .next (s.atT t) := by
  refine execLoafFrameCompute_other ?_
  cases hg : s.ovenArb.grant 4 (s.atT t).frameDue with
  | none => exact .inl rfl
  | some g =>
    refine .inr ⟨g.1, g.2, rfl, fun hn => ?_⟩
    have hdue := (Arb.grant_requests hg).2
    rw [hn] at hdue
    have hruns := State.frameDue_runs hdue
    rw [State.atT_counterRuns, h] at hruns
    exact Bool.false_ne_true hruns

theorem exec_pwmPeak (n : Fin 4) (t : Nat) (s : State) : exec (.pwmPeak n t) s
    = if s.counterRuns n && decide ((s.loaf.get n).peakDue = some t) && !s.atPeak n t then
        .next (((s.atT t).occur n 2 1).modLoaf n (fun l => { l with peakDue := none })) else .next (s.atT t) := by
  show (if (s.atT t).counterRuns n && decide (((s.atT t).loaf.get n).peakDue = some t) && !(s.atT t).atPeak n t then _ else _) = _
  rw [State.atT_counterRuns, State.atT_loaf, State.atT_atPeak]

theorem exec_stopped {n : Fin 4} {s : State} (h : s.counterRuns n = false) (t : Nat) :
    ∀ c ∈ [Instr.periodStart n t, .pwmPeak n t, .frameBoundary n t, .frameClose n t, .loafFrameCompute n t],
      exec c s = .next (s.atT t) := by
  intro c hc
  simp only [List.mem_cons, List.not_mem_nil, or_false] at hc
  rcases hc with rfl | rfl | rfl | rfl | rfl
  · exact (exec_periodStart n t s).trans (if_neg (by simp [State.periodEnds, h]))
  · exact (exec_pwmPeak n t s).trans (if_neg (by simp [h]))
  · exact (exec_frameBoundary n t s).trans (if_neg (by simp [h]))
  · exact (exec_frameClose n t s).trans (if_neg (by simp [h]))
  · exact exec_loafFrameCompute_stopped h t

end Sys2Proof.Machine

namespace Sys2Proof

open Sys2Proof.Machine

/-- Settles O37: each step is a chain of operations that keep to their loaf; the epoch unit measures the same before and after a period
is laid out, and what has been handed over is stated of the state before it. -/
theorem periodsAndFrames : Obligations.PeriodsAndFrames := by
  unfold Obligations.PeriodsAndFrames
  refine ⟨?_, fun n t s => s.startsAt_iff n t, ?_, ?_, ?_, ?_, ?_, fun n t s h => exec_stopped h t, ?_, ?_, ?_, ?_, ?_, ?_⟩
  case refine_1 =>
    intro n t s hup hn hstarts hc hm
    have hexec : exec (.counterStart n t) s = .next (((((s.atT t).pwmTo n).started n t).handover n t).settle) :=
      (exec_counterStart n t s).trans ((if_pos (by rw [hup, hn, hstarts, hc, hm]; rfl)).trans (by rw [State.counterStart_eq]))
    have hacc := accounted_pwmTo n (s.atT t)
    generalize (s.atT t).pwmTo n = p at hexec hacc
    have hrd : ∀ a, p.rd a = s.rd a := fun a => (hacc.within.2 a List.not_mem_nil).trans (s.atT_rd t a)
    have hrdN : ∀ a, p.rdN a = s.rdN a := fun a => congrArg Int.toNat (hrd a)
    have htimed := p.started_timed n t
    have hhead : p.epochHead n = s.epochHead n :=
      epochHead_congr n (hacc.within.variant.trans (s.atT_variant t)) (fun g => hrd _)
    have hcommits : (p.loaf.get n).commits = (s.loaf.get n).commits := hacc.commits.trans (by rw [State.atT_loaf])
    obtain ⟨hnext, hdev, hfits⟩ := p.started_epoch n t
    refine ⟨_, hexec, (congrArg LoafSt.running htimed :), (congrArg LoafSt.periods htimed :), (congrArg LoafSt.lastStart htimed :),
      (congrArg LoafSt.boundaryT htimed :), p.started_frameCount n t, (congrArg LoafSt.actPeriod htimed :).trans (hrdN _), hnext,
      (congrArg LoafSt.epoch htimed :).trans hhead, hdev, hfits, (congrArg LoafSt.actDead htimed :).trans (hrdN _),
      (congrArg LoafSt.actLen htimed :).trans (hrdN _), fun c hcommit => ?_, fun m hm => ?_⟩
    · exact State.started_taken (by rw [hcommits]; exact hcommit)
    · rw [((within_readied n t p).trans (within_started n t p)).other hm, hacc.within.other hm, State.atT_loaf]
  case refine_2 =>
    intro n t s h
    refine (exec_counterStart n t s).trans (if_neg ?_)
    rcases h with h | h | h <;> simp [h]
  case refine_3 =>
    intro n t s hup hn htick
    have hloaf : (s.tickAt n t).loaf = s.loaf := by rw [State.tickAt_only]
    have hmem : ∀ m ∈ s.loaves, m ∈ (s.tickAt n t).loaves := fun m hm => by
      rw [State.tickAt_only]
      exact hm
    obtain ⟨q, hq⟩ := (s.tickAt n t).tickWaits_only n t
    refine ⟨_, (exec_epochStartTick n t s).trans (if_pos (by rw [hup, hn, htick]; rfl)), ?_, ?_, ?_, ?_⟩
    · rw [hq, State.tickAt_only]
    · intro m hm hepoch hst hstopped hfirst
      rw [State.tickWaits_at (hmem m hm)]
      unfold State.tickWait
      rw [State.tickAt_epochLoaf, hloaf, if_pos ⟨hepoch, hst, by rw [hstopped]; rfl, hfirst⟩, State.modLoaf_loaf, Quad.get_set_same, hloaf]
    · intro m hm hnot
      rw [State.tickWaits_at (hmem m hm)]
      unfold State.tickWait
      rw [State.tickAt_epochLoaf, hloaf, if_neg, hloaf]
      rintro ⟨hepoch, hst, hstopped, hfirst⟩
      rcases hnot with h | h | h | h
      · exact h hepoch
      · exact hst h
      · rw [h] at hstopped
        exact Bool.false_ne_true hstopped
      · exact h hfirst
    · rw [hq, State.tickAt_only]
  case refine_4 =>
    intro n t s h
    exact (exec_epochStartTick n t s).trans (if_neg (by simp [h]))
  case refine_5 =>
    intro n t s hends
    have hsame := sameEpoch_atT n t s
    obtain ⟨hwithin, htimed, hgap, hdev, hstat⟩ := (s.atT t).periodStarted_shows n t
    rw [hsame.epochD, hsame.epochCorr, hsame.periodTicks] at htimed
    rw [hsame.epochD] at hdev
    have hcycle : (s.atT t).cycleOn n = s.cycleOn n := cycleOn_congr (s.atT_trip t) (fun _ _ => s.atT_rd t _)
    refine ⟨_, ⟨_, (exec_periodStart n t s).trans (if_pos hends), State.settle_quiet _⟩, (congrArg LoafSt.periods htimed :).trans ?_,
      (congrArg LoafSt.lastStart htimed :), (congrArg LoafSt.hold htimed :), hgap.trans hcycle, ?_, hdev, hstat, fun m hm => ?_⟩
    · rw [State.atT_loaf]
    · have hnext : (((s.atT t).periodStarted n t).loaf.get n).nextStart
          = ((t : Int) + s.epochCorr n (s.epochD n t)).toNat + s.periodTicks n := (congrArg LoafSt.nextStart htimed :)
      rw [hnext, Nat.cast_add, Int.toNat_eq_max, max_comm]
    · rw [hwithin.other hm, State.atT_loaf]
  case refine_6 =>
    intro n t s hruns hpeak hnot
    have hocc := accounted_occur n 2 1 (s.atT t)
    refine ⟨_, (exec_pwmPeak n t s).trans (if_pos (by rw [hruns, decide_eq_true hpeak, hnot]; rfl)), ?_, fun m hm => ?_, ?_,
      fun x hx hsrc => ?_⟩
    · obtain ⟨l, -, h⟩ := hocc
      rw [h]
      exact s.atT_objs t
    · rw [(hocc.within.trans (within_modLoaf n _ _)).other hm, State.atT_loaf]
    · rw [State.modLoaf_loaf, Quad.get_set_same]
    · have hcount := State.occur_count (Nat.one_ne_zero) n 2 hx (s.atT t)
      have hhas : (s.atT t).rdN (Obj.evtSrc n.val x) = 2 := (congrArg Int.toNat (s.atT_rd t _)).trans hsrc
      rw [State.atT_loaf, if_pos hhas] at hcount
      rw [State.modLoaf_loaf, Quad.get_set_same]
      exact hcount
  case refine_7 =>
    intro n t c s hruns hdue hcommit
    have hexec : exec (.frameBoundary n t) s = .next (((((s.atT t).pwmTo n).bounded n t).handover n t).settle) :=
      (exec_frameBoundary n t s).trans ((if_pos (by rw [hruns, hdue]; rfl)).trans (by rw [State.boundary_eq]))
    have hacc := accounted_pwmTo n (s.atT t)
    generalize (s.atT t).pwmTo n = p at hexec hacc
    have hrd : ∀ a, p.rd a = s.rd a := fun a => (hacc.within.2 a List.not_mem_nil).trans (s.atT_rd t a)
    have htaken : takenCommit (p.loaf.get n).commits t = some c := by
      rw [hacc.commits, State.atT_loaf, hcommit]
    obtain ⟨hcount, h0, h1, h2, hlate⟩ := State.bounded_took_rd htaken
    obtain ⟨period, dead, htimed⟩ := State.bounded_took_timed htaken
    have hwithin := within_bounded_took htaken
    obtain ⟨q, hpacket, hhead, hloafno⟩ := p.eventPacket_only n
    refine ⟨_, hexec, hcount.trans (by rw [hrd]), h0, h1, h2, hlate, (congrArg LoafSt.actLen htimed :).trans (congrArg Int.toNat (hrd _)),
      (congrArg LoafSt.boundaryT htimed :), (congrArg LoafSt.closing htimed :), (congrArg LoafSt.due htimed :),
      (congrArg LoafSt.wasLate htimed :), ⟨q, ?_, hhead, hloafno⟩, fun a ha => ?_, fun m hm => ?_⟩
    · rw [hwithin.peelC, hpacket]
      dsimp only
      rw [hacc.within.peelC, hacc.time, State.atT_peelC]
    · rw [← accLoaf_congr (fun b _ => hrd b)]
      exact State.bounded_took_acc htaken a ha
    · rw [hwithin.other hm, hpacket]
      exact (hacc.within.other hm).trans (by rw [State.atT_loaf])
  case refine_8 =>
    intro n t s hruns hdue hclosed hnone
    have hexec : exec (.frameBoundary n t) s = .next (((((s.atT t).pwmTo n).bounded n t).handover n t).settle) :=
      (exec_frameBoundary n t s).trans ((if_pos (by rw [hruns, hdue]; rfl)).trans (by rw [State.boundary_eq]))
    have hacc := accounted_pwmTo n (s.atT t)
    generalize (s.atT t).pwmTo n = p at hexec hacc
    have hrd : ∀ a, p.rd a = s.rd a := fun a => (hacc.within.2 a List.not_mem_nil).trans (s.atT_rd t a)
    have hst : (p.loaf.get n).st = .closed := (congrArg LoafSt.st hacc.unit :).trans (by rw [State.atT_loaf]; exact hclosed)
    obtain ⟨hcount, hcmp, hlate, hrun⟩ := State.bounded_late_rd hst (t := t) (by rw [hacc.commits, State.atT_loaf, hnone])
    rw [hrd] at hcount hlate hrun
    refine ⟨_, hexec, hcount, fun x hx => (hcmp _ ?_).trans (hrd _), hlate, hrun⟩
    unfold activeCmps
    interval_cases x <;> simp
  case refine_9 =>
    intro n t s hruns hdue
    exact (exec_frameBoundary n t s).trans (if_neg (by simp [hdue]))
  case refine_10 =>
    rintro n t u _ rfl
    refine ⟨State.handover_none, fun g hg hwaits hactive => State.handover_waits hg (by rw [hwaits, hactive]; rfl),
      fun g hg hnow => State.handover_now hg ?_⟩
    rcases hnow with h | h <;> simp [h]
  case refine_11 =>
    intro n t s hruns hdue
    obtain ⟨tm, hat, -⟩ := s.atT_only t
    have hexec : exec (.frameClose n t) s = .next ((((s.atT t).closed n).serialLate n).settle) :=
      (exec_frameClose n t s).trans ((if_pos (by rw [hruns, hdue]; rfl)).trans (by rw [State.closeFrame_eq]))
    rw [hat] at hexec
    have hdata := State.closed_closeData n { s with time := tm }
    have hloaf : (State.closed n { s with time := tm }).loaf = s.loaf.set n { s.loaf.get n with closing := false, due := true } :=
      congrArg (fun d => d.2.2) hdata
    refine ⟨_, hexec, ?_, ?_, fun m hm => ?_, fun p hp hcount => State.closed_mean hp hcount, State.closed_accOld n _,
      congrArg (fun d => d.1) hdata, ?_⟩
    · rw [hloaf, Quad.get_set_same]
    · rw [hloaf, Quad.get_set_same]
    · rw [hloaf, Quad.get_set_ne _ _ hm]
    · have hhand : (State.closed n { s with time := tm }).hand = s.hand.set n (State.handoffOf n { s with time := tm }) :=
        congrArg (fun d => d.2.1) hdata
      rw [hhand, Quad.get_set_same]
      exact List.map_map
  case refine_12 =>
    intro n t s h
    exact (exec_frameClose n t s).trans (if_neg (by simp [h]))

end Sys2Proof
end

section
/-! A sample of a converter (R220 to R222, R224 to R229, R238, R239): what it shows, and what it leaves of the converter's work. -/

namespace Sys2Proof.Machine

open Sys2Proof

/-! ## One converter's unit -/

theorem State.convAt_val (k : Fin 6) (s : State) : s.convAt k.val = s.conv.get k := by
  unfold State.convAt
  rw [Fin.ofNat_val_eq_self]

theorem State.convAt_modConvN (k : Nat) (f : ConvSt → ConvSt) (s : State) : (s.modConvN k f).convAt k = f (s.convAt k) :=
  Six.get_set_same ..

/-- Another converter's unit stays. -/
theorem State.convAt_modConvN_ne {k m : Nat} (h : Fin.ofNat 6 m ≠ Fin.ofNat 6 k) (f : ConvSt → ConvSt) (s : State) :
    (s.modConvN k f).convAt m = s.convAt m := Six.get_set_ne _ _ h

/-- What a change leaves of its unit it leaves of every converter's. -/
theorem State.convAt_modConvN_keeps {β : Type} {g : ConvSt → β} {f : ConvSt → ConvSt} (hf : ∀ c, g (f c) = g c) (k m : Nat) (s : State) :
    g ((s.modConvN k f).convAt m) = g (s.convAt m) := by
  by_cases h : Fin.ofNat 6 m = Fin.ofNat 6 k
  · unfold State.convAt
    rw [h]
    exact (congrArg g (Six.get_set_same ..)).trans (hf _)
  · rw [State.convAt_modConvN_ne h]

theorem Six.set_set_same {α : Type} (q : Six α) (n : Fin 6) (a b : α) : (q.set n a).set n b = q.set n b := by
  match n with
  | 0 => rfl
  | 1 => rfl
  | 2 => rfl
  | 3 => rfl
  | 4 => rfl
  | 5 => rfl

/-- Two changes of one unit in turn are one. -/
theorem State.modConvN_modConvN (k : Nat) (f g : ConvSt → ConvSt) (s : State) :
    (s.modConvN k f).modConvN k g = s.modConvN k (fun c => g (f c)) := by
  unfold State.modConvN State.modConv
  simp only [Six.get_set_same, Six.set_set_same]

/-! ## What stays beside a sample -/

/-- The converters' objects lie in a range of their own. -/
theorem convObj_apart {a : Nat} (hlo : 0x300000 ≤ a) (hhi : a < 0x380000) :
    a ∉ units4.map (fun n => Obj.ocPeak n.val) ++ collectorObjs := by
  have hrange : ∀ b ∈ units4.map (fun n => Obj.ocPeak n.val) ++ collectorObjs, b < 0x300000 ∨ 0x380000 ≤ b := by decide
  intro hmem
  have := hrange a hmem
  omega

/-- The objects in which a sample of converter `k` is counted and reported. -/
def sampleCounts (k : Nat) : List Nat := Obj.lateSamples k :: (units4.map (fun n => Obj.ocPeak n.val) ++ collectorObjs)

/-- A converter's unit without the latest results of its inputs and their detectors. -/
def ConvSt.work (c : ConvSt) : ConvSt := { c with lastT := [], chains := [], overInputs := [], slopeOn := [] }

/-- The converters' work and every object but the listed ones have stayed. -/
def Works (A : List Nat) (s t : State) : Prop := (∀ m, (t.convAt m).work = (s.convAt m).work) ∧ ObjsKept A s t

theorem Works.refl (A : List Nat) (s : State) : Works A s s := ⟨fun _ => rfl, fun _ _ => rfl⟩
theorem Works.trans {A : List Nat} {s t u : State} (h : Works A s t) (k : Works A t u) : Works A s u :=
  ⟨fun m => (k.1 m).trans (h.1 m), fun a ha => (k.2 a ha).trans (h.2 a ha)⟩

/-- Where the converters have stayed altogether, only the objects are left to look at. -/
theorem works_of_conv {A : List Nat} {s t : State} (hc : t.conv = s.conv) (ho : ObjsKept A s t) : Works A s t :=
  ⟨fun m => by unfold State.convAt; rw [hc], ho⟩
theorem works_wr {A : List Nat} {a : Nat} (ha : a ∈ A) (v : Int) (s : State) : Works A s (s.wr a v) :=
  works_of_conv rfl (fun _ hb => State.rd_wr_ne s v (fun e => hb (e ▸ ha)))
theorem works_modConvN {A : List Nat} {f : ConvSt → ConvSt} (hf : ∀ c, (f c).work = c.work) (k : Nat) (s : State) :
    Works A s (s.modConvN k f) := ⟨fun m => State.convAt_modConvN_keeps hf k m s, fun _ _ => rfl⟩
theorem works_quiet {k : Nat} {s t : State} (h : Quiet s t) : Works (sampleCounts k) s t :=
  works_of_conv (quiet_conv h) (fun _ ha => h.2 _ (fun hmem => ha (List.mem_cons_of_mem _ (List.mem_append_right _ hmem))))

theorem works_saturated (k i : Nat) (s : State) : Works (sampleCounts k) (s.wrBit (Obj.satFlags k) i true) (s.saturated k i) :=
  works_quiet (State.latchLimited_mild quiet_mild (quiet_refl _))

theorem ocPeak_mem (k n : Nat) : Obj.ocPeak (n % 4) ∈ sampleCounts k := by
  refine List.mem_cons_of_mem _ (List.mem_append_left _ (List.mem_map.mpr ⟨⟨n % 4, by omega⟩, ?_, rfl⟩))
  exact mem_units4 _

/-- The detectors of a result, and the peak it may be (R338 to R340). -/
theorem works_offer (k i : Nat) (v : Int) (sat bad : Bool) (s : State) : Works (sampleCounts k) s (s.offer k i v sat bad) := by
  unfold State.offer
  extract_lets r n chain s1
  split
  · exact Works.refl _ s
  · split
    · refine works_modConvN ?_ k s
      exact fun _ => rfl
    · have h1 : Works (sampleCounts k) s s1 := by
        refine works_modConvN ?_ k s
        exact fun _ => rfl
      split
      · exact h1
      · split
        · exact h1.trans (works_wr (ocPeak_mem k _) _ s1)
        · exact h1

theorem works_accumulate (k i : Nat) (v : Int) (bad sat : Bool) (inst : Nat) (s : State) :
    Works (sampleCounts k) s (s.accumulate k i v bad sat inst) := by
  have hlate : Works (sampleCounts k) s (s.bump (Obj.lateSamples k)) := by
    obtain ⟨o, ho⟩ := s.bump_only (Obj.lateSamples k)
    exact works_of_conv (by rw [ho]) (fun a ha => State.rd_bump_ne s (fun e => ha (e ▸ List.mem_cons_self)))
  have hsame : ∀ l m, Works (sampleCounts k) s { s with acc := l, accOld := m } := fun _ _ => works_of_conv rfl (fun _ _ => rfl)
  unfold State.accumulate
  split
  · exact Works.refl _ s
  · extract_lets l
    split
    · split
      · exact hsame _ s.accOld
      · exact Works.refl _ s
    · split
      · exact hsame _ s.accOld
      · split
        · exact hsame s.acc _
        · split
          · exact hlate
          · exact Works.refl _ s

theorem works_calibrate (k i : Nat) (raw : Int) (bad sat : Bool) (s : State) : Works (sampleCounts k) s (s.calibrate k i raw bad sat) :=
  works_of_conv rfl (fun _ _ => rfl)

theorem works_scTake (k i : Nat) (v : Int) (bad : Bool) (inst : Nat) (s : State) : Works (sampleCounts k) s (s.scTake i v bad inst) :=
  works_of_conv rfl (fun _ _ => rfl)

/-! ## The capture memory as a sample comes (R242, R244, R245) -/

theorem works_modCap (k : Nat) (f : CapSt → CapSt) (s : State) : Works (sampleCounts k) s (s.modCap f) :=
  works_of_conv rfl (fun _ _ => rfl)

theorem capState_mem (k : Nat) : Obj.capState ∈ sampleCounts k :=
  List.mem_cons_of_mem _ (List.mem_append_right _ (by decide))

theorem works_capFollow (k : Nat) (s : State) : Works (sampleCounts k) s s.capFollow := by
  unfold State.capFollow
  split
  · exact works_wr (capState_mem k) 2 s
  · exact Works.refl _ s

theorem works_capItem (k src : Nat) (v : Int) (inst : Nat) (s : State) : Works (sampleCounts k) s (s.capItem src v inst) := by
  unfold State.capItem
  extract_lets st c n s1
  split
  · have h1 : Works (sampleCounts k) s s1 := works_modCap k _ s
    split
    · exact h1
    · exact (h1.trans (works_modCap k _ s1)).trans (works_capFollow k _)
  · exact Works.refl _ s

theorem works_capThreshold (k : Nat) (v : Int) (inst : Nat) (s : State) : Works (sampleCounts k) s (s.capThreshold v inst) := by
  unfold State.capThreshold
  extract_lets lvl e s1
  have h1 : Works (sampleCounts k) s s1 := works_modCap k _ s
  split
  · exact h1
  · split
    · exact h1.trans (works_quiet (State.captureTriggerAt_mild quiet_mild (quiet_refl s1)))
    · exact h1

theorem works_capSample (k src : Nat) (v : Int) (inst : Nat) (s : State) : Works (sampleCounts k) s (s.capSample src v inst) := by
  unfold State.capSample
  extract_lets thr watched s1
  have h1 : Works (sampleCounts k) s s1 := by
    unfold s1
    split
    · exact works_capThreshold k v inst s
    · exact Works.refl _ s
  exact h1.trans (works_capItem k src v inst s1)

/-! ## What a sample shows (R226, R228, R239) -/

/-- The result of a sample, with its saturation flag. -/
def State.resulted (own i : Nat) (v : Int) (sat bad : Bool) (inst : Nat) (s : State) : State :=
  if sat then (s.lastResult own i v bad inst).wrBit (Obj.satFlags own) i true else s.lastResult own i v bad inst

/-- The objects of converter `k` that a sample's counters leave alone. -/
theorem sampleCounts_apart {k a : Nat} (hk : k < 6) (hlo : 0x300000 + 0x10000 * k ≤ a) (hhi : a < Obj.lateSamples k) :
    a ∉ sampleCounts k := by
  unfold Obj.lateSamples at hhi
  refine List.mem_cons.not.mpr (not_or.mpr ⟨?_, convObj_apart (by omega) (by omega)⟩)
  unfold Obj.lateSamples
  omega

theorem State.resulted_rd {own i : Nat} (hi : i < 9) (v : Int) (sat bad : Bool) (inst : Nat) (s : State) :
    (s.resulted own i v sat bad inst).rd (Obj.chResult own i) = v
      ∧ (sat = true → (s.resulted own i v sat bad inst).rdBit (Obj.satFlags own) i = true)
      ∧ ObjsKept [Obj.chResult own i, Obj.satFlags own] s (s.resulted own i v sat bad inst) := by
  have hne : Obj.chResult own i ≠ Obj.satFlags own := by
    unfold Obj.chResult Obj.satFlags
    omega
  have hlast : ∀ a, (s.lastResult own i v bad inst).rd a = (s.wr (Obj.chResult own i) v).rd a := fun _ => rfl
  have hkept : ∀ a, a ≠ Obj.chResult own i → (s.lastResult own i v bad inst).rd a = s.rd a := fun a ha =>
    (hlast a).trans (State.rd_wr_ne s v ha)
  unfold State.resulted
  cases sat with
  | false => exact ⟨(hlast _).trans (State.rd_wr_same ..), fun h => absurd h Bool.false_ne_true, fun a ha =>
      hkept a (fun e => ha (e ▸ List.mem_cons_self))⟩
  | true =>
    refine ⟨(State.rd_wrBit_ne _ _ _ hne).trans ((hlast _).trans (State.rd_wr_same ..)), fun _ => ?_, fun a ha => ?_⟩
    · exact (State.rdBit_wrBit ..).trans ((if_pos rfl).trans (if_pos rfl))
    · simp only [List.mem_cons, List.not_mem_nil, or_false, not_or] at ha
      exact (State.rd_wrBit_ne _ _ _ ha.2).trans (hkept a ha.1)

theorem State.resulted_work (own i : Nat) (v : Int) (sat bad : Bool) (inst : Nat) (m : Nat) (s : State) :
    ((s.resulted own i v sat bad inst).convAt m).work = (s.convAt m).work := by
  have hlast : ((s.lastResult own i v bad inst).convAt m).work = (s.convAt m).work := by
    refine State.convAt_modConvN_keeps (g := ConvSt.work) ?_ own m (s.wr (Obj.chResult own i) v)
    exact fun _ => rfl
  unfold State.resulted
  cases sat <;> exact hlast

/-- A converter's unit without what its samples show of its inputs. -/
def ConvSt.tasks (c : ConvSt) : ConvSt := { c.work with owSince := [] }

/-- The open-wire comparison of an input goes on from the result that lies beyond, and ends with one that does not (R239). -/
theorem State.owStep_leaves (k i : Nat) (v : Int) (inst : Nat) (s : State) :
    ((s.owStep k i v inst).convAt k).owSince.any (fun x => x.1 == i) = s.owBeyond k i v
      ∧ (∀ m, ((s.owStep k i v inst).convAt m).tasks = (s.convAt m).tasks) ∧ ∀ a, (s.owStep k i v inst).rd a = s.rd a := by
  unfold State.owStep
  extract_lets now
  refine ⟨?_, fun m => State.convAt_modConvN_keeps (g := ConvSt.tasks) (fun c => ?_) k m s, fun _ => rfl⟩
  · rw [State.convAt_modConvN]
    rcases hnow : now with _ | _
    · simp [← show now = s.owBeyond k i v from rfl, hnow]
    · rw [← show now = s.owBeyond k i v from rfl, hnow]
      simp only [Bool.not_true, Bool.false_eq_true, if_false]
      split
      · assumption
      · simp
  · split
    · rfl
    · split <;> rfl

/-- The sample of an input of converter `own` is shown: its result, its saturation, its open-wire comparison; the converters' work has stayed. -/
structure SampleShown (own i : Nat) (v : Int) (sat : Bool) (s t : State) : Prop where
  result : t.rd (Obj.chResult own i) = v
  saturation : sat = true → t.rdBit (Obj.satFlags own) i = true
  beyond : own ≠ 4 → (t.convAt own).owSince.any (fun x => x.1 == i) = s.owBeyond own i v
  tasks : ∀ m, (t.convAt m).tasks = (s.convAt m).tasks

/-- What only counts the sample leaves it shown. -/
theorem SampleShown.works {own i : Nat} {v : Int} {sat : Bool} {s t u : State} (hown : own < 6) (hi : i < 9)
    (h : SampleShown own i v sat s t) (w : Works (sampleCounts own) t u) : SampleShown own i v sat s u where
  result := (w.2 _ (sampleCounts_apart hown (by unfold Obj.chResult; omega) (by unfold Obj.chResult Obj.lateSamples; omega))).trans h.result
  saturation hsat := (State.rdBit_of_rd (w.2 _ (sampleCounts_apart hown (by unfold Obj.satFlags; omega)
    (by unfold Obj.satFlags Obj.lateSamples; omega))) i).trans (h.saturation hsat)
  beyond h4 := (congrArg (fun c => c.owSince.any (fun x => x.1 == i)) (w.1 own) :).trans (h.beyond h4)
  tasks m := (congrArg (fun c => { c with owSince := [] }) (w.1 m)).trans (h.tasks m)

theorem owBeyond_congr {k i : Nat} {s t : State} (hlevel : t.rd (Obj.owLevel k) = s.rd (Obj.owLevel k))
    (hon : t.rd (Obj.chOw k i) = s.rd (Obj.chOw k i)) (v : Int) : t.owBeyond k i v = s.owBeyond k i v := by
  unfold State.owBeyond
  rw [hlevel, hon]

/-- The sample before its open-wire comparison. -/
theorem State.sampleCommon_eq (own i : Nat) (v : Int) (sat bad : Bool) (inst : Nat) (s : State) :
    ∃ x, Works (sampleCounts own) (s.resulted own i v sat bad inst) x
      ∧ s.sampleCommon own i v sat bad inst = if own = 4 then x else x.owStep own i v inst := by
  refine ⟨_, ?_, rfl⟩
  refine Works.trans ?_ (works_offer own i v sat bad _)
  unfold State.resulted
  cases sat with
  | false => exact Works.refl ..
  | true => exact works_saturated own i _

theorem State.sampleCommon_shown {own i : Nat} (hown : own < 6) (hi : i < 9) (v : Int) (sat bad : Bool) (inst : Nat) (s : State) :
    SampleShown own i v sat s (s.sampleCommon own i v sat bad inst) := by
  obtain ⟨x, hx, heq⟩ := s.sampleCommon_eq own i v sat bad inst
  obtain ⟨hresult, hsat, hkept⟩ := State.resulted_rd (own := own) hi v sat bad inst s
  obtain ⟨how, htasks, hrd⟩ := x.owStep_leaves own i v inst
  have hx_rd : ∀ a, 0x300000 + 0x10000 * own ≤ a → a < Obj.lateSamples own → x.rd a = (s.resulted own i v sat bad inst).rd a :=
    fun a hlo hhi => hx.2 a (sampleCounts_apart hown hlo hhi)
  have hx_s : ∀ a, 0x300000 + 0x10000 * own ≤ a → a < Obj.chResult own 0 → x.rd a = s.rd a := fun a hlo hhi => by
    unfold Obj.chResult at hhi
    rw [hx_rd a hlo (by unfold Obj.lateSamples; omega)]
    refine hkept a ?_
    unfold Obj.chResult Obj.satFlags
    simp only [List.mem_cons, List.not_mem_nil, or_false, not_or]
    omega
  have hx_result := (hx_rd (Obj.chResult own i) (by unfold Obj.chResult; omega)
    (by unfold Obj.chResult Obj.lateSamples; omega)).trans hresult
  have hx_sat : sat = true → x.rdBit (Obj.satFlags own) i = true := fun h =>
    (State.rdBit_of_rd (hx_rd _ (by unfold Obj.satFlags; omega) (by unfold Obj.satFlags Obj.lateSamples; omega)) i).trans (hsat h)
  have hx_tasks : ∀ m, (x.convAt m).tasks = (s.convAt m).tasks := fun m =>
    congrArg (fun c => { c with owSince := [] }) ((hx.1 m).trans (s.resulted_work own i v sat bad inst m))
  have hbeyond : x.owBeyond own i v = s.owBeyond own i v := owBeyond_congr
    (hx_s _ (by unfold Obj.owLevel; omega) (by unfold Obj.owLevel Obj.chResult; omega))
    (hx_s _ (by unfold Obj.chOw; omega) (by unfold Obj.chOw Obj.chResult; omega)) v
  rw [heq]
  split
  · exact ⟨hx_result, hx_sat, fun h => absurd ‹_› h, hx_tasks⟩
  · exact ⟨(hrd _).trans hx_result, fun h => (State.rdBit_of_rd (hrd _) i).trans (hx_sat h), fun _ => how.trans hbeyond,
      fun m => (htasks m).trans (hx_tasks m)⟩

end Sys2Proof.Machine
end

section
/-! The work of a converter (R220 to R226): its sequences and bursts as a sample moves them on. -/

namespace Sys2Proof.Machine

open Sys2Proof

theorem State.modConvN_rd (k : Nat) (f : ConvSt → ConvSt) (s : State) (a : Nat) : (s.modConvN k f).rd a = s.rd a := rfl

/-! ## The regular sequence (R220, R225, R226) -/

/-- A step of the regular sequence changes its converter's unit alone. -/
theorem State.seqStep_only {k i : Nat} {s s1 : State} (h : s.seqStep k i = some s1) : ∃ f, s1 = s.modConvN k f := by
  unfold State.seqStep at h
  dsimp only at h
  split at h
  · cases h
  · split at h <;> exact ⟨_, (Option.some.inj h).symm⟩

theorem State.seqResult_told {k i inst : Nat} {s : State}
    (h : (s.convAt k).held.contains (i, inst) = true ∨ (s.convAt k).gone.contains (i, inst) = true) :
    s.seqResult k i inst = some (s.modConvN k (fun c => { c with held := c.held.erase (i, inst), gone := c.gone.erase (i, inst) })) :=
  if_pos h

theorem State.seqResult_only {k i inst : Nat} {s s1 : State} (h : s.seqResult k i inst = some s1) : ∃ f, s1 = s.modConvN k f := by
  by_cases htold : (s.convAt k).held.contains (i, inst) = true ∨ (s.convAt k).gone.contains (i, inst) = true
  · rw [State.seqResult_told htold] at h
    exact ⟨_, (Option.some.inj h).symm⟩
  · unfold State.seqResult at h
    rw [if_neg htold] at h
    split at h
    · cases h
    · exact State.seqStep_only h

/-- A pair that interleaves continuously holds no regular sample (R225). -/
theorem State.seqResult_interleaved {k i inst : Nat} {s : State} (hheld : (s.convAt k).held.contains (i, inst) = false)
    (hgone : (s.convAt k).gone.contains (i, inst) = false) (hmode : s.rd (Obj.pairMode (evenOf k)) = 2) : s.seqResult k i inst = none := by
  unfold State.seqResult
  rw [if_neg (by rw [hheld, hgone]; decide), if_pos hmode]

/-- A hold is told last of those awaited. -/
theorem State.seqHold_held {k i inst : Nat} {s s1 : State} (h : s.seqHold k i inst = some s1) :
    (i, inst) ∈ (s1.convAt k).held ∧ ∃ f, s1 = s.modConvN k f := by
  obtain ⟨x, hx, rfl⟩ := Option.map_eq_some_iff.mp h
  obtain ⟨f, rfl⟩ := State.seqStep_only hx
  refine ⟨?_, _, State.modConvN_modConvN ..⟩
  rw [State.convAt_modConvN, List.reverse_append]
  simp

/-- Where the other steps of a sweep leave something alone, it stands as its own step leaves it. -/
theorem forAll_once {α β : Type} {g : State → β} {f : α → State → State} {l : List α} (hl : l.Nodup) {a : α} (ha : a ∈ l)
    (hf : ∀ b ∈ l, b ≠ a → ∀ x, g (f b x) = g x) (s : State) : ∃ x, g x = g s ∧ g (forAll l f s) = g (f a x) := by
  obtain ⟨before, after, rfl⟩ := List.append_of_mem ha
  rw [List.nodup_middle, List.nodup_cons, List.mem_append, not_or] at hl
  obtain ⟨⟨hbefore, hafter⟩, -⟩ := hl
  have hsweep : forAll (before ++ a :: after) f s = forAll after f (f a (forAll before f s)) := List.foldl_append ..
  refine ⟨forAll before f s, forAll_keeps_mem (fun b hb => hf b (List.mem_append_left _ hb) fun e => hbefore (e ▸ hb)) s, ?_⟩
  rw [hsweep]
  exact forAll_keeps_mem (fun b hb => hf b (List.mem_append_right _ (List.mem_cons_of_mem a hb)) fun e => hafter (e ▸ hb)) _

/-- What a loaf's boundary drops of a converter's holds (R234, R235). -/
theorem State.dropHeld_held (n : Fin 4) (b : Nat) {k : Nat} (hk : k < 4) (s : State) : ((s.dropHeld n b).convAt k).held
    = (s.convAt k).held.filter (fun y => !(decide (y.2 < b) && s.accLoaf k y.1 == some n)) := by
  unfold State.dropHeld
  extract_lets old
  have hother : ∀ m ∈ List.range 4, m ≠ k → Fin.ofNat 6 k ≠ Fin.ofNat 6 m := fun m hm hmk e => by
    have hval := congrArg Fin.val e
    have := List.mem_range.mp hm
    simp only [Fin.val_ofNat] at hval
    omega
  obtain ⟨x, hx, hsweep⟩ := forAll_once (g := fun x => x.convAt k) (f := fun m x => x.modConvN m (fun c => { c with
      held := c.held.filter (fun y => !old m y), gone := (c.held.filter (old m) ++ c.gone).take 64 }))
    List.nodup_range (List.mem_range.mpr hk) (fun m hm hmk x => State.convAt_modConvN_ne (hother m hm hmk) _ x) s
  rw [hsweep, State.convAt_modConvN, hx]

/-! ## The injected sequence (R221, R223, R236) -/

/-- An injected start that follows leaves the results of the sequence completed. -/
theorem State.injNext_done (k : Nat) (s : State) : ((s.injNext k).convAt k).injDone = (s.convAt k).injDone
    ∧ ((s.injNext k).convAt k).injLast = (s.convAt k).injLast := by
  unfold State.injNext
  extract_lets c
  split
  · rw [State.convAt_modConvN]
    exact ⟨rfl, rfl⟩
  · exact ⟨rfl, rfl⟩

/-- The results of an injected sequence that has taken its last sample are shown. -/
def State.injShown (k : Nat) (s : State) : State :=
  ((forAll (List.range (s.convAt k).injRes.length) (fun e x => x.wr (Obj.injResult k e) ((s.convAt k).injRes.getD e (0, 0)).1) s).wr
    (Obj.injTime k) ((((s.convAt k).injRes.getD 0 (0, 0)).2 % 2 ^ 32 : Nat) : Int)).modConvN k (fun c => { c with
      injRun := none, injDone := c.injDone + 1, injLast := c.injRes })

theorem State.injShown_convAt (k : Nat) (s : State) : (s.injShown k).convAt k
    = { s.convAt k with injRun := none, injDone := (s.convAt k).injDone + 1, injLast := (s.convAt k).injRes } := by
  have hwrites : ∀ l (w : Nat → Int), (forAll l (fun e x => x.wr (Obj.injResult k e) (w e)) s).conv = s.conv := fun l w =>
    forAll_keeps (g := State.conv) (fun e x => State.wr_conv x _ (w e)) l s
  unfold State.injShown State.convAt
  rw [State.modConvN, State.modConv_conv, Six.get_set_same, State.wr_conv, hwrites]

theorem State.injSample_ends {k i : Nat} {v : Int} {inst : Nat} {s : State} (h : (s.convAt k).injRun = some [i]) : s.injSample k i v inst
    = ((s.modConvN k (fun c => { c with injRun := some [], injRes := c.injRes ++ [(v, inst)] })).injShown k).injNext k := by
  unfold State.injSample
  rw [h]
  refine (if_neg (not_not_intro rfl)).trans ?_
  rfl

theorem State.injSample_last {k i : Nat} {v : Int} {inst : Nat} {s : State} (h : (s.convAt k).injRun = some [i]) :
    ((s.injSample k i v inst).convAt k).injDone = (s.convAt k).injDone + 1
      ∧ ((s.injSample k i v inst).convAt k).injLast = (s.convAt k).injRes ++ [(v, inst)] := by
  rw [State.injSample_ends h, (State.injNext_done ..).1, (State.injNext_done ..).2, State.injShown_convAt, State.convAt_modConvN]
  exact ⟨rfl, rfl⟩

theorem State.injSample_more {k i : Nat} {v : Int} {inst : Nat} {rest : List Nat} {s : State} (h : (s.convAt k).injRun = some (i :: rest))
    (hrest : rest ≠ []) :
    s.injSample k i v inst = s.modConvN k (fun c => { c with injRun := some rest, injRes := c.injRes ++ [(v, inst)] }) := by
  unfold State.injSample
  rw [h]
  simp only [ne_eq, not_true_eq_false, if_false, List.isEmpty_iff, hrest]

/-! ## Bursts (R222, R224) -/

theorem State.burstSample_more {even left : Nat} {v : Int} {inst : Nat} {s : State} (h : (s.convAt even).burst = some left) (hleft : 2 ≤ left) :
    s.burstSample even v inst = s.modConvN even (fun c => { c with
      burst := some (left - 1), burstBuf := c.burstBuf ++ [v], burstT := if c.burstBuf.isEmpty then inst else c.burstT }) := by
  unfold State.burstSample
  rw [h]
  exact if_neg (by omega)

/-! ## Samples as their converter takes them -/

/-- The result of a raw count under the correction of an input, and whether it is flagged saturated (R228). -/
def State.resultOf (s : State) (k i : Nat) (raw : Int) : Int := chanResult k (s.rd (Obj.chOffset k i)) (s.rd (Obj.chGain k i)) raw
def State.satOf (s : State) (k i : Nat) (raw : Int) : Bool := chanSat k (s.rd (Obj.chOffset k i)) (s.rd (Obj.chGain k i)) raw

theorem State.resultOf_congr {k i : Nat} {raw : Int} {s t : State} (h : ∀ a, t.rd a = s.rd a) : t.resultOf k i raw = s.resultOf k i raw := by
  unfold State.resultOf
  rw [h, h]
theorem State.satOf_congr {k i : Nat} {raw : Int} {s t : State} (h : ∀ a, t.rd a = s.rd a) : t.satOf k i raw = s.satOf k i raw := by
  unfold State.satOf
  rw [h, h]
theorem State.convAt_atT (s : State) (t k : Nat) : (s.atT t).convAt k = s.convAt k := by
  unfold State.convAt
  rw [State.atT_conv]

/-- A regular sample before the feedback channel or the capture memory has it. -/
def State.regularNoted (k i : Nat) (raw : Int) (inst : Nat) (s : State) : State :=
  ((s.sampleCommon k i (s.resultOf k i raw) (s.satOf k i raw) (s.notReady k) inst).accumulate k i (s.resultOf k i raw) (s.notReady k)
    (s.satOf k i raw) inst).calibrate k i raw (s.notReady k) (s.satOf k i raw)

theorem State.regularNoted_shown {k i : Nat} (hk : k < 6) (hi : i < 9) (raw : Int) (inst : Nat) (s : State) :
    SampleShown k i (s.resultOf k i raw) (s.satOf k i raw) s (s.regularNoted k i raw inst) :=
  (State.sampleCommon_shown hk hi ..).works hk hi ((works_accumulate ..).trans (works_calibrate ..))

theorem State.regularSample_main {k : Nat} (hk : k < 4) (i : Nat) (raw : Int) (inst : Nat) (s : State) :
    s.regularSample k i raw inst = (s.regularNoted k i raw inst).capSample (9 * k + i) (s.resultOf k i raw) inst := by
  unfold State.regularSample
  dsimp only
  rw [if_neg (by omega), if_neg (by omega)]
  rfl
theorem State.regularSample_sinCos {k : Nat} (hk : k = 4) (i : Nat) (raw : Int) (inst : Nat) (s : State) : s.regularSample k i raw inst
    = ((s.regularNoted k i raw inst).scTake i (s.resultOf k i raw) (s.notReady k) inst).sampleCame 0 := if_pos hk
theorem State.regularSample_aux {k : Nat} (hk : k = 5) (i : Nat) (raw : Int) (inst : Nat) (s : State) :
    s.regularSample k i raw inst = s.regularNoted k i raw inst := (if_neg (by omega)).trans (if_pos hk)

theorem State.regularSample_shown {k i : Nat} (hk : k < 4) (hi : i < 9) (raw : Int) (inst : Nat) (s : State) :
    SampleShown k i (s.resultOf k i raw) (s.satOf k i raw) s (s.regularSample k i raw inst) := by
  rw [State.regularSample_main hk]
  exact (State.regularNoted_shown (by omega) hi raw inst s).works (by omega) hi (works_capSample ..)

/-- A sine or cosine held for FB0 (R240). -/
theorem State.scTake_held (i : Nat) (v : Int) (bad : Bool) (inst : Nat) (s : State) :
    (i = 0 → ((s.scTake i v bad inst).fb.get 0).sinLast = (v, inst, !bad))
      ∧ (i ≠ 0 → ((s.scTake i v bad inst).fb.get 0).cosLast = (v, inst, !bad)) := by
  unfold State.scTake
  extract_lets five
  rw [State.modFb_fb, Quad.get_set_same]
  exact ⟨fun h => if_pos h, fun h => if_neg h⟩

/-- An injected sample before its sequence has it. -/
def State.injectedNoted (k i : Nat) (raw : Int) (inst : Nat) (s : State) : State :=
  (s.sampleCommon k i (s.resultOf k i raw) (s.satOf k i raw) (s.notReady k) inst).calibrate k i raw (s.notReady k) (s.satOf k i raw)

theorem State.injectedSample_eq (k i : Nat) (raw : Int) (inst : Nat) (s : State) :
    s.injectedSample k i raw inst = (s.injectedNoted k i raw inst).injSample k i (s.resultOf k i raw) inst := rfl
theorem State.injectedNoted_shown {k i : Nat} (hk : k < 6) (hi : i < 9) (raw : Int) (inst : Nat) (s : State) :
    SampleShown k i (s.resultOf k i raw) (s.satOf k i raw) s (s.injectedNoted k i raw inst) :=
  (State.sampleCommon_shown hk hi ..).works hk hi (works_calibrate ..)

theorem State.injectedSample_last {k i : Nat} (hk : k < 6) (hi : i < 9) (raw : Int) (inst : Nat) {s : State}
    (h : (s.convAt k).injRun = some [i]) :
    ((s.injectedSample k i raw inst).convAt k).injDone = (s.convAt k).injDone + 1
      ∧ ((s.injectedSample k i raw inst).convAt k).injLast = (s.convAt k).injRes ++ [(s.resultOf k i raw, inst)] := by
  have htasks := (State.injectedNoted_shown hk hi raw inst s).tasks k
  rw [State.injectedSample_eq]
  obtain ⟨hdone, hlast⟩ := State.injSample_last (v := s.resultOf k i raw) (inst := inst) ((congrArg ConvSt.injRun htasks :).trans h)
  exact ⟨hdone.trans (congrArg (fun c => c.injDone + 1) htasks), hlast.trans (congrArg (fun c => c.injRes ++ _) htasks)⟩

theorem State.injectedSample_more {k i : Nat} (hk : k < 6) (hi : i < 9) (raw : Int) (inst : Nat) {rest : List Nat} {s : State}
    (h : (s.convAt k).injRun = some (i :: rest)) (hrest : rest ≠ []) :
    ((s.injectedSample k i raw inst).convAt k).injRun = some rest
      ∧ ((s.injectedSample k i raw inst).convAt k).injDone = (s.convAt k).injDone
      ∧ (s.injectedSample k i raw inst).rd (Obj.chResult k i) = s.resultOf k i raw := by
  have hshown := State.injectedNoted_shown hk hi raw inst s
  have htasks := hshown.tasks k
  rw [State.injectedSample_eq, State.injSample_more ((congrArg ConvSt.injRun htasks :).trans h) hrest]
  refine ⟨?_, ?_, hshown.result⟩
  · rw [State.convAt_modConvN]
  · rw [State.convAt_modConvN]
    exact (congrArg ConvSt.injDone htasks :)

/-- A sample of a burst is one of the input that `PAIR_SRC` names. -/
theorem State.pairInput_bounds {k : Nat} {s : State} (hk : k < 4) (hsrc : s.rdN (Obj.pairSrc (evenOf k)) < 18) :
    (s.pairInput (evenOf k)).1 < 6 ∧ (s.pairInput (evenOf k)).2 < 9 := by
  unfold State.pairInput evenOf at *
  dsimp only
  omega

theorem State.pairSample_burst {k left : Nat} {o : Nat × Nat} {s : State} (ho : o = s.pairInput (evenOf k)) (hown : o.1 < 6) (hi : o.2 < 9)
    (raw : Int) (inst : Nat) (hmode : s.rd (Obj.pairMode (evenOf k)) = 1) (hburst : (s.convAt (evenOf k)).burst = some left) (hleft : 2 ≤ left) :
    (s.pairSample k raw inst).rd (Obj.chResult o.1 o.2) = s.resultOf o.1 o.2 raw
      ∧ ((s.pairSample k raw inst).convAt (evenOf k)).burst = some (left - 1)
      ∧ ((s.pairSample k raw inst).convAt (evenOf k)).burstBuf = (s.convAt (evenOf k)).burstBuf ++ [s.resultOf o.1 o.2 raw] := by
  have hshown := State.sampleCommon_shown hown hi (s.resultOf o.1 o.2 raw) (s.satOf o.1 o.2 raw) (s.notReady k) inst s
  have htasks := hshown.tasks (evenOf k)
  have hsample : s.pairSample k raw inst = (s.sampleCommon o.1 o.2 (s.resultOf o.1 o.2 raw) (s.satOf o.1 o.2 raw) (s.notReady k)
      inst).burstSample (evenOf k) (s.resultOf o.1 o.2 raw) inst := by
    subst ho
    unfold State.pairSample
    dsimp only
    rw [if_neg (by rw [hmode]; decide)]
    rfl
  rw [hsample, State.burstSample_more ((congrArg ConvSt.burst htasks :).trans hburst) hleft, State.convAt_modConvN]
  exact ⟨hshown.result, rfl, (congrArg (fun c => c.burstBuf ++ _) htasks :)⟩

/-! ## The instruction -/

/-- A sample can have come from its converter. -/
def State.sampleComes (s : State) (k : Fin 6) (i : Fin 9) (raw : Int) : Bool :=
  s.regionUp && s.hasConv k.val && inputWf k i && rawWf k raw

theorem State.sampleComes_of {k : Fin 6} {i : Fin 9} {raw : Int} {s : State} (hup : s.regionUp = true) (hconv : s.hasConv k.val = true)
    (hinput : inputWf k i = true) (hraw : rawWf k raw = true) : s.sampleComes k i raw = true := by
  unfold State.sampleComes
  rw [hup, hconv, hinput, hraw]
  rfl

theorem State.sampleComes_atT (s : State) (t : Nat) (k : Fin 6) (i : Fin 9) (raw : Int) :
    (s.atT t).sampleComes k i raw = s.sampleComes k i raw := by
  unfold State.sampleComes State.regionUp State.hasConv State.has
  rw [State.atT_boot, State.atT_variant]

theorem exec_sampleResult_gone {k : Fin 6} {i : Fin 9} {kind : SampleKind} {raw : Int} {inst t : Nat} {s : State}
    (h : s.sampleComes k i raw = false) : exec (.sampleResult k i kind raw inst t) s = .next (s.atT t) := by
  rw [← State.sampleComes_atT s t] at h
  unfold State.sampleComes at h
  show execSampleResult k i kind raw inst t s = _
  unfold execSampleResult
  dsimp only
  rw [h]
  rfl

/-- What a sample that can have come does, by its kind. -/
theorem exec_sampleResult_comes {k : Fin 6} {i : Fin 9} {raw : Int} {s : State} (h : s.sampleComes k i raw = true) (inst t : Nat) :
    (4 ≤ k.val → exec (.sampleResult k i .regular raw inst t) s = .next ((s.atT t).regularSample k.val i.val raw inst).settle)
    ∧ (k.val < 4 → ∀ s1, (s.atT t).seqResult k.val i.val inst = some s1 →
      exec (.sampleResult k i .regular raw inst t) s = .next (s1.regularSample k.val i.val raw inst).settle)
    ∧ (k.val < 4 → (s.atT t).seqResult k.val i.val inst = none → exec (.sampleResult k i .regular raw inst t) s = .next (s.atT t))
    ∧ (k.val < 4 → s.rd (Obj.pairMode (evenOf k.val)) ≠ 2 → ∀ s1, (s.atT t).seqHold k.val i.val inst = some s1 →
      exec (.sampleResult k i .held raw inst t) s = .next s1)
    ∧ (k.val < 4 → s.rd (Obj.pairMode (evenOf k.val)) ≠ 2 → ∀ rest, (s.conv.get k).injRun = some (i.val :: rest) →
      exec (.sampleResult k i .injected raw inst t) s = .next ((s.atT t).injectedSample k.val i.val raw inst).settle)
    ∧ (k.val < 4 → s.rd (Obj.pairMode (evenOf k.val)) = 1 → s.bursting k.val = true → i.val = (s.pairInput (evenOf k.val)).2 →
      exec (.sampleResult k i .burst raw inst t) s = .next ((s.atT t).pairSample k.val raw inst).settle) := by
  have hexec : ∀ kind, exec (.sampleResult k i kind raw inst t) s = execSampleResult k i kind raw inst t s := fun _ => rfl
  rw [← State.sampleComes_atT s t] at h
  unfold State.sampleComes at h
  obtain ⟨tm, hat, -⟩ := s.atT_only t
  simp only [hexec]
  unfold execSampleResult
  simp only [h, Bool.not_true, Bool.false_eq_true, if_false]
  refine ⟨fun hk => if_pos hk, fun hk s1 hs1 => ?_, fun hk hs1 => ?_, fun hk hmode s1 hs1 => ?_, fun hk hmode rest hrun => ?_,
    fun hk hmode hburst hi => ?_⟩
  · rw [if_neg (by omega), hs1]
  · rw [if_neg (by omega), hs1]
  · rw [if_neg (by rw [if_pos hk, State.atT_rd]; simp only [not_or]; exact ⟨by omega, hmode⟩), hs1]
  · rw [State.atT_conv, hrun]
    exact if_pos ⟨rfl, hk, by rw [if_pos hk, State.atT_rd]; exact hmode⟩
  · refine if_pos ⟨hk, .inr ⟨?_, ?_⟩, ?_⟩
    · rw [if_pos hk, State.atT_rd, hmode]
    · rw [hat]
      exact hburst
    · rw [hat]
      exact hi

/-- Kinds of work that the converter does not have now. -/
theorem exec_sampleResult_idle (k : Fin 6) (i : Fin 9) (raw : Int) (inst t : Nat) {s : State} (hk : k.val < 4) :
    ((s.atT t).seqResult k.val i.val inst = none → exec (.sampleResult k i .regular raw inst t) s = .next (s.atT t))
    ∧ ((s.conv.get k).injRun = none → exec (.sampleResult k i .injected raw inst t) s = .next (s.atT t))
    ∧ (s.rd (Obj.pairMode (evenOf k.val)) = 0 → exec (.sampleResult k i .burst raw inst t) s = .next (s.atT t))
    ∧ (s.rd (Obj.pairMode (evenOf k.val)) = 2 → exec (.sampleResult k i .held raw inst t) s = .next (s.atT t)
      ∧ exec (.sampleResult k i .injected raw inst t) s = .next (s.atT t)) := by
  by_cases hcomes : s.sampleComes k i raw = true
  · have hexec : ∀ kind, exec (.sampleResult k i kind raw inst t) s = execSampleResult k i kind raw inst t s := fun _ => rfl
    refine ⟨(exec_sampleResult_comes hcomes inst t).2.2.1 hk, ?_⟩
    rw [← State.sampleComes_atT s t] at hcomes
    unfold State.sampleComes at hcomes
    simp only [hexec]
    unfold execSampleResult
    simp only [hcomes, Bool.not_true, Bool.false_eq_true, if_false, if_pos hk, State.atT_rd, State.atT_conv]
    refine ⟨fun hrun => ?_, fun hmode => ?_, fun hmode => ⟨?_, ?_⟩⟩
    · rw [hrun]
    · rw [hmode]
      exact if_neg (by simp)
    · exact if_pos (.inr hmode)
    · split
      · exact if_neg (fun h => h.2.2 hmode)
      · rfl
  · simp only [exec_sampleResult_gone (Bool.not_eq_true _ ▸ hcomes), implies_true, and_self]

end Sys2Proof.Machine

namespace Sys2Proof

open Sys2Proof.Machine

/-- Settles O40: each kind of sample by what its converter's work is, then by what the sample shows. -/
theorem samples : Obligations.Samples := by
  unfold Obligations.Samples
  refine ⟨?_, ?_, ?_, ?_, ?_, ?_, ?_, ?_, ?_⟩
  case refine_1 =>
    intro k i raw inst t s s1 hup hconv hinput hraw hk hseq
    obtain ⟨f, hs1⟩ := State.seqResult_only hseq
    have hrd : ∀ a, s1.rd a = s.rd a := fun a => by rw [hs1, State.modConvN_rd, State.atT_rd]
    have hshown := State.regularSample_shown hk i.isLt raw inst s1
    have htasks := hshown.tasks k.val
    rw [State.resultOf_congr hrd, State.satOf_congr hrd] at hshown
    exact ⟨_, (exec_sampleResult_comes (State.sampleComes_of hup hconv hinput hraw) inst t).2.1 hk s1 hseq, hshown.result,
      hshown.saturation, (hshown.beyond (by omega)).trans (owBeyond_congr (hrd _) (hrd _) _), (congrArg ConvSt.seqPos htasks :),
      (congrArg ConvSt.seqAct htasks :)⟩
  case refine_2 =>
    intro k i raw inst t s s1 hup hconv hinput hraw hk hmode hseq
    obtain ⟨hheld, f, hs1⟩ := State.seqHold_held hseq
    obtain ⟨-, -, -, htaken, -⟩ := exec_sampleResult_comes (State.sampleComes_of hup hconv hinput hraw) inst t
    refine ⟨s1, htaken hk hmode s1 hseq, rfl, hheld, ?_⟩
    rw [hs1, ← s.atT_conv t]
    rfl
  case refine_3 =>
    intro k i inst s htold
    refine ⟨_, State.seqResult_told htold, ?_, ?_⟩ <;> rw [State.convAt_modConvN]
  case refine_4 =>
    intro k i raw inst t s hup hinput hraw hk
    have hconv : s.hasConv k.val = true := by simp [State.hasConv, hk]
    have hshown := State.regularNoted_shown (k := k.val) k.isLt i.isLt raw inst (s.atT t)
    have hown := (exec_sampleResult_comes (State.sampleComes_of hup hconv hinput hraw) inst t).1 (by omega)
    rw [State.regularSample_aux hk] at hown
    exact ⟨_, hown, hshown.result.trans (State.resultOf_congr fun _ => s.atT_rd t _)⟩
  case refine_5 =>
    intro k i raw inst t s hup hinput hraw hk
    have hconv : s.hasConv k.val = true := by simp [State.hasConv, hk]
    have hshown := (State.regularNoted_shown (k := k.val) k.isLt i.isLt raw inst (s.atT t)).works k.isLt i.isLt
      (works_scTake k.val i.val ((s.atT t).resultOf k.val i.val raw) ((s.atT t).notReady k.val) inst _)
    have hown := (exec_sampleResult_comes (State.sampleComes_of hup hconv hinput hraw) inst t).1 (by omega)
    rw [State.regularSample_sinCos hk] at hown
    obtain ⟨hsin, hcos⟩ := State.scTake_held i.val ((s.atT t).resultOf k.val i.val raw) ((s.atT t).notReady k.val) inst
      ((s.atT t).regularNoted k.val i.val raw inst)
    refine ⟨_, hown, hshown.result.trans (State.resultOf_congr fun _ => s.atT_rd t _), fun hi => ?_, fun hi => ?_⟩
    · rw [hshown.result, hsin hi]
    · rw [hshown.result, hcos hi]
  case refine_6 =>
    intro k i raw inst t rest s hup hconv hinput hraw hk hmode hrun
    obtain ⟨-, -, -, -, htaken, -⟩ := exec_sampleResult_comes (State.sampleComes_of hup hconv hinput hraw) inst t
    have hresult : (s.atT t).resultOf k.val i.val raw = s.resultOf k.val i.val raw := State.resultOf_congr fun _ => s.atT_rd t _
    have hconvAt := s.convAt_atT t k.val
    have hrun' : ((s.atT t).convAt k.val).injRun = some (i.val :: rest) := by rw [hconvAt, State.convAt_val, hrun]
    refine ⟨_, htaken hk hmode rest hrun, fun hrest => ?_, fun hrest => ?_⟩
    · rw [hrest] at hrun'
      obtain ⟨hdone, hlast⟩ := State.injectedSample_last k.isLt i.isLt raw inst hrun'
      rw [hconvAt] at hdone hlast
      rw [hresult] at hlast
      exact ⟨hdone, hlast⟩
    · obtain ⟨hleft, hdone, hshown⟩ := State.injectedSample_more k.isLt i.isLt raw inst hrun' hrest
      rw [hconvAt] at hdone
      exact ⟨hleft, hdone, hshown.trans hresult⟩
  case refine_7 =>
    intro k i raw left inst t s hup hconv hinput hraw hk hmode hsrc hi hburst hleft
    obtain ⟨-, -, -, -, -, htaken⟩ := exec_sampleResult_comes (State.sampleComes_of hup hconv hinput hraw) inst t
    obtain ⟨tm, hat, -⟩ := s.atT_only t
    obtain ⟨hown, hinp⟩ := State.pairInput_bounds hk hsrc
    have hbursting : s.bursting k.val = true := by
      unfold State.bursting
      rw [hburst]
      rfl
    obtain ⟨hresult, hburst', hbuf⟩ := State.pairSample_burst (s := { s with time := tm }) rfl hown hinp raw inst hmode hburst hleft
    refine ⟨_, s.pairInput (evenOf k.val), rfl, htaken hk hmode hbursting hi, ?_, ?_, ?_⟩ <;> rw [hat]
    · exact hresult
    · exact hburst'
    · exact hbuf
  case refine_8 =>
    intro k i raw inst t s hk
    obtain ⟨hregular, hinjected, hburst, hpair⟩ := exec_sampleResult_idle k i raw inst t (s := s) hk
    refine ⟨hregular, hinjected, hburst, fun hmode kind hkind => ?_, fun hmode hheld hgone => hregular (State.seqResult_interleaved ?_ ?_ ?_)⟩
    · obtain ⟨hheld, hinj⟩ := hpair hmode
      rcases List.mem_pair.mp hkind with rfl | rfl
      · exact hheld
      · exact hinj
    · rw [State.convAt_atT, hheld]
    · rw [State.convAt_atT, hgone]
    · exact (s.atT_rd t _).trans hmode
  case refine_9 =>
    intro n b k i inst s hk hmem hlt hloaf
    have hheld := State.dropHeld_held n b hk s
    constructor
    · refine List.any_eq_false.mpr (fun x hx => ?_)
      obtain ⟨-, hold⟩ := List.mem_filter.mp (hheld ▸ hx)
      rw [decide_eq_true_eq]
      rintro ⟨rfl, hxb⟩
      simp [hxb, hloaf] at hold
    · rw [hheld]
      simp [hlt, hloaf]

end Sys2Proof
end

section
/-! The other events of the converters (R209, R216 to R219, R221 to R223, R237 to R239, R241, R244; O41). -/

namespace Sys2Proof.Machine

open Sys2Proof

/-! ## Starts on a trigger line (R209, R221 to R223) -/

/-- What a firing comes upon: the clocks carried to it, and the edges and wants of its loaf accounted. -/
theorem State.firing_only (n : Fin 4) (t : Nat) (s : State) : ∃ tm q, (s.atT t).pwmTo n = { s with time := tm, loaf := q } := by
  obtain ⟨tm, hat, -⟩ := s.atT_only t
  obtain ⟨l, -, hpwm⟩ := accounted_pwmTo n (s.atT t)
  rw [hat] at hpwm ⊢
  exact ⟨_, _, hpwm⟩

/-- A dropped start is counted, and reported at most once per ms (R223). -/
theorem State.overrun_quiet (k : Nat) (s : State) : Quiet (s.bump (Obj.injOverrun k)) (s.overrun k) :=
  State.latchLimited_mild quiet_mild (quiet_refl _)

/-- An injected start may be taken: the converter has entries, its pair does not interleave, and none came in this cycle. -/
def State.injTakes (s : State) (k : Nat) : Prop :=
  s.rd (Obj.injLen k) ≠ 0 ∧ s.rd (Obj.pairMode (evenOf k)) ≠ 2 ∧ (s.convAt k).injT ≠ some s.time.now

/-- The converter takes the injected start now. -/
def State.injNow (k : Nat) (s : State) : State := s.modConvN k (fun c => { c with injT := some s.time.now })

theorem State.injStart_takes {k : Nat} {s : State} (h : s.injTakes k) :
    ((s.convAt k).injRun = none → s.bursting k = false →
      s.injStart k = (s.injNow k).modConvN k (fun c => { c with injRun := some (s.injEntries k), injRes := [] }))
    ∧ ((s.convAt k).injRun ≠ none ∨ s.bursting k = true →
      s.injStart k = if (s.convAt k).injHeld then (s.injNow k).overrun k else (s.injNow k).modConvN k (fun c => { c with injHeld := true })) := by
  obtain ⟨hlen, hmode, hnow⟩ := h
  unfold State.injStart
  extract_lets c s1
  rw [if_neg (by simp only [not_or]; exact ⟨hlen, hmode, hnow⟩)]
  constructor
  · intro hidle hburst
    exact if_neg (by rw [show c.injRun = none from hidle, hburst]; decide)
  · intro hbusy
    refine if_pos ?_
    rw [Bool.or_eq_true, Option.isSome_iff_ne_none]
    exact hbusy

/-- The pair takes the burst start now. -/
def State.burstNow (even : Nat) (s : State) : State := s.modConvN even (fun c => { c with pairT := some s.time.now })

theorem State.burstStart_takes {even : Nat} {s : State} (h : (s.convAt even).pairT ≠ some s.time.now) (line : Nat)
    (own : Option (Nat × Nat × Int)) : s.burstStart even line own = if s.bursting even then (s.burstNow even).overrun even
      else (s.burstNow even).modConvN even (fun c => { c with
        burst := some (s.rdN (Obj.pairBurstLen even)), burstLine := line, burstFor := own, burstBuf := [] }) := by
  unfold State.burstStart
  rw [if_neg h]
  rfl

/-- The line's firing taken by the converter (R209). -/
def State.lineSaw (k line : Nat) (s : State) : State :=
  s.modConvN k (fun c => { c with lineSeen := setAt 0 c.lineSeen line (s.lineCount line) })

theorem State.lineSaw_convAt (k line : Nat) (s : State) : (s.lineSaw k line).convAt k
    = { s.convAt k with lineSeen := setAt 0 (s.convAt k).lineSeen line (s.lineCount line) } := State.convAt_modConvN ..
theorem State.lineSaw_bursting (k line m : Nat) (s : State) : (s.lineSaw k line).bursting m = s.bursting m := by
  unfold State.bursting
  refine State.convAt_modConvN_keeps (g := fun c => c.burst.isSome) ?_ k (evenOf m) s
  exact fun _ => rfl

theorem exec_injectedSeqStart {k : Fin 4} {line : Fin 12} {t : Nat} {s w : State} (hw : w = (s.atT t).pwmTo (Fin.ofNat 4 (line.val / 3))) :
    exec (.injectedSeqStart k line t) s = if w.regionUp && w.has k.val && w.rdBit (Obj.injTrig k.val) line.val
        && decide ((w.convAt k.val).lineSeen.getD line.val 0 < w.lineCount line.val) then
      .next ((w.lineSaw k.val line.val).injStart k.val).settle else .next w := by
  rw [hw]
  rfl

/-- A firing not taken yet of an enabled line: the sequence starts, or the start is held behind the work in progress, or dropped. -/
theorem injectedSeqStart_fires {k : Fin 4} {line : Fin 12} {t : Nat} {s w : State} (hw : w = (s.atT t).pwmTo (Fin.ofNat 4 (line.val / 3)))
    (hup : w.regionUp = true) (hhas : w.has k.val = true) (htrig : w.rdBit (Obj.injTrig k.val) line.val = true)
    (hnew : (w.convAt k.val).lineSeen.getD line.val 0 < w.lineCount line.val) (htakes : w.injTakes k.val) :
    ∃ u : State, u = w.modConvN k.val (fun c => { c with
        lineSeen := setAt 0 c.lineSeen line.val (w.lineCount line.val), injT := some w.time.now })
      ∧ ((w.convAt k.val).injRun = none → w.bursting k.val = false →
        ∃ t' : State, exec (.injectedSeqStart k line t) s = .next t' ∧ Quiet (u.modConvN k.val (fun c => { c with
          injRun := some (w.injEntries k.val), injRes := [] })) t')
      ∧ ((w.convAt k.val).injRun ≠ none ∨ w.bursting k.val = true → (w.convAt k.val).injHeld = false →
        ∃ t' : State, exec (.injectedSeqStart k line t) s = .next t' ∧ Quiet (u.modConvN k.val (fun c => { c with injHeld := true })) t')
      ∧ ((w.convAt k.val).injRun ≠ none ∨ w.bursting k.val = true → (w.convAt k.val).injHeld = true →
        ∃ t' : State, exec (.injectedSeqStart k line t) s = .next t' ∧ Quiet (u.bump (Obj.injOverrun k.val)) t') := by
  have hexec := (exec_injectedSeqStart (k := k) hw).trans (if_pos (by rw [hup, hhas, htrig, decide_eq_true hnew]; rfl))
  have hconv := w.lineSaw_convAt k.val line.val
  have hburst := w.lineSaw_bursting k.val line.val k.val
  have hx : (w.lineSaw k.val line.val).injTakes k.val := ⟨htakes.1, htakes.2.1, by rw [hconv]; exact htakes.2.2⟩
  obtain ⟨hfree, hbusy⟩ := State.injStart_takes hx
  rw [hburst, hconv] at hfree hbusy
  refine ⟨(w.lineSaw k.val line.val).injNow k.val, State.modConvN_modConvN .., fun hrun hidle => ?_, fun hwork hheld => ?_, fun hwork hheld => ?_⟩
  · rw [hfree hrun hidle] at hexec
    exact ⟨_, hexec, State.settle_quiet _⟩
  · rw [hbusy hwork, if_neg (by simp [hheld])] at hexec
    exact ⟨_, hexec, State.settle_quiet _⟩
  · rw [hbusy hwork, if_pos hheld] at hexec
    exact ⟨_, hexec, quiet_trans (State.overrun_quiet ..) (State.settle_quiet _)⟩

/-- The line's firing taken by the pair. -/
def State.pairSaw (even line : Nat) (s : State) : State :=
  s.modConvN even (fun c => { c with pairSeen := setAt 0 c.pairSeen line (s.lineCount line) })

/-- The Oven's bursts placed up to `t` taken from its queue (R344). -/
def State.reconSaw (even t : Nat) (s : State) : State :=
  s.modConvN even (fun c => { c with reconQ := c.reconQ.filter (fun x => decide (t < x.1)) })

/-- A pair in burst mode: a firing of an enabled line not taken yet starts a burst, on another line the Oven's own. -/
theorem exec_pairBurstStart {p : Fin 2} {line : Fin 12} {t : Nat} {s w : State} (hw : w = (s.atT t).pwmTo (Fin.ofNat 4 (line.val / 3))) :
    (w.rd (Obj.pairMode (2 * p.val)) ≠ 1 → exec (.pairBurstStart p line t) s = .next w)
    ∧ (w.rdBit (Obj.pairTrig (2 * p.val)) line.val = true → w.lineCount line.val ≤ (w.convAt (2 * p.val)).pairSeen.getD line.val 0 →
      exec (.pairBurstStart p line t) s = .next w)
    ∧ (w.rdBit (Obj.pairTrig (2 * p.val)) line.val = false → (w.convAt (2 * p.val)).reconQ.find? (fun x => x.1 == t) = none →
      exec (.pairBurstStart p line t) s = .next w)
    ∧ (w.regionUp = true → w.has (2 * p.val) = true → w.rd (Obj.pairMode (2 * p.val)) = 1 →
      (w.rdBit (Obj.pairTrig (2 * p.val)) line.val = true → (w.convAt (2 * p.val)).pairSeen.getD line.val 0 < w.lineCount line.val →
        exec (.pairBurstStart p line t) s = .next ((w.pairSaw (2 * p.val) line.val).burstStart (2 * p.val) line.val none).settle)
      ∧ (∀ q, w.rdBit (Obj.pairTrig (2 * p.val)) line.val = false → (w.convAt (2 * p.val)).reconQ.find? (fun x => x.1 == t) = some q →
        exec (.pairBurstStart p line t) s
          = .next ((w.reconSaw (2 * p.val) t).burstStart (2 * p.val) (3 * q.2.1) (some q.2)).settle)) := by
  have hexec : exec (.pairBurstStart p line t) s = execPairBurstStart p line t s := rfl
  rw [hexec]
  unfold execPairBurstStart
  dsimp only
  rw [← hw]
  refine ⟨fun hmode => if_pos (by simp [hmode]), fun htrig hseen => ?_, fun htrig hnone => ?_, fun hup hhas hmode =>
    ⟨fun htrig hnew => ?_, fun q htrig hq => ?_⟩⟩
  · rw [htrig, if_pos rfl, if_neg (Nat.not_lt.mpr hseen), ite_self]
  · rw [htrig, hnone]
    exact ite_self _
  · rw [hup, hhas, hmode, htrig, if_neg (by decide), if_pos rfl, if_pos hnew]
    rfl
  · rw [hup, hhas, hmode, htrig, hq, if_neg (by decide), if_neg (by decide)]
    rfl

/-- What else changed of the pair's unit leaves a burst start as it is. -/
theorem State.burstStart_after {even : Nat} {f : ConvSt → ConvSt} (hf : ∀ c, (f c).pairT = c.pairT ∧ (f c).burst = c.burst) {s : State}
    (hcycle : (s.convAt even).pairT ≠ some s.time.now) (heven : evenOf even = even) (line : Nat) (own : Option (Nat × Nat × Int)) :
    (s.bursting even = false → (s.modConvN even f).burstStart even line own = s.modConvN even (fun c => { f c with
      pairT := some s.time.now, burst := some (s.rdN (Obj.pairBurstLen even)), burstLine := line, burstFor := own, burstBuf := [] }))
    ∧ (s.bursting even = true → (s.modConvN even f).burstStart even line own
      = (s.modConvN even (fun c => { f c with pairT := some s.time.now })).overrun even) := by
  have hnow : ((s.modConvN even f).convAt even).pairT ≠ some (s.modConvN even f).time.now := by
    rw [State.convAt_modConvN, (hf _).1]
    exact hcycle
  have hburst : (s.modConvN even f).bursting even = s.bursting even := by
    unfold State.bursting
    rw [heven, State.convAt_modConvN, (hf _).2]
  rw [State.burstStart_takes hnow, hburst]
  refine ⟨fun h => ?_, fun h => ?_⟩
  · rw [h, if_neg Bool.false_ne_true, State.burstNow, State.modConvN_modConvN, State.modConvN_modConvN]
    rfl
  · rw [h, if_pos rfl, State.burstNow, State.modConvN_modConvN]
    rfl

/-- A burst started, by a firing not taken yet or as the Oven placed it, or dropped while another runs. -/
theorem pairBurstStart_fires {p : Fin 2} {line : Fin 12} {t : Nat} {s w : State} (hw : w = (s.atT t).pwmTo (Fin.ofNat 4 (line.val / 3)))
    (hup : w.regionUp = true) (hhas : w.has (2 * p.val) = true) (hmode : w.rd (Obj.pairMode (2 * p.val)) = 1)
    (hcycle : (w.convAt (2 * p.val)).pairT ≠ some w.time.now) :
    (w.rdBit (Obj.pairTrig (2 * p.val)) line.val = true →
      (w.convAt (2 * p.val)).pairSeen.getD line.val 0 < w.lineCount line.val →
      ∃ u : State, u = w.modConvN (2 * p.val) (fun c => { c with
          pairSeen := setAt 0 c.pairSeen line.val (w.lineCount line.val), pairT := some w.time.now })
        ∧ (w.bursting (2 * p.val) = false → ∃ t' : State, exec (.pairBurstStart p line t) s = .next t'
            ∧ Quiet (u.modConvN (2 * p.val) (fun c => { c with
          burst := some (w.rdN (Obj.pairBurstLen (2 * p.val))), burstLine := line.val, burstFor := none, burstBuf := [] })) t')
        ∧ (w.bursting (2 * p.val) = true → ∃ t' : State, exec (.pairBurstStart p line t) s = .next t'
            ∧ Quiet (u.bump (Obj.injOverrun (2 * p.val))) t'))
    ∧ (∀ q, w.rdBit (Obj.pairTrig (2 * p.val)) line.val = false →
      (w.convAt (2 * p.val)).reconQ.find? (fun x => x.1 == t) = some q → w.bursting (2 * p.val) = false →
      ∃ t' : State, exec (.pairBurstStart p line t) s = .next t' ∧ Quiet (w.modConvN (2 * p.val) (fun c => { c with
        reconQ := c.reconQ.filter (fun x => decide (t < x.1)), pairT := some w.time.now
        burst := some (w.rdN (Obj.pairBurstLen (2 * p.val))), burstLine := 3 * q.2.1, burstFor := some q.2, burstBuf := [] })) t') := by
  have heven : evenOf (2 * p.val) = 2 * p.val := by
    unfold evenOf
    omega
  obtain ⟨-, -, -, hstarts⟩ := exec_pairBurstStart (p := p) hw
  obtain ⟨hline, hown⟩ := hstarts hup hhas hmode
  refine ⟨fun htrig hnew => ⟨_, rfl, fun hidle => ?_, fun hbusy => ?_⟩, fun q htrig hq hidle => ?_⟩
  · have hexec := hline htrig hnew
    rw [State.pairSaw, (State.burstStart_after ?_ hcycle heven _ _).1 hidle] at hexec
    · rw [State.modConvN_modConvN]
      exact ⟨_, hexec, State.settle_quiet _⟩
    · exact fun _ => ⟨rfl, rfl⟩
  · have hexec := hline htrig hnew
    rw [State.pairSaw, (State.burstStart_after ?_ hcycle heven _ _).2 hbusy] at hexec
    · exact ⟨_, hexec, quiet_trans (State.overrun_quiet ..) (State.settle_quiet _)⟩
    · exact fun _ => ⟨rfl, rfl⟩
  · have hexec := hown q htrig hq
    rw [State.reconSaw, (State.burstStart_after ?_ hcycle heven _ _).1 hidle] at hexec
    · exact ⟨_, hexec, State.settle_quiet _⟩
    · exact fun _ => ⟨rfl, rfl⟩

/-! ## Slices and their estimates (R216 to R219) -/

theorem exec_sliceExclude_first {k : Fin 4} (sl : Fin 4) {s : State} (hup : s.regionUp = true) (hhas : s.has k.val = true)
    (hnone : s.rdN (Obj.sliceExcl k.val) = 0) :
    exec (.sliceExclude k sl) s = .next ((s.wrBit (Obj.sliceExcl k.val) sl.val true).fault 0x0402 (mkInst k.val sl.val) 0) := by
  show execSliceExclude k sl s = _
  unfold execSliceExclude
  dsimp only
  rw [hup, hhas, hnone, Nat.zero_testBit, if_neg (by decide), if_pos (.inl rfl)]
  rfl

/-- A second slice excluded fails the converter. -/
def State.sliceFailed (k sl : Nat) (s : State) : State :=
  ((s.wrBit (Obj.sliceExcl k) sl true).latch 0x0402 (mkInst k sl) 0).modConvN k (fun c => { c with failed := true })

theorem exec_sliceExclude_second {k sl : Fin 4} {s : State} (hup : s.regionUp = true) (hhas : s.has k.val = true)
    (hsome : s.rdN (Obj.sliceExcl k.val) ≠ 0) (hnew : (s.rdN (Obj.sliceExcl k.val)).testBit sl.val = false)
    (hworks : (s.convAt k.val).failed = false) :
    exec (.sliceExclude k sl) s = .next ((s.sliceFailed k.val sl.val).fault 0x4405 (mkInst k.val 0) 0) := by
  show execSliceExclude k sl s = _
  unfold execSliceExclude
  dsimp only
  rw [hup, hhas, hnew, hworks, if_neg (by decide), if_neg (by simpa using hsome)]
  rfl

/-- The converters' objects are none of the collector's. -/
theorem convObj_not_collector {a : Nat} (hlo : 0x300000 ≤ a) (hhi : a < 0x380000) : a ∉ collectorObjs := fun hmem =>
  convObj_apart hlo hhi (List.mem_append_right _ hmem)

theorem State.sliceFailed_leaves (k sl : Fin 4) (s : State) : ((s.sliceFailed k.val sl.val).convAt k.val).failed = true
    ∧ (s.sliceFailed k.val sl.val).rdBit (Obj.sliceExcl k.val) sl.val = true := by
  have hexcl : Obj.sliceExcl k.val ∉ collectorObjs := by
    refine convObj_not_collector ?_ ?_ <;> (unfold Obj.sliceExcl; omega)
  constructor
  · exact congrArg ConvSt.failed (State.convAt_modConvN ..)
  · refine (State.rdBit_of_rd (quiet_rd (State.latch_quiet (s.wrBit (Obj.sliceExcl k.val) sl.val true) ..) hexcl) sl.val).trans ?_
    exact (State.rdBit_wrBit ..).trans ((if_pos rfl).trans (if_pos rfl))

theorem clampI_bounds {lo hi : Int} (h : lo ≤ hi) (v : Int) : lo ≤ clampI lo hi v ∧ clampI lo hi v ≤ hi := by
  unfold clampI
  split
  · exact ⟨le_refl lo, h⟩
  · split
    · exact ⟨h, le_refl hi⟩
    · exact ⟨not_lt.mp ‹_›, not_lt.mp ‹_›⟩

/-- The estimate of a slice as its object shows it (R216). -/
def State.estimate (s : State) (k q sl : Nat) : Int := clampI (-32768) 32767 (Config.sliceEstimate s.freeNo (4 * k + sl) q)

/-- The three estimates of a slice. -/
def sliceObjs (k sl : Nat) : List Nat := [Obj.sliceOfs k sl, Obj.sliceGain k sl, Obj.sliceSkew k sl]

/-- The estimates of a slice shown. -/
def State.sliceShown (r : State) (k sl : Nat) (s : State) : State :=
  ((s.wr (Obj.sliceOfs k sl) (r.estimate k 0 sl)).wr (Obj.sliceGain k sl) (r.estimate k 1 sl)).wr (Obj.sliceSkew k sl) (r.estimate k 2 sl)

theorem exec_mismatchConverged {k : Fin 4} {s : State} (hhas : s.has k.val = true) (href : s.power.refReady.get (Fin.ofNat 6 k.val) = true) :
    exec (.mismatchConverged k) s = if s.rd (Obj.mmFreeze k.val) = 1 then .next (s.modConvN k.val (fun c => { c with mmConv := true }))
      else .next (forAll (List.range 4) (State.sliceShown s k.val) (s.modConvN k.val (fun c => { c with mmConv := true }))).drew := by
  show execMismatchConverged k s = _
  unfold execMismatchConverged
  rw [hhas, href]
  rfl

/-- An object of which a value within bounds is written stays within them. -/
theorem State.rd_wr_within {lo hi v : Int} (hv : lo ≤ v ∧ v ≤ hi) {b : Nat} (a : Nat) {s : State} (h : b = a ∨ (lo ≤ s.rd b ∧ s.rd b ≤ hi)) :
    lo ≤ (s.wr a v).rd b ∧ (s.wr a v).rd b ≤ hi := by
  rw [State.rd_wr]
  split
  · exact hv
  · exact h.resolve_left ‹_›

theorem State.sliceShown_bounds (r : State) (k sl : Nat) {a : Nat} {s : State} (h : a ∈ sliceObjs k sl ∨ (-32768 ≤ s.rd a ∧ s.rd a ≤ 32767)) :
    -32768 ≤ (State.sliceShown r k sl s).rd a ∧ (State.sliceShown r k sl s).rd a ≤ 32767 := by
  have hest : ∀ q, -32768 ≤ r.estimate k q sl ∧ r.estimate k q sl ≤ 32767 := fun q => clampI_bounds (by decide) _
  unfold State.sliceShown
  refine State.rd_wr_within (hest 2) _ (or_iff_not_imp_left.mpr fun hskew => ?_)
  refine State.rd_wr_within (hest 1) _ (or_iff_not_imp_left.mpr fun hgain => ?_)
  refine State.rd_wr_within (hest 0) _ (h.imp_left fun hmem => ?_)
  simpa [sliceObjs, hskew, hgain] using hmem

theorem slicesShown_bounds (r : State) (k : Nat) {l : List Nat} {sl a : Nat} (hsl : sl ∈ l) (ha : a ∈ sliceObjs k sl) (s : State) :
    -32768 ≤ (forAll l (State.sliceShown r k) s).rd a ∧ (forAll l (State.sliceShown r k) s).rd a ≤ 32767 := by
  suffices h : ∀ (m : List Nat) (x : State), sl ∈ m ∨ (-32768 ≤ x.rd a ∧ x.rd a ≤ 32767) →
      -32768 ≤ (forAll m (State.sliceShown r k) x).rd a ∧ (forAll m (State.sliceShown r k) x).rd a ≤ 32767 from h l s (.inl hsl)
  intro m
  induction m with
  | nil => exact fun x hx => hx.resolve_left List.not_mem_nil
  | cons b m ih =>
    intro x hx
    refine ih _ (or_iff_not_imp_left.mpr fun hm => State.sliceShown_bounds r k b (hx.imp_left fun hmem => ?_))
    exact (List.mem_cons.mp hmem).resolve_right hm ▸ ha

theorem State.sliceShown_conv (r : State) (k sl : Nat) (s : State) : (State.sliceShown r k sl s).conv = s.conv := rfl

theorem mismatchConverged_leaves {k : Fin 4} {s : State} (hhas : s.has k.val = true) (href : s.power.refReady.get (Fin.ofNat 6 k.val) = true) :
    ∃ t : State, exec (.mismatchConverged k) s = .next t ∧ (t.convAt k.val).mmConv = true
      ∧ (s.rd (Obj.mmFreeze k.val) = 1 → t.objs = s.objs)
      ∧ (s.rd (Obj.mmFreeze k.val) ≠ 1 → ∀ sl < 4, ∀ a ∈ sliceObjs k.val sl, -32768 ≤ t.rd a ∧ t.rd a ≤ 32767) := by
  have hexec := exec_mismatchConverged hhas href
  by_cases hfreeze : s.rd (Obj.mmFreeze k.val) = 1
  · rw [if_pos hfreeze] at hexec
    exact ⟨_, hexec, congrArg ConvSt.mmConv (State.convAt_modConvN ..), fun _ => rfl, fun h => absurd hfreeze h⟩
  · rw [if_neg hfreeze] at hexec
    refine ⟨_, hexec, ?_, fun h => absurd h hfreeze, fun _ sl hsl a ha => ?_⟩
    · have hconv := forAll_keeps (g := State.conv) (State.sliceShown_conv s k.val) (List.range 4)
        (s.modConvN k.val (fun c => { c with mmConv := true }))
      unfold State.convAt
      rw [State.drew_conv, hconv]
      exact congrArg ConvSt.mmConv (State.convAt_modConvN k.val _ s)
    · rw [State.drew_rd]
      exact slicesShown_bounds s k.val (List.mem_range.mpr hsl) ha _

/-! ## Comparisons of the shared input (R237, R238, R316) -/

/-- The shared input's difference shown. -/
def State.diffShown (even : Nat) (d : Int) (s : State) : State := s.wr (Obj.plausDiff even) d

/-- The results of both converters compared at `t`. -/
def State.compares (s : State) (p : Fin 2) (t : Nat) (a b : Int) : Prop :=
  s.regionUp = true ∧ s.has (2 * p.val) = true ∧ s.rd (Obj.plausEn (2 * p.val)) = 1 ∧ s.plausStale (2 * p.val) = false
    ∧ s.plausInput (2 * p.val) t = some a ∧ s.plausInput (2 * p.val + 1) t = some b ∧ -32768 ≤ a - b ∧ a - b ≤ 32767

theorem State.compares_atT {s : State} {p : Fin 2} {t : Nat} {a b : Int} (h : s.compares p t a b) : (s.atT t).compares p t a b := by
  obtain ⟨tm, hat, -⟩ := s.atT_only t
  rw [hat]
  exact h

/-- Results that differ by more than `PLAUS_TOL` lengthen the run (R237). -/
def State.plausExceeds (even : Nat) (d : Int) (s : State) : State := (s.diffShown even d).bumpTo (Obj.plausRun even) 65535
/-- The run is long enough to be said. -/
def State.plausSays (even : Nat) (s : State) : State := s.modConvN even (fun c => { c with plausSaid := true })

/-- A comparison shows the difference; within the tolerance it ends the run, beyond it the run grows, and is said once. -/
theorem exec_plausCompare {p : Fin 2} {t : Nat} {a b : Int} {s : State} (h : s.compares p t a b) : exec (.plausCompare p t) s
    = if s.rd (Obj.plausTol (2 * p.val)) < ((a - b).natAbs : Int) then
        (if s.rd (Obj.plausCount (2 * p.val)) ≤ ((s.atT t).plausExceeds (2 * p.val) (a - b)).rd (Obj.plausRun (2 * p.val))
            ∧ !(s.convAt (2 * p.val)).plausSaid then
          .next ((((((s.atT t).plausExceeds (2 * p.val) (a - b)).plausSays (2 * p.val)).latch 0x4403 (mkInst p.val 0) 0).attributed 0x4403
            (mkInst p.val 0)).settle)
        else .next ((s.atT t).plausExceeds (2 * p.val) (a - b)))
      else .next ((((s.atT t).diffShown (2 * p.val) (a - b)).wr (Obj.plausRun (2 * p.val)) 0).modConvN (2 * p.val)
        (fun c => { c with plausSaid := false })) := by
  obtain ⟨hup, hhas, hen, hstale, ha, hb, hlo, hhi⟩ := State.compares_atT h
  show execPlausCompare p t s = _
  unfold execPlausCompare
  dsimp only
  rw [hup, hhas, hen, if_neg (by decide), ha, hb]
  dsimp only
  rw [hstale, if_neg Bool.false_ne_true, if_pos (show -32768 ≤ a - b ∧ a - b ≤ 32767 from ⟨hlo, hhi⟩), s.atT_rd t (Obj.plausTol _),
    s.atT_rd t (Obj.plausCount _), State.convAt_atT]
  rfl

/-- A comparison that is off, that has no usable result or none of the sequences holding the input changes nothing. -/
theorem exec_plausCompare_none {p : Fin 2} {t : Nat} {s : State} (h : s.rd (Obj.plausEn (2 * p.val)) ≠ 1 ∨ s.plausInput (2 * p.val) t = none
    ∨ s.plausInput (2 * p.val + 1) t = none ∨ s.plausStale (2 * p.val) = true) : exec (.plausCompare p t) s = .next (s.atT t) := by
  have h' : (s.atT t).rd (Obj.plausEn (2 * p.val)) ≠ 1 ∨ (s.atT t).plausInput (2 * p.val) t = none
      ∨ (s.atT t).plausInput (2 * p.val + 1) t = none ∨ (s.atT t).plausStale (2 * p.val) = true := by
    obtain ⟨tm, hat, -⟩ := s.atT_only t
    rw [hat]
    exact h
  show execPlausCompare p t s = _
  unfold execPlausCompare
  dsimp only
  rcases h' with hoff | ha | hb | hstale
  · refine if_pos ?_
    rw [decide_eq_false hoff, Bool.and_false]
    rfl
  · rw [ha]
    exact ite_self _
  · rw [hb]
    split
    · rfl
    · split
      · cases ‹none = some _›
      · rfl
  · rw [hstale]
    split
    · rfl
    · split <;> rfl

theorem plausObjs_apart (p : Fin 2) : Obj.plausDiff (2 * p.val) ≠ Obj.plausRun (2 * p.val)
    ∧ Obj.plausDiff (2 * p.val) ∉ collectorObjs ∧ Obj.plausRun (2 * p.val) ∉ collectorObjs := by
  revert p
  decide

theorem State.plausExceeds_rd (p : Fin 2) (d : Int) (s : State) : (s.plausExceeds (2 * p.val) d).rd (Obj.plausDiff (2 * p.val)) = d
    ∧ (s.plausExceeds (2 * p.val) d).rd (Obj.plausRun (2 * p.val)) = min (s.rd (Obj.plausRun (2 * p.val)) + 1) 65535 := by
  obtain ⟨hne, -⟩ := plausObjs_apart p
  unfold State.plausExceeds State.diffShown
  rw [State.rd_bumpTo_ne _ _ hne, State.rd_wr_same, State.rd_bumpTo_same, State.rd_wr_ne _ _ (Ne.symm hne)]
  exact ⟨rfl, rfl⟩

/-- The attribution of R316 is one of the collector's operations: a loaf that measures the link voltage may report one of the pair. -/
theorem State.attributed_mild {R : State → State → Prop} (h : Mild R) {r0 s : State} {code inst : Half} (hs : R r0 s) :
    R r0 (s.attributed code inst) := by
  unfold State.attributed
  refine ite_mild (fun _ => forAll_mild h (fun n x => ?_) hs) (fun _ => hs)
  show R x (match x.findRole n 7 with | some (k, i) => _ | none => x)
  split
  · dsimp only
    refine ite_mild (fun _ => ite_mild (fun _ => ?_) fun _ => ite_mild (fun _ => ?_) fun _ => h.refl x) (fun _ => h.refl x)
    · exact State.latch_mild h (h.refl x)
    · exact State.latch_mild h (h.refl x)
  · exact h.refl x

/-- A report with its attribution and all that follows leaves what a report leaves, and the fault stands. -/
theorem State.attributed_quiet (code inst : Half) (data : Int) (s : State) :
    Quiet s (((s.latch code inst data).attributed code inst).settle) :=
  State.settle_mild quiet_mild (State.attributed_mild quiet_mild (State.latch_quiet ..))
theorem State.attributed_pending {code inst : Half} {data : Int} {s : State} (hr : s.raisable code inst = true)
    (hc : (s.classOf code).1 ≠ .c0) : (((s.latch code inst data).attributed code inst).settle).isPending code inst = true :=
  (State.settle_mild (stands_mild code inst) (State.attributed_mild (stands_mild code inst) (fun h => h)) (State.latch_stands hr hc)).pending

/-- The pair's fault may be raised where the pair is present. -/
theorem State.raisable_plaus {p : Fin 2} {s : State} (h : s.has (2 * p.val) = true) : s.raisable 0x4403 (mkInst p.val 0) = true := by
  have hrow : (codeRow 0x4403).isSome = true := by decide +kernel
  have hkind : instKind 0x4403 = .pair := by decide +kernel
  have hinst : ∀ p : Fin 2, (mkInst p.val 0).toNat < 256 ∧ instIndex (mkInst p.val 0) = p.val := by decide
  unfold State.raisable
  rw [hrow, hkind, decide_eq_true (hinst p).1, (hinst p).2]
  simp [h, p.isLt]

theorem State.plausExceeds_only (even : Nat) (d : Int) (s : State) : ∃ o, s.plausExceeds even d = { s with objs := o } := by
  unfold State.plausExceeds State.bumpTo
  split <;> exact ⟨_, rfl⟩

theorem plausCompare_agrees {p : Fin 2} {t : Nat} {a b : Int} {s : State} (h : s.compares p t a b)
    (htol : ((a - b).natAbs : Int) ≤ s.rd (Obj.plausTol (2 * p.val))) :
    ∃ u : State, exec (.plausCompare p t) s = .next u ∧ u.rd (Obj.plausDiff (2 * p.val)) = a - b ∧ u.rd (Obj.plausRun (2 * p.val)) = 0
      ∧ u.flt = s.flt ∧ ObjsKept [Obj.plausDiff (2 * p.val), Obj.plausRun (2 * p.val)] s u := by
  obtain ⟨hne, -⟩ := plausObjs_apart p
  refine ⟨_, (exec_plausCompare h).trans (if_neg (not_lt.mpr htol)), ?_, ?_, s.atT_flt t, fun a ha => ?_⟩
  · rw [State.modConvN_rd, State.rd_wr_ne _ _ hne]
    exact State.rd_wr_same ..
  · rw [State.modConvN_rd, State.rd_wr_same]
  · simp only [List.mem_cons, List.not_mem_nil, or_false, not_or] at ha
    rw [State.modConvN_rd, State.rd_wr_ne _ _ ha.2]
    exact (State.rd_wr_ne _ _ ha.1).trans (s.atT_rd t a)

/-- The run beyond the tolerance grows, and is said where it is long enough and was not said (R237). -/
theorem plausCompare_differs {p : Fin 2} {t : Nat} {a b : Int} {s : State} (h : s.compares p t a b)
    (htol : s.rd (Obj.plausTol (2 * p.val)) < ((a - b).natAbs : Int)) (hlow : s.rd (Obj.plausRun (2 * p.val)) < 65535) :
    ∃ u : State, exec (.plausCompare p t) s = .next u ∧ u.rd (Obj.plausDiff (2 * p.val)) = a - b
      ∧ u.rd (Obj.plausRun (2 * p.val)) = s.rd (Obj.plausRun (2 * p.val)) + 1
      ∧ (s.rd (Obj.plausCount (2 * p.val)) ≤ s.rd (Obj.plausRun (2 * p.val)) + 1 → (s.convAt (2 * p.val)).plausSaid = false →
        (s.classOf 0x4403).1 ≠ .c0 → u.isPending 0x4403 (mkInst p.val 0) = true) := by
  obtain ⟨-, hdiff, hrun⟩ := plausObjs_apart p
  have hexec := (exec_plausCompare h).trans (if_pos htol)
  obtain ⟨hshown, hlonger⟩ := State.plausExceeds_rd p (a - b) (s.atT t)
  obtain ⟨o, honly⟩ := (s.atT t).plausExceeds_only (2 * p.val) (a - b)
  obtain ⟨tm, hat, -⟩ := s.atT_only t
  rw [State.atT_rd, min_eq_left (by omega)] at hlonger
  rw [hlonger] at hexec
  generalize (s.atT t).plausExceeds (2 * p.val) (a - b) = x at hexec hshown hlonger honly
  by_cases hsays : s.rd (Obj.plausCount (2 * p.val)) ≤ s.rd (Obj.plausRun (2 * p.val)) + 1 ∧ !(s.convAt (2 * p.val)).plausSaid
  · have hquiet := (x.plausSays (2 * p.val)).attributed_quiet 0x4403 (mkInst p.val 0) 0
    refine ⟨_, hexec.trans (if_pos hsays), (quiet_rd hquiet hdiff).trans hshown, (quiet_rd hquiet hrun).trans hlonger,
      fun _ _ hclass => State.attributed_pending (State.raisable_plaus ?_) ?_⟩
    · rw [honly, hat]
      exact h.2.1
    · rw [State.classOf_congr (s := s) _ (by rw [honly, hat]; rfl)]
      exact hclass
  · exact ⟨_, hexec.trans (if_neg hsays), hshown, hlonger, fun hcount hsaid _ => absurd ⟨hcount, by rw [hsaid]; rfl⟩ hsays⟩

/-! ## Open wires (R239) -/

theorem State.owDue_atT (s : State) (k i t u : Nat) : (s.atT t).owDue k i u = s.owDue k i u := by
  obtain ⟨tm, hat, -⟩ := s.atT_only t
  rw [hat]
  rfl

theorem State.owLatched_atT (s : State) (k i t : Nat) : (s.atT t).owLatched k i = s.owLatched k i := by
  unfold State.owLatched
  rw [State.atT_flt]

theorem exec_openWireDetect {k : Fin 6} {i : Fin 9} {t : Nat} {s : State} (hup : s.regionUp = true) (hconv : s.hasConv k.val = true)
    (hinput : inputWf k i = true) (hk : k ≠ 4) (hdue : s.owDue k.val i.val t = true) (hnew : s.owLatched k.val i.val = false) :
    exec (.openWireDetect k i t) s = .next ((s.atT t).fault 0x0401 (mkInst k.val i.val) 0) := by
  obtain ⟨tm, hat, -⟩ := s.atT_only t
  refine if_pos ?_
  rw [State.owDue_atT, State.owLatched_atT, hdue, hnew, hinput, decide_eq_true hk, hat]
  show ((s.regionUp && s.hasConv k.val && true && true) && true && !false) = true
  rw [hup, hconv]
  rfl

theorem exec_openWireDetect_none {k : Fin 6} {i : Fin 9} {t : Nat} {s : State}
    (h : s.owDue k.val i.val t = false ∨ s.owLatched k.val i.val = true) : exec (.openWireDetect k i t) s = .next (s.atT t) := by
  refine if_neg ?_
  rw [State.owDue_atT, State.owLatched_atT]
  rcases h with h | h <;> simp [h]

/-! ## Windows of the `AUX` inputs (R241) -/

/-- The means of a window that ends at `t` shown. -/
def State.auxShown (t : Nat) (s : State) : State :=
  forAll (List.range 8) (State.auxMean s.acc) (s.modConvN 5 (fun c => { c with auxEndT := t }))

theorem exec_auxWindow {t : Nat} {s : State} : exec (.auxWindow t) s
    = if !s.regionUp || (s.loaf.get s.auxLoafN).running || decide (t % msCycles ≠ 0 ∨ t ≤ (s.convAt 5).auxEndT) then .next (s.atT t)
      else .next (((s.atT t).auxShown t).setAcc (((s.atT t).auxShown t).acc.filter (fun a => decide (a.conv ≠ 5)))) := by
  obtain ⟨tm, hat, -⟩ := s.atT_only t
  show execAuxWindow t s = _
  unfold execAuxWindow
  rw [hat]
  rfl

/-- An input's mean is its accumulator's, or stays, flagged stale, where it has none. -/
theorem State.auxMean_taken {l : List Acc} {i : Nat} {a : Acc} (h : l.find? (fun a => a.conv == 5 && a.input == i) = some a)
    (hcount : a.count ≠ 0) (s : State) :
    (State.auxMean l i s).rd (Obj.chMean 5 i) = roundAway ((a.sum : Rat) / (a.count : Rat)) := by
  unfold State.auxMean
  rw [h]
  dsimp only
  rw [if_neg hcount, State.modConvN_rd, State.rd_wr_same]
theorem State.auxMean_stale {l : List Acc} {i : Nat} (h : l.find? (fun a => a.conv == 5 && a.input == i) = none) (s : State) :
    State.auxMean l i s = s.modConvN 5 (fun c => { c with auxStale := putBit c.auxStale i true }) := by
  unfold State.auxMean
  rw [h]

/-- Of CV5's unit an input's mean changes its own flags alone. -/
theorem State.auxMean_convAt (l : List Acc) (i : Nat) (s : State) : ∃ stale sat, (State.auxMean l i s).convAt 5
    = { s.convAt 5 with auxStale := putBit (s.convAt 5).auxStale i stale, auxSat := sat } := by
  unfold State.auxMean
  split
  · split
    · exact ⟨true, _, State.convAt_modConvN ..⟩
    · exact ⟨false, _, State.convAt_modConvN ..⟩
  · exact ⟨true, _, State.convAt_modConvN ..⟩
theorem State.auxMean_end (l : List Acc) (i : Nat) (s : State) : ((State.auxMean l i s).convAt 5).auxEndT = (s.convAt 5).auxEndT := by
  obtain ⟨stale, sat, h⟩ := s.auxMean_convAt l i
  rw [h]
theorem State.auxMean_stale_ne (l : List Acc) {i j : Nat} (hj : j ≠ i) (s : State) :
    ((State.auxMean l i s).convAt 5).auxStale.testBit j = (s.convAt 5).auxStale.testBit j := by
  obtain ⟨stale, sat, h⟩ := s.auxMean_convAt l i
  rw [h]
  exact (testBit_putBit ..).trans (if_neg hj)

theorem State.auxShown_taken {t i : Nat} {a : Acc} {s : State} (hi : i < 8)
    (h : s.acc.find? (fun a => a.conv == 5 && a.input == i) = some a) (hcount : a.count ≠ 0) :
    (s.auxShown t).rd (Obj.chMean 5 i) = roundAway ((a.sum : Rat) / (a.count : Rat)) := by
  obtain ⟨x, -, hsweep⟩ := forAll_once (g := fun x => x.rd (Obj.chMean 5 i)) (f := State.auxMean s.acc) List.nodup_range
    (List.mem_range.mpr hi) (fun j hj hji x => (State.auxMean_keeps _ j x).2 _ (by unfold Obj.chMean; omega))
    (s.modConvN 5 (fun c => { c with auxEndT := t }))
  exact hsweep.trans (State.auxMean_taken h hcount x)

theorem State.auxShown_stale {t i : Nat} {s : State} (hi : i < 8) (h : s.acc.find? (fun a => a.conv == 5 && a.input == i) = none) :
    (s.auxShown t).rd (Obj.chMean 5 i) = s.rd (Obj.chMean 5 i) ∧ ((s.auxShown t).convAt 5).auxStale.testBit i = true := by
  constructor
  · refine forAll_keeps_mem (g := fun x => x.rd (Obj.chMean 5 i)) (fun j hj x => ?_) (s.modConvN 5 (fun c => { c with auxEndT := t }))
    by_cases hji : j = i
    · rw [hji, State.auxMean_stale h, State.modConvN_rd]
    · exact (State.auxMean_keeps _ j x).2 _ (by unfold Obj.chMean; omega)
  · obtain ⟨x, -, hsweep⟩ := forAll_once (g := fun x => (x.convAt 5).auxStale.testBit i) (f := State.auxMean s.acc) List.nodup_range
      (List.mem_range.mpr hi) (fun j _ hji x => State.auxMean_stale_ne _ (Ne.symm hji) x)
      (s.modConvN 5 (fun c => { c with auxEndT := t }))
    refine hsweep.trans ?_
    rw [State.auxMean_stale h, State.convAt_modConvN]
    show (putBit _ i true).testBit i = true
    exact (testBit_putBit ..).trans (if_pos rfl)

theorem State.auxShown_end (t : Nat) (s : State) : ((s.auxShown t).convAt 5).auxEndT = t :=
  (forAll_keeps (g := fun x => (x.convAt 5).auxEndT) (fun i x => State.auxMean_end _ i x) _ _).trans
    (congrArg ConvSt.auxEndT (State.convAt_modConvN ..))

/-! ## A filled capture (R244) -/

theorem exec_captureComplete {t : Nat} {s : State} : exec (.captureComplete t) s
    = if s.rd Obj.capState = 3 ∧ s.cap.complete = true then
        .next (((s.atT t).wr Obj.capState 4).wr Obj.capLen (s.capImage.length : Int))
      else .next (s.atT t) := by
  obtain ⟨tm, hat, -⟩ := s.atT_only t
  show execCaptureComplete t s = _
  unfold execCaptureComplete
  rw [hat]
  rfl

end Sys2Proof.Machine

namespace Sys2Proof

open Sys2Proof.Machine

/-- Settles O41: each event by what its guard has found, then by what its step and the report after it leave. -/
theorem converterEvents : Obligations.ConverterEvents := by
  unfold Obligations.ConverterEvents
  refine ⟨?_, ?_, ?_, ?_, ?_, ?_, ?_, ?_, ?_, ?_, ?_, ?_, ?_, ?_, ?_⟩
  case refine_1 =>
    intro k line t s w hw hup hhas htrig hnew hlen hmode hcycle
    obtain ⟨tm, q, hfired⟩ := s.firing_only (Fin.ofNat 4 (line.val / 3)) t
    obtain rfl := hw.trans hfired
    exact injectedSeqStart_fires hw hup hhas htrig hnew ⟨hlen, hmode, hcycle⟩
  case refine_2 =>
    intro k line t s w hw hnone
    obtain ⟨tm, q, hfired⟩ := s.firing_only (Fin.ofNat 4 (line.val / 3)) t
    refine (exec_injectedSeqStart hw).trans (if_neg ?_)
    obtain rfl := hw.trans hfired
    simp only [Bool.and_eq_true, decide_eq_true_eq, not_and]
    intro htrig hnew
    rcases hnone with h | h
    · exact absurd (h.symm.trans htrig.2) Bool.false_ne_true
    · exact absurd hnew (Nat.not_lt.mpr h)
  case refine_3 =>
    intro p line t s w hw hup hhas hmode hcycle
    obtain ⟨tm, q, hfired⟩ := s.firing_only (Fin.ofNat 4 (line.val / 3)) t
    obtain rfl := hw.trans hfired
    exact pairBurstStart_fires hw hup hhas hmode hcycle
  case refine_4 =>
    intro p line t s w hw hnone
    obtain ⟨tm, q, hfired⟩ := s.firing_only (Fin.ofNat 4 (line.val / 3)) t
    obtain rfl := hw.trans hfired
    obtain ⟨hoff, hseen, hempty, -⟩ := exec_pairBurstStart (p := p) hw
    rcases hnone with h | ⟨htrig, h⟩ | ⟨htrig, h⟩
    · exact hoff h
    · exact hseen htrig h
    · exact hempty htrig h
  case refine_5 =>
    intro k sl s hup hhas hnone
    exact ⟨_, exec_sliceExclude_first sl hup hhas hnone, State.fault_quiet .., State.fault_pending⟩
  case refine_6 =>
    intro k sl s hup hhas hsome hnew hworks
    obtain ⟨hfailed, hexcl⟩ := s.sliceFailed_leaves k sl
    exact ⟨_, ⟨_, exec_sliceExclude_second hup hhas hsome hnew hworks, State.fault_quiet .., State.fault_pending⟩, hfailed, hexcl⟩
  case refine_7 => exact fun k s => mismatchConverged_leaves
  case refine_8 =>
    intro p t a b s hup hhas hen hstale ha hb hlo hhi
    have hcompares : s.compares p t a b := ⟨hup, hhas, hen, hstale, ha, hb, hlo, hhi⟩
    exact ⟨plausCompare_agrees hcompares, plausCompare_differs hcompares⟩
  case refine_9 => exact fun p t s h => exec_plausCompare_none h
  case refine_10 =>
    intro k i t s hup hconv hinput hk hdue hnew
    exact ⟨_, exec_openWireDetect hup hconv hinput hk hdue hnew, State.fault_quiet .., State.fault_pending⟩
  case refine_11 => exact fun k i t s h => exec_openWireDetect_none h
  case refine_12 =>
    intro t s hup hstopped hwhole hlater
    have hexec := (exec_auxWindow (t := t) (s := s)).trans (if_neg (by simp [hup, hstopped, hwhole, hlater]))
    refine ⟨_, hexec, State.auxShown_end t _, fun a ha => ?_, fun i hi a ha hcount => ?_, fun i hi hnone => ?_⟩
    · exact of_decide_eq_true (List.mem_filter.mp ha).2
    · exact State.auxShown_taken hi (by rw [State.atT_acc]; exact ha) hcount
    · obtain ⟨hmean, hstale⟩ := State.auxShown_stale (t := t) (s := s.atT t) hi (by rw [State.atT_acc]; exact hnone)
      exact ⟨hmean.trans (s.atT_rd t _), hstale⟩
  case refine_13 =>
    intro t s h
    refine exec_auxWindow.trans (if_pos ?_)
    rcases h with h | h | h <;> simp [h]
  case refine_14 =>
    intro t s hstate hfull
    refine ⟨_, exec_captureComplete.trans (if_pos ⟨hstate, hfull⟩), ?_, State.rd_wr_same .., s.atT_cap t, fun a ha => ?_⟩
    · rw [State.rd_wr_ne _ _ (by decide), State.rd_wr_same]
    · simp only [List.mem_cons, List.not_mem_nil, or_false, not_or] at ha
      rw [State.rd_wr_ne _ _ ha.2, State.rd_wr_ne _ _ ha.1, State.atT_rd]
  case refine_15 => exact fun t s h => exec_captureComplete.trans (if_neg (by simp [h]))

end Sys2Proof
end
